-- ==== Sys2Proof/Word.lean ====
section
/-!
DEFINITION. The words of the machine: a byte, and the 64-bit register slot of R497.
-/

namespace Sys2Proof

/-- A byte of memory, of a packet or of a record. -/
abbrev Byte := BitVec 8

/-- A register slot (R497). -/
abbrev Word := BitVec 64

end Sys2Proof
end

