-- ==== Sys2Proof/Syntax.lean ====
section
/-!
DEFINITION. The commands of the block: one constructor of `Instr` for each row of the command table, with the operands
that the row's rules name.  A command that something outside the machine triggers carries first the device time `t` (ns)
at which it happens; a command that the passage of time triggers carries no time, since the state fixes it.  `req` is the
requester number of a register access (R504).
-/

namespace Sys2Proof

/-- What the ECC finds in the line that an access reaches (R257): nothing, a corrected bit, an uncorrectable word in one
copy, in both copies. -/
inductive Ecc where
  | clean | corrected | oneCopy | both
  deriving DecidableEq, Repr

/-- Marks of a sluice queue word (R270). -/
inductive Mark where
  | more | last | bad
  deriving DecidableEq, Repr

/-- Causes of a queue reset (R274). -/
inductive ResetCause where
  | pointer | uncorrectable | software (req : Nat)
  deriving DecidableEq, Repr

/-- What the device reads from host memory for one ring when the link returns (R307, R308): the doorbell record, and the
first entry of a pending run. -/
structure HostRead where
  ring : Nat
  record : Nat
  entry : List Byte
  deriving DecidableEq, Repr

/-- The command in progress that a command row runs: submitting ring (or pseudo-ring) and command sequence, the elements
of its scatter list as (host address, length, flags) in the order read, and the bytes that the list's buffers hold (R290,
R291). -/
structure CmdRef where
  ring : Nat
  seq : Nat
  sg : List (Nat × Nat × Nat)
  data : List Byte
  deriving DecidableEq, Repr

/-- An accumulator: an integer, or FP32 bits. -/
inductive Acc where
  | int (v : Int)
  | fp (bits : Nat)
  deriving DecidableEq, Repr

/-- An entry of a cost table (R226). -/
structure CostEntry where
  resource : Nat
  op : Nat
  unit : Nat
  src : Nat
  dst : Nat
  fixed : Nat
  perEvent : Nat                -- in units of 1/256
  ceiling : Nat
  deriving DecidableEq, Repr

/-- A logical furrow core of a netlist: the values of its core group, its neuron and fan-out tables and its synapse
matrix (R99, R103, R123, R126). -/
structure ImgCore where
  logical : Nat
  scale : Nat
  gwMask : Nat
  up : Nat
  down : Nat
  neurons : List Nat
  fanout : List (Nat × Nat)     -- (index 16·n + k, entry)
  weights : List Byte
  deriving DecidableEq, Repr

/-- A population of a netlist: its number and the values of its registers (R117, R126). -/
structure ImgPop where
  number : Nat
  ctl : Nat
  shape : Nat
  dest : Nat
  hbuf : Nat
  deriving DecidableEq, Repr

/-- A part of a layer that one tile position holds: output rows and output channels from, to (R136, R176), and the tile
positions whose edge rows it needs (R177). -/
structure LayerPart where
  position : Nat
  row0 : Nat
  row1 : Nat
  ch0 : Nat
  ch1 : Nat
  feeds : List Nat
  deriving DecidableEq, Repr

/-- Functions of a vector unit (R134, R210, R211). -/
inductive VFn where
  | exp | recip | rsqrt | sigmoid | tanh | erf | sin | cos | angle
  deriving DecidableEq, Repr

/-- An element-wise operation of a vector unit (R134, R187).  Constants are FP32 bits; a list gives one per channel, and no
list stands for the second activation at the same place. -/
inductive VOp where
  | add (c : Option (List Nat)) | sub (c : Option (List Nat)) | mul (c : Option (List Nat)) | div (c : Option (List Nat))
  | max (c : Option (List Nat)) | min (c : Option (List Nat)) | fma (m : List Nat) (a : Option (List Nat))
  | prelu (slope : List Nat) | clip (lo : Nat) (hi : Nat) | hardSigmoid (a : Nat) (b : Nat) | hardSwish
  | gelu (byTanh : Bool) | sqrt | fn (f : VFn)
  deriving DecidableEq, Repr

/-- Where an activation of a layer comes from (R136, R182, R188): the slice's input, which the layer program forms from events
and count frames, the output of a layer, a map that a layer wrote to DRAM, or a layer's output in the stream's last slice; in a
fusion program, a member's projected channels with its visibility and age, of its own slice or of a late one, or the grid memory
(R203, R204). -/
inductive Src where
  | slice | layer (n : Nat) | map (n : Nat) | state (n : Nat) | member (position : Nat) (late : Bool) | grid
  deriving DecidableEq, Repr

/-- A layer of the active parameter set (R133, R144–R151, R156, R157–R175, R183, R189). -/
structure Layer where
  kind : Nat                    -- OPKIND
  fmt : Nat                     -- 0 INT8, 1 INT4, 2 E4M3, 3 E5M2, 4 MXINT8, 5 MXFP4, 6 BF16, 7 FP32
  outFmt : Nat
  h : Nat
  w : Nat
  cin : Nat
  cout : Nat
  kh : Nat
  kw : Nat
  strH : Nat
  strW : Nat
  dilH : Nat
  dilW : Nat
  padT : Nat
  padL : Nat
  padB : Nat
  padR : Nat
  padMode : Nat
  padConst : Nat
  groups : Nat
  weights : List Nat            -- codes, output channel by output channel, taps in row-major order, channels in each tap
  scales : List Nat             -- E8M0 scales of the weights' blocks of 32, in the same order
  bias : List Int               -- in the accumulation format
  mult : List Int               -- M of R133, per output channel
  shift : List Nat              -- S of R133
  zero : Int                    -- Z of R133
  deltaEn : Bool
  delta : Nat                   -- δ, FP32
  period : Nat                  -- K
  cls : Nat                     -- 0 EXACT, 1 TRUNC, 2 SKIP
  truncK : Nat
  truncG : Nat
  tau : Nat
  rho : Nat
  fmc : Nat
  fmcExp : Nat
  extrap : Nat
  scale : Nat
  outH : Nat
  outW : Nat
  outPadH : Nat
  outPadW : Nat
  parts : List LayerPart
  handover : Bool               -- its output is the group's output features
  spatial : Bool                -- its maps have spatial axes (R144)
  src : Src                     -- activation
  src2 : Src                    -- second activation: of an activation product, of an element-wise operation; box list
  src3 : Src                    -- values of an attention layer under SKIP (R151)
  fmt2 : Nat                    -- format of the second activation
  trans2 : Bool                 -- the second activation's rows are the product's inner dimension
  padK : List Nat               -- K_o of an MXINT8 layer, FP32 (R166)
  vec : Nat                     -- kind 6: 0 the program's own, 1 element-wise, 2 maximum, 3 average, 4 average with padding
  lane : Nat                    -- lanes of the element-wise operations: 7 FP32, 6 BF16, 8 INT32, 9 INT16 (R134)
  ops : List VOp                -- element-wise operations after the conversion of the output
  writes : Bool                 -- the layer program writes its output to DRAM (R182)
  deriving DecidableEq, Repr

/-- A model image with its parameter set, as the block reads it (R121, R123, R135, R138, R142, R149, R204, R226, R367).
The file format of an image is outside the spec: the image is given by what its rules use. -/
structure Image where
  bytes : List Byte             -- image ‖ parameter set
  formatOk : Bool               -- format and digest are right (R367)
  compact : Bool                -- layout
  noRemap : Bool                -- NO_REMAP (R142)
  tiles : Nat                   -- least number of tiles whose resident areas hold it (R135)
  cores : List ImgCore
  maps : List (Nat × List Byte) -- retina map of a stream (R105)
  pops : List ImgPop
  layers : List Layer
  gridLayout : Nat              -- identity of the grid channel layout (R205)
  gridChannels : Nat
  occ : Nat                     -- channel named for the agreement score (R208)
  motion : List (Nat × Nat)     -- (feature channel, its motion channel) (R201)
  fusion : List Layer           -- layers of the fusion program (R204)
  headLayer : Nat               -- which of them gives the detection head
  gridLayer : Nat               -- and which the new grid memory
  costs : List CostEntry
  deriving DecidableEq, Repr

/-- What a layer run brings from the layer or fusion program: the slice's input, a second one, the results of a layer whose arithmetic
is the program's own, their block scales, the order in which a reduction combined its lanes, and the vector cycles of the
program's own arithmetic (R134, R136). -/
structure LayerRun where
  x : List Nat
  x2 : List Nat
  y : List Nat
  xScales : List Nat            -- E8M0 scales, one per 32 channels of each position
  x2Scales : List Nat
  yScales : List Nat
  order : List Nat
  vec : Nat
  corrected : Bool              -- an SRAM error was corrected (R128)
  deriving DecidableEq, Repr

/-- The fuse array (R476). -/
structure FuseImage where
  serial : Nat
  rollback : Nat
  debug : Nat
  gradeE : Bool
  ownerSet : Bool
  secret : List Byte
  rootHash : List Byte
  ownerHash : List Byte
  mfgKey : List Byte
  romDigest : List Byte
  deriving DecidableEq, Repr

/-- The configuration flash as a start finds it (R473, R478, R479): the patch images in slots A and B and which of them is
ACTIVE (2: neither), the calibration items as (number, FACTORY, format version, flash offset, data), the sequence of the
directory, role keys as (role, key, mask), CAKs as (port, key, name), certificates and the attestation key's modulus. -/
structure FlashImage where
  slotA : List Byte
  slotB : List Byte
  active : Nat
  items : List (Nat × Bool × Nat × Nat × List Byte)
  seq : Nat
  keys : List (Nat × List Byte × Nat)
  caks : List (Nat × List Byte × List Byte)
  idChain : List Byte
  attCert : List Byte
  attModulus : List Byte
  deriving DecidableEq, Repr

/-- A cold start that fails (R468): step, cause code, detail. -/
structure StartFail where
  step : Nat
  cause : Nat
  detail : Nat
  deriving DecidableEq, Repr

/-- What a start meets: strap pins (R461); the fuses and the flash, where they are not as the state holds them; what fails
in a cold start; pseudo-channels that do not train or test well (R261); calibration items whose data fail their CRC, and
which directory copies (R473, R474) and key-store copies (R478) are valid, bit 0 the one with the higher sequence; the host
link as it trains; retention banks whose CRC fails (R455) and what fails in a warm
start (R466); the guarded calibration copy (R466); canal links that fail again (R268); the peer's lease word (R467); what the
device reads back from host memory (R307). -/
structure Boot where
  chainId : Nat
  perstHigh : Bool
  bistEn : Bool
  fuses : Option FuseImage
  flash : Option FlashImage
  fail : Option StartFail
  lostPcs : List Nat
  badItems : List Nat
  dirCopies : Nat
  keyCopies : Nat
  speed : Nat
  width : Nat
  cxl : Bool
  badBanks : Nat
  warmFail : Option StartFail
  calOk : Bool
  deadLinks : List Nat
  peerWord : Nat
  host : List HostRead
  deriving DecidableEq, Repr

/-- A transfer on the management bus (R451, R470): whether it is a read, its register pointer, the bytes written. -/
structure BusXfer where
  read : Bool
  pointer : Nat
  data : List Byte
  deriving DecidableEq, Repr
/-- A stream as admission sees it (R226–R236): what a command would change stands beside the registers.  In the loads of a
buddy, `slot` is the configuration epoch of the stream's image. -/
structure Load where
  stream : Nat
  group : Nat
  slot : Nat
  deadline : Nat                -- D, µs
  rate : Nat
  burst : Nat
  guardUs : Nat
  sliceUs : Nat
  waitUs : Nat
  anchor : Bool
  deriving DecidableEq, Repr

/-- What a device learns of a buddy when it pairs (R427): whether both are attached to one host, the peer's RAS_LEASE
address, its open streams and enabled groups, the images as (epoch, digest) that serve its groups and that it holds, the
loads of its admitted streams, the epoch of the image of each of its groups' fusion slots, the test and stream with which its
admission fails, and whether the Culvert ports carry frames of 9,216 bytes. -/
structure PairReply where
  sameHost : Bool
  lease : Nat
  streams : Nat
  groups : Nat
  serving : List (Nat × List Byte)
  resident : List (Nat × List Byte)
  loads : List Load
  fusion : List (Nat × Nat)
  refusal : Option (Nat × Nat)
  frames : Bool
  deriving DecidableEq, Repr

/-- A Culvert datagram as it arrives: source address, UDP payload, and what pairing would find (R404, R427). -/
structure Culvert where
  src : Nat
  bytes : List Byte
  pair : PairReply
  deriving DecidableEq, Repr

/-- What a PTP message brings the time unit beside its time stamp (R392, R393): an Announce of the selected master, a Sync
or Follow_Up with the offset it gives, the port state that the best-master algorithm decides, a PTP message to send in
answer. -/
structure PtpWork where
  announce : Bool
  offset : Option Int
  portState : Option Nat
  answer : List Byte
  deriving DecidableEq, Repr

/-- What key agreement does on an EAPOL frame (R390): agreement complete, transmit association number, receive channels,
EAPOL frames to send. -/
structure MkaWork where
  up : Bool
  txAn : Nat
  rxSc : Nat
  answer : List Byte
  deriving DecidableEq, Repr

/-- A frame as a port receives it, from the destination address up to and without the FCS: whether the FCS holds; whether
it came under MACsec and passed the ICV and replay checks; what PTP, key agreement and the NET component's address and
echo protocols make of it; what pairing would find. -/
structure Frame where
  bytes : List Byte
  fcsOk : Bool
  secured : Bool
  secOk : Bool
  ptp : PtpWork
  mka : MkaWork
  reply : List Byte
  pair : PairReply
  deriving DecidableEq, Repr

/-- What the fusion of an instant brings (R192, R204, R205): for each layer of the fusion program what the program itself gives
it, the lines of the grid memory that it read and found uncorrectable, by their number in the buffer, and the cycles in which
the array was busy. -/
structure Fused where
  runs : List LayerRun
  lost : List Nat
  busy : Nat
  deriving DecidableEq, Repr

/-- Kinds of access that a compartment check unit sees (R319). -/
inductive AccessKind where
  | fetch | load | store
  deriving DecidableEq, Repr

/-- An access of a control core that its check unit sees (R319). -/
structure CoreAccess where
  addr : Nat
  len : Nat
  kind : AccessKind
  deriving DecidableEq, Repr

/-- A flit as the receiving stop finds it (R268): its CRC is right; it is the last of its packet. -/
structure Flit where
  crcOk : Bool
  last : Bool
  deriving DecidableEq, Repr

/-- A log record that a step produces (R343): level, code and three arguments. -/
structure LogWork where
  level : Nat
  code : Nat
  a0 : Nat
  a1 : Nat
  a2 : Nat
  deriving DecidableEq, Repr

/-- A command step (R321): the command it belongs to, and the log records it produces. -/
structure StepWork where
  ring : Nat
  seq : Nat
  logs : List LogWork
  deriving DecidableEq, Repr


/-- The commands of the block. -/
inductive Instr where
  /-- `RUNNEL_BATCH` (R44): datagram of a source address and UDP port, last byte at the port at `t`. -/
  | runnelBatch (t : Nat) (port : Nat) (src : Nat) (sport : Nat) (payload : List Byte)
  /-- `JOURNAL_WRITE_COMPLETE` (R47): both guarded copies of the entry are complete. -/
  | journalWriteComplete (t : Nat) (stream : Nat) (seq : Nat)
  /-- `MIRROR_CONFIRMATION` (R49): the buddy confirms the entry. -/
  | mirrorConfirmation (t : Nat) (stream : Nat) (seq : Nat)
  /-- `MIRROR_TMO` (R49): 20 µs after the mirror request. -/
  | mirrorTmo (stream : Nat) (seq : Nat)
  /-- `GAP_ACK_REPEAT` (R46): 50 µs after the last ACK of a stream that holds batches. -/
  | gapAckRepeat (stream : Nat)
  /-- `HELD_BATCH_DROP` (R46): 1 ms in the reorder window. -/
  | heldBatchDrop (stream : Nat) (seq : Nat)
  /-- `SLICE_GUARD_EXPIRY` (R63): device time t_k + G of the open slice. -/
  | sliceGuardExpiry (stream : Nat)
  /-- `TRACKED_FIT` (R54): the stream's window of 64 batches is complete. -/
  | trackedFit (stream : Nat)
  /-- `HG_GLB_COMMIT` (R67): write to the commit register. -/
  | hgGlbCommit (t : Nat) (req : Nat) (val : Nat)
  /-- `HG_STREAM_COMMIT` (R68): write to the commit register. -/
  | hgStreamCommit (t : Nat) (req : Nat) (stream : Nat) (val : Nat)
  /-- `FRF_BIN_PASS` (R72): device time u + H of the next bin u. -/
  | frfBinPass
  /-- `FRF_DETECTOR_WINDOW_END` (R82): bin time of the next bin ends the lane's window. -/
  | frfDetectorWindowEnd (lane : Nat)
  /-- `FRF_SWITCH_INSTANT` (R79): bin time of the next bin is a multiple of 128 µs. -/
  | frfSwitchInstant
  /-- `FRF_DWELL_BOUNDARY` (R80): bin time of the next bin is a dwell boundary. -/
  | frfDwellBoundary
  /-- `FRF_FOLD_DECISION` (R91): bin time of the next bin ends the lane's fold interval. -/
  | frfFoldDecision (lane : Nat)
  /-- `FRF_MASK_UPDATE` (R93): the oldest decision is written to the mask table. -/
  | frfMaskUpdate
  /-- `FRF_MASK_TAKE_EFFECT` (R93): slice boundary of a waiting mask entry. -/
  | frfMaskTakeEffect (entry : Nat)
  /-- `FRF_MASK_EXPIRY` (R92): TTL after the entry's last FLICKER outcome. -/
  | frfMaskExpiry (entry : Nat)
  /-- `FRF_LANE_SWAP` (R84): write to the swap register. -/
  | frfLaneSwap (t : Nat) (req : Nat) (lane : Nat) (val : Nat)
  /-- `FADE_END` (R85): the fade has given output F. -/
  | fadeEnd (lane : Nat)
  /-- `FRF_SYNC` (R87): write to the sync register. -/
  | frfSync (t : Nat) (req : Nat) (val : Nat)
  /-- `FRF_MASK_DATA1` (R94): write that completes a mask entry. -/
  | frfMaskData1 (t : Nat) (req : Nat) (val : Nat)
  /-- `FRF_COEF_DATA` (R83): write of a coefficient. -/
  | frfCoefData (t : Nat) (req : Nat) (val : Nat)
  /-- `FRF_GLB_COMMIT` (R96): write to the commit register. -/
  | frfGlbCommit (t : Nat) (req : Nat) (val : Nat)
  /-- `FRF_LANE_COMMIT` (R96): write to the commit register. -/
  | frfLaneCommit (t : Nat) (req : Nat) (lane : Nat) (val : Nat)
  /-- `SPIKE_PACKET` (R110): 32-bit packet at the core that it names. -/
  | spikePacket (t : Nat) (packet : Nat)
  /-- `STEP_MARKER` (R109): 32-bit marker packet at the core that it names. -/
  | stepMarker (t : Nat) (packet : Nat)
  /-- `GATEWAY_MARKER` (R109): gateway marker of a stream. -/
  | gatewayMarker (t : Nat) (gateway : Nat) (stream : Nat) (step : Nat)
  /-- `STEP_END` (R113): all conditions of the core's open step hold. -/
  | stepEnd (t : Nat) (core : Nat)
  /-- `STEP_DEADLINE` (R114): latest start of the update of the open step. -/
  | stepDeadline (core : Nat)
  /-- `STRETCH_EXPIRY` (R114): the stretch of the step is used up. -/
  | stretchExpiry (core : Nat)
  /-- `COUNT_FRAME` (R118): a count window of the population ends. -/
  | countFrame (t : Nat) (pop : Nat)
  /-- `FURROW_CORE_FAULT` (R122): fault of a physical core, detection condition. -/
  | furrowCoreFault (t : Nat) (core : Nat) (cond : Nat)
  /-- `FW_GLB_COMMIT` (R124): write to the commit register. -/
  | fwGlbCommit (t : Nat) (req : Nat) (val : Nat)
  /-- `FW_CORE_COMMIT` (R124): write to the commit register. -/
  | fwCoreCommit (t : Nat) (req : Nat) (core : Nat) (val : Nat)
  /-- `FW_MAP_COMMIT` (R116): write to the commit register. -/
  | fwMapCommit (t : Nat) (req : Nat) (stream : Nat) (val : Nat)
  /-- `FW_POP_COMMIT` (R120): write to the commit register. -/
  | fwPopCommit (t : Nat) (req : Nat) (pop : Nat) (val : Nat)
  /-- `FW_TBL_DATA` (R126): write of a table word. -/
  | fwTblData (t : Nat) (req : Nat) (val : Nat)
  /-- `LAYER_BOUNDARY` (R238): a tile reaches a layer boundary: what the layer program gave the layer that ends. -/
  | layerBoundary (t : Nat) (tile : Nat) (run : LayerRun)
  /-- `HALO_PUBLISH` (R178): tile publishes the next generation of its edge rows for a consumer tile and layer;
reading them corrected an SRAM error, or not (R128). -/
  | haloPublish (t : Nat) (tile : Nat) (consumer : Nat) (layer : Nat) (stream : Nat) (k : Nat) (corrected : Bool)
  /-- `TILE_FAULT` (R140): fault of a tile, detection condition. -/
  | tileFault (t : Nat) (tile : Nat) (cond : Nat)
  /-- `GROUP_REMAP_COMPLETE` (R142): the survivors of a compact group are loaded. -/
  | groupRemapComplete (t : Nat) (group : Nat)
  /-- `ST_COMMIT` (R154): write to the commit register. -/
  | stCommit (t : Nat) (req : Nat) (tile : Nat) (val : Nat)
  /-- `FEATURE_ARRIVAL` (R197): the two words of a feature packet have arrived. -/
  | featureArrival (t : Nat) (word0 : List Byte) (word1 : List Byte)
  /-- `INSTANT_OPEN_TIMEOUT` (R197): OPEN_US after t_k without any feature. -/
  | instantOpenTimeout (group : Nat)
  /-- `INSTANT_EXPIRY` (R198): the wait limit of the open instant. -/
  | instantExpiry (group : Nat)
  /-- `FUSION_COMPLETE` (R211): fusion of the released instant ends. -/
  | fusionComplete (t : Nat) (group : Nat) (fused : Fused)
  /-- `SLOT_CHECKPOINT_COMPLETE` (R213): the slot checkpoint of the instant is complete. -/
  | slotCheckpointComplete (t : Nat) (group : Nat)
  /-- `COPPICE_UNIT_FAULT` (R218): fault of a unit, detection condition. -/
  | coppiceUnitFault (t : Nat) (unit : Nat) (cond : Nat)
  /-- `CP_GLB_COMMIT` (R219): write to the commit register. -/
  | cpGlbCommit (t : Nat) (req : Nat) (val : Nat)
  /-- `CP_GRP_COMMIT` (R219): write to the commit register. -/
  | cpGrpCommit (t : Nat) (req : Nat) (group : Nat) (val : Nat)
  /-- `CP_MBR_COMMIT` (R219): write to the commit register. -/
  | cpMbrCommit (t : Nat) (req : Nat) (stream : Nat) (val : Nat)
  /-- `ADMISSION_EVALUATION` (R228): Aidor evaluates the next waiting admission event. -/
  | admissionEvaluation (t : Nat)
  /-- `READMISSION` (R242): Aidor evaluates withdrawn streams. -/
  | readmission (t : Nat)
  /-- `CAPACITY_RELEASE` (R236): a capacity release falls due. -/
  | capacityRelease (t : Nat) (stream : Nat)
  /-- `FLOOR_LOWER` (R229): the last record charged at the old floor is out. -/
  | floorLower (t : Nat)
  /-- `DRAM_ACCESS` (R256): an access to a device address, with what the ECC finds. -/
  | dramAccess (t : Nat) (agent : Nat) (addr : Nat) (write : Bool) (data : List Byte) (len : Nat) (ecc : Ecc)
  /-- `PATROL_SCRUB` (R258): the scrubber reads a line. -/
  | patrolScrub (t : Nat) (addr : Nat) (ecc : Ecc)
  /-- `DRAM_REFRESH` (R262): a refresh interval elapses; hottest die in °C. -/
  | dramRefresh (t : Nat) (temp : Int)
  /-- `PSEUDO_CHANNEL_FAIL` (R260): a pseudo-channel fails, detection condition. -/
  | pseudoChannelFail (t : Nat) (pc : Nat) (cond : Nat)
  /-- `MEM_RGN_COMMIT` (R254): write to the commit register. -/
  | memRgnCommit (t : Nat) (req : Nat) (region : Nat) (val : Nat)
  /-- `CANAL_FLIT` (R268): a flit is received over a link (4·s + port of the receiving stop). -/
  | canalFlit (t : Nat) (link : Nat) (flit : Flit)
  /-- `LINK_FAIL` (R268): a link loses lane lock. -/
  | linkFail (t : Nat) (link : Nat)
  /-- `SQ_WRITE` (R270): a producer writes a word. -/
  | sqWrite (t : Nat) (queue : Nat) (agent : Nat) (mark : Mark) (word : List Byte)
  /-- `SQ_READ` (R272): a consumer reads a word. -/
  | sqRead (t : Nat) (queue : Nat) (agent : Nat)
  /-- `QUEUE_RESET` (R274): a queue reset takes place. -/
  | queueReset (t : Nat) (queue : Nat) (cause : ResetCause)
  /-- `SQ_Q_COMMIT` (R279): write to the commit register. -/
  | sqQCommit (t : Nat) (req : Nat) (val : Nat)
  /-- `DOORBELL_SNOOP` (R298): a snoop invalidated the line; the eight records then read. -/
  | doorbellSnoop (t : Nat) (block : Nat) (recs : List Nat) (xlate : Bool)
  /-- `DOORBELL_POLL` (R299): a poll of the line; the eight records read. -/
  | doorbellPoll (t : Nat) (block : Nat) (recs : List Nat) (xlate : Bool)
  /-- `WATCH_REREAD` (R298): the safeguard re-read of a held line. -/
  | watchReread (t : Nat) (block : Nat) (recs : List Nat)
  /-- `NUDGE` (R299): a write to the nudge page and the eight records then read. -/
  | nudge (t : Nat) (fn : Nat) (off : Nat) (recs : List Nat)
  /-- `DESCRIPTOR_FETCH` (R300): descriptors read from H upwards. -/
  | descriptorFetch (t : Nat) (ring : Nat) (descs : List (List Byte)) (xlate : Bool)
  /-- `RUN_WRITE` (R302): the next waiting run of the ring. -/
  | runWrite (t : Nat) (ring : Nat) (xlate : Bool)
  /-- `COALESCING_TIME` (R304): NT after the first entry not yet signalled. -/
  | coalescingTime (ring : Nat)
  /-- `FLR` (R309): function level reset. -/
  | flr (t : Nat) (fn : Nat)
  /-- `LINK_DOWN` (R308): the link goes down. -/
  | linkDown (t : Nat)
  /-- `LINK_UP` (R308): the link is up; host memory read back for each ring. -/
  | linkUp (t : Nat) (speed : Nat) (width : Nat) (cxl : Bool) (host : List HostRead)
  /-- `HIF_FN_COMMIT` (R312): write to the commit register. -/
  | hifFnCommit (t : Nat) (req : Nat) (fn : Nat) (val : Nat)
  /-- `HIF_FN_ADM_COMMIT` (R313): write to the commit register. -/
  | hifFnAdmCommit (t : Nat) (req : Nat) (fn : Nat) (val : Nat)
  /-- `COMMAND_STEP` (R321): a component runs one durable step. -/
  | commandStep (t : Nat) (core : Nat) (comp : Nat) (work : StepWork)
  /-- `COMPARTMENT_VIOLATION` (R320): a component breaks its compartment. -/
  | compartmentViolation (t : Nat) (core : Nat) (access : CoreAccess)
  /-- `CONTROL_CORE_FAIL` (R329): the watchdog declares a control core failed. -/
  | controlCoreFail (t : Nat) (core : Nat) (cond : Nat)
  /-- `CORE_REJOIN` (R329): a failed control core has reloaded; whether its patch passes the check. -/
  | coreRejoin (t : Nat) (core : Nat) (checkOk : Bool)
  /-- `MW_WRITE` (R331): a write to the management window. -/
  | mwWrite (t : Nat) (off : Nat) (size : Nat) (val : Nat)
  /-- `MW_CMD_GO` (R332): a write of 1 to the window's command register. -/
  | mwCmdGo (t : Nat)
  /-- `MBX_CFG` (R333): write to the register. -/
  | mbxCfg (t : Nat) (req : Nat) (mbx : Nat) (val : Nat)
  /-- `MBX_SEND` (R334): write to the register. -/
  | mbxSend (t : Nat) (req : Nat) (mbx : Nat) (val : Nat)
  /-- `MBX_RECV` (R334): read of the register. -/
  | mbxRecv (t : Nat) (req : Nat) (mbx : Nat)
  /-- `MBX_DB_RING` (R335): write to the register. -/
  | mbxDbRing (t : Nat) (req : Nat) (mbx : Nat) (val : Nat)
  /-- `LCK_ACQUIRE_READ` (R338): read of the lock register. -/
  | lckAcquireRead (t : Nat) (req : Nat) (lock : Nat)
  /-- `LCK_RELEASE_WRITE` (R338): write to the lock register. -/
  | lckReleaseWrite (t : Nat) (req : Nat) (lock : Nat) (val : Nat)
  /-- `LCK_FORCE` (R339): write to the register. -/
  | lckForce (t : Nat) (req : Nat) (val : Nat)
  /-- `COMPONENT_HANDOVER` (R341): a component passes to its new version. -/
  | componentHandover (t : Nat) (comp : Nat) (handoverOk : Bool)
  /-- `DEFERRED_ACTIVATION_BEGIN` (R342): a deferred activation begins. -/
  | deferredActivationBegin (t : Nat)
  /-- `SESSION_CHALLENGE` (R357): command 0x01. -/
  | sessionChallenge (t : Nat) (cmd : CmdRef)
  /-- `SESSION_OPEN` (R357): command 0x02. -/
  | sessionOpen (t : Nat) (cmd : CmdRef)
  /-- `SESSION_CLOSE` (R358): command 0x03. -/
  | sessionClose (t : Nat) (cmd : CmdRef)
  /-- `RING_CREATE` (R359): command 0x10. -/
  | ringCreate (t : Nat) (cmd : CmdRef)
  /-- `RING_DESTROY` (R360): command. -/
  | ringDestroy (t : Nat) (cmd : CmdRef)
  /-- `RING_ATTACH` (R361): command. -/
  | ringAttach (t : Nat) (cmd : CmdRef)
  /-- `FW_VERSION` (R374): command. -/
  | fwVersion (t : Nat) (cmd : CmdRef)
  /-- `CLASS_SET` (R362): command. -/
  | classSet (t : Nat) (cmd : CmdRef)
  /-- `GROUP_SET` (R363): command. -/
  | groupSet (t : Nat) (cmd : CmdRef)
  /-- `STREAM_OPEN` (R364): command. -/
  | streamOpen (t : Nat) (cmd : CmdRef)
  /-- `STREAM_MODIFY` (R365): command. -/
  | streamModify (t : Nat) (cmd : CmdRef)
  /-- `STREAM_CLOSE` (R366): command. -/
  | streamClose (t : Nat) (cmd : CmdRef)
  /-- `MODEL_LOAD` (R367): command; the image that its data hold. -/
  | modelLoad (t : Nat) (cmd : CmdRef) (image : Image)
  /-- `MODEL_ACTIVATE` (R368): command. -/
  | modelActivate (t : Nat) (cmd : CmdRef)
  /-- `MODEL_ACTIVATE_CANCEL` (R369): command. -/
  | modelActivateCancel (t : Nat) (cmd : CmdRef)
  /-- `ACTIVATION_SWITCH` (R368): a pending activation reaches its boundary. -/
  | activationSwitch (t : Nat) (slot : Nat)
  /-- `MODEL_UNLOAD` (R370): command. -/
  | modelUnload (t : Nat) (cmd : CmdRef)
  /-- `MODEL_QUERY` (R370): command. -/
  | modelQuery (t : Nat) (cmd : CmdRef)
  /-- `CONFIG_COMMIT` (R371): command. -/
  | configCommit (t : Nat) (cmd : CmdRef)
  /-- `TIMED_CONFIG_COMMIT` (R371): the time of the earliest timed configuration. -/
  | timedConfigCommit
  /-- `CAL_READ` (R373): command. -/
  | calRead (t : Nat) (cmd : CmdRef)
  /-- `CAL_WRITE` (R373): command; whether the configuration flash takes the write. -/
  | calWrite (t : Nat) (cmd : CmdRef) (flashOk : Bool)
  /-- `FW_STAGE` (R482): command. -/
  | fwStage (t : Nat) (cmd : CmdRef)
  /-- `FW_ACTIVATE` (R342): command. -/
  | fwActivate (t : Nat) (cmd : CmdRef)
  /-- `FW_ACTIVATE_CANCEL` (R374): command. -/
  | fwActivateCancel (t : Nat) (cmd : CmdRef)
  /-- `FW_ACTIVATE_TIME` (R341): the time of a timed activation. -/
  | fwActivateTime
  /-- `TIME_GET` (R375): command. -/
  | timeGet (t : Nat) (cmd : CmdRef)
  /-- `TIME_SET` (R375): command. -/
  | timeSet (t : Nat) (cmd : CmdRef)
  /-- `POWER_SET` (R376): command. -/
  | powerSet (t : Nat) (cmd : CmdRef)
  /-- `STOP_ENTER` (R377): command. -/
  | stopEnter (t : Nat) (cmd : CmdRef)
  /-- `WARM_RESET` (R378): command; what the warm start meets. -/
  | warmReset (t : Nat) (cmd : CmdRef) (boot : Boot)
  /-- `STATS_READ` (R379): command. -/
  | statsRead (t : Nat) (cmd : CmdRef)
  /-- `LOG_CONFIG` (R379): command. -/
  | logConfig (t : Nat) (cmd : CmdRef)
  /-- `ATTEST` (R484): command. -/
  | attest (t : Nat) (cmd : CmdRef)
  /-- `KEY_PROVISION` (R485): command. -/
  | keyProvision (t : Nat) (cmd : CmdRef)
  /-- `BUDDY_PAIR` (R427): command; what the exchange with the peer finds. -/
  | buddyPair (t : Nat) (cmd : CmdRef) (peer : PairReply)
  /-- `BUDDY_UNPAIR` (R381): command. -/
  | buddyUnpair (t : Nat) (cmd : CmdRef)
  /-- `BUDDY_STATUS` (R381): command. -/
  | buddyStatus (t : Nat) (cmd : CmdRef)
  /-- `TEST_FAULT` (R382): command. -/
  | testFault (t : Nat) (cmd : CmdRef)
  /-- `TEST_FAULT_INJECTION` (R382): the injection of an accepted TEST_FAULT. -/
  | testFaultInjection (t : Nat)
  /-- `TEST_FAULT_RESTORE` (R528): the restore of an accepted TEST_FAULT. -/
  | testFaultRestore (t : Nat)
  /-- `INJECTION_DESCRIPTOR` (R383): the device reads the buffer of the oldest fetched injection descriptor. -/
  | injectionDescriptor (t : Nat) (ring : Nat) (buffer : List Byte)
  /-- `ETHERNET_FRAME` (R387): a frame is received. -/
  | ethernetFrame (t : Nat) (port : Nat) (frame : Frame)
  /-- `PORT_FAIL` (R386): a port fails. -/
  | portFail (t : Nat) (port : Nat)
  /-- `PORT_RETURN` (R386): a failed port has stayed up. -/
  | portReturn (t : Nat) (port : Nat)
  /-- `FDB_AGEING` (R387): a dynamic entry has aged. -/
  | fdbAgeing (t : Nat) (index : Nat)
  /-- `NET_FDB_DATA` (R410): write to the register. -/
  | netFdbData (t : Nat) (req : Nat) (val : Nat)
  /-- `SOURCE_TIMEOUT` (R392): the time source is silent. -/
  | sourceTimeout (t : Nat)
  /-- `HOLDOVER_LIMIT` (R392): HOLD_S in holdover. -/
  | holdoverLimit
  /-- `LAUNCH` (R397): the head frame of queue 7 starts. -/
  | launch (t : Nat) (port : Nat)
  /-- `NET_PORT_TXTS_ID` (R396): read of the register. -/
  | netPortTxtsId (t : Nat) (req : Nat) (port : Nat)
  /-- `CULVERT_DATAGRAM` (R405): a Culvert datagram arrives. -/
  | culvertDatagram (t : Nat) (port : Nat) (msg : Culvert)
  /-- `DISSENT_END` (R435): 1 s without a finding. -/
  | dissentEnd (peer : Nat) (epoch : Nat)
  /-- `CULVERT_RETRANSMIT` (R405): a retransmission timer expires. -/
  | culvertRetransmit (t : Nat) (peer : Nat) (chan : Nat)
  /-- `HEARTBEAT` (R407): a heartbeat interval elapses. -/
  | heartbeat (t : Nat)
  /-- `PEER_LOST` (R408): heartbeats of a peer are missing. -/
  | peerLost (t : Nat) (peer : Nat)
  /-- `AUTH_CHALLENGE` (R490): a challenge is sent to a peer. -/
  | authChallenge (t : Nat) (peer : Nat)
  /-- `TIM_NOW` (R391): read of the register. -/
  | timNow (t : Nat) (req : Nat)
  /-- `PPS_IN` (R395): an edge at the PPS input. -/
  | ppsIn (t : Nat)
  /-- `PPS_OUT` (R395): the next whole second. -/
  | ppsOut
  /-- `NET_GLB_COMMIT` (R409): write to the commit register. -/
  | netGlbCommit (t : Nat) (req : Nat) (val : Nat)
  /-- `NET_PORT_COMMIT` (R409): write to the commit register. -/
  | netPortCommit (t : Nat) (req : Nat) (port : Nat) (val : Nat)
  /-- `NET_EXP_COMMIT` (R409): write to the commit register. -/
  | netExpCommit (t : Nat) (req : Nat) (queue : Nat) (val : Nat)
  /-- `NET_PEER_COMMIT` (R409): write to the commit register. -/
  | netPeerCommit (t : Nat) (req : Nat) (peer : Nat) (val : Nat)
  /-- `TIM_COMMIT` (R409): write to the commit register. -/
  | timCommit (t : Nat) (req : Nat) (val : Nat)
  /-- `FATAL_ERROR` (R419): a FATAL error is detected. -/
  | fatalError (t : Nat) (part : Nat) (index : Nat) (cond : Nat)
  /-- `FAULT_SPACING_END` (R420): 10 ms after the last fault of the earliest suspension. -/
  | faultSpacingEnd
  /-- `LEASE_WRITE` (R431): the 100 µs lease cycle and what it reads. -/
  | leaseWrite (t : Nat) (readBack : Nat) (peerWord : Nat) (pathOk : Bool)
  /-- `FENCED` (R432): 900 µs of silence on both paths. -/
  | fenced (t : Nat)
  /-- `TAKEOVER` (R433): takeover of the buddy: what the device reads in host memory for the rings that it adopts. -/
  | takeover (t : Nat) (host : List HostRead)
  /-- `DVFS_REQUEST` (R441): the sequencer takes its target. -/
  | dvfsRequest (t : Nat)
  /-- `AVS_VOLTAGE_READ` (R441): a voltage read over AVSBus. -/
  | avsVoltageRead (t : Nat) (mv : Nat)
  /-- `PGOOD_HOLD` (R441): PGOOD has held after a raise. -/
  | pgoodHold (t : Nat)
  /-- `RAISE_TIMEOUT` (R441): the raise has not settled. -/
  | raiseTimeout
  /-- `POWER_CAP_DECISION` (R443): a power measurement interval elapses. -/
  | powerCapDecision (t : Nat) (mw : Nat)
  /-- `THERMAL_SAMPLE` (R444): a temperature sample of every sensor. -/
  | thermalSample (t : Nat) (temps : List Int)
  /-- `THROTTLE_STEP` (R444): the next throttle step. -/
  | throttleStep
  /-- `THERMAL_EMERGENCY_END` (R444): the emergency ends. -/
  | thermalEmergencyEnd (t : Nat)
  /-- `POWER_EMERGENCY` (R445): the power emergency input is asserted. -/
  | powerEmergency (t : Nat)
  /-- `POWER_EMERGENCY_END` (R445): the power emergency ends. -/
  | powerEmergencyEnd (t : Nat)
  /-- `PLL_LOCK_LOSS` (R439): the root PLL loses lock. -/
  | pllLockLoss (t : Nat)
  /-- `PGOOD_LOSS` (R522): a PGOOD input falls. -/
  | pgoodLoss (t : Nat) (rail : Nat)
  /-- `ADDRESS_MATCH` (R451): an address match on the management bus. -/
  | addressMatch (t : Nat) (addr : Nat) (xfer : BusXfer) (boot : Boot) (aclkOk : Bool)
  /-- `WAKE_ABORT` (R454): a wake fails a step. -/
  | wakeAbort (t : Nat) (cause : Nat) (index : Nat)
  /-- `WAKE_RETRY` (R454): a failed wake is tried again. -/
  | wakeRetry (t : Nat) (boot : Boot) (aclkOk : Bool)
  /-- `DOMAIN_READY` (R453): a power domain is ready. -/
  | domainReady (t : Nat) (dom : Nat)
  /-- `POWER_ON` (R460): VDD_AON rises. -/
  | powerOn (t : Nat) (boot : Boot)
  /-- `RST_N` (R460): RST_N is released. -/
  | rstN (t : Nat) (boot : Boot)
  /-- `PERST_N` (R460): PERST_N is released. -/
  | perstN (t : Nat) (boot : Boot)
  /-- `COLD_START_RETRY` (R468): a failed cold start is tried again. -/
  | coldStartRetry (t : Nat) (boot : Boot)
  /-- `READY_TIMEOUT` (R468): firmware was not ready in time. -/
  | readyTimeout (t : Nat)
  /-- `ARBITRATION_READ` (R471): a read at pointer 0xE0 of an address; the serials of the other devices that drive the bus. -/
  | arbitrationRead (t : Nat) (addr : Nat) (others : List Nat)
  /-- `SETPOS` (R471): a SETPOS write: its ten bytes. -/
  | setpos (t : Nat) (bytes : List Byte)
  /-- `MB_COMMAND` (R489): a management-bus command: the descriptor registers and the data buffer. -/
  | mbCommand (t : Nat) (desc : List Byte) (data : List Byte)
  /-- `BUS_SESSION_TIMEOUT` (R488): the bus session is idle. -/
  | busSessionTimeout
  /-- `DBG_NONCE` (R493): a debug nonce is requested. -/
  | dbgNonce (t : Nat)
  /-- `DBG_TOKEN` (R493): a debug token arrives. -/
  | dbgToken (t : Nat) (token : List Byte)
  /-- `SETUP_LOCK` (R511): write to SYS_CTL. -/
  | setupLock (t : Nat) (req : Nat) (val : Nat)
  /-- `SYS_SHADOW_DISCARD` (R508): write to the register. -/
  | sysShadowDiscard (t : Nat) (req : Nat) (val : Nat)
  /-- `CLAIM_LAPSED` (R508): 10 ms after the holder's last write. -/
  | claimLapsed (commit : Nat)
  /-- `PENDING_COMMIT_APPLY` (R509): the boundary of a pending commit. -/
  | pendingCommitApply (t : Nat) (commit : Nat)
  /-- `REGISTER_WRITE` (R508): a register write by a requester; `fn` 0: BAR0 of PF0 or its mirror, n: BAR0 of VF n. -/
  | registerWrite (t : Nat) (fn : Nat) (req : Nat) (off : Nat) (size : Nat) (val : Nat)
  /-- `VDD_AON_LOSS` (R522): VDD_AON falls. -/
  | vddAonLoss (t : Nat)
  /-- `PGOOD_RETURN` (R522): a PGOOD input returns. -/
  | pgoodReturn (t : Nat) (rail : Nat)
  /-- `ENUM_IN_CHANGE` (R471): the enumeration input changes. -/
  | enumInChange (t : Nat) (level : Bool)
  /-- `WAIT_TO_RESTORE` (R389): the G.8032 wait-to-restore timer. -/
  | waitToRestore (inst : Nat)
  /-- `GUARD_TIMER` (R389): the G.8032 guard timer. -/
  | guardTimer (inst : Nat)
  /-- `PPS_OUT_FALL` (R395): the end of the PPS output pulse. -/
  | ppsOutFall
  /-- `CE_MERGE_WINDOW` (R416): 1 ms after the first CORRECTED error. -/
  | ceMergeWindow (part : Nat) (index : Nat)
  /-- `MSIX_UNMASK` (R304): the host writes the mask bit of a vector. -/
  | msixUnmask (t : Nat) (fn : Nat) (vec : Nat) (masked : Bool)
  /-- `LINK_RETRAIN` (R223): the link retrains. -/
  | linkRetrain (t : Nat) (speed : Nat) (width : Nat)
  /-- `PORT_LINK_UP` (R385): a port's link comes up. -/
  | portLinkUp (t : Nat) (port : Nat)
  /-- `PAIRING_TIMEOUT` (R381): 1 s of pairing without READY. -/
  | pairingTimeout
  deriving DecidableEq, Repr

end Sys2Proof
end

