-- ==== Sys2Proof/Decode.lean ====
section
/-!
DEFINITION. Words of commands.  The opcode table gives no row any bits: a command reaches the block as an access, a message
or an event, never as a word, so no word spells one.
-/

namespace Sys2Proof

/-- The command that a word spells by the table's bits: none does. -/
def decodeTableWord (_nbits _w : Nat) : Option Instr := none

end Sys2Proof
end

