-- ==== Sys2Proof/Config.lean ====
section
/-!
DEFINITION. What an implementation fixes and what the spec leaves open.  Every constant here is opaque: no proof can see
its value, so whatever is proved holds for every value (DESIGN CHOICE, log entries 3 and 4).
-/

namespace Sys2Proof

/-- The places where the spec gives an effect whose value it does not state.  `Config.free` gives one value for each
place and each reading of the state's counter of such values. -/
inductive FreeKind where
  | eventListAddr     -- device address of a slice's event list (R65)
  | nonce             -- challenge nonces (R485, R489, R492)
  | sessionId         -- identifiers of sessions (R486)
  | signature         -- an RSA-PSS signature made with the device key (R484)
  | sessionKey        -- key material that no bus shows (R485, R491)
  | macTag            -- authentication tags made with such keys (R405)
  | emptyKey          -- bytes 60–63 of the descriptor of a slice without events (R65)
  | countFrameAddr    -- device address of a count frame (R119)
  | featureAddr       -- device address of a slice's feature maps (R137)
  | cacheVictim       -- slot that leaves a full slot cache (R213 does not say which)
  | numeric           -- a numeric result whose evaluation order or precision the spec leaves open (R14)
  | boot              -- a value that a restart leaves unspecified (R498)
  | load              -- a storage place that firmware chooses (R352)
  | undistorted       -- bytes of a map built with an undistortion table, whose format the spec does not give (R475)
  | challengeId       -- identifiers of challenges (R357)
  | romVersion        -- ROM version of B0 (R332 says that it is fixed and not what it is)
  | activeSlot        -- the active slot that FW_VERSION names while none is active (R374)
  | portDelay         -- a delay that a calibration item gives, whose format the spec does not give (R475)
  | itemVersion       -- format version that the directory gives a calibration item written by CAL_WRITE (R373, R474)
  | checkpointDone    -- 0 where the furrow checkpoint in the making is not complete when its core fails (R121)
  | contextRef        -- word that refers to a context in a mailbox (R337 does not give its form)
  | factoryMask       -- channel mask of the factory's MANUFACTURING key (R478 gives masks to the keys of the store alone)
  deriving DecidableEq, Repr

/-- A free value: place, reading of the counter. -/
opaque Config.free : FreeKind → Nat → Nat

/-- The half-band taps at distances 3, 5, 7, 9 and 11 from the centre, Q1.16 (R75 gives the filter's shape, its centre
tap and its DC gain, and no coefficients). -/
opaque Config.halfBandTap : Nat → Int

/-- Value of a field whose warm reset column shows a dash, between a warm reset and firmware ready (R498): BAR0 offset. -/
opaque Config.warmOpen : Nat → BitVec 64

/-- Which of the FP32 numbers around the exact result a vector unit gives for a function and an argument (R134 bounds the
error of its functions and fixes no result). -/
opaque Config.ulp : Nat → Nat → Nat

/-- The age channel of a late contribution: BF16 code for an age in ns (R203 does not give its unit). -/
opaque Config.ageCode : Nat → Nat

/-- Windows of a component's compartment: base, log2 of the size, rights R, W, X in bits 0 to 2 (R319 gives their form; the
compartment tables are Aidor's). -/
opaque Config.windowSet : Nat → List (Nat × Nat × Nat)

/-- Bitmap of the BAR0 blocks that a component's compartment may access (R319). -/
opaque Config.blockMap : Nat → Nat

/-- DRAM training record of a channel, byte by byte (R263 and R455 give its size and no layout). -/
opaque Config.training : Nat → Nat → BitVec 8

/-- Contents of the ROM, per byte offset (R264 gives its place and no contents). -/
opaque Config.rom : Nat → BitVec 8

end Sys2Proof
end

