-- ==== Sys2Proof/Machine/Bits.lean ====
section
/-!
DEFINITION. Bit ranges (R15), little-endian formats (R15), CRC-32C (R31, R36, R50), signed readings and the roundings
that the block chapters name.
-/

namespace Sys2Proof

/-- `n` ones. -/
def onesMask (n : Nat) : Word := BitVec.ofNat 64 (2 ^ n - 1)

/-- Bits [hi:lo] of a word, as a number (R15). -/
def getBits (w : Word) (hi lo : Nat) : Nat := ((w >>> lo) &&& onesMask (hi - lo + 1)).toNat

/-- The word with bits [hi:lo] replaced by the low bits of `v`. -/
def setBits (w : Word) (hi lo v : Nat) : Word :=
  (w &&& ~~~(onesMask (hi - lo + 1) <<< lo)) ||| ((BitVec.ofNat 64 v &&& onesMask (hi - lo + 1)) <<< lo)

/-- Bits [hi:lo] of a number. -/
def natBits (x hi lo : Nat) : Nat := (x >>> lo) % 2 ^ (hi - lo + 1)

/-- Reading of a `w`-bit number as two's complement. -/
def toSigned (w x : Nat) : Int :=
  let y := x % 2 ^ w
  if 2 * y < 2 ^ w then (y : Int) else (y : Int) - (2 ^ w : Nat)

/-- Two's complement of an integer in `w` bits. -/
def fromSigned (w : Nat) (x : Int) : Nat := (x % ((2 ^ w : Nat) : Int)).toNat

/-- The integer nearest to `x` that fits a signed `w`-bit field. -/
def satSigned (w : Nat) (x : Int) : Int :=
  let m : Int := ((2 ^ (w - 1) : Nat) : Int)
  if x ≥ m then m - 1 else if x < -m then -m else x

/-- The number nearest to `x` that fits an unsigned `w`-bit field. -/
def satNat (w x : Nat) : Nat := if x < 2 ^ w then x else 2 ^ w - 1

/-- Wrap to `w` bits. -/
def wrap (w x : Nat) : Nat := x % 2 ^ w

/-- Quotient rounded up; 0 for a zero divisor. -/
def ceilDiv (a b : Nat) : Nat := if b = 0 then 0 else (a + b - 1) / b

/-- Floor of a quotient of integers by a positive number. -/
def floorDiv (a : Int) (b : Nat) : Int := a.fdiv (b : Int)

/-- Quotient of integers rounded to nearest, ties away from zero (R54); `den` positive. -/
def roundHalfAway (num : Int) (den : Nat) : Int :=
  let q := (2 * num.natAbs + den) / (2 * den)
  if num < 0 then -(q : Int) else (q : Int)

/-- Quotient rounded to nearest, ties to even; `den` positive. -/
def roundHalfEven (num : Int) (den : Nat) : Int :=
  let a := num.natAbs
  let q := a / den
  let r := a % den
  let q' := if 2 * r > den then q + 1 else if 2 * r = den then (if q % 2 = 1 then q + 1 else q) else q
  if num < 0 then -(q' : Int) else (q' : Int)

/-- Integer square root rounded down, by bisection over `fuel` halvings. -/
def isqrtGo (x : Nat) : Nat → Nat → Nat → Nat
  | 0, lo, _ => lo
  | fuel + 1, lo, hi =>
    if hi ≤ lo + 1 then lo
    else
      let m := (lo + hi) / 2
      if m * m ≤ x then isqrtGo x fuel m hi else isqrtGo x fuel lo m

/-- Integer square root rounded down. -/
def isqrt (x : Nat) : Nat := isqrtGo x (Nat.log2 x + 2) 0 (x + 1)

/-- Number that a list of bytes makes, the first byte the least significant (R15). -/
def leNat : List Byte → Nat
  | [] => 0
  | b :: bs => b.toNat + 256 * leNat bs

/-- The `n` bytes of a number, least significant first (R15). -/
def leBytes : Nat → Nat → List Byte
  | 0, _ => []
  | n + 1, x => BitVec.ofNat 8 x :: leBytes n (x / 256)

/-- Number that a list of bytes makes, the first byte the most significant. -/
def beNat (bs : List Byte) : Nat := bs.foldl (fun a b => 256 * a + b.toNat) 0

/-- The `n` bytes of a number, most significant first. -/
def beBytes (n x : Nat) : List Byte := (leBytes n x).reverse

/-- `len` bytes of a list from position `i`. -/
def sliceAt (bs : List Byte) (i len : Nat) : List Byte := (bs.drop i).take len

/-- A record from fields, each a (width in bytes, value). -/
def fieldsBytes : List (Nat × Nat) → List Byte
  | [] => []
  | (n, v) :: r => leBytes n v ++ fieldsBytes r

/-- Little-endian number in bytes `i` to `i + len − 1` of a record. -/
def fieldAt (bs : List Byte) (i len : Nat) : Nat := leNat (sliceAt bs i len)

/-- `n` zero bytes. -/
def zeros (n : Nat) : List Byte := List.replicate n 0

/-- A list of bytes padded with zeros to a multiple of `m`. -/
def padTo (m : Nat) (bs : List Byte) : List Byte := bs ++ zeros (ceilDiv bs.length m * m - bs.length)

/-- One bit step of the reflected CRC-32C (polynomial 0x1EDC6F41). -/
def crcBits : Nat → BitVec 32 → BitVec 32
  | 0, c => c
  | n + 1, c => crcBits n (if c.getLsbD 0 then (c >>> 1) ^^^ 0x82F63B78#32 else c >>> 1)

/-- CRC-32C of a list of bytes. -/
def crc32c (bs : List Byte) : Nat :=
  (~~~ (bs.foldl (fun c b => crcBits 8 (c ^^^ b.setWidth 32)) 0xFFFFFFFF#32)).toNat

/-- A record with the CRC-32C of its bytes appended. -/
def withCrc (bs : List Byte) : List Byte := bs ++ leBytes 4 (crc32c bs)

/-- True when the last four bytes of a record are the CRC-32C of the bytes before them. -/
def crcOk (bs : List Byte) : Bool := fieldAt bs (bs.length - 4) 4 = crc32c (bs.take (bs.length - 4))

/-- 1 for true. -/
def bit (b : Bool) : Nat := if b then 1 else 0

/-- Number whose bits are a list, the first bit the least significant. -/
def ofBits : List Bool → Nat
  | [] => 0
  | b :: bs => bit b + 2 * ofBits bs

/-- Number of set bits below `n`. -/
def popcount : Nat → Nat → Nat
  | 0, _ => 0
  | n + 1, x => x % 2 + popcount n (x / 2)

/-- Sum of a list of numbers. -/
def sumNat (l : List Nat) : Nat := l.foldl (· + ·) 0

/-- Sum of a list of integers. -/
def sumInt (l : List Int) : Int := l.foldl (· + ·) 0

/-- Largest of a list of numbers; 0 for none. -/
def maxNat (l : List Nat) : Nat := l.foldl max 0

/-- Smallest of a list of numbers, if any. -/
def minNat? : List Nat → Option Nat
  | [] => none
  | x :: xs => match minNat? xs with
    | none => some x
    | some y => some (min x y)

end Sys2Proof
end

