-- ==== Sys2Proof/Machine/RegMap.lean ====
section
/-!
DEFINITION. The register map (R506, R512, R513 and the register tables of every block chapter): for each register its
BAR0 offset as a function of its indices (namespace `R`), for each field its place in that register (namespace `F`,
written `REGISTER.FIELD` as R16 writes it), and the table of access types and reset values that the shared
register-access operations read.  A cold value that the spec does not give is 0 (DESIGN CHOICE, log entry 2); a warm value that the
spec does not give is `none`.
-/

namespace Sys2Proof

/-- A field of a register: the BAR0 offset of the register and the bit range [hi:lo] (R15). -/
structure Fld where
  addr : Nat
  hi : Nat
  lo : Nat
  deriving DecidableEq, Repr

/-- The field's value in a register value. -/
def Fld.of (f : Fld) (w : Word) : Nat := getBits w f.hi f.lo

/-- Access types (R17). -/
inductive Access where
  | RO | RW | W1C | W1S | WO | RWL
  deriving DecidableEq, Repr

/-- One line of a register table: bits, access type, cold value, warm value (`none` where the table shows a dash). -/
structure FieldSpec where
  hi : Nat
  lo : Nat
  acc : Access
  cold : Nat
  warm : Option Nat
  deriving DecidableEq, Repr

/-- One register (or array of registers): base BAR0 offset, dimensions as (count, stride), size in bytes (R497), the
commit register of its double-buffered group with that register's strides (R508), and its fields. -/
structure RegSpec where
  base : Nat
  dims : List (Nat × Nat)
  size : Nat
  group : Option (Nat × List Nat)
  fields : List FieldSpec
  deriving DecidableEq, Repr

namespace R

/-- `SYS_ID` (R512). -/
def SYS_ID : Nat := 0x0
/-- `SYS_CTL` (R512). -/
def SYS_CTL : Nat := 0x8
/-- `SYS_STAT` (R512). -/
def SYS_STAT : Nat := 0x10
/-- `SYS_ERR` (R512). -/
def SYS_ERR : Nat := 0x18
/-- `SYS_ERR_INFO` (R512). -/
def SYS_ERR_INFO : Nat := 0x20
/-- `SYS_SHADOW_DISCARD` (R512). -/
def SYS_SHADOW_DISCARD : Nat := 0x28
/-- `SYS_CLAIM_SEL` (R512). -/
def SYS_CLAIM_SEL : Nat := 0x30
/-- `SYS_CLAIM_STAT` (R512). -/
def SYS_CLAIM_STAT : Nat := 0x38
/-- `SYS_SCRATCHk` (R512). -/
def SYS_SCRATCHk (i0 : Nat) : Nat := 0x80 + 8 * i0
/-- `CLK_STAT` (R458). -/
def CLK_STAT : Nat := 0x10000
/-- `PWR_DVFS` (R458). -/
def PWR_DVFS : Nat := 0x10008
/-- `PWR_CAP` (R458). -/
def PWR_CAP : Nat := 0x10010
/-- `PWR_TEMP` (R458). -/
def PWR_TEMP : Nat := 0x10018
/-- `PWR_EMERG` (R458). -/
def PWR_EMERG : Nat := 0x10020
/-- `PWR_DOM` (R458). -/
def PWR_DOM : Nat := 0x10028
/-- `PWR_RAIL` (R458). -/
def PWR_RAIL : Nat := 0x10030
/-- `PWR_STOP` (R458). -/
def PWR_STOP : Nat := 0x10038
/-- `PWR_WAKE_CFG` (R458). -/
def PWR_WAKE_CFG : Nat := 0x10040
/-- `PWR_WAKE_STAT` (R458). -/
def PWR_WAKE_STAT : Nat := 0x10048
/-- `PWR_RET_STAT` (R458). -/
def PWR_RET_STAT : Nat := 0x10050
/-- `PWR_CNT_DVFS` (R459). -/
def PWR_CNT_DVFS : Nat := 0x10080
/-- `PWR_CNT_THROTTLE` (R459). -/
def PWR_CNT_THROTTLE : Nat := 0x10088
/-- `PWR_CNT_CAP` (R459). -/
def PWR_CNT_CAP : Nat := 0x10090
/-- `PWR_CNT_STOP` (R459). -/
def PWR_CNT_STOP : Nat := 0x10098
/-- `PWR_CNT_STOP_ABORT` (R459). -/
def PWR_CNT_STOP_ABORT : Nat := 0x100A0
/-- `PWR_CNT_WAKE_FAIL` (R459). -/
def PWR_CNT_WAKE_FAIL : Nat := 0x100A8
/-- `HIF_ID` (R311). -/
def HIF_ID : Nat := 0x20000
/-- `HIF_STAT` (R311). -/
def HIF_STAT : Nat := 0x20008
/-- `HIF_CTL` (R311). -/
def HIF_CTL : Nat := 0x20010
/-- `HIF_POLL` (R311). -/
def HIF_POLL : Nat := 0x20018
/-- `HIF_WRR` (R311). -/
def HIF_WRR : Nat := 0x20020
/-- `HIF_EVT` (R311). -/
def HIF_EVT : Nat := 0x20028
/-- `HIF_ERR` (R311). -/
def HIF_ERR : Nat := 0x20030
/-- `HIF_RING_SEL` (R314). -/
def HIF_RING_SEL : Nat := 0x20040
/-- `HIF_RING_STAT` (R314). -/
def HIF_RING_STAT : Nat := 0x20048
/-- `HIF_RING_IDX` (R314). -/
def HIF_RING_IDX : Nat := 0x20050
/-- `HIF_CNT_DB_EVT` (R314). -/
def HIF_CNT_DB_EVT : Nat := 0x20060
/-- `HIF_CNT_DB_STALE` (R314). -/
def HIF_CNT_DB_STALE : Nat := 0x20068
/-- `HIF_CNT_NUDGE` (R314). -/
def HIF_CNT_NUDGE : Nat := 0x20070
/-- `HIF_CNT_EVT_DROP` (R314). -/
def HIF_CNT_EVT_DROP : Nat := 0x20078
/-- `HIF_FN_CFG` (R312). -/
def HIF_FN_CFG (i0 : Nat) : Nat := 0x21000 + 32 * i0
/-- `HIF_FN_DB` (R312). -/
def HIF_FN_DB (i0 : Nat) : Nat := 0x21008 + 32 * i0
/-- `HIF_FN_COMMIT` (R312). -/
def HIF_FN_COMMIT (i0 : Nat) : Nat := 0x21010 + 32 * i0
/-- `HIF_FN_CSTAT` (R312). -/
def HIF_FN_CSTAT (i0 : Nat) : Nat := 0x21014 + 32 * i0
/-- `HIF_FN_ADM_SQ` (R313). -/
def HIF_FN_ADM_SQ (i0 : Nat) : Nat := 0x22000 + 256 * i0
/-- `HIF_FN_ADM_CQ` (R313). -/
def HIF_FN_ADM_CQ (i0 : Nat) : Nat := 0x22008 + 256 * i0
/-- `HIF_FN_ADM_IRQ` (R313). -/
def HIF_FN_ADM_IRQ (i0 : Nat) : Nat := 0x22010 + 256 * i0
/-- `HIF_FN_ADM_COMMIT` (R313). -/
def HIF_FN_ADM_COMMIT (i0 : Nat) : Nat := 0x22018 + 256 * i0
/-- `HIF_FN_ADM_CSTAT` (R313). -/
def HIF_FN_ADM_CSTAT (i0 : Nat) : Nat := 0x2201C + 256 * i0
/-- `HIF_FN_ADM_STAT` (R313). -/
def HIF_FN_ADM_STAT (i0 : Nat) : Nat := 0x22020 + 256 * i0
/-- `HIF_FN_STAT` (R313). -/
def HIF_FN_STAT (i0 : Nat) : Nat := 0x22028 + 256 * i0
/-- `HG_CTL` (R67). -/
def HG_CTL : Nat := 0x40000
/-- `HG_JRN_BASE` (R67). -/
def HG_JRN_BASE : Nat := 0x40008
/-- `HG_JRN_SIZE` (R67). -/
def HG_JRN_SIZE : Nat := 0x40010
/-- `HG_GLB_COMMIT` (R67). -/
def HG_GLB_COMMIT : Nat := 0x40018
/-- `HG_GLB_CSTAT` (R67). -/
def HG_GLB_CSTAT : Nat := 0x4001C
/-- `HG_JRN_STAT` (R67). -/
def HG_JRN_STAT : Nat := 0x40020
/-- `HG_ERR` (R67). -/
def HG_ERR : Nat := 0x40028
/-- `HG_STREAM_CTL` (R68). -/
def HG_STREAM_CTL (i0 : Nat) : Nat := 0x41000 + 256 * i0
/-- `HG_STREAM_SRC_LO` (R68). -/
def HG_STREAM_SRC_LO (i0 : Nat) : Nat := 0x41008 + 256 * i0
/-- `HG_STREAM_SRC_HI` (R68). -/
def HG_STREAM_SRC_HI (i0 : Nat) : Nat := 0x41010 + 256 * i0
/-- `HG_STREAM_GEOM` (R68). -/
def HG_STREAM_GEOM (i0 : Nat) : Nat := 0x41018 + 256 * i0
/-- `HG_STREAM_BKT` (R68). -/
def HG_STREAM_BKT (i0 : Nat) : Nat := 0x41020 + 256 * i0
/-- `HG_STREAM_DN` (R68). -/
def HG_STREAM_DN (i0 : Nat) : Nat := 0x41028 + 256 * i0
/-- `HG_STREAM_HPM` (R68). -/
def HG_STREAM_HPM (i0 : Nat) : Nat := 0x41030 + 256 * i0
/-- `HG_STREAM_TOFF` (R68). -/
def HG_STREAM_TOFF (i0 : Nat) : Nat := 0x41038 + 256 * i0
/-- `HG_STREAM_TIME` (R68). -/
def HG_STREAM_TIME (i0 : Nat) : Nat := 0x41040 + 256 * i0
/-- `HG_STREAM_COMMIT` (R68). -/
def HG_STREAM_COMMIT (i0 : Nat) : Nat := 0x41048 + 256 * i0
/-- `HG_STREAM_CSTAT` (R68). -/
def HG_STREAM_CSTAT (i0 : Nat) : Nat := 0x4104C + 256 * i0
/-- `HG_STREAM_STAT` (R69). -/
def HG_STREAM_STAT (i0 : Nat) : Nat := 0x41050 + 256 * i0
/-- `HG_STREAM_RESID` (R69). -/
def HG_STREAM_RESID (i0 : Nat) : Nat := 0x41058 + 256 * i0
/-- `HG_STREAM_CNT_BATCH` (R70). -/
def HG_STREAM_CNT_BATCH (i0 : Nat) : Nat := 0x41080 + 256 * i0
/-- `HG_STREAM_CNT_EVENT` (R70). -/
def HG_STREAM_CNT_EVENT (i0 : Nat) : Nat := 0x41088 + 256 * i0
/-- `HG_STREAM_CNT_NAK` (R70). -/
def HG_STREAM_CNT_NAK (i0 : Nat) : Nat := 0x41090 + 256 * i0
/-- `HG_STREAM_CNT_DUP` (R70). -/
def HG_STREAM_CNT_DUP (i0 : Nat) : Nat := 0x41098 + 256 * i0
/-- `HG_STREAM_CNT_DISC` (R70). -/
def HG_STREAM_CNT_DISC (i0 : Nat) : Nat := 0x410A0 + 256 * i0
/-- `HG_STREAM_CNT_FILT` (R70). -/
def HG_STREAM_CNT_FILT (i0 : Nat) : Nat := 0x410A8 + 256 * i0
/-- `HG_STREAM_CNT_LATE` (R70). -/
def HG_STREAM_CNT_LATE (i0 : Nat) : Nat := 0x410B0 + 256 * i0
/-- `HG_STREAM_CNT_CLAMP` (R70). -/
def HG_STREAM_CNT_CLAMP (i0 : Nat) : Nat := 0x410B8 + 256 * i0
/-- `FRF_CTL` (R96). -/
def FRF_CTL : Nat := 0x60000
/-- `FRF_ROT` (R96). -/
def FRF_ROT : Nat := 0x60008
/-- `FRF_MASK_CTL` (R96). -/
def FRF_MASK_CTL : Nat := 0x60010
/-- `FRF_RPT_CTL` (R96). -/
def FRF_RPT_CTL : Nat := 0x60018
/-- `FRF_GLB_COMMIT` (R96). -/
def FRF_GLB_COMMIT : Nat := 0x60020
/-- `FRF_GLB_CSTAT` (R96). -/
def FRF_GLB_CSTAT : Nat := 0x60024
/-- `FRF_SYNC` (R96). -/
def FRF_SYNC : Nat := 0x60028
/-- `FRF_SYNC_TIME` (R96). -/
def FRF_SYNC_TIME : Nat := 0x60030
/-- `FRF_STAT` (R96). -/
def FRF_STAT : Nat := 0x60038
/-- `FRF_CNT_LATE` (R96). -/
def FRF_CNT_LATE : Nat := 0x60040
/-- `FRF_CNT_RPT_DROP` (R96). -/
def FRF_CNT_RPT_DROP : Nat := 0x60048
/-- `FRF_CH_SEL` (R96). -/
def FRF_CH_SEL : Nat := 0x60050
/-- `FRF_CH_COARSE` (R96). -/
def FRF_CH_COARSE : Nat := 0x60058
/-- `FRF_MASK_SEL` (R96). -/
def FRF_MASK_SEL : Nat := 0x60060
/-- `FRF_MASK_DATA0` (R96). -/
def FRF_MASK_DATA0 : Nat := 0x60068
/-- `FRF_MASK_DATA1` (R96). -/
def FRF_MASK_DATA1 : Nat := 0x60070
/-- `FRF_COEF_ADDR` (R96). -/
def FRF_COEF_ADDR : Nat := 0x60078
/-- `FRF_COEF_DATA` (R96). -/
def FRF_COEF_DATA : Nat := 0x60080
/-- `FRF_LANE_CTL` (R96). -/
def FRF_LANE_CTL (i0 : Nat) : Nat := 0x61000 + 128 * i0
/-- `FRF_LANE_FOLD` (R96). -/
def FRF_LANE_FOLD (i0 : Nat) : Nat := 0x61008 + 128 * i0
/-- `FRF_LANE_BCFG_A` (R96). -/
def FRF_LANE_BCFG_A (i0 : Nat) : Nat := 0x61010 + 128 * i0
/-- `FRF_LANE_BCFG_B` (R96). -/
def FRF_LANE_BCFG_B (i0 : Nat) : Nat := 0x61018 + 128 * i0
/-- `FRF_LANE_COMMIT` (R96). -/
def FRF_LANE_COMMIT (i0 : Nat) : Nat := 0x61020 + 128 * i0
/-- `FRF_LANE_CSTAT` (R96). -/
def FRF_LANE_CSTAT (i0 : Nat) : Nat := 0x61024 + 128 * i0
/-- `FRF_LANE_SWAP` (R96). -/
def FRF_LANE_SWAP (i0 : Nat) : Nat := 0x61028 + 128 * i0
/-- `FRF_LANE_STAT` (R96). -/
def FRF_LANE_STAT (i0 : Nat) : Nat := 0x61030 + 128 * i0
/-- `FRF_LANE_OUT` (R96). -/
def FRF_LANE_OUT (i0 : Nat) : Nat := 0x61038 + 128 * i0
/-- `FRF_LANE_DETk_A` (R96). -/
def FRF_LANE_DETk_A (i0 i1 : Nat) : Nat := 0x61040 + 128 * i0 + 16 * i1
/-- `FRF_LANE_DETk_B` (R96). -/
def FRF_LANE_DETk_B (i0 i1 : Nat) : Nat := 0x61048 + 128 * i0 + 16 * i1
/-- `FW_CTL` (R124). -/
def FW_CTL : Nat := 0x80000
/-- `FW_SPILL_BASE` (R124). -/
def FW_SPILL_BASE : Nat := 0x80008
/-- `FW_SPILL_SIZE` (R124). -/
def FW_SPILL_SIZE : Nat := 0x80010
/-- `FW_CKPT_BASE` (R124). -/
def FW_CKPT_BASE : Nat := 0x80018
/-- `FW_GLB_COMMIT` (R124). -/
def FW_GLB_COMMIT : Nat := 0x80020
/-- `FW_GLB_CSTAT` (R124). -/
def FW_GLB_CSTAT : Nat := 0x80024
/-- `FW_STEP_NOW` (R124). -/
def FW_STEP_NOW : Nat := 0x80028
/-- `FW_STAT` (R124). -/
def FW_STAT : Nat := 0x80030
/-- `FW_CNT_LATE` (R125). -/
def FW_CNT_LATE : Nat := 0x80040
/-- `FW_CNT_EXT_LATE` (R125). -/
def FW_CNT_EXT_LATE : Nat := 0x80048
/-- `FW_CNT_CARRY` (R125). -/
def FW_CNT_CARRY : Nat := 0x80050
/-- `FW_CNT_SPILL` (R125). -/
def FW_CNT_SPILL : Nat := 0x80058
/-- `FW_CNT_SPILL_STALL` (R125). -/
def FW_CNT_SPILL_STALL : Nat := 0x80060
/-- `FW_CNT_STRETCH` (R125). -/
def FW_CNT_STRETCH : Nat := 0x80068
/-- `FW_CNT_HOST_DROP` (R125). -/
def FW_CNT_HOST_DROP : Nat := 0x80070
/-- `FW_CNT_REPLAY` (R125). -/
def FW_CNT_REPLAY : Nat := 0x80078
/-- `FW_TBL_ADDR` (R126). -/
def FW_TBL_ADDR : Nat := 0x80080
/-- `FW_TBL_DATA` (R126). -/
def FW_TBL_DATA : Nat := 0x80088
/-- `FW_CORE_CFG` (R126). -/
def FW_CORE_CFG (i0 : Nat) : Nat := 0x81000 + 64 * i0
/-- `FW_CORE_UP_LO` (R126). -/
def FW_CORE_UP_LO (i0 : Nat) : Nat := 0x81008 + 64 * i0
/-- `FW_CORE_UP_HI` (R126). -/
def FW_CORE_UP_HI (i0 : Nat) : Nat := 0x81010 + 64 * i0
/-- `FW_CORE_DN_LO` (R126). -/
def FW_CORE_DN_LO (i0 : Nat) : Nat := 0x81018 + 64 * i0
/-- `FW_CORE_DN_HI` (R126). -/
def FW_CORE_DN_HI (i0 : Nat) : Nat := 0x81020 + 64 * i0
/-- `FW_CORE_COMMIT` (R126). -/
def FW_CORE_COMMIT (i0 : Nat) : Nat := 0x81028 + 64 * i0
/-- `FW_CORE_CSTAT` (R126). -/
def FW_CORE_CSTAT (i0 : Nat) : Nat := 0x8102C + 64 * i0
/-- `FW_CORE_STAT` (R126). -/
def FW_CORE_STAT (i0 : Nat) : Nat := 0x81030 + 64 * i0
/-- `FW_CORE_DQ` (R126). -/
def FW_CORE_DQ (i0 : Nat) : Nat := 0x81038 + 64 * i0
/-- `FW_MAP_CTL` (R126). -/
def FW_MAP_CTL (i0 : Nat) : Nat := 0x84000 + 32 * i0
/-- `FW_MAP_ADDR` (R126). -/
def FW_MAP_ADDR (i0 : Nat) : Nat := 0x84008 + 32 * i0
/-- `FW_MAP_COMMIT` (R126). -/
def FW_MAP_COMMIT (i0 : Nat) : Nat := 0x84010 + 32 * i0
/-- `FW_MAP_CSTAT` (R126). -/
def FW_MAP_CSTAT (i0 : Nat) : Nat := 0x84014 + 32 * i0
/-- `FW_POP_CTL` (R126). -/
def FW_POP_CTL (i0 : Nat) : Nat := 0x86000 + 64 * i0
/-- `FW_POP_SHAPE` (R126). -/
def FW_POP_SHAPE (i0 : Nat) : Nat := 0x86008 + 64 * i0
/-- `FW_POP_DEST` (R126). -/
def FW_POP_DEST (i0 : Nat) : Nat := 0x86010 + 64 * i0
/-- `FW_POP_HBUF` (R126). -/
def FW_POP_HBUF (i0 : Nat) : Nat := 0x86018 + 64 * i0
/-- `FW_POP_COMMIT` (R126). -/
def FW_POP_COMMIT (i0 : Nat) : Nat := 0x86020 + 64 * i0
/-- `FW_POP_CSTAT` (R126). -/
def FW_POP_CSTAT (i0 : Nat) : Nat := 0x86024 + 64 * i0
/-- `ST_CTL` (R154). -/
def ST_CTL (i0 : Nat) : Nat := 0xC0000 + 4096 * i0
/-- `ST_LAYOUT` (R154). -/
def ST_LAYOUT (i0 : Nat) : Nat := 0xC0008 + 4096 * i0
/-- `ST_DELTA_BASE` (R154). -/
def ST_DELTA_BASE (i0 : Nat) : Nat := 0xC0010 + 4096 * i0
/-- `ST_DELTA_SIZE` (R154). -/
def ST_DELTA_SIZE (i0 : Nat) : Nat := 0xC0018 + 4096 * i0
/-- `ST_COMMIT` (R154). -/
def ST_COMMIT (i0 : Nat) : Nat := 0xC0020 + 4096 * i0
/-- `ST_CSTAT` (R154). -/
def ST_CSTAT (i0 : Nat) : Nat := 0xC0024 + 4096 * i0
/-- `ST_STAT` (R154). -/
def ST_STAT (i0 : Nat) : Nat := 0xC0028 + 4096 * i0
/-- `ST_SLICE` (R154). -/
def ST_SLICE (i0 : Nat) : Nat := 0xC0030 + 4096 * i0
/-- `ST_ERR` (R154). -/
def ST_ERR (i0 : Nat) : Nat := 0xC0038 + 4096 * i0
/-- `ST_CNT_SLICE` (R155). -/
def ST_CNT_SLICE (i0 : Nat) : Nat := 0xC0040 + 4096 * i0
/-- `ST_CNT_BLK` (R155). -/
def ST_CNT_BLK (i0 : Nat) : Nat := 0xC0048 + 4096 * i0
/-- `ST_CNT_BLK_CHG` (R155). -/
def ST_CNT_BLK_CHG (i0 : Nat) : Nat := 0xC0050 + 4096 * i0
/-- `ST_CNT_REFRESH` (R155). -/
def ST_CNT_REFRESH (i0 : Nat) : Nat := 0xC0058 + 4096 * i0
/-- `ST_CNT_TRUNC` (R155). -/
def ST_CNT_TRUNC (i0 : Nat) : Nat := 0xC0060 + 4096 * i0
/-- `ST_CNT_SKIP` (R155). -/
def ST_CNT_SKIP (i0 : Nat) : Nat := 0xC0068 + 4096 * i0
/-- `ST_CNT_ARRAY` (R155). -/
def ST_CNT_ARRAY (i0 : Nat) : Nat := 0xC0070 + 4096 * i0
/-- `ST_CNT_VEC` (R155). -/
def ST_CNT_VEC (i0 : Nat) : Nat := 0xC0078 + 4096 * i0
/-- `ST_LYR_SEL` (R156). -/
def ST_LYR_SEL (i0 : Nat) : Nat := 0xC0080 + 4096 * i0
/-- `ST_LYR_CFG` (R156). -/
def ST_LYR_CFG (i0 : Nat) : Nat := 0xC0088 + 4096 * i0
/-- `ST_LYR_SKIP` (R156). -/
def ST_LYR_SKIP (i0 : Nat) : Nat := 0xC0090 + 4096 * i0
/-- `ST_LYR_OP` (R189). -/
def ST_LYR_OP (i0 : Nat) : Nat := 0xC0098 + 4096 * i0
/-- `ST_LYR_RS` (R189). -/
def ST_LYR_RS (i0 : Nat) : Nat := 0xC00A0 + 4096 * i0
/-- `ST_LYR_RSO` (R189). -/
def ST_LYR_RSO (i0 : Nat) : Nat := 0xC00A8 + 4096 * i0
/-- `ST_HALO_STAT` (R190). -/
def ST_HALO_STAT (i0 : Nat) : Nat := 0xC00B0 + 4096 * i0
/-- `ST_OPS_ERR` (R190). -/
def ST_OPS_ERR (i0 : Nat) : Nat := 0xC00B8 + 4096 * i0
/-- `ST_CNT_HALO_WAIT` (R191). -/
def ST_CNT_HALO_WAIT (i0 : Nat) : Nat := 0xC00C0 + 4096 * i0
/-- `ST_CNT_HALO_HOLD` (R191). -/
def ST_CNT_HALO_HOLD (i0 : Nat) : Nat := 0xC00C8 + 4096 * i0
/-- `ST_CNT_FMC_BLK` (R191). -/
def ST_CNT_FMC_BLK (i0 : Nat) : Nat := 0xC00D0 + 4096 * i0
/-- `ST_CNT_FMC_CLAMP` (R191). -/
def ST_CNT_FMC_CLAMP (i0 : Nat) : Nat := 0xC00D8 + 4096 * i0
/-- `ST_CNT_RS_DEGEN` (R191). -/
def ST_CNT_RS_DEGEN (i0 : Nat) : Nat := 0xC00E0 + 4096 * i0
/-- `ST_CNT_PAD_SKIP` (R191). -/
def ST_CNT_PAD_SKIP (i0 : Nat) : Nat := 0xC00E8 + 4096 * i0
/-- `ST_GRP_STAT` (R156). -/
def ST_GRP_STAT (i0 : Nat) : Nat := 0xF0000 + 64 * i0
/-- `ST_GRP_EPOCH` (R156). -/
def ST_GRP_EPOCH (i0 : Nat) : Nat := 0xF0008 + 64 * i0
/-- `ST_GRP_DISP` (R246). -/
def ST_GRP_DISP (i0 : Nat) : Nat := 0xF0010 + 64 * i0
/-- `ST_GRP_HEAD_DL` (R246). -/
def ST_GRP_HEAD_DL (i0 : Nat) : Nat := 0xF0018 + 64 * i0
/-- `ST_GRP_ADM` (R246). -/
def ST_GRP_ADM (i0 : Nat) : Nat := 0xF0020 + 64 * i0
/-- `ST_GRP_CNT_DISP` (R247). -/
def ST_GRP_CNT_DISP (i0 : Nat) : Nat := 0xF0028 + 64 * i0
/-- `ST_GRP_CNT_BKG` (R247). -/
def ST_GRP_CNT_BKG (i0 : Nat) : Nat := 0xF0030 + 64 * i0
/-- `ST_GRP_CNT_PREEMPT` (R247). -/
def ST_GRP_CNT_PREEMPT (i0 : Nat) : Nat := 0xF0038 + 64 * i0
/-- `CP_CTL` (R219). -/
def CP_CTL : Nat := 0x100000
/-- `CP_SLOT_BASE` (R219). -/
def CP_SLOT_BASE : Nat := 0x100008
/-- `CP_GLB_COMMIT` (R219). -/
def CP_GLB_COMMIT : Nat := 0x100010
/-- `CP_GLB_CSTAT` (R219). -/
def CP_GLB_CSTAT : Nat := 0x100014
/-- `CP_STAT` (R219). -/
def CP_STAT : Nat := 0x100018
/-- `CP_UNIT_STAT` (R219). -/
def CP_UNIT_STAT (i0 : Nat) : Nat := 0x100800 + 64 * i0
/-- `CP_UNIT_CACHE` (R219). -/
def CP_UNIT_CACHE (i0 : Nat) : Nat := 0x100808 + 64 * i0
/-- `CP_UNIT_CNT_BUSY` (R219). -/
def CP_UNIT_CNT_BUSY (i0 : Nat) : Nat := 0x100810 + 64 * i0
/-- `CP_UNIT_CNT_MISS` (R219). -/
def CP_UNIT_CNT_MISS (i0 : Nat) : Nat := 0x100818 + 64 * i0
/-- `CP_GRP_CTL` (R219). -/
def CP_GRP_CTL (i0 : Nat) : Nat := 0x101000 + 256 * i0
/-- `CP_GRP_GRID` (R219). -/
def CP_GRP_GRID (i0 : Nat) : Nat := 0x101008 + 256 * i0
/-- `CP_GRP_ORIGIN` (R219). -/
def CP_GRP_ORIGIN (i0 : Nat) : Nat := 0x101010 + 256 * i0
/-- `CP_GRP_GMEM` (R219). -/
def CP_GRP_GMEM (i0 : Nat) : Nat := 0x101018 + 256 * i0
/-- `CP_GRP_SLOTS` (R219). -/
def CP_GRP_SLOTS (i0 : Nat) : Nat := 0x101020 + 256 * i0
/-- `CP_GRP_HEALTH` (R219). -/
def CP_GRP_HEALTH (i0 : Nat) : Nat := 0x101028 + 256 * i0
/-- `CP_GRP_TRACK` (R219). -/
def CP_GRP_TRACK (i0 : Nat) : Nat := 0x101030 + 256 * i0
/-- `CP_GRP_ASSOC` (R219). -/
def CP_GRP_ASSOC (i0 : Nat) : Nat := 0x101038 + 256 * i0
/-- `CP_GRP_KIN` (R219). -/
def CP_GRP_KIN (i0 : Nat) : Nat := 0x101040 + 256 * i0
/-- `CP_GRP_RPT` (R219). -/
def CP_GRP_RPT (i0 : Nat) : Nat := 0x101048 + 256 * i0
/-- `CP_GRP_COMMIT` (R219). -/
def CP_GRP_COMMIT (i0 : Nat) : Nat := 0x101050 + 256 * i0
/-- `CP_GRP_CSTAT` (R219). -/
def CP_GRP_CSTAT (i0 : Nat) : Nat := 0x101054 + 256 * i0
/-- `CP_GRP_STAT` (R219). -/
def CP_GRP_STAT (i0 : Nat) : Nat := 0x101058 + 256 * i0
/-- `CP_GRP_INSTANT` (R219). -/
def CP_GRP_INSTANT (i0 : Nat) : Nat := 0x101060 + 256 * i0
/-- `CP_GRP_CKPT` (R219). -/
def CP_GRP_CKPT (i0 : Nat) : Nat := 0x101068 + 256 * i0
/-- `CP_GRP_CNT_INSTANT` (R220). -/
def CP_GRP_CNT_INSTANT (i0 : Nat) : Nat := 0x101080 + 256 * i0
/-- `CP_GRP_CNT_TIMEOUT` (R220). -/
def CP_GRP_CNT_TIMEOUT (i0 : Nat) : Nat := 0x101088 + 256 * i0
/-- `CP_GRP_CNT_LATE` (R220). -/
def CP_GRP_CNT_LATE (i0 : Nat) : Nat := 0x101090 + 256 * i0
/-- `CP_GRP_CNT_LATE_OLD` (R220). -/
def CP_GRP_CNT_LATE_OLD (i0 : Nat) : Nat := 0x101098 + 256 * i0
/-- `CP_GRP_CNT_EXTRAP` (R220). -/
def CP_GRP_CNT_EXTRAP (i0 : Nat) : Nat := 0x1010A0 + 256 * i0
/-- `CP_GRP_CNT_STALE` (R220). -/
def CP_GRP_CNT_STALE (i0 : Nat) : Nat := 0x1010A8 + 256 * i0
/-- `CP_GRP_CNT_BIRTH` (R220). -/
def CP_GRP_CNT_BIRTH (i0 : Nat) : Nat := 0x1010B0 + 256 * i0
/-- `CP_GRP_CNT_BIRTH_REFUSED` (R220). -/
def CP_GRP_CNT_BIRTH_REFUSED (i0 : Nat) : Nat := 0x1010B8 + 256 * i0
/-- `CP_GRP_CNT_RECLAIM` (R220). -/
def CP_GRP_CNT_RECLAIM (i0 : Nat) : Nat := 0x1010C0 + 256 * i0
/-- `CP_GRP_CNT_REVIVE` (R220). -/
def CP_GRP_CNT_REVIVE (i0 : Nat) : Nat := 0x1010C8 + 256 * i0
/-- `CP_GRP_CNT_RPT` (R220). -/
def CP_GRP_CNT_RPT (i0 : Nat) : Nat := 0x1010D0 + 256 * i0
/-- `CP_GRP_CNT_RPT_TRUNC` (R220). -/
def CP_GRP_CNT_RPT_TRUNC (i0 : Nat) : Nat := 0x1010D8 + 256 * i0
/-- `CP_GRP_CNT_DET_DROP` (R220). -/
def CP_GRP_CNT_DET_DROP (i0 : Nat) : Nat := 0x1010E0 + 256 * i0
/-- `CP_GRP_CNT_GRID_RESET` (R220). -/
def CP_GRP_CNT_GRID_RESET (i0 : Nat) : Nat := 0x1010E8 + 256 * i0
/-- `CP_MBR_CTL` (R220). -/
def CP_MBR_CTL (i0 : Nat) : Nat := 0x103000 + 32 * i0
/-- `CP_MBR_PROJ` (R220). -/
def CP_MBR_PROJ (i0 : Nat) : Nat := 0x103008 + 32 * i0
/-- `CP_MBR_STAT` (R220). -/
def CP_MBR_STAT (i0 : Nat) : Nat := 0x103010 + 32 * i0
/-- `CP_MBR_COMMIT` (R220). -/
def CP_MBR_COMMIT (i0 : Nat) : Nat := 0x103018 + 32 * i0
/-- `CP_MBR_CSTAT` (R220). -/
def CP_MBR_CSTAT (i0 : Nat) : Nat := 0x10301C + 32 * i0
/-- `MEM_CTL` (R276). -/
def MEM_CTL : Nat := 0x120000
/-- `MEM_GUARD_USED` (R276). -/
def MEM_GUARD_USED : Nat := 0x120008
/-- `MEM_ERR` (R276). -/
def MEM_ERR : Nat := 0x120010
/-- `MEM_PC_FAILk` (R276). -/
def MEM_PC_FAILk (i0 : Nat) : Nat := 0x120018 + 8 * i0
/-- `MEM_TEMP` (R276). -/
def MEM_TEMP : Nat := 0x120058
/-- `MEM_CNT_CE` (R277). -/
def MEM_CNT_CE : Nat := 0x120060
/-- `MEM_CNT_UE` (R277). -/
def MEM_CNT_UE : Nat := 0x120068
/-- `MEM_CNT_MIRROR_READ` (R277). -/
def MEM_CNT_MIRROR_READ : Nat := 0x120070
/-- `MEM_CNT_SCRUB` (R277). -/
def MEM_CNT_SCRUB : Nat := 0x120078
/-- `MEM_CNT_UNMAPPED` (R277). -/
def MEM_CNT_UNMAPPED : Nat := 0x120080
/-- `MEM_RGN_BASE` (R276). -/
def MEM_RGN_BASE (i0 : Nat) : Nat := 0x121000 + 32 * i0
/-- `MEM_RGN_CFG` (R276). -/
def MEM_RGN_CFG (i0 : Nat) : Nat := 0x121008 + 32 * i0
/-- `MEM_RGN_COMMIT` (R276). -/
def MEM_RGN_COMMIT (i0 : Nat) : Nat := 0x121010 + 32 * i0
/-- `MEM_RGN_CSTAT` (R276). -/
def MEM_RGN_CSTAT (i0 : Nat) : Nat := 0x121014 + 32 * i0
/-- `MEM_STOP_SHARE` (R276). -/
def MEM_STOP_SHARE (i0 : Nat) : Nat := 0x122000 + 8 * i0
/-- `CN_CTL` (R278). -/
def CN_CTL : Nat := 0x140000
/-- `CN_ERR` (R278). -/
def CN_ERR : Nat := 0x140008
/-- `CN_CNT_RETRY` (R278). -/
def CN_CNT_RETRY : Nat := 0x140010
/-- `CN_CNT_DETOUR` (R278). -/
def CN_CNT_DETOUR : Nat := 0x140018
/-- `CN_STOP_WT_EW` (R278). -/
def CN_STOP_WT_EW (i0 : Nat) : Nat := 0x141000 + 64 * i0
/-- `CN_STOP_WT_NS` (R278). -/
def CN_STOP_WT_NS (i0 : Nat) : Nat := 0x141008 + 64 * i0
/-- `CN_STOP_LINK` (R278). -/
def CN_STOP_LINK (i0 : Nat) : Nat := 0x141010 + 64 * i0
/-- `CN_STOP_SEQ` (R278). -/
def CN_STOP_SEQ (i0 : Nat) : Nat := 0x141018 + 64 * i0
/-- `SQ_SEL` (R279). -/
def SQ_SEL : Nat := 0x150000
/-- `SQ_Q_CFG` (R279). -/
def SQ_Q_CFG : Nat := 0x150008
/-- `SQ_Q_COMMIT` (R279). -/
def SQ_Q_COMMIT : Nat := 0x150010
/-- `SQ_Q_CSTAT` (R279). -/
def SQ_Q_CSTAT : Nat := 0x150014
/-- `SQ_Q_CTL` (R279). -/
def SQ_Q_CTL : Nat := 0x150018
/-- `SQ_Q_STAT` (R279). -/
def SQ_Q_STAT : Nat := 0x150020
/-- `SQ_Q_PKT` (R279). -/
def SQ_Q_PKT : Nat := 0x150028
/-- `SQ_ERR` (R279). -/
def SQ_ERR : Nat := 0x150030
/-- `SQ_CNT_RESET` (R279). -/
def SQ_CNT_RESET : Nat := 0x150038
/-- `NET_PORT_CTL` (R411). -/
def NET_PORT_CTL (i0 : Nat) : Nat := 0x160000 + 8192 * i0
/-- `NET_PORT_DLY` (R411). -/
def NET_PORT_DLY (i0 : Nat) : Nat := 0x160008 + 8192 * i0
/-- `NET_PORT_COMMIT` (R411). -/
def NET_PORT_COMMIT (i0 : Nat) : Nat := 0x160010 + 8192 * i0
/-- `NET_PORT_CSTAT` (R411). -/
def NET_PORT_CSTAT (i0 : Nat) : Nat := 0x160014 + 8192 * i0
/-- `NET_PORT_STAT` (R411). -/
def NET_PORT_STAT (i0 : Nat) : Nat := 0x160018 + 8192 * i0
/-- `NET_PORT_TXTS_ID` (R411). -/
def NET_PORT_TXTS_ID (i0 : Nat) : Nat := 0x160020 + 8192 * i0
/-- `NET_PORT_TXTS_TIME` (R411). -/
def NET_PORT_TXTS_TIME (i0 : Nat) : Nat := 0x160028 + 8192 * i0
/-- `NET_PORT_TXTS_STAT` (R411). -/
def NET_PORT_TXTS_STAT (i0 : Nat) : Nat := 0x160030 + 8192 * i0
/-- `NET_PORT_MACSEC` (R411). -/
def NET_PORT_MACSEC (i0 : Nat) : Nat := 0x160038 + 8192 * i0
/-- `NET_PORT_CNT_RX` (R411). -/
def NET_PORT_CNT_RX (i0 : Nat) : Nat := 0x160040 + 8192 * i0
/-- `NET_PORT_CNT_TX` (R411). -/
def NET_PORT_CNT_TX (i0 : Nat) : Nat := 0x160048 + 8192 * i0
/-- `NET_PORT_CNT_RX_FCS` (R411). -/
def NET_PORT_CNT_RX_FCS (i0 : Nat) : Nat := 0x160050 + 8192 * i0
/-- `NET_PORT_CNT_FEC_UNCORR` (R411). -/
def NET_PORT_CNT_FEC_UNCORR (i0 : Nat) : Nat := 0x160058 + 8192 * i0
/-- `NET_PORT_CNT_MACSEC_DROP` (R411). -/
def NET_PORT_CNT_MACSEC_DROP (i0 : Nat) : Nat := 0x160060 + 8192 * i0
/-- `NET_PORT_CNT_TXTS_DROP` (R411). -/
def NET_PORT_CNT_TXTS_DROP (i0 : Nat) : Nat := 0x160068 + 8192 * i0
/-- `NET_PORT_CNT_LATE_SENT` (R411). -/
def NET_PORT_CNT_LATE_SENT (i0 : Nat) : Nat := 0x160070 + 8192 * i0
/-- `NET_PORT_CNT_LATE_DROP` (R411). -/
def NET_PORT_CNT_LATE_DROP (i0 : Nat) : Nat := 0x160078 + 8192 * i0
/-- `NET_CTL` (R410). -/
def NET_CTL : Nat := 0x161000
/-- `NET_MAC` (R410). -/
def NET_MAC : Nat := 0x161008
/-- `NET_IP4` (R410). -/
def NET_IP4 : Nat := 0x161010
/-- `NET_IP6_LO` (R410). -/
def NET_IP6_LO : Nat := 0x161018
/-- `NET_IP6_HI` (R410). -/
def NET_IP6_HI : Nat := 0x161020
/-- `NET_GLB_COMMIT` (R410). -/
def NET_GLB_COMMIT : Nat := 0x161028
/-- `NET_GLB_CSTAT` (R410). -/
def NET_GLB_CSTAT : Nat := 0x16102C
/-- `NET_FDB_ADDR` (R410). -/
def NET_FDB_ADDR : Nat := 0x161030
/-- `NET_FDB_DATA` (R410). -/
def NET_FDB_DATA : Nat := 0x161038
/-- `NET_FDB_VID` (R410). -/
def NET_FDB_VID : Nat := 0x161040
/-- `NET_VLAN_ADDR` (R410). -/
def NET_VLAN_ADDR : Nat := 0x161048
/-- `NET_VLAN_DATA` (R410). -/
def NET_VLAN_DATA : Nat := 0x161050
/-- `NET_ERP_k` (R410). -/
def NET_ERP_k (i0 : Nat) : Nat := 0x161080 + 8 * i0
/-- `NET_CNT_FDB_FULL` (R410). -/
def NET_CNT_FDB_FULL : Nat := 0x1610C0
/-- `NET_ERR` (R410). -/
def NET_ERR : Nat := 0x1610C8
/-- `NET_PEER_CTL` (R412). -/
def NET_PEER_CTL (i0 : Nat) : Nat := 0x161400 + 32 * i0
/-- `NET_PEER_ADDR_LO` (R412). -/
def NET_PEER_ADDR_LO (i0 : Nat) : Nat := 0x161408 + 32 * i0
/-- `NET_PEER_ADDR_HI` (R412). -/
def NET_PEER_ADDR_HI (i0 : Nat) : Nat := 0x161410 + 32 * i0
/-- `NET_PEER_STAT` (R412). -/
def NET_PEER_STAT (i0 : Nat) : Nat := 0x161418 + 32 * i0
/-- `NET_PEER_COMMIT` (R412). -/
def NET_PEER_COMMIT (i0 : Nat) : Nat := 0x161600 + 8 * i0
/-- `NET_PEER_CSTAT` (R412). -/
def NET_PEER_CSTAT (i0 : Nat) : Nat := 0x161604 + 8 * i0
/-- `NET_EXP_CTL` (R412). -/
def NET_EXP_CTL (i0 : Nat) : Nat := 0x161800 + 64 * i0
/-- `NET_EXP_DST_LO` (R412). -/
def NET_EXP_DST_LO (i0 : Nat) : Nat := 0x161808 + 64 * i0
/-- `NET_EXP_DST_HI` (R412). -/
def NET_EXP_DST_HI (i0 : Nat) : Nat := 0x161810 + 64 * i0
/-- `NET_EXP_UDP` (R412). -/
def NET_EXP_UDP (i0 : Nat) : Nat := 0x161818 + 64 * i0
/-- `NET_EXP_COMMIT` (R412). -/
def NET_EXP_COMMIT (i0 : Nat) : Nat := 0x161820 + 64 * i0
/-- `NET_EXP_CSTAT` (R412). -/
def NET_EXP_CSTAT (i0 : Nat) : Nat := 0x161824 + 64 * i0
/-- `NET_EXP_STAT` (R412). -/
def NET_EXP_STAT (i0 : Nat) : Nat := 0x161828 + 64 * i0
/-- `NET_EXP_CNT` (R412). -/
def NET_EXP_CNT (i0 : Nat) : Nat := 0x161830 + 64 * i0
/-- `NET_EXP_CNT_RESENT` (R412). -/
def NET_EXP_CNT_RESENT (i0 : Nat) : Nat := 0x161838 + 64 * i0
/-- `TIM_NOW` (R413). -/
def TIM_NOW : Nat := 0x180000
/-- `TIM_NOW_FRAC` (R413). -/
def TIM_NOW_FRAC : Nat := 0x180008
/-- `TIM_ADDEND` (R413). -/
def TIM_ADDEND : Nat := 0x180010
/-- `TIM_SERVO` (R413). -/
def TIM_SERVO : Nat := 0x180018
/-- `TIM_OFFSET` (R413). -/
def TIM_OFFSET : Nat := 0x180020
/-- `TIM_PPS` (R413). -/
def TIM_PPS : Nat := 0x180028
/-- `TIM_PPS_IN` (R413). -/
def TIM_PPS_IN : Nat := 0x180030
/-- `TIM_BC` (R413). -/
def TIM_BC : Nat := 0x180038
/-- `TIM_COMMIT` (R413). -/
def TIM_COMMIT : Nat := 0x180040
/-- `TIM_CSTAT` (R413). -/
def TIM_CSTAT : Nat := 0x180044
/-- `SEC_SERIAL` (R495). -/
def SEC_SERIAL : Nat := 0x1A0000
/-- `SEC_FUSE` (R495). -/
def SEC_FUSE : Nat := 0x1A0008
/-- `SEC_KEYS` (R495). -/
def SEC_KEYS : Nat := 0x1A0010
/-- `SEC_SESS` (R495). -/
def SEC_SESS : Nat := 0x1A0018
/-- `SEC_DBG` (R495). -/
def SEC_DBG : Nat := 0x1A0020
/-- `SEC_ERR` (R495). -/
def SEC_ERR : Nat := 0x1A0028
/-- `SEC_CNT_PROOF_FAIL` (R496). -/
def SEC_CNT_PROOF_FAIL : Nat := 0x1A0040
/-- `SEC_CNT_SIG_FAIL` (R496). -/
def SEC_CNT_SIG_FAIL : Nat := 0x1A0048
/-- `SEC_CNT_TOKEN_FAIL` (R496). -/
def SEC_CNT_TOKEN_FAIL : Nat := 0x1A0050
/-- `SEC_CNT_SESSION_OPEN` (R496). -/
def SEC_CNT_SESSION_OPEN : Nat := 0x1A0058
/-- `MBX_CFG` (R348). -/
def MBX_CFG (i0 : Nat) : Nat := 0x1C0000 + 64 * i0
/-- `MBX_SEND` (R348). -/
def MBX_SEND (i0 : Nat) : Nat := 0x1C0008 + 64 * i0
/-- `MBX_RECV` (R348). -/
def MBX_RECV (i0 : Nat) : Nat := 0x1C0010 + 64 * i0
/-- `MBX_STAT` (R348). -/
def MBX_STAT (i0 : Nat) : Nat := 0x1C0018 + 64 * i0
/-- `MBX_DB_RING` (R348). -/
def MBX_DB_RING (i0 : Nat) : Nat := 0x1C0020 + 64 * i0
/-- `MBX_DB_PEND` (R348). -/
def MBX_DB_PEND (i0 : Nat) : Nat := 0x1C0028 + 64 * i0
/-- `MBX_DB_MASK` (R348). -/
def MBX_DB_MASK (i0 : Nat) : Nat := 0x1C0030 + 64 * i0
/-- `MBX_DB_WAKE` (R348). -/
def MBX_DB_WAKE (i0 : Nat) : Nat := 0x1C0038 + 64 * i0
/-- `LCK_l` (R349). -/
def LCK_l (i0 : Nat) : Nat := 0x1C2000 + 8 * i0
/-- `LCK_PEEK_l` (R349). -/
def LCK_PEEK_l (i0 : Nat) : Nat := 0x1C2200 + 8 * i0
/-- `LCK_ORPHAN` (R349). -/
def LCK_ORPHAN : Nat := 0x1C3000
/-- `LCK_FORCE` (R349). -/
def LCK_FORCE : Nat := 0x1C3008
/-- `LCK_ERR` (R349). -/
def LCK_ERR : Nat := 0x1C3010
/-- `MBX_ERR` (R349). -/
def MBX_ERR : Nat := 0x1C3018
/-- `MBX_HOST_IRQ` (R349). -/
def MBX_HOST_IRQ : Nat := 0x1C3020
/-- `MBX_CORE_STAT` (R349). -/
def MBX_CORE_STAT : Nat := 0x1C3028
/-- `RAS_CTL` (R436). -/
def RAS_CTL : Nat := 0x1E0000
/-- `RAS_LOG_BASE` (R436). -/
def RAS_LOG_BASE : Nat := 0x1E0008
/-- `RAS_LEASE` (R436). -/
def RAS_LEASE : Nat := 0x1E0010
/-- `RAS_PEND` (R436). -/
def RAS_PEND : Nat := 0x1E0018
/-- `RAS_FATAL` (R436). -/
def RAS_FATAL : Nat := 0x1E0020
/-- `RAS_SEQ` (R436). -/
def RAS_SEQ : Nat := 0x1E0028
/-- `RAS_LAST_FAULT` (R436). -/
def RAS_LAST_FAULT : Nat := 0x1E0030
/-- `RAS_BUDDY` (R436). -/
def RAS_BUDDY : Nat := 0x1E0038
/-- `RAS_CNT_CORR` (R437). -/
def RAS_CNT_CORR : Nat := 0x1E0040
/-- `RAS_CNT_RECOV` (R437). -/
def RAS_CNT_RECOV : Nat := 0x1E0048
/-- `RAS_CNT_DEGR` (R437). -/
def RAS_CNT_DEGR : Nat := 0x1E0050
/-- `RAS_CNT_SPACED` (R437). -/
def RAS_CNT_SPACED : Nat := 0x1E0058
/-- `RAS_CNT_DISSENT` (R437). -/
def RAS_CNT_DISSENT : Nat := 0x1E0060
/-- `RAS_CNT_TAKEOVER` (R437). -/
def RAS_CNT_TAKEOVER : Nat := 0x1E0068
/-- `RAS_CNT_LOG_WRAP` (R437). -/
def RAS_CNT_LOG_WRAP : Nat := 0x1E0070

end R

namespace F

def SYS_ID.MAP_VERSION : Fld := ⟨R.SYS_ID, 63, 48⟩
def SYS_ID.PART : Fld := ⟨R.SYS_ID, 31, 16⟩
def SYS_ID.REVISION : Fld := ⟨R.SYS_ID, 15, 8⟩
def SYS_ID.GRADE_E : Fld := ⟨R.SYS_ID, 0, 0⟩
def SYS_CTL.AUTO_LOCK : Fld := ⟨R.SYS_CTL, 1, 1⟩
def SYS_CTL.SETUP_LOCK : Fld := ⟨R.SYS_CTL, 0, 0⟩
def SYS_STAT.DEVNUM : Fld := ⟨R.SYS_STAT, 57, 48⟩
def SYS_STAT.POSITION : Fld := ⟨R.SYS_STAT, 47, 40⟩
def SYS_STAT.CHAIN_ID : Fld := ⟨R.SYS_STAT, 35, 32⟩
def SYS_STAT.BIST_EN : Fld := ⟨R.SYS_STAT, 10, 10⟩
def SYS_STAT.PERST_MODE : Fld := ⟨R.SYS_STAT, 9, 9⟩
def SYS_STAT.ADDRESSED : Fld := ⟨R.SYS_STAT, 8, 8⟩
def SYS_STAT.START_SRC : Fld := ⟨R.SYS_STAT, 6, 4⟩
def SYS_STAT.WARM : Fld := ⟨R.SYS_STAT, 1, 1⟩
def SYS_STAT.FW_READY : Fld := ⟨R.SYS_STAT, 0, 0⟩
def SYS_ERR.CLAIM_LAPSED : Fld := ⟨R.SYS_ERR, 4, 4⟩
def SYS_ERR.GROUP_HELD : Fld := ⟨R.SYS_ERR, 3, 3⟩
def SYS_ERR.HOST_DENIED : Fld := ⟨R.SYS_ERR, 2, 2⟩
def SYS_ERR.BAD_ACCESS : Fld := ⟨R.SYS_ERR, 1, 1⟩
def SYS_ERR.UNMAPPED : Fld := ⟨R.SYS_ERR, 0, 0⟩
def SYS_ERR_INFO.REQUESTER : Fld := ⟨R.SYS_ERR_INFO, 63, 56⟩
def SYS_ERR_INFO.CAUSE : Fld := ⟨R.SYS_ERR_INFO, 54, 52⟩
def SYS_ERR_INFO.SIZE : Fld := ⟨R.SYS_ERR_INFO, 51, 48⟩
def SYS_ERR_INFO.OFFSET : Fld := ⟨R.SYS_ERR_INFO, 23, 0⟩
def SYS_SHADOW_DISCARD.COMMIT_OFF : Fld := ⟨R.SYS_SHADOW_DISCARD, 23, 0⟩
def SYS_CLAIM_SEL.COMMIT_OFF : Fld := ⟨R.SYS_CLAIM_SEL, 23, 0⟩
def SYS_CLAIM_STAT.HOLDER : Fld := ⟨R.SYS_CLAIM_STAT, 63, 56⟩
def SYS_CLAIM_STAT.PENDING : Fld := ⟨R.SYS_CLAIM_STAT, 1, 1⟩
def SYS_CLAIM_STAT.VALID : Fld := ⟨R.SYS_CLAIM_STAT, 0, 0⟩
def SYS_SCRATCHk.DATA (i0 : Nat) : Fld := ⟨(R.SYS_SCRATCHk i0), 63, 0⟩
def CLK_STAT.REF_OK : Fld := ⟨R.CLK_STAT, 1, 1⟩
def CLK_STAT.ROOT_LOCK : Fld := ⟨R.CLK_STAT, 0, 0⟩
def PWR_DVFS.STATE : Fld := ⟨R.PWR_DVFS, 18, 16⟩
def PWR_DVFS.CAP_NONE : Fld := ⟨R.PWR_DVFS, 14, 14⟩
def PWR_DVFS.CAP_POINT : Fld := ⟨R.PWR_DVFS, 13, 12⟩
def PWR_DVFS.FLOOR : Fld := ⟨R.PWR_DVFS, 9, 8⟩
def PWR_DVFS.TARGET : Fld := ⟨R.PWR_DVFS, 5, 4⟩
def PWR_DVFS.CURRENT : Fld := ⟨R.PWR_DVFS, 1, 0⟩
def PWR_CAP.CAP_W : Fld := ⟨R.PWR_CAP, 41, 32⟩
def PWR_CAP.PKG_MW : Fld := ⟨R.PWR_CAP, 23, 0⟩
def PWR_TEMP.SENSOR : Fld := ⟨R.PWR_TEMP, 29, 24⟩
def PWR_TEMP.TRIP_C : Fld := ⟨R.PWR_TEMP, 23, 16⟩
def PWR_TEMP.THROTTLE_C : Fld := ⟨R.PWR_TEMP, 15, 8⟩
def PWR_TEMP.MAX_C : Fld := ⟨R.PWR_TEMP, 7, 0⟩
def PWR_EMERG.THROTTLING : Fld := ⟨R.PWR_EMERG, 2, 2⟩
def PWR_EMERG.POWER : Fld := ⟨R.PWR_EMERG, 1, 1⟩
def PWR_EMERG.THERMAL : Fld := ⟨R.PWR_EMERG, 0, 0⟩
def PWR_DOM.ISO : Fld := ⟨R.PWR_DOM, 22, 16⟩
def PWR_DOM.READY : Fld := ⟨R.PWR_DOM, 6, 0⟩
def PWR_RAIL.PGOOD : Fld := ⟨R.PWR_RAIL, 23, 16⟩
def PWR_RAIL.EN : Fld := ⟨R.PWR_RAIL, 7, 0⟩
def PWR_STOP.LAST_CAUSE : Fld := ⟨R.PWR_STOP, 31, 24⟩
def PWR_STOP.ABORT : Fld := ⟨R.PWR_STOP, 17, 16⟩
def PWR_STOP.STEP : Fld := ⟨R.PWR_STOP, 11, 8⟩
def PWR_STOP.STATE : Fld := ⟨R.PWR_STOP, 2, 0⟩
def PWR_WAKE_CFG.WAKE_RETRY : Fld := ⟨R.PWR_WAKE_CFG, 1, 0⟩
def PWR_WAKE_STAT.LOCKOUT : Fld := ⟨R.PWR_WAKE_STAT, 31, 31⟩
def PWR_WAKE_STAT.ATTEMPTS : Fld := ⟨R.PWR_WAKE_STAT, 25, 24⟩
def PWR_WAKE_STAT.INDEX : Fld := ⟨R.PWR_WAKE_STAT, 15, 8⟩
def PWR_WAKE_STAT.CAUSE : Fld := ⟨R.PWR_WAKE_STAT, 1, 0⟩
def PWR_RET_STAT.DISCARDED : Fld := ⟨R.PWR_RET_STAT, 15, 8⟩
def PWR_RET_STAT.VALID : Fld := ⟨R.PWR_RET_STAT, 7, 0⟩
def PWR_CNT_DVFS.COUNT : Fld := ⟨R.PWR_CNT_DVFS, 63, 0⟩
def PWR_CNT_THROTTLE.COUNT : Fld := ⟨R.PWR_CNT_THROTTLE, 63, 0⟩
def PWR_CNT_CAP.COUNT : Fld := ⟨R.PWR_CNT_CAP, 63, 0⟩
def PWR_CNT_STOP.COUNT : Fld := ⟨R.PWR_CNT_STOP, 63, 0⟩
def PWR_CNT_STOP_ABORT.COUNT : Fld := ⟨R.PWR_CNT_STOP_ABORT, 63, 0⟩
def PWR_CNT_WAKE_FAIL.COUNT : Fld := ⟨R.PWR_CNT_WAKE_FAIL, 63, 0⟩
def HIF_ID.REVISION : Fld := ⟨R.HIF_ID, 63, 48⟩
def HIF_ID.DEVICE : Fld := ⟨R.HIF_ID, 31, 16⟩
def HIF_ID.VENDOR : Fld := ⟨R.HIF_ID, 15, 0⟩
def HIF_STAT.WARM_COUNT : Fld := ⟨R.HIF_STAT, 47, 32⟩
def HIF_STAT.LINK_SPEED : Fld := ⟨R.HIF_STAT, 10, 8⟩
def HIF_STAT.LINK_WIDTH : Fld := ⟨R.HIF_STAT, 7, 5⟩
def HIF_STAT.WATCH_MODE : Fld := ⟨R.HIF_STAT, 2, 2⟩
def HIF_STAT.LINK_UP : Fld := ⟨R.HIF_STAT, 1, 1⟩
def HIF_STAT.FW_READY : Fld := ⟨R.HIF_STAT, 0, 0⟩
def HIF_CTL.RO_EN : Fld := ⟨R.HIF_CTL, 1, 1⟩
def HIF_CTL.FORCE_POLL : Fld := ⟨R.HIF_CTL, 0, 0⟩
def HIF_POLL.INT3 : Fld := ⟨R.HIF_POLL, 31, 24⟩
def HIF_POLL.INT2 : Fld := ⟨R.HIF_POLL, 23, 16⟩
def HIF_POLL.INT1 : Fld := ⟨R.HIF_POLL, 15, 8⟩
def HIF_POLL.INT0 : Fld := ⟨R.HIF_POLL, 7, 0⟩
def HIF_WRR.W0 : Fld := ⟨R.HIF_WRR, 7, 0⟩
def HIF_WRR.W1 : Fld := ⟨R.HIF_WRR, 15, 8⟩
def HIF_WRR.W2 : Fld := ⟨R.HIF_WRR, 23, 16⟩
def HIF_WRR.W3 : Fld := ⟨R.HIF_WRR, 31, 24⟩
def HIF_EVT.RING : Fld := ⟨R.HIF_EVT, 12, 0⟩
def HIF_ERR.FLR_ABORT : Fld := ⟨R.HIF_ERR, 3, 3⟩
def HIF_ERR.XLATE : Fld := ⟨R.HIF_ERR, 2, 2⟩
def HIF_ERR.DB_BAD : Fld := ⟨R.HIF_ERR, 1, 1⟩
def HIF_ERR.READBACK : Fld := ⟨R.HIF_ERR, 0, 0⟩
def HIF_RING_SEL.RING : Fld := ⟨R.HIF_RING_SEL, 12, 0⟩
def HIF_RING_STAT.EPOCH : Fld := ⟨R.HIF_RING_STAT, 63, 48⟩
def HIF_RING_STAT.FUNCTION : Fld := ⟨R.HIF_RING_STAT, 37, 32⟩
def HIF_RING_STAT.KIND : Fld := ⟨R.HIF_RING_STAT, 18, 16⟩
def HIF_RING_STAT.CLASS : Fld := ⟨R.HIF_RING_STAT, 13, 12⟩
def HIF_RING_STAT.STATE : Fld := ⟨R.HIF_RING_STAT, 10, 8⟩
def HIF_RING_STAT.PENDING : Fld := ⟨R.HIF_RING_STAT, 4, 4⟩
def HIF_RING_STAT.SIZE_LOG2 : Fld := ⟨R.HIF_RING_STAT, 3, 0⟩
def HIF_RING_IDX.DEV : Fld := ⟨R.HIF_RING_IDX, 63, 32⟩
def HIF_RING_IDX.HOST : Fld := ⟨R.HIF_RING_IDX, 31, 0⟩
def HIF_CNT_DB_EVT.COUNT : Fld := ⟨R.HIF_CNT_DB_EVT, 63, 0⟩
def HIF_CNT_DB_STALE.COUNT : Fld := ⟨R.HIF_CNT_DB_STALE, 63, 0⟩
def HIF_CNT_NUDGE.COUNT : Fld := ⟨R.HIF_CNT_NUDGE, 63, 0⟩
def HIF_CNT_EVT_DROP.COUNT : Fld := ⟨R.HIF_CNT_EVT_DROP, 63, 0⟩
def HIF_FN_CFG.ENABLE (i0 : Nat) : Fld := ⟨(R.HIF_FN_CFG i0), 63, 63⟩
def HIF_FN_CFG.BLOCKS (i0 : Nat) : Fld := ⟨(R.HIF_FN_CFG i0), 26, 16⟩
def HIF_FN_CFG.FIRST_BLOCK (i0 : Nat) : Fld := ⟨(R.HIF_FN_CFG i0), 9, 0⟩
def HIF_FN_DB.DB_ADDR (i0 : Nat) : Fld := ⟨(R.HIF_FN_DB i0), 46, 6⟩
def HIF_FN_COMMIT.COMMIT (i0 : Nat) : Fld := ⟨(R.HIF_FN_COMMIT i0), 0, 0⟩
def HIF_FN_CSTAT.CODE (i0 : Nat) : Fld := ⟨(R.HIF_FN_CSTAT i0), 7, 0⟩
def HIF_FN_ADM_SQ.BASE (i0 : Nat) : Fld := ⟨(R.HIF_FN_ADM_SQ i0), 46, 12⟩
def HIF_FN_ADM_SQ.SIZE_LOG2 (i0 : Nat) : Fld := ⟨(R.HIF_FN_ADM_SQ i0), 3, 0⟩
def HIF_FN_ADM_CQ.BASE (i0 : Nat) : Fld := ⟨(R.HIF_FN_ADM_CQ i0), 46, 12⟩
def HIF_FN_ADM_CQ.SIZE_LOG2 (i0 : Nat) : Fld := ⟨(R.HIF_FN_ADM_CQ i0), 3, 0⟩
def HIF_FN_ADM_IRQ.NT (i0 : Nat) : Fld := ⟨(R.HIF_FN_ADM_IRQ i0), 47, 32⟩
def HIF_FN_ADM_IRQ.NC (i0 : Nat) : Fld := ⟨(R.HIF_FN_ADM_IRQ i0), 31, 16⟩
def HIF_FN_ADM_IRQ.VEC (i0 : Nat) : Fld := ⟨(R.HIF_FN_ADM_IRQ i0), 10, 0⟩
def HIF_FN_ADM_COMMIT.COMMIT (i0 : Nat) : Fld := ⟨(R.HIF_FN_ADM_COMMIT i0), 0, 0⟩
def HIF_FN_ADM_CSTAT.CODE (i0 : Nat) : Fld := ⟨(R.HIF_FN_ADM_CSTAT i0), 7, 0⟩
def HIF_FN_ADM_STAT.EPOCH (i0 : Nat) : Fld := ⟨(R.HIF_FN_ADM_STAT i0), 47, 32⟩
def HIF_FN_ADM_STAT.RESTART (i0 : Nat) : Fld := ⟨(R.HIF_FN_ADM_STAT i0), 1, 1⟩
def HIF_FN_ADM_STAT.LIVE (i0 : Nat) : Fld := ⟨(R.HIF_FN_ADM_STAT i0), 0, 0⟩
def HIF_FN_STAT.WARM_COUNT (i0 : Nat) : Fld := ⟨(R.HIF_FN_STAT i0), 15, 0⟩
def HG_CTL.UDP_PORT : Fld := ⟨R.HG_CTL, 31, 16⟩
def HG_CTL.RETRY_MIN : Fld := ⟨R.HG_CTL, 15, 8⟩
def HG_CTL.MIRROR : Fld := ⟨R.HG_CTL, 2, 2⟩
def HG_CTL.NAK_EN : Fld := ⟨R.HG_CTL, 1, 1⟩
def HG_CTL.ENABLE : Fld := ⟨R.HG_CTL, 0, 0⟩
def HG_JRN_BASE.BASE : Fld := ⟨R.HG_JRN_BASE, 47, 12⟩
def HG_JRN_SIZE.JFULL_RETRY : Fld := ⟨R.HG_JRN_SIZE, 31, 24⟩
def HG_JRN_SIZE.SIZE_MIB : Fld := ⟨R.HG_JRN_SIZE, 12, 0⟩
def HG_GLB_COMMIT.COMMIT : Fld := ⟨R.HG_GLB_COMMIT, 0, 0⟩
def HG_GLB_CSTAT.CODE : Fld := ⟨R.HG_GLB_CSTAT, 7, 0⟩
def HG_JRN_STAT.ENTRIES : Fld := ⟨R.HG_JRN_STAT, 63, 32⟩
def HG_JRN_STAT.FREE_KIB : Fld := ⟨R.HG_JRN_STAT, 31, 0⟩
def HG_ERR.MIRROR_TMO : Fld := ⟨R.HG_ERR, 4, 4⟩
def HG_ERR.JRN_FULL : Fld := ⟨R.HG_ERR, 3, 3⟩
def HG_ERR.BAD_HDR : Fld := ⟨R.HG_ERR, 2, 2⟩
def HG_ERR.UNKNOWN_SRC : Fld := ⟨R.HG_ERR, 1, 1⟩
def HG_ERR.BEYOND_WIN : Fld := ⟨R.HG_ERR, 0, 0⟩
def HG_STREAM_CTL.GROUP (i0 : Nat) : Fld := ⟨(R.HG_STREAM_CTL i0), 28, 24⟩
def HG_STREAM_CTL.ANCHOR (i0 : Nat) : Fld := ⟨(R.HG_STREAM_CTL i0), 23, 23⟩
def HG_STREAM_CTL.TIME_MODE (i0 : Nat) : Fld := ⟨(R.HG_STREAM_CTL i0), 21, 20⟩
def HG_STREAM_CTL.CLASS (i0 : Nat) : Fld := ⟨(R.HG_STREAM_CTL i0), 19, 16⟩
def HG_STREAM_CTL.OPEN (i0 : Nat) : Fld := ⟨(R.HG_STREAM_CTL i0), 0, 0⟩
def HG_STREAM_SRC_LO.ADDR_LO (i0 : Nat) : Fld := ⟨(R.HG_STREAM_SRC_LO i0), 63, 0⟩
def HG_STREAM_SRC_HI.ADDR_HI (i0 : Nat) : Fld := ⟨(R.HG_STREAM_SRC_HI i0), 63, 0⟩
def HG_STREAM_GEOM.TAG (i0 : Nat) : Fld := ⟨(R.HG_STREAM_GEOM i0), 63, 48⟩
def HG_STREAM_GEOM.SRC_UDP (i0 : Nat) : Fld := ⟨(R.HG_STREAM_GEOM i0), 47, 32⟩
def HG_STREAM_GEOM.HEIGHT (i0 : Nat) : Fld := ⟨(R.HG_STREAM_GEOM i0), 27, 16⟩
def HG_STREAM_GEOM.WIDTH (i0 : Nat) : Fld := ⟨(R.HG_STREAM_GEOM i0), 11, 0⟩
def HG_STREAM_BKT.BURST (i0 : Nat) : Fld := ⟨(R.HG_STREAM_BKT i0), 63, 32⟩
def HG_STREAM_BKT.RATE (i0 : Nat) : Fld := ⟨(R.HG_STREAM_BKT i0), 31, 0⟩
def HG_STREAM_DN.REFRAC (i0 : Nat) : Fld := ⟨(R.HG_STREAM_DN i0), 63, 48⟩
def HG_STREAM_DN.TAU (i0 : Nat) : Fld := ⟨(R.HG_STREAM_DN i0), 44, 28⟩
def HG_STREAM_DN.K (i0 : Nat) : Fld := ⟨(R.HG_STREAM_DN i0), 27, 24⟩
def HG_STREAM_DN.FLK_SUPPRESS (i0 : Nat) : Fld := ⟨(R.HG_STREAM_DN i0), 3, 3⟩
def HG_STREAM_DN.FLK_TAG (i0 : Nat) : Fld := ⟨(R.HG_STREAM_DN i0), 2, 2⟩
def HG_STREAM_DN.HPM_EN (i0 : Nat) : Fld := ⟨(R.HG_STREAM_DN i0), 1, 1⟩
def HG_STREAM_DN.BAF_EN (i0 : Nat) : Fld := ⟨(R.HG_STREAM_DN i0), 0, 0⟩
def HG_STREAM_HPM.ADDR (i0 : Nat) : Fld := ⟨(R.HG_STREAM_HPM i0), 47, 6⟩
def HG_STREAM_TOFF.OFFSET (i0 : Nat) : Fld := ⟨(R.HG_STREAM_TOFF i0), 63, 0⟩
def HG_STREAM_TIME.RATE_PPB (i0 : Nat) : Fld := ⟨(R.HG_STREAM_TIME i0), 63, 32⟩
def HG_STREAM_TIME.GUARD (i0 : Nat) : Fld := ⟨(R.HG_STREAM_TIME i0), 31, 16⟩
def HG_STREAM_TIME.LAT (i0 : Nat) : Fld := ⟨(R.HG_STREAM_TIME i0), 15, 0⟩
def HG_STREAM_COMMIT.COMMIT (i0 : Nat) : Fld := ⟨(R.HG_STREAM_COMMIT i0), 0, 0⟩
def HG_STREAM_CSTAT.CODE (i0 : Nat) : Fld := ⟨(R.HG_STREAM_CSTAT i0), 7, 0⟩
def HG_STREAM_STAT.ACC_SEQ (i0 : Nat) : Fld := ⟨(R.HG_STREAM_STAT i0), 63, 32⟩
def HG_STREAM_STAT.HELD (i0 : Nat) : Fld := ⟨(R.HG_STREAM_STAT i0), 24, 18⟩
def HG_STREAM_STAT.IDLE (i0 : Nat) : Fld := ⟨(R.HG_STREAM_STAT i0), 17, 17⟩
def HG_STREAM_STAT.UNSYNCED (i0 : Nat) : Fld := ⟨(R.HG_STREAM_STAT i0), 16, 16⟩
def HG_STREAM_STAT.STATE (i0 : Nat) : Fld := ⟨(R.HG_STREAM_STAT i0), 15, 14⟩
def HG_STREAM_STAT.RECOVER_CNT (i0 : Nat) : Fld := ⟨(R.HG_STREAM_STAT i0), 4, 0⟩
def HG_STREAM_RESID.TOKENS (i0 : Nat) : Fld := ⟨(R.HG_STREAM_RESID i0), 63, 32⟩
def HG_STREAM_RESID.RESID (i0 : Nat) : Fld := ⟨(R.HG_STREAM_RESID i0), 31, 0⟩
def HG_STREAM_CNT_BATCH.COUNT (i0 : Nat) : Fld := ⟨(R.HG_STREAM_CNT_BATCH i0), 63, 0⟩
def HG_STREAM_CNT_EVENT.COUNT (i0 : Nat) : Fld := ⟨(R.HG_STREAM_CNT_EVENT i0), 63, 0⟩
def HG_STREAM_CNT_NAK.COUNT (i0 : Nat) : Fld := ⟨(R.HG_STREAM_CNT_NAK i0), 63, 0⟩
def HG_STREAM_CNT_DUP.COUNT (i0 : Nat) : Fld := ⟨(R.HG_STREAM_CNT_DUP i0), 63, 0⟩
def HG_STREAM_CNT_DISC.COUNT (i0 : Nat) : Fld := ⟨(R.HG_STREAM_CNT_DISC i0), 63, 0⟩
def HG_STREAM_CNT_FILT.COUNT (i0 : Nat) : Fld := ⟨(R.HG_STREAM_CNT_FILT i0), 63, 0⟩
def HG_STREAM_CNT_LATE.COUNT (i0 : Nat) : Fld := ⟨(R.HG_STREAM_CNT_LATE i0), 63, 0⟩
def HG_STREAM_CNT_CLAMP.COUNT (i0 : Nat) : Fld := ⟨(R.HG_STREAM_CNT_CLAMP i0), 63, 0⟩
def FRF_CTL.DWELL : Fld := ⟨R.FRF_CTL, 47, 32⟩
def FRF_CTL.BIN_HOLD : Fld := ⟨R.FRF_CTL, 31, 24⟩
def FRF_CTL.CENV_REL : Fld := ⟨R.FRF_CTL, 23, 20⟩
def FRF_CTL.CENV_ATK : Fld := ⟨R.FRF_CTL, 19, 16⟩
def FRF_CTL.RPT_EN : Fld := ⟨R.FRF_CTL, 1, 1⟩
def FRF_CTL.ENABLE : Fld := ⟨R.FRF_CTL, 0, 0⟩
def FRF_ROT.LEN : Fld := ⟨R.FRF_ROT, 61, 48⟩
def FRF_ROT.ADDR : Fld := ⟨R.FRF_ROT, 47, 6⟩
def FRF_MASK_CTL.PAD : Fld := ⟨R.FRF_MASK_CTL, 63, 48⟩
def FRF_MASK_CTL.TTL : Fld := ⟨R.FRF_MASK_CTL, 47, 32⟩
def FRF_MASK_CTL.THR : Fld := ⟨R.FRF_MASK_CTL, 31, 24⟩
def FRF_MASK_CTL.HOT : Fld := ⟨R.FRF_MASK_CTL, 23, 16⟩
def FRF_MASK_CTL.MAX_W : Fld := ⟨R.FRF_MASK_CTL, 15, 8⟩
def FRF_MASK_CTL.MIN_RATE : Fld := ⟨R.FRF_MASK_CTL, 7, 0⟩
def FRF_RPT_CTL.MASK_RPT : Fld := ⟨R.FRF_RPT_CTL, 13, 13⟩
def FRF_RPT_CTL.RING : Fld := ⟨R.FRF_RPT_CTL, 12, 0⟩
def FRF_GLB_COMMIT.COMMIT : Fld := ⟨R.FRF_GLB_COMMIT, 0, 0⟩
def FRF_GLB_CSTAT.CODE : Fld := ⟨R.FRF_GLB_CSTAT, 7, 0⟩
def FRF_SYNC.SCOPE : Fld := ⟨R.FRF_SYNC, 17, 16⟩
def FRF_SYNC.TARGET : Fld := ⟨R.FRF_SYNC, 15, 8⟩
def FRF_SYNC.PENDING : Fld := ⟨R.FRF_SYNC, 3, 3⟩
def FRF_SYNC.LATE : Fld := ⟨R.FRF_SYNC, 2, 2⟩
def FRF_SYNC.TIMED : Fld := ⟨R.FRF_SYNC, 1, 1⟩
def FRF_SYNC.REQ : Fld := ⟨R.FRF_SYNC, 0, 0⟩
def FRF_SYNC_TIME.TIME : Fld := ⟨R.FRF_SYNC_TIME, 63, 0⟩
def FRF_STAT.MASK_BAD : Fld := ⟨R.FRF_STAT, 4, 4⟩
def FRF_STAT.BIN_SAT : Fld := ⟨R.FRF_STAT, 3, 3⟩
def FRF_STAT.ROT_BAD : Fld := ⟨R.FRF_STAT, 2, 2⟩
def FRF_STAT.RPT_DROP : Fld := ⟨R.FRF_STAT, 1, 1⟩
def FRF_STAT.LATE : Fld := ⟨R.FRF_STAT, 0, 0⟩
def FRF_CNT_LATE.COUNT : Fld := ⟨R.FRF_CNT_LATE, 63, 0⟩
def FRF_CNT_RPT_DROP.COUNT : Fld := ⟨R.FRF_CNT_RPT_DROP, 63, 0⟩
def FRF_CH_SEL.CH : Fld := ⟨R.FRF_CH_SEL, 13, 0⟩
def FRF_CH_COARSE.ENV : Fld := ⟨R.FRF_CH_COARSE, 63, 32⟩
def FRF_CH_COARSE.RATE : Fld := ⟨R.FRF_CH_COARSE, 31, 0⟩
def FRF_MASK_SEL.ENTRY : Fld := ⟨R.FRF_MASK_SEL, 12, 0⟩
def FRF_MASK_DATA0.PHASE : Fld := ⟨R.FRF_MASK_DATA0, 63, 32⟩
def FRF_MASK_DATA0.PERIOD : Fld := ⟨R.FRF_MASK_DATA0, 31, 0⟩
def FRF_MASK_DATA1.ACTIVE : Fld := ⟨R.FRF_MASK_DATA1, 63, 63⟩
def FRF_MASK_DATA1.LOCK : Fld := ⟨R.FRF_MASK_DATA1, 62, 62⟩
def FRF_MASK_DATA1.WIDTH : Fld := ⟨R.FRF_MASK_DATA1, 31, 0⟩
def FRF_COEF_ADDR.AUTOINC : Fld := ⟨R.FRF_COEF_ADDR, 17, 17⟩
def FRF_COEF_ADDR.BANK : Fld := ⟨R.FRF_COEF_ADDR, 16, 16⟩
def FRF_COEF_ADDR.LANE : Fld := ⟨R.FRF_COEF_ADDR, 15, 8⟩
def FRF_COEF_ADDR.INDEX : Fld := ⟨R.FRF_COEF_ADDR, 6, 0⟩
def FRF_COEF_DATA.COEF : Fld := ⟨R.FRF_COEF_DATA, 17, 0⟩
def FRF_LANE_CTL.FADE (i0 : Nat) : Fld := ⟨(R.FRF_LANE_CTL i0), 63, 56⟩
def FRF_LANE_CTL.DET_WIN (i0 : Nat) : Fld := ⟨(R.FRF_LANE_CTL i0), 53, 49⟩
def FRF_LANE_CTL.ENV_REL (i0 : Nat) : Fld := ⟨(R.FRF_LANE_CTL i0), 48, 45⟩
def FRF_LANE_CTL.ENV_ATK (i0 : Nat) : Fld := ⟨(R.FRF_LANE_CTL i0), 44, 41⟩
def FRF_LANE_CTL.REPORT (i0 : Nat) : Fld := ⟨(R.FRF_LANE_CTL i0), 40, 40⟩
def FRF_LANE_CTL.OUT_SEL (i0 : Nat) : Fld := ⟨(R.FRF_LANE_CTL i0), 39, 38⟩
def FRF_LANE_CTL.D4 (i0 : Nat) : Fld := ⟨(R.FRF_LANE_CTL i0), 33, 32⟩
def FRF_LANE_CTL.SPLIT (i0 : Nat) : Fld := ⟨(R.FRF_LANE_CTL i0), 31, 30⟩
def FRF_LANE_CTL.PIN_CH (i0 : Nat) : Fld := ⟨(R.FRF_LANE_CTL i0), 29, 16⟩
def FRF_LANE_CTL.MODE (i0 : Nat) : Fld := ⟨(R.FRF_LANE_CTL i0), 1, 0⟩
def FRF_LANE_FOLD.PERIOD_NS (i0 : Nat) : Fld := ⟨(R.FRF_LANE_FOLD i0), 31, 0⟩
def FRF_LANE_BCFG_A.DELAY0 (i0 : Nat) : Fld := ⟨(R.FRF_LANE_BCFG_A i0), 39, 32⟩
def FRF_LANE_BCFG_A.DELAY1 (i0 : Nat) : Fld := ⟨(R.FRF_LANE_BCFG_A i0), 47, 40⟩
def FRF_LANE_BCFG_A.DELAY2 (i0 : Nat) : Fld := ⟨(R.FRF_LANE_BCFG_A i0), 55, 48⟩
def FRF_LANE_BCFG_A.DELAY3 (i0 : Nat) : Fld := ⟨(R.FRF_LANE_BCFG_A i0), 63, 56⟩
def FRF_LANE_BCFG_A.N0 (i0 : Nat) : Fld := ⟨(R.FRF_LANE_BCFG_A i0), 7, 0⟩
def FRF_LANE_BCFG_A.N1 (i0 : Nat) : Fld := ⟨(R.FRF_LANE_BCFG_A i0), 15, 8⟩
def FRF_LANE_BCFG_A.N2 (i0 : Nat) : Fld := ⟨(R.FRF_LANE_BCFG_A i0), 23, 16⟩
def FRF_LANE_BCFG_A.N3 (i0 : Nat) : Fld := ⟨(R.FRF_LANE_BCFG_A i0), 31, 24⟩
def FRF_LANE_BCFG_B.DELAY0 (i0 : Nat) : Fld := ⟨(R.FRF_LANE_BCFG_B i0), 39, 32⟩
def FRF_LANE_BCFG_B.DELAY1 (i0 : Nat) : Fld := ⟨(R.FRF_LANE_BCFG_B i0), 47, 40⟩
def FRF_LANE_BCFG_B.DELAY2 (i0 : Nat) : Fld := ⟨(R.FRF_LANE_BCFG_B i0), 55, 48⟩
def FRF_LANE_BCFG_B.DELAY3 (i0 : Nat) : Fld := ⟨(R.FRF_LANE_BCFG_B i0), 63, 56⟩
def FRF_LANE_BCFG_B.N0 (i0 : Nat) : Fld := ⟨(R.FRF_LANE_BCFG_B i0), 7, 0⟩
def FRF_LANE_BCFG_B.N1 (i0 : Nat) : Fld := ⟨(R.FRF_LANE_BCFG_B i0), 15, 8⟩
def FRF_LANE_BCFG_B.N2 (i0 : Nat) : Fld := ⟨(R.FRF_LANE_BCFG_B i0), 23, 16⟩
def FRF_LANE_BCFG_B.N3 (i0 : Nat) : Fld := ⟨(R.FRF_LANE_BCFG_B i0), 31, 24⟩
def FRF_LANE_COMMIT.COMMIT (i0 : Nat) : Fld := ⟨(R.FRF_LANE_COMMIT i0), 0, 0⟩
def FRF_LANE_CSTAT.CODE (i0 : Nat) : Fld := ⟨(R.FRF_LANE_CSTAT i0), 7, 0⟩
def FRF_LANE_SWAP.REQ (i0 : Nat) : Fld := ⟨(R.FRF_LANE_SWAP i0), 1, 1⟩
def FRF_LANE_SWAP.TARGET (i0 : Nat) : Fld := ⟨(R.FRF_LANE_SWAP i0), 0, 0⟩
def FRF_LANE_STAT.CHANNEL (i0 : Nat) : Fld := ⟨(R.FRF_LANE_STAT i0), 29, 16⟩
def FRF_LANE_STAT.SETTLING (i0 : Nat) : Fld := ⟨(R.FRF_LANE_STAT i0), 11, 8⟩
def FRF_LANE_STAT.BANK_BUSY (i0 : Nat) : Fld := ⟨(R.FRF_LANE_STAT i0), 4, 4⟩
def FRF_LANE_STAT.PEND_TARGET (i0 : Nat) : Fld := ⟨(R.FRF_LANE_STAT i0), 3, 3⟩
def FRF_LANE_STAT.PENDING (i0 : Nat) : Fld := ⟨(R.FRF_LANE_STAT i0), 2, 2⟩
def FRF_LANE_STAT.FADING (i0 : Nat) : Fld := ⟨(R.FRF_LANE_STAT i0), 1, 1⟩
def FRF_LANE_STAT.ACTIVE (i0 : Nat) : Fld := ⟨(R.FRF_LANE_STAT i0), 0, 0⟩
def FRF_LANE_OUT.VALUE (i0 : Nat) : Fld := ⟨(R.FRF_LANE_OUT i0), 63, 32⟩
def FRF_LANE_OUT.SETTLING (i0 : Nat) : Fld := ⟨(R.FRF_LANE_OUT i0), 0, 0⟩
def FRF_LANE_DETk_A.PEAK (i0 i1 : Nat) : Fld := ⟨(R.FRF_LANE_DETk_A i0 i1), 63, 32⟩
def FRF_LANE_DETk_A.RMS (i0 i1 : Nat) : Fld := ⟨(R.FRF_LANE_DETk_A i0 i1), 31, 0⟩
def FRF_LANE_DETk_B.ENV (i0 i1 : Nat) : Fld := ⟨(R.FRF_LANE_DETk_B i0 i1), 63, 32⟩
def FRF_LANE_DETk_B.EMPTY (i0 i1 : Nat) : Fld := ⟨(R.FRF_LANE_DETk_B i0 i1), 1, 1⟩
def FRF_LANE_DETk_B.PARTIAL (i0 i1 : Nat) : Fld := ⟨(R.FRF_LANE_DETk_B i0 i1), 0, 0⟩
def FW_CTL.STEP_US : Fld := ⟨R.FW_CTL, 47, 32⟩
def FW_CTL.LAG_US : Fld := ⟨R.FW_CTL, 31, 20⟩
def FW_CTL.STRETCH : Fld := ⟨R.FW_CTL, 15, 8⟩
def FW_CTL.ENABLE : Fld := ⟨R.FW_CTL, 0, 0⟩
def FW_SPILL_BASE.BASE : Fld := ⟨R.FW_SPILL_BASE, 47, 12⟩
def FW_SPILL_SIZE.SIZE_MIB : Fld := ⟨R.FW_SPILL_SIZE, 15, 0⟩
def FW_CKPT_BASE.BASE : Fld := ⟨R.FW_CKPT_BASE, 47, 12⟩
def FW_GLB_COMMIT.COMMIT : Fld := ⟨R.FW_GLB_COMMIT, 0, 0⟩
def FW_GLB_CSTAT.CODE : Fld := ⟨R.FW_GLB_CSTAT, 7, 0⟩
def FW_STEP_NOW.STEP : Fld := ⟨R.FW_STEP_NOW, 63, 0⟩
def FW_STAT.TBL_BUSY : Fld := ⟨R.FW_STAT, 6, 6⟩
def FW_STAT.SPILL_STALL : Fld := ⟨R.FW_STAT, 5, 5⟩
def FW_STAT.HOST_DROP : Fld := ⟨R.FW_STAT, 4, 4⟩
def FW_STAT.CARRY : Fld := ⟨R.FW_STAT, 3, 3⟩
def FW_STAT.EXT_LATE : Fld := ⟨R.FW_STAT, 2, 2⟩
def FW_STAT.LATE : Fld := ⟨R.FW_STAT, 1, 1⟩
def FW_STAT.STRETCH : Fld := ⟨R.FW_STAT, 0, 0⟩
def FW_CNT_LATE.COUNT : Fld := ⟨R.FW_CNT_LATE, 63, 0⟩
def FW_CNT_EXT_LATE.COUNT : Fld := ⟨R.FW_CNT_EXT_LATE, 63, 0⟩
def FW_CNT_CARRY.COUNT : Fld := ⟨R.FW_CNT_CARRY, 63, 0⟩
def FW_CNT_SPILL.COUNT : Fld := ⟨R.FW_CNT_SPILL, 63, 0⟩
def FW_CNT_SPILL_STALL.COUNT : Fld := ⟨R.FW_CNT_SPILL_STALL, 63, 0⟩
def FW_CNT_STRETCH.COUNT : Fld := ⟨R.FW_CNT_STRETCH, 63, 0⟩
def FW_CNT_HOST_DROP.COUNT : Fld := ⟨R.FW_CNT_HOST_DROP, 63, 0⟩
def FW_CNT_REPLAY.COUNT : Fld := ⟨R.FW_CNT_REPLAY, 63, 0⟩
def FW_TBL_ADDR.AUTOINC : Fld := ⟨R.FW_TBL_ADDR, 63, 63⟩
def FW_TBL_ADDR.TABLE : Fld := ⟨R.FW_TBL_ADDR, 61, 60⟩
def FW_TBL_ADDR.CORE : Fld := ⟨R.FW_TBL_ADDR, 54, 48⟩
def FW_TBL_ADDR.INDEX : Fld := ⟨R.FW_TBL_ADDR, 13, 0⟩
def FW_TBL_DATA.DATA : Fld := ⟨R.FW_TBL_DATA, 63, 0⟩
def FW_CORE_CFG.SCALE (i0 : Nat) : Fld := ⟨(R.FW_CORE_CFG i0), 63, 48⟩
def FW_CORE_CFG.GW_MASK (i0 : Nat) : Fld := ⟨(R.FW_CORE_CFG i0), 47, 40⟩
def FW_CORE_CFG.LOGICAL (i0 : Nat) : Fld := ⟨(R.FW_CORE_CFG i0), 38, 32⟩
def FW_CORE_CFG.ENABLE (i0 : Nat) : Fld := ⟨(R.FW_CORE_CFG i0), 0, 0⟩
def FW_CORE_UP_LO.UP (i0 : Nat) : Fld := ⟨(R.FW_CORE_UP_LO i0), 63, 0⟩
def FW_CORE_UP_HI.UP (i0 : Nat) : Fld := ⟨(R.FW_CORE_UP_HI i0), 31, 0⟩
def FW_CORE_DN_LO.DN (i0 : Nat) : Fld := ⟨(R.FW_CORE_DN_LO i0), 63, 0⟩
def FW_CORE_DN_HI.DN (i0 : Nat) : Fld := ⟨(R.FW_CORE_DN_HI i0), 31, 0⟩
def FW_CORE_COMMIT.COMMIT (i0 : Nat) : Fld := ⟨(R.FW_CORE_COMMIT i0), 0, 0⟩
def FW_CORE_CSTAT.CODE (i0 : Nat) : Fld := ⟨(R.FW_CORE_CSTAT i0), 7, 0⟩
def FW_CORE_STAT.OPEN_STEP (i0 : Nat) : Fld := ⟨(R.FW_CORE_STAT i0), 63, 32⟩
def FW_CORE_STAT.STATE (i0 : Nat) : Fld := ⟨(R.FW_CORE_STAT i0), 2, 0⟩
def FW_CORE_DQ.DQ_OCC (i0 : Nat) : Fld := ⟨(R.FW_CORE_DQ i0), 44, 32⟩
def FW_CORE_DQ.SPILLED (i0 : Nat) : Fld := ⟨(R.FW_CORE_DQ i0), 31, 0⟩
def FW_MAP_CTL.GATEWAY (i0 : Nat) : Fld := ⟨(R.FW_MAP_CTL i0), 12, 10⟩
def FW_MAP_CTL.BY (i0 : Nat) : Fld := ⟨(R.FW_MAP_CTL i0), 9, 7⟩
def FW_MAP_CTL.BX (i0 : Nat) : Fld := ⟨(R.FW_MAP_CTL i0), 6, 4⟩
def FW_MAP_CTL.POL_SPLIT (i0 : Nat) : Fld := ⟨(R.FW_MAP_CTL i0), 1, 1⟩
def FW_MAP_CTL.ENABLE (i0 : Nat) : Fld := ⟨(R.FW_MAP_CTL i0), 0, 0⟩
def FW_MAP_ADDR.ADDR (i0 : Nat) : Fld := ⟨(R.FW_MAP_ADDR i0), 47, 6⟩
def FW_MAP_COMMIT.COMMIT (i0 : Nat) : Fld := ⟨(R.FW_MAP_COMMIT i0), 0, 0⟩
def FW_MAP_CSTAT.CODE (i0 : Nat) : Fld := ⟨(R.FW_MAP_CSTAT i0), 7, 0⟩
def FW_POP_CTL.ENABLE (i0 : Nat) : Fld := ⟨(R.FW_POP_CTL i0), 63, 63⟩
def FW_POP_CTL.HOST (i0 : Nat) : Fld := ⟨(R.FW_POP_CTL i0), 62, 62⟩
def FW_POP_CTL.FORMAT (i0 : Nat) : Fld := ⟨(R.FW_POP_CTL i0), 61, 61⟩
def FW_POP_CTL.WINDOW (i0 : Nat) : Fld := ⟨(R.FW_POP_CTL i0), 60, 48⟩
def FW_POP_CTL.CORE (i0 : Nat) : Fld := ⟨(R.FW_POP_CTL i0), 47, 41⟩
def FW_POP_CTL.BASE (i0 : Nat) : Fld := ⟨(R.FW_POP_CTL i0), 40, 31⟩
def FW_POP_SHAPE.STREAM (i0 : Nat) : Fld := ⟨(R.FW_POP_SHAPE i0), 63, 48⟩
def FW_POP_SHAPE.C (i0 : Nat) : Fld := ⟨(R.FW_POP_SHAPE i0), 47, 32⟩
def FW_POP_SHAPE.H (i0 : Nat) : Fld := ⟨(R.FW_POP_SHAPE i0), 31, 16⟩
def FW_POP_SHAPE.W (i0 : Nat) : Fld := ⟨(R.FW_POP_SHAPE i0), 15, 0⟩
def FW_POP_DEST.RING (i0 : Nat) : Fld := ⟨(R.FW_POP_DEST i0), 44, 32⟩
def FW_POP_DEST.QUEUE (i0 : Nat) : Fld := ⟨(R.FW_POP_DEST i0), 11, 0⟩
def FW_POP_HBUF.ADDR (i0 : Nat) : Fld := ⟨(R.FW_POP_HBUF i0), 47, 6⟩
def FW_POP_COMMIT.COMMIT (i0 : Nat) : Fld := ⟨(R.FW_POP_COMMIT i0), 0, 0⟩
def FW_POP_CSTAT.CODE (i0 : Nat) : Fld := ⟨(R.FW_POP_CSTAT i0), 7, 0⟩
def ST_CTL.POSITION (i0 : Nat) : Fld := ⟨(R.ST_CTL i0), 29, 24⟩
def ST_CTL.IMAGE (i0 : Nat) : Fld := ⟨(R.ST_CTL i0), 23, 20⟩
def ST_CTL.ENABLE (i0 : Nat) : Fld := ⟨(R.ST_CTL i0), 0, 0⟩
def ST_LAYOUT.LAYOUT (i0 : Nat) : Fld := ⟨(R.ST_LAYOUT i0), 28, 28⟩
def ST_LAYOUT.REFUGE_PAGES (i0 : Nat) : Fld := ⟨(R.ST_LAYOUT i0), 11, 0⟩
def ST_DELTA_BASE.BASE (i0 : Nat) : Fld := ⟨(R.ST_DELTA_BASE i0), 47, 12⟩
def ST_DELTA_SIZE.SIZE_MIB (i0 : Nat) : Fld := ⟨(R.ST_DELTA_SIZE i0), 15, 0⟩
def ST_COMMIT.COMMIT (i0 : Nat) : Fld := ⟨(R.ST_COMMIT i0), 0, 0⟩
def ST_CSTAT.CODE (i0 : Nat) : Fld := ⟨(R.ST_CSTAT i0), 7, 0⟩
def ST_STAT.STREAM (i0 : Nat) : Fld := ⟨(R.ST_STAT i0), 46, 40⟩
def ST_STAT.LAYER (i0 : Nat) : Fld := ⟨(R.ST_STAT i0), 39, 32⟩
def ST_STAT.REFUGE_USED (i0 : Nat) : Fld := ⟨(R.ST_STAT i0), 27, 16⟩
def ST_STAT.STATE (i0 : Nat) : Fld := ⟨(R.ST_STAT i0), 2, 0⟩
def ST_SLICE.SLICE (i0 : Nat) : Fld := ⟨(R.ST_SLICE i0), 63, 0⟩
def ST_ERR.SEQ_TRAP (i0 : Nat) : Fld := ⟨(R.ST_ERR i0), 4, 4⟩
def ST_ERR.SRAM_UE (i0 : Nat) : Fld := ⟨(R.ST_ERR i0), 3, 3⟩
def ST_ERR.SRAM_CE (i0 : Nat) : Fld := ⟨(R.ST_ERR i0), 2, 2⟩
def ST_ERR.FP_NAN (i0 : Nat) : Fld := ⟨(R.ST_ERR i0), 1, 1⟩
def ST_ERR.ACC_SAT (i0 : Nat) : Fld := ⟨(R.ST_ERR i0), 0, 0⟩
def ST_CNT_SLICE.COUNT (i0 : Nat) : Fld := ⟨(R.ST_CNT_SLICE i0), 63, 0⟩
def ST_CNT_BLK.COUNT (i0 : Nat) : Fld := ⟨(R.ST_CNT_BLK i0), 63, 0⟩
def ST_CNT_BLK_CHG.COUNT (i0 : Nat) : Fld := ⟨(R.ST_CNT_BLK_CHG i0), 63, 0⟩
def ST_CNT_REFRESH.COUNT (i0 : Nat) : Fld := ⟨(R.ST_CNT_REFRESH i0), 63, 0⟩
def ST_CNT_TRUNC.COUNT (i0 : Nat) : Fld := ⟨(R.ST_CNT_TRUNC i0), 63, 0⟩
def ST_CNT_SKIP.COUNT (i0 : Nat) : Fld := ⟨(R.ST_CNT_SKIP i0), 63, 0⟩
def ST_CNT_ARRAY.COUNT (i0 : Nat) : Fld := ⟨(R.ST_CNT_ARRAY i0), 63, 0⟩
def ST_CNT_VEC.COUNT (i0 : Nat) : Fld := ⟨(R.ST_CNT_VEC i0), 63, 0⟩
def ST_LYR_SEL.LAYER (i0 : Nat) : Fld := ⟨(R.ST_LYR_SEL i0), 7, 0⟩
def ST_LYR_CFG.DELTA (i0 : Nat) : Fld := ⟨(R.ST_LYR_CFG i0), 63, 32⟩
def ST_LYR_CFG.K (i0 : Nat) : Fld := ⟨(R.ST_LYR_CFG i0), 31, 16⟩
def ST_LYR_CFG.CLASS (i0 : Nat) : Fld := ⟨(R.ST_LYR_CFG i0), 15, 13⟩
def ST_LYR_CFG.TRUNC_K (i0 : Nat) : Fld := ⟨(R.ST_LYR_CFG i0), 12, 10⟩
def ST_LYR_CFG.DELTA_EN (i0 : Nat) : Fld := ⟨(R.ST_LYR_CFG i0), 9, 9⟩
def ST_LYR_CFG.G (i0 : Nat) : Fld := ⟨(R.ST_LYR_CFG i0), 7, 0⟩
def ST_LYR_SKIP.TAU (i0 : Nat) : Fld := ⟨(R.ST_LYR_SKIP i0), 63, 32⟩
def ST_LYR_SKIP.RHO (i0 : Nat) : Fld := ⟨(R.ST_LYR_SKIP i0), 9, 0⟩
def ST_LYR_OP.PAD_CONST (i0 : Nat) : Fld := ⟨(R.ST_LYR_OP i0), 63, 48⟩
def ST_LYR_OP.DIL_H (i0 : Nat) : Fld := ⟨(R.ST_LYR_OP i0), 47, 43⟩
def ST_LYR_OP.DIL_W (i0 : Nat) : Fld := ⟨(R.ST_LYR_OP i0), 42, 38⟩
def ST_LYR_OP.STR_H (i0 : Nat) : Fld := ⟨(R.ST_LYR_OP i0), 37, 35⟩
def ST_LYR_OP.STR_W (i0 : Nat) : Fld := ⟨(R.ST_LYR_OP i0), 34, 32⟩
def ST_LYR_OP.KH (i0 : Nat) : Fld := ⟨(R.ST_LYR_OP i0), 31, 28⟩
def ST_LYR_OP.KW (i0 : Nat) : Fld := ⟨(R.ST_LYR_OP i0), 27, 24⟩
def ST_LYR_OP.TAPS_LIVE (i0 : Nat) : Fld := ⟨(R.ST_LYR_OP i0), 23, 16⟩
def ST_LYR_OP.FMC_EXP (i0 : Nat) : Fld := ⟨(R.ST_LYR_OP i0), 15, 10⟩
def ST_LYR_OP.FMC (i0 : Nat) : Fld := ⟨(R.ST_LYR_OP i0), 9, 8⟩
def ST_LYR_OP.PAD_MODE (i0 : Nat) : Fld := ⟨(R.ST_LYR_OP i0), 7, 6⟩
def ST_LYR_OP.CENTRE_ONLY (i0 : Nat) : Fld := ⟨(R.ST_LYR_OP i0), 5, 5⟩
def ST_LYR_OP.OPKIND (i0 : Nat) : Fld := ⟨(R.ST_LYR_OP i0), 3, 0⟩
def ST_LYR_RS.EXTRAP (i0 : Nat) : Fld := ⟨(R.ST_LYR_RS i0), 63, 32⟩
def ST_LYR_RS.SCALE (i0 : Nat) : Fld := ⟨(R.ST_LYR_RS i0), 31, 0⟩
def ST_LYR_RSO.OUT_H (i0 : Nat) : Fld := ⟨(R.ST_LYR_RSO i0), 11, 6⟩
def ST_LYR_RSO.OUT_W (i0 : Nat) : Fld := ⟨(R.ST_LYR_RSO i0), 5, 0⟩
def ST_HALO_STAT.GEN_EXPECT (i0 : Nat) : Fld := ⟨(R.ST_HALO_STAT i0), 63, 32⟩
def ST_HALO_STAT.GEN_PUB (i0 : Nat) : Fld := ⟨(R.ST_HALO_STAT i0), 31, 0⟩
def ST_OPS_ERR.BOX_OVF (i0 : Nat) : Fld := ⟨(R.ST_OPS_ERR i0), 3, 3⟩
def ST_OPS_ERR.FMC_NONFIN (i0 : Nat) : Fld := ⟨(R.ST_OPS_ERR i0), 2, 2⟩
def ST_OPS_ERR.FMC_RANGE (i0 : Nat) : Fld := ⟨(R.ST_OPS_ERR i0), 1, 1⟩
def ST_OPS_ERR.HALO_ERR (i0 : Nat) : Fld := ⟨(R.ST_OPS_ERR i0), 0, 0⟩
def ST_CNT_HALO_WAIT.COUNT (i0 : Nat) : Fld := ⟨(R.ST_CNT_HALO_WAIT i0), 63, 0⟩
def ST_CNT_HALO_HOLD.COUNT (i0 : Nat) : Fld := ⟨(R.ST_CNT_HALO_HOLD i0), 63, 0⟩
def ST_CNT_FMC_BLK.COUNT (i0 : Nat) : Fld := ⟨(R.ST_CNT_FMC_BLK i0), 63, 0⟩
def ST_CNT_FMC_CLAMP.COUNT (i0 : Nat) : Fld := ⟨(R.ST_CNT_FMC_CLAMP i0), 63, 0⟩
def ST_CNT_RS_DEGEN.COUNT (i0 : Nat) : Fld := ⟨(R.ST_CNT_RS_DEGEN i0), 63, 0⟩
def ST_CNT_PAD_SKIP.COUNT (i0 : Nat) : Fld := ⟨(R.ST_CNT_PAD_SKIP i0), 63, 0⟩
def ST_GRP_STAT.NO_REMAP (i0 : Nat) : Fld := ⟨(R.ST_GRP_STAT i0), 63, 63⟩
def ST_GRP_STAT.STATE (i0 : Nat) : Fld := ⟨(R.ST_GRP_STAT i0), 62, 60⟩
def ST_GRP_STAT.LAYOUT (i0 : Nat) : Fld := ⟨(R.ST_GRP_STAT i0), 49, 48⟩
def ST_GRP_STAT.TILES (i0 : Nat) : Fld := ⟨(R.ST_GRP_STAT i0), 47, 0⟩
def ST_GRP_EPOCH.EPOCH (i0 : Nat) : Fld := ⟨(R.ST_GRP_EPOCH i0), 63, 0⟩
def ST_GRP_DISP.HEAD_VALID (i0 : Nat) : Fld := ⟨(R.ST_GRP_DISP i0), 39, 39⟩
def ST_GRP_DISP.HEAD_STREAM (i0 : Nat) : Fld := ⟨(R.ST_GRP_DISP i0), 38, 32⟩
def ST_GRP_DISP.READY (i0 : Nat) : Fld := ⟨(R.ST_GRP_DISP i0), 23, 16⟩
def ST_GRP_DISP.BKG_READY (i0 : Nat) : Fld := ⟨(R.ST_GRP_DISP i0), 15, 8⟩
def ST_GRP_HEAD_DL.KEY (i0 : Nat) : Fld := ⟨(R.ST_GRP_HEAD_DL i0), 63, 0⟩
def ST_GRP_ADM.UTIL (i0 : Nat) : Fld := ⟨(R.ST_GRP_ADM i0), 63, 48⟩
def ST_GRP_ADM.FLOOR (i0 : Nat) : Fld := ⟨(R.ST_GRP_ADM i0), 41, 40⟩
def ST_GRP_ADM.USABLE (i0 : Nat) : Fld := ⟨(R.ST_GRP_ADM i0), 37, 32⟩
def ST_GRP_ADM.WITHDRAWN (i0 : Nat) : Fld := ⟨(R.ST_GRP_ADM i0), 23, 16⟩
def ST_GRP_ADM.ADMITTED (i0 : Nat) : Fld := ⟨(R.ST_GRP_ADM i0), 15, 8⟩
def ST_GRP_CNT_DISP.COUNT (i0 : Nat) : Fld := ⟨(R.ST_GRP_CNT_DISP i0), 63, 0⟩
def ST_GRP_CNT_BKG.COUNT (i0 : Nat) : Fld := ⟨(R.ST_GRP_CNT_BKG i0), 63, 0⟩
def ST_GRP_CNT_PREEMPT.COUNT (i0 : Nat) : Fld := ⟨(R.ST_GRP_CNT_PREEMPT i0), 63, 0⟩
def CP_CTL.ENABLE : Fld := ⟨R.CP_CTL, 0, 0⟩
def CP_SLOT_BASE.BASE : Fld := ⟨R.CP_SLOT_BASE, 47, 12⟩
def CP_GLB_COMMIT.COMMIT : Fld := ⟨R.CP_GLB_COMMIT, 0, 0⟩
def CP_GLB_CSTAT.CODE : Fld := ⟨R.CP_GLB_CSTAT, 7, 0⟩
def CP_STAT.PROJ_ORDER : Fld := ⟨R.CP_STAT, 5, 5⟩
def CP_STAT.GRID_UE : Fld := ⟨R.CP_STAT, 4, 4⟩
def CP_STAT.BIRTH_REFUSED : Fld := ⟨R.CP_STAT, 3, 3⟩
def CP_STAT.RPT_TRUNC : Fld := ⟨R.CP_STAT, 2, 2⟩
def CP_STAT.DET_DROP : Fld := ⟨R.CP_STAT, 1, 1⟩
def CP_STAT.CKPT_WAIT : Fld := ⟨R.CP_STAT, 0, 0⟩
def CP_UNIT_STAT.GROUPS (i0 : Nat) : Fld := ⟨(R.CP_UNIT_STAT i0), 63, 32⟩
def CP_UNIT_STAT.STATE (i0 : Nat) : Fld := ⟨(R.CP_UNIT_STAT i0), 2, 0⟩
def CP_UNIT_CACHE.RESIDENT (i0 : Nat) : Fld := ⟨(R.CP_UNIT_CACHE i0), 13, 0⟩
def CP_UNIT_CNT_BUSY.COUNT (i0 : Nat) : Fld := ⟨(R.CP_UNIT_CNT_BUSY i0), 63, 0⟩
def CP_UNIT_CNT_MISS.COUNT (i0 : Nat) : Fld := ⟨(R.CP_UNIT_CNT_MISS i0), 63, 0⟩
def CP_GRP_CTL.OPEN_US (i0 : Nat) : Fld := ⟨(R.CP_GRP_CTL i0), 63, 48⟩
def CP_GRP_CTL.W_US (i0 : Nat) : Fld := ⟨(R.CP_GRP_CTL i0), 47, 38⟩
def CP_GRP_CTL.SLICE_US (i0 : Nat) : Fld := ⟨(R.CP_GRP_CTL i0), 37, 25⟩
def CP_GRP_CTL.UNIT (i0 : Nat) : Fld := ⟨(R.CP_GRP_CTL i0), 24, 22⟩
def CP_GRP_CTL.RPT_TENT (i0 : Nat) : Fld := ⟨(R.CP_GRP_CTL i0), 21, 21⟩
def CP_GRP_CTL.ENABLE (i0 : Nat) : Fld := ⟨(R.CP_GRP_CTL i0), 0, 0⟩
def CP_GRP_GRID.CELL_CM (i0 : Nat) : Fld := ⟨(R.CP_GRP_GRID i0), 45, 40⟩
def CP_GRP_GRID.CELLS_Y (i0 : Nat) : Fld := ⟨(R.CP_GRP_GRID i0), 29, 20⟩
def CP_GRP_GRID.CELLS_X (i0 : Nat) : Fld := ⟨(R.CP_GRP_GRID i0), 9, 0⟩
def CP_GRP_ORIGIN.Y_MM (i0 : Nat) : Fld := ⟨(R.CP_GRP_ORIGIN i0), 63, 32⟩
def CP_GRP_ORIGIN.X_MM (i0 : Nat) : Fld := ⟨(R.CP_GRP_ORIGIN i0), 31, 0⟩
def CP_GRP_GMEM.BASE (i0 : Nat) : Fld := ⟨(R.CP_GRP_GMEM i0), 47, 12⟩
def CP_GRP_SLOTS.COUNT (i0 : Nat) : Fld := ⟨(R.CP_GRP_SLOTS i0), 50, 32⟩
def CP_GRP_SLOTS.FIRST (i0 : Nat) : Fld := ⟨(R.CP_GRP_SLOTS i0), 17, 0⟩
def CP_GRP_HEALTH.DIS_THR (i0 : Nat) : Fld := ⟨(R.CP_GRP_HEALTH i0), 63, 48⟩
def CP_GRP_HEALTH.DIS_EXIT_THR (i0 : Nat) : Fld := ⟨(R.CP_GRP_HEALTH i0), 47, 32⟩
def CP_GRP_HEALTH.DIS_N (i0 : Nat) : Fld := ⟨(R.CP_GRP_HEALTH i0), 31, 24⟩
def CP_GRP_HEALTH.DIS_EXIT_N (i0 : Nat) : Fld := ⟨(R.CP_GRP_HEALTH i0), 23, 16⟩
def CP_GRP_HEALTH.DROP_N (i0 : Nat) : Fld := ⟨(R.CP_GRP_HEALTH i0), 15, 12⟩
def CP_GRP_HEALTH.MU (i0 : Nat) : Fld := ⟨(R.CP_GRP_HEALTH i0), 8, 0⟩
def CP_GRP_TRACK.DORMANT_S (i0 : Nat) : Fld := ⟨(R.CP_GRP_TRACK i0), 63, 48⟩
def CP_GRP_TRACK.N_DORMANT (i0 : Nat) : Fld := ⟨(R.CP_GRP_TRACK i0), 47, 32⟩
def CP_GRP_TRACK.BIRTH_THR (i0 : Nat) : Fld := ⟨(R.CP_GRP_TRACK i0), 31, 24⟩
def CP_GRP_TRACK.REID_THR (i0 : Nat) : Fld := ⟨(R.CP_GRP_TRACK i0), 23, 16⟩
def CP_GRP_TRACK.N_CONFIRM (i0 : Nat) : Fld := ⟨(R.CP_GRP_TRACK i0), 15, 12⟩
def CP_GRP_TRACK.TENT_MISS (i0 : Nat) : Fld := ⟨(R.CP_GRP_TRACK i0), 11, 8⟩
def CP_GRP_TRACK.DET_THR (i0 : Nat) : Fld := ⟨(R.CP_GRP_TRACK i0), 7, 0⟩
def CP_GRP_ASSOC.GATE (i0 : Nat) : Fld := ⟨(R.CP_GRP_ASSOC i0), 63, 32⟩
def CP_GRP_ASSOC.LAMBDA (i0 : Nat) : Fld := ⟨(R.CP_GRP_ASSOC i0), 31, 0⟩
def CP_GRP_KIN.Q_ACC (i0 : Nat) : Fld := ⟨(R.CP_GRP_KIN i0), 63, 32⟩
def CP_GRP_KIN.EMA_ALPHA (i0 : Nat) : Fld := ⟨(R.CP_GRP_KIN i0), 31, 16⟩
def CP_GRP_KIN.EMB_BETA (i0 : Nat) : Fld := ⟨(R.CP_GRP_KIN i0), 15, 0⟩
def CP_GRP_RPT.DET_MAX (i0 : Nat) : Fld := ⟨(R.CP_GRP_RPT i0), 63, 49⟩
def CP_GRP_RPT.RING (i0 : Nat) : Fld := ⟨(R.CP_GRP_RPT i0), 44, 32⟩
def CP_GRP_RPT.VIEW_RING (i0 : Nat) : Fld := ⟨(R.CP_GRP_RPT i0), 30, 18⟩
def CP_GRP_RPT.MAX_RPT (i0 : Nat) : Fld := ⟨(R.CP_GRP_RPT i0), 17, 0⟩
def CP_GRP_COMMIT.COMMIT (i0 : Nat) : Fld := ⟨(R.CP_GRP_COMMIT i0), 0, 0⟩
def CP_GRP_CSTAT.CODE (i0 : Nat) : Fld := ⟨(R.CP_GRP_CSTAT i0), 7, 0⟩
def CP_GRP_STAT.MASKED (i0 : Nat) : Fld := ⟨(R.CP_GRP_STAT i0), 63, 48⟩
def CP_GRP_STAT.MEMBERS (i0 : Nat) : Fld := ⟨(R.CP_GRP_STAT i0), 47, 32⟩
def CP_GRP_STAT.STATE (i0 : Nat) : Fld := ⟨(R.CP_GRP_STAT i0), 2, 0⟩
def CP_GRP_INSTANT.K (i0 : Nat) : Fld := ⟨(R.CP_GRP_INSTANT i0), 63, 0⟩
def CP_GRP_CKPT.K (i0 : Nat) : Fld := ⟨(R.CP_GRP_CKPT i0), 63, 0⟩
def CP_GRP_CNT_INSTANT.COUNT (i0 : Nat) : Fld := ⟨(R.CP_GRP_CNT_INSTANT i0), 63, 0⟩
def CP_GRP_CNT_TIMEOUT.COUNT (i0 : Nat) : Fld := ⟨(R.CP_GRP_CNT_TIMEOUT i0), 63, 0⟩
def CP_GRP_CNT_LATE.COUNT (i0 : Nat) : Fld := ⟨(R.CP_GRP_CNT_LATE i0), 63, 0⟩
def CP_GRP_CNT_LATE_OLD.COUNT (i0 : Nat) : Fld := ⟨(R.CP_GRP_CNT_LATE_OLD i0), 63, 0⟩
def CP_GRP_CNT_EXTRAP.COUNT (i0 : Nat) : Fld := ⟨(R.CP_GRP_CNT_EXTRAP i0), 63, 0⟩
def CP_GRP_CNT_STALE.COUNT (i0 : Nat) : Fld := ⟨(R.CP_GRP_CNT_STALE i0), 63, 0⟩
def CP_GRP_CNT_BIRTH.COUNT (i0 : Nat) : Fld := ⟨(R.CP_GRP_CNT_BIRTH i0), 63, 0⟩
def CP_GRP_CNT_BIRTH_REFUSED.COUNT (i0 : Nat) : Fld := ⟨(R.CP_GRP_CNT_BIRTH_REFUSED i0), 63, 0⟩
def CP_GRP_CNT_RECLAIM.COUNT (i0 : Nat) : Fld := ⟨(R.CP_GRP_CNT_RECLAIM i0), 63, 0⟩
def CP_GRP_CNT_REVIVE.COUNT (i0 : Nat) : Fld := ⟨(R.CP_GRP_CNT_REVIVE i0), 63, 0⟩
def CP_GRP_CNT_RPT.COUNT (i0 : Nat) : Fld := ⟨(R.CP_GRP_CNT_RPT i0), 63, 0⟩
def CP_GRP_CNT_RPT_TRUNC.COUNT (i0 : Nat) : Fld := ⟨(R.CP_GRP_CNT_RPT_TRUNC i0), 63, 0⟩
def CP_GRP_CNT_DET_DROP.COUNT (i0 : Nat) : Fld := ⟨(R.CP_GRP_CNT_DET_DROP i0), 63, 0⟩
def CP_GRP_CNT_GRID_RESET.COUNT (i0 : Nat) : Fld := ⟨(R.CP_GRP_CNT_GRID_RESET i0), 63, 0⟩
def CP_MBR_CTL.POSITION (i0 : Nat) : Fld := ⟨(R.CP_MBR_CTL i0), 19, 16⟩
def CP_MBR_CTL.VIEW_RPT (i0 : Nat) : Fld := ⟨(R.CP_MBR_CTL i0), 2, 2⟩
def CP_MBR_CTL.SW_MASK (i0 : Nat) : Fld := ⟨(R.CP_MBR_CTL i0), 1, 1⟩
def CP_MBR_CTL.ENABLE (i0 : Nat) : Fld := ⟨(R.CP_MBR_CTL i0), 0, 0⟩
def CP_MBR_PROJ.ADDR (i0 : Nat) : Fld := ⟨(R.CP_MBR_PROJ i0), 47, 6⟩
def CP_MBR_STAT.AGREE (i0 : Nat) : Fld := ⟨(R.CP_MBR_STAT i0), 63, 48⟩
def CP_MBR_STAT.DIS_CNT (i0 : Nat) : Fld := ⟨(R.CP_MBR_STAT i0), 47, 40⟩
def CP_MBR_STAT.DROP_CNT (i0 : Nat) : Fld := ⟨(R.CP_MBR_STAT i0), 35, 32⟩
def CP_MBR_STAT.REASONS (i0 : Nat) : Fld := ⟨(R.CP_MBR_STAT i0), 5, 0⟩
def CP_MBR_COMMIT.COMMIT (i0 : Nat) : Fld := ⟨(R.CP_MBR_COMMIT i0), 0, 0⟩
def CP_MBR_CSTAT.CODE (i0 : Nat) : Fld := ⟨(R.CP_MBR_CSTAT i0), 7, 0⟩
def MEM_CTL.SCRUB_H : Fld := ⟨R.MEM_CTL, 63, 48⟩
def MEM_CTL.SCRUB_EN : Fld := ⟨R.MEM_CTL, 0, 0⟩
def MEM_GUARD_USED.MIB : Fld := ⟨R.MEM_GUARD_USED, 31, 0⟩
def MEM_ERR.TRAIN_FAIL : Fld := ⟨R.MEM_ERR, 5, 5⟩
def MEM_ERR.PC_FAILED : Fld := ⟨R.MEM_ERR, 4, 4⟩
def MEM_ERR.UNMAPPED : Fld := ⟨R.MEM_ERR, 3, 3⟩
def MEM_ERR.UE_BOTH : Fld := ⟨R.MEM_ERR, 2, 2⟩
def MEM_ERR.UE : Fld := ⟨R.MEM_ERR, 1, 1⟩
def MEM_ERR.CE : Fld := ⟨R.MEM_ERR, 0, 0⟩
def MEM_PC_FAILk.VALID (i0 : Nat) : Fld := ⟨(R.MEM_PC_FAILk i0), 63, 63⟩
def MEM_PC_FAILk.PC (i0 : Nat) : Fld := ⟨(R.MEM_PC_FAILk i0), 8, 0⟩
def MEM_TEMP.MAX_C : Fld := ⟨R.MEM_TEMP, 7, 0⟩
def MEM_CNT_CE.COUNT : Fld := ⟨R.MEM_CNT_CE, 63, 0⟩
def MEM_CNT_UE.COUNT : Fld := ⟨R.MEM_CNT_UE, 63, 0⟩
def MEM_CNT_MIRROR_READ.COUNT : Fld := ⟨R.MEM_CNT_MIRROR_READ, 63, 0⟩
def MEM_CNT_SCRUB.COUNT : Fld := ⟨R.MEM_CNT_SCRUB, 63, 0⟩
def MEM_CNT_UNMAPPED.COUNT : Fld := ⟨R.MEM_CNT_UNMAPPED, 63, 0⟩
def MEM_RGN_BASE.BASE (i0 : Nat) : Fld := ⟨(R.MEM_RGN_BASE i0), 35, 24⟩
def MEM_RGN_CFG.ENABLE (i0 : Nat) : Fld := ⟨(R.MEM_RGN_CFG i0), 63, 63⟩
def MEM_RGN_CFG.PROT (i0 : Nat) : Fld := ⟨(R.MEM_RGN_CFG i0), 62, 62⟩
def MEM_RGN_CFG.PLACE (i0 : Nat) : Fld := ⟨(R.MEM_RGN_CFG i0), 61, 61⟩
def MEM_RGN_CFG.STOP (i0 : Nat) : Fld := ⟨(R.MEM_RGN_CFG i0), 58, 52⟩
def MEM_RGN_CFG.CH_OFF (i0 : Nat) : Fld := ⟨(R.MEM_RGN_CFG i0), 43, 32⟩
def MEM_RGN_CFG.SIZE (i0 : Nat) : Fld := ⟨(R.MEM_RGN_CFG i0), 12, 0⟩
def MEM_RGN_COMMIT.COMMIT (i0 : Nat) : Fld := ⟨(R.MEM_RGN_COMMIT i0), 0, 0⟩
def MEM_RGN_CSTAT.CODE (i0 : Nat) : Fld := ⟨(R.MEM_RGN_CSTAT i0), 7, 0⟩
def MEM_STOP_SHARE.CONTROL (i0 : Nat) : Fld := ⟨(R.MEM_STOP_SHARE i0), 31, 24⟩
def MEM_STOP_SHARE.RESULTS (i0 : Nat) : Fld := ⟨(R.MEM_STOP_SHARE i0), 23, 16⟩
def MEM_STOP_SHARE.TENSOR (i0 : Nat) : Fld := ⟨(R.MEM_STOP_SHARE i0), 15, 8⟩
def MEM_STOP_SHARE.INGEST (i0 : Nat) : Fld := ⟨(R.MEM_STOP_SHARE i0), 7, 0⟩
def CN_CTL.RETRY_LIMIT : Fld := ⟨R.CN_CTL, 15, 8⟩
def CN_CTL.CTRL_MIN : Fld := ⟨R.CN_CTL, 7, 0⟩
def CN_ERR.LINK_FAIL : Fld := ⟨R.CN_ERR, 1, 1⟩
def CN_ERR.CRC : Fld := ⟨R.CN_ERR, 0, 0⟩
def CN_CNT_RETRY.COUNT : Fld := ⟨R.CN_CNT_RETRY, 63, 0⟩
def CN_CNT_DETOUR.COUNT : Fld := ⟨R.CN_CNT_DETOUR, 63, 0⟩
def CN_STOP_WT_EW.E (i0 : Nat) : Fld := ⟨(R.CN_STOP_WT_EW i0), 63, 32⟩
def CN_STOP_WT_EW.W (i0 : Nat) : Fld := ⟨(R.CN_STOP_WT_EW i0), 31, 0⟩
def CN_STOP_WT_NS.N (i0 : Nat) : Fld := ⟨(R.CN_STOP_WT_NS i0), 63, 32⟩
def CN_STOP_WT_NS.S (i0 : Nat) : Fld := ⟨(R.CN_STOP_WT_NS i0), 31, 0⟩
def CN_STOP_LINK.DETOUR (i0 : Nat) : Fld := ⟨(R.CN_STOP_LINK i0), 11, 8⟩
def CN_STOP_LINK.FAILED (i0 : Nat) : Fld := ⟨(R.CN_STOP_LINK i0), 3, 0⟩
def CN_STOP_SEQ.SEQ (i0 : Nat) : Fld := ⟨(R.CN_STOP_SEQ i0), 63, 0⟩
def SQ_SEL.QUEUE : Fld := ⟨R.SQ_SEL, 11, 0⟩
def SQ_Q_CFG.ENABLE : Fld := ⟨R.SQ_Q_CFG, 63, 63⟩
def SQ_Q_CFG.PROD : Fld := ⟨R.SQ_Q_CFG, 57, 49⟩
def SQ_Q_CFG.CONS : Fld := ⟨R.SQ_Q_CFG, 48, 40⟩
def SQ_Q_CFG.PART : Fld := ⟨R.SQ_Q_CFG, 37, 36⟩
def SQ_Q_CFG.BASE : Fld := ⟨R.SQ_Q_CFG, 31, 20⟩
def SQ_Q_CFG.DEPTH_LOG2 : Fld := ⟨R.SQ_Q_CFG, 4, 0⟩
def SQ_Q_COMMIT.COMMIT : Fld := ⟨R.SQ_Q_COMMIT, 0, 0⟩
def SQ_Q_CSTAT.CODE : Fld := ⟨R.SQ_Q_CSTAT, 7, 0⟩
def SQ_Q_CTL.RESET : Fld := ⟨R.SQ_Q_CTL, 0, 0⟩
def SQ_Q_STAT.RESET_EPOCH : Fld := ⟨R.SQ_Q_STAT, 63, 56⟩
def SQ_Q_STAT.OCC : Fld := ⟨R.SQ_Q_STAT, 52, 36⟩
def SQ_Q_STAT.UE : Fld := ⟨R.SQ_Q_STAT, 26, 26⟩
def SQ_Q_STAT.PTR_ERR : Fld := ⟨R.SQ_Q_STAT, 25, 25⟩
def SQ_Q_STAT.OVERRUN : Fld := ⟨R.SQ_Q_STAT, 24, 24⟩
def SQ_Q_STAT.SPACE : Fld := ⟨R.SQ_Q_STAT, 16, 0⟩
def SQ_Q_PKT.PKT_IN : Fld := ⟨R.SQ_Q_PKT, 63, 32⟩
def SQ_Q_PKT.PKT_OUT : Fld := ⟨R.SQ_Q_PKT, 31, 0⟩
def SQ_ERR.RESET : Fld := ⟨R.SQ_ERR, 1, 1⟩
def SQ_ERR.ILLEGAL_AGENT : Fld := ⟨R.SQ_ERR, 0, 0⟩
def SQ_CNT_RESET.COUNT : Fld := ⟨R.SQ_CNT_RESET, 63, 0⟩
def NET_PORT_CTL.ENABLE (i0 : Nat) : Fld := ⟨(R.NET_PORT_CTL i0), 63, 63⟩
def NET_PORT_CTL.MACSEC (i0 : Nat) : Fld := ⟨(R.NET_PORT_CTL i0), 62, 62⟩
def NET_PORT_CTL.CIPHER (i0 : Nat) : Fld := ⟨(R.NET_PORT_CTL i0), 61, 60⟩
def NET_PORT_CTL.REPLAY_WIN (i0 : Nat) : Fld := ⟨(R.NET_PORT_CTL i0), 59, 48⟩
def NET_PORT_CTL.PVID (i0 : Nat) : Fld := ⟨(R.NET_PORT_CTL i0), 47, 36⟩
def NET_PORT_CTL.PTP_ROLE (i0 : Nat) : Fld := ⟨(R.NET_PORT_CTL i0), 35, 34⟩
def NET_PORT_CTL.PTP_P2P (i0 : Nat) : Fld := ⟨(R.NET_PORT_CTL i0), 33, 33⟩
def NET_PORT_CTL.ONE_STEP (i0 : Nat) : Fld := ⟨(R.NET_PORT_CTL i0), 32, 32⟩
def NET_PORT_CTL.LATE_DROP (i0 : Nat) : Fld := ⟨(R.NET_PORT_CTL i0), 31, 31⟩
def NET_PORT_CTL.LATE_TOL (i0 : Nat) : Fld := ⟨(R.NET_PORT_CTL i0), 23, 0⟩
def NET_PORT_DLY.EGRESS (i0 : Nat) : Fld := ⟨(R.NET_PORT_DLY i0), 63, 32⟩
def NET_PORT_DLY.INGRESS (i0 : Nat) : Fld := ⟨(R.NET_PORT_DLY i0), 31, 0⟩
def NET_PORT_COMMIT.COMMIT (i0 : Nat) : Fld := ⟨(R.NET_PORT_COMMIT i0), 0, 0⟩
def NET_PORT_CSTAT.CODE (i0 : Nat) : Fld := ⟨(R.NET_PORT_CSTAT i0), 7, 0⟩
def NET_PORT_STAT.PTP_STATE (i0 : Nat) : Fld := ⟨(R.NET_PORT_STAT i0), 11, 8⟩
def NET_PORT_STAT.FAILED (i0 : Nat) : Fld := ⟨(R.NET_PORT_STAT i0), 2, 2⟩
def NET_PORT_STAT.FEC_LOCK (i0 : Nat) : Fld := ⟨(R.NET_PORT_STAT i0), 1, 1⟩
def NET_PORT_STAT.LINK (i0 : Nat) : Fld := ⟨(R.NET_PORT_STAT i0), 0, 0⟩
def NET_PORT_TXTS_ID.VALID (i0 : Nat) : Fld := ⟨(R.NET_PORT_TXTS_ID i0), 63, 63⟩
def NET_PORT_TXTS_ID.FRAC (i0 : Nat) : Fld := ⟨(R.NET_PORT_TXTS_ID i0), 31, 16⟩
def NET_PORT_TXTS_ID.FRAME_ID (i0 : Nat) : Fld := ⟨(R.NET_PORT_TXTS_ID i0), 15, 0⟩
def NET_PORT_TXTS_TIME.NS (i0 : Nat) : Fld := ⟨(R.NET_PORT_TXTS_TIME i0), 63, 0⟩
def NET_PORT_TXTS_STAT.OVF (i0 : Nat) : Fld := ⟨(R.NET_PORT_TXTS_STAT i0), 16, 16⟩
def NET_PORT_TXTS_STAT.OCC (i0 : Nat) : Fld := ⟨(R.NET_PORT_TXTS_STAT i0), 6, 0⟩
def NET_PORT_MACSEC.RX_SC (i0 : Nat) : Fld := ⟨(R.NET_PORT_MACSEC i0), 45, 40⟩
def NET_PORT_MACSEC.TX_AN (i0 : Nat) : Fld := ⟨(R.NET_PORT_MACSEC i0), 33, 32⟩
def NET_PORT_MACSEC.MKA_UP (i0 : Nat) : Fld := ⟨(R.NET_PORT_MACSEC i0), 0, 0⟩
def NET_PORT_CNT_RX.COUNT (i0 : Nat) : Fld := ⟨(R.NET_PORT_CNT_RX i0), 63, 0⟩
def NET_PORT_CNT_TX.COUNT (i0 : Nat) : Fld := ⟨(R.NET_PORT_CNT_TX i0), 63, 0⟩
def NET_PORT_CNT_RX_FCS.COUNT (i0 : Nat) : Fld := ⟨(R.NET_PORT_CNT_RX_FCS i0), 63, 0⟩
def NET_PORT_CNT_FEC_UNCORR.COUNT (i0 : Nat) : Fld := ⟨(R.NET_PORT_CNT_FEC_UNCORR i0), 63, 0⟩
def NET_PORT_CNT_MACSEC_DROP.COUNT (i0 : Nat) : Fld := ⟨(R.NET_PORT_CNT_MACSEC_DROP i0), 63, 0⟩
def NET_PORT_CNT_TXTS_DROP.COUNT (i0 : Nat) : Fld := ⟨(R.NET_PORT_CNT_TXTS_DROP i0), 63, 0⟩
def NET_PORT_CNT_LATE_SENT.COUNT (i0 : Nat) : Fld := ⟨(R.NET_PORT_CNT_LATE_SENT i0), 63, 0⟩
def NET_PORT_CNT_LATE_DROP.COUNT (i0 : Nat) : Fld := ⟨(R.NET_PORT_CNT_LATE_DROP i0), 63, 0⟩
def NET_CTL.AGE_S : Fld := ⟨R.NET_CTL, 63, 48⟩
def NET_CTL.CULVERT_UDP : Fld := ⟨R.NET_CTL, 47, 32⟩
def NET_CTL.EXPORT_UDP : Fld := ⟨R.NET_CTL, 31, 16⟩
def NET_CTL.MODE : Fld := ⟨R.NET_CTL, 9, 8⟩
def NET_CTL.LEARN : Fld := ⟨R.NET_CTL, 2, 2⟩
def NET_CTL.BRIDGE : Fld := ⟨R.NET_CTL, 1, 1⟩
def NET_MAC.ADDR : Fld := ⟨R.NET_MAC, 47, 0⟩
def NET_IP4.ADDR : Fld := ⟨R.NET_IP4, 31, 0⟩
def NET_IP6_LO.ADDR : Fld := ⟨R.NET_IP6_LO, 63, 0⟩
def NET_IP6_HI.ADDR : Fld := ⟨R.NET_IP6_HI, 63, 0⟩
def NET_GLB_COMMIT.COMMIT : Fld := ⟨R.NET_GLB_COMMIT, 0, 0⟩
def NET_GLB_CSTAT.CODE : Fld := ⟨R.NET_GLB_CSTAT, 7, 0⟩
def NET_FDB_ADDR.INDEX : Fld := ⟨R.NET_FDB_ADDR, 14, 0⟩
def NET_FDB_DATA.VALID : Fld := ⟨R.NET_FDB_DATA, 63, 63⟩
def NET_FDB_DATA.STATIC : Fld := ⟨R.NET_FDB_DATA, 62, 62⟩
def NET_FDB_DATA.PORT : Fld := ⟨R.NET_FDB_DATA, 60, 56⟩
def NET_FDB_DATA.MAC : Fld := ⟨R.NET_FDB_DATA, 47, 0⟩
def NET_FDB_VID.VID : Fld := ⟨R.NET_FDB_VID, 11, 0⟩
def NET_VLAN_ADDR.VID : Fld := ⟨R.NET_VLAN_ADDR, 11, 0⟩
def NET_VLAN_DATA.VALID : Fld := ⟨R.NET_VLAN_DATA, 63, 63⟩
def NET_VLAN_DATA.UNTAGGED : Fld := ⟨R.NET_VLAN_DATA, 48, 32⟩
def NET_VLAN_DATA.MEMBERS : Fld := ⟨R.NET_VLAN_DATA, 16, 0⟩
def NET_ERP_k.ENABLE (i0 : Nat) : Fld := ⟨(R.NET_ERP_k i0), 63, 63⟩
def NET_ERP_k.RAPS_VID (i0 : Nat) : Fld := ⟨(R.NET_ERP_k i0), 59, 48⟩
def NET_ERP_k.STATE (i0 : Nat) : Fld := ⟨(R.NET_ERP_k i0), 26, 24⟩
def NET_ERP_k.RPL_PORT (i0 : Nat) : Fld := ⟨(R.NET_ERP_k i0), 18, 18⟩
def NET_ERP_k.ROLE (i0 : Nat) : Fld := ⟨(R.NET_ERP_k i0), 17, 16⟩
def NET_ERP_k.PORT1 (i0 : Nat) : Fld := ⟨(R.NET_ERP_k i0), 12, 8⟩
def NET_ERP_k.PORT0 (i0 : Nat) : Fld := ⟨(R.NET_ERP_k i0), 4, 0⟩
def NET_CNT_FDB_FULL.COUNT : Fld := ⟨R.NET_CNT_FDB_FULL, 63, 0⟩
def NET_ERR.PORT_FAIL : Fld := ⟨R.NET_ERR, 2, 2⟩
def NET_ERR.CULVERT_AUTH : Fld := ⟨R.NET_ERR, 1, 1⟩
def NET_ERR.UNKNOWN_FRAME : Fld := ⟨R.NET_ERR, 0, 0⟩
def NET_PEER_CTL.ENABLE (i0 : Nat) : Fld := ⟨(R.NET_PEER_CTL i0), 63, 63⟩
def NET_PEER_CTL.BUDDY (i0 : Nat) : Fld := ⟨(R.NET_PEER_CTL i0), 62, 62⟩
def NET_PEER_CTL.DEVNUM (i0 : Nat) : Fld := ⟨(R.NET_PEER_CTL i0), 57, 48⟩
def NET_PEER_CTL.PORT (i0 : Nat) : Fld := ⟨(R.NET_PEER_CTL i0), 47, 44⟩
def NET_PEER_CTL.ALT_PORT (i0 : Nat) : Fld := ⟨(R.NET_PEER_CTL i0), 43, 40⟩
def NET_PEER_CTL.ALT_EN (i0 : Nat) : Fld := ⟨(R.NET_PEER_CTL i0), 39, 39⟩
def NET_PEER_CTL.LINKS (i0 : Nat) : Fld := ⟨(R.NET_PEER_CTL i0), 15, 0⟩
def NET_PEER_ADDR_LO.ADDR (i0 : Nat) : Fld := ⟨(R.NET_PEER_ADDR_LO i0), 63, 0⟩
def NET_PEER_ADDR_HI.ADDR (i0 : Nat) : Fld := ⟨(R.NET_PEER_ADDR_HI i0), 63, 0⟩
def NET_PEER_STAT.OFFSET (i0 : Nat) : Fld := ⟨(R.NET_PEER_STAT i0), 63, 32⟩
def NET_PEER_STAT.STATE (i0 : Nat) : Fld := ⟨(R.NET_PEER_STAT i0), 2, 0⟩
def NET_PEER_COMMIT.COMMIT (i0 : Nat) : Fld := ⟨(R.NET_PEER_COMMIT i0), 0, 0⟩
def NET_PEER_CSTAT.CODE (i0 : Nat) : Fld := ⟨(R.NET_PEER_CSTAT i0), 7, 0⟩
def NET_EXP_CTL.ENABLE (i0 : Nat) : Fld := ⟨(R.NET_EXP_CTL i0), 63, 63⟩
def NET_EXP_CTL.IPV6 (i0 : Nat) : Fld := ⟨(R.NET_EXP_CTL i0), 62, 62⟩
def NET_EXP_CTL.JUMBO (i0 : Nat) : Fld := ⟨(R.NET_EXP_CTL i0), 61, 61⟩
def NET_EXP_CTL.GROUP (i0 : Nat) : Fld := ⟨(R.NET_EXP_CTL i0), 60, 56⟩
def NET_EXP_CTL.PORT (i0 : Nat) : Fld := ⟨(R.NET_EXP_CTL i0), 51, 48⟩
def NET_EXP_CTL.ALT_PORT (i0 : Nat) : Fld := ⟨(R.NET_EXP_CTL i0), 47, 44⟩
def NET_EXP_CTL.ALT_EN (i0 : Nat) : Fld := ⟨(R.NET_EXP_CTL i0), 43, 43⟩
def NET_EXP_CTL.VLAN (i0 : Nat) : Fld := ⟨(R.NET_EXP_CTL i0), 35, 24⟩
def NET_EXP_CTL.LAUNCH_OFF (i0 : Nat) : Fld := ⟨(R.NET_EXP_CTL i0), 19, 0⟩
def NET_EXP_DST_LO.ADDR (i0 : Nat) : Fld := ⟨(R.NET_EXP_DST_LO i0), 63, 0⟩
def NET_EXP_DST_HI.ADDR (i0 : Nat) : Fld := ⟨(R.NET_EXP_DST_HI i0), 63, 0⟩
def NET_EXP_UDP.PORT (i0 : Nat) : Fld := ⟨(R.NET_EXP_UDP i0), 15, 0⟩
def NET_EXP_COMMIT.COMMIT (i0 : Nat) : Fld := ⟨(R.NET_EXP_COMMIT i0), 0, 0⟩
def NET_EXP_CSTAT.CODE (i0 : Nat) : Fld := ⟨(R.NET_EXP_CSTAT i0), 7, 0⟩
def NET_EXP_STAT.SENT_SEQ (i0 : Nat) : Fld := ⟨(R.NET_EXP_STAT i0), 63, 32⟩
def NET_EXP_STAT.STATE (i0 : Nat) : Fld := ⟨(R.NET_EXP_STAT i0), 2, 0⟩
def NET_EXP_CNT.COUNT (i0 : Nat) : Fld := ⟨(R.NET_EXP_CNT i0), 63, 0⟩
def NET_EXP_CNT_RESENT.COUNT (i0 : Nat) : Fld := ⟨(R.NET_EXP_CNT_RESENT i0), 63, 0⟩
def TIM_NOW.NS : Fld := ⟨R.TIM_NOW, 63, 0⟩
def TIM_NOW_FRAC.FRAC : Fld := ⟨R.TIM_NOW_FRAC, 15, 0⟩
def TIM_ADDEND.ADDEND : Fld := ⟨R.TIM_ADDEND, 39, 0⟩
def TIM_SERVO.HOLD_S : Fld := ⟨R.TIM_SERVO, 63, 48⟩
def TIM_SERVO.DOMAIN : Fld := ⟨R.TIM_SERVO, 47, 40⟩
def TIM_SERVO.PORT : Fld := ⟨R.TIM_SERVO, 39, 36⟩
def TIM_SERVO.SOURCE : Fld := ⟨R.TIM_SERVO, 33, 32⟩
def TIM_SERVO.PROFILE : Fld := ⟨R.TIM_SERVO, 31, 31⟩
def TIM_SERVO.STATE : Fld := ⟨R.TIM_SERVO, 1, 0⟩
def TIM_OFFSET.NS : Fld := ⟨R.TIM_OFFSET, 63, 0⟩
def TIM_PPS.OUT_EN : Fld := ⟨R.TIM_PPS, 63, 63⟩
def TIM_PPS.IN_EN : Fld := ⟨R.TIM_PPS, 62, 62⟩
def TIM_PPS.WIDTH_MS : Fld := ⟨R.TIM_PPS, 41, 32⟩
def TIM_PPS.OUT_COMP : Fld := ⟨R.TIM_PPS, 31, 0⟩
def TIM_PPS_IN.NS : Fld := ⟨R.TIM_PPS_IN, 63, 0⟩
def TIM_BC.PRIORITY1 : Fld := ⟨R.TIM_BC, 31, 24⟩
def TIM_BC.PRIORITY2 : Fld := ⟨R.TIM_BC, 23, 16⟩
def TIM_BC.HOLD_CLASS : Fld := ⟨R.TIM_BC, 15, 8⟩
def TIM_BC.FREE_CLASS : Fld := ⟨R.TIM_BC, 7, 0⟩
def TIM_COMMIT.COMMIT : Fld := ⟨R.TIM_COMMIT, 0, 0⟩
def TIM_CSTAT.CODE : Fld := ⟨R.TIM_CSTAT, 7, 0⟩
def SEC_SERIAL.SERIAL : Fld := ⟨R.SEC_SERIAL, 63, 0⟩
def SEC_FUSE.ROLLBACK : Fld := ⟨R.SEC_FUSE, 63, 56⟩
def SEC_FUSE.DEBUG_STATE : Fld := ⟨R.SEC_FUSE, 9, 8⟩
def SEC_FUSE.GRADE_E : Fld := ⟨R.SEC_FUSE, 2, 2⟩
def SEC_FUSE.OWNER_SET : Fld := ⟨R.SEC_FUSE, 1, 1⟩
def SEC_FUSE.FUSE_OK : Fld := ⟨R.SEC_FUSE, 0, 0⟩
def SEC_KEYS.CAK_SET : Fld := ⟨R.SEC_KEYS, 31, 16⟩
def SEC_KEYS.ROLE_SET : Fld := ⟨R.SEC_KEYS, 3, 0⟩
def SEC_SESS.PEERS : Fld := ⟨R.SEC_SESS, 20, 16⟩
def SEC_SESS.OPEN : Fld := ⟨R.SEC_SESS, 8, 0⟩
def SEC_DBG.BLOCKED : Fld := ⟨R.SEC_DBG, 27, 27⟩
def SEC_DBG.FAILS : Fld := ⟨R.SEC_DBG, 25, 24⟩
def SEC_DBG.ZEROISED : Fld := ⟨R.SEC_DBG, 17, 17⟩
def SEC_DBG.UNLOCKED : Fld := ⟨R.SEC_DBG, 16, 16⟩
def SEC_DBG.RIGHTS : Fld := ⟨R.SEC_DBG, 15, 0⟩
def SEC_ERR.TOKEN_BAD : Fld := ⟨R.SEC_ERR, 3, 3⟩
def SEC_ERR.SIG_BAD : Fld := ⟨R.SEC_ERR, 2, 2⟩
def SEC_ERR.PROOF_BAD : Fld := ⟨R.SEC_ERR, 1, 1⟩
def SEC_ERR.KEYSTORE : Fld := ⟨R.SEC_ERR, 0, 0⟩
def SEC_CNT_PROOF_FAIL.COUNT : Fld := ⟨R.SEC_CNT_PROOF_FAIL, 63, 0⟩
def SEC_CNT_SIG_FAIL.COUNT : Fld := ⟨R.SEC_CNT_SIG_FAIL, 63, 0⟩
def SEC_CNT_TOKEN_FAIL.COUNT : Fld := ⟨R.SEC_CNT_TOKEN_FAIL, 63, 0⟩
def SEC_CNT_SESSION_OPEN.COUNT : Fld := ⟨R.SEC_CNT_SESSION_OPEN, 63, 0⟩
def MBX_CFG.ENABLE (i0 : Nat) : Fld := ⟨(R.MBX_CFG i0), 63, 63⟩
def MBX_CFG.END1 (i0 : Nat) : Fld := ⟨(R.MBX_CFG i0), 15, 8⟩
def MBX_CFG.END0 (i0 : Nat) : Fld := ⟨(R.MBX_CFG i0), 7, 0⟩
def MBX_SEND.WORD (i0 : Nat) : Fld := ⟨(R.MBX_SEND i0), 63, 0⟩
def MBX_RECV.WORD (i0 : Nat) : Fld := ⟨(R.MBX_RECV i0), 63, 0⟩
def MBX_STAT.TX_CNT (i0 : Nat) : Fld := ⟨(R.MBX_STAT i0), 19, 16⟩
def MBX_STAT.RX_CNT (i0 : Nat) : Fld := ⟨(R.MBX_STAT i0), 11, 8⟩
def MBX_STAT.PEER_READY (i0 : Nat) : Fld := ⟨(R.MBX_STAT i0), 6, 6⟩
def MBX_STAT.READY (i0 : Nat) : Fld := ⟨(R.MBX_STAT i0), 5, 5⟩
def MBX_STAT.DROPPED (i0 : Nat) : Fld := ⟨(R.MBX_STAT i0), 3, 3⟩
def MBX_STAT.UNDERFLOW (i0 : Nat) : Fld := ⟨(R.MBX_STAT i0), 2, 2⟩
def MBX_STAT.OVERFLOW (i0 : Nat) : Fld := ⟨(R.MBX_STAT i0), 1, 1⟩
def MBX_STAT.ABORTED (i0 : Nat) : Fld := ⟨(R.MBX_STAT i0), 0, 0⟩
def MBX_DB_RING.BITS (i0 : Nat) : Fld := ⟨(R.MBX_DB_RING i0), 31, 0⟩
def MBX_DB_PEND.PEND (i0 : Nat) : Fld := ⟨(R.MBX_DB_PEND i0), 31, 0⟩
def MBX_DB_MASK.MASK (i0 : Nat) : Fld := ⟨(R.MBX_DB_MASK i0), 31, 0⟩
def MBX_DB_WAKE.WAKE (i0 : Nat) : Fld := ⟨(R.MBX_DB_WAKE i0), 31, 0⟩
def LCK_l.OWNER (i0 : Nat) : Fld := ⟨(R.LCK_l i0), 7, 0⟩
def LCK_PEEK_l.OWNER (i0 : Nat) : Fld := ⟨(R.LCK_PEEK_l i0), 7, 0⟩
def LCK_ORPHAN.LOCKS : Fld := ⟨R.LCK_ORPHAN, 63, 0⟩
def LCK_FORCE.LOCK : Fld := ⟨R.LCK_FORCE, 5, 0⟩
def LCK_ERR.BAD_RELEASE : Fld := ⟨R.LCK_ERR, 0, 0⟩
def MBX_ERR.CFG : Fld := ⟨R.MBX_ERR, 1, 1⟩
def MBX_ERR.FOREIGN : Fld := ⟨R.MBX_ERR, 0, 0⟩
def MBX_HOST_IRQ.VEC : Fld := ⟨R.MBX_HOST_IRQ, 10, 0⟩
def MBX_CORE_STAT.HOSTED : Fld := ⟨R.MBX_CORE_STAT, 63, 32⟩
def MBX_CORE_STAT.FAILED : Fld := ⟨R.MBX_CORE_STAT, 15, 8⟩
def MBX_CORE_STAT.IN_SERVICE : Fld := ⟨R.MBX_CORE_STAT, 7, 0⟩
def RAS_CTL.FAULT_MASK : Fld := ⟨R.RAS_CTL, 11, 8⟩
def RAS_CTL.AER_CIE : Fld := ⟨R.RAS_CTL, 4, 4⟩
def RAS_CTL.CE_MERGE : Fld := ⟨R.RAS_CTL, 1, 1⟩
def RAS_LOG_BASE.BASE : Fld := ⟨R.RAS_LOG_BASE, 47, 12⟩
def RAS_LEASE.ADDR : Fld := ⟨R.RAS_LEASE, 46, 6⟩
def RAS_PEND.FATAL : Fld := ⟨R.RAS_PEND, 8, 8⟩
def RAS_PEND.CLASS : Fld := ⟨R.RAS_PEND, 3, 0⟩
def RAS_FATAL.SEQ : Fld := ⟨R.RAS_FATAL, 63, 32⟩
def RAS_FATAL.PART : Fld := ⟨R.RAS_FATAL, 15, 8⟩
def RAS_SEQ.NEXT : Fld := ⟨R.RAS_SEQ, 63, 0⟩
def RAS_LAST_FAULT.TIME : Fld := ⟨R.RAS_LAST_FAULT, 63, 0⟩
def RAS_BUDDY.PEER : Fld := ⟨R.RAS_BUDDY, 25, 16⟩
def RAS_BUDDY.FENCED : Fld := ⟨R.RAS_BUDDY, 8, 8⟩
def RAS_BUDDY.STATE : Fld := ⟨R.RAS_BUDDY, 2, 0⟩
def RAS_CNT_CORR.COUNT : Fld := ⟨R.RAS_CNT_CORR, 63, 0⟩
def RAS_CNT_RECOV.COUNT : Fld := ⟨R.RAS_CNT_RECOV, 63, 0⟩
def RAS_CNT_DEGR.COUNT : Fld := ⟨R.RAS_CNT_DEGR, 63, 0⟩
def RAS_CNT_SPACED.COUNT : Fld := ⟨R.RAS_CNT_SPACED, 63, 0⟩
def RAS_CNT_DISSENT.COUNT : Fld := ⟨R.RAS_CNT_DISSENT, 63, 0⟩
def RAS_CNT_TAKEOVER.COUNT : Fld := ⟨R.RAS_CNT_TAKEOVER, 63, 0⟩
def RAS_CNT_LOG_WRAP.COUNT : Fld := ⟨R.RAS_CNT_LOG_WRAP, 63, 0⟩

end F

/-- Registers of the SYS block, part 0. -/
def specsSYS0 : List RegSpec := [
  -- SYS_ID
  ⟨0x0, [], 8, none, [⟨63, 48, .RO, 1, some 1⟩, ⟨31, 16, .RO, 37160, some 37160⟩, ⟨15, 8, .RO, 16, some 16⟩, ⟨0, 0, .RO, 0, none⟩]⟩,
  -- SYS_CTL
  ⟨0x8, [], 8, none, [⟨1, 1, .RWL, 0, none⟩, ⟨0, 0, .W1S, 0, some 0⟩]⟩,
  -- SYS_STAT
  ⟨0x10, [], 8, none, [⟨57, 48, .RO, 0, none⟩, ⟨47, 40, .RO, 255, none⟩, ⟨35, 32, .RO, 0, none⟩, ⟨10, 10, .RO, 0, none⟩, ⟨9, 9, .RO, 0, none⟩, ⟨8, 8, .RO, 0, none⟩, ⟨6, 4, .RO, 0, none⟩, ⟨1, 1, .RO, 0, some 1⟩, ⟨0, 0, .RO, 0, some 0⟩]⟩,
  -- SYS_ERR
  ⟨0x18, [], 8, none, [⟨4, 4, .W1C, 0, some 0⟩, ⟨3, 3, .W1C, 0, some 0⟩, ⟨2, 2, .W1C, 0, some 0⟩, ⟨1, 1, .W1C, 0, some 0⟩, ⟨0, 0, .W1C, 0, some 0⟩]⟩,
  -- SYS_ERR_INFO
  ⟨0x20, [], 8, none, [⟨63, 56, .RO, 0, some 0⟩, ⟨54, 52, .RO, 0, some 0⟩, ⟨51, 48, .RO, 0, some 0⟩, ⟨23, 0, .RO, 0, some 0⟩]⟩,
  -- SYS_SHADOW_DISCARD
  ⟨0x28, [], 8, none, [⟨23, 0, .WO, 0, some 0⟩]⟩,
  -- SYS_CLAIM_SEL
  ⟨0x30, [], 8, none, [⟨23, 0, .RW, 0, some 0⟩]⟩,
  -- SYS_CLAIM_STAT
  ⟨0x38, [], 8, none, [⟨63, 56, .RO, 0, some 0⟩, ⟨1, 1, .RO, 0, some 0⟩, ⟨0, 0, .RO, 0, some 0⟩]⟩,
  -- SYS_SCRATCHk
  ⟨0x80, [(8, 8)], 8, none, [⟨63, 0, .RW, 0, none⟩]⟩]

/-- Registers of the SYS block. -/
def specsSYS : List RegSpec := specsSYS0

/-- Registers of the CLK block, part 0. -/
def specsCLK0 : List RegSpec := [
  -- CLK_STAT
  ⟨0x10000, [], 8, none, [⟨1, 1, .RO, 0, none⟩, ⟨0, 0, .RO, 0, none⟩]⟩,
  -- PWR_DVFS
  ⟨0x10008, [], 8, none, [⟨18, 16, .RO, 0, some 0⟩, ⟨14, 14, .RO, 0, none⟩, ⟨13, 12, .RO, 1, none⟩, ⟨9, 8, .RW, 3, none⟩, ⟨5, 4, .RW, 3, none⟩, ⟨1, 0, .RO, 3, none⟩]⟩,
  -- PWR_CAP
  ⟨0x10010, [], 8, none, [⟨41, 32, .RW, 480, none⟩, ⟨23, 0, .RO, 0, some 0⟩]⟩,
  -- PWR_TEMP
  ⟨0x10018, [], 8, none, [⟨29, 24, .RO, 0, some 0⟩, ⟨23, 16, .RO, 0, none⟩, ⟨15, 8, .RO, 0, none⟩, ⟨7, 0, .RO, 0, some 0⟩]⟩,
  -- PWR_EMERG
  ⟨0x10020, [], 8, none, [⟨2, 2, .RO, 0, some 0⟩, ⟨1, 1, .RO, 0, some 0⟩, ⟨0, 0, .RO, 0, some 0⟩]⟩,
  -- PWR_DOM
  ⟨0x10028, [], 8, none, [⟨22, 16, .RO, 0, some 0⟩, ⟨6, 0, .RO, 0, some 0⟩]⟩,
  -- PWR_RAIL
  ⟨0x10030, [], 8, none, [⟨23, 16, .RO, 0, some 0⟩, ⟨7, 0, .RO, 0, some 0⟩]⟩,
  -- PWR_STOP
  ⟨0x10038, [], 8, none, [⟨31, 24, .RO, 0, none⟩, ⟨17, 16, .RO, 0, none⟩, ⟨11, 8, .RO, 0, some 0⟩, ⟨2, 0, .RO, 0, none⟩]⟩,
  -- PWR_WAKE_CFG
  ⟨0x10040, [], 8, none, [⟨1, 0, .RWL, 1, none⟩]⟩,
  -- PWR_WAKE_STAT
  ⟨0x10048, [], 8, none, [⟨31, 31, .RO, 0, none⟩, ⟨25, 24, .RO, 0, none⟩, ⟨15, 8, .RO, 0, none⟩, ⟨1, 0, .RO, 0, none⟩]⟩,
  -- PWR_RET_STAT
  ⟨0x10050, [], 8, none, [⟨15, 8, .RO, 0, none⟩, ⟨7, 0, .RO, 0, none⟩]⟩,
  -- PWR_CNT_DVFS
  ⟨0x10080, [], 8, none, [⟨63, 0, .RO, 0, some 0⟩]⟩]
/-- Registers of the CLK block, part 1. -/
def specsCLK1 : List RegSpec := [
  -- PWR_CNT_THROTTLE
  ⟨0x10088, [], 8, none, [⟨63, 0, .RO, 0, some 0⟩]⟩,
  -- PWR_CNT_CAP
  ⟨0x10090, [], 8, none, [⟨63, 0, .RO, 0, some 0⟩]⟩,
  -- PWR_CNT_STOP
  ⟨0x10098, [], 8, none, [⟨63, 0, .RO, 0, some 0⟩]⟩,
  -- PWR_CNT_STOP_ABORT
  ⟨0x100A0, [], 8, none, [⟨63, 0, .RO, 0, some 0⟩]⟩,
  -- PWR_CNT_WAKE_FAIL
  ⟨0x100A8, [], 8, none, [⟨63, 0, .RO, 0, some 0⟩]⟩]

/-- Registers of the CLK block. -/
def specsCLK : List RegSpec := specsCLK0 ++ specsCLK1

/-- Registers of the HIF block, part 0. -/
def specsHIF0 : List RegSpec := [
  -- HIF_ID
  ⟨0x20000, [], 8, none, [⟨63, 48, .RO, 16, some 16⟩, ⟨31, 16, .RO, 37160, some 37160⟩, ⟨15, 0, .RO, 7803, some 7803⟩]⟩,
  -- HIF_STAT
  ⟨0x20008, [], 8, none, [⟨47, 32, .RO, 0, none⟩, ⟨10, 8, .RO, 0, none⟩, ⟨7, 5, .RO, 0, none⟩, ⟨2, 2, .RO, 0, none⟩, ⟨1, 1, .RO, 0, none⟩, ⟨0, 0, .RO, 0, some 0⟩]⟩,
  -- HIF_CTL
  ⟨0x20010, [], 8, none, [⟨1, 1, .RWL, 0, some 0⟩, ⟨0, 0, .RWL, 0, some 0⟩]⟩,
  -- HIF_POLL
  ⟨0x20018, [], 8, none, [⟨31, 24, .RW, 255, some 255⟩, ⟨23, 16, .RW, 63, some 63⟩, ⟨15, 8, .RW, 7, some 7⟩, ⟨7, 0, .RW, 0, some 0⟩]⟩,
  -- HIF_WRR
  ⟨0x20020, [], 8, none, [⟨7, 0, .RW, 64, some 64⟩, ⟨15, 8, .RW, 32, some 32⟩, ⟨23, 16, .RW, 8, some 8⟩, ⟨31, 24, .RW, 1, some 1⟩]⟩,
  -- HIF_EVT
  ⟨0x20028, [], 8, none, [⟨12, 0, .RW, 0, none⟩]⟩,
  -- HIF_ERR
  ⟨0x20030, [], 8, none, [⟨3, 3, .W1C, 0, some 0⟩, ⟨2, 2, .W1C, 0, some 0⟩, ⟨1, 1, .W1C, 0, some 0⟩, ⟨0, 0, .W1C, 0, some 0⟩]⟩,
  -- HIF_RING_SEL
  ⟨0x20040, [], 8, none, [⟨12, 0, .RW, 0, some 0⟩]⟩,
  -- HIF_RING_STAT
  ⟨0x20048, [], 8, none, [⟨63, 48, .RO, 0, none⟩, ⟨37, 32, .RO, 0, none⟩, ⟨18, 16, .RO, 0, none⟩, ⟨13, 12, .RO, 0, none⟩, ⟨10, 8, .RO, 0, none⟩, ⟨4, 4, .RO, 0, none⟩, ⟨3, 0, .RO, 0, none⟩]⟩,
  -- HIF_RING_IDX
  ⟨0x20050, [], 8, none, [⟨63, 32, .RO, 0, none⟩, ⟨31, 0, .RO, 0, none⟩]⟩,
  -- HIF_CNT_DB_EVT
  ⟨0x20060, [], 8, none, [⟨63, 0, .RO, 0, some 0⟩]⟩,
  -- HIF_CNT_DB_STALE
  ⟨0x20068, [], 8, none, [⟨63, 0, .RO, 0, some 0⟩]⟩]
/-- Registers of the HIF block, part 1. -/
def specsHIF1 : List RegSpec := [
  -- HIF_CNT_NUDGE
  ⟨0x20070, [], 8, none, [⟨63, 0, .RO, 0, some 0⟩]⟩,
  -- HIF_CNT_EVT_DROP
  ⟨0x20078, [], 8, none, [⟨63, 0, .RO, 0, some 0⟩]⟩,
  -- HIF_FN_CFG
  ⟨0x21000, [(64, 32)], 8, some (0x21010, [32]), [⟨63, 63, .RW, 0, none⟩, ⟨26, 16, .RW, 0, none⟩, ⟨9, 0, .RW, 0, none⟩]⟩,
  -- HIF_FN_DB
  ⟨0x21008, [(64, 32)], 8, some (0x21010, [32]), [⟨46, 6, .RW, 0, none⟩]⟩,
  -- HIF_FN_COMMIT
  ⟨0x21010, [(64, 32)], 4, none, [⟨0, 0, .WO, 0, some 0⟩]⟩,
  -- HIF_FN_CSTAT
  ⟨0x21014, [(64, 32)], 4, none, [⟨7, 0, .RO, 0, some 0⟩]⟩,
  -- HIF_FN_ADM_SQ
  ⟨0x22000, [(64, 256)], 8, some (0x22018, [256]), [⟨46, 12, .RW, 0, none⟩, ⟨3, 0, .RW, 6, none⟩]⟩,
  -- HIF_FN_ADM_CQ
  ⟨0x22008, [(64, 256)], 8, some (0x22018, [256]), [⟨46, 12, .RW, 0, none⟩, ⟨3, 0, .RW, 6, none⟩]⟩,
  -- HIF_FN_ADM_IRQ
  ⟨0x22010, [(64, 256)], 8, some (0x22018, [256]), [⟨47, 32, .RW, 0, none⟩, ⟨31, 16, .RW, 1, none⟩, ⟨10, 0, .RW, 0, none⟩]⟩,
  -- HIF_FN_ADM_COMMIT
  ⟨0x22018, [(64, 256)], 4, none, [⟨0, 0, .WO, 0, some 0⟩]⟩,
  -- HIF_FN_ADM_CSTAT
  ⟨0x2201C, [(64, 256)], 4, none, [⟨7, 0, .RO, 0, some 0⟩]⟩,
  -- HIF_FN_ADM_STAT
  ⟨0x22020, [(64, 256)], 8, none, [⟨47, 32, .RO, 0, none⟩, ⟨1, 1, .RO, 0, none⟩, ⟨0, 0, .RO, 0, none⟩]⟩]
/-- Registers of the HIF block, part 2. -/
def specsHIF2 : List RegSpec := [
  -- HIF_FN_STAT
  ⟨0x22028, [(64, 256)], 8, none, [⟨15, 0, .RO, 0, none⟩]⟩]

/-- Registers of the HIF block. -/
def specsHIF : List RegSpec := specsHIF0 ++ specsHIF1 ++ specsHIF2

/-- Registers of the HG block, part 0. -/
def specsHG0 : List RegSpec := [
  -- HG_CTL
  ⟨0x40000, [], 8, some (0x40018, []), [⟨31, 16, .RWL, 17490, some 17490⟩, ⟨15, 8, .RWL, 10, some 10⟩, ⟨2, 2, .RW, 0, none⟩, ⟨1, 1, .RWL, 1, some 1⟩, ⟨0, 0, .RW, 0, some 0⟩]⟩,
  -- HG_JRN_BASE
  ⟨0x40008, [], 8, some (0x40018, []), [⟨47, 12, .RWL, 0, none⟩]⟩,
  -- HG_JRN_SIZE
  ⟨0x40010, [], 8, some (0x40018, []), [⟨31, 24, .RWL, 20, some 20⟩, ⟨12, 0, .RWL, 2048, none⟩]⟩,
  -- HG_GLB_COMMIT
  ⟨0x40018, [], 4, none, [⟨0, 0, .WO, 0, some 0⟩]⟩,
  -- HG_GLB_CSTAT
  ⟨0x4001C, [], 4, none, [⟨7, 0, .RO, 0, some 0⟩]⟩,
  -- HG_JRN_STAT
  ⟨0x40020, [], 8, none, [⟨63, 32, .RO, 0, none⟩, ⟨31, 0, .RO, 0, none⟩]⟩,
  -- HG_ERR
  ⟨0x40028, [], 8, none, [⟨4, 4, .W1C, 0, some 0⟩, ⟨3, 3, .W1C, 0, some 0⟩, ⟨2, 2, .W1C, 0, some 0⟩, ⟨1, 1, .W1C, 0, some 0⟩, ⟨0, 0, .W1C, 0, some 0⟩]⟩,
  -- HG_STREAM_CTL
  ⟨0x41000, [(128, 256)], 8, some (0x41048, [256]), [⟨28, 24, .RW, 0, none⟩, ⟨23, 23, .RW, 0, none⟩, ⟨21, 20, .RW, 0, none⟩, ⟨19, 16, .RW, 0, none⟩, ⟨0, 0, .RW, 0, none⟩]⟩,
  -- HG_STREAM_SRC_LO
  ⟨0x41008, [(128, 256)], 8, some (0x41048, [256]), [⟨63, 0, .RW, 0, none⟩]⟩,
  -- HG_STREAM_SRC_HI
  ⟨0x41010, [(128, 256)], 8, some (0x41048, [256]), [⟨63, 0, .RW, 0, none⟩]⟩,
  -- HG_STREAM_GEOM
  ⟨0x41018, [(128, 256)], 8, some (0x41048, [256]), [⟨63, 48, .RW, 0, none⟩, ⟨47, 32, .RW, 0, none⟩, ⟨27, 16, .RW, 0, none⟩, ⟨11, 0, .RW, 0, none⟩]⟩,
  -- HG_STREAM_BKT
  ⟨0x41020, [(128, 256)], 8, some (0x41048, [256]), [⟨63, 32, .RW, 0, none⟩, ⟨31, 0, .RW, 0, none⟩]⟩]
/-- Registers of the HG block, part 1. -/
def specsHG1 : List RegSpec := [
  -- HG_STREAM_DN
  ⟨0x41028, [(128, 256)], 8, some (0x41048, [256]), [⟨63, 48, .RW, 0, none⟩, ⟨44, 28, .RW, 0, none⟩, ⟨27, 24, .RW, 0, none⟩, ⟨3, 3, .RW, 0, none⟩, ⟨2, 2, .RW, 0, none⟩, ⟨1, 1, .RW, 0, none⟩, ⟨0, 0, .RW, 0, none⟩]⟩,
  -- HG_STREAM_HPM
  ⟨0x41030, [(128, 256)], 8, some (0x41048, [256]), [⟨47, 6, .RW, 0, none⟩]⟩,
  -- HG_STREAM_TOFF
  ⟨0x41038, [(128, 256)], 8, some (0x41048, [256]), [⟨63, 0, .RW, 0, none⟩]⟩,
  -- HG_STREAM_TIME
  ⟨0x41040, [(128, 256)], 8, some (0x41048, [256]), [⟨63, 32, .RW, 0, none⟩, ⟨31, 16, .RW, 40, none⟩, ⟨15, 0, .RW, 100, none⟩]⟩,
  -- HG_STREAM_COMMIT
  ⟨0x41048, [(128, 256)], 4, none, [⟨0, 0, .WO, 0, some 0⟩]⟩,
  -- HG_STREAM_CSTAT
  ⟨0x4104C, [(128, 256)], 4, none, [⟨7, 0, .RO, 0, some 0⟩]⟩,
  -- HG_STREAM_STAT
  ⟨0x41050, [(128, 256)], 8, none, [⟨63, 32, .RO, 0, none⟩, ⟨24, 18, .RO, 0, some 0⟩, ⟨17, 17, .RO, 0, some 0⟩, ⟨16, 16, .RO, 0, none⟩, ⟨15, 14, .RO, 0, none⟩, ⟨4, 0, .RO, 0, some 0⟩]⟩,
  -- HG_STREAM_RESID
  ⟨0x41058, [(128, 256)], 8, none, [⟨63, 32, .RO, 0, some 0⟩, ⟨31, 0, .RO, 0, some 0⟩]⟩,
  -- HG_STREAM_CNT_BATCH
  ⟨0x41080, [(128, 256)], 8, none, [⟨63, 0, .RO, 0, some 0⟩]⟩,
  -- HG_STREAM_CNT_EVENT
  ⟨0x41088, [(128, 256)], 8, none, [⟨63, 0, .RO, 0, some 0⟩]⟩,
  -- HG_STREAM_CNT_NAK
  ⟨0x41090, [(128, 256)], 8, none, [⟨63, 0, .RO, 0, some 0⟩]⟩,
  -- HG_STREAM_CNT_DUP
  ⟨0x41098, [(128, 256)], 8, none, [⟨63, 0, .RO, 0, some 0⟩]⟩]
/-- Registers of the HG block, part 2. -/
def specsHG2 : List RegSpec := [
  -- HG_STREAM_CNT_DISC
  ⟨0x410A0, [(128, 256)], 8, none, [⟨63, 0, .RO, 0, some 0⟩]⟩,
  -- HG_STREAM_CNT_FILT
  ⟨0x410A8, [(128, 256)], 8, none, [⟨63, 0, .RO, 0, some 0⟩]⟩,
  -- HG_STREAM_CNT_LATE
  ⟨0x410B0, [(128, 256)], 8, none, [⟨63, 0, .RO, 0, some 0⟩]⟩,
  -- HG_STREAM_CNT_CLAMP
  ⟨0x410B8, [(128, 256)], 8, none, [⟨63, 0, .RO, 0, some 0⟩]⟩]

/-- Registers of the HG block. -/
def specsHG : List RegSpec := specsHG0 ++ specsHG1 ++ specsHG2

/-- Registers of the FRF block, part 0. -/
def specsFRF0 : List RegSpec := [
  -- FRF_CTL
  ⟨0x60000, [], 8, some (0x60020, []), [⟨47, 32, .RW, 500, none⟩, ⟨31, 24, .RW, 160, none⟩, ⟨23, 20, .RW, 8, none⟩, ⟨19, 16, .RW, 2, none⟩, ⟨1, 1, .RW, 0, none⟩, ⟨0, 0, .RW, 0, some 0⟩]⟩,
  -- FRF_ROT
  ⟨0x60008, [], 8, some (0x60020, []), [⟨61, 48, .RW, 0, none⟩, ⟨47, 6, .RW, 0, none⟩]⟩,
  -- FRF_MASK_CTL
  ⟨0x60010, [], 8, some (0x60020, []), [⟨63, 48, .RW, 50, none⟩, ⟨47, 32, .RW, 10, none⟩, ⟨31, 24, .RW, 64, none⟩, ⟨23, 16, .RW, 32, none⟩, ⟨15, 8, .RW, 16, none⟩, ⟨7, 0, .RW, 16, none⟩]⟩,
  -- FRF_RPT_CTL
  ⟨0x60018, [], 8, some (0x60020, []), [⟨13, 13, .RW, 0, none⟩, ⟨12, 0, .RW, 0, none⟩]⟩,
  -- FRF_GLB_COMMIT
  ⟨0x60020, [], 4, none, [⟨0, 0, .WO, 0, some 0⟩]⟩,
  -- FRF_GLB_CSTAT
  ⟨0x60024, [], 4, none, [⟨7, 0, .RO, 0, some 0⟩]⟩,
  -- FRF_SYNC
  ⟨0x60028, [], 8, none, [⟨17, 16, .RW, 0, some 0⟩, ⟨15, 8, .RW, 0, some 0⟩, ⟨3, 3, .RO, 0, some 0⟩, ⟨2, 2, .W1C, 0, some 0⟩, ⟨1, 1, .RW, 0, some 0⟩, ⟨0, 0, .WO, 0, some 0⟩]⟩,
  -- FRF_SYNC_TIME
  ⟨0x60030, [], 8, none, [⟨63, 0, .RW, 0, some 0⟩]⟩,
  -- FRF_STAT
  ⟨0x60038, [], 8, none, [⟨4, 4, .W1C, 0, some 0⟩, ⟨3, 3, .W1C, 0, some 0⟩, ⟨2, 2, .W1C, 0, some 0⟩, ⟨1, 1, .W1C, 0, some 0⟩, ⟨0, 0, .W1C, 0, some 0⟩]⟩,
  -- FRF_CNT_LATE
  ⟨0x60040, [], 8, none, [⟨63, 0, .RO, 0, some 0⟩]⟩,
  -- FRF_CNT_RPT_DROP
  ⟨0x60048, [], 8, none, [⟨63, 0, .RO, 0, some 0⟩]⟩,
  -- FRF_CH_SEL
  ⟨0x60050, [], 8, none, [⟨13, 0, .RW, 0, some 0⟩]⟩]
/-- Registers of the FRF block, part 1. -/
def specsFRF1 : List RegSpec := [
  -- FRF_CH_COARSE
  ⟨0x60058, [], 8, none, [⟨63, 32, .RO, 0, some 0⟩, ⟨31, 0, .RO, 0, some 0⟩]⟩,
  -- FRF_MASK_SEL
  ⟨0x60060, [], 8, none, [⟨12, 0, .RW, 0, some 0⟩]⟩,
  -- FRF_MASK_DATA0
  ⟨0x60068, [], 8, none, [⟨63, 32, .RW, 0, none⟩, ⟨31, 0, .RW, 0, none⟩]⟩,
  -- FRF_MASK_DATA1
  ⟨0x60070, [], 8, none, [⟨63, 63, .RW, 0, none⟩, ⟨62, 62, .RW, 0, none⟩, ⟨31, 0, .RW, 0, none⟩]⟩,
  -- FRF_COEF_ADDR
  ⟨0x60078, [], 8, none, [⟨17, 17, .RW, 0, some 0⟩, ⟨16, 16, .RW, 0, some 0⟩, ⟨15, 8, .RW, 0, some 0⟩, ⟨6, 0, .RW, 0, some 0⟩]⟩,
  -- FRF_COEF_DATA
  ⟨0x60080, [], 8, none, [⟨17, 0, .RW, 0, none⟩]⟩,
  -- FRF_LANE_CTL
  ⟨0x61000, [(256, 128)], 8, some (0x61020, [128]), [⟨63, 56, .RW, 63, none⟩, ⟨53, 49, .RW, 8, none⟩, ⟨48, 45, .RW, 6, none⟩, ⟨44, 41, .RW, 1, none⟩, ⟨40, 40, .RW, 0, none⟩, ⟨39, 38, .RW, 0, none⟩, ⟨33, 32, .RW, 0, none⟩, ⟨31, 30, .RW, 0, none⟩, ⟨29, 16, .RW, 0, none⟩, ⟨1, 0, .RW, 0, none⟩]⟩,
  -- FRF_LANE_FOLD
  ⟨0x61008, [(256, 128)], 8, some (0x61020, [128]), [⟨31, 0, .RW, 0, none⟩]⟩,
  -- FRF_LANE_BCFG_A
  ⟨0x61010, [(256, 128)], 8, some (0x61020, [128]), [⟨39, 32, .RW, 0, none⟩, ⟨47, 40, .RW, 0, none⟩, ⟨55, 48, .RW, 0, none⟩, ⟨63, 56, .RW, 0, none⟩, ⟨7, 0, .RW, 0, none⟩, ⟨15, 8, .RW, 0, none⟩, ⟨23, 16, .RW, 0, none⟩, ⟨31, 24, .RW, 0, none⟩]⟩,
  -- FRF_LANE_BCFG_B
  ⟨0x61018, [(256, 128)], 8, some (0x61020, [128]), [⟨39, 32, .RW, 0, none⟩, ⟨47, 40, .RW, 0, none⟩, ⟨55, 48, .RW, 0, none⟩, ⟨63, 56, .RW, 0, none⟩, ⟨7, 0, .RW, 0, none⟩, ⟨15, 8, .RW, 0, none⟩, ⟨23, 16, .RW, 0, none⟩, ⟨31, 24, .RW, 0, none⟩]⟩,
  -- FRF_LANE_COMMIT
  ⟨0x61020, [(256, 128)], 4, none, [⟨0, 0, .WO, 0, some 0⟩]⟩,
  -- FRF_LANE_CSTAT
  ⟨0x61024, [(256, 128)], 4, none, [⟨7, 0, .RO, 0, some 0⟩]⟩]
/-- Registers of the FRF block, part 2. -/
def specsFRF2 : List RegSpec := [
  -- FRF_LANE_SWAP
  ⟨0x61028, [(256, 128)], 8, none, [⟨1, 1, .WO, 0, some 0⟩, ⟨0, 0, .WO, 0, some 0⟩]⟩,
  -- FRF_LANE_STAT
  ⟨0x61030, [(256, 128)], 8, none, [⟨29, 16, .RO, 0, some 0⟩, ⟨11, 8, .RO, 0, some 0⟩, ⟨4, 4, .W1C, 0, some 0⟩, ⟨3, 3, .RO, 0, some 0⟩, ⟨2, 2, .RO, 0, some 0⟩, ⟨1, 1, .RO, 0, some 0⟩, ⟨0, 0, .RO, 0, some 0⟩]⟩,
  -- FRF_LANE_OUT
  ⟨0x61038, [(256, 128)], 8, none, [⟨63, 32, .RO, 0, some 0⟩, ⟨0, 0, .RO, 0, some 0⟩]⟩,
  -- FRF_LANE_DETk_A
  ⟨0x61040, [(256, 128), (4, 16)], 8, none, [⟨63, 32, .RO, 0, some 0⟩, ⟨31, 0, .RO, 0, some 0⟩]⟩,
  -- FRF_LANE_DETk_B
  ⟨0x61048, [(256, 128), (4, 16)], 8, none, [⟨63, 32, .RO, 0, some 0⟩, ⟨1, 1, .RO, 0, some 0⟩, ⟨0, 0, .RO, 0, some 0⟩]⟩]

/-- Registers of the FRF block. -/
def specsFRF : List RegSpec := specsFRF0 ++ specsFRF1 ++ specsFRF2

/-- Registers of the FW block, part 0. -/
def specsFW0 : List RegSpec := [
  -- FW_CTL
  ⟨0x80000, [], 8, some (0x80020, []), [⟨47, 32, .RWL, 50, none⟩, ⟨31, 20, .RW, 60, none⟩, ⟨15, 8, .RW, 50, none⟩, ⟨0, 0, .RW, 0, some 0⟩]⟩,
  -- FW_SPILL_BASE
  ⟨0x80008, [], 8, some (0x80020, []), [⟨47, 12, .RWL, 0, none⟩]⟩,
  -- FW_SPILL_SIZE
  ⟨0x80010, [], 8, some (0x80020, []), [⟨15, 0, .RWL, 96, none⟩]⟩,
  -- FW_CKPT_BASE
  ⟨0x80018, [], 8, some (0x80020, []), [⟨47, 12, .RWL, 0, none⟩]⟩,
  -- FW_GLB_COMMIT
  ⟨0x80020, [], 4, none, [⟨0, 0, .WO, 0, some 0⟩]⟩,
  -- FW_GLB_CSTAT
  ⟨0x80024, [], 4, none, [⟨7, 0, .RO, 0, some 0⟩]⟩,
  -- FW_STEP_NOW
  ⟨0x80028, [], 8, none, [⟨63, 0, .RO, 0, some 0⟩]⟩,
  -- FW_STAT
  ⟨0x80030, [], 8, none, [⟨6, 6, .W1C, 0, some 0⟩, ⟨5, 5, .W1C, 0, some 0⟩, ⟨4, 4, .W1C, 0, some 0⟩, ⟨3, 3, .W1C, 0, some 0⟩, ⟨2, 2, .W1C, 0, some 0⟩, ⟨1, 1, .W1C, 0, some 0⟩, ⟨0, 0, .W1C, 0, some 0⟩]⟩,
  -- FW_CNT_LATE
  ⟨0x80040, [], 8, none, [⟨63, 0, .RO, 0, some 0⟩]⟩,
  -- FW_CNT_EXT_LATE
  ⟨0x80048, [], 8, none, [⟨63, 0, .RO, 0, some 0⟩]⟩,
  -- FW_CNT_CARRY
  ⟨0x80050, [], 8, none, [⟨63, 0, .RO, 0, some 0⟩]⟩,
  -- FW_CNT_SPILL
  ⟨0x80058, [], 8, none, [⟨63, 0, .RO, 0, some 0⟩]⟩]
/-- Registers of the FW block, part 1. -/
def specsFW1 : List RegSpec := [
  -- FW_CNT_SPILL_STALL
  ⟨0x80060, [], 8, none, [⟨63, 0, .RO, 0, some 0⟩]⟩,
  -- FW_CNT_STRETCH
  ⟨0x80068, [], 8, none, [⟨63, 0, .RO, 0, some 0⟩]⟩,
  -- FW_CNT_HOST_DROP
  ⟨0x80070, [], 8, none, [⟨63, 0, .RO, 0, some 0⟩]⟩,
  -- FW_CNT_REPLAY
  ⟨0x80078, [], 8, none, [⟨63, 0, .RO, 0, some 0⟩]⟩,
  -- FW_TBL_ADDR
  ⟨0x80080, [], 8, none, [⟨63, 63, .RW, 0, some 0⟩, ⟨61, 60, .RW, 0, some 0⟩, ⟨54, 48, .RW, 0, some 0⟩, ⟨13, 0, .RW, 0, some 0⟩]⟩,
  -- FW_TBL_DATA
  ⟨0x80088, [], 8, none, [⟨63, 0, .RW, 0, none⟩]⟩,
  -- FW_CORE_CFG
  ⟨0x81000, [(96, 64)], 8, some (0x81028, [64]), [⟨63, 48, .RW, 256, none⟩, ⟨47, 40, .RW, 0, none⟩, ⟨38, 32, .RW, 127, none⟩, ⟨0, 0, .RW, 0, none⟩]⟩,
  -- FW_CORE_UP_LO
  ⟨0x81008, [(96, 64)], 8, some (0x81028, [64]), [⟨63, 0, .RW, 0, none⟩]⟩,
  -- FW_CORE_UP_HI
  ⟨0x81010, [(96, 64)], 8, some (0x81028, [64]), [⟨31, 0, .RW, 0, none⟩]⟩,
  -- FW_CORE_DN_LO
  ⟨0x81018, [(96, 64)], 8, some (0x81028, [64]), [⟨63, 0, .RW, 0, none⟩]⟩,
  -- FW_CORE_DN_HI
  ⟨0x81020, [(96, 64)], 8, some (0x81028, [64]), [⟨31, 0, .RW, 0, none⟩]⟩,
  -- FW_CORE_COMMIT
  ⟨0x81028, [(96, 64)], 4, none, [⟨0, 0, .WO, 0, some 0⟩]⟩]
/-- Registers of the FW block, part 2. -/
def specsFW2 : List RegSpec := [
  -- FW_CORE_CSTAT
  ⟨0x8102C, [(96, 64)], 4, none, [⟨7, 0, .RO, 0, some 0⟩]⟩,
  -- FW_CORE_STAT
  ⟨0x81030, [(96, 64)], 8, none, [⟨63, 32, .RO, 0, some 0⟩, ⟨2, 0, .RO, 0, some 0⟩]⟩,
  -- FW_CORE_DQ
  ⟨0x81038, [(96, 64)], 8, none, [⟨44, 32, .RO, 0, some 0⟩, ⟨31, 0, .RO, 0, some 0⟩]⟩,
  -- FW_MAP_CTL
  ⟨0x84000, [(128, 32)], 8, some (0x84010, [32]), [⟨12, 10, .RW, 0, none⟩, ⟨9, 7, .RW, 0, none⟩, ⟨6, 4, .RW, 0, none⟩, ⟨1, 1, .RW, 0, none⟩, ⟨0, 0, .RW, 0, none⟩]⟩,
  -- FW_MAP_ADDR
  ⟨0x84008, [(128, 32)], 8, some (0x84010, [32]), [⟨47, 6, .RW, 0, none⟩]⟩,
  -- FW_MAP_COMMIT
  ⟨0x84010, [(128, 32)], 4, none, [⟨0, 0, .WO, 0, some 0⟩]⟩,
  -- FW_MAP_CSTAT
  ⟨0x84014, [(128, 32)], 4, none, [⟨7, 0, .RO, 0, some 0⟩]⟩,
  -- FW_POP_CTL
  ⟨0x86000, [(256, 64)], 8, some (0x86020, [64]), [⟨63, 63, .RW, 0, none⟩, ⟨62, 62, .RW, 0, none⟩, ⟨61, 61, .RW, 0, none⟩, ⟨60, 48, .RW, 0, none⟩, ⟨47, 41, .RW, 0, none⟩, ⟨40, 31, .RW, 0, none⟩]⟩,
  -- FW_POP_SHAPE
  ⟨0x86008, [(256, 64)], 8, some (0x86020, [64]), [⟨63, 48, .RW, 65535, none⟩, ⟨47, 32, .RW, 0, none⟩, ⟨31, 16, .RW, 0, none⟩, ⟨15, 0, .RW, 0, none⟩]⟩,
  -- FW_POP_DEST
  ⟨0x86010, [(256, 64)], 8, some (0x86020, [64]), [⟨44, 32, .RW, 0, none⟩, ⟨11, 0, .RW, 0, none⟩]⟩,
  -- FW_POP_HBUF
  ⟨0x86018, [(256, 64)], 8, some (0x86020, [64]), [⟨47, 6, .RW, 0, none⟩]⟩,
  -- FW_POP_COMMIT
  ⟨0x86020, [(256, 64)], 4, none, [⟨0, 0, .WO, 0, some 0⟩]⟩]
/-- Registers of the FW block, part 3. -/
def specsFW3 : List RegSpec := [
  -- FW_POP_CSTAT
  ⟨0x86024, [(256, 64)], 4, none, [⟨7, 0, .RO, 0, some 0⟩]⟩]

/-- Registers of the FW block. -/
def specsFW : List RegSpec := specsFW0 ++ specsFW1 ++ specsFW2 ++ specsFW3

/-- Registers of the ST block, part 0. -/
def specsST0 : List RegSpec := [
  -- ST_CTL
  ⟨0xC0000, [(48, 4096)], 8, some (0xC0020, [4096]), [⟨29, 24, .RW, 0, none⟩, ⟨23, 20, .RW, 0, none⟩, ⟨0, 0, .RW, 0, none⟩]⟩,
  -- ST_LAYOUT
  ⟨0xC0008, [(48, 4096)], 8, some (0xC0020, [4096]), [⟨28, 28, .RW, 0, none⟩, ⟨11, 0, .RW, 410, none⟩]⟩,
  -- ST_DELTA_BASE
  ⟨0xC0010, [(48, 4096)], 8, some (0xC0020, [4096]), [⟨47, 12, .RW, 0, none⟩]⟩,
  -- ST_DELTA_SIZE
  ⟨0xC0018, [(48, 4096)], 8, some (0xC0020, [4096]), [⟨15, 0, .RW, 0, none⟩]⟩,
  -- ST_COMMIT
  ⟨0xC0020, [(48, 4096)], 4, none, [⟨0, 0, .WO, 0, some 0⟩]⟩,
  -- ST_CSTAT
  ⟨0xC0024, [(48, 4096)], 4, none, [⟨7, 0, .RO, 0, some 0⟩]⟩,
  -- ST_STAT
  ⟨0xC0028, [(48, 4096)], 8, none, [⟨46, 40, .RO, 0, some 0⟩, ⟨39, 32, .RO, 0, some 0⟩, ⟨27, 16, .RO, 0, some 0⟩, ⟨2, 0, .RO, 0, some 0⟩]⟩,
  -- ST_SLICE
  ⟨0xC0030, [(48, 4096)], 8, none, [⟨63, 0, .RO, 0, some 0⟩]⟩,
  -- ST_ERR
  ⟨0xC0038, [(48, 4096)], 8, none, [⟨4, 4, .W1C, 0, some 0⟩, ⟨3, 3, .W1C, 0, some 0⟩, ⟨2, 2, .W1C, 0, some 0⟩, ⟨1, 1, .W1C, 0, some 0⟩, ⟨0, 0, .W1C, 0, some 0⟩]⟩,
  -- ST_CNT_SLICE
  ⟨0xC0040, [(48, 4096)], 8, none, [⟨63, 0, .RO, 0, some 0⟩]⟩,
  -- ST_CNT_BLK
  ⟨0xC0048, [(48, 4096)], 8, none, [⟨63, 0, .RO, 0, some 0⟩]⟩,
  -- ST_CNT_BLK_CHG
  ⟨0xC0050, [(48, 4096)], 8, none, [⟨63, 0, .RO, 0, some 0⟩]⟩]
/-- Registers of the ST block, part 1. -/
def specsST1 : List RegSpec := [
  -- ST_CNT_REFRESH
  ⟨0xC0058, [(48, 4096)], 8, none, [⟨63, 0, .RO, 0, some 0⟩]⟩,
  -- ST_CNT_TRUNC
  ⟨0xC0060, [(48, 4096)], 8, none, [⟨63, 0, .RO, 0, some 0⟩]⟩,
  -- ST_CNT_SKIP
  ⟨0xC0068, [(48, 4096)], 8, none, [⟨63, 0, .RO, 0, some 0⟩]⟩,
  -- ST_CNT_ARRAY
  ⟨0xC0070, [(48, 4096)], 8, none, [⟨63, 0, .RO, 0, some 0⟩]⟩,
  -- ST_CNT_VEC
  ⟨0xC0078, [(48, 4096)], 8, none, [⟨63, 0, .RO, 0, some 0⟩]⟩,
  -- ST_LYR_SEL
  ⟨0xC0080, [(48, 4096)], 8, none, [⟨7, 0, .RW, 0, some 0⟩]⟩,
  -- ST_LYR_CFG
  ⟨0xC0088, [(48, 4096)], 8, none, [⟨63, 32, .RO, 0, none⟩, ⟨31, 16, .RO, 64, none⟩, ⟨15, 13, .RO, 0, none⟩, ⟨12, 10, .RO, 0, none⟩, ⟨9, 9, .RO, 0, none⟩, ⟨7, 0, .RO, 0, none⟩]⟩,
  -- ST_LYR_SKIP
  ⟨0xC0090, [(48, 4096)], 8, none, [⟨63, 32, .RO, 0, none⟩, ⟨9, 0, .RO, 0, none⟩]⟩,
  -- ST_LYR_OP
  ⟨0xC0098, [(48, 4096)], 8, none, [⟨63, 48, .RO, 0, none⟩, ⟨47, 43, .RO, 0, none⟩, ⟨42, 38, .RO, 0, none⟩, ⟨37, 35, .RO, 0, none⟩, ⟨34, 32, .RO, 0, none⟩, ⟨31, 28, .RO, 0, none⟩, ⟨27, 24, .RO, 0, none⟩, ⟨23, 16, .RO, 0, none⟩, ⟨15, 10, .RO, 0, none⟩, ⟨9, 8, .RO, 0, none⟩, ⟨7, 6, .RO, 0, none⟩, ⟨5, 5, .RO, 0, none⟩, ⟨3, 0, .RO, 0, none⟩]⟩,
  -- ST_LYR_RS
  ⟨0xC00A0, [(48, 4096)], 8, none, [⟨63, 32, .RO, 0, none⟩, ⟨31, 0, .RO, 0, none⟩]⟩,
  -- ST_LYR_RSO
  ⟨0xC00A8, [(48, 4096)], 8, none, [⟨11, 6, .RO, 0, none⟩, ⟨5, 0, .RO, 0, none⟩]⟩,
  -- ST_HALO_STAT
  ⟨0xC00B0, [(48, 4096)], 8, none, [⟨63, 32, .RO, 0, some 0⟩, ⟨31, 0, .RO, 0, some 0⟩]⟩]
/-- Registers of the ST block, part 2. -/
def specsST2 : List RegSpec := [
  -- ST_OPS_ERR
  ⟨0xC00B8, [(48, 4096)], 8, none, [⟨3, 3, .W1C, 0, some 0⟩, ⟨2, 2, .W1C, 0, some 0⟩, ⟨1, 1, .W1C, 0, some 0⟩, ⟨0, 0, .W1C, 0, some 0⟩]⟩,
  -- ST_CNT_HALO_WAIT
  ⟨0xC00C0, [(48, 4096)], 8, none, [⟨63, 0, .RO, 0, some 0⟩]⟩,
  -- ST_CNT_HALO_HOLD
  ⟨0xC00C8, [(48, 4096)], 8, none, [⟨63, 0, .RO, 0, some 0⟩]⟩,
  -- ST_CNT_FMC_BLK
  ⟨0xC00D0, [(48, 4096)], 8, none, [⟨63, 0, .RO, 0, some 0⟩]⟩,
  -- ST_CNT_FMC_CLAMP
  ⟨0xC00D8, [(48, 4096)], 8, none, [⟨63, 0, .RO, 0, some 0⟩]⟩,
  -- ST_CNT_RS_DEGEN
  ⟨0xC00E0, [(48, 4096)], 8, none, [⟨63, 0, .RO, 0, some 0⟩]⟩,
  -- ST_CNT_PAD_SKIP
  ⟨0xC00E8, [(48, 4096)], 8, none, [⟨63, 0, .RO, 0, some 0⟩]⟩,
  -- ST_GRP_STAT
  ⟨0xF0000, [(16, 64)], 8, none, [⟨63, 63, .RO, 0, none⟩, ⟨62, 60, .RO, 0, none⟩, ⟨49, 48, .RO, 0, none⟩, ⟨47, 0, .RO, 0, none⟩]⟩,
  -- ST_GRP_EPOCH
  ⟨0xF0008, [(16, 64)], 8, none, [⟨63, 0, .RO, 0, none⟩]⟩,
  -- ST_GRP_DISP
  ⟨0xF0010, [(16, 64)], 8, none, [⟨39, 39, .RO, 0, some 0⟩, ⟨38, 32, .RO, 0, some 0⟩, ⟨23, 16, .RO, 0, some 0⟩, ⟨15, 8, .RO, 0, some 0⟩]⟩,
  -- ST_GRP_HEAD_DL
  ⟨0xF0018, [(16, 64)], 8, none, [⟨63, 0, .RO, 0, some 0⟩]⟩,
  -- ST_GRP_ADM
  ⟨0xF0020, [(16, 64)], 8, none, [⟨63, 48, .RO, 0, none⟩, ⟨41, 40, .RO, 0, none⟩, ⟨37, 32, .RO, 0, none⟩, ⟨23, 16, .RO, 0, none⟩, ⟨15, 8, .RO, 0, none⟩]⟩]
/-- Registers of the ST block, part 3. -/
def specsST3 : List RegSpec := [
  -- ST_GRP_CNT_DISP
  ⟨0xF0028, [(16, 64)], 8, none, [⟨63, 0, .RO, 0, some 0⟩]⟩,
  -- ST_GRP_CNT_BKG
  ⟨0xF0030, [(16, 64)], 8, none, [⟨63, 0, .RO, 0, some 0⟩]⟩,
  -- ST_GRP_CNT_PREEMPT
  ⟨0xF0038, [(16, 64)], 8, none, [⟨63, 0, .RO, 0, some 0⟩]⟩]

/-- Registers of the ST block. -/
def specsST : List RegSpec := specsST0 ++ specsST1 ++ specsST2 ++ specsST3

/-- Registers of the CP block, part 0. -/
def specsCP0 : List RegSpec := [
  -- CP_CTL
  ⟨0x100000, [], 8, some (0x100010, []), [⟨0, 0, .RW, 0, some 0⟩]⟩,
  -- CP_SLOT_BASE
  ⟨0x100008, [], 8, some (0x100010, []), [⟨47, 12, .RWL, 0, none⟩]⟩,
  -- CP_GLB_COMMIT
  ⟨0x100010, [], 4, none, [⟨0, 0, .WO, 0, some 0⟩]⟩,
  -- CP_GLB_CSTAT
  ⟨0x100014, [], 4, none, [⟨7, 0, .RO, 0, some 0⟩]⟩,
  -- CP_STAT
  ⟨0x100018, [], 8, none, [⟨5, 5, .W1C, 0, some 0⟩, ⟨4, 4, .W1C, 0, some 0⟩, ⟨3, 3, .W1C, 0, some 0⟩, ⟨2, 2, .W1C, 0, some 0⟩, ⟨1, 1, .W1C, 0, some 0⟩, ⟨0, 0, .W1C, 0, some 0⟩]⟩,
  -- CP_UNIT_STAT
  ⟨0x100800, [(8, 64)], 8, none, [⟨63, 32, .RO, 0, some 0⟩, ⟨2, 0, .RO, 0, some 0⟩]⟩,
  -- CP_UNIT_CACHE
  ⟨0x100808, [(8, 64)], 8, none, [⟨13, 0, .RO, 0, some 0⟩]⟩,
  -- CP_UNIT_CNT_BUSY
  ⟨0x100810, [(8, 64)], 8, none, [⟨63, 0, .RO, 0, some 0⟩]⟩,
  -- CP_UNIT_CNT_MISS
  ⟨0x100818, [(8, 64)], 8, none, [⟨63, 0, .RO, 0, some 0⟩]⟩,
  -- CP_GRP_CTL
  ⟨0x101000, [(32, 256)], 8, some (0x101050, [256]), [⟨63, 48, .RW, 500, none⟩, ⟨47, 38, .RW, 300, none⟩, ⟨37, 25, .RW, 1000, none⟩, ⟨24, 22, .RW, 0, none⟩, ⟨21, 21, .RW, 0, none⟩, ⟨0, 0, .RW, 0, none⟩]⟩,
  -- CP_GRP_GRID
  ⟨0x101008, [(32, 256)], 8, some (0x101050, [256]), [⟨45, 40, .RW, 10, none⟩, ⟨29, 20, .RW, 0, none⟩, ⟨9, 0, .RW, 0, none⟩]⟩,
  -- CP_GRP_ORIGIN
  ⟨0x101010, [(32, 256)], 8, some (0x101050, [256]), [⟨63, 32, .RW, 0, none⟩, ⟨31, 0, .RW, 0, none⟩]⟩]
/-- Registers of the CP block, part 1. -/
def specsCP1 : List RegSpec := [
  -- CP_GRP_GMEM
  ⟨0x101018, [(32, 256)], 8, some (0x101050, [256]), [⟨47, 12, .RW, 0, none⟩]⟩,
  -- CP_GRP_SLOTS
  ⟨0x101020, [(32, 256)], 8, some (0x101050, [256]), [⟨50, 32, .RW, 0, none⟩, ⟨17, 0, .RW, 0, none⟩]⟩,
  -- CP_GRP_HEALTH
  ⟨0x101028, [(32, 256)], 8, some (0x101050, [256]), [⟨63, 48, .RW, 4096, none⟩, ⟨47, 32, .RW, 8192, none⟩, ⟨31, 24, .RW, 16, none⟩, ⟨23, 16, .RW, 64, none⟩, ⟨15, 12, .RW, 4, none⟩, ⟨8, 0, .RW, 128, none⟩]⟩,
  -- CP_GRP_TRACK
  ⟨0x101030, [(32, 256)], 8, some (0x101050, [256]), [⟨63, 48, .RW, 600, none⟩, ⟨47, 32, .RW, 50, none⟩, ⟨31, 24, .RW, 153, none⟩, ⟨23, 16, .RW, 96, none⟩, ⟨15, 12, .RW, 3, none⟩, ⟨11, 8, .RW, 2, none⟩, ⟨7, 0, .RW, 128, none⟩]⟩,
  -- CP_GRP_ASSOC
  ⟨0x101038, [(32, 256)], 8, some (0x101050, [256]), [⟨63, 32, .RW, 1091567616, none⟩, ⟨31, 0, .RW, 1073741824, none⟩]⟩,
  -- CP_GRP_KIN
  ⟨0x101040, [(32, 256)], 8, some (0x101050, [256]), [⟨63, 32, .RW, 1073741824, none⟩, ⟨31, 16, .RW, 8192, none⟩, ⟨15, 0, .RW, 4096, none⟩]⟩,
  -- CP_GRP_RPT
  ⟨0x101048, [(32, 256)], 8, some (0x101050, [256]), [⟨63, 49, .RW, 4095, none⟩, ⟨44, 32, .RW, 0, none⟩, ⟨30, 18, .RW, 0, none⟩, ⟨17, 0, .RW, 128, none⟩]⟩,
  -- CP_GRP_COMMIT
  ⟨0x101050, [(32, 256)], 4, none, [⟨0, 0, .WO, 0, some 0⟩]⟩,
  -- CP_GRP_CSTAT
  ⟨0x101054, [(32, 256)], 4, none, [⟨7, 0, .RO, 0, some 0⟩]⟩,
  -- CP_GRP_STAT
  ⟨0x101058, [(32, 256)], 8, none, [⟨63, 48, .RO, 0, some 0⟩, ⟨47, 32, .RO, 0, none⟩, ⟨2, 0, .RO, 0, some 0⟩]⟩,
  -- CP_GRP_INSTANT
  ⟨0x101060, [(32, 256)], 8, none, [⟨63, 0, .RO, 0, none⟩]⟩,
  -- CP_GRP_CKPT
  ⟨0x101068, [(32, 256)], 8, none, [⟨63, 0, .RO, 0, none⟩]⟩]
/-- Registers of the CP block, part 2. -/
def specsCP2 : List RegSpec := [
  -- CP_GRP_CNT_INSTANT
  ⟨0x101080, [(32, 256)], 8, none, [⟨63, 0, .RO, 0, some 0⟩]⟩,
  -- CP_GRP_CNT_TIMEOUT
  ⟨0x101088, [(32, 256)], 8, none, [⟨63, 0, .RO, 0, some 0⟩]⟩,
  -- CP_GRP_CNT_LATE
  ⟨0x101090, [(32, 256)], 8, none, [⟨63, 0, .RO, 0, some 0⟩]⟩,
  -- CP_GRP_CNT_LATE_OLD
  ⟨0x101098, [(32, 256)], 8, none, [⟨63, 0, .RO, 0, some 0⟩]⟩,
  -- CP_GRP_CNT_EXTRAP
  ⟨0x1010A0, [(32, 256)], 8, none, [⟨63, 0, .RO, 0, some 0⟩]⟩,
  -- CP_GRP_CNT_STALE
  ⟨0x1010A8, [(32, 256)], 8, none, [⟨63, 0, .RO, 0, some 0⟩]⟩,
  -- CP_GRP_CNT_BIRTH
  ⟨0x1010B0, [(32, 256)], 8, none, [⟨63, 0, .RO, 0, some 0⟩]⟩,
  -- CP_GRP_CNT_BIRTH_REFUSED
  ⟨0x1010B8, [(32, 256)], 8, none, [⟨63, 0, .RO, 0, some 0⟩]⟩,
  -- CP_GRP_CNT_RECLAIM
  ⟨0x1010C0, [(32, 256)], 8, none, [⟨63, 0, .RO, 0, some 0⟩]⟩,
  -- CP_GRP_CNT_REVIVE
  ⟨0x1010C8, [(32, 256)], 8, none, [⟨63, 0, .RO, 0, some 0⟩]⟩,
  -- CP_GRP_CNT_RPT
  ⟨0x1010D0, [(32, 256)], 8, none, [⟨63, 0, .RO, 0, some 0⟩]⟩,
  -- CP_GRP_CNT_RPT_TRUNC
  ⟨0x1010D8, [(32, 256)], 8, none, [⟨63, 0, .RO, 0, some 0⟩]⟩]
/-- Registers of the CP block, part 3. -/
def specsCP3 : List RegSpec := [
  -- CP_GRP_CNT_DET_DROP
  ⟨0x1010E0, [(32, 256)], 8, none, [⟨63, 0, .RO, 0, some 0⟩]⟩,
  -- CP_GRP_CNT_GRID_RESET
  ⟨0x1010E8, [(32, 256)], 8, none, [⟨63, 0, .RO, 0, some 0⟩]⟩,
  -- CP_MBR_CTL
  ⟨0x103000, [(128, 32)], 8, some (0x103018, [32]), [⟨19, 16, .RW, 0, none⟩, ⟨2, 2, .RW, 0, none⟩, ⟨1, 1, .RW, 0, none⟩, ⟨0, 0, .RW, 0, none⟩]⟩,
  -- CP_MBR_PROJ
  ⟨0x103008, [(128, 32)], 8, some (0x103018, [32]), [⟨47, 6, .RW, 0, none⟩]⟩,
  -- CP_MBR_STAT
  ⟨0x103010, [(128, 32)], 8, none, [⟨63, 48, .RO, 32768, some 32768⟩, ⟨47, 40, .RO, 0, some 0⟩, ⟨35, 32, .RO, 0, some 0⟩, ⟨5, 0, .RO, 0, some 0⟩]⟩,
  -- CP_MBR_COMMIT
  ⟨0x103018, [(128, 32)], 4, none, [⟨0, 0, .WO, 0, some 0⟩]⟩,
  -- CP_MBR_CSTAT
  ⟨0x10301C, [(128, 32)], 4, none, [⟨7, 0, .RO, 0, some 0⟩]⟩]

/-- Registers of the CP block. -/
def specsCP : List RegSpec := specsCP0 ++ specsCP1 ++ specsCP2 ++ specsCP3

/-- Registers of the MEM block, part 0. -/
def specsMEM0 : List RegSpec := [
  -- MEM_CTL
  ⟨0x120000, [], 8, none, [⟨63, 48, .RW, 24, some 24⟩, ⟨0, 0, .RW, 1, some 1⟩]⟩,
  -- MEM_GUARD_USED
  ⟨0x120008, [], 8, none, [⟨31, 0, .RO, 0, none⟩]⟩,
  -- MEM_ERR
  ⟨0x120010, [], 8, none, [⟨5, 5, .W1C, 0, some 0⟩, ⟨4, 4, .W1C, 0, some 0⟩, ⟨3, 3, .W1C, 0, some 0⟩, ⟨2, 2, .W1C, 0, some 0⟩, ⟨1, 1, .W1C, 0, some 0⟩, ⟨0, 0, .W1C, 0, some 0⟩]⟩,
  -- MEM_PC_FAILk
  ⟨0x120018, [(8, 8)], 8, none, [⟨63, 63, .RO, 0, none⟩, ⟨8, 0, .RO, 0, none⟩]⟩,
  -- MEM_TEMP
  ⟨0x120058, [], 8, none, [⟨7, 0, .RO, 0, some 0⟩]⟩,
  -- MEM_CNT_CE
  ⟨0x120060, [], 8, none, [⟨63, 0, .RO, 0, some 0⟩]⟩,
  -- MEM_CNT_UE
  ⟨0x120068, [], 8, none, [⟨63, 0, .RO, 0, some 0⟩]⟩,
  -- MEM_CNT_MIRROR_READ
  ⟨0x120070, [], 8, none, [⟨63, 0, .RO, 0, some 0⟩]⟩,
  -- MEM_CNT_SCRUB
  ⟨0x120078, [], 8, none, [⟨63, 0, .RO, 0, some 0⟩]⟩,
  -- MEM_CNT_UNMAPPED
  ⟨0x120080, [], 8, none, [⟨63, 0, .RO, 0, some 0⟩]⟩,
  -- MEM_RGN_BASE
  ⟨0x121000, [(32, 32)], 8, some (0x121010, [32]), [⟨35, 24, .RW, 0, none⟩]⟩,
  -- MEM_RGN_CFG
  ⟨0x121008, [(32, 32)], 8, some (0x121010, [32]), [⟨63, 63, .RW, 0, none⟩, ⟨62, 62, .RW, 0, none⟩, ⟨61, 61, .RW, 0, none⟩, ⟨58, 52, .RW, 0, none⟩, ⟨43, 32, .RW, 0, none⟩, ⟨12, 0, .RW, 0, none⟩]⟩]
/-- Registers of the MEM block, part 1. -/
def specsMEM1 : List RegSpec := [
  -- MEM_RGN_COMMIT
  ⟨0x121010, [(32, 32)], 4, none, [⟨0, 0, .WO, 0, some 0⟩]⟩,
  -- MEM_RGN_CSTAT
  ⟨0x121014, [(32, 32)], 4, none, [⟨7, 0, .RO, 0, some 0⟩]⟩,
  -- MEM_STOP_SHARE
  ⟨0x122000, [(64, 8)], 8, none, [⟨31, 24, .RW, 16, none⟩, ⟨23, 16, .RW, 16, none⟩, ⟨15, 8, .RW, 64, none⟩, ⟨7, 0, .RW, 64, none⟩]⟩]

/-- Registers of the MEM block. -/
def specsMEM : List RegSpec := specsMEM0 ++ specsMEM1

/-- Registers of the CN block, part 0. -/
def specsCN0 : List RegSpec := [
  -- CN_CTL
  ⟨0x140000, [], 8, none, [⟨15, 8, .RWL, 8, some 8⟩, ⟨7, 0, .RWL, 4, some 4⟩]⟩,
  -- CN_ERR
  ⟨0x140008, [], 8, none, [⟨1, 1, .W1C, 0, some 0⟩, ⟨0, 0, .W1C, 0, some 0⟩]⟩,
  -- CN_CNT_RETRY
  ⟨0x140010, [], 8, none, [⟨63, 0, .RO, 0, some 0⟩]⟩,
  -- CN_CNT_DETOUR
  ⟨0x140018, [], 8, none, [⟨63, 0, .RO, 0, some 0⟩]⟩,
  -- CN_STOP_WT_EW
  ⟨0x141000, [(96, 64)], 8, none, [⟨63, 32, .RW, 269500480, none⟩, ⟨31, 0, .RW, 269500480, none⟩]⟩,
  -- CN_STOP_WT_NS
  ⟨0x141008, [(96, 64)], 8, none, [⟨63, 32, .RW, 269500480, none⟩, ⟨31, 0, .RW, 269500480, none⟩]⟩,
  -- CN_STOP_LINK
  ⟨0x141010, [(96, 64)], 8, none, [⟨11, 8, .RO, 0, none⟩, ⟨3, 0, .RO, 0, none⟩]⟩,
  -- CN_STOP_SEQ
  ⟨0x141018, [(96, 64)], 8, none, [⟨63, 0, .RO, 0, some 0⟩]⟩]

/-- Registers of the CN block. -/
def specsCN : List RegSpec := specsCN0

/-- Registers of the SQ block, part 0. -/
def specsSQ0 : List RegSpec := [
  -- SQ_SEL
  ⟨0x150000, [], 8, none, [⟨11, 0, .RW, 0, some 0⟩]⟩,
  -- SQ_Q_CFG
  ⟨0x150008, [], 8, some (0x150010, []), [⟨63, 63, .RW, 0, none⟩, ⟨57, 49, .RW, 0, none⟩, ⟨48, 40, .RW, 0, none⟩, ⟨37, 36, .RW, 0, none⟩, ⟨31, 20, .RW, 0, none⟩, ⟨4, 0, .RW, 4, none⟩]⟩,
  -- SQ_Q_COMMIT
  ⟨0x150010, [], 4, none, [⟨0, 0, .WO, 0, some 0⟩]⟩,
  -- SQ_Q_CSTAT
  ⟨0x150014, [], 4, none, [⟨7, 0, .RO, 0, some 0⟩]⟩,
  -- SQ_Q_CTL
  ⟨0x150018, [], 8, none, [⟨0, 0, .WO, 0, some 0⟩]⟩,
  -- SQ_Q_STAT
  ⟨0x150020, [], 8, none, [⟨63, 56, .RO, 0, some 0⟩, ⟨52, 36, .RO, 0, some 0⟩, ⟨26, 26, .W1C, 0, some 0⟩, ⟨25, 25, .W1C, 0, some 0⟩, ⟨24, 24, .W1C, 0, some 0⟩, ⟨16, 0, .RO, 0, some 0⟩]⟩,
  -- SQ_Q_PKT
  ⟨0x150028, [], 8, none, [⟨63, 32, .RO, 0, some 0⟩, ⟨31, 0, .RO, 0, some 0⟩]⟩,
  -- SQ_ERR
  ⟨0x150030, [], 8, none, [⟨1, 1, .W1C, 0, some 0⟩, ⟨0, 0, .W1C, 0, some 0⟩]⟩,
  -- SQ_CNT_RESET
  ⟨0x150038, [], 8, none, [⟨63, 0, .RO, 0, some 0⟩]⟩]

/-- Registers of the SQ block. -/
def specsSQ : List RegSpec := specsSQ0

/-- Registers of the NET block, part 0. -/
def specsNET0 : List RegSpec := [
  -- NET_PORT_CTL
  ⟨0x160000, [(16, 8192)], 8, some (0x160010, [8192]), [⟨63, 63, .RW, 0, none⟩, ⟨62, 62, .RW, 0, none⟩, ⟨61, 60, .RW, 0, none⟩, ⟨59, 48, .RW, 0, none⟩, ⟨47, 36, .RW, 1, none⟩, ⟨35, 34, .RW, 0, none⟩, ⟨33, 33, .RW, 0, none⟩, ⟨32, 32, .RW, 0, none⟩, ⟨31, 31, .RW, 0, none⟩, ⟨23, 0, .RW, 1000, none⟩]⟩,
  -- NET_PORT_DLY
  ⟨0x160008, [(16, 8192)], 8, some (0x160010, [8192]), [⟨63, 32, .RW, 0, none⟩, ⟨31, 0, .RW, 0, none⟩]⟩,
  -- NET_PORT_COMMIT
  ⟨0x160010, [(16, 8192)], 4, none, [⟨0, 0, .WO, 0, some 0⟩]⟩,
  -- NET_PORT_CSTAT
  ⟨0x160014, [(16, 8192)], 4, none, [⟨7, 0, .RO, 0, some 0⟩]⟩,
  -- NET_PORT_STAT
  ⟨0x160018, [(16, 8192)], 8, none, [⟨11, 8, .RO, 0, some 0⟩, ⟨2, 2, .RO, 0, some 0⟩, ⟨1, 1, .RO, 0, some 0⟩, ⟨0, 0, .RO, 0, some 0⟩]⟩,
  -- NET_PORT_TXTS_ID
  ⟨0x160020, [(16, 8192)], 8, none, [⟨63, 63, .RO, 0, some 0⟩, ⟨31, 16, .RO, 0, some 0⟩, ⟨15, 0, .RO, 0, some 0⟩]⟩,
  -- NET_PORT_TXTS_TIME
  ⟨0x160028, [(16, 8192)], 8, none, [⟨63, 0, .RO, 0, some 0⟩]⟩,
  -- NET_PORT_TXTS_STAT
  ⟨0x160030, [(16, 8192)], 8, none, [⟨16, 16, .W1C, 0, some 0⟩, ⟨6, 0, .RO, 0, some 0⟩]⟩,
  -- NET_PORT_MACSEC
  ⟨0x160038, [(16, 8192)], 8, none, [⟨45, 40, .RO, 0, some 0⟩, ⟨33, 32, .RO, 0, some 0⟩, ⟨0, 0, .RO, 0, some 0⟩]⟩,
  -- NET_PORT_CNT_RX
  ⟨0x160040, [(16, 8192)], 8, none, [⟨63, 0, .RO, 0, some 0⟩]⟩,
  -- NET_PORT_CNT_TX
  ⟨0x160048, [(16, 8192)], 8, none, [⟨63, 0, .RO, 0, some 0⟩]⟩,
  -- NET_PORT_CNT_RX_FCS
  ⟨0x160050, [(16, 8192)], 8, none, [⟨63, 0, .RO, 0, some 0⟩]⟩]
/-- Registers of the NET block, part 1. -/
def specsNET1 : List RegSpec := [
  -- NET_PORT_CNT_FEC_UNCORR
  ⟨0x160058, [(16, 8192)], 8, none, [⟨63, 0, .RO, 0, some 0⟩]⟩,
  -- NET_PORT_CNT_MACSEC_DROP
  ⟨0x160060, [(16, 8192)], 8, none, [⟨63, 0, .RO, 0, some 0⟩]⟩,
  -- NET_PORT_CNT_TXTS_DROP
  ⟨0x160068, [(16, 8192)], 8, none, [⟨63, 0, .RO, 0, some 0⟩]⟩,
  -- NET_PORT_CNT_LATE_SENT
  ⟨0x160070, [(16, 8192)], 8, none, [⟨63, 0, .RO, 0, some 0⟩]⟩,
  -- NET_PORT_CNT_LATE_DROP
  ⟨0x160078, [(16, 8192)], 8, none, [⟨63, 0, .RO, 0, some 0⟩]⟩,
  -- NET_CTL
  ⟨0x161000, [], 8, some (0x161028, []), [⟨63, 48, .RW, 300, none⟩, ⟨47, 32, .RWL, 17491, some 17491⟩, ⟨31, 16, .RWL, 17492, some 17492⟩, ⟨9, 8, .RWL, 0, none⟩, ⟨2, 2, .RW, 1, none⟩, ⟨1, 1, .RW, 0, none⟩]⟩,
  -- NET_MAC
  ⟨0x161008, [], 8, some (0x161028, []), [⟨47, 0, .RWL, 0, none⟩]⟩,
  -- NET_IP4
  ⟨0x161010, [], 8, some (0x161028, []), [⟨31, 0, .RW, 0, none⟩]⟩,
  -- NET_IP6_LO
  ⟨0x161018, [], 8, some (0x161028, []), [⟨63, 0, .RW, 0, none⟩]⟩,
  -- NET_IP6_HI
  ⟨0x161020, [], 8, some (0x161028, []), [⟨63, 0, .RW, 0, none⟩]⟩,
  -- NET_GLB_COMMIT
  ⟨0x161028, [], 4, none, [⟨0, 0, .WO, 0, some 0⟩]⟩,
  -- NET_GLB_CSTAT
  ⟨0x16102C, [], 4, none, [⟨7, 0, .RO, 0, some 0⟩]⟩]
/-- Registers of the NET block, part 2. -/
def specsNET2 : List RegSpec := [
  -- NET_FDB_ADDR
  ⟨0x161030, [], 8, none, [⟨14, 0, .RW, 0, some 0⟩]⟩,
  -- NET_FDB_DATA
  ⟨0x161038, [], 8, none, [⟨63, 63, .RW, 0, none⟩, ⟨62, 62, .RW, 0, none⟩, ⟨60, 56, .RW, 0, none⟩, ⟨47, 0, .RW, 0, none⟩]⟩,
  -- NET_FDB_VID
  ⟨0x161040, [], 8, none, [⟨11, 0, .RW, 0, none⟩]⟩,
  -- NET_VLAN_ADDR
  ⟨0x161048, [], 8, none, [⟨11, 0, .RW, 0, some 0⟩]⟩,
  -- NET_VLAN_DATA
  ⟨0x161050, [], 8, none, [⟨63, 63, .RW, 0, none⟩, ⟨48, 32, .RW, 0, none⟩, ⟨16, 0, .RW, 0, none⟩]⟩,
  -- NET_ERP_k
  ⟨0x161080, [(8, 8)], 8, none, [⟨63, 63, .RW, 0, none⟩, ⟨59, 48, .RW, 0, none⟩, ⟨26, 24, .RO, 0, none⟩, ⟨18, 18, .RW, 0, none⟩, ⟨17, 16, .RW, 0, none⟩, ⟨12, 8, .RW, 0, none⟩, ⟨4, 0, .RW, 0, none⟩]⟩,
  -- NET_CNT_FDB_FULL
  ⟨0x1610C0, [], 8, none, [⟨63, 0, .RO, 0, some 0⟩]⟩,
  -- NET_ERR
  ⟨0x1610C8, [], 8, none, [⟨2, 2, .W1C, 0, some 0⟩, ⟨1, 1, .W1C, 0, some 0⟩, ⟨0, 0, .W1C, 0, some 0⟩]⟩,
  -- NET_PEER_CTL
  ⟨0x161400, [(16, 32)], 8, some (0x161600, [8]), [⟨63, 63, .RW, 0, none⟩, ⟨62, 62, .RO, 0, none⟩, ⟨57, 48, .RW, 0, none⟩, ⟨47, 44, .RW, 0, none⟩, ⟨43, 40, .RW, 0, none⟩, ⟨39, 39, .RW, 0, none⟩, ⟨15, 0, .RW, 0, none⟩]⟩,
  -- NET_PEER_ADDR_LO
  ⟨0x161408, [(16, 32)], 8, some (0x161600, [8]), [⟨63, 0, .RW, 0, none⟩]⟩,
  -- NET_PEER_ADDR_HI
  ⟨0x161410, [(16, 32)], 8, some (0x161600, [8]), [⟨63, 0, .RW, 0, none⟩]⟩,
  -- NET_PEER_STAT
  ⟨0x161418, [(16, 32)], 8, none, [⟨63, 32, .RO, 0, some 0⟩, ⟨2, 0, .RO, 0, some 0⟩]⟩]
/-- Registers of the NET block, part 3. -/
def specsNET3 : List RegSpec := [
  -- NET_PEER_COMMIT
  ⟨0x161600, [(16, 8)], 4, none, [⟨0, 0, .WO, 0, some 0⟩]⟩,
  -- NET_PEER_CSTAT
  ⟨0x161604, [(16, 8)], 4, none, [⟨7, 0, .RO, 0, some 0⟩]⟩,
  -- NET_EXP_CTL
  ⟨0x161800, [(32, 64)], 8, some (0x161820, [64]), [⟨63, 63, .RW, 0, none⟩, ⟨62, 62, .RW, 0, none⟩, ⟨61, 61, .RW, 0, none⟩, ⟨60, 56, .RW, 0, none⟩, ⟨51, 48, .RW, 0, none⟩, ⟨47, 44, .RW, 0, none⟩, ⟨43, 43, .RW, 0, none⟩, ⟨35, 24, .RW, 0, none⟩, ⟨19, 0, .RW, 0, none⟩]⟩,
  -- NET_EXP_DST_LO
  ⟨0x161808, [(32, 64)], 8, some (0x161820, [64]), [⟨63, 0, .RW, 0, none⟩]⟩,
  -- NET_EXP_DST_HI
  ⟨0x161810, [(32, 64)], 8, some (0x161820, [64]), [⟨63, 0, .RW, 0, none⟩]⟩,
  -- NET_EXP_UDP
  ⟨0x161818, [(32, 64)], 8, some (0x161820, [64]), [⟨15, 0, .RW, 17492, none⟩]⟩,
  -- NET_EXP_COMMIT
  ⟨0x161820, [(32, 64)], 4, none, [⟨0, 0, .WO, 0, some 0⟩]⟩,
  -- NET_EXP_CSTAT
  ⟨0x161824, [(32, 64)], 4, none, [⟨7, 0, .RO, 0, some 0⟩]⟩,
  -- NET_EXP_STAT
  ⟨0x161828, [(32, 64)], 8, none, [⟨63, 32, .RO, 0, none⟩, ⟨2, 0, .RO, 0, none⟩]⟩,
  -- NET_EXP_CNT
  ⟨0x161830, [(32, 64)], 8, none, [⟨63, 0, .RO, 0, some 0⟩]⟩,
  -- NET_EXP_CNT_RESENT
  ⟨0x161838, [(32, 64)], 8, none, [⟨63, 0, .RO, 0, some 0⟩]⟩]

/-- Registers of the NET block. -/
def specsNET : List RegSpec := specsNET0 ++ specsNET1 ++ specsNET2 ++ specsNET3

/-- Registers of the TIM block, part 0. -/
def specsTIM0 : List RegSpec := [
  -- TIM_NOW
  ⟨0x180000, [], 8, none, [⟨63, 0, .RO, 0, none⟩]⟩,
  -- TIM_NOW_FRAC
  ⟨0x180008, [], 8, none, [⟨15, 0, .RO, 0, none⟩]⟩,
  -- TIM_ADDEND
  ⟨0x180010, [], 8, none, [⟨39, 0, .RW, 10737418240, none⟩]⟩,
  -- TIM_SERVO
  ⟨0x180018, [], 8, some (0x180040, []), [⟨63, 48, .RW, 3600, none⟩, ⟨47, 40, .RW, 0, none⟩, ⟨39, 36, .RO, 0, none⟩, ⟨33, 32, .RW, 0, none⟩, ⟨31, 31, .RW, 0, none⟩, ⟨1, 0, .RO, 0, none⟩]⟩,
  -- TIM_OFFSET
  ⟨0x180020, [], 8, none, [⟨63, 0, .RO, 0, some 0⟩]⟩,
  -- TIM_PPS
  ⟨0x180028, [], 8, some (0x180040, []), [⟨63, 63, .RW, 0, none⟩, ⟨62, 62, .RW, 0, none⟩, ⟨41, 32, .RW, 100, none⟩, ⟨31, 0, .RW, 0, none⟩]⟩,
  -- TIM_PPS_IN
  ⟨0x180030, [], 8, none, [⟨63, 0, .RO, 0, some 0⟩]⟩,
  -- TIM_BC
  ⟨0x180038, [], 8, some (0x180040, []), [⟨31, 24, .RW, 128, none⟩, ⟨23, 16, .RW, 128, none⟩, ⟨15, 8, .RW, 7, none⟩, ⟨7, 0, .RW, 248, none⟩]⟩,
  -- TIM_COMMIT
  ⟨0x180040, [], 4, none, [⟨0, 0, .WO, 0, some 0⟩]⟩,
  -- TIM_CSTAT
  ⟨0x180044, [], 4, none, [⟨7, 0, .RO, 0, some 0⟩]⟩]

/-- Registers of the TIM block. -/
def specsTIM : List RegSpec := specsTIM0

/-- Registers of the SEC block, part 0. -/
def specsSEC0 : List RegSpec := [
  -- SEC_SERIAL
  ⟨0x1A0000, [], 8, none, [⟨63, 0, .RO, 0, none⟩]⟩,
  -- SEC_FUSE
  ⟨0x1A0008, [], 8, none, [⟨63, 56, .RO, 0, none⟩, ⟨9, 8, .RO, 0, none⟩, ⟨2, 2, .RO, 0, none⟩, ⟨1, 1, .RO, 0, none⟩, ⟨0, 0, .RO, 0, some 1⟩]⟩,
  -- SEC_KEYS
  ⟨0x1A0010, [], 8, none, [⟨31, 16, .RO, 0, none⟩, ⟨3, 0, .RO, 0, none⟩]⟩,
  -- SEC_SESS
  ⟨0x1A0018, [], 8, none, [⟨20, 16, .RO, 0, none⟩, ⟨8, 0, .RO, 0, none⟩]⟩,
  -- SEC_DBG
  ⟨0x1A0020, [], 8, none, [⟨27, 27, .RO, 0, none⟩, ⟨25, 24, .RO, 0, none⟩, ⟨17, 17, .RO, 0, none⟩, ⟨16, 16, .RO, 0, none⟩, ⟨15, 0, .RO, 0, none⟩]⟩,
  -- SEC_ERR
  ⟨0x1A0028, [], 8, none, [⟨3, 3, .W1C, 0, some 0⟩, ⟨2, 2, .W1C, 0, some 0⟩, ⟨1, 1, .W1C, 0, some 0⟩, ⟨0, 0, .W1C, 0, some 0⟩]⟩,
  -- SEC_CNT_PROOF_FAIL
  ⟨0x1A0040, [], 8, none, [⟨63, 0, .RO, 0, some 0⟩]⟩,
  -- SEC_CNT_SIG_FAIL
  ⟨0x1A0048, [], 8, none, [⟨63, 0, .RO, 0, some 0⟩]⟩,
  -- SEC_CNT_TOKEN_FAIL
  ⟨0x1A0050, [], 8, none, [⟨63, 0, .RO, 0, some 0⟩]⟩,
  -- SEC_CNT_SESSION_OPEN
  ⟨0x1A0058, [], 8, none, [⟨63, 0, .RO, 0, some 0⟩]⟩]

/-- Registers of the SEC block. -/
def specsSEC : List RegSpec := specsSEC0

/-- Registers of the MBX block, part 0. -/
def specsMBX0 : List RegSpec := [
  -- MBX_CFG
  ⟨0x1C0000, [(64, 64)], 8, none, [⟨63, 63, .RW, 0, some 0⟩, ⟨15, 8, .RW, 0, some 0⟩, ⟨7, 0, .RW, 0, some 0⟩]⟩,
  -- MBX_SEND
  ⟨0x1C0008, [(64, 64)], 8, none, [⟨63, 0, .WO, 0, some 0⟩]⟩,
  -- MBX_RECV
  ⟨0x1C0010, [(64, 64)], 8, none, [⟨63, 0, .RO, 0, some 0⟩]⟩,
  -- MBX_STAT
  ⟨0x1C0018, [(64, 64)], 8, none, [⟨19, 16, .RO, 0, some 0⟩, ⟨11, 8, .RO, 0, some 0⟩, ⟨6, 6, .RO, 0, some 0⟩, ⟨5, 5, .W1S, 0, some 0⟩, ⟨3, 3, .W1C, 0, some 0⟩, ⟨2, 2, .W1C, 0, some 0⟩, ⟨1, 1, .W1C, 0, some 0⟩, ⟨0, 0, .W1C, 0, some 0⟩]⟩,
  -- MBX_DB_RING
  ⟨0x1C0020, [(64, 64)], 8, none, [⟨31, 0, .WO, 0, some 0⟩]⟩,
  -- MBX_DB_PEND
  ⟨0x1C0028, [(64, 64)], 8, none, [⟨31, 0, .W1C, 0, some 0⟩]⟩,
  -- MBX_DB_MASK
  ⟨0x1C0030, [(64, 64)], 8, none, [⟨31, 0, .RW, 4294967295, some 4294967295⟩]⟩,
  -- MBX_DB_WAKE
  ⟨0x1C0038, [(64, 64)], 8, none, [⟨31, 0, .RW, 0, some 0⟩]⟩,
  -- LCK_l
  ⟨0x1C2000, [(64, 8)], 8, none, [⟨7, 0, .RW, 0, some 0⟩]⟩,
  -- LCK_PEEK_l
  ⟨0x1C2200, [(64, 8)], 8, none, [⟨7, 0, .RO, 0, some 0⟩]⟩,
  -- LCK_ORPHAN
  ⟨0x1C3000, [], 8, none, [⟨63, 0, .W1C, 0, some 0⟩]⟩,
  -- LCK_FORCE
  ⟨0x1C3008, [], 8, none, [⟨5, 0, .WO, 0, some 0⟩]⟩]
/-- Registers of the MBX block, part 1. -/
def specsMBX1 : List RegSpec := [
  -- LCK_ERR
  ⟨0x1C3010, [], 8, none, [⟨0, 0, .W1C, 0, some 0⟩]⟩,
  -- MBX_ERR
  ⟨0x1C3018, [], 8, none, [⟨1, 1, .W1C, 0, some 0⟩, ⟨0, 0, .W1C, 0, some 0⟩]⟩,
  -- MBX_HOST_IRQ
  ⟨0x1C3020, [], 8, none, [⟨10, 0, .RW, 0, some 0⟩]⟩,
  -- MBX_CORE_STAT
  ⟨0x1C3028, [], 8, none, [⟨63, 32, .RO, 0, some 0⟩, ⟨15, 8, .RO, 0, some 0⟩, ⟨7, 0, .RO, 0, some 0⟩]⟩]

/-- Registers of the MBX block. -/
def specsMBX : List RegSpec := specsMBX0 ++ specsMBX1

/-- Registers of the RAS block, part 0. -/
def specsRAS0 : List RegSpec := [
  -- RAS_CTL
  ⟨0x1E0000, [], 8, none, [⟨11, 8, .RW, 8, none⟩, ⟨4, 4, .RW, 0, none⟩, ⟨1, 1, .RW, 1, none⟩]⟩,
  -- RAS_LOG_BASE
  ⟨0x1E0008, [], 8, none, [⟨47, 12, .RWL, 0, none⟩]⟩,
  -- RAS_LEASE
  ⟨0x1E0010, [], 8, none, [⟨46, 6, .RW, 0, none⟩]⟩,
  -- RAS_PEND
  ⟨0x1E0018, [], 8, none, [⟨8, 8, .RO, 0, some 0⟩, ⟨3, 0, .W1C, 0, some 0⟩]⟩,
  -- RAS_FATAL
  ⟨0x1E0020, [], 8, none, [⟨63, 32, .RO, 0, none⟩, ⟨15, 8, .RO, 0, none⟩]⟩,
  -- RAS_SEQ
  ⟨0x1E0028, [], 8, none, [⟨63, 0, .RO, 0, none⟩]⟩,
  -- RAS_LAST_FAULT
  ⟨0x1E0030, [], 8, none, [⟨63, 0, .RO, 0, none⟩]⟩,
  -- RAS_BUDDY
  ⟨0x1E0038, [], 8, none, [⟨25, 16, .RO, 0, none⟩, ⟨8, 8, .RO, 0, none⟩, ⟨2, 0, .RO, 0, none⟩]⟩,
  -- RAS_CNT_CORR
  ⟨0x1E0040, [], 8, none, [⟨63, 0, .RO, 0, some 0⟩]⟩,
  -- RAS_CNT_RECOV
  ⟨0x1E0048, [], 8, none, [⟨63, 0, .RO, 0, some 0⟩]⟩,
  -- RAS_CNT_DEGR
  ⟨0x1E0050, [], 8, none, [⟨63, 0, .RO, 0, some 0⟩]⟩,
  -- RAS_CNT_SPACED
  ⟨0x1E0058, [], 8, none, [⟨63, 0, .RO, 0, some 0⟩]⟩]
/-- Registers of the RAS block, part 1. -/
def specsRAS1 : List RegSpec := [
  -- RAS_CNT_DISSENT
  ⟨0x1E0060, [], 8, none, [⟨63, 0, .RO, 0, some 0⟩]⟩,
  -- RAS_CNT_TAKEOVER
  ⟨0x1E0068, [], 8, none, [⟨63, 0, .RO, 0, some 0⟩]⟩,
  -- RAS_CNT_LOG_WRAP
  ⟨0x1E0070, [], 8, none, [⟨63, 0, .RO, 0, some 0⟩]⟩]

/-- Registers of the RAS block. -/
def specsRAS : List RegSpec := specsRAS0 ++ specsRAS1

/-- The registers of the block that a BAR0 offset lies in (R506); none above the RAS block. -/
def blockSpecs (a : Nat) : List RegSpec :=
  if a < 0x10000 then specsSYS
  else if a < 0x20000 then specsCLK
  else if a < 0x40000 then specsHIF
  else if a < 0x60000 then specsHG
  else if a < 0x80000 then specsFRF
  else if a < 0xC0000 then specsFW
  else if a < 0x100000 then specsST
  else if a < 0x120000 then specsCP
  else if a < 0x140000 then specsMEM
  else if a < 0x150000 then specsCN
  else if a < 0x160000 then specsSQ
  else if a < 0x180000 then specsNET
  else if a < 0x1A0000 then specsTIM
  else if a < 0x1C0000 then specsSEC
  else if a < 0x1E0000 then specsMBX
  else if a < 0x200000 then specsRAS
  else []

/-- Row of the BAR0 map that a BAR0 offset lies in (R504, R506); 16 above the RAS block. -/
def blockRow (a : Nat) : Nat :=
  if a < 0x10000 then 0
  else if a < 0x20000 then 1
  else if a < 0x40000 then 2
  else if a < 0x60000 then 3
  else if a < 0x80000 then 4
  else if a < 0xC0000 then 5
  else if a < 0x100000 then 6
  else if a < 0x120000 then 7
  else if a < 0x140000 then 8
  else if a < 0x150000 then 9
  else if a < 0x160000 then 10
  else if a < 0x180000 then 11
  else if a < 0x1A0000 then 12
  else if a < 0x1C0000 then 13
  else if a < 0x1E0000 then 14
  else if a < 0x200000 then 15
  else 16

/-- The indices at which an offset `d` from the base of a register array lies, outermost first. -/
def indicesOf : List (Nat × Nat) → Nat → Option (List Nat)
  | [], d => if d = 0 then some [] else none
  | (n, st) :: ds, d =>
    let i := d / st
    if i < n then (indicesOf ds (d - i * st)).map (fun is => i :: is) else none

/-- Indices at which register `r` has BAR0 offset `a`, if it has that offset. -/
def RegSpec.indices (r : RegSpec) (a : Nat) : Option (List Nat) :=
  if a < r.base then none else indicesOf r.dims (a - r.base)

/-- The register at a BAR0 offset, with its indices (R500: none when the offset is unmapped). -/
def findSpec : List RegSpec → Nat → Option (RegSpec × List Nat)
  | [], _ => none
  | r :: rs, a =>
    match r.indices a with
    | some is => some (r, is)
    | none => findSpec rs a

/-- The register at a BAR0 offset. -/
def regAt (a : Nat) : Option (RegSpec × List Nat) := findSpec (blockSpecs a) a

/-- Offset of an array element from its base. -/
def dotStride : List Nat → List Nat → Nat
  | s :: ss, i :: is => s * i + dotStride ss is
  | _, _ => 0

/-- Commit offset of the double-buffered group that the register at `a` belongs to (R508). -/
def groupAt (a : Nat) : Option Nat :=
  match regAt a with
  | some (r, is) => r.group.map (fun g => g.1 + dotStride g.2 is)
  | none => none

/-- The value that a list of fields makes, each field giving its value or nothing. -/
def assemble (f : FieldSpec → Nat) : List FieldSpec → Word
  | [] => 0
  | s :: ss => setBits (assemble f ss) s.hi s.lo (f s)

/-- Value of the register at `a` after a cold reset (R16, DESIGN CHOICE, log entry 2). -/
def coldOf (a : Nat) : Word :=
  match regAt a with
  | some (r, _) => assemble FieldSpec.cold r.fields
  | none => 0

/-- Registers of the group with the commit register of base offset `g` (R508). -/
def groupMembers (g : Nat) : List (Nat × List Nat) :=
  if g = 0x40018 then [(0x40000, []), (0x40008, []), (0x40010, [])]
  else if g = 0x41048 then [(0x41000, [256]), (0x41008, [256]), (0x41010, [256]), (0x41018, [256]), (0x41020, [256]), (0x41028, [256]), (0x41030, [256]), (0x41038, [256]), (0x41040, [256])]
  else if g = 0x60020 then [(0x60000, []), (0x60008, []), (0x60010, []), (0x60018, [])]
  else if g = 0x61020 then [(0x61000, [128]), (0x61008, [128]), (0x61010, [128]), (0x61018, [128])]
  else if g = 0x80020 then [(0x80000, []), (0x80008, []), (0x80010, []), (0x80018, [])]
  else if g = 0x81028 then [(0x81000, [64]), (0x81008, [64]), (0x81010, [64]), (0x81018, [64]), (0x81020, [64])]
  else if g = 0x84010 then [(0x84000, [32]), (0x84008, [32])]
  else if g = 0x86020 then [(0x86000, [64]), (0x86008, [64]), (0x86010, [64]), (0x86018, [64])]
  else if g = 0xC0020 then [(0xC0000, [4096]), (0xC0008, [4096]), (0xC0010, [4096]), (0xC0018, [4096])]
  else if g = 0x100010 then [(0x100000, []), (0x100008, [])]
  else if g = 0x101050 then [(0x101000, [256]), (0x101008, [256]), (0x101010, [256]), (0x101018, [256]), (0x101020, [256]), (0x101028, [256]), (0x101030, [256]), (0x101038, [256]), (0x101040, [256]), (0x101048, [256])]
  else if g = 0x103018 then [(0x103000, [32]), (0x103008, [32])]
  else if g = 0x121010 then [(0x121000, [32]), (0x121008, [32])]
  else if g = 0x150010 then [(0x150008, [])]
  else if g = 0x21010 then [(0x21000, [32]), (0x21008, [32])]
  else if g = 0x22018 then [(0x22000, [256]), (0x22008, [256]), (0x22010, [256])]
  else if g = 0x161028 then [(0x161000, []), (0x161008, []), (0x161010, []), (0x161018, []), (0x161020, [])]
  else if g = 0x160010 then [(0x160000, [8192]), (0x160008, [8192])]
  else if g = 0x161820 then [(0x161800, [64]), (0x161808, [64]), (0x161810, [64]), (0x161818, [64])]
  else if g = 0x161600 then [(0x161400, [32]), (0x161408, [32]), (0x161410, [32])]
  else if g = 0x180040 then [(0x180018, []), (0x180028, []), (0x180038, [])]
  else []

/-- Offsets of the registers of the group committed at `c` (R508); empty when `c` is no commit register. -/
def membersAt (c : Nat) : List Nat :=
  match regAt c with
  | some (r, is) => (groupMembers r.base).map (fun m => m.1 + dotStride m.2 is)
  | none => []

end Sys2Proof
end

