-- ==== Sys2Proof/Machine/Tab.lean ====
section
/-!
DEFINITION. Sparse tables keyed by numbers: lists of (key, value) pairs with rising keys.  `Tab.insert` keeps every
value written; `Tab.set d` removes an entry equal to the default `d`, so that equal tables are equal data.
-/

namespace Sys2Proof

/-- A sparse table. -/
abbrev Tab (α : Type) := List (Nat × α)

/-- The value listed at a key. -/
def tabFind {α : Type} : Tab α → Nat → Option α
  | [], _ => none
  | (k, v) :: r, i => if k = i then some v else tabFind r i

/-- The table with `v` listed at key `i`. -/
def tabInsert {α : Type} : Tab α → Nat → α → Tab α
  | [], i, v => [(i, v)]
  | (k, w) :: r, i, v =>
    if i < k then (i, v) :: (k, w) :: r
    else if i = k then (i, v) :: r
    else (k, w) :: tabInsert r i v

/-- The table with nothing listed at key `i`. -/
def tabErase {α : Type} : Tab α → Nat → Tab α
  | [], _ => []
  | (k, w) :: r, i => if k = i then tabErase r i else (k, w) :: tabErase r i

/-- What a table with default `d` reads as at a key. -/
def tabGet {α : Type} (d : α) (t : Tab α) (i : Nat) : α := (tabFind t i).getD d

/-- The table with default `d` that reads as `v` at key `i`, in canonical form. -/
def tabSet {α : Type} [DecidableEq α] (d : α) (t : Tab α) (i : Nat) (v : α) : Tab α :=
  if v = d then tabErase t i else tabInsert t i v

/-- Apply a function to the value at a key of a table with default `d`. -/
def tabModify {α : Type} (d : α) (t : Tab α) (i : Nat) (f : α → α) : Tab α := tabInsert t i (f (tabGet d t i))

/-- Apply a function to every listed value. -/
def tabMap {α : Type} (f : Nat → α → α) (t : Tab α) : Tab α := List.map (fun p => (p.1, f p.1 p.2)) t

/-- Every key is larger than `b` and the keys rise. -/
def tabRising {α : Type} : Nat → Tab α → Bool
  | _, [] => true
  | b, (k, _) :: r => decide (b < k) && tabRising k r

/-- The keys of a table rise. -/
def tabSorted {α : Type} : Tab α → Bool
  | [] => true
  | (k, _) :: r => tabRising k r

end Sys2Proof
end

