-- ==== Sys2Proof/Machine/State.lean ====
section
/-!
DEFINITION. The state of the machine as plain data, and the machine after reset.  Every register of BAR0 lies in `regs`
by its BAR0 offset; what the block chapters keep beside registers (queues, buffers, tables, work in flight) lies in one
structure per block.  Device time is in nanoseconds (R19).
-/

namespace Sys2Proof.Machine

/-! ### Rings (chapter *Host attachment, rings and doorbells*) -/

/-- Ring kinds, in the coding of `HIF_RING_STAT.KIND` less one (R286, R314). -/
inductive RingKind where
  | submit | inject | complete | result | log
  deriving DecidableEq, Repr

/-- Ring states, in the coding of `HIF_RING_STAT.STATE` (R314). -/
inductive RingState where
  | active | waitEpoch | full | halted | detached
  deriving DecidableEq, Repr

/-- What a run of a device-produced ring carries (R294): it decides the bookkeeping at visibility and consumption. -/
inductive RunKind where
  | completion (noIrq : Bool)
  | injection (stream seq : Nat)
  | slice (group k : Nat)
  | view (group stream k : Nat)
  | countFrame (pop : Nat)
  | flicker
  | event
  | log
  deriving DecidableEq, Repr

/-- A run waiting for its ring (R294, R302): entries of the ring's size, phase bits not yet placed. -/
structure Run where
  kind : RunKind
  entries : List (List Byte)
  deriving DecidableEq, Repr

/-- A run that became visible and is not yet consumed: one past its last index. -/
structure VisRun where
  kind : RunKind
  last : Nat
  deriving DecidableEq, Repr

/-- The pending run of R303: start index, length, type and bytes 8–15 of the first entry. -/
structure PendingRun where
  start : Nat
  len : Nat
  type : Nat
  key : Nat
  deriving DecidableEq, Repr

/-- An injection descriptor that was fetched (R292): the fetch index after it was read, and how far it has come: 0 not
started, 1 journalled, 2 waiting for the acceptance of the batch `dup` that it repeats (R52). -/
structure InjDesc where
  desc : List Byte
  hAfter : Nat
  stage : Nat
  dup : Nat
  deriving DecidableEq, Repr

/-- A created ring (R286–R289, R303–R306). -/
structure Ring where
  kind : RingKind
  cls : Nat
  logN : Nat                    -- log2 of the number of entries
  base : Nat                    -- host address
  fn : Nat                      -- owning function
  pasid : Option Nat
  session : Nat                 -- session it is bound to
  stream : Option Nat           -- stream of an INJECT ring
  complete : Nat                -- COMPLETE ring of a host-produced ring
  vec : Nat
  nc : Nat
  nt : Nat
  epoch : Nat
  restart : Bool                -- restart window open (R307)
  state : RingState
  dev : Nat                     -- H or V
  host : Nat                    -- P or C, last accepted
  pending : Option PendingRun
  wait : List Run               -- runs waiting in order
  visible : List VisRun         -- runs visible and not consumed, oldest first
  fresh : Nat                   -- entries counted since the last interrupt (R304)
  firstAt : Option Nat          -- when the first of them became visible
  fetched : List InjDesc        -- injection descriptors fetched and not yet consumed (R383)
  core : Nat                    -- control core that serves it (R323)
  deficit : Nat                 -- descriptors left of its turn in the core's round (R323)
  deriving DecidableEq, Repr

/-- Host interface state beside its registers. -/
structure Hif where
  rings : Tab Ring
  epochs : Tab Nat              -- last epoch of each ring number (R305); 0 before the first
  unmasked : List (Nat × Nat)   -- unmasked MSI-X vectors (function, vector)
  msiPending : List (Nat × Nat) -- pending bits
  selVf : Tab Nat               -- ring selector of each VF (R507)
  cxl : Bool                    -- the link trained with CXL.cache enabled (R283)
  watch : Tab (List Nat)        -- watch cache: doorbell lines held Shared, as their eight records (R298)
  deriving DecidableEq, Repr

/-! ### Reliability (chapter *Faults, recovery and the accepted-work guarantee*) -/

/-- A suspension of R8 for a cause of R245: the streams it covers, when it began, and when its cause ended for those that
still wait for the slice that ends it. -/
structure Susp where
  cause : Nat
  streams : Nat                 -- bit mask
  since : Nat
  doneAt : Option Nat
  deriving DecidableEq, Repr

/-- CORRECTED errors of one part gathered in a merge window (R416). -/
structure CeMerge where
  part : Nat
  index : Nat
  since : Nat
  count : Nat
  address : Nat
  cond : Nat
  streams : Nat
  deriving DecidableEq, Repr

/-- How far the runs of a fusion group are delivered, consumed and covered by checkpoints (R424, R425). -/
structure Rel where
  vis : Option Nat              -- K_vis
  cons : Option Nat             -- newest instant whose run is consumed
  ckpt : Option Nat             -- k_c, newest instant with a completed checkpoint
  deriving DecidableEq, Repr

/-- Reliability state beside its registers. -/
structure Ras where
  log : List (List Byte)        -- RAS log, oldest first, at most 65,536 records
  susp : List Susp
  merging : List CeMerge
  marks : List (Nat × Nat × Nat) -- (cause, stream, slice): closed, not yet reflected, within a suspension (R11)
  rel : Tab Rel                 -- per fusion group
  silent : Bool                 -- heartbeats have stopped after a FATAL error (R419)
  anyFault : Bool               -- a single-part fault has been detected since the cold start (R420)
  deriving DecidableEq, Repr

/-! ### Bonded memory, mesh and sluice queues -/

/-- A sluice queue beside its configuration (R269–R274). -/
structure SqQueue where
  cfg : Word                    -- active SQ_Q_CFG
  words : List (List Byte × Bool)  -- committed words with their LAST mark, oldest first
  opened : List (List Byte)     -- words of the open packet
  discarding : Bool             -- after an overrun, until the next LAST or BAD (R271)
  midRead : Bool                -- the consumer has read part of a packet
  epoch : Nat                   -- RESET_EPOCH
  pktIn : Nat
  pktOut : Nat
  overrun : Bool
  ptrErr : Bool
  ue : Bool
  cstat : Nat
  streams : Nat                 -- stream set (R529)
  kept : List (List (List Byte)) -- packets that a block of the device keeps as the queue's producer, from sequence PKT_OUT on, oldest first (R275)
  sent : Nat                    -- how many of them are committed; the others wait for space
  deriving DecidableEq, Repr

/-- Memory, mesh and queue state beside the registers. -/
structure Mm where
  ueLines : List Nat            -- 64-byte lines of plain regions that hold uncorrectable data (R257)
  rewritten : List Nat          -- lines of lost pseudo-channels written since the loss (R260)
  queues : Tab SqQueue
  links : Tab Nat               -- replays in a row, per receiving port 4·s + port
  scrubNext : Nat
  fastRefresh : Bool            -- a die is above 85 °C (R262)
  inQ : Tab Nat                 -- per stream: sluice queue that carries its slice descriptors (R65)
  outQ : Tab Nat                -- per stream: sluice queue that carries its feature packets (R195)
  healed : List Nat             -- pseudo-channels that TEST_FAULT restored (R528)
  relinked : List Nat           -- links that TEST_FAULT restored
  deriving DecidableEq, Repr

/-! ### Headgate (chapter *Stream ingest, acceptance and the Runnel format*) -/

/-- A batch that passed check 1 of R44, as its header gives it (R31), with the datagram's addressing and arrival. -/
structure Batch where
  flags : Nat
  tag : Nat
  n : Nat
  seq : Nat
  base : Nat
  status : Nat
  payloadCrc : Nat
  bytes : List Byte             -- the UDP payload as received
  src : Nat
  sport : Nat
  port : Nat
  arrival : Nat
  injected : Option (Nat × Nat) -- ring and command sequence of an injected batch (R52)
  deriving DecidableEq, Repr

/-- A batch in the reorder window (R45, R46). -/
structure Held where
  batch : Batch
  since : Nat
  deriving DecidableEq, Repr

/-- How far a journal entry has come (R46–R49): both copies not yet complete, JOURNALLED, JOURNALLED with the completion of
its injection descriptor waiting (R52), ACCEPTED. -/
inductive JPhase where
  | writing | journalled | completing | accepted
  deriving DecidableEq, Repr

/-- A journal entry: header fields of R50 and the batch it holds. -/
structure JEntry where
  stream : Nat
  seq : Nat
  phase : JPhase
  mirrored : Bool
  injected : Bool
  onRecovery : Bool
  needMirror : Bool             -- a mirror confirmation is awaited (R49)
  acceptT : Nat
  arrivalT : Nat
  begun : Nat                   -- when its journal write and mirror request began
  first : Option Nat            -- first slice, once step 3 has assigned every word
  last : Nat                    -- last slice
  offset : Int
  rate : Int
  refTime : Nat
  group : Nat                   -- fusion group of the stream when the batch was journalled
  batch : Batch
  deriving DecidableEq, Repr

/-- What one slice of one stream gathers while it is open (R63–R66). -/
structure SliceAcc where
  k : Nat
  events : List Nat             -- 64-bit words of R66, in acceptance order
  accepted : Nat                -- accepted change events
  oof : Nat
  hot : Nat
  refrac : Nat
  bg : Nat
  flkSup : Nat
  flkTag : Nat
  late : Nat
  clamped : Nat
  markers : Nat
  any : Bool                    -- an accepted change or marker event was assigned
  status : Nat                  -- OR of the sensor status words
  earliest : Option Nat         -- earliest acceptance time of any event
  again : Bool                  -- cut again after a warm reset (R426)
  deriving DecidableEq, Repr

/-- A closed slice: the fields of its descriptor (R65) and its event list. -/
structure SliceDesc where
  stream : Nat
  group : Nat                   -- fusion group of the stream when the slice was cut
  k : Nat
  unsynced : Bool
  guardClosed : Bool
  replayed : Bool
  acc : SliceAcc
  addr : Nat                    -- device address of the event list
  early : Nat                   -- bytes 60–63
  closed : Nat                  -- device time of the close
  deriving DecidableEq, Repr

/-- The TRACKED estimator (R54). -/
structure Tracked where
  alpha : Int
  beta : Int
  s0 : Option Nat               -- base time of the first batch
  count : Nat                   -- batches in the window
  best : Option (Int × Int × Int)  -- (difference, s_end, y) kept for the window
  ready : List (Int × Int)      -- (s_end, y − s_end) kept for the complete windows that wait for their fit, oldest first
  points : List (Int × Int)     -- (x, y − s_end) of the last 16 windows, oldest first
  estimated : Bool
  deriving DecidableEq, Repr

/-- A stream slot beside its registers. -/
structure StreamSt where
  e : Option Nat                -- expected sequence
  first : Nat                   -- sequence of the first processed batch
  processed : Nat               -- batches processed
  tokens : Nat                  -- bucket, 32 fractional bits
  filledAt : Nat                -- device time of the last refill
  held : List Held
  gapAt : Option Nat            -- next repeat of the last ACK with GAP
  lastAck : Option (Nat × Nat)  -- cumulative sequence and time of the last ACK
  peer : Nat × Nat × Nat        -- source address, UDP port and device port of the last batch answered
  sc : Option Nat               -- s_c of R53
  trk : Tracked
  kOpen : Option Nat            -- open slice
  accs : List SliceAcc          -- slices being gathered, rising k
  good : List (Nat × Bool)      -- (slice, every batch below T/4) of open slices (R55)
  refracT : Tab Nat             -- refractory times, per pixel (R60)
  cells : Tab Nat               -- background-activity surface, per cell (R61)
  opened : Bool                 -- the slot has been opened since the last cold reset
  injRing : Option Nat          -- injection ring it is bound to
  lastPort : Nat                -- port of the most recent batch (R421)
  viewOwed : List (Nat × Nat)   -- view records written and not consumed: group and slice (R425)
  reflected : Tab Nat           -- per fusion group: newest slice reflected in a released instant
  tEnd : Nat                    -- newest accepted batch end time, device time (R63, R109)
  k0 : Option Nat               -- first slice (R42)
  kLast : Option Nat            -- last slice, once the stream has drained (R41)
  refl : Tab Nat                -- per slice and group, by `reflKey`: the instant that reflects it (R199)
  kDrain : Option Nat           -- slice open when the stream began to drain (R41)
  unsK : Option Nat             -- newest slice that holds a batch with |r| > T (R55)
  deriving DecidableEq, Repr

/-- Headgate state beside its registers. -/
structure Hg where
  streams : Tab StreamSt
  journal : List JEntry         -- oldest first
  lists : List SliceDesc        -- event lists retained with their slices (R425)
  deriving DecidableEq, Repr

/-! ### Flicker and rate filter engine -/

/-- A channel: bins not yet passed and the 64 last passed, stage 1 and the coarse estimator (R71–R78). -/
structure FrfChan where
  bins : Tab Int
  i1 : Nat
  i2 : Nat
  i3 : Nat
  i4 : Nat
  d1 : Nat
  d2 : Nat
  d3 : Nat
  d4 : Nat
  out : Int                     -- latest stage-1 output
  c : Int
  e : Int
  resetAt : Nat                 -- bin time of the last stage-1 reset
  outRef : Int                  -- input-referred time of the latest stage-1 output, µs (R77)
  cRef : Int                    -- input-referred time of C, µs (R77)
  deriving DecidableEq, Repr

/-- A sub-filter of a lane: latest output of each bank, detectors (R82). -/
structure FrfSub where
  out : Int
  settling : Bool
  peak : Nat
  sumSq : Nat                   -- FP32 sum of squares
  clean : Nat                   -- clean samples in the window
  dirty : Bool                  -- SETTLING samples in the window
  env : Option Nat
  rms : Nat                     -- RMS of the last non-EMPTY window
  ref : Int                     -- input-referred time of the latest output, µs (R77, R85)
  windowRef : Int               -- input-referred end of the last window, µs (R77)
  deriving DecidableEq, Repr

/-- A fine lane (R79–R91). -/
structure FrfLane where
  chan : Option Nat
  next : Option (Option Nat)    -- channel that the next switch instant gives it
  h2 : List Int                 -- stage-1 samples, newest first
  h3 : List Int                 -- stage-2 outputs, newest first
  h4 : List Int                 -- stage-3 outputs, newest first
  since : Nat                   -- bin time of the last switch or reset
  base : Nat                    -- 544, or 576 after a stage-1 reset (R81)
  coefA : Tab Int
  coefB : Tab Int
  fade : Option (Bool × Nat)    -- target bank and outputs given
  subs : List FrfSub            -- four
  windowAt : Option Nat         -- bin time of the last window end
  sums : Tab Int                -- fold sums
  counts : Tab Nat              -- fold counts
  foldAt : Option Nat           -- bin time of the last fold decision
  deriving DecidableEq, Repr

/-- A mask entry (R92): active, lock, period, phase, width, age start. -/
structure Mask where
  active : Bool
  lock : Bool
  period : Nat
  phase : Nat
  width : Nat
  age : Nat
  deriving DecidableEq, Repr

/-- A mask entry with its versions (R93): the earlier ones with the boundaries from which they applied, newest first; the
boundary from which the one written last applies, that one, and whether the boundary has passed. -/
structure MaskVer where
  olds : List (Nat × Mask)
  from' : Nat
  cur : Mask
  applied : Bool
  deriving DecidableEq, Repr

/-- Outcomes of a fold (R91). -/
inductive FoldOutcome where
  | noDecision | steady | flicker | wide
  deriving DecidableEq, Repr

/-- A decided fold (R91, R95). -/
structure Fold where
  lane : Nat
  chan : Nat
  at' : Nat                     -- end of the fold interval, bin time in µs
  outcome : FoldOutcome
  period : Nat
  phase : Nat
  width : Nat
  mean : Nat
  max : Nat
  min : Nat
  hot : Nat
  run : Nat
  rms : Nat
  deriving DecidableEq, Repr

/-- FRF state beside its registers. -/
structure Frf where
  nextBin : Nat
  chans : Tab FrfChan
  lanes : Tab FrfLane
  masks : Tab MaskVer
  cursor : Nat
  decisions : List Fold         -- decided, not yet written to the mask table
  reports : Nat                 -- report sequence (R95)
  sync : Option (Nat × Nat × Nat) -- requested reset: scope, target, instant (R87)
  openResets : List Nat         -- streams whose opening commit requests a reset (R89)
  switchedAt : Option Nat
  dwellAt : Option Nat
  firstReset : Bool             -- an ALL reset is due at the first switch instant after a warm reset (R89)
  deriving DecidableEq, Repr

/-! ### Furrow spiking fabric -/

/-- A spike packet that waits at a router, with its full target step (R108). -/
structure FwPkt where
  packet : Nat
  target : Nat
  src : Nat                     -- source of its path: a physical core, or 128 + g for gateway g
  late : Bool
  moved : Bool                  -- carried past the cap of a step
  spilled : Bool
  deriving DecidableEq, Repr

/-- A packet on the router mesh (R108). -/
structure FwFly where
  src : Nat
  packet : Nat
  deriving DecidableEq, Repr

/-- The count window of a population in progress (R117, R118). -/
structure FwWin where
  counts : Tab Nat              -- spikes per neuron number
  late : Nat
  lateFlag : Bool
  spilled : Bool
  deriving DecidableEq, Repr

/-- A step checkpoint of a core (R121). -/
structure FwCkpt where
  step : Nat
  v : Tab Int
  rho : Tab Nat
  wins : Tab FwWin
  deriving DecidableEq, Repr

/-- What one accumulator's step has taken in: the sums, the inputs, the late ones, whether it holds moved inputs and
spilled ones (R101, R114, R115). -/
structure FwAcc where
  sums : Tab Int
  inputs : Nat
  late : Nat
  moved : Bool
  spilled : Bool
  deriving DecidableEq, Repr

/-- A physical furrow core with its router (R99, R110–R115, R121). -/
structure FwCore where
  v : Tab Int
  rho : Tab Nat
  acc : FwAcc                   -- open step
  next : FwAcc                  -- the step after it
  opened : Nat                  -- open step
  first : Nat                   -- first step since the core started
  marks : Tab Nat               -- per source: one past the newest step whose marker arrived
  queue : List FwPkt            -- delay queue, at most 4,096
  spill : List FwPkt            -- spill area
  held : List FwPkt             -- held at the router's input
  log : List FwPkt              -- retained log: delivered and not covered by a checkpoint
  wins : Tab FwWin              -- per population
  stretching : Bool
  sent : Nat                    -- one past the newest step whose markers were sent
  replaying : List Nat          -- populations whose next frame carries REPLAYED (R122)
  ckpt : Option FwCkpt          -- newest completed checkpoint
  ckptNew : Option FwCkpt       -- checkpoint in the other buffer, being written (R121)
  deriving DecidableEq, Repr

/-- A count frame that waits for its sluice queue (R118). -/
structure FwFrame where
  pop : Nat
  header : List Byte            -- 64 bytes
  counts : List Byte
  deriving DecidableEq, Repr

/-- Furrow state beside its registers. -/
structure Fw where
  cores : Tab FwCore
  neurons : Tab (Tab Nat)       -- neuron table per physical core
  fanout : Tab (Tab Nat)        -- fan-out table per physical core
  remap : Tab Nat               -- physical core of a logical one
  frames : List FwFrame
  flight : List FwFly           -- packets on the router mesh, those of a source in its order
  marked : Tab Nat              -- per stream: next step whose gateway marker is due
  written : Tab Nat             -- per population: one past the newest window written
  forward : Tab Nat             -- router of a failed core forwards to the core that took its place
  deriving DecidableEq, Repr

/-! ### Stand tiles -/

/-- What one delta layer keeps for one stream at one tile (R145): references, partial sums and outputs, by output number. -/
structure LayerSt where
  stream : Nat
  layer : Nat
  tile : Nat
  ref : List Nat
  refScales : List Nat
  sums : Tab Acc
  outs : Tab Nat
  deriving DecidableEq, Repr

/-- A slice that a stand group is running (R237–R239). -/
structure SliceRun where
  desc : SliceDesc
  key : Nat                     -- deadline key
  slot : Nat                    -- image slot
  epoch : Nat
  full : Bool                   -- every layer is refreshed (R147)
  done : Tab Nat                -- per tile: layers completed of those that it owes
  held : Bool                   -- held by a fault of its group
  admitted : Bool               -- its stream was admitted when it was dispatched (R240, R242)
  outs : Tab (Tab Nat)          -- per layer: its outputs so far, by output number (R136)
  scales : Tab (List Nat)       -- per layer: block scales of its outputs in an MX format
  maps : Tab (Nat × List Byte)  -- per layer: address and bytes of a map written to DRAM (R182)
  frames : List (List (List Byte))  -- count frames taken for the slice, retained until the handover (R120, R139)
  deriving DecidableEq, Repr

/-- What a layer's output in the stream's last slice carries to the next one (R188). -/
structure Carried where
  stream : Nat
  layer : Nat
  outs : Tab Nat
  scales : List Nat
  deriving DecidableEq, Repr

/-- The layer that a tile is at (R238), and since when it waits for a halo (R178). -/
structure TileJob where
  stream : Nat
  k : Nat
  layer : Nat
  waitSince : Option Nat
  deriving DecidableEq, Repr

/-- A halo slot of a consumer (R177). -/
structure HaloSlot where
  consumer : Nat
  producer : Nat
  layer : Nat
  gen : Nat
  stream : Nat
  k : Nat
  count : Nat                   -- row count
  rows : List (Nat × Nat)       -- outputs of the edge rows, by output number
  released : Bool
  deriving DecidableEq, Repr

/-- Stand state beside its registers. -/
structure Sd where
  input : List SliceDesc        -- input queues of the groups
  runs : List SliceRun          -- running slices, in order of dispatch
  jobs : Tab TileJob
  layers : List LayerSt
  carried : List Carried
  origin : Tab Nat              -- refresh origin k_r per stream
  fresh : List Nat              -- streams whose next slice refreshes every layer (R147)
  dispatched : Tab Nat          -- newest slice dispatched per stream
  handed : Tab Nat              -- newest slice handed over per stream
  epochs : Tab Nat              -- configuration epoch of the newest slice per stream
  gens : Tab Nat                -- runs of a layer at a tile since the last reset, by 256·tile + layer (R179)
  pubs : Tab Nat                -- generations published, by 65536·producer + 256·consumer + layer
  halos : List HaloSlot
  holds : Tab Nat               -- since when a producer holds, by the key of `pubs`
  outq : List (List Byte × List Byte)  -- feature packets handed over and not yet arrived
  deriving DecidableEq, Repr

/-! ### Model images -/

/-- A pending activation (R368, R369): its time, the command that awaits it, and the first slice once it switched. -/
structure Activation where
  at' : Nat
  ring : Nat
  seq : Nat
  deriving DecidableEq, Repr

/-- An image slot that is not EMPTY (R367–R370). -/
structure ImgSlot where
  image : Image
  epoch : Nat
  digest : List Byte
  active : Bool
  replaces : Option Nat
  tiles : Nat                   -- bit mask
  pending : Option Activation
  usable : Nat                  -- tiles in service
  deriving DecidableEq, Repr

/-- Model images. -/
structure Img where
  slots : Tab ImgSlot
  streamSlot : Tab Nat          -- image slot that serves a stream (R364)
  fusionSlot : Tab Nat          -- fusion slot of a fusion group (R363)
  streamOld : Tab (Nat × Nat)   -- per stream: first slice under its slot, and the slot before it (R368)
  fusionOld : Tab (Nat × Nat)   -- the same per fusion group
  deriving DecidableEq, Repr

/-! ### Coppice fusion -/

/-- A slice whose features have arrived (R195): its descriptor and feature words. -/
structure Feat where
  stream : Nat
  k : Nat
  sigma : Nat                   -- evidence time σ
  arrived : Nat
  late : Bool                   -- arrived after the release of its instant
  word0 : List Byte
  word1 : List Byte
  deriving DecidableEq, Repr

/-- An open instant (R197): the members that gate it, as streams, and when it expires. -/
structure Instant where
  k : Nat
  opened : Nat
  expiry : Nat
  gating : Nat
  deriving DecidableEq, Repr

/-- A contribution that fusion takes (R199, R201): a member's slice and its age, or an anchor between its two present
slices. -/
structure Contrib where
  pos : Nat
  stream : Nat
  a : Feat
  b : Option Feat
  age : Nat
  extrap : Bool
  deriving DecidableEq, Repr

/-- A released instant, from its release to its checkpoint (R198–R199, R213, R215). -/
structure Released where
  k : Nat
  at' : Nat                     -- when it was released: a unit serves instants in that order (R232)
  epoch : Nat
  digest : List Byte            -- first 8 bytes of the configuration digest
  timedOut : Nat                -- masked positions by reason, as bit masks
  stale : Nat
  masked : Nat
  reasons : Tab Nat             -- DISSENT, DROPOUT and SW_MASK of each member at the release, as REASONS codes them
  fused : List Contrib
  scored : List Contrib         -- contributions of masked members, used for their agreement scores alone (R199, R208)
  late : Nat                    -- late contributions
  reflected : List Feat
  suspended : Bool
  replayed : Bool
  deriving DecidableEq, Repr

/-- A track slot (R209).  FP32 and BF16 fields hold their bits. -/
structure Slot where
  state : Nat                   -- 0 FREE, 1 TENTATIVE, 2 ACTIVE, 3 DORMANT
  cls : Nat
  gen : Nat
  age : Nat
  hits : Nat                    -- hits while TENTATIVE, consecutive misses otherwise
  last : Nat                    -- instant of the last association
  dormAt : Nat
  mask : Nat
  conf : Nat
  flags : Nat
  pos : List Nat                -- x, y, vx, vy
  heading : Nat
  size : List Nat               -- length, width, height
  cov : List Nat                -- upper triangle, in row order
  app : List Nat                -- 448 BF16 values
  deriving DecidableEq, Repr

/-- A fusion group beside its registers. -/
structure CpGroup where
  feats : List Feat             -- arrived and not yet reflected
  present : List Feat           -- the two newest arrived slices of each anchor (R201)
  opens : List Instant          -- rising k
  fusing : List Released        -- released, waiting for fusion, oldest first
  last : Option Nat             -- last released instant
  ckpt : Option Nat             -- instant whose checkpoint is being written (R213)
  ckSent : Bool                 -- its mirror has been sent to the buddy
  dirty0 : List Nat             -- slots dirty for each buffer
  dirty1 : List Nat
  retained : List Released      -- fused, not yet both checkpointed and visible (R196)
  passed : Option Nat           -- instant of the last slot pass: the states of its live slots are of that time (R211)
  absent : List (Nat × Nat)     -- (stream, slice) masked TIMED_OUT at the slice's instant, and not yet reflected (R217)
  gridOk : Bool                 -- grid memory holds the state of this geometry and layout (R205)
  deriving DecidableEq, Repr

/-- Coppice state beside its registers. -/
structure Cp where
  groups : Tab CpGroup
  slots : Tab Slot              -- working copies of the track slots; unlisted: FREE, generation 0
  cache : Tab (List Nat)        -- slots in the slot cache of each unit (R192, R213)
  views : List (Nat × Nat × Run) -- view records behind a slice record that is not yet visible: group, instant, run (R217, R244)
  deriving DecidableEq, Repr

/-! ### Control complex and Aidor -/

/-- A command context: a command that was fetched and has not completed (R321, R326). -/
structure Ctx where
  ring : Nat                    -- submitting ring, or pseudo-ring
  seq : Nat
  desc : List Byte              -- the 64-byte descriptor (R290)
  hAfter : Nat                  -- fetch index after the descriptor was read (R293)
  steps : Nat                   -- steps whose durable state is written; 0 before the command starts
  waiting : Nat                 -- what a command that does not complete at once waits for; 0 for nothing
  arg : Nat                     -- what the wait is about
  data : List Byte              -- In data, once read
  sg : List (Nat × Nat × Nat)   -- elements of its scatter list, once read
  deriving DecidableEq, Repr

/-- A completion in the completion journal (R326). -/
structure Done where
  ring : Nat
  seq : Nat
  crc : Nat                     -- CRC-32C of descriptor bytes 0–1 and 8–63
  steps : Nat                   -- steps completed
  entry : List Byte             -- the 32-byte completion
  deriving DecidableEq, Repr

/-- A repeat that waits for its original (R327). -/
structure Repeat where
  ring : Nat
  seq : Nat
  tag : Nat
  noIrq : Bool
  hAfter : Nat
  deriving DecidableEq, Repr

/-- Events on which admission is evaluated (R228). -/
inductive Eval where
  | openStream (stream ring seq : Nat)
  | modify (stream ring seq : Nat)
  | classChange (cls ring seq : Nat)
  | group (group ring seq : Nat)
  | load (slot ring seq : Nat)
  | capacity
  | delivery
  | release (stream : Nat)
  deriving DecidableEq, Repr

/-- A control core (R329, R330): when it rejoined last, and whether it is out of service for good. -/
structure CoreSt where
  rejoined : Option Nat
  out : Bool
  deriving DecidableEq, Repr

/-- A window of a compartment (R319): base, log2 of its size, rights. -/
structure CompWindow where
  base : Nat
  logSize : Nat
  r : Bool
  w : Bool
  x : Bool
  deriving DecidableEq, Repr

/-- The compartment check unit of a control core (R319): the component now running, its window set, and the bitmap of the
BAR0 blocks that it may access. -/
structure CheckUnit where
  comp : Nat
  windows : List CompWindow
  blocks : Nat
  deriving DecidableEq, Repr

/-- Priority levels of a control core (R322). -/
inductive Level where
  | event | urgent | normal
  deriving DecidableEq, Repr

/-- The guarded record of a context reference that goes to a component on another core (R324, R337): the command, the core it
goes to, the mailbox that carries it, and its word. -/
structure Note where
  ring : Nat
  seq : Nat
  dest : Nat
  box : Nat
  word : Nat
  deriving DecidableEq, Repr

/-- An access that stalls until the domain it goes to is ready (R453): a register write or read, or an access to memory. -/
inductive Stalled where
  | reg (fn req off size val : Nat)
  | read (req off size : Nat)
  | mem (agent addr : Nat) (write : Bool) (data : List Byte) (len : Nat) (ecc : Ecc)
  deriving DecidableEq, Repr

/-- A patch slot (R340, R481). -/
structure PatchSlot where
  state : Nat                   -- 0 EMPTY, 1 STAGED, 2 ACTIVE
  version : Nat
  level : Nat                   -- rollback level
  digest : List Byte            -- image digest
  comps : List (Nat × List Byte)  -- component patches with their digests
  image : List Byte
  deriving DecidableEq, Repr

/-- A firmware activation (R341, R342): the slot, how many components of the order are handed over, whether they are
handed back, and the command that awaits it, if any. -/
structure Handover where
  slot : Nat
  done : Nat
  back : Bool
  cmd : Option (Nat × Nat)
  deriving DecidableEq, Repr

/-- Firmware update state (R340–R342). -/
structure Upd where
  slotA : PatchSlot
  slotB : PatchSlot
  handover : Option Handover
  deferred : Option Nat         -- slot of a deferred activation
  deriving DecidableEq, Repr

/-- Log records (R343, R344): the retained log with the sequence after its newest record, the filter of each LOG ring
(components, level), and the records dropped at each since the last one written. -/
structure Log where
  kept : List (List Byte)
  next : Nat
  filters : Tab (Nat × Nat)
  drops : Tab Nat
  deriving DecidableEq, Repr

/-- Registers of the management window (R332). -/
structure Mw where
  desc : List Byte              -- MW_CMD_DESC, 64 bytes
  cpl : List Byte               -- MW_CMD_CPL, 32 bytes
  busy : Bool
  refused : Bool
  trace : Nat
  level : Nat
  arrived : List (Nat × Nat × Nat)  -- writes that wait for their turn, oldest first: offset, size, value (R322, R331)
  deriving DecidableEq, Repr

/-- Registers that the management bus serves (R489): descriptor, completion, BUSY, data buffer. -/
structure BusChan where
  desc : List Byte              -- 64 bytes
  cpl : List Byte               -- 32 bytes
  busy : Bool
  data : List Byte              -- 96 bytes
  deriving DecidableEq, Repr

/-- A part made to fail by TEST_FAULT (R382): part, index, injection instant, and once it is detected the time, the
resumption time and whether a DEGRADED record followed. -/
structure Injected where
  part : Nat
  index : Nat
  at' : Nat
  detected : Option (Nat × Nat)
  degraded : Bool
  deriving DecidableEq, Repr

/-- Control complex state beside its registers. -/
structure Aid where
  ctxs : List Ctx               -- commands in progress, oldest first
  done : List Done              -- completion journal, oldest first
  repeats : List Repeat
  smax : Tab Nat                -- highest sequence fetched, per ring (R325)
  bus : BusChan
  evals : List Eval             -- admission events waiting, oldest first (R228)
  linkStreams : Nat             -- streams with a flow on any link
  linkSets : Tab Nat            -- streams with a flow reserved on each link (R234)
  homes : Tab Nat               -- home core of each singleton (R318)
  cores : Tab CoreSt
  disabled : Nat                -- disabled components (R320)
  violated : Tab Nat            -- newest violation of each component
  upd : Upd
  log : Log
  mw : Mw
  tests : List Injected
  units : Tab CheckUnit         -- compartment check unit of each core (R319)
  traps : Nat                   -- cores that trapped on a blocked access, one bit each (R320)
  notes : List Note             -- context references sent and not yet received, oldest first (R337)
  turns : Tab Nat               -- ring whose turn it is in each core's round (R323)
  deriving DecidableEq, Repr

/-! ### Calibration set (R473–R475) -/

/-- A calibration item: written by the factory and not overwritten, format version, data. -/
structure CalItem where
  factory : Bool
  version : Nat
  data : List Byte
  place : Nat                   -- flash offset
  deriving DecidableEq, Repr

/-- The calibration set in the configuration flash: the items of the current directory and its sequence, and the items of
the other directory copy. -/
structure Cal where
  items : Tab CalItem
  seq : Nat
  older : Tab CalItem
  deriving DecidableEq, Repr

/-! ### Mailboxes and locks -/

/-- One end of a mailbox (R334–R336): READY, its error bits, doorbells, and the queue toward it. -/
structure MbxEnd where
  ready : Bool
  dropped : Bool
  underflow : Bool
  overflow : Bool
  aborted : Bool
  pend : Nat
  mask : Nat
  wake : Nat
  queue : List Nat              -- words toward this end, oldest first
  deriving DecidableEq, Repr

/-- A mailbox's two ends. -/
structure Mbx where
  e0 : MbxEnd
  e1 : MbxEnd
  deriving DecidableEq, Repr

/-- Mailboxes, and the domains whose power-up a doorbell or an access has requested (R335, R453). -/
structure Mboxes where
  boxes : Tab Mbx
  wakeReq : Nat
  stalled : List Stalled        -- accesses that wait for a domain, oldest first (R453)
  deriving DecidableEq, Repr

/-! ### Network block and time -/

/-- What a launch-time frame carries (R397, R399, R407). -/
inductive TxWhat where
  | gram (queue seq : Nat)
  | heartbeat (peer : Nat) (alt : Bool)
  | other (id : Option Nat)
  deriving DecidableEq, Repr

/-- A frame in queue 7 of a port (R397): launch time, bytes on the wire, payload. -/
structure TxFrame where
  launch : Nat
  wire : Nat
  what : TxWhat
  payload : List Byte
  deriving DecidableEq, Repr

/-- An export datagram placed and not yet counted as sent (R400, R402). -/
structure Gram where
  seq : Nat
  launch : Nat
  entries : List (List Byte)
  first : Bool
  last : Bool
  resent : Bool
  k : Nat
  deriving DecidableEq, Repr

/-- An export queue beside its registers: the next sequence, the datagrams not yet sent, the runs held while BLOCKED, and
the number of the lost device whose queue it adopted (R434). -/
structure ExpQ where
  next : Nat
  grams : List Gram
  wait : List Run
  lost : Option (Nat × Nat)
  deriving DecidableEq, Repr

/-- A forwarding entry (R387). -/
structure FdbEntry where
  port : Nat
  mac : Nat
  vid : Nat
  static : Bool
  seen : Nat
  deriving DecidableEq, Repr

/-- A Culvert message that waits for its acknowledgement (R405). -/
structure CvMsg where
  seq : Nat
  type : Nat
  payload : List Byte
  sentAt : Nat
  tries : Nat
  deriving DecidableEq, Repr

/-- A reliable channel of a peer over one link member, by 16·channel + port (R405, R406). -/
structure CvChan where
  next : Nat                    -- next sequence
  unacked : List CvMsg          -- at most 1,024
  wait : List (Nat × List Byte) -- messages behind them
  taken : Nat                   -- newest sequence taken
  deriving DecidableEq, Repr

/-- A Culvert peer beside its registers (R404–R408, R490). -/
structure CvPeer where
  theirs : Nat                  -- session ID that the peer assigned
  ours : Nat                    -- session ID that this device assigned
  chans : Tab CvChan
  lastRx : Nat                  -- receipt time of the newest heartbeat
  lastTx : Nat                  -- its transmit time
  nonce : List Byte             -- own nonce of the exchange in progress
  other : List Byte             -- the peer's nonce of it
  retryAt : Nat                 -- no challenge before this time
  deriving DecidableEq, Repr

/-- A G.8032 instance beside its register (R389). -/
structure Erp where
  blocked : Nat                 -- bit 0: ring port 0, bit 1: ring port 1
  failed : Nat                  -- ring ports with signal fail
  wtrAt : Option Nat            -- when wait-to-restore ends
  guardAt : Option Nat          -- when the guard timer ends
  deriving DecidableEq, Repr

/-- The servo of R392. -/
structure Servo where
  near : Nat                    -- consecutive samples below 100 ns
  far : Nat                     -- consecutive samples at or above 1,000 ns
  announceAt : Nat              -- last Announce, Sync and PPS edge
  syncAt : Nat
  ppsAt : Nat
  holdSince : Option Nat
  means : List (Nat × Nat)      -- (time, ADDEND) in LOCKED, newest first
  deriving DecidableEq, Repr

/-- A configuration dissent (R435): peer, epoch, newest finding, own and peer digest64. -/
structure Dissent where
  peer : Nat
  epoch : Nat
  last : Nat
  own : Nat
  theirs : Nat
  deriving DecidableEq, Repr

/-- Network state beside the registers. -/
structure Net where
  q7 : Tab (List TxFrame)       -- per port
  exps : Tab ExpQ
  fdb : Tab FdbEntry
  vlans : Tab Word              -- NET_VLAN_DATA per VLAN
  txts : Tab (List (Nat × Nat × Nat))  -- per port: (identifier, time, fraction), oldest first
  peers : Tab CvPeer
  erps : Tab Erp
  downSince : Tab Nat           -- FAILED ports: since when no failure, or RESTORE, has come (R386, R528)
  servo : Servo
  dissent : List Dissent
  ppsDue : Option Nat           -- fall of the PPS output
  testDown : Nat                -- ports that TEST_FAULT holds down
  deriving DecidableEq, Repr

/-! ### Buddy mode (R427–R434) -/

/-- A mirrored run (R430): group, instant, entries that have arrived, whether LAST_PART arrived and the counts agree. -/
structure MirRun where
  group : Nat
  k : Nat
  entries : List (List Byte)
  complete : Bool
  deriving DecidableEq, Repr

/-- A committed mirror checkpoint of a group (R429): k, K_vis, V of its ring, SENT_SEQ. -/
structure MirCkpt where
  k : Nat
  vis : Nat
  v : Nat
  sent : Nat
  deriving DecidableEq, Repr

/-- What a device holds of its buddy, what it has mirrored of its own configuration, and the lease. -/
structure Bud where
  pairing : Option (Nat × Nat × Nat)  -- ring and sequence of the BUDDY_PAIR in progress, and when pairing began
  ready : Nat                   -- bit 0: own READY, bit 1: the peer's READY
  streams : Nat                 -- the peer's streams and groups
  groups : Nat
  standby : List Load           -- loads of the peer's admitted streams, with own image slots
  fusion : Tab Nat              -- own image slot of each of the peer's groups
  journal : List JEntry         -- mirrored entries, oldest first
  slots : Tab (Tab (List Byte)) -- contents of mirrored slots, by 2·group + buffer
  ckpts : Tab MirCkpt
  runs : List MirRun
  config : Tab Word             -- configuration registers of the peer
  rings : Tab (List Byte)       -- ring-table entries of the peer
  sent : Tab Word               -- own configuration registers as last mirrored
  sentRings : Tab (List Byte)   -- own ring-table entries as last mirrored
  lost : Bool                   -- declared lost (R432)
  asked : Bool                  -- a TAKEOVER message has arrived
  confirmed : Nat               -- when the own lease was last confirmed
  peerWord : Nat                -- the peer's lease word, and since when it stands
  peerSince : Nat
  ownWord : Nat
  deriving DecidableEq, Repr

/-! ### Security block (chapter *Identity, signatures and sessions*) -/

/-- A challenge outstanding on a function (R357): functions 0–63, 64 the management bus. -/
structure Challenge where
  fn : Nat
  id : Nat
  nonce : List Byte
  at' : Nat
  deriving DecidableEq, Repr

/-- An open session (R357, R487): its channel, role, feature map and key. -/
structure Session where
  id : Nat
  fn : Nat                      -- function, or 64 for the management bus
  role : Nat
  feats : Nat
  key : List Byte
  nonces : List (List Byte)     -- package nonces used (R485)
  lastUse : Nat
  closing : Bool                -- a SESSION_CLOSE waits for its other commands
  deriving DecidableEq, Repr

/-- Contents of the fuse array that no register shows (R476). -/
structure Fuses where
  secret : List Byte
  rootHash : List Byte
  ownerHash : List Byte
  mfgKey : List Byte
  romDigest : List Byte
  deriving DecidableEq, Repr

/-- The contents of a key-store copy (R478): role keys, their channel masks, CAKs. -/
structure KeyStore where
  keys : Tab (List Byte)
  masks : Tab Nat
  caks : Tab (List Byte × List Byte)
  deriving DecidableEq, Repr

/-- Security state beside its registers. -/
structure Sec where
  fuses : Fuses
  keys : Tab (List Byte)        -- role keys
  masks : Tab Nat               -- channel masks of the role keys
  caks : Tab (List Byte × List Byte)  -- per port: CAK and its name
  challenges : List Challenge   -- oldest first
  sessions : List Session
  fails : List (Nat × Nat)      -- failed proofs: (function, time), newest first
  lockout : Tab Nat             -- per function: until when SESSION_OPEN completes with 0x0406
  nonce : List Byte             -- debug nonce
  older : KeyStore              -- the key-store copy with the lower sequence
  idChain : List Byte           -- identity certificate chain
  attCert : List Byte           -- attestation certificate
  attModulus : List Byte        -- public part of the attestation key
  debugged : Bool               -- unlocked since the last cold start (R484)
  zeroised : Bool               -- by an accepted token with CORE or FUSE (R494)
  deriving DecidableEq, Repr

/-! ### Admission -/

/-- A stream class (R225): deadline in µs, rank, BEST_EFFORT. -/
structure ClassRow where
  d : Nat
  rank : Nat
  bestEffort : Bool
  deriving DecidableEq, Repr

/-- A lowering of the power floor that waits for the last records charged at the old figures (R229): the new floor, and
for each fusion group the instant of its last such record. -/
structure FloorLower where
  floor : Nat
  waits : List (Nat × Nat × Nat)  -- stream, its group, and its slice open at the change
  deriving DecidableEq, Repr

/-- Admission state (R225–R242). -/
structure Adm where
  classes : Tab ClassRow
  admitted : Nat                -- bit mask
  withdrawn : Nat               -- bit mask
  charged : Tab (Nat × Nat)     -- r and b at which a stream is charged
  releases : Tab Nat            -- when a lowering of a stream's r or b is released (R236)
  fallback : Tab Nat            -- fallback unit of each fusion group (R232)
  floor : Nat                   -- power floor, 0 OP0 to 3 OP3
  raising : Option (Nat × Eval) -- floor being raised to, and the request that waits for it (R229)
  lowering : Option FloorLower
  abandoned : Option Eval       -- request whose floor raise throttling abandoned (R243)
  deriving DecidableEq, Repr

/-! ### Power, start and the AON block (R440–R457, R460–R471) -/

/-- The DVFS sequencer and the emergency rules beside the PWR registers. -/
structure Pow where
  mv : Nat                      -- VDD_CORE requested, mV
  confirmed : Nat               -- confirmed voltage, mV (R440)
  raiseAt : Option Nat          -- request of the raise in progress
  holdAt : Option Nat           -- start of its PGOOD hold
  switched : Bool               -- the divider switched in the present 1 ms block (R443)
  stepAt : Option Nat           -- next throttle step (R444)
  coolAt : Option Nat           -- since when the hottest sensor is below EMERGENCY − 5 °C
  warnEnd : Option Nat          -- end of the power emergency, 10 ms after its last condition (R445)
  atFloor : Bool                -- CAP_AT_FLOOR is in force (R243)
  goal : Nat                    -- point of the raise in progress
  hot : Int                     -- hottest sensor, °C
  stopped : Bool                -- the clocks but ACLK stand still (R439)
  cmpStopped : Bool             -- the PD_CMP clocks stand still (R444)
  therm : Bool                  -- THERM_N asserted
  changedAt : Option Nat        -- last change that the power manager made (R224, R441)
  deriving DecidableEq, Repr

/-- Phases of the device: no power, start in progress, firmware ready, waiting to repeat a failed cold start, failsafe. -/
inductive Phase where
  | off | starting | up | retry | failsafe
  deriving DecidableEq, Repr

/-- A bank of the retention SRAM (R455): the registers that it holds, and its CRC-32C, which AON holds apart from it. -/
structure RetBank where
  regs : List (Nat × Word)
  crc : Nat
  deriving DecidableEq, Repr

/-- What PD_AON holds beside its registers (R457, R466–R471, R480–R483). -/
structure Aon where
  banks : List RetBank          -- banks of the retention SRAM as STOP entry wrote them (R455)
  phase : Phase
  startAt : Nat                 -- when the start began
  fails : Nat                   -- consecutive failed cold starts
  failStep : Nat
  failCause : Nat
  failDetail : Nat
  escalated : Nat
  escCause : Nat
  enumIn : Bool
  enumOut : Bool
  lostArb : Bool                -- lost an arbitration since the last SETPOS (R471)
  bound : List Byte             -- bound digest of the active patch image
  enables : List (Nat × Word)   -- enabling registers that STOP entry cleared
  attempts : Nat                -- attempts of the present wake (R454)
  waking : Bool                 -- a wake is under way (R452)
  retryAt : Option Nat          -- when an aborted wake is repeated (R454)
  saved : Nat                   -- device time saved at STOP entry (R450)
  entered : Nat                 -- when STOP entry began
  servo : Nat                   -- servo state at STOP entry
  wakeBuf : List Byte           -- bytes that the matcher buffered (R451)
  deriving DecidableEq, Repr

/-! ### The machine -/

/-- The claim and the staged commit of a double-buffered group, keyed by its commit offset (R508, R509). -/
structure GroupSt where
  holder : Nat                  -- requester that holds the claim, 0 for none
  lastWrite : Nat               -- device time of the holder's last write
  pending : Option (List (Nat × Word))  -- staged values awaiting their boundary
  since : Nat                   -- device time of the commit that staged them
  deriving DecidableEq, Repr

/-- What leaves the package, or is returned to a requester. -/
inductive Out where
  | udp (port src sport dst dport : Nat) (payload : List Byte)  -- a UDP datagram from an address and port of the device, handed to the network block
  | hostWrite (fn : Nat) (pasid : Option Nat) (relaxed : Bool) (addr : Nat) (data : List Byte)
                                                          -- a write to host memory: PASID (R284), Relaxed Ordering (R302)
  | msix (fn vec : Nat)                                   -- an MSI-X message
  | aer (fn : Nat) (fatal : Bool)                         -- an AER message (R415)
  | readData (req off : Nat) (val : Nat)                  -- the value that a register read returned
  | memData (agent addr : Nat) (data : List Byte) (err : Bool)  -- the answer to a DRAM read
  | sqWord (agent queue : Nat) (word : List Byte) (last valid : Bool)  -- the answer to a queue read
  | notice (agent queue kind value : Nat)                 -- ready (0) and reset (1) notices of the sluice pool
  | frame (port : Nat) (bytes : List Byte)                -- an Ethernet frame
  | culvert (peer port : Nat) (bytes : List Byte)         -- a Culvert datagram to a peer over a port
  | irq (what arg : Nat)                                  -- an on-die interrupt or notice
  | jtag (val : Nat)                                      -- a value shifted out of the debug port
  | bus (bytes : List Byte)                               -- bytes on the management bus
  | avs (rail mv : Nat)                                   -- a voltage request over AVSBus
  deriving DecidableEq, Repr

/-- The state of the machine. -/
structure State where
  pending : List Instr          -- the commands that are waiting, oldest first
  time : Nat                    -- device time, ns (R391)
  frac : Nat                    -- device time below 1 ns, in units of 2^−32 ns (R391)
  regs : Tab Word               -- registers by BAR0 offset; unlisted: the cold value
  shadow : Tab Word             -- shadow copies that differ from the active values (R508)
  groups : Tab GroupSt          -- claims and staged commits, by commit offset
  mem : List Host.Cell          -- bonded DRAM by device address; unlisted bytes read 0
  out : List Out                -- what left the package, oldest first
  fresh : Nat                   -- counter of free values (DESIGN CHOICE, log entry 3)
  hif : Hif
  ras : Ras
  mm : Mm
  hg : Hg
  frf : Frf
  fw : Fw
  sd : Sd
  img : Img
  cp : Cp
  aid : Aid
  cal : Cal
  built : Tab (Nat × List Byte) -- maps that Aidor built (R364) with their addresses, by 3·stream + kind: 0 hot-pixel map, 1 retina map, 2 projection table
  mbx : Mboxes
  net : Net
  bud : Bud
  sec : Sec
  adm : Adm
  pow : Pow
  aon : Aon
  deriving DecidableEq, Repr

/-- Why a step stops with a fault.  No rule of the spec makes this block stop: there is no fault. -/
inductive Fault where
  deriving DecidableEq, Repr

/-- Why a step refuses a command. -/
inductive Refusal where
  /-- Raised by `exec` for a command whose meaning is not written yet; safe, since the run stops there. -/
  | notModelled (mnemonic : String)
  deriving DecidableEq, Repr

/-- Outcome of a step. -/
abbrev Res := Host.Outcome State Fault Refusal

/-- The reset values of the sub-structures. -/
def Hif.reset : Hif := ⟨[], [], [], [], [], false, []⟩
def Ras.reset : Ras := ⟨[], [], [], [], [], false, false⟩
def Mm.reset : Mm := ⟨[], [], [], [], 0, false, [], [], [], []⟩
def Hg.reset : Hg := ⟨[], [], []⟩
def Frf.reset : Frf := ⟨0, [], [], [], 0, [], 0, none, [], none, none, false⟩
def Fw.reset : Fw := ⟨[], [], [], [], [], [], [], [], []⟩
def Sd.reset : Sd := ⟨[], [], [], [], [], [], [], [], [], [], [], [], [], [], []⟩
def Img.reset : Img := ⟨[], [], [], [], []⟩
def Cp.reset : Cp := ⟨[], [], [], []⟩
def PatchSlot.empty : PatchSlot := ⟨0, 0, 0, [], [], []⟩
def Mw.reset : Mw := ⟨zeros 64, zeros 32, false, false, 0, 0x55555555, []⟩
def BusChan.reset : BusChan := ⟨zeros 64, zeros 32, false, zeros 96⟩
def Aid.reset : Aid := ⟨[], [], [], [], BusChan.reset, [], 0, [], [], [], 0, [], ⟨PatchSlot.empty, PatchSlot.empty, none, none⟩, ⟨[], 0, [], []⟩, Mw.reset, [], [], 0, [], []⟩
def Cal.reset : Cal := ⟨[], 0, []⟩
def Mboxes.reset : Mboxes := ⟨[], 0, []⟩
def Net.reset : Net := ⟨[], [], [], [], [], [], [], [], ⟨0, 0, 0, 0, 0, none, []⟩, [], none, 0⟩
def Bud.reset : Bud := ⟨none, 0, 0, 0, [], [], [], [], [], [], [], [], [], [], false, false, 0, 0, 0, 0⟩
def Sec.reset : Sec := ⟨⟨zeros 32, zeros 32, zeros 32, zeros 32, zeros 32⟩, [], [], [], [], [], [], [], zeros 16, ⟨[], [], []⟩, [], [], [], false, false⟩
def Adm.reset : Adm := ⟨[], 0, 0, [], [], [], 3, none, none, none⟩
def Pow.reset : Pow := ⟨0, 0, none, none, false, none, none, none, false, 3, 0, false, false, false, none⟩
def Aon.reset : Aon := ⟨[], .off, 0, 0, 0, 0, 0, 0, 0, false, false, false, [], [], 0, false, none, 0, 0, 0, []⟩

/-- The machine right after reset, with VDD_AON valid and no start begun: every register at its cold value (R16), no
ring, region, session or stream, nothing listed in memory, no command waiting.  What the spec gives no reset value for is
0 or empty (DESIGN CHOICE, log entry 2). -/
def State.reset : State where
  pending := []
  time := 0
  frac := 0
  regs := []
  shadow := []
  groups := []
  mem := []
  out := []
  fresh := 0
  hif := Hif.reset
  ras := Ras.reset
  mm := Mm.reset
  hg := Hg.reset
  frf := Frf.reset
  fw := Fw.reset
  sd := Sd.reset
  img := Img.reset
  cp := Cp.reset
  aid := Aid.reset
  cal := Cal.reset
  built := []
  mbx := Mboxes.reset
  net := Net.reset
  bud := Bud.reset
  sec := Sec.reset
  adm := Adm.reset
  pow := Pow.reset
  aon := Aon.reset

end Sys2Proof.Machine
end

