-- ==== Sys2Proof/Machine/Ops.lean ====
section
/-!
DEFINITION. The named operations over the state that every family shares: the clock, outputs and free values; registers
(R16–R18), double-buffered groups (R508, R509) and register errors (R499, R500, R504); bonded DRAM (R252–R255).
-/

namespace Sys2Proof.Machine

/-! ### Clock, outputs, free values -/

/-- The state with the clock at `t`, unless it stands later (R391). -/
def State.at (s : State) (t : Nat) : State := { s with time := max s.time t }

/-- The state with one more output. -/
def State.emit (s : State) (o : Out) : State := { s with out := s.out ++ [o] }

/-- The state with outputs after those it holds, in their order. -/
def State.emitAll (s : State) (os : List Out) : State := { s with out := s.out ++ os }

/-- The next free value of a kind (DESIGN CHOICE, log entry 3). -/
def State.freeVal (s : State) (k : FreeKind) : Nat := Config.free k s.fresh

/-- The state with its counter of free values moved on. -/
def State.tickFree (s : State) : State := { s with fresh := s.fresh + 1 }

/-! ### Registers -/

/-- Active value of the register at BAR0 offset `a`. -/
def State.reg (s : State) (a : Nat) : Word := (tabFind s.regs a).getD (coldOf a)

/-- The state with the register at `a` holding `w`. -/
def State.setReg (s : State) (a : Nat) (w : Word) : State := { s with regs := tabInsert s.regs a w }

/-- Active value of a field. -/
def State.get (s : State) (f : Fld) : Nat := getBits (s.reg f.addr) f.hi f.lo

/-- Active value of a field read as two's complement. -/
def State.getS (s : State) (f : Fld) : Int := toSigned (f.hi - f.lo + 1) (s.get f)

/-- A one-bit field read as a truth value. -/
def State.flag (s : State) (f : Fld) : Bool := s.get f ≠ 0

/-- The state with a field replaced. -/
def State.put (s : State) (f : Fld) (v : Nat) : State := s.setReg f.addr (setBits (s.reg f.addr) f.hi f.lo v)

/-- The state with a 64-bit counter raised by `n` (wrapping). -/
def State.bumpBy (s : State) (a n : Nat) : State := s.setReg a (s.reg a + BitVec.ofNat 64 n)

/-- The state with a 64-bit counter raised by one. -/
def State.bump (s : State) (a : Nat) : State := s.bumpBy a 1

/-- What a read of the register at `a` finds for a field of a double-buffered group: the shadow (R508). -/
def State.shadowReg (s : State) (a : Nat) : Word := (tabFind s.shadow a).getD (s.reg a)

/-- Requester numbers of the control cores: core c is requester c + 1 (R318, R512). -/
def isControlCore (req : Nat) : Bool := 1 ≤ req && req ≤ 8

/-- Requester number of the host (R504). -/
def hostReq : Nat := 60

/-- Record an error of a register access in `SYS_ERR` and `SYS_ERR_INFO` (R512). -/
def State.sysErr (s : State) (f : Fld) (req size off : Nat) : State :=
  ((((s.put f 1).put F.SYS_ERR_INFO.REQUESTER req).put F.SYS_ERR_INFO.CAUSE f.lo).put F.SYS_ERR_INFO.SIZE size).put
    F.SYS_ERR_INFO.OFFSET off

/-- Mask of a bit range. -/
def maskOf (hi lo : Nat) : Word := onesMask (hi - lo + 1) <<< lo

/-- Bits of a register whose field access satisfies `p`. -/
def maskWhere (p : Access → Bool) : List FieldSpec → Word
  | [] => 0
  | f :: fs => (if p f.acc then maskOf f.hi f.lo else 0) ||| maskWhere p fs

/-- Bits of the register at `a` that only Aidor's control cores may write (R504, R513). -/
def aidorOnly (a : Nat) : Word :=
  if a = R.NET_MAC || a = R.TIM_ADDEND || a = R.RAS_LOG_BASE || a = R.LCK_FORCE then maskOf 63 0
  else if a = R.NET_CTL then maskOf F.NET_CTL.MODE.hi F.NET_CTL.MODE.lo
  else if blockRow a = 1 then (if a = R.PWR_WAKE_CFG then 0 else maskOf 63 0)
  else if blockRow a = 13 then (if a = R.SEC_ERR then 0 else maskOf 63 0)
  else if blockRow a = 11 && (a - R.NET_PORT_DLY 0) % 8192 = 0 && R.NET_PORT_DLY 0 ≤ a then maskOf 63 0
  else if blockRow a = 14 && a < R.MBX_CFG 64 && a % 64 = 0 then maskOf 63 0
  else 0

/-- Bits of a register that take a written value: RW, and RWL while the set-up is not locked (R17, R511), less those kept
from this requester (R504). -/
def State.landing (s : State) (req a : Nat) (fs : List FieldSpec) : Word :=
  let open' := maskWhere (fun x => x = .RW || (x = .RWL && !s.flag F.SYS_CTL.SETUP_LOCK)) fs
  if isControlCore req then open' else open' &&& ~~~(aidorOnly a)

/-- Value of a register after a write of `val` under the bits `m`: RW and RWL bits take it, W1C bits clear, W1S bits set,
RO and WO bits keep (R17). -/
def State.writeBits (s : State) (req a : Nat) (fs : List FieldSpec) (old val m : Word) : Word :=
  let keep := if isControlCore req then 0 else aidorOnly a
  let land := s.landing req a fs &&& m
  let c := maskWhere (fun x => x = .W1C) fs &&& m &&& ~~~keep
  let st := maskWhere (fun x => x = .W1S) fs &&& m &&& ~~~keep
  (((old &&& ~~~land) ||| (val &&& land)) &&& ~~~(val &&& c)) ||| (val &&& st)

/-! ### Double-buffered groups -/

/-- The claim and staging state of the group committed at `c`. -/
def State.group (s : State) (c : Nat) : GroupSt := tabGet ⟨0, 0, none, 0⟩ s.groups c

/-- The state with that of the group committed at `c` replaced. -/
def State.setGroup (s : State) (c : Nat) (g : GroupSt) : State := { s with groups := tabSet ⟨0, 0, none, 0⟩ s.groups c g }

/-- Erase the keys of a list from a table. -/
def tabEraseAll {α : Type} (t : Tab α) : List Nat → Tab α
  | [] => t
  | k :: ks => tabEraseAll (tabErase t k) ks

/-- Reload the shadow of the group committed at `c` from the active values (R508). -/
def State.reloadShadow (s : State) (c : Nat) : State := { s with shadow := tabEraseAll s.shadow (membersAt c) }

/-- End the claim on the group committed at `c` (R508). -/
def State.endClaim (s : State) (c : Nat) : State := s.setGroup c { s.group c with holder := 0 }

/-- A write of `val` under the bits `m` to the register at `a` of the group committed at `c` (R508). -/
def State.groupWrite (s : State) (req size c a : Nat) (fs : List FieldSpec) (val m : Word) : State :=
  let g := s.group c
  if (s.landing req a fs &&& m) = 0 then s
  else if g.holder ≠ 0 && g.holder ≠ req then s.sysErr F.SYS_ERR.GROUP_HELD req size a
  else
    let w := s.writeBits req a fs (s.shadowReg a) val m
    { (s.setGroup c { g with holder := req, lastWrite := s.time }) with shadow := tabInsert s.shadow a w }

/-- Give the registers of a staged group their staged values (R509, step 4). -/
def State.applyStaged (s : State) : List (Nat × Word) → State
  | [] => s
  | (a, w) :: r => (s.setReg a w).applyStaged r

/-- The staging copy of the group committed at `c`: each member with its shadow value (R509, step 1). -/
def State.staging (s : State) (c : Nat) : List (Nat × Word) := (membersAt c).map (fun a => (a, s.shadowReg a))

/-- A write to the commit register at `c` (R509): `code` gives the first failing check of the block chapter on the staged
registers (0 for none).  Code 0x08 is tested first.  When every check passes, the staged values of `now` take effect at
once and those of `later` become pending. -/
def State.commitSplit (s : State) (req c val code : Nat) (now later : List (Nat × Word)) : State :=
  let g := s.group c
  if g.holder ≠ 0 && g.holder ≠ req then s.sysErr F.SYS_ERR.GROUP_HELD req 4 c
  else if val % 2 = 0 then s
  else
    let code' := if g.pending.isSome then 0x08 else code
    let s1 := s.setReg (c + 4) (BitVec.ofNat 64 code')
    if code' ≠ 0 then (s1.reloadShadow c).endClaim c
    else
      let s2 := s1.applyStaged now
      if later.isEmpty then (s2.reloadShadow c).endClaim c
      else s2.setGroup c ⟨0, g.lastWrite, some later, s.time⟩

/-- A commit of which every field takes effect at once. -/
def State.commitNow (s : State) (req c val code : Nat) : State := s.commitSplit req c val code (s.staging c) []

/-- A commit of which every field waits for its boundary. -/
def State.commitLater (s : State) (req c val code : Nat) : State := s.commitSplit req c val code [] (s.staging c)

/-- True when a commit by `req` passes every check. -/
def State.commitPasses (s : State) (req c val code : Nat) : Bool :=
  ((s.group c).holder = 0 || (s.group c).holder = req) && val % 2 = 1 && (s.group c).pending.isNone && code = 0

/-- The first code of a list of checks, each a code with whether it fails. -/
def firstCode : List (Nat × Bool) → Nat
  | [] => 0
  | (c, b) :: r => if b then c else firstCode r

/-- Staged value of a field (R509). -/
def State.st (s : State) (f : Fld) : Nat := f.of (s.shadowReg f.addr)

/-- True when the staged value of a field differs from the active one. -/
def State.changed (s : State) (f : Fld) : Bool := s.st f ≠ s.get f

/-- True when the staged value of a register differs from the active one. -/
def State.regChanged (s : State) (a : Nat) : Bool := s.shadowReg a ≠ s.reg a

/-- The first multiple of `period` after the commit that is pending for the group at `c`: its slice, step, switch or dwell
boundary (R509, step 4).  A commit written at a boundary waits for the next one, as a mask update does (R93). -/
def State.boundaryAfter (s : State) (c period : Nat) : Nat := ((s.group c).since / period + 1) * period

/-- The pending commit of the group at `c` takes effect (R509, step 4). -/
def State.applyPending (s : State) (c : Nat) : State :=
  match (s.group c).pending with
  | none => s
  | some l =>
    let s1 := (s.applyStaged l).setGroup c { s.group c with pending := none }
    if (s.group c).holder = 0 then s1.reloadShadow c else s1

/-! ### Bonded DRAM -/

/-- The byte that a list of cells holds at an address; an unlisted byte reads 0 (R464, DEDUCED, log entry 5). -/
def memByte : List Host.Cell → Nat → Byte
  | [], _ => 0
  | (k, v) :: r, i => if k = i then v else memByte r i

/-- Write one byte, keeping the canonical form: rising addresses, no byte that reads as an unlisted one. -/
def memPut (m : List Host.Cell) (a : Nat) (b : Byte) : List Host.Cell := tabSet 0 m a b

/-- Write bytes at rising addresses. -/
def memPutAll (m : List Host.Cell) (a : Nat) : List Byte → List Host.Cell
  | [] => m
  | b :: bs => memPutAll (memPut m a b) (a + 1) bs

/-- Canonical form of memory: addresses rise, and no listed byte reads as an unlisted one. -/
def Memory.wf (m : List Host.Cell) : Bool := tabSorted m && m.all (fun c => c.2 ≠ 0)

/-- A region of the table (R252). -/
structure Region where
  base : Nat
  size : Nat
  guarded : Bool
  affine : Bool
  stop : Nat
  chOff : Nat
  deriving DecidableEq, Repr

/-- The region that two register values describe (R276). -/
def regionOf (b c : Word) : Region where
  base := (F.MEM_RGN_BASE.BASE 0).of b * 0x1000000
  size := (F.MEM_RGN_CFG.SIZE 0).of c * 0x1000000
  guarded := (F.MEM_RGN_CFG.PROT 0).of c ≠ 0
  affine := (F.MEM_RGN_CFG.PLACE 0).of c ≠ 0
  stop := (F.MEM_RGN_CFG.STOP 0).of c
  chOff := (F.MEM_RGN_CFG.CH_OFF 0).of c * 0x10000

/-- The enabled regions, in rising number. -/
def State.regions (s : State) : List Region :=
  ((List.range 32).filter (fun r => s.flag (F.MEM_RGN_CFG.ENABLE r))).map
    (fun r => regionOf (s.reg (R.MEM_RGN_BASE r)) (s.reg (R.MEM_RGN_CFG r)))

/-- The enabled region that holds a device address (R255). -/
def State.regionAt (s : State) (a : Nat) : Option Region :=
  s.regions.find? (fun r => r.base ≤ a && a < r.base + r.size)

/-- True when [a, a + n) lies wholly in one enabled guarded region. -/
def State.inGuarded (s : State) (a n : Nat) : Bool :=
  s.regions.any (fun r => r.guarded && r.base ≤ a && a + n ≤ r.base + r.size)

/-- Channels and channel offset of a device address of a region (R253). -/
def placement (r : Region) (a : Nat) : List Nat × Nat :=
  let o := a - r.base
  let n := o / 4096
  let w := o % 4096
  if r.affine then
    let i := r.stop - 16
    if r.guarded then let p := n % 2; ([4 * i + 2 * p, 4 * i + 2 * p + 1], r.chOff + n / 2 * 4096 + w)
    else ([4 * i + n % 4], r.chOff + n / 4 * 4096 + w)
  else if r.guarded then
    let m := n % 128; let i := m % 64; let p := m / 64
    ([4 * i + 2 * p, 4 * i + 2 * p + 1], r.chOff + n / 128 * 4096 + w)
  else
    let m := n % 256; let i := m % 64; let j := m / 64
    ([4 * i + j], r.chOff + n / 256 * 4096 + w)

/-- Pseudo-channel of a channel offset (R250). -/
def pseudoOf (c off : Nat) : Nat := 2 * c + off / 256 % 2

/-- Offset within the pseudo-channel of a channel offset (R250). -/
def pseudoOff (off : Nat) : Nat := off / 512 * 256 + off % 256

/-- Footprint of a region on each channel it uses (R253). -/
def footprint (r : Region) : Nat :=
  if r.affine then (if r.guarded then r.size / 2 else r.size / 4) else if r.guarded then r.size / 128 else r.size / 256

/-- Bytes of DRAM at a device address, for a block of the device; unmapped bytes read 0 (R255). -/
def State.dramRead (s : State) (a n : Nat) : List Byte :=
  (List.range n).map (fun i => if (s.regionAt (a + i)).isSome then memByte s.mem (a + i) else 0)

/-- A write of a block of the device to DRAM; a write that no region holds is ignored and recorded (R255). -/
def State.dramWrite (s : State) (a : Nat) (bs : List Byte) : State :=
  if (s.regionAt a).isSome then { s with mem := memPutAll s.mem a bs }
  else (s.put F.MEM_ERR.UNMAPPED 1).bump R.MEM_CNT_UNMAPPED

/-- Number in `n` bytes of DRAM, little-endian. -/
def State.dramNat (s : State) (a n : Nat) : Nat := leNat (s.dramRead a n)

/-- A map of stream i at device address `a`: number in the `n` bytes at offset `off`.  A map that Aidor built lies at an
address of Aidor's choice, so that its bytes are kept beside the memory with that address (R364, DESIGN CHOICE, log entry
35); a register that holds another address means the map in memory there (R59). -/
def State.mapNat (s : State) (i kind a off n : Nat) : Nat :=
  match tabFind s.built (3 * i + kind) with
  | some (at', bs) => if at' = a then fieldAt bs off n else s.dramNat (a + off) n
  | none => s.dramNat (a + off) n

/-! ### Slots and sets -/

/-- A set of streams with one member. -/
def streamBit (i : Nat) : Nat := 2 ^ i

/-- Union of sets of streams. -/
def unionAll (l : List Nat) : Nat := l.foldl (fun a b => a ||| b) 0

/-- Members of a set of streams, rising. -/
def streamsOf (m : Nat) : List Nat := (List.range 128).filter (fun i => m.testBit i)

/-- State of a stream slot (R41). -/
def State.streamState (s : State) (i : Nat) : Nat := s.get (F.HG_STREAM_STAT.STATE i)

/-- Every stream: the slots that are not CLOSED, as a bit mask (R41). -/
def State.ownStreams (s : State) : Nat := unionAll (((List.range 128).filter (fun i => s.streamState i ≠ 0)).map streamBit)

/-- The streams of a fusion group that are not CLOSED. -/
def State.groupStreams (s : State) (g : Nat) : List Nat :=
  (List.range 128).filter (fun i => s.streamState i ≠ 0 && s.get (F.HG_STREAM_CTL.GROUP i) = g)

/-- Slice length T of a fusion group, ns. -/
def State.groupNs (s : State) (g : Nat) : Nat := 1000 * s.get (F.CP_GRP_CTL.SLICE_US g)

/-- Slice length T of a stream's fusion group, ns. -/
def State.sliceNs (s : State) (i : Nat) : Nat := s.groupNs (s.get (F.HG_STREAM_CTL.GROUP i))

/-- Key of a slice of a fusion group in a stream's `refl`. -/
def reflKey (g k : Nat) : Nat := 32 * k + g

/-- Power domains, as `PWR_DOM` numbers them (R26, R458). -/
def dCtl : Nat := 0
def dSoc : Nat := 1
def dMem : Nat := 2
def dNet : Nat := 3
def dHif : Nat := 4
def dCmp : Nat := 5

/-- A domain that STOP has switched off and no wake request has powered again (R26, R453). -/
def State.domainOff (s : State) (d : Nat) : Bool := s.get F.PWR_STOP.STATE ≥ 2 && !(s.get F.PWR_DOM.READY).testBit d

/-- Power domain of the register at a BAR0 offset (R506); 6 is PD_AON, where the registers at offsets 0x40 to 0x57 of the
CLK/PWR block lie (R458). -/
def domainAt (off : Nat) : Nat :=
  if 0x10040 ≤ off && off < 0x10058 then 6
  else [dCtl, dSoc, dHif, dSoc, dSoc, dCmp, dCmp, dCmp, dMem, dSoc, dSoc, dNet, dSoc, dCtl, dCtl, dCtl].getD (blockRow off) dCtl

/-- The first access to a domain that is off stalls and requests the domain (R453); in STOP nothing can reach it. -/
def State.stall (s : State) (d : Nat) (x : Stalled) : State :=
  if s.get F.PWR_STOP.STATE = 3 then
    { s with mbx := { s.mbx with wakeReq := s.mbx.wakeReq ||| 2 ^ d, stalled := s.mbx.stalled ++ [x] } }
  else s

/-! ### Compartments -/

/-- The compartment check unit of a control core. -/
def State.unit (s : State) (c : Nat) : CheckUnit := tabGet ⟨0, [], 0⟩ s.aid.units c

/-- A window that R319 allows: aligned to its size, from 4 KiB to 64 GiB. -/
def CompWindow.ok (w : CompWindow) : Bool := 12 ≤ w.logSize && w.logSize ≤ 36 && w.base % 2 ^ w.logSize = 0

/-- The kernel gate of a component on a core loads the component's window set and block bitmap (R319). -/
def State.gate (s : State) (c comp : Nat) : State :=
  let ws := (Config.windowSet comp).map (fun w => (⟨w.1, w.2.1, w.2.2.testBit 0, w.2.2.testBit 1, w.2.2.testBit 2⟩ : CompWindow))
  { s with aid := { s.aid with
    units := tabInsert s.aid.units c ⟨comp, (ws.filter CompWindow.ok).take 16, Config.blockMap comp % 2 ^ 16⟩ } }

/-- A control core's access to a register of a block that its compartment's bitmap does not allow: bit i stands for row i of
the map of R506 (R319, R504). -/
def State.barred (s : State) (req off : Nat) : Bool := isControlCore req && !(s.unit (req - 1)).blocks.testBit (blockRow off)

/-- A register access of a requester reaches its register: neither its compartment nor a domain that is off stands in its way. -/
def State.reaches (s : State) (req off : Nat) : Bool := !s.barred req off && !s.domainOff (domainAt off)

/-- A blocked access traps to KERNEL (R320); one to a domain that is off stalls as `x` (R453). -/
def State.turnedAway (s : State) (req off : Nat) (x : Stalled) : State :=
  if s.barred req off then { s with aid := { s.aid with traps := s.aid.traps ||| 2 ^ (req - 1) } }
  else s.stall (domainAt off) x

/-- The write `f` of a requester to the register at a BAR0 offset (R319, R453). -/
def State.asReq (s : State) (req off size val : Nat) (f : State → State) : State :=
  if s.reaches req off then f s else s.turnedAway req off (.reg 0 req off size val)

/-- The read `f` of a requester from the register at a BAR0 offset (R319, R453). -/
def State.asReader (s : State) (req off size : Nat) (f : State → State) : State :=
  if s.reaches req off then f s else s.turnedAway req off (.read req off size)

/-- Fold a step over a list. -/
def State.each {α : Type} (s : State) (l : List α) (f : State → α → State) : State := l.foldl f s

end Sys2Proof.Machine
end

