-- ==== Sys2Proof/Machine/Records.lean ====
section
/-!
DEFINITION. Rings as shared operations (R286–R289, R302–R305), the error and health records (R414–R418), suspensions of
the deadline (R10, R11, R245) and the reporting of a single-part fault (R420).
-/

namespace Sys2Proof.Machine

/-! ### Rings -/

/-- The ring of a number, if it exists. -/
def State.ring (s : State) (r : Nat) : Option Ring := tabFind s.hif.rings r

/-- The state with ring `r` replaced. -/
def State.setRing (s : State) (r : Nat) (x : Ring) : State := { s with hif := { s.hif with rings := tabInsert s.hif.rings r x } }

/-- Number of entries of a ring. -/
def Ring.size (x : Ring) : Nat := 2 ^ x.logN

/-- Difference of ring indices (R288). -/
def idxSub (a b : Nat) : Nat := (a + 2 ^ 32 - b) % 2 ^ 32

/-- Entries that a device-produced ring has room for (R302). -/
def Ring.room (x : Ring) : Nat := x.size - idxSub x.dev x.host

/-- Entries of runs that wait for a ring. -/
def Ring.waiting (x : Ring) : Nat := sumNat (x.wait.map (fun r => r.entries.length))

/-- Bytes of an entry of a ring (R286). -/
def RingKind.entryBytes : RingKind → Nat
  | .complete => 32
  | .log => 32
  | _ => 64

/-- True for the kinds that the device produces (R286). -/
def RingKind.deviceProduced : RingKind → Bool
  | .complete => true
  | .result => true
  | .log => true
  | _ => false

/-- True when the device may write entries to a ring: not DETACHED (R309), its function enabled (R312), the link up
(R308). -/
def State.ringOpen (s : State) (x : Ring) : Bool :=
  x.state ≠ .detached && x.state ≠ .halted && s.flag (F.HIF_FN_CFG.ENABLE x.fn) && s.flag F.HIF_STAT.LINK_UP

/-- True after a FATAL error, until a reset (R419). -/
def State.dead (s : State) : Bool := s.flag F.RAS_PEND.FATAL

/-- True for the record of a FATAL error, which alone may still be written to a RESULT ring (R419). -/
def Run.isFatal (r : Run) : Bool :=
  match r.entries with
  | e :: _ => fieldAt e 0 2 = 0x0321
  | [] => false

/-- True when runs may be made visible on a ring now (R308, R309, R312, R419, R432). -/
def State.mayWrite (s : State) (x : Ring) (run : Run) : Bool :=
  s.ringOpen x && !s.pow.stopped && !s.flag F.RAS_BUDDY.FENCED && (!(s.dead && x.kind = .result) || run.isFatal)

/-- The run that a ring writes next: after a FATAL error, its record. -/
def State.nextRun (s : State) (x : Ring) : Option (Run × List Run) :=
  if s.dead && x.kind = .result then
    match x.wait.find? Run.isFatal with
    | some r => some (r, x.wait.erase r)
    | none => none
  else match x.wait with
    | [] => none
    | r :: rs => some (r, rs)

/-- The pending-run record of a run that starts at V (R303). -/
def Ring.pendingOf (x : Ring) (run : Run) : PendingRun :=
  ⟨x.dev, run.entries.length, fieldAt (run.entries.headD []) 0 1, fieldAt (run.entries.headD []) 8 8⟩

/-- The next run of a ring is recorded as its pending run once there is room for it (R302, R303): at most one. -/
def State.arm (s : State) (r : Nat) : State :=
  match s.ring r with
  | none => s
  | some x => match x.pending, s.nextRun x with
    | none, some (run, _) =>
      if x.kind.deviceProduced && s.mayWrite x run && run.entries.length ≤ x.room then
        s.setRing r { x with pending := some (x.pendingOf run) }
      else s
    | _, _ => s

/-- Hand a run to ring `r`: it waits behind the runs before it (R244), and is recorded as the pending run when it is the next
and has room (R303). -/
def State.pushRun (s : State) (r : Nat) (run : Run) : State :=
  match s.ring r with
  | some x => (s.setRing r { x with wait := x.wait ++ [run] }).arm r
  | none => s

/-- True when ring `r` is a RESULT ring with room for `n` more entries than those that wait. -/
def State.resultRoom (s : State) (r n : Nat) : Bool :=
  match s.ring r with
  | some x => x.kind = .result && s.ringOpen x && x.waiting + n ≤ x.room
  | none => false

/-! ### Records -/

/-- Device number (R471). -/
def State.devNum (s : State) : Nat := s.get F.SYS_STAT.DEVNUM

/-- The device's ingest address toward a destination (R36, R384): NET_IP4 as ::ffff:a.b.c.d, or NET_IP6. -/
def State.ingestAddr (s : State) (dst : Nat) : Nat :=
  if dst / 2 ^ 32 = 0xFFFF then 0xFFFF * 2 ^ 32 + s.get F.NET_IP4.ADDR
  else s.get F.NET_IP6_LO.ADDR + 2 ^ 64 * s.get F.NET_IP6_HI.ADDR

/-- A record of R416 or R417 goes to the RAS log (R418) and to the event ring when that has room (R295). -/
def State.emitRecord (s : State) (rec : List Byte) : State :=
  let full := s.ras.log.length ≥ 65536
  let s := if full then s.bump R.RAS_CNT_LOG_WRAP else s
  let s := { s with ras := { s.ras with log := (if full then s.ras.log.drop 1 else s.ras.log) ++ [rec] } }
  let s := s.put F.RAS_SEQ.NEXT (s.get F.RAS_SEQ.NEXT + 1)
  let r := s.get F.HIF_EVT.RING
  let pf0 := match s.ring r with
    | some x => x.fn = 0
    | none => false
  if pf0 && s.resultRoom r 1 then s.pushRun r ⟨.event, [rec]⟩ else s.bump R.HIF_CNT_EVT_DROP

/-- A health record (R417). -/
def State.health (s : State) (kind cause streams a0 a1 a2 index : Nat) : State :=
  s.emitRecord ([0x20#8] ++ leBytes 1 kind ++ leBytes 2 cause ++ leBytes 4 (s.get F.RAS_SEQ.NEXT) ++ leBytes 8 s.time ++
    leBytes 16 streams ++ leBytes 8 a0 ++ leBytes 8 a1 ++ leBytes 8 a2 ++ leBytes 2 s.devNum ++ leBytes 2 index ++ zeros 4)

/-- Kinds of health record (R417). -/
def hEvent : Nat := 0
def hBegin : Nat := 1
def hEnd : Nat := 2

/-- Classes of error (R414). -/
inductive ErrClass where
  | corrected | recovered | degraded | fatal
  deriving DecidableEq, Repr

/-- Coding of the classes (R416). -/
def ErrClass.code : ErrClass → Nat
  | .corrected => 0
  | .recovered => 1
  | .degraded => 2
  | .fatal => 3

/-- What an error record says (R416). -/
structure ErrInfo where
  cls : ErrClass
  part : Nat
  index : Nat
  cond : Nat
  streams : Nat
  flags : Nat
  resume : Nat
  occ : Nat
  addr : Nat
  usable : Nat
  deriving DecidableEq, Repr

/-- Functions that are enabled: PF0 and every enabled VF (R415). -/
def State.enabledFns (s : State) : List Nat :=
  0 :: ((List.range 63).map (· + 1)).filter (fun f => s.flag (F.HIF_FN_CFG.ENABLE f))

/-- An error record whose detection field holds `at'` is written, its class becomes pending and is signalled (R415, R416,
R437). -/
def State.errRecordAt (s : State) (e : ErrInfo) (at' : Nat) : State :=
  let seq := s.get F.RAS_SEQ.NEXT
  let s := s.emitRecord ([0x21#8] ++ leBytes 1 e.cls.code ++ leBytes 1 e.part ++ leBytes 1 e.flags ++ leBytes 4 seq ++
    leBytes 8 at' ++ leBytes 8 e.resume ++ leBytes 2 e.index ++ leBytes 2 e.cond ++ leBytes 4 e.occ ++
    leBytes 16 e.streams ++ leBytes 8 e.addr ++ leBytes 4 e.usable ++ leBytes 2 s.devNum ++ zeros 2)
  let s := s.put F.RAS_PEND.CLASS (s.get F.RAS_PEND.CLASS ||| 2 ^ e.cls.code)
  match e.cls with
  | .corrected => s
  | .recovered =>
    let s := s.bump R.RAS_CNT_RECOV
    if s.flag F.RAS_CTL.AER_CIE then s.emit (.aer 0 false) else s
  | .degraded =>
    let s := s.bump R.RAS_CNT_DEGR
    if s.flag F.RAS_CTL.AER_CIE then s.emit (.aer 0 false) else s
  | .fatal => s.each s.enabledFns (fun s f => s.emit (.aer f true))

/-- An error record (R416). -/
def State.errRecord (s : State) (e : ErrInfo) : State := s.errRecordAt e s.time

/-- Level of FAULT_N asserted (R415). -/
def State.faultAsserted (s : State) : Bool :=
  s.flag F.RAS_PEND.FATAL || (s.get F.RAS_PEND.CLASS &&& (s.get F.RAS_CTL.FAULT_MASK ||| 8)) ≠ 0

/-- A CORRECTED error: recorded at once, or gathered for 1 ms with those of the same part (R416). -/
def State.corrected (s : State) (part index cond streams addr : Nat) : State :=
  let s := s.bump R.RAS_CNT_CORR
  if s.flag F.RAS_CTL.CE_MERGE then
    if s.ras.merging.any (fun m => m.part = part && m.index = index) then
      { s with ras := { s.ras with merging := s.ras.merging.map (fun m =>
          if m.part = part && m.index = index then { m with count := m.count + 1 } else m) } }
    else { s with ras := { s.ras with merging := s.ras.merging ++ [⟨part, index, s.time, 1, addr, cond, streams⟩] } }
  else s.errRecord ⟨.corrected, part, index, cond, streams, 0, 0, 1, addr, 0⟩

/-! ### Suspensions -/

/-- Suspension causes (R245). -/
def cWithdrawn : Nat := 1
def cRingFull : Nat := 2
def cBelowFloor : Nat := 3
def cSpacing : Nat := 4
def cTakeover : Nat := 5
def cRemap : Nat := 6

/-- Streams for which a cause holds now. -/
def State.suspended (s : State) (cause : Nat) : Nat :=
  unionAll ((s.ras.susp.filter (fun x => x.cause = cause && x.doneAt.isNone)).map (fun x => x.streams))

/-- True while some cause holds for a stream (R11). -/
def State.isSuspended (s : State) (i : Nat) : Bool :=
  s.ras.susp.any (fun x => x.doneAt.isNone && x.streams.testBit i)

/-- Closed slices of the streams of a set that no released instant reflects yet. -/
def State.openWork (s : State) (m : Nat) : List (Nat × Nat) :=
  (s.hg.lists.filter (fun d => m.testBit d.stream &&
    (match tabFind s.hg.streams d.stream with
     | some st => (match tabFind st.reflected d.group with
        | some k => decide (k < d.k)
        | none => true)
     | none => true))).map (fun d => (d.stream, d.k))

/-- Remove the members of `b` from `a`. -/
def setMinus (a b : Nat) : Nat := a &&& (a ^^^ (a &&& b))

/-- The suspensions changed one by one, those without a stream left out. -/
def State.mapSusp (s : State) (f : Susp → Susp) : State :=
  { s with ras := { s.ras with susp := (s.ras.susp.map f).filter (fun x => x.streams ≠ 0) } }

/-- The state with one more suspension. -/
def State.addSusp (s : State) (x : Susp) : State := { s with ras := { s.ras with susp := s.ras.susp ++ [x] } }

/-- A suspension without some streams. -/
def Susp.drop (x : Susp) (m : Nat) : Susp := { x with streams := setMinus x.streams m }

/-- A cause begins for streams: it covers those for which it does not already hold, marks their closed slices and writes
one health record (R11, R245). -/
def State.beginSusp (s : State) (cause streams arg0 : Nat) : State :=
  let new := setMinus streams (s.suspended cause)
  if new = 0 then s
  else
    let s1 := s.addSusp ⟨cause, new, s.time, none⟩
    let s2 := { s1 with ras := { s1.ras with marks := s1.ras.marks ++ (s1.openWork new).map (fun (p : Nat × Nat) => (cause, p.1, p.2)) } }
    s2.health hBegin cause new arg0 0 0 0

/-- The cause stops holding for streams whose suspension ends at once (FAULT_SPACING, GROUP_REMAP, BUDDY_TAKEOVER):
one health record END names them (R10, R11). -/
def State.endSusp (s : State) (cause streams arg0 : Nat) : State :=
  let gone := streams &&& s.suspended cause
  if gone = 0 then s
  else (s.mapSusp (fun x => if x.cause = cause then x.drop gone else x)).health hEnd cause gone arg0 0 0 0

/-- The cause stops holding for streams whose suspension ends at their next slice closed or record written (R10). -/
def State.overSusp (s : State) (cause streams : Nat) : State :=
  let gone := streams &&& s.suspended cause
  if gone = 0 then s
  else (s.mapSusp (fun x => if x.cause = cause && x.doneAt.isNone then x.drop gone else x)).addSusp
    ⟨cause, gone, s.time, some s.time⟩

/-- A suspension whose cause was over before `t`. -/
def Susp.overBefore (x : Susp) (t : Nat) : Bool :=
  match x.doneAt with
  | some o => decide (o < t)
  | none => false

/-- The suspensions of a stream whose cause is over end at a slice closed after that time: a health record END for each
(R10, R245). -/
def State.closeSusp (s : State) (i : Nat) : State :=
  let ended := s.ras.susp.filter (fun x => x.streams.testBit i && x.overBefore s.time)
  (s.mapSusp (fun x => if x.streams.testBit i && x.overBefore s.time then x.drop (streamBit i) else x)).each ended
    (fun s x => s.health hEnd x.cause (streamBit i) 0 0 0 0)

/-- The suspensions of stream i that satisfy `p` end: a health record END for each (R245). -/
def State.dropSusp (s : State) (i : Nat) (p : Susp → Bool) : State :=
  let mine := s.ras.susp.filter (fun x => x.streams.testBit i && p x)
  (s.mapSusp (fun x => if p x then x.drop (streamBit i) else x)).each mine (fun s x => s.health hEnd x.cause (streamBit i) 0 0 0 0)

/-- The suspensions of a stream whose closing records are out end with it, those whose cause is over too (R10, R11; DEDUCED, log
entry 87). -/
def State.endStream (s : State) (i : Nat) : State := s.dropSusp i (fun _ => true)

/-- A slot that opens again leaves the withdrawal, and what was over or was owed to the power floor, of its earlier stream behind
(R10, R11; DEDUCED, log entry 87). -/
def State.endLife (s : State) (i : Nat) : State :=
  s.dropSusp i (fun x => x.cause = cWithdrawn || x.cause = cBelowFloor || x.doneAt.isSome)

/-- True when slice `k` of stream `i` lies within a suspension (R11): it was marked, or a cause holds now. -/
def State.sliceSuspended (s : State) (i k : Nat) : Bool :=
  s.ras.marks.any (fun m => m.2 = (i, k)) || s.isSuspended i

/-- The causes that hold for a stream now. -/
def State.causesOf (s : State) (i : Nat) : List Nat :=
  (s.ras.susp.filter (fun x => x.doneAt.isNone && x.streams.testBit i)).map (fun x => x.cause)

/-! ### Single-part faults -/

/-- Parts, as TEST_FAULT codes them, and the further parts of R416. -/
def pTile : Nat := 1
def pFurrow : Nat := 2
def pCoppice : Nat := 3
def pCore : Nat := 4
def pPseudo : Nat := 5
def pLink : Nat := 6
def pQueue : Nat := 7
def pPort : Nat := 8
def pDram : Nat := 9
def pComponent : Nat := 10
def pHost : Nat := 11
def pOther : Nat := 12

/-- 10 ms, the least spacing of faults (R9). -/
def spacingNs : Nat := 10000000

/-- True for a part that TEST_FAULT made to fail. -/
def State.isInjected (s : State) (part index : Nat) : Bool := s.aid.tests.any (fun (x : Injected) => x.part = part && x.index = index)

/-- Flag INJECTED of a part's error records (R416). -/
def State.testFlag (s : State) (part index : Nat) : Nat := bit (s.isInjected part index)

/-- The injected part changed. -/
def State.mapTest (s : State) (part index : Nat) (f : Injected → Injected) : State :=
  { s with aid := { s.aid with tests := s.aid.tests.map (fun (x : Injected) => if x.part = part && x.index = index then f x else x) } }

/-- The detection of an injected part is noted for its command (R382): 0 for the resumption when nothing is interrupted. -/
def Injected.seen (x : Injected) (t streams : Nat) : Injected :=
  match x.detected with
  | some _ => x
  | none => { x with detected := some (t, if streams = 0 then 0 else t) }

/-- A single-part fault is detected: its RECOVERED record, the spacing of R420 and the time of the last fault.  The
resumption time is that of the detection (DESIGN CHOICE, log entry 12), 0 when nothing was interrupted (R416). -/
def State.singlePartFault (s : State) (part index cond streams addr usable flags : Nat) : State :=
  let spaced := s.ras.anyFault && decide (s.time < s.get F.RAS_LAST_FAULT.TIME + spacingNs)
  let seq := s.get F.RAS_SEQ.NEXT
  let s := s.errRecord ⟨.recovered, part, index, cond, streams, flags ||| (if spaced then 2 else 0),
    if streams = 0 then 0 else s.time, 1, addr, usable⟩
  let s := s.put F.RAS_LAST_FAULT.TIME s.time
  let s := { s with ras := { s.ras with anyFault := true } }
  let s := s.mapTest part index (fun x => x.seen s.time streams)
  if spaced then
    let s := s.bump R.RAS_CNT_SPACED
    if streams = 0 then s
    else ((s.beginSusp cSpacing streams seq).mapSusp (fun x => if x.cause = cSpacing then x.drop streams else x)).addSusp
      ⟨cSpacing, streams, s.time, none⟩
  else s

/-- A part stays out of service: the DEGRADED record and its health record (R414, R417). -/
def State.degraded (s : State) (part index cond streams usable flags floor : Nat) : State :=
  let s := s.errRecord ⟨.degraded, part, index, cond, streams, flags, 0, 1, 0, usable⟩
  let s := s.mapTest part index (fun x => { x with degraded := true })
  s.health hEvent 0x10 streams (part + 256 * index) floor 0 index

/-- Admission is withdrawn from the admitted streams of a set: cause ADMISSION_WITHDRAWN begins (R10, R242). -/
def State.withdraw (s : State) (m : Nat) : State :=
  let gone := m &&& s.adm.admitted
  if gone = 0 then s
  else ({ s with adm := { s.adm with
    admitted := setMinus s.adm.admitted gone, withdrawn := s.adm.withdrawn ||| gone } }).beginSusp cWithdrawn gone 0

/-- An admission evaluation is asked for (R228): a recomputation caused by a fault goes ahead of waiting requests. -/
def State.askCapacity (s : State) : State :=
  if s.aid.evals.head? = some Eval.capacity then s
  else { s with aid := { s.aid with evals := .capacity :: s.aid.evals } }

/-! ### Model images -/

/-- The image slot of a number, if not EMPTY. -/
def State.slot (s : State) (n : Nat) : Option ImgSlot := tabFind s.img.slots n

def State.setSlot (s : State) (n : Nat) (x : ImgSlot) : State := { s with img := { s.img with slots := tabInsert s.img.slots n x } }

/-- The slot that applies to slice k, given the present slot and the switch behind it (R368). -/
def slotAtSlice (cur : Option Nat) (old : Option (Nat × Nat)) (k : Nat) : Option Nat :=
  match old with
  | some (first, before) => if k < first then some before else cur
  | none => cur

/-- Image slot under which slice k of a stream runs (R364, R368). -/
def State.slotFor (s : State) (i k : Nat) : Option Nat := slotAtSlice (tabFind s.img.streamSlot i) (tabFind s.img.streamOld i) k

/-- Fusion slot of a group for instant k (R363, R368). -/
def State.fusionFor (s : State) (g k : Nat) : Option Nat := slotAtSlice (tabFind s.img.fusionSlot g) (tabFind s.img.fusionOld g) k

/-- Streams that an image slot serves. -/
def State.slotStreams (s : State) (n : Nat) : Nat :=
  unionAll ((s.img.streamSlot.filter (fun p => p.2 = n && s.streamState p.1 ≠ 0)).map (fun p => streamBit p.1))

/-- The ACTIVE slot whose netlist uses a logical furrow core. -/
def State.coreSlot (s : State) (l : Nat) : Option Nat :=
  (s.img.slots.find? (fun p => p.2.active && p.2.image.cores.any (fun c => c.logical = l))).map (fun p => p.1)

end Sys2Proof.Machine
end

