-- ==== Sys2Proof/Machine/Culvert.lean ====
section
/-!
DEFINITION. Sending over Culvert as shared operations (R404–R406): peers, link members, sequences and headers.
-/

namespace Sys2Proof.Machine

def CvPeer.empty : CvPeer := ⟨0, 0, [], 0, 0, [], [], 0⟩
def CvChan.empty : CvChan := ⟨1, [], [], 0⟩

def State.peer (s : State) (k : Nat) : CvPeer := tabGet CvPeer.empty s.net.peers k

def State.setPeer (s : State) (k : Nat) (x : CvPeer) : State := { s with net := { s.net with peers := tabInsert s.net.peers k x } }

/-- The enabled peer of a device number (R409). -/
def State.peerOf (s : State) (dev : Nat) : Option Nat :=
  (List.range 16).find? (fun k => s.flag (F.NET_PEER_CTL.ENABLE k) && s.get (F.NET_PEER_CTL.DEVNUM k) = dev)

/-- A peer is up (R404). -/
def State.peerUp (s : State) (k : Nat) : Bool := s.get (F.NET_PEER_STAT.STATE k) = 2

/-- A port is in service (R385, R386). -/
def State.portUp (s : State) (p : Nat) : Bool := s.flag (F.NET_PORT_STAT.LINK p) && !s.flag (F.NET_PORT_STAT.FAILED p)

/-- The port that a datagram to a camera leaves on: the one that its last batch came in on, or 16 when that port has
failed and the bridge decides (R386). -/
def State.outPort (s : State) (p : Nat) : Nat := if p ≥ 16 || s.flag (F.NET_PORT_STAT.FAILED p) then 16 else p

/-- Link members of a peer, rising (R406). -/
def State.members (s : State) (k : Nat) : List Nat := (List.range 16).filter (fun p => (s.get (F.NET_PEER_CTL.LINKS k)).testBit p)

/-- The member that carries a stream's traffic: member s mod m, or the next one in service (R406). -/
def State.memberFor (s : State) (k stream : Nat) : Nat :=
  let ms := s.members k
  let i := stream % max ms.length 1
  match (ms.drop i ++ ms.take i).find? s.portUp with
  | some p => p
  | none => s.get (F.NET_PEER_CTL.PORT k)

/-- The port of a peer's control traffic: its primary port, or the alternate one while that is out of service (R408). -/
def State.controlPort (s : State) (k : Nat) : Nat :=
  let p := s.get (F.NET_PEER_CTL.PORT k)
  if !s.portUp p && s.flag (F.NET_PEER_CTL.ALT_EN k) then s.get (F.NET_PEER_CTL.ALT_PORT k) else p

/-- Every path to a peer, once each. -/
def State.paths (s : State) (k : Nat) : List Nat :=
  (s.get (F.NET_PEER_CTL.PORT k) :: ((if s.flag (F.NET_PEER_CTL.ALT_EN k) then [s.get (F.NET_PEER_CTL.ALT_PORT k)] else []) ++
    s.members k)).eraseDups

def CvPeer.chan (x : CvPeer) (key : Nat) : CvChan := tabGet CvChan.empty x.chans key
def CvPeer.setChan (x : CvPeer) (key : Nat) (c : CvChan) : CvPeer := { x with chans := tabInsert x.chans key c }

/-- Key of a channel over a port. -/
def chanKey (chan port : Nat) : Nat := 16 * chan + port

/-- A Culvert datagram (R404). -/
def State.cvBytes (s : State) (k chan port type seq flags : Nat) (payload : List Byte) : List Byte :=
  let x := s.peer k
  let h := fieldsBytes [(2, 0xC71B), (1, 1), (1, type), (2, s.devNum), (2, s.get (F.NET_PEER_CTL.DEVNUM k)), (4, seq),
    (4, if chan = 0 then 0 else (x.chan (chanKey chan port)).taken), (2, payload.length), (1, chan), (1, flags),
    (4, if type = 0x09 then 0 else x.theirs), (4, crc32c payload)]
  withCrc h ++ payload

/-- A message on an unreliable channel, or an acknowledgement. -/
def State.cvEmit (s : State) (k chan port type seq flags : Nat) (payload : List Byte) : State :=
  s.emit (.culvert k port (s.cvBytes k chan port type seq flags payload))

/-- A message on a reliable channel over a port: sent with the next sequence, or held behind 1,024 unacknowledged ones
(R405). -/
def State.cvSend (s : State) (k chan port type : Nat) (payload : List Byte) : State :=
  let x := s.peer k
  let key := chanKey chan port
  let c := x.chan key
  if c.unacked.length ≥ 1024 then s.setPeer k (x.setChan key { c with wait := c.wait ++ [(type, payload)] })
  else (s.cvEmit k chan port type c.next 0 payload).setPeer k (x.setChan key { c with
    next := (c.next + 1) % 2 ^ 32, unacked := c.unacked ++ [(⟨c.next, type, payload, s.time, 0⟩ : CvMsg)] })

/-- A message to the buddy for a stream, on the link member that carries it (R406, R428); nothing without an up buddy. -/
def State.toBuddy (s : State) (chan type stream : Nat) (payload : List Byte) : State :=
  match s.peerOf (s.get F.RAS_BUDDY.PEER) with
  | some k => if s.peerUp k then s.cvSend k chan (if chan = 3 then s.controlPort k else s.memberFor k stream) type payload else s
  | none => s

/-- A heartbeat leaves: its channel counts what it sends over a port and keeps nothing (R405, R407). -/
def State.cvBeat (s : State) (k port : Nat) (alt : Bool) (payload : List Byte) : State :=
  let x := s.peer k
  let c := x.chan (chanKey 0 port)
  (s.cvEmit k 0 port 0x01 c.next (2 * bit alt) payload).setPeer k (x.setChan (chanKey 0 port) { c with next := (c.next + 1) % 2 ^ 32 })

/-! ### Mirrored configuration (R428, R429) -/

/-- A ring-table entry of 64 bytes: number, kind, class, log2 of the entries, PASID in use, PASID, epoch, base, function,
vector, coalescing (DESIGN CHOICE, log entry 46); kind 0 for a ring that is gone. -/
def Ring.entry (x : Ring) (r : Nat) : List Byte :=
  fieldsBytes [(2, r), (1, match x.kind with
      | .submit => 1
      | .inject => 2
      | .complete => 3
      | .result => 4
      | .log => 5),
    (1, x.cls), (1, x.logN), (1, bit x.pasid.isSome), (2, x.epoch), (8, x.base), (4, x.pasid.getD 0), (2, x.fn), (2, x.vec),
    (2, x.nc), (2, x.nt), (36, 0)]

/-- Registers of the stream, group and export configuration (R428): those of the committed groups of HG streams, FW maps,
CP groups, CP members and export queues. -/
def isMirrored (a : Nat) : Bool :=
  match groupAt a with
  | some c => (List.range 128).any (fun i => c = R.HG_STREAM_COMMIT i || c = R.FW_MAP_COMMIT i || c = R.CP_MBR_COMMIT i) ||
      (List.range 32).any (fun g => c = R.CP_GRP_COMMIT g || c = R.NET_EXP_COMMIT g)
  | none => false

/-- Enabled groups, as a bit mask. -/
def State.ownGroups (s : State) : Nat := unionAll (((List.range 32).filter (fun g => s.flag (F.CP_GRP_CTL.ENABLE g))).map streamBit)

/-- A PAIR message (R429). -/
def State.pairBytes (s : State) (op : Nat) : List Byte :=
  fieldsBytes [(1, op), (7, 0), (16, s.ownStreams), (4, s.ownGroups), (4, 0)]

/-- A CONFIG message of at most 256 registers and 32 ring-table entries: the counts stand in bytes 2–3 and 4–5, the newest
configuration epoch in bytes 28–31 (DESIGN CHOICE, log entry 46). -/
def State.configBytes (s : State) (regs : List (Nat × Word)) (rings : List (Nat × List Byte)) : List Byte :=
  fieldsBytes [(1, 5), (1, 0), (2, regs.length), (2, rings.length), (2, 0), (16, s.ownStreams), (4, s.ownGroups),
    (4, maxNat (s.img.slots.map (fun p => p.2.epoch)))] ++
  regs.flatMap (fun p => fieldsBytes [(4, p.1), (2, 1), (1, 1), (1, 0), (8, p.2.toNat)]) ++ rings.flatMap (fun p => p.2)

/-- Changes of the mirrored configuration since the last message go to the buddy (R428). -/
def State.mirrorConfig (s : State) : State :=
  if !s.flag F.HG_CTL.MIRROR then s
  else
    let regs := s.regs.filter (fun p => tabFind s.bud.sent p.1 ≠ some p.2 && isMirrored p.1)
    let now := s.hif.rings.map (fun p => (p.1, p.2.entry p.1))
    let gone := s.bud.sentRings.filter (fun p => (s.ring p.1).isNone)
    let rings := now.filter (fun p => tabFind s.bud.sentRings p.1 ≠ some p.2) ++
      gone.map (fun p => (p.1, fieldsBytes [(2, p.1), (62, 0)]))
    if regs.isEmpty && rings.isEmpty then s
    else
      let s := { s with bud := { s.bud with
        sent := regs.foldl (fun (t : Tab Word) (p : Nat × Word) => tabInsert t p.1 p.2) s.bud.sent, sentRings := now } }
      s.each (List.range (max (ceilDiv regs.length 256) (ceilDiv rings.length 32))) (fun s n =>
        s.toBuddy 3 0x07 0 (s.configBytes ((regs.drop (256 * n)).take 256) ((rings.drop (32 * n)).take 32)))

end Sys2Proof.Machine
end

