-- ==== Sys2Proof/Machine/Contexts.lean ====
section
/-!
DEFINITION. Command contexts and completions as shared operations (R293, R326), and the FATAL error (R419).
-/

namespace Sys2Proof.Machine

/-- The context of a command in progress. -/
def State.ctx (s : State) (ring seq : Nat) : Option Ctx := s.aid.ctxs.find? (fun c => c.ring = ring && c.seq = seq)

/-- The state with a context replaced. -/
def State.setCtx (s : State) (c : Ctx) : State :=
  { s with aid := { s.aid with ctxs := s.aid.ctxs.map (fun x => if x.ring = c.ring && x.seq = c.seq then c else x) } }

/-- Fields of a command descriptor (R290). -/
def Ctx.opcode (c : Ctx) : Nat := fieldAt c.desc 0 1
def Ctx.flags (c : Ctx) : Nat := fieldAt c.desc 1 1
def Ctx.tag (c : Ctx) : Nat := fieldAt c.desc 2 2
def Ctx.session (c : Ctx) : Nat := fieldAt c.desc 4 4
def Ctx.listLen (c : Ctx) : Nat := fieldAt c.desc 12 4
/-- Inline parameter bytes `i` to `i + n − 1`, counted from byte 0 of the descriptor (R290). -/
def Ctx.p (c : Ctx) (i n : Nat) : Nat := fieldAt c.desc i n

/-- A completion entry (R293): `data` are bytes 16–29. -/
def completionEntry (status tag seq ring h : Nat) (data : List Byte) : List Byte :=
  leBytes 2 status ++ leBytes 2 tag ++ leBytes 4 seq ++ leBytes 2 ring ++ zeros 2 ++ leBytes 4 h ++
    (data ++ zeros 14).take 14 ++ zeros 2

/-- A completion goes to the COMPLETE ring bound to its submitting ring; that of the management window's pseudo-ring to
the window, that of the management bus's to the bus (R325, R332, R489). -/
def State.postCompletion (s : State) (ring : Nat) (noIrq : Bool) (entry : List Byte) : State :=
  if ring = 0x2000 then { s with aid := { s.aid with mw := { s.aid.mw with cpl := entry, busy := false } } }
  else if ring = 0x2001 then { s with aid := { s.aid with bus := { s.aid.bus with cpl := entry, busy := false } } }
  else match s.ring ring with
    | some x => s.pushRun x.complete ⟨.completion noIrq, [entry]⟩
    | none => s

/-- CRC-32C over descriptor bytes 0–1 and 8–63 (R326). -/
def descCrc (d : List Byte) : Nat := crc32c (sliceAt d 0 2 ++ sliceAt d 8 56)

/-- The completion of a repeat (R327): ALREADY_DONE with the original status and data. -/
def repeatEntry (r : Repeat) (orig : List Byte) : List Byte :=
  completionEntry 0x0002 r.tag r.seq r.ring r.hAfter (sliceAt orig 0 2 ++ sliceAt orig 16 12)

/-- A command completes: DONE and its completion go to the completion journal, its context ends, and repeats that waited
for it complete (R326, R327). -/
def State.complete (s : State) (c : Ctx) (status : Nat) (data : List Byte) : State :=
  let entry := completionEntry status c.tag c.seq c.ring c.hAfter data
  let mine := s.aid.repeats.filter (fun (r : Repeat) => r.ring = c.ring && r.seq = c.seq)
  let s1 := { s with aid := { s.aid with
    ctxs := s.aid.ctxs.filter (fun x => !(x.ring = c.ring && x.seq = c.seq))
    repeats := s.aid.repeats.filter (fun (r : Repeat) => !(r.ring = c.ring && r.seq = c.seq))
    done := s.aid.done ++ [(⟨c.ring, c.seq, descCrc c.desc, c.steps, entry⟩ : Done)] } }
  (s1.postCompletion c.ring (c.flags.testBit 2) entry).each mine (fun s r =>
    s.postCompletion r.ring r.noIrq (repeatEntry r entry))

/-- The completion of an injected batch. -/
def Run.isInjection (r : Run) : Bool :=
  match r.kind with
  | .injection _ _ => true
  | _ => false

/-- A FATAL error is detected (R419): acceptance and dispatch stop, commands in progress and fetched injection descriptors
complete with DEVICE_FAULT (0x0502), the record becomes the last run of the event ring, FAULT_N and AER signal it. -/
def State.fatal (s : State) (part index cond streams addr : Nat) : State :=
  let first := !s.flag F.RAS_PEND.FATAL
  let seq := s.get F.RAS_SEQ.NEXT
  let s := s.put F.RAS_PEND.FATAL 1
  let s := if first then (s.put F.RAS_FATAL.SEQ seq).put F.RAS_FATAL.PART part else s
  let s := s.each s.aid.ctxs (fun s c => s.complete c 0x0502 [])
  let injs := s.hif.rings.filter (fun p => p.2.kind = .inject)
  let s := s.each s.hif.rings (fun s p => s.setRing p.1 { p.2 with
    fetched := [], wait := p.2.wait.filter (fun w => !w.isInjection)
    pending := match p.2.wait with
      | w :: _ => if w.isInjection then none else p.2.pending
      | [] => none })
  let s := s.each (injs.flatMap (fun (p : Nat × Ring) => p.2.fetched.map (fun d => (p.1, d)))) (fun s p =>
    s.postCompletion p.1 false
      (completionEntry 0x0502 (fieldAt p.2.desc 2 2) (fieldAt p.2.desc 8 4) p.1 p.2.hAfter []))
  let s := s.errRecord ⟨.fatal, part, index, cond, streams, 0, 0, 1, addr, 0⟩
  if s.get F.RAS_BUDDY.STATE = 2 then
    let msg := leBytes 1 1 ++ zeros 7 ++ leBytes 8 s.time
    let s := match s.peerOf (s.get F.RAS_BUDDY.PEER) with
      | some k => s.each (s.paths k) (fun s p => s.cvSend k 3 p 0x08 msg)
      | none => s
    { s with ras := { s.ras with silent := true } }
  else s

/-- True when the device accepts and delivers nothing: after a FATAL error or while FENCED (R419, R432). -/
def State.mute (s : State) : Bool := s.dead || s.flag F.RAS_BUDDY.FENCED

end Sys2Proof.Machine
end

