-- ==== Sys2Proof/Machine/Journal.lean ====
section
/-!
DEFINITION. The ingest journal as shared operations: entries and their lengths (R50), the space they take, and their
release (R424, R425).
-/

namespace Sys2Proof.Machine

def Tracked.empty : Tracked := ⟨0, 0, none, 0, none, [], [], false⟩

def StreamSt.empty : StreamSt :=
  ⟨none, 0, 0, 0, 0, [], none, none, (0, 0, 0), none, Tracked.empty, none, [], [], [], [], false, none, 0, [], [], 0, none, none, [], none, none⟩

def State.stream (s : State) (i : Nat) : StreamSt := tabGet StreamSt.empty s.hg.streams i

def State.setStream (s : State) (i : Nat) (x : StreamSt) : State := { s with hg := { s.hg with streams := tabInsert s.hg.streams i x } }

/-- Length in bytes of the journal entry of a batch of n words: entry header, batch header and payload padded to a
multiple of 64 (R50). -/
def entryLen (n : Nat) : Nat := 64 + ceilDiv (32 + 4 * n) 64 * 64

/-- Journal space in bytes, and what the entries take. -/
def State.jrnSize (s : State) : Nat := s.get F.HG_JRN_SIZE.SIZE_MIB * 0x100000
def State.jrnUsed (s : State) : Nat := sumNat (s.hg.journal.map (fun e => entryLen e.batch.n))
def State.jrnFree (s : State) : Nat := s.jrnSize - s.jrnUsed

/-- HG_JRN_STAT shows the entries and the free space (R67). -/
def State.jrnShow (s : State) : State :=
  (s.put F.HG_JRN_STAT.ENTRIES s.hg.journal.length).put F.HG_JRN_STAT.FREE_KIB (s.jrnFree / 1024)

/-- The 64-byte header of a journal entry (R50). -/
def JEntry.header (e : JEntry) : List Byte :=
  withCrc (leBytes 1 e.stream ++ leBytes 1 (match e.phase with
      | .accepted => 2
      | _ => 1) ++
    leBytes 1 (bit e.mirrored + 2 * bit e.injected + 4 * bit e.onRecovery) ++ zeros 1 ++ leBytes 4 e.seq ++
    leBytes 8 e.acceptT ++ leBytes 8 e.arrivalT ++
    (match e.first with
      | some k => leBytes 8 k ++ leBytes 4 (e.last - k)
      | none => List.replicate 12 0xFF#8) ++
    leBytes 2 e.batch.n ++ leBytes 2 (entryLen e.batch.n / 64) ++ leBytes 8 (fromSigned 64 e.offset) ++
    leBytes 4 (fromSigned 32 e.rate) ++ leBytes 4 e.refTime ++ leBytes 4 e.batch.status)

/-- The whole entry: header and the batch padded with zeros (R50). -/
def JEntry.bytes (e : JEntry) : List Byte := e.header ++ padTo 64 e.batch.bytes

/-- Entries of one stream, oldest first. -/
def State.entriesOf (s : State) (i : Nat) : List JEntry := s.hg.journal.filter (fun e => e.stream = i)

/-- Delivery state of a group (R424). -/
def State.rel (s : State) (g : Nat) : Rel := tabGet ⟨none, none, none⟩ s.ras.rel g

def State.setRel (s : State) (g : Nat) (x : Rel) : State := { s with ras := { s.ras with rel := tabInsert s.ras.rel g x } }

/-- `k` is at or below a mark. -/
def reached (m : Option Nat) (k : Nat) : Bool :=
  match m with
  | some x => decide (k ≤ x)
  | none => false

/-- The larger of a mark and `k`. -/
def raise (m : Option Nat) (k : Nat) : Option Nat :=
  match m with
  | some x => some (max x k)
  | none => some k

/-- Slice k of a stream, cut for group g, is reflected in an instant whose run is consumed, its view record too where one
was written, and whose checkpoint has completed (conditions 1 and 2 of R425). -/
def State.sliceDone (s : State) (i g k : Nat) : Bool :=
  match tabFind (s.stream i).refl (reflKey g k) with
  | some n => reached (s.rel g).cons n && reached (s.rel g).ckpt n && !(s.stream i).viewOwed.contains (g, k)
  | none => false

/-- Conditions 1 and 2 of R425 for an entry: every one of its slices is done. -/
def State.covered (s : State) (e : JEntry) : Bool :=
  match e.first with
  | none => false
  | some k0 => e.phase = .accepted && (List.range (e.last + 1 - k0)).all (fun j => s.sliceDone e.stream e.group (k0 + j))

/-- How many of the oldest entries of a stream may be released (R51, R425): with `keep` the newest ACCEPTED entry stays. -/
def State.releasable (s : State) (keep : Bool) : List JEntry → Nat
  | [] => 0
  | e :: r => if s.covered e && (!keep || r.any (fun x => x.phase = .accepted)) then 1 + s.releasable keep r else 0

/-- Drop the first `n` entries of a stream. -/
def dropEntries (i : Nat) : List JEntry → Nat → List JEntry
  | [], _ => []
  | e :: r, n => if e.stream = i then (match n with
      | 0 => e :: r
      | m + 1 => dropEntries i r m) else e :: dropEntries i r n

/-- A closed slice is still needed: an entry that may hold events of it is not released, or it is not done (R425). -/
def State.listNeeded (s : State) (d : SliceDesc) : Bool :=
  (s.entriesOf d.stream).any (fun e => e.group = d.group && (match e.first with
    | some k => decide (k ≤ d.k)
    | none => true)) || !s.sliceDone d.stream d.group d.k

/-- Entries of a stream whose conditions hold are released, with the event lists of the slices that no entry needs
(R425); in buddy mode the buddy is told. -/
def State.releaseStream (s : State) (i : Nat) : State :=
  let es := s.entriesOf i
  let n := s.releasable (s.streamState i ≠ 0) es
  let lastSeq := match es.drop (n - 1) with
    | e :: _ => e.seq
    | [] => 0
  let s := { s with hg := { s.hg with journal := dropEntries i s.hg.journal n } }
  let s := { s with hg := { s.hg with lists := s.hg.lists.filter (fun d => d.stream ≠ i || s.listNeeded d) } }
  if n = 0 then s
  else
    let s := s.jrnShow
    if s.flag F.HG_CTL.MIRROR then
      s.toBuddy 1 0x03 i (leBytes 2 1 ++ leBytes 4 i ++ leBytes 4 lastSeq)
    else s

/-- Release for every stream of a group, and for those that still have entries of it. -/
def State.releaseGroup (s : State) (g : Nat) : State :=
  s.each ((List.range 128).filter (fun i => s.get (F.HG_STREAM_CTL.GROUP i) = g || (s.entriesOf i).any (fun e => e.group = g)))
    (fun s i => s.releaseStream i)

/-- The features of an instant are retained until its slot checkpoint has completed and its record is delivered (R196). -/
def State.dropRetained (s : State) (g : Nat) : State :=
  match tabFind s.cp.groups g with
  | none => s
  | some x => { s with cp := { s.cp with groups := tabInsert s.cp.groups g { x with
      retained := x.retained.filter (fun r => !(reached (s.rel g).vis r.k && reached (s.rel g).ckpt r.k)) } } }

/-- View records whose slice record is delivered follow it into the view ring (R217, R244). -/
def State.pushViews (s : State) (g : Nat) : State :=
  let due := s.cp.views.filter (fun v => v.1 = g && reached (s.rel g).vis v.2.1)
  let s := { s with cp := { s.cp with views := s.cp.views.filter (fun v => !(v.1 = g && reached (s.rel g).vis v.2.1)) } }
  s.each due (fun s v => s.pushRun (s.get (F.CP_GRP_RPT.VIEW_RING g)) v.2.2)

/-- The run of instant k of a group is delivered: K_vis (R424). -/
def State.delivered (s : State) (g k : Nat) : State :=
  ((s.setRel g { s.rel g with vis := raise (s.rel g).vis k }).dropRetained g).pushViews g

/-- A run has been consumed by the host (R425). -/
def State.consumed (s : State) (k : RunKind) : State :=
  match k with
  | .slice g n => if reached (s.rel g).vis n then (s.setRel g { s.rel g with cons := raise (s.rel g).cons n }).releaseGroup g else s
  | .view g i n =>
    (s.setStream i { s.stream i with viewOwed := (s.stream i).viewOwed.filter (fun p => p ≠ (g, n)) }).releaseGroup g
  | _ => s

end Sys2Proof.Machine
end

