-- ==== Sys2Proof/Machine/Hif.lean ====
section
/-!
DEFINITION. The host interface beside the command rings' consumers: doorbell records (R296–R299), making runs visible and
their interrupts (R302–R304), the link (R308), the function and admin groups (R312, R313).
-/

namespace Sys2Proof.Machine

/-! ### Epochs and doorbell records -/

/-- The epoch after `e`: never 0 (R305). -/
def nextEpoch (e : Nat) : Nat := if e ≥ 65535 then 1 else e + 1

/-- The epoch before `e` (R307). -/
def prevEpoch (e : Nat) : Nat := if e ≤ 1 then 65535 else e - 1

/-- Test of a record's epoch (R297): the current one, or the previous one of a consumer record in a restart window. -/
def Ring.epochOk (x : Ring) (e : Nat) : Bool :=
  e ≠ 0 && (e = x.epoch || (x.kind.deviceProduced && x.restart && e = prevEpoch x.epoch))

/-- Tests of a record's index (R297); `issued` is one past the last entry whose write has been issued. -/
def Ring.indexOk (x : Ring) (issued i : Nat) : Bool :=
  decide (idxSub i x.host < 2 ^ 31) &&
    (if x.kind.deviceProduced then i = issued || decide (idxSub i issued ≥ 2 ^ 31) else decide (idxSub i x.dev ≤ x.size))

/-- Runs that a consumer index has passed. -/
def VisRun.passed (v : VisRun) (c : Nat) : Bool := decide (idxSub c v.last < 2 ^ 31)

/-- A consumer index is taken: the runs it passed are consumed (R425). -/
def State.takeConsumer (s : State) (r c : Nat) : State :=
  match s.ring r with
  | none => s
  | some x =>
    let gone := x.visible.filter (fun v => v.passed c)
    let s := s.setRing r { x with
      host := c, visible := x.visible.filter (fun v => !v.passed c)
      state := if x.state = .full && c ≠ x.host then .active else x.state }
    (s.each gone (fun s v => s.consumed v.kind)).arm r

/-- One doorbell record of ring `r`, tested against the entries issued (R297).  A HALTED ring resumes at a valid producer
record, but one equal to the record last accepted has no effect (R284, R297). -/
def State.recordAt (s : State) (issued : Ring → Nat) (r rec' : Nat) : State :=
  match s.ring r with
  | none => s
  | some x =>
    let e := natBits rec' 47 32
    let i := rec' % 2 ^ 32
    if !s.flag (F.HIF_FN_CFG.ENABLE x.fn) then s
    else if !x.epochOk e then s.bump R.HIF_CNT_DB_STALE
    else if !x.indexOk (issued x) i then (s.put F.HIF_ERR.DB_BAD 1).health hEvent 0x18 0 0 0 0 r
    else
      let s := if i ≠ x.host then s.bump R.HIF_CNT_DB_EVT else s
      let fresh := e = x.epoch
      if x.kind.deviceProduced then
        let s := s.setRing r { x with restart := x.restart && !fresh }
        let s := if r = 8 * s.get (F.HIF_FN_CFG.FIRST_BLOCK x.fn) + 1 && fresh then s.put (F.HIF_FN_ADM_STAT.RESTART x.fn) 0 else s
        s.takeConsumer r i
      else s.setRing r { x with
        host := i, restart := x.restart && !fresh
        state := if (x.state = .halted && i ≠ x.host) || x.state = .waitEpoch then .active else x.state }

/-- One doorbell record of ring `r`: V is one past the entries issued, since runs are written whole. -/
def State.doorbell (s : State) (r rec' : Nat) : State := s.recordAt Ring.dev r rec'

/-- The eight records of a doorbell line (R296); the line's epochs and indices decide each on its own. -/
def State.doorbellLine (s : State) (block : Nat) : List Nat → Nat → State
  | [], _ => s
  | w :: ws, i => (s.doorbell (8 * block + i) w).doorbellLine block ws (i + 1)

/-- A translation fault of an access for a function (R284). -/
def State.xlateFault (s : State) (r : Nat) : State :=
  (s.put F.HIF_ERR.XLATE 1).errRecord ⟨.recovered, pHost, r, 1, 0, 0, 0, 1, 0, 0⟩

/-- The watch cache holds a line as it was read (R298): in watch mode alone. -/
def State.holdLine (s : State) (block : Nat) (recs : List Nat) : State :=
  if s.flag F.HIF_STAT.WATCH_MODE then { s with hif := { s.hif with watch := tabInsert s.hif.watch block (recs.take 8) } } else s

/-- A doorbell line is read for the reason of a row: its records, or a translation fault. -/
def State.readLine (s : State) (block : Nat) (recs : List Nat) (xlate : Bool) : State :=
  if xlate then s.xlateFault (8 * block) else (s.holdLine block recs).doorbellLine block (recs.take 8) 0

/-- True when a block holds a created ring (R298). -/
def State.lineHeld (s : State) (block : Nat) : Bool := s.hif.rings.any (fun p => p.1 / 8 = block)

def execDoorbellSnoop (t block : Nat) (recs : List Nat) (xlate : Bool) (s : State) : Res :=
  .next (if s.flag F.HIF_STAT.WATCH_MODE && s.lineHeld block then (s.at t).readLine block recs xlate else s.at t)

def execDoorbellPoll (t block : Nat) (recs : List Nat) (xlate : Bool) (s : State) : Res :=
  .next (if !s.flag F.HIF_STAT.WATCH_MODE && s.lineHeld block then (s.at t).readLine block recs xlate else s.at t)

def execWatchReread (t block : Nat) (recs : List Nat) (s : State) : Res :=
  .next (if s.flag F.HIF_STAT.WATCH_MODE && s.lineHeld block then (s.at t).readLine block recs false else s.at t)

/-- A nudge write is counted and has its line read when it is at offset 64 × L of a line L in the function's blocks (R299,
R312). -/
def State.nudgeWrite (s : State) (fn off : Nat) (recs : List Nat) : State :=
  let s := s.bump R.HIF_CNT_NUDGE
  let l := off / 64
  if s.flag (F.HIF_FN_CFG.ENABLE fn) && off % 64 = 0 && l < s.get (F.HIF_FN_CFG.BLOCKS fn) then
    s.readLine (s.get (F.HIF_FN_CFG.FIRST_BLOCK fn) + l) recs false
  else s

def execNudge (t fn off : Nat) (recs : List Nat) (s : State) : Res := .next ((s.at t).nudgeWrite fn off recs)

/-! ### Making records visible -/

/-- An entry with its phase bit (R289). -/
def phased (n i : Nat) (e : List Byte) : List Byte := e.dropLast ++ leBytes 1 ((i / n + 1) % 2)

/-- Host writes of the entries of a run from index `i` on, with the ring's PASID (R284). -/
def Ring.writes (x : Ring) (relaxed : Bool) : Nat → List (List Byte) → List Out
  | _, [] => []
  | i, e :: es =>
    .hostWrite x.fn x.pasid relaxed (x.base + i % x.size * x.kind.entryBytes) (phased x.size i e) ::
      x.writes relaxed ((i + 1) % 2 ^ 32) es

/-- The writes of a run in their order (R302): every entry but the first, which Relaxed Ordering may pass where RO_EN allows
it, then the first. -/
def State.runOuts (s : State) (x : Ring) (run : Run) : List Out :=
  x.writes (s.flag F.HIF_CTL.RO_EN) ((x.dev + 1) % 2 ^ 32) (run.entries.drop 1) ++ x.writes false x.dev (run.entries.take 1)

/-- Entries of a run that count towards an interrupt (R304). -/
def Run.counted (r : Run) : Nat :=
  match r.kind with
  | .completion true => 0
  | _ => r.entries.length

/-- Raise a vector: sent, or pending while masked (R304). -/
def State.raiseVector (s : State) (fn vec : Nat) : State :=
  if s.hif.unmasked.contains (fn, vec) then s.emit (.msix fn vec)
  else if s.hif.msiPending.contains (fn, vec) then s
  else { s with hif := { s.hif with msiPending := s.hif.msiPending ++ [(fn, vec)] } }

/-- The ring raises its vector and counts anew. -/
def State.ringInterrupt (s : State) (r : Nat) : State :=
  match s.ring r with
  | none => s
  | some x => (s.setRing r { x with fresh := 0, firstAt := none }).raiseVector x.fn x.vec

/-- Streams that a run's record reflects. -/
def State.runStreams (s : State) (k : RunKind) : Nat :=
  match k with
  | .slice g _ => unionAll ((s.groupStreams g).map streamBit)
  | .view _ i _ => streamBit i
  | _ => 0

/-- A run is visible (R302–R304, R424): V has moved past it, its pending record is done, the next run is recorded, and the
vector is raised when the coalescing count is reached or NT is 0. -/
def State.runShown (s : State) (r : Nat) (x : Ring) (run : Run) (rest : List Run) : State :=
  let v := (x.dev + run.entries.length) % 2 ^ 32
  let cnt := run.counted
  let x' := { x with
    dev := v, wait := rest, visible := x.visible ++ [⟨run.kind, v⟩], state := .active, fresh := x.fresh + cnt, pending := none,
    firstAt := if cnt = 0 then x.firstAt else (match x.firstAt with
      | some t => some t
      | none => some s.time) }
  let s := (s.setRing r x').arm r
  let s := match run.kind with
    | .slice g k => s.delivered g k
    | _ => s
  if x'.fresh ≥ x.nc && cnt ≠ 0 || (x.nt = 0 && cnt ≠ 0) then s.ringInterrupt r else s

/-- A run is written to host memory and becomes visible with the write of its first entry (R302). -/
def State.writeRun (s : State) (r : Nat) (x : Ring) (run : Run) (rest : List Run) : State :=
  (s.emitAll (s.runOuts x run)).runShown r x run rest

/-- The next waiting run of a ring (R244, R302): written when there is room for all of it; else the ring is full and the
streams that its record reflects are suspended. -/
def State.runWrite (s : State) (r : Nat) (xlate : Bool) : State :=
  match s.ring r with
  | none => s
  | some x =>
    if !x.kind.deviceProduced then s
    else match s.nextRun x with
      | none => s
      | some (run, rest) =>
        let stuck := fun (s : State) =>
          (s.setRing r { x with state := if x.state = .active then .full else x.state }).beginSusp cRingFull (s.runStreams run.kind) 0
        if xlate then stuck (s.xlateFault r)
        else if s.mayWrite x run && run.entries.length ≤ x.room then s.writeRun r x run rest
        else if s.dead || s.flag F.RAS_BUDDY.FENCED then s
        else stuck s

/-- NT after the first entry that no interrupt covers (R304). -/
def State.coalesced (s : State) (r : Nat) : State :=
  match s.ring r with
  | none => s
  | some x => match x.firstAt with
    | none => s
    | some t => (s.at (t + 1000 * x.nt)).ringInterrupt r

def execCoalescingTime (ring : Nat) (s : State) : Res := .next (s.coalesced ring)

/-- The host writes the mask bit of a vector; a pending message is sent on unmask (R304). -/
def State.msixMask (s : State) (fn vec : Nat) (masked : Bool) : State :=
  let p := (fn, vec)
  if masked then { s with hif := { s.hif with unmasked := s.hif.unmasked.filter (fun x => x ≠ p) } }
  else
    let was := s.hif.msiPending.contains p
    let s := { s with hif := { s.hif with
      unmasked := if s.hif.unmasked.contains p then s.hif.unmasked else s.hif.unmasked ++ [p],
      msiPending := s.hif.msiPending.filter (fun x => x ≠ p) } }
    if was then s.emit (.msix fn vec) else s

def execMsixUnmask (t fn vec : Nat) (masked : Bool) (s : State) : Res := .next ((s.at t).msixMask fn vec masked)

/-! ### The link -/

/-- Row of the delivery table for a trained link, as L_deliver in µs (R223). -/
def linkDeliver (speed width : Nat) : Nat :=
  if speed = 4 && width = 3 then 40 else if (speed = 3 && width = 3) || (speed = 4 && width = 2) then 60 else 100

/-- Delivery bound of the present link, µs (R223). -/
def State.hostDeliver (s : State) : Nat := linkDeliver (s.get F.HIF_STAT.LINK_SPEED) (s.get F.HIF_STAT.LINK_WIDTH)

def execLinkDown (t : Nat) (s : State) : Res :=
  .next (let s := s.at t
    let s := ((s.put F.HIF_STAT.LINK_UP 0).put F.HIF_STAT.LINK_SPEED 0).put F.HIF_STAT.LINK_WIDTH 0
    { s.put F.HIF_STAT.WATCH_MODE 0 with hif := { s.hif with cxl := false, watch := [] } })

/-- A trained speed and width are taken; a change of the delivery row asks for an admission recomputation (R223). -/
def State.linkTrained (s : State) (speed width before : Nat) : State :=
  let s := (s.put F.HIF_STAT.LINK_SPEED speed).put F.HIF_STAT.LINK_WIDTH width
  if s.hostDeliver = before then s else { s with aid := { s.aid with evals := s.aid.evals ++ [.delivery] } }

def execLinkRetrain (t speed width : Nat) (s : State) : Res :=
  .next (if s.flag F.HIF_STAT.LINK_UP then (s.at t).linkTrained speed width (s.at t).hostDeliver else s.at t)

/-! ### Function and admin groups -/

/-- True when a function owns a created ring. -/
def State.fnHasRings (s : State) (f : Nat) : Bool := s.hif.rings.any (fun p => p.2.fn = f)

/-- First failing check of a function group (R312). -/
def State.hifFnCode (s : State) (f : Nat) : Nat :=
  let a := s.st (F.HIF_FN_CFG.FIRST_BLOCK f)
  let n := s.st (F.HIF_FN_CFG.BLOCKS f)
  firstCode [
    (0x01, n > 1024),
    (0x06, s.fnHasRings f && (s.changed (F.HIF_FN_CFG.FIRST_BLOCK f) || s.changed (F.HIF_FN_CFG.BLOCKS f) ||
      s.changed (F.HIF_FN_DB.DB_ADDR f))),
    (0x17, n ≠ 0 && (a + n > 1024 || (List.range 64).any (fun g =>
      let b := s.get (F.HIF_FN_CFG.FIRST_BLOCK g)
      let m := s.get (F.HIF_FN_CFG.BLOCKS g)
      g ≠ f && m ≠ 0 && decide (a < b + m) && decide (b < a + n))))]

/-- A write to HIF_FN_COMMIT (R312). -/
def State.hifFnCommit (s : State) (req f val : Nat) : State := s.commitNow req (R.HIF_FN_COMMIT f) val (s.hifFnCode f)

def execHifFnCommit (t req fn val : Nat) (s : State) : Res :=
  .next ((s.at t).asReq req (R.HIF_FN_COMMIT fn) 4 val (fun s => s.hifFnCommit req fn val))

/-- Admin submission ring of a function (R285). -/
def State.adminRing (s : State) (f : Nat) : Nat := 8 * s.get (F.HIF_FN_CFG.FIRST_BLOCK f)

/-- The admin rings of a function exist. -/
def State.adminLive (s : State) (f : Nat) : Bool := s.flag (F.HIF_FN_ADM_STAT.LIVE f)

/-- The admin rings of a function are DETACHED (R309). -/
def State.adminDetached (s : State) (f : Nat) : Bool :=
  match s.ring (s.adminRing f) with
  | some x => x.state = .detached
  | none => false

/-- Alignment that a ring's base needs (R287). -/
def ringAlign (kind : RingKind) (n : Nat) : Nat := max (n * kind.entryBytes) 4096

/-- First failing check of an admin group (R313). -/
def State.hifAdmCode (s : State) (f : Nat) : Nat :=
  let n1 := 2 ^ (s.st (F.HIF_FN_ADM_SQ.SIZE_LOG2 f) + 6)
  let n2 := 2 ^ (s.st (F.HIF_FN_ADM_CQ.SIZE_LOG2 f) + 6)
  firstCode [
    (0x01, s.st (F.HIF_FN_ADM_SQ.SIZE_LOG2 f) > 6 || s.st (F.HIF_FN_ADM_CQ.SIZE_LOG2 f) > 6 ||
      s.st (F.HIF_FN_ADM_IRQ.NC f) = 0 || (f ≠ 0 && s.st (F.HIF_FN_ADM_IRQ.VEC f) > 63)),
    (0x06, (s.adminLive f && !s.adminDetached f) || s.get (F.HIF_FN_CFG.BLOCKS f) = 0 || !s.flag (F.HIF_FN_CFG.ENABLE f)),
    (0x18, 4096 * s.st (F.HIF_FN_ADM_SQ.BASE f) % ringAlign .submit n1 ≠ 0 ||
      4096 * s.st (F.HIF_FN_ADM_CQ.BASE f) % ringAlign .complete n2 ≠ 0)]

/-- A ring of no content, from which the creating rows build theirs. -/
def Ring.blank : Ring :=
  ⟨.submit, 0, 6, 0, 0, none, 0, none, 0, 0, 1, 0, 1, false, .active, 0, 0, none, [], [], 0, none, [], 0, 0⟩

/-- A ring number gets its next epoch (R305). -/
def State.advanceEpoch (s : State) (r : Nat) : State :=
  { s with hif := { s.hif with epochs := tabInsert s.hif.epochs r (nextEpoch (tabGet 0 s.hif.epochs r)) } }

/-- Current epoch of a ring number. -/
def State.epochOf (s : State) (r : Nat) : Nat := tabGet 0 s.hif.epochs r

/-- Control cores in service. -/
def State.liveCores (s : State) : List Nat := (List.range 8).filter (fun c => (s.get F.MBX_CORE_STAT.IN_SERVICE).testBit c)

/-- Rings that a core serves. -/
def State.ringsOn (s : State) (c : Nat) : Nat := (s.hif.rings.filter (fun p => p.2.core = c)).length

/-- The core in service with the fewest rings, ties to the lower number (R323, R329). -/
def State.coreFor (s : State) : Nat :=
  (s.liveCores.foldl (fun (b : Option Nat) (c : Nat) => match b with
    | none => some c
    | some d => if s.ringsOn c < s.ringsOn d then some c else some d) none).getD 0

/-- HOSTED shows the rings of each core (R349). -/
def State.showHosted (s : State) : State :=
  s.put F.MBX_CORE_STAT.HOSTED (sumNat ((List.range 8).map (fun c => min 15 (s.ringsOn c) * 16 ^ c)))

/-- A write to HIF_FN_ADM_COMMIT creates the admin rings, or attaches them to new memory after an FLR (R309, R313). -/
def State.hifAdmCommit (s : State) (req f val : Nat) : State :=
  let c := R.HIF_FN_ADM_COMMIT f
  let code := s.hifAdmCode f
  let ok := s.commitPasses req c val code
  let s := s.commitNow req c val code
  if !ok then s
  else
    let r := s.adminRing f
    let s := (s.advanceEpoch r).advanceEpoch (r + 1)
    let e := s.epochOf r
    let sqBase := 4096 * s.get (F.HIF_FN_ADM_SQ.BASE f)
    let cqBase := 4096 * s.get (F.HIF_FN_ADM_CQ.BASE f)
    let sqLog := s.get (F.HIF_FN_ADM_SQ.SIZE_LOG2 f) + 6
    let cqLog := s.get (F.HIF_FN_ADM_CQ.SIZE_LOG2 f) + 6
    let old1 := (s.ring r).getD Ring.blank
    let old2 := (s.ring (r + 1)).getD Ring.blank
    let sq := { old1 with
      kind := .submit, cls := 0, logN := sqLog, base := sqBase, fn := f, complete := r + 1, epoch := e,
      core := if s.adminLive f then old1.core else s.coreFor,
      state := if s.adminDetached f then .waitEpoch else .active }
    let cq := { old2 with
      kind := .complete, cls := 0, logN := cqLog, base := cqBase, fn := f, epoch := s.epochOf (r + 1), state := .active,
      vec := s.get (F.HIF_FN_ADM_IRQ.VEC f), nc := s.get (F.HIF_FN_ADM_IRQ.NC f), nt := s.get (F.HIF_FN_ADM_IRQ.NT f) }
    let s := s.setRing r sq
    let s := (s.setRing (r + 1) { cq with core := if s.adminLive f then old2.core else s.coreFor }).showHosted
    (s.put (F.HIF_FN_ADM_STAT.LIVE f) 1).put (F.HIF_FN_ADM_STAT.EPOCH f) e

def execHifFnAdmCommit (t req fn val : Nat) (s : State) : Res :=
  .next ((s.at t).asReq req (R.HIF_FN_ADM_COMMIT fn) 4 val (fun s => s.hifAdmCommit req fn val)).mirrorConfig

end Sys2Proof.Machine
end

