-- ==== Sys2Proof/Machine/Export.lean ====
section
/-!
DEFINITION. Delivery of a group's runs (R215, R399–R403, R423, R424): to its result ring, or as datagrams of an export
queue in queue 7 of a port, with the RING_FULL suspension (R10, R244, R403).
-/

namespace Sys2Proof.Machine

/-! ### Export queues -/

def ExpQ.empty : ExpQ := ⟨0, [], [], none⟩

def State.expq (s : State) (q : Nat) : ExpQ := tabGet ExpQ.empty s.net.exps q

def State.setExpq (s : State) (q : Nat) (x : ExpQ) : State := { s with net := { s.net with exps := tabInsert s.net.exps q x } }

/-- The enabled export queue that a group is bound to (R399). -/
def State.exportOf (s : State) (g : Nat) : Option Nat :=
  (List.range 32).find? (fun q => s.flag (F.NET_EXP_CTL.ENABLE q) && s.get (F.NET_EXP_CTL.GROUP q) = g)

/-- State of an enabled queue by its ports (R403): PRIMARY while its port has not failed, ALTERNATE while its alternate port
has not, else BLOCKED. -/
def State.expRoute (s : State) (q : Nat) : Nat :=
  if !s.flag (F.NET_PORT_STAT.FAILED (s.get (F.NET_EXP_CTL.PORT q))) then 1
  else if s.flag (F.NET_EXP_CTL.ALT_EN q) && !s.flag (F.NET_PORT_STAT.FAILED (s.get (F.NET_EXP_CTL.ALT_PORT q))) then 2 else 3

/-- Most entries in a datagram (R400). -/
def State.expMax (s : State) (q : Nat) : Nat := if s.flag (F.NET_EXP_CTL.JUMBO q) then 128 else 22

/-- The port that a queue sends on: its alternate port in state ALTERNATE (R403). -/
def State.expPort (s : State) (q : Nat) : Nat :=
  if s.get (F.NET_EXP_STAT.STATE q) = 2 then s.get (F.NET_EXP_CTL.ALT_PORT q) else s.get (F.NET_EXP_CTL.PORT q)

/-- Wire bytes of a datagram of e entries (R401). -/
def State.expWire (s : State) (q e : Nat) : Nat := 32 + 64 * e + 70 + (if s.flag (F.NET_EXP_CTL.IPV6 q) then 20 else 0)

/-- The runs of entries that datagrams of at most `m` entries take, in order (R400). -/
def chunksOf (m : Nat) (l : List (List Byte)) : List (List (List Byte)) :=
  (List.range (ceilDiv l.length m)).map (fun i => (l.drop (m * i)).take m)

/-- An entry as a datagram carries it: byte 63 is 0 (R400). -/
def expEntry (e : List Byte) : List Byte := (e ++ zeros 64).take 63 ++ zeros 1

/-- A datagram as it leaves (R400). -/
def State.gramBytes (s : State) (q : Nat) (d : Gram) : List Byte :=
  let body := d.entries.flatMap expEntry
  let own := match (s.expq q).lost with
    | some p => p
    | none => (s.devNum, q)
  withCrc (fieldsBytes [(2, 0xE7C6), (1, 1), (1, bit d.first + 2 * bit d.last + 4 * bit d.resent), (2, own.1), (1, own.2),
    (1, d.entries.length), (4, d.seq), (8, d.launch), (4, crc32c body), (4, 0)]) ++ body

/-- A frame joins queue 7 of a port (R397). -/
def State.queue7 (s : State) (p : Nat) (f : TxFrame) : State :=
  { s with net := { s.net with q7 := tabInsert s.net.q7 p (tabGet [] s.net.q7 p ++ [f]) } }

/-- The frame of a datagram. -/
def State.gramFrame (s : State) (q : Nat) (d : Gram) : TxFrame :=
  ⟨d.launch, s.expWire q d.entries.length, .gram q d.seq, s.gramBytes q d⟩

/-- A run is placed in queue 7 of its port: its datagrams take consecutive sequences (R400, R401). -/
def State.placeRun (s : State) (q k : Nat) (entries : List (List Byte)) : State :=
  let launch := s.time + s.get (F.NET_EXP_CTL.LAUNCH_OFF q)
  let cs := chunksOf (s.expMax q) entries
  let n := cs.length
  let x := s.expq q
  let grams := ((List.range n).zip cs).map (fun (p : Nat × List (List Byte)) =>
    (⟨(x.next + p.1) % 2 ^ 32, launch, p.2, p.1 = 0, p.1 + 1 = n, x.lost.isSome, k⟩ : Gram))
  let s := s.setExpq q { x with next := (x.next + n) % 2 ^ 32, grams := x.grams ++ grams }
  s.each grams (fun s d => s.queue7 (s.expPort q) (s.gramFrame q d))

/-- Instant of a run. -/
def RunKind.instant : RunKind → Nat
  | .slice _ k => k
  | .view _ _ k => k
  | _ => 0

/-- Streams of a mask whose records wait, or find space: the RING_FULL cause begins or ends for them (R10, R245). -/
def State.ringSpace (s : State) (streams : Nat) (space : Bool) : State :=
  if space then
    let s := s.endSusp cRingFull streams 0
    { s with ras := { s.ras with marks := s.ras.marks.filter (fun m => !(m.1 = cRingFull && streams.testBit m.2.1)) } }
  else s.beginSusp cRingFull streams 0

/-- True when a run of n entries of a group finds room: no run waits before it, and the ring has room for it, or the export
queue is not BLOCKED. -/
def State.runRoom (s : State) (g n : Nat) : Bool :=
  match s.exportOf g with
  | some q => s.get (F.NET_EXP_STAT.STATE q) ≠ 3 && (s.expq q).wait.isEmpty
  | none => s.resultRoom (s.get (F.CP_GRP_RPT.RING g)) n

/-- A run that waits is mirrored to the buddy in parts of 128 entries (R428, R430). -/
def State.mirrorRun (s : State) (g k : Nat) (entries : List (List Byte)) : State :=
  if s.flag F.HG_CTL.MIRROR then
    let cs := chunksOf 128 entries
    s.each ((List.range cs.length).zip cs) (fun s p =>
      s.toBuddy 2 0x04 g (fieldsBytes [(1, 2), (1, g), (2, p.1), (1, bit (p.1 + 1 = cs.length)), (3, 0), (8, k),
        (2, p.2.length), (2, 0), (4, entries.length)] ++ p.2.flatten))
  else s

/-- The run of instant k of a group is handed over (R215, R399, R423). -/
def State.deliver (s : State) (g k : Nat) (entries : List (List Byte)) : State :=
  let room := s.runRoom g entries.length
  let s := if room then s else s.mirrorRun g k entries
  match s.exportOf g with
  | some q =>
    if room then s.placeRun q k entries
    else
      let x := s.expq q
      s.setExpq q { x with wait := x.wait ++ [(⟨.slice g k, entries⟩ : Run)] }
  | none => s.pushRun (s.get (F.CP_GRP_RPT.RING g)) ⟨.slice g k, entries⟩

/-- True when the run of instant k of a group is visible, sent, or held in the run buffer (R423): it was handed over. -/
def State.runHeld (s : State) (g k : Nat) : Bool := reached (s.rel g).vis k || s.hif.rings.any (fun p =>
    p.2.wait.any (fun r => r.kind = .slice g k)) ||
  (match s.exportOf g with
    | some q => (s.expq q).grams.any (fun d => d.k = k) || (s.expq q).wait.any (fun r => r.kind = .slice g k)
    | none => false)

/-- The waiting runs of a queue that left BLOCKED are placed, in order (R403). -/
def State.placeWaiting (s : State) (q : Nat) : State :=
  let x := s.expq q
  (s.setExpq q { x with wait := [] }).each x.wait (fun s r => s.placeRun q r.kind.instant r.entries)

/-- An export datagram's last byte has left (R402): counted, and the run of its instant is delivered and consumed with its
last datagram (R424, R425). -/
def State.gramSent (s : State) (q seq : Nat) : State :=
  let x := s.expq q
  match x.grams.find? (fun d => d.seq = seq) with
  | none => s
  | some d =>
    let s := s.setExpq q { x with grams := x.grams.filter (fun e => e.seq ≠ seq) }
    let s := (s.put (F.NET_EXP_STAT.SENT_SEQ q) seq).bump (R.NET_EXP_CNT q)
    let s := if d.resent then s.bump (R.NET_EXP_CNT_RESENT q) else s
    if d.last then
      let g := s.get (F.NET_EXP_CTL.GROUP q)
      (s.delivered g d.k).consumed (.slice g d.k)
    else s

/-- The unsent datagrams of a queue leave the queues of every port and are placed again, marked RESENT, with their
sequences and launch time (R402). -/
def State.resend (s : State) (q : Nat) : State :=
  let x := s.expq q
  let mine := fun (f : TxFrame) => match f.what with
    | .gram r _ => decide (r = q)
    | _ => false
  let s := { s with net := { s.net with q7 := tabMap (fun _ l => l.filter (fun f => !mine f)) s.net.q7 } }
  let grams := x.grams.map (fun (d : Gram) => { d with resent := true })
  let s := s.setExpq q { x with grams := grams }
  s.each grams (fun s d => s.queue7 (s.expPort q) (s.gramFrame q d))

/-- A queue takes the state that its ports give it (R403): BLOCKED holds its runs and suspends its group's streams; a queue that
leaves BLOCKED ends that suspension and sends what it held; one that moves to its alternate port sends there again. -/
def State.reroute (s : State) (q : Nat) : State :=
  let old := s.get (F.NET_EXP_STAT.STATE q)
  let new := s.expRoute q
  let s := s.put (F.NET_EXP_STAT.STATE q) new
  let streams := unionAll ((s.groupStreams (s.get (F.NET_EXP_CTL.GROUP q))).map streamBit)
  if new = 3 then s.ringSpace streams false
  else if old = 3 then ((s.ringSpace streams true).resend q).placeWaiting q
  else if new = 2 && old ≠ 2 then (s.resend q).placeWaiting q
  else s.placeWaiting q

end Sys2Proof.Machine
end

