-- ==== Sys2Proof/Machine/Memory.lean ====
section
/-!
DEFINITION. Bonded memory, canal mesh and sluice queues (R248–R280): accesses with what the ECC finds, scrubbing and
refresh, the loss of a pseudo-channel, regions, flits and failed links, queue words and queue resets.
-/

namespace Sys2Proof.Machine

/-! ### Stops -/

/-- Stop of column x and row y (R24). -/
def stopAt (x y : Nat) : Nat := 8 * y + x

/-- Stops of the network block, the headgate, the FRF, the sluice pool, the control complex, the host interface and the
result writer, by their number in the block (R24). -/
def stopOfNet (n : Nat) : Nat := stopAt (n % 4) 0
def stopOfHeadgate (n : Nat) : Nat := if n % 8 < 4 then stopAt (4 + n % 8) 0 else stopAt (n % 8 - 4) 1
def stopOfFrf (n : Nat) : Nat := stopAt (4 + n % 2) 1
def stopOfPool (part : Nat) : Nat := if part % 4 < 2 then stopAt (6 + part % 4) 1 else stopAt (part % 4 - 2) 10
def stopOfHif (n : Nat) : Nat := stopAt (n % 4) 11
def stopOfWriter (n : Nat) : Nat := stopAt (4 + n % 4) 11
/-- Stops of the security block and of the power and clock controller (R24). -/
def stopOfSecurity : Nat := stopAt 6 10
def stopOfPower : Nat := stopAt 7 10

/-- Stops of a furrow gateway, a stand tile and a coppice unit (R24). -/
def stopOfGateway (g : Nat) : Nat := 16 + g
def stopOfTile (t : Nat) : Nat := stopAt (t % 8) (3 + t / 8)
def stopOfUnit (u : Nat) : Nat := stopAt u 9

/-- Stop of a control core: two cores on each of the four stops (R25). -/
def stopOfCore (c : Nat) : Nat := stopAt (2 + c / 2) 10

/-- Gateway that serves a furrow core (R25). -/
def gatewayOf (c : Nat) : Nat := c / 12

/-- Agent of port index `a` at a stop (R269). -/
def agentOf (stop a : Nat) : Nat := 4 * stop + a

/-! ### DRAM accesses -/

/-- Relocated pseudo-channels: those that MEM_PC_FAILk names, and the restored ones, whose relocation stays in force (R260,
R276, R528). -/
def State.lostPcs (s : State) : List Nat :=
  let shown := ((List.range 8).filter (fun k => s.flag (F.MEM_PC_FAILk.VALID k))).map (fun k => s.get (F.MEM_PC_FAILk.PC k))
  shown ++ s.mm.healed.filter (fun p => !shown.contains p)

/-- Pseudo-channels on which the copies of a device address lie (R250, R253). -/
def copiesOf (r : Region) (a : Nat) : List Nat := (placement r a).1.map (fun c => pseudoOf c (placement r a).2)

/-- True when the line of a device address holds uncorrectable data: recorded so, or a plain line of a lost
pseudo-channel that nothing has written since, or a guarded line without a surviving copy (R257, R260). -/
def State.lineBad (s : State) (r : Region) (a : Nat) : Bool :=
  let line := a / 64
  let pcs := copiesOf r a
  s.mm.ueLines.contains line || (pcs.all (fun p => s.lostPcs.contains p) && !s.mm.rewritten.contains line)

/-- What a read answers: data, or an error response, to its requester; the patrol scrubber has none to answer. -/
def State.memAnswer (s : State) (reader : Option Nat) (a : Nat) (data : List Byte) (error : Bool) : State :=
  match reader with
  | some agent => s.emit (.memData agent a data error)
  | none => s

/-- Grid memory of a group: base and bytes of one buffer (R205). -/
def State.gridArea (s : State) (g : Nat) : Nat × Nat :=
  (4096 * s.get (F.CP_GRP_GMEM.BASE g), (s.get (F.CP_GRP_GRID.CELLS_X g) + 1) * (s.get (F.CP_GRP_GRID.CELLS_Y g) + 1) * 128)

/-- What plain data at a device address is, as the registers place it (R259): delta state of a tile, grid memory of a group,
a map or table that Aidor can write again, an event list, or other data. -/
inductive PlainData where
  | delta (tile : Nat) | grid (group : Nat) | map | events | other
  deriving DecidableEq, Repr

/-- `a` lies in [base, base + size). -/
def within (a base size : Nat) : Bool := decide (base ≤ a) && decide (a < base + size)

/-- The maps and tables of the device: base and size of the rotation table, and of each stream's hot-pixel map, retina map
and projection table (R59, R80, R105, R202). -/
def State.mapAreas (s : State) : List (Nat × Nat) :=
  (64 * s.get F.FRF_ROT.ADDR, 2 * s.get F.FRF_ROT.LEN) ::
    ((List.range 128).filter (fun i => s.streamState i ≠ 0)).flatMap (fun i =>
      let w := s.get (F.HG_STREAM_GEOM.WIDTH i)
      let h := s.get (F.HG_STREAM_GEOM.HEIGHT i)
      let p := 64 * s.get (F.CP_MBR_PROJ.ADDR i)
      [(64 * s.get (F.HG_STREAM_HPM.ADDR i), h * (ceilDiv w 64 * 8)),
       (64 * s.get (F.FW_MAP_ADDR.ADDR i),
        16 * 2 ^ s.get (F.FW_MAP_CTL.POL_SPLIT i) * ceilDiv w (2 ^ s.get (F.FW_MAP_CTL.BX i)) * ceilDiv h (2 ^ s.get (F.FW_MAP_CTL.BY i))),
       (p, 64 + 8 * s.mapNat i 2 p 0 4)])

/-- The kind of plain data at a device address. -/
def State.plainData (s : State) (a : Nat) : PlainData :=
  match (List.range 48).find? (fun t =>
      within a (4096 * s.get (F.ST_DELTA_BASE.BASE t)) (0x100000 * s.get (F.ST_DELTA_SIZE.SIZE_MIB t))) with
  | some t => .delta t
  | none => match (List.range 32).find? (fun g =>
      s.flag (F.CP_GRP_CTL.ENABLE g) && within a (s.gridArea g).1 (2 * (s.gridArea g).2)) with
    | some g => .grid g
    | none => if s.mapAreas.any (fun p => within a p.1 p.2) then .map
      else if s.hg.lists.any (fun d => within a d.addr (8 * d.acc.events.length)) then .events else .other

/-- Streams that a tile's group serves: those whose image slot uses the tile. -/
def State.tileStreams (s : State) (t : Nat) : List Nat :=
  (List.range 128).filter (fun i => match tabFind s.img.streamSlot i with
    | some n => s.streamState i ≠ 0 && (match s.slot n with
      | some x => x.tiles.testBit t
      | none => false)
    | none => false)

/-- Every layer of these streams is refreshed by their next slice (R147). -/
def State.refreshNext (s : State) (l : List Nat) : State :=
  { s with sd := { s.sd with fresh := s.sd.fresh ++ l.filter (fun i => !s.sd.fresh.contains i) } }

/-- The line at a device address reads as zero from now on. -/
def State.zeroLine (s : State) (a : Nat) : State :=
  { s with mem := s.mem.filter (fun c => !within c.1 (a / 64 * 64) 64) }

/-- The requester replaces bad plain data (R259): a full refresh of the streams whose delta state the tile holds, zero cells
of grid memory.  Event lists and feature maps are derived again from the journal or from retained inputs; nothing of them is
lost, since the model keeps them beside the memory. -/
def State.replaceData (s : State) (k : PlainData) (a : Nat) : State :=
  match k with
  | .delta t => s.refreshNext (s.tileStreams t)
  | .grid _ => s.zeroLine a
  | _ => s

/-- An uncorrectable word in plain data (R257, R259): an error response, MEM_ERR.UE, and the requester's replacement.  For a
map or table the requester holds the access, Aidor writes the line again and the access is retried with the right data. -/
def State.plainUe (s : State) (reader : Option Nat) (a n : Nat) : State :=
  let k := s.plainData a
  let data := s.dramRead a n
  let s := (s.put F.MEM_ERR.UE 1).bump R.MEM_CNT_UE
  if k = .map then s.memAnswer reader a data false
  else (s.replaceData k a).memAnswer reader a (zeros n) true

/-- The line at a device address holds good data again. -/
def State.lineGood (s : State) (r : Region) (a : Nat) : State :=
  let line := a / 64
  let lost := (copiesOf r a).any (fun p => s.lostPcs.contains p)
  { s with mm := { s.mm with
    ueLines := s.mm.ueLines.filter (fun x => x ≠ line),
    rewritten := if lost && !s.mm.rewritten.contains line then line :: s.mm.rewritten else s.mm.rewritten } }

/-- Plain data that the device replaces are good after the replacement; other plain data stay bad until the next write. -/
def State.plainBad (s : State) (reader : Option Nat) (r : Region) (a n : Nat) : State :=
  let own := s.plainData a ≠ .other
  let s := s.plainUe reader a n
  if own then s.lineGood r a
  else { s with mm := { s.mm with ueLines := if s.mm.ueLines.contains (a / 64) then s.mm.ueLines else a / 64 :: s.mm.ueLines } }

/-- Both copies of a guarded line are uncorrectable: FATAL (R259). -/
def State.guardedUe (s : State) (reader : Option Nat) (a n : Nat) : State :=
  (((s.put F.MEM_ERR.UE_BOTH 1).bump R.MEM_CNT_UE).memAnswer reader a (zeros n) true).fatal pDram 0 4 0 a

/-- A corrected error of a line (R257). -/
def State.memCorrected (s : State) (a cond : Nat) : State :=
  ((s.put F.MEM_ERR.CE 1).bump R.MEM_CNT_CE).corrected pDram 0 cond 0 (a / 64 * 64)

/-- A byte of the RAS log's area at RAS_LOG_BASE (R418): the record of sequence q stands in place q mod 65,536 (DESIGN CHOICE, log
entry 94). -/
def State.rasByte (s : State) (a : Nat) : Option Byte :=
  let base := 4096 * s.get F.RAS_LOG_BASE.BASE
  if base = 0 || a < base || base + 4194304 ≤ a then none
  else
    let first := s.get F.RAS_SEQ.NEXT - s.ras.log.length
    let j := ((a - base) / 64 + 65536 - first % 65536) % 65536
    s.ras.log[j]?.map (fun r => r.getD (a % 64) 0)

/-- What DRAM holds as an agent reads it: the log that the device keeps beside the memory stands in its area (R418). -/
def State.dramSeen (s : State) (a n : Nat) : List Byte :=
  ((List.range n).zip (s.dramRead a n)).map (fun (p : Nat × Byte) => (s.rasByte (a + p.1)).getD p.2)

/-- A read of a mapped line with what the ECC finds in it (R256, R257, R259). -/
def State.dramServe (s : State) (reader : Option Nat) (r : Region) (a n : Nat) (ecc : Ecc) : State :=
  let data := s.dramSeen a n
  if s.lineBad r a then (if r.guarded then s.guardedUe reader a n else s.plainBad reader r a n)
  else match ecc with
    | .clean => s.memAnswer reader a data false
    | .corrected => (s.memCorrected a 2).memAnswer reader a data false
    | .oneCopy =>
      if r.guarded then
        if (copiesOf r a).any (fun p => s.lostPcs.contains p) then s.guardedUe reader a n
        else ((s.memCorrected a 3).bump R.MEM_CNT_MIRROR_READ).memAnswer reader a data false
      else s.plainBad reader r a n
    | .both => if r.guarded then s.guardedUe reader a n else s.plainBad reader r a n

/-- A write to a mapped line: the line's error clears (R259, R260). -/
def State.dramStore (s : State) (r : Region) (a : Nat) (data : List Byte) : State :=
  (s.dramWrite a data).lineGood r a

/-- A block of the device writes bytes to DRAM: the errors of their lines clear. -/
def State.dramPut (s : State) (a : Nat) (bs : List Byte) : State :=
  match s.regionAt a with
  | some r => (s.dramWrite a bs).each ((List.range (ceilDiv (a % 64 + bs.length) 64)).map (fun i => a + 64 * i)) (fun s x => s.lineGood r x)
  | none => s.dramWrite a bs

/-- Ranges of the device address map (R264). -/
inductive Window where
  | dram | tileSram (inside : Bool) | furrow (inside : Bool) | slotCache | scratch | rom | regs | host | none
  deriving DecidableEq, Repr

/-- The range of a device address (R264). -/
def windowOf (a : Nat) : Window :=
  if a < 0x1000000000 then .dram
  else if 0x400000000000 ≤ a && a < 0x400000000000 + 48 * 0x1000000 then .tileSram (a % 0x1000000 < 0x800000)
  else if 0x410000000000 ≤ a && a < 0x410000000000 + 96 * 0x100000 then .furrow (a % 0x100000 < 0x80000)
  else if 0x420000000000 ≤ a && a < 0x420000000000 + 0x4000000 then .slotCache
  else if 0x430000000000 ≤ a && a < 0x430000000000 + 0x400000 then .scratch
  else if 0x438000000000 ≤ a && a < 0x438000000000 + 0x200000 then .rom
  else if 0x7F0000000000 ≤ a && a < 0x7F0000000000 + 0x1000000 then .regs
  else if 0x800000000000 ≤ a then .host
  else .none

/-- Power domain of a memory at a device address (R26). -/
def memDomain (a : Nat) : Nat :=
  match windowOf a with
  | .dram => dMem
  | .tileSram _ => dCmp
  | .furrow _ => dCmp
  | .slotCache => dCmp
  | .regs => domainAt (a - 0x7F0000000000)
  | .host => dHif
  | _ => dCtl

/-- An access that no range or region holds (R255, R264). -/
def State.unmapped (s : State) (agent a n : Nat) (write : Bool) : State :=
  let s := (s.put F.MEM_ERR.UNMAPPED 1).bump R.MEM_CNT_UNMAPPED
  if write then s else s.emit (.memData agent a (zeros n) true)

/-- An access to a device address by an agent (R255–R259, R264), with what the ECC of the line finds; the SRAMs of tiles,
furrow cores and units and the control scratch report a corrected error (R103, R128) and answer an uncorrectable one with an
error.  The register space is `State.regAccess`. -/
def State.access (s : State) (agent a : Nat) (write : Bool) (data : List Byte) (n : Nat) (ecc : Ecc) : State :=
  let sram := fun (inside : Bool) (part index cond : Nat) =>
    if !inside then (if write then s else s.emit (.memData agent a (zeros n) false))
    else if write then { s with mem := memPutAll s.mem a data }
    else
      let bytes := (List.range n).map (fun i => memByte s.mem (a + i))
      match ecc with
      | .clean => s.emit (.memData agent a bytes false)
      | .corrected => (s.corrected part index cond 0 (a / 64 * 64)).emit (.memData agent a bytes false)
      | _ => s.emit (.memData agent a (zeros n) true)
  match windowOf a with
  | .dram => match s.regionAt a with
    | some r => if write then s.dramStore r a data else s.dramServe (some agent) r a n ecc
    | none => s.unmapped agent a n write
  | .tileSram inside => sram inside pTile ((a - 0x400000000000) / 0x1000000) 1
  | .furrow inside =>
    let c := (a - 0x410000000000) / 0x100000
    if write && s.flag (F.FW_CORE_CFG.ENABLE c) then s.put F.FW_STAT.TBL_BUSY 1 else sram inside pFurrow c 2
  | .slotCache => sram true pCoppice ((a - 0x420000000000) / 0x800000) 2
  | .scratch => sram true pOther 0 0
  | .rom => if write then s else
      s.emit (.memData agent a ((List.range n).map (fun i => Config.rom (a + i - 0x438000000000))) false)
  | .regs => s
  | .host => if write then s.emit (.hostWrite 0 none false (a - 0x800000000000) data) else s
  | .none => s.unmapped agent a n write

/-- The patrol scrubber reads a mapped line and treats what it finds as any read does (R258). -/
def State.scrub (s : State) (a : Nat) (ecc : Ecc) : State :=
  if !s.flag F.MEM_CTL.SCRUB_EN then s
  else match s.regionAt a with
    | none => s
    | some r =>
      let s := s.bump R.MEM_CNT_SCRUB
      let s := { s with mm := { s.mm with scrubNext := a / 64 * 64 + 64 } }
      s.dramServe none r (a / 64 * 64) 64 ecc

def execPatrolScrub (t addr : Nat) (ecc : Ecc) (s : State) : Res :=
  .next (if s.domainOff dMem then s.at t else (s.at t).scrub addr ecc)

/-- A refresh interval elapses: 3.9 µs while every die is at or below 85 °C, 1.95 µs above (R262). -/
def State.refresh (s : State) (temp : Int) : State :=
  let s := s.put F.MEM_TEMP.MAX_C (fromSigned 8 temp)
  { s with mm := { s.mm with fastRefresh := decide (temp > 85) } }

/-- Average refresh interval in units of 10 ns (R262). -/
def State.refreshInterval (s : State) : Nat := if s.mm.fastRefresh then 195 else 390

def execDramRefresh (t : Nat) (temp : Int) (s : State) : Res := .next ((s.at t).refresh temp)

/-! ### Losing a pseudo-channel -/

/-- Stop of a pseudo-channel (R249). -/
def stopOfPc (pc : Nat) : Nat := 16 + pc / 8

/-- The pseudo-channel whose reserve takes chunk q of a failed pseudo-channel: the q-th survivor of the stop (R260). -/
def State.reserveOf (s : State) (pc q : Nat) : Nat :=
  (((List.range 8).map (fun i => pc / 8 * 8 + i)).filter (fun p => p ≠ pc && !s.lostPcs.contains p)).getD q 0

/-- Step 4 of R260: the owners of plain data on a lost pseudo-channel replace it. -/
def State.replaceLost (s : State) (pc : Nat) : State :=
  let hit := fun (a : Nat) => match s.regionAt a with
    | some r => !r.guarded && (copiesOf r a).contains pc
    | none => false
  let tiles := (List.range 48).filter (fun t => s.get (F.ST_DELTA_SIZE.SIZE_MIB t) ≠ 0 &&
    (match s.regionAt (4096 * s.get (F.ST_DELTA_BASE.BASE t)) with
      | some r => !r.guarded && (!r.affine || r.stop = stopOfPc pc)
      | none => false))
  let grid := fun (a : Nat) => match s.plainData a with
    | .grid _ => true
    | _ => false
  let s := s.refreshNext (tiles.flatMap s.tileStreams)
  { s with mem := s.mem.filter (fun c => !(hit c.1 && grid c.1)) }

/-- A pseudo-channel fails (R260); a second one in its stop, or a ninth in the device, is FATAL (R261).  Restored ones do not
count (R528), and give up their MEM_PC_FAILk entry when no other is free (DESIGN CHOICE, log entry 52). -/
def State.pcFail (s : State) (pc cond flags : Nat) : State :=
  if s.lostPcs.contains pc && !s.mm.healed.contains pc then s
  else
    let s := s.put F.MEM_ERR.PC_FAILED 1
    let all := s.ownStreams
    let s := { s with mm := { s.mm with healed := s.mm.healed.filter (fun p => p ≠ pc) } }
    let lost := s.lostPcs.filter (fun p => !s.mm.healed.contains p && p ≠ pc)
    let idx := match (List.range 8).find? (fun k => s.flag (F.MEM_PC_FAILk.VALID k) && s.get (F.MEM_PC_FAILk.PC k) = pc) with
      | some k => some k
      | none => match (List.range 8).find? (fun k => !s.flag (F.MEM_PC_FAILk.VALID k)) with
        | some k => some k
        | none => (List.range 8).find? (fun k => s.mm.healed.contains (s.get (F.MEM_PC_FAILk.PC k)))
    if lost.any (fun p => p / 8 = pc / 8) then s.fatal pPseudo pc cond all 0
    else match idx with
      | none => s.fatal pPseudo pc cond all 0
      | some k =>
        let usable := 511 - lost.length
        let s := (s.put (F.MEM_PC_FAILk.VALID k) 1).put (F.MEM_PC_FAILk.PC k) pc
        let s := (s.singlePartFault pPseudo pc cond all 0 usable flags).replaceLost pc
        let s := s.degraded pPseudo pc cond all usable flags (s.get (F.ST_GRP_ADM.FLOOR 0))
        s.askCapacity

def execPseudoChannelFail (t pc cond : Nat) (s : State) : Res := .next ((s.at t).pcFail pc cond (s.testFlag pPseudo pc))

/-! ### Regions -/

/-- The region that the staged registers of a group describe. -/
def State.stagedRegion (s : State) (r : Nat) : Region :=
  regionOf (s.shadowReg (R.MEM_RGN_BASE r)) (s.shadowReg (R.MEM_RGN_CFG r))

/-- Two regions overlap in device addresses. -/
def Region.overlaps (x y : Region) : Bool := decide (x.base < y.base + y.size) && decide (y.base < x.base + x.size)

/-- Two regions use some channel in common at overlapping offsets (R254). -/
def Region.collides (x y : Region) : Bool :=
  (!x.affine || !y.affine || x.stop = y.stop) &&
    decide (x.chOff < y.chOff + footprint y) && decide (y.chOff < x.chOff + footprint x)

/-- The enabled regions but that of number `r`. -/
def State.otherRegions (s : State) (r : Nat) : List Region :=
  ((List.range 32).filter (fun i => i ≠ r && s.flag (F.MEM_RGN_CFG.ENABLE i))).map
    (fun i => regionOf (s.reg (R.MEM_RGN_BASE i)) (s.reg (R.MEM_RGN_CFG i)))

/-- Total size of guarded regions. -/
def guardedSize (l : List Region) : Nat := sumNat ((l.filter (fun r => r.guarded)).map (fun r => r.size))

/-- First failing check of a region group (R254). -/
def State.memRgnCode (s : State) (r : Nat) : Nat :=
  let x := s.stagedRegion r
  let on := s.st (F.MEM_RGN_CFG.ENABLE r) = 1
  let was := s.flag (F.MEM_RGN_CFG.ENABLE r)
  let onlyOff := setBits (s.reg (R.MEM_RGN_CFG r)) 63 63 0 = s.shadowReg (R.MEM_RGN_CFG r)
  let same := !s.regChanged (R.MEM_RGN_CFG r)
  firstCode [
    (0x01, x.size = 0 || s.st (F.MEM_RGN_CFG.SIZE r) > 4096 || x.base + x.size > 0x1000000000 ||
      (x.affine && (x.stop < 16 || x.stop > 79))),
    (0x06, was && (s.regChanged (R.MEM_RGN_BASE r) || !(onlyOff || same))),
    (0x13, on && (s.otherRegions r).any (fun y => x.overlaps y)),
    (0x14, on && ((s.otherRegions r).any (fun y => x.collides y) || x.chOff + footprint x > 224 * 0x100000)),
    (0x15, on && guardedSize (x :: s.otherRegions r) > 8 * 0x40000000)]

/-- A write to MEM_RGN_COMMIT (R254, R276). -/
def State.memRgnCommit (s : State) (req r val : Nat) : State :=
  let s := s.commitNow req (R.MEM_RGN_COMMIT r) val (s.memRgnCode r)
  s.put F.MEM_GUARD_USED.MIB (guardedSize s.regions / 0x100000)

def execMemRgnCommit (t req region val : Nat) (s : State) : Res :=
  .next ((s.at t).asReq req (R.MEM_RGN_COMMIT region) 4 val (fun s => s.memRgnCommit req region val))

/-! ### Canal mesh -/

/-- Neighbouring stop over a port: N, E, S, W (R278). -/
def neighbour (s port : Nat) : Option Nat :=
  let x := s % 8
  let y := s / 8
  if port = 0 then (if y = 0 then none else some (s - 8))
  else if port = 1 then (if x = 7 then none else some (s + 1))
  else if port = 2 then (if y = 11 then none else some (s + 8))
  else (if x = 0 then none else some (s - 1))

/-- The other index of a link (R278). -/
def otherEnd (link : Nat) : Option Nat := (neighbour (link / 4) (link % 4)).map (fun n => 4 * n + (link % 4 + 2) % 4)

/-- Index of a link from its end stop of lower number (R416). -/
def linkIndex (link : Nat) : Nat :=
  match otherEnd link with
  | some o => if o / 4 < link / 4 then o else link
  | none => link

/-- Both ends of a link. -/
def linkEnds (link : Nat) : List Nat := link :: (otherEnd link).toList

/-- True when a link has failed. -/
def State.linkFailed (s : State) (link : Nat) : Bool := (s.get (F.CN_STOP_LINK.FAILED (link / 4))).testBit (link % 4)

/-- True when a link counts as failed: not restored by TEST_FAULT (R528). -/
def State.linkOut (s : State) (link : Nat) : Bool := s.linkFailed link && !s.mm.relinked.contains (linkIndex link)

/-- Links that a detour around a link would use (R268): the parallel link one row or column further, and the two
links that reach it. -/
def detourLinks (link : Nat) : List Nat :=
  let i := linkIndex link
  let st := i / 4
  let x := st % 8
  let y := st / 8
  if i % 4 = 1 then
    let d := if y = 11 then 0 else 2
    let y' := if y = 11 then y - 1 else y + 1
    [4 * st + d, 4 * (8 * y' + x) + 1, 4 * (st + 1) + d]
  else
    let d := if x = 7 then 3 else 1
    let x' := if x = 7 then x - 1 else x + 1
    [4 * st + d, 4 * (8 * y + x') + 2, 4 * (st + 8) + d]

/-- A link fails: both ends stop using it, a detour is set in every stop and the packets after the last accepted one are
sent again over it; a detour across another failed link is FATAL (R268, R422). -/
def State.linkDown (s : State) (link cond flags : Nat) : State :=
  if s.linkOut link || (otherEnd link).isNone then s
  else
    let i := linkIndex link
    let s := { s with mm := { s.mm with relinked := s.mm.relinked.filter (fun x => x ≠ i) } }
    let s := s.put F.CN_ERR.LINK_FAIL 1
    let s := s.each (linkEnds link) (fun s l =>
      s.put (F.CN_STOP_LINK.FAILED (l / 4)) (s.get (F.CN_STOP_LINK.FAILED (l / 4)) ||| 2 ^ (l % 4)))
    if (detourLinks link).any s.linkOut then s.fatal pLink i cond s.aid.linkStreams 0
    else
      let streams := tabGet 0 s.aid.linkSets i
      let usable := 172 - ((List.range 384).filter (fun l => linkIndex l = l && (otherEnd l).isSome && s.linkOut l)).length
      let s := s.singlePartFault pLink i cond streams 0 usable flags
      let s := s.each (linkEnds link) (fun s l =>
        s.put (F.CN_STOP_LINK.DETOUR (l / 4)) (s.get (F.CN_STOP_LINK.DETOUR (l / 4)) ||| 2 ^ (l % 4)))
      let s := s.degraded pLink i cond streams usable flags (s.get (F.ST_GRP_ADM.FLOOR 0))
      s.askCapacity

def execLinkFail (t link : Nat) (s : State) : Res := .next ((s.at t).linkDown link 2 (s.testFlag pLink (linkIndex link)))

/-- Last packet sequence accepted at an input port (R278). -/
def State.stopSeq (s : State) (link : Nat) : Nat := natBits (s.get (F.CN_STOP_SEQ.SEQ (link / 4))) (16 * (link % 4) + 15) (16 * (link % 4))

/-- A flit arrives at a stop over the port `link` names: a good one is accepted, and with the last flit of its packet the
packet's sequence; a bad one is replayed, and RETRY_LIMIT replays of one flit in a row fail the link (R268, R278).  A packet
whose link is bypassed takes the detour. -/
def State.canalFlit (s : State) (link : Nat) (crcOk last : Bool) : State :=
  if s.linkFailed link then (if last then s.bump R.CN_CNT_DETOUR else s)
  else if crcOk then
    let w := s.reg (R.CN_STOP_SEQ (link / 4))
    let k := link % 4
    let s := if last then
        s.setReg (R.CN_STOP_SEQ (link / 4)) (setBits w (16 * k + 15) (16 * k) ((s.stopSeq link + 1) % 65536))
      else s
    { s with mm := { s.mm with links := tabSet 0 s.mm.links link 0 } }
  else
    let n := tabGet 0 s.mm.links link + 1
    let s := (s.put F.CN_ERR.CRC 1).bump R.CN_CNT_RETRY
    let s := s.corrected pLink (linkIndex link) 1 0 0
    let s := { s with mm := { s.mm with links := tabSet 0 s.mm.links link n } }
    if n ≥ s.get F.CN_CTL.RETRY_LIMIT then s.linkDown link 1 0 else s

def execCanalFlit (t link : Nat) (flit : Flit) (s : State) : Res :=
  .next (if s.domainOff dSoc then s.at t else (s.at t).canalFlit link flit.crcOk flit.last)

/-! ### Sluice queues -/

/-- A queue after a cold reset. -/
def SqQueue.empty : SqQueue := ⟨coldOf R.SQ_Q_CFG, [], [], false, false, 0, 0, 0, false, false, false, 0, 0, [], 0⟩

def State.queue (s : State) (q : Nat) : SqQueue := tabGet SqQueue.empty s.mm.queues q

def State.setQueue (s : State) (q : Nat) (x : SqQueue) : State := { s with mm := { s.mm with queues := tabInsert s.mm.queues q x } }

/-- Depth N, free words, FULL (R269, R271). -/
def SqQueue.depth (x : SqQueue) : Nat := 2 ^ F.SQ_Q_CFG.DEPTH_LOG2.of x.cfg
def SqQueue.space (x : SqQueue) : Nat := x.depth - x.words.length - x.opened.length
def SqQueue.enabled (x : SqQueue) : Bool := F.SQ_Q_CFG.ENABLE.of x.cfg = 1
def SqQueue.prod (x : SqQueue) : Nat := F.SQ_Q_CFG.PROD.of x.cfg
def SqQueue.cons (x : SqQueue) : Nat := F.SQ_Q_CFG.CONS.of x.cfg

/-- Words of a packet, the last one marked. -/
def markLast : List (List Byte) → List (List Byte × Bool)
  | [] => []
  | [w] => [(w, true)]
  | w :: ws => (w, false) :: markLast ws

/-- The producer writes a word (R270, R271).  What an overrun discards ends with the word that ends the refused packet, be that the
refused word itself (DEDUCED, log entry 89). -/
def SqQueue.write (x : SqQueue) (mark : Mark) (w : List Byte) : SqQueue :=
  if x.discarding then (match mark with
    | .more => x
    | _ => { x with discarding := false })
  else if x.space = 0 then { x with overrun := true, opened := [], discarding := mark = .more }
  else match mark with
    | .more => { x with opened := x.opened ++ [w] }
    | .last => { x with words := x.words ++ markLast (x.opened ++ [w]), opened := [], pktIn := (x.pktIn + 1) % 2 ^ 32 }
    | .bad => { x with opened := [] }

/-- A write to a queue by an agent, with the ready notice of a commit to an empty queue (R269–R272). -/
def State.sqWrite (s : State) (q agent : Nat) (mark : Mark) (w : List Byte) : State :=
  let x := s.queue q
  if !x.enabled then s
  else if agent ≠ x.prod then s.put F.SQ_ERR.ILLEGAL_AGENT 1
  else
    let y := x.write mark w
    let s := s.setQueue q y
    if x.words.isEmpty && !y.words.isEmpty then s.emit (.notice x.cons q 0 0) else s

def execSqWrite (t queue agent : Nat) (mark : Mark) (word : List Byte) (s : State) : Res :=
  .next (if s.domainOff dSoc then s.at t else (s.at t).sqWrite queue agent mark word)

/-- A packet's words enter the queue, the last one committing it (R270). -/
def SqQueue.commit (x : SqQueue) (p : List (List Byte)) : SqQueue :=
  { x with words := x.words ++ markLast p, pktIn := (x.pktIn + 1) % 2 ^ 32, sent := x.sent + 1 }

/-- The packets that a block's queue has waiting are committed while they find space (R271, R275). -/
def SqQueue.feed (x : SqQueue) : List (List (List Byte)) → SqQueue
  | [] => x
  | p :: ps => if p.length ≤ x.space then (x.commit p).feed ps else x

/-- Feed queue `q`, with the ready notice of a commit to an empty queue (R272). -/
def State.sqFeed (s : State) (q : Nat) : State :=
  let x := s.queue q
  if !x.enabled then s
  else
    let y := x.feed (x.kept.drop x.sent)
    let s := s.setQueue q y
    if x.words.isEmpty && !y.words.isEmpty then s.emit (.notice x.cons q 0 0) else s

/-- A block of the device gives queue `q` a packet, and keeps it until it is consumed (R275). -/
def State.sqGive (s : State) (q : Nat) (p : List (List Byte)) : State :=
  (s.setQueue q { s.queue q with kept := (s.queue q).kept ++ [p] }).sqFeed q

/-- Words behind the oldest packet of a queue, or behind what is left of it. -/
def afterPacket : List (List Byte × Bool) → List (List Byte × Bool)
  | [] => []
  | (_, last) :: r => if last then r else afterPacket r

/-- A packet that a block gave is consumed (R272): it and its words leave the queue, and PKT_OUT counts it. -/
def SqQueue.consume (x : SqQueue) : SqQueue :=
  { x with
    words := afterPacket x.words, kept := x.kept.drop 1, sent := x.sent - 1,
    midRead := false, pktOut := (x.pktOut + 1) % 2 ^ 32 }

/-- A consumer of the device consumes the oldest packet of queue `q`. -/
def State.sqTake (s : State) (q : Nat) : State := (s.setQueue q (s.queue q).consume).sqFeed q

/-- The queue that a table names for a stream, while it is enabled. -/
def State.boundQueue (s : State) (t : Tab Nat) (i : Nat) : Option Nat :=
  match tabFind t i with
  | some q => if (s.queue q).enabled then some q else none
  | none => none

/-- The packet is committed in the queue that a table names for stream i, or no queue is named: then the producer hands it
over directly (DESIGN CHOICE, log entry 71). -/
def State.committed (s : State) (t : Tab Nat) (i : Nat) (p : List (List Byte)) : Bool :=
  match s.boundQueue t i with
  | some q => ((s.queue q).kept.take (s.queue q).sent).contains p
  | none => true

/-- A stream's producer gives its queue a packet, if it has a queue. -/
def State.give (s : State) (t : Tab Nat) (i : Nat) (p : List (List Byte)) : State :=
  match s.boundQueue t i with
  | some q => s.sqGive q p
  | none => s

/-- The consumer takes the packet from a stream's queue, when the queue has it in front. -/
def State.take (s : State) (t : Tab Nat) (i : Nat) (p : List (List Byte)) : State :=
  match s.boundQueue t i with
  | some q => if (s.queue q).kept.head? = some p then s.sqTake q else s
  | none => s

/-- The consumer reads the oldest committed word (R272). -/
def State.sqRead (s : State) (q agent : Nat) : State :=
  let x := s.queue q
  if agent ≠ x.cons || !x.enabled then s.emit (.sqWord agent q (zeros 64) false false)
  else match x.words with
    | [] => s.emit (.sqWord agent q (zeros 64) false false)
    | (w, last) :: r =>
      let y := { x with
        words := r, midRead := !last, pktOut := if last then (x.pktOut + 1) % 2 ^ 32 else x.pktOut
        kept := if last then x.kept.drop 1 else x.kept, sent := if last then x.sent - 1 else x.sent }
      ((s.setQueue q y).emit (.sqWord agent q w last true)).sqFeed q

def execSqRead (t queue agent : Nat) (s : State) : Res :=
  .next (if s.domainOff dSoc then s.at t else (s.at t).sqRead queue agent)

/-- A queue reset (R274): every word is discarded, the epoch moves on, and both agents get a notice with PKT_OUT, on which a
producer of the device gives the packets from that sequence on again (R275). -/
def State.sqReset (s : State) (q : Nat) (cause : ResetCause) (flags : Nat) : State :=
  let x := s.queue q
  let y := { x with words := [], opened := [], discarding := false, midRead := false, epoch := (x.epoch + 1) % 256, sent := 0 }
  let s := match cause with
    | .pointer => ((s.setQueue q { y with ptrErr := true }).put F.SQ_ERR.RESET 1).bump R.SQ_CNT_RESET
    | .uncorrectable => ((s.setQueue q { y with ue := true }).put F.SQ_ERR.RESET 1).bump R.SQ_CNT_RESET
    | .software _ => s.setQueue q y
  let s := ((s.emit (.notice x.prod q 1 x.pktOut)).emit (.notice x.cons q 1 x.pktOut)).sqFeed q
  match cause with
  | .pointer => s.singlePartFault pQueue q 1 x.streams 0 4096 flags
  | .uncorrectable => s.singlePartFault pQueue q 2 x.streams 0 4096 flags
  | .software _ => s

def execQueueReset (t queue : Nat) (cause : ResetCause) (s : State) : Res := .next ((s.at t).sqReset queue cause (s.testFlag pQueue queue))

/-- The queue's registers follow SQ_SEL (R279). -/
def State.sqMirror (s : State) : State :=
  let x := s.queue (s.get F.SQ_SEL.QUEUE)
  (s.setReg R.SQ_Q_CFG x.cfg).setReg R.SQ_Q_CSTAT (BitVec.ofNat 64 x.cstat)

/-- Words of its partition that a queue configuration occupies. -/
def sqRange (w : Word) : Nat × Nat × Nat :=
  let b := 16 * F.SQ_Q_CFG.BASE.of w
  (F.SQ_Q_CFG.PART.of w, b, b + 2 ^ F.SQ_Q_CFG.DEPTH_LOG2.of w)

/-- First failing check of a queue group (R279, R280). -/
def State.sqCode (s : State) : Nat :=
  let q := s.get F.SQ_SEL.QUEUE
  let x := s.queue q
  let w := s.shadowReg R.SQ_Q_CFG
  let on := F.SQ_Q_CFG.ENABLE.of w = 1
  let r := sqRange w
  firstCode [
    (0x01, F.SQ_Q_CFG.DEPTH_LOG2.of w < 4 || F.SQ_Q_CFG.DEPTH_LOG2.of w > 16 || F.SQ_Q_CFG.PROD.of w ≥ 384 ||
      F.SQ_Q_CFG.CONS.of w ≥ 384),
    (0x06, x.enabled && w ≠ x.cfg && !(w = setBits x.cfg 63 63 0 && x.words.isEmpty && x.opened.isEmpty)),
    (0x16, on && (r.2.2 > 65536 || s.mm.queues.any (fun p =>
      let r' := sqRange p.2.cfg
      p.1 ≠ q && p.2.enabled && r.1 = r'.1 && decide (r.2.1 < r'.2.2) && decide (r'.2.1 < r.2.2))))]

/-- Streams that a population's frame queue serves (R529): the one of FW_POP_SHAPE.STREAM, or every stream mapped to its
netlist. -/
def State.popSet (s : State) (p : Nat) : Nat :=
  let i := s.get (F.FW_POP_SHAPE.STREAM p)
  if i < 128 then streamBit i
  else match s.coreSlot (s.get (F.FW_POP_CTL.CORE p)) with
    | some n => s.slotStreams n
    | none => 0

/-- Streams of the group whose work an agent takes or gives (R529): of a stand tile's group, of the fusion groups of a
coppice unit; none for another agent. -/
def State.agentSet (s : State) (agent : Nat) : Nat :=
  let stop := agent / 4
  if 24 ≤ stop && stop < 72 then unionAll ((s.tileStreams (stop - 24)).map streamBit)
  else if 72 ≤ stop && stop < 80 then
    unionAll (((List.range 32).filter (fun g => s.flag (F.CP_GRP_CTL.ENABLE g) && s.get (F.CP_GRP_CTL.UNIT g) = stop - 72)).flatMap
      (fun g => (s.groupStreams g).map streamBit))
  else 0

/-- The stream set of a queue that is enabled with a configuration (R529; which of its cases a queue is, the model reads from
the queues that Aidor bound to streams, from the populations' QUEUE fields and from the agents: DEDUCED, log entry 71). -/
def State.queueSet (s : State) (q : Nat) (cfg : Word) : Nat :=
  match (s.mm.inQ ++ s.mm.outQ).find? (fun p => p.2 = q) with
  | some p => streamBit p.1
  | none => match (List.range 256).find? (fun p => s.flag (F.FW_POP_CTL.ENABLE p) && s.get (F.FW_POP_DEST.QUEUE p) = q) with
    | some p => s.popSet p
    | none => s.agentSet (F.SQ_Q_CFG.CONS.of cfg) ||| s.agentSet (F.SQ_Q_CFG.PROD.of cfg)

/-- A write to SQ_Q_COMMIT (R279): an enabled queue starts empty, with its counts at 0, and Aidor fixes its stream set (R529). -/
def State.sqQCommit (s : State) (req val : Nat) : State :=
  let q := s.get F.SQ_SEL.QUEUE
  let x := s.queue q
  let code := s.sqCode
  let w := s.shadowReg R.SQ_Q_CFG
  let ok := s.commitPasses req R.SQ_Q_COMMIT val code
  let s := s.commitNow req R.SQ_Q_COMMIT val code
  let x := { x with cstat := s.get F.SQ_Q_CSTAT.CODE }
  if ok then
    let x := { x with cfg := w }
    s.setQueue q (if F.SQ_Q_CFG.ENABLE.of w = 1 && !(s.queue q).enabled then
      { x with
        words := [], opened := [], discarding := false, midRead := false, epoch := 0, pktIn := 0, pktOut := 0
        streams := s.queueSet q w, kept := [], sent := 0 } else x)
  else s.setQueue q x

def execSqQCommit (t req val : Nat) (s : State) : Res :=
  .next ((s.at t).asReq req R.SQ_Q_COMMIT 4 val (fun s => s.sqQCommit req val))

/-- A place for a queue of 2^n words: the first 16-word unit of a partition at which it meets no enabled queue. -/
def State.freeRange (s : State) (part n : Nat) : Option Nat :=
  (List.range 4096).find? (fun b => 16 * b + 2 ^ n ≤ 65536 && !s.mm.queues.any (fun p =>
    let r := sqRange p.2.cfg
    p.2.enabled && r.1 = part && decide (16 * b < r.2.2) && decide (r.2.1 < 16 * b + 2 ^ n)))

/-- Aidor enables a queue of 2^n words for a stream, between two agents: the highest number that is not in use, in the first
partition with room (R529; number, depth and place are Aidor's: DESIGN CHOICE, log entry 71). -/
def State.enableQueue (s : State) (i prod cons n : Nat) : State × Option Nat :=
  match ((List.range 4096).reverse).find? (fun q => !(s.queue q).enabled && q ≠ s.get F.SQ_SEL.QUEUE &&
      !(List.range 256).any (fun p => s.get (F.FW_POP_DEST.QUEUE p) = q)),
    (List.range 4).findSome? (fun part => (s.freeRange part n).map (fun b => (part, b))) with
  | some q, some (part, b) =>
    let w := setBits (setBits (setBits (setBits (setBits (setBits 0 63 63 1) 57 49 prod) 48 40 cons) 37 36 part) 31 20 b) 4 0 n
    (s.setQueue q { SqQueue.empty with cfg := w, streams := streamBit i }, some q)
  | _, _ => (s, none)

/-- Log2 of the words that Aidor gives a stream's queues. -/
def streamQueueLog : Nat := 6

/-- Aidor binds an input and an output queue to a stream that opens, unless it has them: from a headgate stop to the first
tile of its stand group, and from there to the coppice unit of its fusion group (R65, R195, R529). -/
def State.bindQueues (s : State) (i : Nat) : State :=
  let t := ((List.range 48).find? (fun t => (s.tileStreams t).contains i)).getD 0
  let tile := agentOf (stopOfTile t) 0
  let r := match s.boundQueue s.mm.inQ i with
    | some q => (s, some q)
    | none => s.enableQueue i (agentOf (stopOfHeadgate i) 0) tile streamQueueLog
  let s := match r.2 with
    | some q => { r.1 with mm := { r.1.mm with inQ := tabInsert r.1.mm.inQ i q } }
    | none => r.1
  let r := match s.boundQueue s.mm.outQ i with
    | some q => (s, some q)
    | none => s.enableQueue i tile (agentOf (stopOfUnit (s.get (F.CP_GRP_CTL.UNIT (s.get (F.HG_STREAM_CTL.GROUP i))))) 0) streamQueueLog
  match r.2 with
  | some q => { r.1 with mm := { r.1.mm with outQ := tabInsert r.1.mm.outQ i q } }
  | none => r.1

end Sys2Proof.Machine
end

