-- ==== Sys2Proof/Machine/Furrow.lean ====
section
/-!
DEFINITION. The furrow spiking fabric (R97–R126): packets and markers, the update of the neurons at a step end, stretches,
count windows and frames, the loss of a core, and the four commit groups.
-/

namespace Sys2Proof.Machine

/-! ### Cores and packets -/

def FwAcc.empty : FwAcc := ⟨[], 0, 0, false, false⟩
def FwWin.empty : FwWin := ⟨[], 0, false, false⟩
def FwCore.empty : FwCore :=
  ⟨[], [], FwAcc.empty, FwAcc.empty, 0, 0, [], [], [], [], [], [], false, 0, [], none, none⟩

def State.fcore (s : State) (c : Nat) : FwCore := tabGet FwCore.empty s.fw.cores c

/-- The state with core `c` replaced; its queue fields follow (R126). -/
def State.setFcore (s : State) (c : Nat) (x : FwCore) : State :=
  let s := { s with fw := { s.fw with cores := tabInsert s.fw.cores c x } }
  let s := (s.put (F.FW_CORE_DQ.DQ_OCC c) x.queue.length).put (F.FW_CORE_DQ.SPILLED c) x.spill.length
  s.put (F.FW_CORE_STAT.OPEN_STEP c) x.opened

def State.fwOn (s : State) : Bool := s.flag F.FW_CTL.ENABLE

/-- Step length P, ns (R112). -/
def State.stepNs (s : State) : Nat := 1000 * s.get F.FW_CTL.STEP_US

/-- A core that runs a logical core: RUN or STRETCHING (R126). -/
def State.coreRuns (s : State) (c : Nat) : Bool :=
  s.flag (F.FW_CORE_CFG.ENABLE c) && (s.get (F.FW_CORE_STAT.STATE c) = 1 || s.get (F.FW_CORE_STAT.STATE c) = 2)

def State.physOf (s : State) (l : Nat) : Nat := tabGet 0 s.fw.remap l

/-- A spike packet (R107). -/
def spikePacket (dest axon delay : Nat) (mark : Bool) (step : Nat) : Nat :=
  dest % 128 * 2 ^ 25 + axon % 1024 * 2 ^ 15 + delay % 64 * 2 ^ 9 + bit mark * 2 ^ 8 + step % 256

/-- Full step number of a tag at a core whose open step is `o` (R108). -/
def fullStep (o tag : Nat) : Nat :=
  let lo : Int := (o : Int) - 128
  (lo + ((tag : Int) - lo) % 256).toNat

/-- Signed weight in a nibble. -/
def nibble (x : Nat) : Int := toSigned 4 x

/-- Non-zero weights of axon `a` of core `c`, per neuron (R103). -/
def State.weightRow (s : State) (c a : Nat) : List (Nat × Int) :=
  let base := 0x410000000000 + c * 0x100000 + 512 * a
  (s.mem.filter (fun x => base ≤ x.1 && x.1 < base + 512)).flatMap (fun x =>
    [(2 * (x.1 - base), nibble (x.2.toNat % 16)), (2 * (x.1 - base) + 1, nibble (x.2.toNat / 16))])

/-- An input spike joins an accumulator (R101, R104). -/
def FwAcc.add (a : FwAcc) (row : List (Nat × Int)) (late moved spilled : Bool) : FwAcc where
  sums := row.foldl (fun t p => tabSet 0 t p.1 (tabGet 0 t p.1 + p.2)) a.sums
  inputs := a.inputs + 1
  late := a.late + bit late
  moved := a.moved || moved
  spilled := a.spilled || spilled

/-- Cap on the inputs of a step (R115). -/
def inputCap : Nat := 1048576

/-- Packets that a spill bin holds: its share of the spill area at four bytes each (R111). -/
def State.binCap (s : State) : Nat := s.get F.FW_SPILL_SIZE.SIZE_MIB * 0x100000 / 96 / 64 / 4

/-- Device address of entry `n` of bin `j` in the spill area of router `c` (R111). -/
def State.binAddr (s : State) (c j n : Nat) : Nat :=
  let area := s.get F.FW_SPILL_SIZE.SIZE_MIB * 0x100000 / 96
  4096 * s.get F.FW_SPILL_BASE.BASE + c * area + j * (area / 64) + 4 * n

/-- A packet for a later step waits in the delay queue, else in its spill bin, else at the router's input, where a packet
that is new there is counted (R110, R111). -/
def State.deferAs (s : State) (c : Nat) (p : FwPkt) (counted : Bool) : State :=
  let x := s.fcore c
  let j := p.target % 64
  let n := (x.spill.filter (fun q => q.target % 64 = j)).length
  if x.queue.length < 4096 then s.setFcore c { x with queue := x.queue ++ [p] }
  else if n < s.binCap then
    ((s.setFcore c { x with spill := x.spill ++ [{ p with spilled := true }] }).dramPut (s.binAddr c j n) (leBytes 4 p.packet)).bump
      R.FW_CNT_SPILL
  else
    let s := s.setFcore c { x with held := x.held ++ [p] }
    if counted then s else (s.put F.FW_STAT.SPILL_STALL 1).bump R.FW_CNT_SPILL_STALL

/-- An input moved past the cap of its step (R115). -/
def State.carried (s : State) : State := (s.put F.FW_STAT.CARRY 1).bump R.FW_CNT_CARRY

/-- A packet is integrated into the open step or the one after it, or waits (R110, R115); `held` says that it was held at the
router's input before. -/
def State.intake (s : State) (c : Nat) (p : FwPkt) (held : Bool) : State :=
  let x := s.fcore c
  let row := s.weightRow c (natBits p.packet 24 15)
  if p.target ≤ x.opened && x.acc.inputs < inputCap then
    s.setFcore c { x with
      acc := x.acc.add row p.late p.moved p.spilled, log := x.log ++ [{ p with target := x.opened }] }
  else if p.target ≤ x.opened + 1 then
    let moved := p.moved || decide (p.target ≤ x.opened)
    if x.next.inputs < inputCap then
      let s := if p.target ≤ x.opened then s.carried else s
      s.setFcore c { x with
        next := x.next.add row p.late moved p.spilled, log := x.log ++ [{ p with target := x.opened + 1, moved := moved }] }
    else s.carried.deferAs c { p with target := x.opened + 2, moved := true } held
  else s.deferAs c p held

/-- A packet for a step that has ended is late: it joins the open step, and is counted by its kind (R114, R115). -/
def State.lateInto (s : State) (c : Nat) (p : FwPkt) (held : Bool) : State :=
  let s := if natBits p.packet 14 9 = 0 then (s.put F.FW_STAT.EXT_LATE 1).bump R.FW_CNT_EXT_LATE
    else (s.put F.FW_STAT.LATE 1).bump R.FW_CNT_LATE
  s.intake c { p with target := (s.fcore c).opened, late := true } held

/-- A packet is taken for its step, or as a late one. -/
def State.takeIn (s : State) (c : Nat) (p : FwPkt) (held : Bool) : State :=
  if p.target < (s.fcore c).opened then s.lateInto c p held else s.intake c p held

/-- The core that takes the packets of router `c`: its own, or the one that took its place (R122). -/
def State.routerOf (s : State) (c : Nat) : Nat := tabGet c s.fw.forward c

/-- A marker counts for its source (R109). -/
def State.markerIn (s : State) (c src step : Nat) : State :=
  let x := s.fcore c
  s.setFcore c { x with marks := tabInsert x.marks src (max (tabGet 0 x.marks src) (step + 1)) }

/-- Input of router `c` by which the packets of a source arrive, X first and then Y (R108): 0 north, 1 south, 2 west, 3 east,
4 the core's own port, 5 the gateway's injection port.  A gateway injects in the destination's column of its row (DESIGN
CHOICE, log entry 81). -/
def inputOf (src c : Nat) : Nat :=
  let x := if src < 128 then src % 12 else c % 12
  let y := if src < 128 then src / 12 else src - 128
  if y < c / 12 then 0
  else if c / 12 < y then 1
  else if x < c % 12 then 2
  else if c % 12 < x then 3
  else if src < 128 then 4
  else 5

/-- The packet on the mesh that is the first of its path (R108): no earlier one of its source to its destination is in flight. -/
def firstOfPath : List FwFly → List FwFly → Nat → Option FwFly
  | [], _, _ => none
  | f :: r, before, packet =>
    if f.packet = packet && !before.any (fun b => b.src = f.src && natBits b.packet 31 25 = natBits packet 31 25) then some f
    else firstOfPath r (f :: before) packet

/-- A packet arrives at its destination router, unless one that is held at the same input stands before it (R108–R111, R115).
A packet that is not the next of its path cannot arrive. -/
def State.packetIn (s : State) (packet : Nat) (mark : Bool) : State :=
  match firstOfPath s.fw.flight [] packet with
  | none => s
  | some f =>
    let c := s.routerOf (natBits packet 31 25)
    if packet.testBit 8 ≠ mark || (s.fcore c).held.any (fun h => inputOf h.src c = inputOf f.src c) then s
    else
      let s := { s with fw := { s.fw with flight := s.fw.flight.erase f } }
      if !s.fwOn || !s.coreRuns c then s
      else
        let full := fullStep (s.fcore c).opened (natBits packet 7 0)
        if mark then s.markerIn c (natBits packet 24 15) full
        else s.takeIn c ⟨packet, full + natBits packet 14 9, f.src, false, false, false⟩ false

def execSpikePacket (t packet : Nat) (s : State) : Res := .next ((s.at t).packetIn packet false)

def execStepMarker (t packet : Nat) (s : State) : Res := .next ((s.at t).packetIn packet true)

/-- Packets of a source enter the router mesh. -/
def State.inject (s : State) (src : Nat) (l : List Nat) : State :=
  { s with fw := { s.fw with flight := s.fw.flight ++ l.map (fun p => ⟨src, p⟩) } }

/-! ### Retina maps -/

/-- Entries of a stream's retina map (R105). -/
def State.mapEntries (s : State) (i : Nat) : Nat :=
  let bx := s.get (F.FW_MAP_CTL.BX i)
  let by' := s.get (F.FW_MAP_CTL.BY i)
  ceilDiv (s.get (F.HG_STREAM_GEOM.HEIGHT i)) (2 ^ by') * ceilDiv (s.get (F.HG_STREAM_GEOM.WIDTH i)) (2 ^ bx) *
    (if s.flag (F.FW_MAP_CTL.POL_SPLIT i) then 2 else 1)

/-- Destination words of a map entry (R105). -/
def State.mapWords (s : State) (i e : Nat) : List Nat :=
  (List.range 4).map (fun k => s.mapNat i 1 (64 * s.get (F.FW_MAP_ADDR.ADDR i)) (16 * e + 4 * k) 4)

/-- A kept change event of device time `t` is forwarded to the fabric (R106). -/
def State.furrowFeed (s : State) (i x y : Nat) (on : Bool) (t : Nat) : State :=
  if !s.fwOn || !s.flag (F.FW_MAP_CTL.ENABLE i) then s
  else
    let wb := ceilDiv (s.get (F.HG_STREAM_GEOM.WIDTH i)) (2 ^ s.get (F.FW_MAP_CTL.BX i))
    let b := y / 2 ^ s.get (F.FW_MAP_CTL.BY i) * wb + x / 2 ^ s.get (F.FW_MAP_CTL.BX i)
    let e := if s.flag (F.FW_MAP_CTL.POL_SPLIT i) then 2 * b + bit on else b
    s.inject (128 + s.get (F.FW_MAP_CTL.GATEWAY i)) (((s.mapWords i e).filter (fun w => w.testBit 31)).map (fun w =>
      spikePacket (s.physOf (natBits w 30 24)) (natBits w 23 14) 0 false (t / s.stepNs)))

/-- Logical cores of a stream's map. -/
def State.mapCores (s : State) (i : Nat) : List Nat :=
  let ws := (List.range (s.mapEntries i)).flatMap (fun e => s.mapWords i e)
  (List.range 96).filter (fun l => ws.any (fun w => w.testBit 31 && natBits w 30 24 = l))

/-- Horizon of a stream (R109): the newest accepted end time, or the device time less the guard. -/
def State.horizon (s : State) (i : Nat) : Nat := max (s.stream i).tEnd (s.time - 1000 * s.get (F.HG_STREAM_TIME.GUARD i))

/-- The gateway marks step `step` to every core of a stream's map once the horizon has passed the step (R109). -/
def State.gatewayMark (s : State) (g i step : Nat) : State :=
  if !s.fwOn || !s.flag (F.FW_MAP_CTL.ENABLE i) || s.get (F.FW_MAP_CTL.GATEWAY i) ≠ g || step < tabGet 0 s.fw.marked i ||
      s.horizon i < (step + 1) * s.stepNs then s
  else
    let s := { s with fw := { s.fw with marked := tabInsert s.fw.marked i (step + 1) } }
    s.inject (128 + g) ((s.mapCores i).map (fun l => spikePacket (s.physOf l) (128 + g) 0 true step))

def execGatewayMarker (t gateway stream step : Nat) (s : State) : Res := .next ((s.at t).gatewayMark gateway stream step)

/-! ### Neurons -/

/-- The update of one neuron at a step end (R100): membrane, refractory counter, whether it fires. -/
def neuronStep (entry scale : Nat) (v : Int) (rho : Nat) (acc : Int) : Int × Nat × Bool :=
  if rho > 0 then (v, rho - 1, false)
  else
    let leak := natBits entry 15 12
    let lk := if leak > 0 then floorDiv v (2 ^ leak) else 0
    let u := v - lk + floorDiv (acc * scale + 128) 256
    let v' := satSigned 16 u
    let theta := natBits entry 63 48
    if v' ≥ (theta : Int) then
      (if entry.testBit 7 then v' - theta else toSigned 16 (natBits entry 47 32), natBits entry 11 8, true)
    else (v', 0, false)

/-- What the update of the neurons of a core gives. -/
structure FwUpdate where
  v : Tab Int
  rho : Tab Nat
  fired : List Nat
  deriving DecidableEq, Repr

/-- The update of neurons `n` upwards (R100). -/
def updateNeurons (tbl : Tab Nat) (scale : Nat) (sums : Tab Int) : List Nat → FwUpdate → FwUpdate
  | [], u => u
  | n :: r, u =>
    let o := neuronStep (tabGet 0 tbl n) scale (tabGet 0 u.v n) (tabGet 0 u.rho n) (tabGet 0 sums n)
    updateNeurons tbl scale sums r ⟨tabSet 0 u.v n o.1, tabSet 0 u.rho n o.2.1, if o.2.2 then u.fired ++ [n] else u.fired⟩

/-- Spike packets of the neurons that fired in a step (R107). -/
def State.spikesOf (s : State) (c step : Nat) (fired : List Nat) : List Nat :=
  let tbl := tabGet [] s.fw.neurons c
  let fan := tabGet [] s.fw.fanout c
  fired.flatMap (fun n =>
    (((List.range (natBits (tabGet 0 tbl n) 4 0)).map (fun k => tabGet 0 fan (16 * n + k))).filter (fun e => e.testBit 31)).map
      (fun e => spikePacket (s.physOf (natBits e 30 24)) (natBits e 23 14) (natBits e 13 8) false step))

/-- Cores that a core's bitmap names. -/
def State.upstream (s : State) (c : Nat) : List Nat :=
  let m := s.get (F.FW_CORE_UP_LO.UP c) + 2 ^ 64 * s.get (F.FW_CORE_UP_HI.UP c)
  (List.range 96).filter (fun l => m.testBit l)
def State.downstream (s : State) (c : Nat) : List Nat :=
  let m := s.get (F.FW_CORE_DN_LO.DN c) + 2 ^ 64 * s.get (F.FW_CORE_DN_HI.DN c)
  (List.range 96).filter (fun l => m.testBit l)

/-! ### Populations and count frames -/

/-- Elements of a population (R117). -/
def State.popSize (s : State) (p : Nat) : Nat := s.get (F.FW_POP_SHAPE.C p) * s.get (F.FW_POP_SHAPE.H p) * s.get (F.FW_POP_SHAPE.W p)

/-- Enabled populations of a logical core. -/
def State.popsOf (s : State) (l : Nat) : List Nat :=
  (List.range 256).filter (fun p => s.flag (F.FW_POP_CTL.ENABLE p) && s.get (F.FW_POP_CTL.CORE p) = l)

/-- A count window of a population ends with step `step`. -/
def State.windowEnds (s : State) (p step : Nat) : Bool := (step + 1) % s.get (F.FW_POP_CTL.WINDOW p) = 0

/-- The count buffer of a population is busy: its last frame has not been taken (R113, R118). -/
def State.bufferBusy (s : State) (p : Nat) : Bool := s.fw.frames.any (fun f => f.pop = p)

/-- Bytes of the counts of a window, with whether one saturated (R117). -/
def countBytes (fmt : Nat) (base n : Nat) (t : Tab Nat) : List Byte :=
  (List.range n).flatMap (fun i => leBytes (1 + fmt) (satNat (8 + 8 * fmt) (tabGet 0 t (base + i))))

/-- The frame of the window that ended with step `step` (R118). -/
def State.frameOf (s : State) (l p step : Nat) (w : FwWin) (replayed : Bool) : FwFrame :=
  let fmt := s.get (F.FW_POP_CTL.FORMAT p)
  let n := s.popSize p
  let base := s.get (F.FW_POP_CTL.BASE p)
  let cs := (List.range n).map (fun i => tabGet 0 w.counts (base + i))
  let sat := fmt = 0 && cs.any (fun x => x > 255)
  let wn := s.get (F.FW_POP_CTL.WINDOW p)
  let epoch := match s.coreSlot l with
    | some k => (match s.slot k with
      | some x => x.epoch
      | none => 0)
    | none => 0
  { pop := p
    header := fieldsBytes [(1, 2), (1, bit w.lateFlag + 2 * bit w.spilled + 4 * bit sat + 8 * bit replayed), (2, p), (1, l), (1, fmt),
      (2, wn), (8, step / wn), (8, (step + 1) * s.stepNs), (2, s.get (F.FW_POP_SHAPE.C p)), (2, s.get (F.FW_POP_SHAPE.H p)),
      (2, s.get (F.FW_POP_SHAPE.W p)), (2, s.get (F.FW_POP_SHAPE.STREAM p)), (4, sumNat cs), (4, w.late), (8, epoch), (16, 0)]
    counts := countBytes fmt base n w.counts }

/-- The window of a population takes the step's spikes and late inputs (R117, R118). -/
def FwWin.take (w : FwWin) (base n : Nat) (fired : List Nat) (a : FwAcc) (stretched : Bool) : FwWin where
  counts := (fired.filter (fun x => base ≤ x && x < base + n)).foldl (fun t x => tabSet 0 t x (tabGet 0 t x + 1)) w.counts
  late := w.late + a.late
  lateFlag := w.lateFlag || a.late ≠ 0 || a.moved || stretched
  spilled := w.spilled || a.spilled

/-- One population at the end of step `step` of core `c`: its window goes on, or becomes a frame (R117, R118). -/
def State.popStep (s : State) (c l step : Nat) (fired : List Nat) (a : FwAcc) (stretched : Bool) (p : Nat) : State :=
  let x := s.fcore c
  let w := (tabGet FwWin.empty x.wins p).take (s.get (F.FW_POP_CTL.BASE p)) (s.popSize p) fired a stretched
  if s.windowEnds p step then
    let s := s.setFcore c { x with wins := tabErase x.wins p, replaying := x.replaying.filter (fun q => q ≠ p) }
    if step / s.get (F.FW_POP_CTL.WINDOW p) < tabGet 0 s.fw.written p then s
    else { s with fw := { s.fw with frames := s.fw.frames ++ [s.frameOf l p step w (x.replaying.contains p)] } }
  else s.setFcore c { x with wins := tabInsert x.wins p w }

/-! ### Step ends -/

/-- Conditions of R113 for the end of the open step of core `c`. -/
def State.stepReady (s : State) (c : Nat) : Bool :=
  let x := s.fcore c
  let o := x.opened
  decide ((o + 1) * s.stepNs ≤ s.time) &&
  ((List.range 8).filter (fun g => (s.get (F.FW_CORE_CFG.GW_MASK c)).testBit g)).all (fun g => decide (o < tabGet 0 x.marks (128 + g))) &&
  (s.upstream c).all (fun l => decide (o ≤ tabGet 0 x.marks l) || decide (o ≤ (s.fcore (s.physOf l)).first)) &&
  x.held.all (fun p => decide (o < p.target)) &&
  (s.popsOf (s.get (F.FW_CORE_CFG.LOGICAL c))).all (fun p => !(s.windowEnds p o && s.bufferBusy p))

/-- The bytes of a checkpoint (R121): membranes, refractory counters and window counts of all neurons, 5 KiB (their order and
widths: DESIGN CHOICE, log entry 23). -/
def State.ckptBytes (s : State) (l : Nat) (k : FwCkpt) : List Byte :=
  let ns := List.range 1024
  let count := fun n => match (s.popsOf l).find? (fun p =>
      s.get (F.FW_POP_CTL.BASE p) ≤ n && n < s.get (F.FW_POP_CTL.BASE p) + s.popSize p) with
    | some p => tabGet 0 (tabGet FwWin.empty k.wins p).counts n
    | none => 0
  ns.flatMap (fun n => leBytes 2 (fromSigned 16 (tabGet 0 k.v n))) ++ ns.flatMap (fun n => leBytes 1 (tabGet 0 k.rho n)) ++
    ns.flatMap (fun n => leBytes 2 (count n))

/-- The checkpoint of step `o` of core `c` is written to the buffer of its parity, through the core's gateway; the one before
it is complete, and the retained log keeps what no completed checkpoint covers (R121). -/
def State.checkpointCore (s : State) (c l o : Nat) : State :=
  let x := s.fcore c
  let k : FwCkpt := ⟨o, x.v, x.rho, x.wins⟩
  let done := x.ckptNew
  let s := s.setFcore c { x with
    ckpt := done, ckptNew := some k
    log := x.log.filter (fun p => match done with
      | some d => decide (d.step < p.target)
      | none => true) }
  s.dramPut (4096 * s.get F.FW_CKPT_BASE.BASE + 0x4000 * c + 0x2000 * (o % 2)) (s.ckptBytes l k)

/-- The end of the open step of core `c` (R100, R109–R111, R117, R121): the spill bin of the next step is refilled, the
neurons update, spikes and then markers are sent, the windows take the spikes, the queues release what has become due, and
the checkpoint of the step is taken. -/
def State.endStep (s : State) (c : Nat) (stretched : Bool) : State :=
  let x := s.fcore c
  let o := x.opened
  let l := s.get (F.FW_CORE_CFG.LOGICAL c)
  let due := x.spill.filter (fun p => p.target ≤ o + 1)
  let s := s.setFcore c { x with spill := x.spill.filter (fun p => o + 1 < p.target) }
  let s := s.each due (fun s p => s.intake c p false)
  let x := s.fcore c
  let u := updateNeurons (tabGet [] s.fw.neurons c) (s.get (F.FW_CORE_CFG.SCALE c)) x.acc.sums (List.range 1024) ⟨x.v, x.rho, []⟩
  let s := if o < x.sent then s
    else s.inject c (s.spikesOf c o u.fired ++ (s.downstream c).map (fun d => spikePacket (s.physOf d) l 0 true o))
  let s := s.setFcore c { x with v := u.v, rho := u.rho, sent := max x.sent (o + 1) }
  let s := s.each (s.popsOf l) (fun s p => s.popStep c l o u.fired x.acc stretched p)
  let x := s.fcore c
  let ready := x.queue.filter (fun p => p.target ≤ o + 2)
  let held := x.held
  let s := s.setFcore c { x with
    acc := x.next, next := FwAcc.empty, opened := o + 1, queue := x.queue.filter (fun p => o + 2 < p.target), held := []
    stretching := false }
  let s := s.checkpointCore c l o
  let s := s.each ready (fun s p => s.intake c p false)
  let s := s.each held (fun s p => s.takeIn c p true)
  s.put (F.FW_CORE_STAT.STATE c) 1

def execStepEnd (t core : Nat) (s : State) : Res :=
  .next (let s := s.at t
    if s.fwOn && s.coreRuns core && s.stepReady core then s.endStep core false else s)

/-- Step deadline of the open step (R114). -/
def State.stepDeadline (s : State) (c : Nat) : Nat := ((s.fcore c).opened + 1) * s.stepNs + 1000 * s.get F.FW_CTL.LAG_US

/-- A core that has not ended its step by the deadline stretches it (R114); one whose step can end by then ends it. -/
def State.startStretch (s : State) (c : Nat) : State :=
  let x := s.fcore c
  if !s.fwOn || !s.coreRuns c || x.stretching then s
  else
    let s := s.at (s.stepDeadline c)
    if s.stepReady c then s.endStep c false
    else (((s.setFcore c { x with stretching := true }).put (F.FW_CORE_STAT.STATE c) 2).put F.FW_STAT.STRETCH 1).bump R.FW_CNT_STRETCH

def execStepDeadline (core : Nat) (s : State) : Res := .next (s.startStretch core)

/-- The stretch is used up: the step ends with what it has integrated (R114). -/
def State.endStretch (s : State) (c : Nat) : State :=
  if !s.fwOn || !s.coreRuns c || !(s.fcore c).stretching then s
  else
    let s := s.at (s.stepDeadline c + s.stepNs * s.get F.FW_CTL.STRETCH / 100)
    s.endStep c (!s.stepReady c)

def execStretchExpiry (core : Nat) (s : State) : Res := .next (s.endStretch core)

/-- Words of a list of bytes, padded with zeros to 64 bytes each. -/
def wordsOf : Nat → List Byte → List (List Byte)
  | 0, _ => []
  | n + 1, bs => if bs.isEmpty then [] else (bs ++ zeros 64).take 64 :: wordsOf n (bs.drop 64)

/-- Words of a frame's packet (R118). -/
def FwFrame.words (f : FwFrame) : List (List Byte) := f.header :: wordsOf (f.counts.length + 1) f.counts

/-- The host copy of a frame (R119). -/
def State.hostFrame (s : State) (p : Nat) (f : FwFrame) : State :=
  if !s.flag (F.FW_POP_CTL.HOST p) then s
  else
    let r := s.get (F.FW_POP_DEST.RING p)
    if s.resultRoom r 1 then
      match s.ring r with
      | none => s
      | some x =>
        let e := (x.dev + x.waiting) % x.size
        let a := 64 * s.get (F.FW_POP_HBUF.ADDR p) + e * (ceilDiv (s.popSize p * (1 + s.get (F.FW_POP_CTL.FORMAT p))) 64 * 64)
        let s := s.access 0 a true f.counts f.counts.length .clean
        s.pushRun r ⟨.countFrame p, [leBytes 1 4 ++ (f.header.drop 1).take 62 ++ zeros 1]⟩
    else (s.put F.FW_STAT.HOST_DROP 1).bump R.FW_CNT_HOST_DROP

/-- The gateway of the core writes the oldest frame of a population into its sluice queue once the queue has room, and keeps
a copy until it is consumed (R97, R118, R119, R275).  A queue of another producer does not take it (R269). -/
def State.countFrame (s : State) (p : Nat) : State :=
  match s.fw.frames.find? (fun f => f.pop = p) with
  | none => s
  | some f =>
    let q := s.get (F.FW_POP_DEST.QUEUE p)
    let x := s.queue q
    if !x.enabled || x.sent < x.kept.length || x.space < f.words.length then s
    else if x.prod / 4 ≠ stopOfGateway (gatewayOf (s.physOf (s.get (F.FW_POP_CTL.CORE p)))) then s.put F.SQ_ERR.ILLEGAL_AGENT 1
    else
      let s := s.sqGive q f.words
      let s := { s with fw := { s.fw with
        frames := s.fw.frames.erase f, written := tabInsert s.fw.written p (fieldAt f.header 8 8 + 1) } }
      s.hostFrame p f

def execCountFrame (t pop : Nat) (s : State) : Res := .next ((s.at t).countFrame pop)

/-- The enabled populations whose frames stand group members take for slices of stream i: their queue feeds a stand tile
(R120). -/
def State.feedsStand (s : State) (q : Nat) : Bool :=
  let x := s.queue q
  x.enabled && decide (stopOfTile 0 ≤ x.cons / 4) && decide (x.cons / 4 ≤ stopOfTile 47)
def State.standPops (s : State) (i : Nat) : List Nat :=
  (List.range 256).filter (fun p => s.flag (F.FW_POP_CTL.ENABLE p) && s.get (F.FW_POP_SHAPE.STREAM p) = i &&
    s.feedsStand (s.get (F.FW_POP_DEST.QUEUE p)))

/-- The packet is a frame of population p whose window ends at or before `t`. -/
def frameBefore (p t : Nat) (ws : List (List Byte)) : Bool :=
  match ws with
  | h :: _ => fieldAt h 0 1 = 2 && fieldAt h 2 2 = p && decide (fieldAt h 16 8 ≤ t)
  | [] => false

/-- The committed frames of queue q, from its front on, whose windows ended by `t` are taken. -/
def State.takeFront (s : State) (q p t : Nat) : Nat → State
  | 0 => s
  | n + 1 =>
    let x := s.queue q
    match x.kept with
    | ws :: _ => if 0 < x.sent && frameBefore p t ws then (s.sqTake q).takeFront q p t n else s
    | [] => s

/-- The stand group takes every frame of the stream's populations whose window end lies in the slice that ends at `t`; older
frames, of slices that never ran, go with them (R120). -/
def State.takeFrames (s : State) (i t : Nat) : State :=
  s.each (s.standPops i) (fun s p =>
    let q := s.get (F.FW_POP_DEST.QUEUE p)
    s.takeFront q p t (s.queue q).kept.length)

/-! ### Losing a core -/

/-- Physical cores that are enabled and have not failed. -/
def State.coresUp (s : State) : List Nat :=
  (List.range 96).filter (fun c => s.flag (F.FW_CORE_CFG.ENABLE c) && s.get (F.FW_CORE_STAT.STATE c) ≠ 3)

/-- The memory with the synapse matrix of core `d` replaced by that of core `c`. -/
def copySynapses (m : List Host.Cell) (c d : Nat) : List Host.Cell :=
  let bc := 0x410000000000 + c * 0x100000
  let bd := 0x410000000000 + d * 0x100000
  let src := m.filter (fun x => bc ≤ x.1 && x.1 < bc + 0x80000)
  src.foldl (fun m x => memPut m (bd + (x.1 - bc)) x.2) (m.filter (fun x => !(bd ≤ x.1 && x.1 < bd + 0x80000)))

/-- Initial membranes of a core (R102). -/
def State.initV (s : State) (c : Nat) : Tab Int :=
  (List.range 1024).foldl (fun t n => tabSet 0 t n (toSigned 16 (natBits (tabGet 0 (tabGet [] s.fw.neurons c) n) 31 16))) []

/-- The newest completed checkpoint of a core; whether the one in the making is complete is open (R121, log entry 24). -/
def State.newestCkpt (s : State) (x : FwCore) : Option FwCkpt :=
  if s.freeVal .checkpointDone = 0 then x.ckpt else x.ckptNew

/-- The state of a core that goes back to its newest completed checkpoint (R122): the steps after it are executed again with
the inputs of the retained log, and the next frame of each population carries REPLAYED. -/
def State.coreBack (s : State) (c l : Nat) (x : FwCore) : State :=
  let k := (s.newestCkpt x).getD ⟨x.first - 1, s.initV c, [], []⟩
  let o := if (s.newestCkpt x).isSome then k.step + 1 else x.first
  let s := s.tickFree.setFcore c { x with
    v := k.v, rho := k.rho, wins := k.wins, opened := o, acc := FwAcc.empty, next := FwAcc.empty, log := []
    replaying := s.popsOf l, stretching := false, ckpt := s.newestCkpt x, ckptNew := none }
  let s := s.each (x.log.filter (fun p => o ≤ p.target)) (fun s p => s.intake c p true)
  s.bumpBy R.FW_CNT_REPLAY (x.opened + 1 - o)

/-- Where a failed core's gateway was its queues' producer, Aidor makes the new core's gateway the producer of the frame queues
of its populations (R97, R269; DESIGN CHOICE, log entry 81). -/
def State.moveProducer (s : State) (c d l : Nat) : State :=
  s.each (s.popsOf l) (fun s p =>
    let q := s.get (F.FW_POP_DEST.QUEUE p)
    let x := s.queue q
    if x.enabled && x.prod / 4 = stopOfGateway (gatewayOf c) then
      s.setQueue q { x with cfg := setBits x.cfg 57 49 (agentOf (stopOfGateway (gatewayOf d)) (x.prod % 4)) }
    else s)

/-- The idle core `d` takes over from core `c` (R122): its logical number, its tables and synapses, the newest completed
checkpoint, and the inputs that the failed core's router holds; the steps after the checkpoint are executed again. -/
def State.coreMove (s : State) (c d l : Nat) : State :=
  let x := s.fcore c
  let s := { s with fw := { s.fw with
    neurons := tabInsert s.fw.neurons d (tabGet [] s.fw.neurons c), fanout := tabInsert s.fw.fanout d (tabGet [] s.fw.fanout c)
    remap := tabInsert s.fw.remap l d
    forward := tabInsert (tabMap (fun _ y => if y = c then d else y) s.fw.forward) c d }, mem := copySynapses s.mem c d }
  let s := s.setReg (R.FW_CORE_CFG d) (setBits (s.reg (R.FW_CORE_CFG c)) 0 0 1)
  let s := (s.setReg (R.FW_CORE_UP_LO d) (s.reg (R.FW_CORE_UP_LO c))).setReg (R.FW_CORE_UP_HI d) (s.reg (R.FW_CORE_UP_HI c))
  let s := (s.setReg (R.FW_CORE_DN_LO d) (s.reg (R.FW_CORE_DN_LO c))).setReg (R.FW_CORE_DN_HI d) (s.reg (R.FW_CORE_DN_HI c))
  let s := (s.put (F.FW_CORE_CFG.LOGICAL c) 0x7F).put (F.FW_CORE_STAT.STATE d) 1
  (((s.coreBack d l x).moveProducer c d l).setFcore c FwCore.empty)

/-- A furrow core fails (R122); with no idle core its logical core goes out of service (R422). -/
def State.coreFail (s : State) (c cond flags : Nat) : State :=
  if s.get (F.FW_CORE_STAT.STATE c) = 3 || c ≥ 96 then s
  else
    let l := if s.flag (F.FW_CORE_CFG.ENABLE c) then s.get (F.FW_CORE_CFG.LOGICAL c) else 0x7F
    let streams := match s.coreSlot l with
      | some k => s.slotStreams k
      | none => 0
    let s := s.put (F.FW_CORE_STAT.STATE c) 3
    let usable := ((List.range 96).filter (fun d => s.get (F.FW_CORE_STAT.STATE d) ≠ 3)).length
    let s := s.singlePartFault pFurrow c cond streams 0 usable flags
    let idle := s.coresUp.find? (fun d => s.get (F.FW_CORE_CFG.LOGICAL d) = 0x7F)
    let s := if l = 0x7F then s
      else match idle with
        | some d => s.coreMove c d l
        | none => s.withdraw streams
    (s.degraded pFurrow c cond streams usable flags s.adm.floor).askCapacity

def execFurrowCoreFault (t core cond : Nat) (s : State) : Res := .next ((s.at t).coreFail core cond (s.testFlag pFurrow core))

/-! ### Commit groups and tables -/

/-- First step that begins at or after the present time (R102). -/
def State.firstStep (s : State) : Nat := ceilDiv s.time s.stepNs

/-- A core starts with initial membranes (R102). -/
def State.coreStart (s : State) (c : Nat) : State :=
  let n := s.firstStep
  let s := s.setFcore c { FwCore.empty with v := s.initV c, opened := n, first := n }
  s.put (F.FW_CORE_STAT.STATE c) (if s.get (F.FW_CORE_CFG.LOGICAL c) = 0x7F then 4 else 1)

/-- First failing check of the global group (R116, R124). -/
def State.fwGlbCode (s : State) : Nat := firstCode [
  (0x01, s.st F.FW_CTL.STEP_US < 10 || s.st F.FW_CTL.STEP_US > 1000 || s.st F.FW_CTL.STRETCH > 100 ||
    s.st F.FW_SPILL_SIZE.SIZE_MIB < 6 || s.st F.FW_SPILL_SIZE.SIZE_MIB > 1536),
  (0x06, s.fwOn && (s.changed F.FW_CTL.STEP_US || s.regChanged R.FW_SPILL_BASE || s.regChanged R.FW_SPILL_SIZE ||
    s.regChanged R.FW_CKPT_BASE)),
  (0x0C, (List.range 128).any (fun i => s.flag (F.FW_MAP_CTL.ENABLE i) &&
    s.st F.FW_CTL.LAG_US < s.get F.FW_CTL.LAG_US && s.st F.FW_CTL.LAG_US < s.get (F.HG_STREAM_TIME.GUARD i) + 10))]

/-- A write to FW_GLB_COMMIT; the fabric starts with the first step after ENABLE is set (R102). -/
def State.fwGlbCommit (s : State) (req val : Nat) : State :=
  let was := s.fwOn
  let s := s.commitNow req R.FW_GLB_COMMIT val s.fwGlbCode
  if !was && s.fwOn then
    s.each (s.coresUp) (fun s c =>
      let x := s.fcore c
      let n := max x.opened s.firstStep
      s.setFcore c { x with opened := n, first := n })
  else s

def execFwGlbCommit (t req val : Nat) (s : State) : Res :=
  .next ((s.at t).asReq req R.FW_GLB_COMMIT 4 val (fun s => s.fwGlbCommit req val))

/-- First failing check of a core group (R124). -/
def State.fwCoreCode (s : State) (c : Nat) : Nat :=
  let keep := setBits (setBits (s.shadowReg (R.FW_CORE_CFG c)) 0 0 0) 38 32 0 = setBits (setBits (s.reg (R.FW_CORE_CFG c)) 0 0 0) 38 32 0
  firstCode [
    (0x01, s.st (F.FW_CORE_CFG.LOGICAL c) > 95 && s.st (F.FW_CORE_CFG.LOGICAL c) ≠ 0x7F),
    (0x06, s.flag (F.FW_CORE_CFG.ENABLE c) && (!keep || s.regChanged (R.FW_CORE_UP_LO c) || s.regChanged (R.FW_CORE_UP_HI c) ||
      s.regChanged (R.FW_CORE_DN_LO c) || s.regChanged (R.FW_CORE_DN_HI c)))]

/-- A write to FW_CORE_COMMIT: a core that is enabled starts (R102). -/
def State.fwCoreCommit (s : State) (req c val : Nat) : State :=
  let was := s.flag (F.FW_CORE_CFG.ENABLE c)
  let s := s.commitNow req (R.FW_CORE_COMMIT c) val (s.fwCoreCode c)
  let now := s.flag (F.FW_CORE_CFG.ENABLE c)
  let idle := s.get (F.FW_CORE_CFG.LOGICAL c) = 0x7F
  if s.get (F.FW_CORE_STAT.STATE c) = 3 then s
  else if now && !was then s.coreStart c
  else if !now then s.put (F.FW_CORE_STAT.STATE c) 0
  else if idle then s.put (F.FW_CORE_STAT.STATE c) 4
  else if s.get (F.FW_CORE_STAT.STATE c) = 4 then s.coreStart c
  else s

def execFwCoreCommit (t req core val : Nat) (s : State) : Res :=
  .next ((s.at t).asReq req (R.FW_CORE_COMMIT core) 4 val (fun s => s.fwCoreCommit req core val))

/-- First failing check of a map group (R116, R124). -/
def State.fwMapCode (s : State) (i : Nat) : Nat := firstCode [
  (0x01, s.st (F.FW_MAP_CTL.BX i) > 4 || s.st (F.FW_MAP_CTL.BY i) > 4),
  (0x0C, s.st (F.FW_MAP_CTL.ENABLE i) = 1 && s.get F.FW_CTL.LAG_US < s.get (F.HG_STREAM_TIME.GUARD i) + 10)]

/-- A write to FW_MAP_COMMIT: the values wait for the next step boundary (R124). -/
def State.fwMapCommit (s : State) (req i val : Nat) : State := s.commitLater req (R.FW_MAP_COMMIT i) val (s.fwMapCode i)

def execFwMapCommit (t req stream val : Nat) (s : State) : Res :=
  .next ((s.at t).asReq req (R.FW_MAP_COMMIT stream) 4 val (fun s => s.fwMapCommit req stream val)).mirrorConfig

/-- First failing check of a population group (R120, R124). -/
def State.fwPopCode (s : State) (p : Nat) : Nat :=
  let on := s.st (F.FW_POP_CTL.ENABLE p) = 1
  let n := s.st (F.FW_POP_SHAPE.C p) * s.st (F.FW_POP_SHAPE.H p) * s.st (F.FW_POP_SHAPE.W p)
  let i := s.st (F.FW_POP_SHAPE.STREAM p)
  let w := s.st (F.FW_POP_CTL.WINDOW p)
  firstCode [
    (0x01, on && (w = 0 || w > 4096 || s.st (F.FW_POP_CTL.CORE p) > 95 || (i ≥ 128 && i ≠ 0xFFFF))),
    (0x0A, on && (n = 0 || n + s.st (F.FW_POP_CTL.BASE p) > 1024)),
    (0x0B, on && i < 128 && s.feedsStand (s.st (F.FW_POP_DEST.QUEUE p)) && s.sliceNs i % (w * s.stepNs) ≠ 0)]

/-- A write to FW_POP_COMMIT: the values wait for the next step boundary (R124). -/
def State.fwPopCommit (s : State) (req p val : Nat) : State := s.commitLater req (R.FW_POP_COMMIT p) val (s.fwPopCode p)

def execFwPopCommit (t req pop val : Nat) (s : State) : Res :=
  .next ((s.at t).asReq req (R.FW_POP_COMMIT pop) 4 val (fun s => s.fwPopCommit req pop val))

/-- INDEX moves on after a data access, with AUTOINC (R126). -/
def State.tblNext (s : State) : State :=
  if s.flag F.FW_TBL_ADDR.AUTOINC then s.put F.FW_TBL_ADDR.INDEX (s.get F.FW_TBL_ADDR.INDEX + 1) else s

/-- A write to FW_TBL_DATA (R126). -/
def State.fwTblWrite (s : State) (val : Nat) : State :=
  let c := s.get F.FW_TBL_ADDR.CORE
  let i := s.get F.FW_TBL_ADDR.INDEX
  let t := s.get F.FW_TBL_ADDR.TABLE
  let busy := s.flag (F.FW_CORE_CFG.ENABLE c)
  let v := val % 2 ^ 64
  let s := s.setReg R.FW_TBL_DATA (BitVec.ofNat 64 v)
  let s :=
    if t = 2 then (if i < 96 then { s with fw := { s.fw with remap := tabSet 0 s.fw.remap i (v % 128) } } else s)
    else if t = 3 || c ≥ 96 then s
    else if busy then s.put F.FW_STAT.TBL_BUSY 1
    else if t = 0 then
      if i < 1024 then { s with fw := { s.fw with neurons := tabInsert s.fw.neurons c (tabSet 0 (tabGet [] s.fw.neurons c) i v) } } else s
    else { s with fw := { s.fw with fanout := tabInsert s.fw.fanout c (tabSet 0 (tabGet [] s.fw.fanout c) i (v % 2 ^ 32)) } }
  s.tblNext

/-- What a read of FW_TBL_DATA finds: the addressed entry (R126). -/
def State.fwTblView (s : State) : Word :=
  let c := s.get F.FW_TBL_ADDR.CORE
  let i := s.get F.FW_TBL_ADDR.INDEX
  let t := s.get F.FW_TBL_ADDR.TABLE
  BitVec.ofNat 64 (
    if t = 2 then tabGet 0 s.fw.remap i
    else if t = 0 then tabGet 0 (tabGet [] s.fw.neurons c) i
    else if t = 1 then tabGet 0 (tabGet [] s.fw.fanout c) i
    else 0)

def execFwTblData (t req val : Nat) (s : State) : Res :=
  .next ((s.at t).asReq req R.FW_TBL_DATA 8 val (fun s => s.fwTblWrite val))

end Sys2Proof.Machine
end

