-- ==== Sys2Proof/Machine/Float.lean ====
section
/-!
DEFINITION. The floating-point formats that the block chapters name (FP32, BF16, FP8 in its two forms), as numbers that
hold their bits: every operation is computed exactly and rounded once to nearest, ties to even.  The order of a chain of
operations is the caller's; the spec promises no bit-identical results (R14).
-/

namespace Sys2Proof

/-- A floating-point value: not a number, an infinity, or ±m·2^e. -/
inductive FV where
  | nan
  | inf (neg : Bool)
  | fin (neg : Bool) (m : Nat) (e : Int)
  deriving DecidableEq, Repr

/-- A format: exponent bits, fraction bits, and whether the top exponent holds finite values with no infinity. -/
structure FFmt where
  ex : Nat
  fr : Nat
  finite : Bool
  deriving DecidableEq, Repr

def fmt32 : FFmt := ⟨8, 23, false⟩
def fmtBF16 : FFmt := ⟨8, 7, false⟩
def fmtE4M3 : FFmt := ⟨4, 3, true⟩
def fmtE5M2 : FFmt := ⟨5, 2, false⟩

/-- Exponent bias of a format. -/
def FFmt.bias (f : FFmt) : Int := ((2 ^ (f.ex - 1) : Nat) : Int) - 1

/-- Value of a bit pattern. -/
def FFmt.decode (f : FFmt) (x : Nat) : FV :=
  let fr := x % 2 ^ f.fr
  let ex := x / 2 ^ f.fr % 2 ^ f.ex
  let neg := x / 2 ^ (f.fr + f.ex) % 2 = 1
  let top := 2 ^ f.ex - 1
  if ex = 0 then .fin neg fr (1 - f.bias - f.fr)
  else if ex = top && !f.finite then (if fr = 0 then .inf neg else .nan)
  else if ex = top && fr = 2 ^ f.fr - 1 then .nan
  else .fin neg (fr + 2 ^ f.fr) ((ex : Int) - f.bias - f.fr)

/-- Right shift by `k` rounded to nearest, ties to even. -/
def shiftRNE (m k : Nat) : Nat :=
  let q := m >>> k
  let r := m % 2 ^ k
  if k = 0 then m
  else if 2 * r > 2 ^ k then q + 1 else if 2 * r = 2 ^ k then (if q % 2 = 1 then q + 1 else q) else q

/-- Bit pattern of an infinity (of the not-a-number in a format without infinities). -/
def FFmt.infBits (f : FFmt) (neg : Bool) : Nat :=
  bit neg * 2 ^ (f.fr + f.ex) + (if f.finite then 2 ^ (f.fr + f.ex) - 1 else (2 ^ f.ex - 1) * 2 ^ f.fr)

/-- Bit pattern of the not-a-number. -/
def FFmt.nanBits (f : FFmt) : Nat :=
  if f.finite then 2 ^ (f.fr + f.ex) - 1 else (2 ^ f.ex - 1) * 2 ^ f.fr + 2 ^ (f.fr - 1)

/-- The bit pattern nearest to a value, ties to even; beyond the range, an infinity. -/
def FFmt.encode (f : FFmt) : FV → Nat
  | .nan => f.nanBits
  | .inf neg => f.infBits neg
  | .fin neg m e =>
    let sg := bit neg * 2 ^ (f.fr + f.ex)
    if m = 0 then sg
    else
      let top : Int := (Nat.log2 m : Int) + e
      let q : Int := max top (1 - f.bias) - f.fr
      let m' := if e ≥ q then m <<< (e - q).toNat else shiftRNE m (q - e).toNat
      let (m', q) := if m' ≥ 2 ^ (f.fr + 1) then (m' / 2, q + 1) else (m', q)
      if m' < 2 ^ f.fr then sg + m'
      else
        let ex := (q + f.fr + f.bias).toNat
        if ex > 2 ^ f.ex - 1 || (ex = 2 ^ f.ex - 1 && (!f.finite || m' = 2 ^ (f.fr + 1) - 1)) then f.infBits neg
        else sg + ex * 2 ^ f.fr + (m' - 2 ^ f.fr)

/-- Signed numerator of a value over 2^k for a common exponent `e0`. -/
def fvInt (neg : Bool) (m : Nat) (e e0 : Int) : Int :=
  let v := m <<< (e - e0).toNat
  if neg then -(v : Int) else (v : Int)

/-- Value of an integer times 2^e. -/
def fvOf (x e : Int) : FV := .fin (decide (x < 0)) x.natAbs e

def fvAdd : FV → FV → FV
  | .nan, _ => .nan
  | _, .nan => .nan
  | .inf a, .inf b => if a = b then .inf a else .nan
  | .inf a, _ => .inf a
  | _, .inf b => .inf b
  | .fin n1 m1 e1, .fin n2 m2 e2 =>
    let e0 := min e1 e2
    let x := fvInt n1 m1 e1 e0 + fvInt n2 m2 e2 e0
    if x = 0 then .fin (n1 && n2) 0 e0 else fvOf x e0

def fvNeg : FV → FV
  | .nan => .nan
  | .inf a => .inf (!a)
  | .fin n m e => .fin (!n) m e

def fvMul : FV → FV → FV
  | .nan, _ => .nan
  | _, .nan => .nan
  | .inf a, .inf b => .inf (a ≠ b)
  | .inf a, .fin n m _ => if m = 0 then .nan else .inf (a ≠ n)
  | .fin n m _, .inf a => if m = 0 then .nan else .inf (a ≠ n)
  | .fin n1 m1 e1, .fin n2 m2 e2 => .fin (n1 ≠ n2) (m1 * m2) (e1 + e2)

/-- Quotient with enough digits, and a last digit that is odd when the quotient is not exact. -/
def fvDiv : FV → FV → FV
  | .nan, _ => .nan
  | _, .nan => .nan
  | .inf _, .inf _ => .nan
  | .inf a, .fin n _ _ => .inf (a ≠ n)
  | .fin n _ _, .inf a => .fin (n ≠ a) 0 0
  | .fin n1 m1 e1, .fin n2 m2 e2 =>
    if m2 = 0 then (if m1 = 0 then .nan else .inf (n1 ≠ n2))
    else
      let k := 64 + Nat.log2 m2
      let q := (m1 <<< k) / m2
      let r := (m1 <<< k) % m2
      .fin (n1 ≠ n2) (2 * q + (if r = 0 then 0 else 1)) (e1 - e2 - k - 1)

/-- Square root with enough digits, and a last digit that is odd when the root is not exact. -/
def fvSqrt : FV → FV
  | .nan => .nan
  | .inf a => if a then .nan else .inf false
  | .fin n m e =>
    if m = 0 then .fin n 0 0
    else if n then .nan
    else
      let odd := e % 2 ≠ 0
      let m1 := if odd then 2 * m else m
      let e1 := if odd then e - 1 else e
      let w := m1 <<< 80
      let q := isqrt w
      .fin false (2 * q + (if q * q = w then 0 else 1)) (e1 / 2 - 40 - 1)

/-- Strict order of values; false with a not-a-number. -/
def fvLt : FV → FV → Bool
  | .nan, _ => false
  | _, .nan => false
  | .inf a, .inf b => a && !b
  | .inf a, _ => a
  | _, .inf b => !b
  | .fin n1 m1 e1, .fin n2 m2 e2 =>
    let e0 := min e1 e2
    decide (fvInt n1 m1 e1 e0 < fvInt n2 m2 e2 e0)

/-- FP32 operations on bit patterns. -/
def f32 (v : FV) : Nat := fmt32.encode v
def v32 (x : Nat) : FV := fmt32.decode x
def fadd (a b : Nat) : Nat := f32 (fvAdd (v32 a) (v32 b))
def fsub (a b : Nat) : Nat := f32 (fvAdd (v32 a) (fvNeg (v32 b)))
def fmul (a b : Nat) : Nat := f32 (fvMul (v32 a) (v32 b))
def fdiv (a b : Nat) : Nat := f32 (fvDiv (v32 a) (v32 b))
def fsqrt (a : Nat) : Nat := f32 (fvSqrt (v32 a))
def fneg (a : Nat) : Nat := f32 (fvNeg (v32 a))
def flt (a b : Nat) : Bool := fvLt (v32 a) (v32 b)
/-- `a` not above `b`. -/
def fle (a b : Nat) : Bool :=
  match v32 a, v32 b with
  | .nan, _ => false
  | _, .nan => false
  | x, y => !fvLt y x
/-- FP32 nearest to an integer over 2^k. -/
def fofInt (x : Int) (k : Nat) : Nat := f32 (fvOf x (-(k : Int)))
/-- FP32 nearest to a quotient of integers. -/
def fofRat (n : Int) (d : Nat) : Nat := f32 (fvDiv (fvOf n 0) (.fin false d 0))
def fabs (a : Nat) : Nat := a % 2 ^ 31
/-- Magnitude comparison helpers. -/
def fmax (a b : Nat) : Nat := if flt a b then b else a
def fmin (a b : Nat) : Nat := if flt b a then b else a
/-- Is a finite value. -/
def ffinite (a : Nat) : Bool :=
  match v32 a with
  | .fin _ _ _ => true
  | _ => false

/-- Nearest integer to a value times 2^k, ties to even; 0 for a value that is not finite. -/
def toIntRNE (v : FV) (k : Nat) : Int :=
  match v with
  | .fin n m e =>
    let e := e + k
    let x : Nat := if e ≥ 0 then m <<< e.toNat else shiftRNE m (-e).toNat
    if n then -(x : Int) else (x : Int)
  | _ => 0

/-- Floor of a value; 0 for a value that is not finite. -/
def toIntFloor (v : FV) : Int :=
  match v with
  | .fin n m e =>
    if e ≥ 0 then fvInt n m e 0
    else (if n then -(m : Int) else (m : Int)).fdiv ((2 ^ (-e).toNat : Nat) : Int)
  | _ => 0

end Sys2Proof
end

