-- ==== Sys2Proof/Machine/Frf.lean ====
section
/-!
DEFINITION. The flicker and rate filter engine (R71–R96): channels and bins, the filter chain of the fine lanes, their
rotation, detectors, banks and fades, synchronising resets, folds, the mask table and flicker reports.

Bin times are in µs.  What is due at bin time w comes before the pass of bin w: fold decisions and window ends, then the
dwell boundary, then the switch instant, then the pass of the bin, which first gives the stage outputs of instant w from
the bins before it (R74, DEDUCED, log entry 20).
-/

namespace Sys2Proof.Machine

/-! ### Channels -/

def FrfChan.empty : FrfChan := ⟨[], 0, 0, 0, 0, 0, 0, 0, 0, 0, 0, 0, 0, 0, 0⟩

def FrfSub.empty : FrfSub := ⟨0, false, 0, 0, 0, false, none, 0, 0, 0⟩

def FrfLane.empty : FrfLane :=
  ⟨none, none, [], [], [], 0, 544, [], [], none, List.replicate 4 FrfSub.empty, none, [], [], none⟩

def Mask.empty : Mask := ⟨false, false, 0, 0, 0, 0⟩

def State.chan (s : State) (c : Nat) : FrfChan := tabGet FrfChan.empty s.frf.chans c

def State.lane (s : State) (l : Nat) : FrfLane := tabGet FrfLane.empty s.frf.lanes l

def State.setChan (s : State) (c : Nat) (x : FrfChan) : State := { s with frf := { s.frf with chans := tabInsert s.frf.chans c x } }

def State.setLane (s : State) (l : Nat) (x : FrfLane) : State := { s with frf := { s.frf with lanes := tabInsert s.frf.lanes l x } }

def State.frfOn (s : State) : Bool := s.flag F.FRF_CTL.ENABLE

/-- Add to a bin with saturation (R72). -/
def State.addBin (s : State) (c u : Nat) (d lo hi : Int) : State :=
  let ch := s.chan c
  let v := tabGet 0 ch.bins u + d
  let w := if v > hi then hi else if v < lo then lo else v
  let s := s.setChan c { ch with bins := tabInsert ch.bins u w }
  if v = w then s else s.put F.FRF_STAT.BIN_SAT 1

/-- Tile channel of a pixel (R62, R71). -/
def tileOf (x y width height : Nat) : Nat := 8 * (8 * y / height) + 8 * x / width

/-- A change event of converted time `t` feeds its four channels, or is late (R71–R73). -/
def State.frfFeed (s : State) (stream x y : Nat) (on : Bool) (t : Nat) : State :=
  if !s.frfOn then s
  else
    let u := t / 1000
    if u < s.frf.nextBin then (s.put F.FRF_STAT.LATE 1).bump R.FRF_CNT_LATE
    else
      let w := s.get (F.HG_STREAM_GEOM.WIDTH stream)
      let h := s.get (F.HG_STREAM_GEOM.HEIGHT stream)
      let c := 68 * stream
      let s := s.addBin (c + tileOf x y w h) u 1 0 4095
      let s := s.addBin (c + (if on then 64 else 65)) u 1 0 4095
      let s := s.addBin (c + 66) u 1 0 4095
      s.addBin (c + 67) u (if on then 1 else -1) (-2047) 2047

/-- Envelope rule of R78. -/
def envStep (e c : Int) (atk rel : Nat) : Int :=
  if c > e then e + (c - e).fdiv ((2 ^ atk : Nat) : Int) else e - (e - c).fdiv ((2 ^ rel : Nat) : Int)

/-- Sum of bins u − 64 to u − 1 over 64, in Q19.12 (R78). -/
def FrfChan.coarse (ch : FrfChan) (u : Nat) : Int :=
  64 * sumInt ((ch.bins.filter (fun b => b.1 < u && u ≤ b.1 + 64)).map (fun b => b.2))

/-- The delays Δ of R77, µs: stage 1, the coarse estimator, stage 4 with group delay `d` in units of 16 µs. -/
def delta1 : Nat := 14
def deltaCoarse : Nat := 32
def delta4 (d : Nat) : Nat := 14 + 88 + 176 + 16 * d

/-- Stage-1 output and coarse values of a channel at instant u, from the bins before it (R74, R75, R78). -/
def FrfChan.output (ch : FrfChan) (u atk rel : Nat) : FrfChan :=
  let m := 2 ^ 26
  let y1 := (ch.i4 + m - ch.d1) % m
  let y2 := (y1 + m - ch.d2) % m
  let y3 := (y2 + m - ch.d3) % m
  let y4 := (y3 + m - ch.d4) % m
  let c := ch.coarse u
  { ch with outRef := (u : Int) - delta1, cRef := (u : Int) - deltaCoarse, d1 := ch.i4, d2 := y1, d3 := y2, d4 := y3, out := toSigned 26 y4, c := c, e := envStep ch.e c atk rel }

/-- Bin u of a channel passes to the integrators of stage 1 (R72, R75). -/
def FrfChan.integrate (ch : FrfChan) (u : Nat) : FrfChan :=
  let m := 2 ^ 26
  let i1 := (ch.i1 + fromSigned 26 (tabGet 0 ch.bins u)) % m
  let i2 := (ch.i2 + i1) % m
  let i3 := (ch.i3 + i2) % m
  let i4 := (ch.i4 + i3) % m
  { ch with i1 := i1, i2 := i2, i3 := i3, i4 := i4, bins := ch.bins.filter (fun b => u < b.1 + 64) }

/-- Stage 1 of a channel zeroed at bin time w (R88). -/
def FrfChan.zero (ch : FrfChan) (w : Nat) : FrfChan :=
  { ch with i1 := 0, i2 := 0, i3 := 0, i4 := 0, d1 := 0, d2 := 0, d3 := 0, d4 := 0, resetAt := w }

/-! ### Filters of a lane -/

/-- Sum of products, accumulated in 56 bits, rounded once with ties away from zero and saturated to 32 bits (R75). -/
def firSum (l : List (Int × Int)) : Int :=
  let acc := toSigned 56 (fromSigned 56 (sumInt (l.map (fun p => p.1 * p.2))))
  satSigned 32 (roundHalfAway acc 65536)

/-- A half-band coefficient as the filters hold it: 18 bits, Q1.16 (R75). -/
def halfTap (d : Nat) : Int := toSigned 18 (fromSigned 18 (Config.halfBandTap d))

/-- Half-band coefficients in Q1.16 (R75): centre 0.5, unit DC gain, symmetric, zero at even distances.  R75 fixes the
response and not the coefficients: nothing here holds them to its ripple and attenuation (log entry 4). -/
def halfBand : List Int :=
  let outer := [11, 9, 7, 5, 3].map halfTap
  let near : Int := 16384 - sumInt outer
  let side : List Int := outer.flatMap (fun c => [c, 0]) ++ [near]
  side ++ [32768] ++ side.reverse

/-- Output of a half-band filter over 23 samples; missing samples are zero history. -/
def halfBandOut (h : List Int) : Int := firSum (halfBand.zip (h ++ List.replicate 23 0))

def State.split (s : State) (l : Nat) : Nat := 2 ^ s.get (F.FRF_LANE_CTL.SPLIT l)
def State.d4 (s : State) (l : Nat) : Nat := 2 ^ s.get (F.FRF_LANE_CTL.D4 l)

/-- N_k of a bank (R76, R83): byte k of the bank's configuration. -/
def State.taps (s : State) (l : Nat) (b : Bool) (k : Nat) : Nat :=
  getBits (s.reg (if b then R.FRF_LANE_BCFG_B l else R.FRF_LANE_BCFG_A l)) (8 * k + 7) (8 * k)

/-- DELAY_k of a bank (R76, R83), in units of 16 µs. -/
def State.delay (s : State) (l : Nat) (b : Bool) (k : Nat) : Nat :=
  getBits (s.reg (if b then R.FRF_LANE_BCFG_B l else R.FRF_LANE_BCFG_A l)) (32 + 8 * k + 7) (32 + 8 * k)

/-- Output of sub-filter k in a bank (R76): its first slot multiplies the newest sample (DESIGN CHOICE, log entry 79). -/
def State.subOut (s : State) (l : Nat) (b : Bool) (k : Nat) : Int :=
  let x := s.lane l
  let coef := if b then x.coefB else x.coefA
  let base := k * (128 / s.split l)
  firSum ((List.range (s.taps l b k)).map (fun i => (tabGet 0 coef (base + i), x.h4.getD i 0)))

/-- First instant at which the outputs of a sub-filter are clean (R81). -/
def State.cleanFrom (s : State) (l : Nat) (b : Bool) (k : Nat) : Nat :=
  let x := s.lane l
  let p := 32 * s.d4 l
  ceilDiv (x.since + x.base + 32 * (s.taps l b k - 1)) p * p

/-- The active bank of a lane, true for B. -/
def State.activeBank (s : State) (l : Nat) : Bool := s.flag (F.FRF_LANE_STAT.ACTIVE l)

/-- Length of a fade in outputs (R85). -/
def State.fadeLen (s : State) (l : Nat) : Nat := s.get (F.FRF_LANE_CTL.FADE l) + 1

/-- Detector update with a clean sample (R82). -/
def FrfSub.detect (d : FrfSub) (y : Int) (atk rel : Nat) : FrfSub :=
  let a := y.natAbs
  let f := fofInt y 12
  { d with
    out := y, settling := false, peak := max d.peak a, sumSq := fadd d.sumSq (fmul f f), clean := d.clean + 1,
    env := some (match d.env with
      | none => a
      | some e => (envStep e a atk rel).toNat) }

/-- Output of sub-filter k of a lane at instant u, with the fade in progress (R81, R82, R85); its input-referred time uses
the new bank's delay from the first fade output (R77, R85).  An unused sub-filter gives 0, never SETTLING, and no clean
sample (R76; DESIGN CHOICE, log entry 79). -/
def State.stage4Sub (s : State) (l u k : Nat) (coarse : Int) : FrfSub :=
  let x := s.lane l
  let a := s.activeBank l
  let d := x.subs.getD k FrfSub.empty
  let bank := match x.fade with
    | none => a
    | some (b, _) => b
  let d := { d with ref := (u : Int) - delta4 (s.delay l bank k) }
  let res : Nat × Bool × Int := match x.fade with
    | none => (s.taps l a k, decide (u < s.cleanFrom l a k), s.subOut l a k)
    | some (b, i) =>
      let n := s.fadeLen l
      let g : Int := ((65536 * (min (i + 1) n) / n : Nat) : Int)
      let old := s.subOut l a k
      (max (s.taps l a k) (s.taps l b k), decide (u < s.cleanFrom l a k) || decide (u < s.cleanFrom l b k),
        old + roundHalfAway ((s.subOut l b k - old) * g) 65536)
  if res.1 = 0 then { d with out := 0, settling := false }
  else if res.2.1 then { d with out := coarse, settling := true, dirty := true }
  else d.detect res.2.2 (s.get (F.FRF_LANE_CTL.ENV_ATK l)) (s.get (F.FRF_LANE_CTL.ENV_REL l))

/-- Stage 4 of a lane at instant u, with the fade moved on and the outputs shown (R76, R81, R85). -/
def State.stage4 (s : State) (l u : Nat) (coarse : Int) : State :=
  let x := s.lane l
  let subs := (List.range 4).map (fun k => if k < s.split l then s.stage4Sub l u k coarse else x.subs.getD k FrfSub.empty)
  let fade := match x.fade with
    | none => none
    | some (b, i) => some (b, min (i + 1) (s.fadeLen l))
  let s := s.setLane l { x with subs := subs, fade := fade }
  let o := subs.getD (s.get (F.FRF_LANE_CTL.OUT_SEL l)) FrfSub.empty
  let s := s.put (F.FRF_LANE_STAT.SETTLING l) (ofBits (subs.map (fun d => d.settling)))
  let s := s.put (F.FRF_LANE_OUT.VALUE l) (fromSigned 32 o.out)
  s.put (F.FRF_LANE_OUT.SETTLING l) (bit o.settling)

/-- The fold of a lane takes the stage-1 sample of instant u (R90). -/
def State.foldSample (s : State) (l u : Nat) (y : Int) : State :=
  let x := s.lane l
  let p := s.get (F.FRF_LANE_FOLD.PERIOD_NS l)
  if p = 0 || u < x.since + (x.base - 544) || u < 14 then s
  else
    let b := 64 * ((1000 * (u - 14)) % p) / p
    s.setLane l { x with sums := tabInsert x.sums b (tabGet 0 x.sums b + y),
                         counts := tabInsert x.counts b (tabGet 0 x.counts b + 1) }

/-- MODE and PIN_CH of a lane's control word (R96). -/
def laneModeMask (l : Nat) : Word :=
  maskOf (F.FRF_LANE_CTL.MODE l).hi (F.FRF_LANE_CTL.MODE l).lo ||| maskOf (F.FRF_LANE_CTL.PIN_CH l).hi (F.FRF_LANE_CTL.PIN_CH l).lo

/-- What a lane does when staged fields take effect (R79, R90, R96): a new PIN channel, or none for OFF, waits for the switch
instant; a lane changed to ROTATE keeps its channel until the next dwell boundary (DESIGN CHOICE, log entry 79); a changed P
discards the fold. -/
def State.laneApplied (s : State) (l : Nat) (before : State) : State :=
  let mode := s.get (F.FRF_LANE_CTL.MODE l)
  let x := s.lane l
  let x := if mode ≠ before.get (F.FRF_LANE_CTL.MODE l) || s.get (F.FRF_LANE_CTL.PIN_CH l) ≠ before.get (F.FRF_LANE_CTL.PIN_CH l)
    then (if mode = 2 then { x with next := some (some (s.get (F.FRF_LANE_CTL.PIN_CH l))) }
          else if mode = 0 then { x with next := some none } else x)
    else x
  let x := if s.get (F.FRF_LANE_FOLD.PERIOD_NS l) ≠ before.get (F.FRF_LANE_FOLD.PERIOD_NS l)
    then { x with sums := [], counts := [] } else x
  s.setLane l x

/-- At a stage-4 output the fields of a pending lane commit other than MODE and PIN_CH take effect (R96). -/
def State.laneFieldsApply (s : State) (l : Nat) : State :=
  let c := R.FRF_LANE_COMMIT l
  match (s.group c).pending with
  | none => s
  | some p =>
    let a := R.FRF_LANE_CTL l
    let m := laneModeMask l
    let ctl := (tabFind p a).getD (s.reg a)
    if (ctl &&& m) = (s.reg a &&& m) then (s.applyPending c).laneApplied l s
    else
      let rest := (p.filter (fun x => x.1 ≠ a)) ++ [(a, (ctl &&& ~~~m) ||| (s.reg a &&& m))]
      (s.applyStaged rest).laneApplied l s

/-- At a switch instant all of a pending lane commit takes effect (R96). -/
def State.laneSwitchApply (s : State) (l : Nat) : State :=
  if (s.group (R.FRF_LANE_COMMIT l)).pending.isNone then s else (s.applyPending (R.FRF_LANE_COMMIT l)).laneApplied l s

/-- The stage outputs of a lane at instant u, a multiple of 8 µs (R74). -/
def State.lanePass (s : State) (l u : Nat) : State :=
  match (s.lane l).chan with
  | none => s
  | some c =>
    let ch := s.chan c
    let s := s.foldSample l u ch.out
    let x := s.lane l
    let h2 := (ch.out :: x.h2).take 23
    let h3 := if u % 16 = 0 then (halfBandOut h2 :: x.h3).take 23 else x.h3
    let h4 := if u % 32 = 0 then (halfBandOut h3 :: x.h4).take 128 else x.h4
    let s := s.setLane l { x with h2 := h2, h3 := h3, h4 := h4 }
    if u % (32 * s.d4 l) = 0 then (s.laneFieldsApply l).stage4 l u ch.c else s

/-- Lanes with a state of their own, rising. -/
def State.lanesListed (s : State) : List Nat := s.frf.lanes.map (fun p => p.1)

/-- Bin u passes to stage 1 and the coarse estimator (R72, R74, R78). -/
def State.frfBinPass (s : State) : State :=
  if !s.frfOn then s
  else
    let u := s.frf.nextBin
    let s := s.at (1000 * (u + s.get F.FRF_CTL.BIN_HOLD))
    let atk := s.get F.FRF_CTL.CENV_ATK
    let rel := s.get F.FRF_CTL.CENV_REL
    let s := if u % 8 = 0 then
        let s := { s with frf := { s.frf with chans := tabMap (fun _ ch => ch.output u atk rel) s.frf.chans } }
        s.each s.lanesListed (fun s l => s.lanePass l u)
      else s
    { s with frf := { s.frf with chans := tabMap (fun _ ch => ch.integrate u) s.frf.chans, nextBin := u + 1 } }

def execFrfBinPass (s : State) : Res := .next s.frfBinPass

/-! ### Switches, rotation, synchronising resets -/

/-- The clock at the device time at which what belongs to bin time w is due. -/
def State.atBin (s : State) (w : Nat) : State := s.at (1000 * (w + s.get F.FRF_CTL.BIN_HOLD))

/-- A switch or reset ends a fade and applies a pending swap at once (R86). -/
def State.settleBanks (s : State) (l : Nat) : State :=
  let x := s.lane l
  let a := match x.fade with
    | some (b, _) => b
    | none => s.activeBank l
  let a := if s.flag (F.FRF_LANE_STAT.PENDING l) then s.flag (F.FRF_LANE_STAT.PEND_TARGET l) else a
  let s := s.setLane l { x with fade := none }
  let s := s.put (F.FRF_LANE_STAT.ACTIVE l) (bit a)
  let s := s.put (F.FRF_LANE_STAT.FADING l) 0
  (s.put (F.FRF_LANE_STAT.PENDING l) 0).put (F.FRF_LANE_STAT.PEND_TARGET l) 0

/-- A lane starts new histories at bin time w on channel `c` (R81, R86, R88). -/
def State.restartLane (s : State) (l w base : Nat) (c : Option Nat) : State :=
  let s := s.settleBanks l
  let x := s.lane l
  let subs := x.subs.map (fun d => { FrfSub.empty with rms := d.rms })
  let s := s.setLane l { x with
    chan := c, next := none, h2 := [], h3 := [], h4 := [], since := w, base := base, subs := subs, sums := [], counts := [] }
  s.put (F.FRF_LANE_STAT.CHANNEL l) (c.getD 0)

/-- The lane takes the channel that its mode or rotation gives it; the channel it holds is no switch (R79). -/
def State.switchLane (s : State) (l w : Nat) : State :=
  match (s.lane l).next with
  | none => s
  | some c => if c = (s.lane l).chan then s.setLane l { s.lane l with next := none } else s.restartLane l w 544 c

/-- A synchronising reset at bin time w: scope 0 ALL, 1 STREAM, 2 LANE (R87, R88).  A lane that a reset of stage 1 has
restarted at w keeps the times of that reset. -/
def State.syncReset (s : State) (scope target w : Nat) : State :=
  let hit := fun c => scope = 0 || (scope = 1 && c / 68 = target)
  let s := if scope = 2 then s else
    { s with frf := { s.frf with chans := tabMap (fun c ch => if hit c then ch.zero w else ch) s.frf.chans } }
  s.each s.lanesListed (fun s l =>
    let x := s.lane l
    if scope = 2 then
      (if l = target then s.restartLane l w (if x.since = w then x.base else 544) x.chan else s)
    else match x.chan with
      | none => if scope = 0 then s.restartLane l w 576 none else s
      | some c => if hit c then s.restartLane l w 576 (some c) else s)

/-- The switch instant at bin time w (R79, R86–R89). -/
def State.frfSwitchInstant (s : State) : State :=
  let w := s.frf.nextBin
  if !s.frfOn || w % 128 ≠ 0 || s.frf.switchedAt = some w then s
  else
    let s := s.atBin w
    let s := s.each (List.range 256) State.laneSwitchApply
    let s := s.each s.lanesListed (fun s l => s.switchLane l w)
    let s := if s.frf.firstReset then s.syncReset 0 0 w else s
    let s := s.each s.frf.openResets (fun s i => s.syncReset 1 i w)
    let s := match s.frf.sync with
      | some (scope, target, at') => if at' ≤ w then
            let s := (s.syncReset scope target w).put F.FRF_SYNC.PENDING 0
            { s with frf := { s.frf with sync := none } }
          else s
      | none => s
    { s with frf := { s.frf with switchedAt := some w, firstReset := false, openResets := [] } }

def execFrfSwitchInstant (s : State) : Res := .next s.frfSwitchInstant

/-- Lanes in ROTATE, rising (R79). -/
def State.rotating (s : State) : List Nat := (List.range 256).filter (fun l => s.get (F.FRF_LANE_CTL.MODE l) = 1)

/-- Entry of the rotation table (R80). -/
def State.rotEntry (s : State) (i : Nat) : Nat := s.dramNat (64 * s.get F.FRF_ROT.ADDR + 2 * i) 2

/-- Rotating lanes take their entries, by rank (R80). -/
def State.rotate (s : State) (len cursor : Nat) : List Nat → Nat → State
  | [], _ => s
  | l :: ls, j =>
    let c := s.rotEntry ((cursor + j) % len)
    let s := if j < len then
        (if c < 8704 then s.setLane l { s.lane l with next := some (some c) }
         else (s.put F.FRF_STAT.ROT_BAD 1).setLane l { s.lane l with next := some none })
      else s.setLane l { s.lane l with next := some none }
    s.rotate len cursor ls (j + 1)

/-- Length of a dwell in µs (R80). -/
def State.dwellUs (s : State) : Nat := 128 * s.get F.FRF_CTL.DWELL

/-- A pending commit of the global group takes effect; a changed rotation table starts at its first entry (R80, R96). -/
def State.frfGlbApply (s : State) : State :=
  let was := s.reg R.FRF_ROT
  let s := s.applyPending R.FRF_GLB_COMMIT
  if s.reg R.FRF_ROT ≠ was then { s with frf := { s.frf with cursor := 0 } } else s

/-- The dwell boundary at bin time w (R80), a multiple of the dwell so far; a pending DWELL and rotation table take effect
with it (R96). -/
def State.frfDwellBoundary (s : State) : State :=
  let w := s.frf.nextBin
  if !s.frfOn || w % s.dwellUs ≠ 0 || s.frf.dwellAt = some w then s
  else
    let s := (s.atBin w).frfGlbApply
    let len := s.get F.FRF_ROT.LEN
    let m := s.rotating.length
    let s := s.rotate len s.frf.cursor s.rotating 0
    { s with frf := { s.frf with
      cursor := if len = 0 then 0 else (s.frf.cursor + min m len) % len, dwellAt := some w } }

def execFrfDwellBoundary (s : State) : Res := .next s.frfDwellBoundary

/-! ### Detectors -/

/-- Values that a window end latches for a sub-filter (R82): PEAK, RMS, ENV, EMPTY, PARTIAL. -/
def FrfSub.latch (d : FrfSub) (coarse : Int) : Nat × Nat × Nat × Bool × Bool :=
  let c := fromSigned 32 coarse
  if d.clean = 0 then (c, c, c, true, d.dirty)
  else
    let v := fsqrt (fdiv d.sumSq (fofInt d.clean 0))
    (d.peak, (satSigned 32 (toIntRNE (v32 v) 12)).toNat, d.env.getD 0, false, d.dirty)

/-- A detector window of a lane ends at bin time w (R82). -/
def State.windowEnd (s : State) (l : Nat) : State :=
  let w := s.frf.nextBin
  let x := s.lane l
  let len := 2 ^ s.get (F.FRF_LANE_CTL.DET_WIN l) * 32 * s.d4 l
  if !s.frfOn || w % len ≠ 0 || x.windowAt = some w then s
  else match x.chan with
    | none => s.atBin w
    | some c =>
      let s := s.atBin w
      let coarse := (s.chan c).coarse w
      let s := s.each (List.range (s.split l)) (fun s k =>
        let v := (x.subs.getD k FrfSub.empty).latch coarse
        let s := s.put (F.FRF_LANE_DETk_A.PEAK l k) v.1
        let s := s.put (F.FRF_LANE_DETk_A.RMS l k) v.2.1
        let s := s.put (F.FRF_LANE_DETk_B.ENV l k) v.2.2.1
        let s := s.put (F.FRF_LANE_DETk_B.EMPTY l k) (bit v.2.2.2.1)
        s.put (F.FRF_LANE_DETk_B.PARTIAL l k) (bit v.2.2.2.2))
      s.setLane l { s.lane l with
        windowAt := some w,
        subs := (List.range x.subs.length).zip x.subs |>.map (fun p =>
          let d := p.2
          { d with windowRef := (w : Int) - delta4 (s.delay l (s.activeBank l) p.1), peak := 0, sumSq := 0, clean := 0, dirty := false, rms := if d.clean = 0 then d.rms else (d.latch coarse).2.1 }) }

def execFrfDetectorWindowEnd (lane : Nat) (s : State) : Res := .next (s.windowEnd lane)

/-! ### Folds and masks -/

/-- Longest circular run of true values among 64, as (start, length); ties go to the lowest start (R91). -/
def runFrom (hot : List Bool) (b : Nat) : Nat → Nat
  | 0 => 0
  | n + 1 => if hot.getD (b % 64) false then 1 + runFrom hot (b + 1) n else 0

def longestRun (hot : List Bool) : Nat × Nat :=
  (List.range 64).foldl (fun best b => let n := runFrom hot b 64; if n > best.2 then (b, n) else best) (0, 0)

/-- The decision on the fold of lane `l` at bin time w (R91); the per-bin means and their mean are rounded down (DEDUCED, log entry 20). -/
def State.decideFold (s : State) (l w : Nat) : Fold :=
  let x := s.lane l
  let p := s.get (F.FRF_LANE_FOLD.PERIOD_NS l)
  let n := (List.range 64).map (fun b => tabGet 0 x.counts b)
  let m := (List.range 64).map (fun b => (floorDiv (tabGet 0 x.sums b) (tabGet 1 x.counts b)))
  let sum := sumInt m
  let mean := floorDiv sum 64
  let mx := m.foldl max (m.getD 0 0)
  let mn := m.foldl min (m.getD 0 0)
  let thr : Int := s.get F.FRF_MASK_CTL.THR
  let hotK : Int := s.get F.FRF_MASK_CTL.HOT
  let hot := m.map (fun v => decide (16 * 64 * v ≥ hotK * sum))
  let run := longestRun hot
  let pad := 1000 * s.get F.FRF_MASK_CTL.PAD
  let out : FoldOutcome :=
    if n.any (fun k => k = 0) || sum < 64 * 64 * (s.get F.FRF_MASK_CTL.MIN_RATE : Int) then .noDecision
    else if 16 * 64 * (mx - mn) < thr * sum then .steady
    else if run.2 = 0 || run.2 > s.get F.FRF_MASK_CTL.MAX_W then .wide
    else .flicker
  let phase := if out = .flicker then ((floorDiv ((run.1 * p : Nat) : Int) 64 - (pad : Int)).emod (p : Int)).toNat else 0
  let width := if out = .flicker then run.2 * p / 64 + 2 * pad else 0
  ⟨l, x.chan.getD 0, w, out, p, phase, width, fromSigned 32 mean, fromSigned 32 mx, fromSigned 32 mn,
    (hot.filter (fun b => b)).length, run.2, (x.subs.getD 0 FrfSub.empty).rms⟩

/-- The mask entry of an index with its versions. -/
def State.mask (s : State) (e : Nat) : MaskVer := tabGet ⟨[], 0, Mask.empty, true⟩ s.frf.masks e

/-- The entry as it is written last. -/
def State.maskNow (s : State) (e : Nat) : Mask := (s.mask e).cur

/-- The version of an entry that an event of time t sees (R93): the newest whose boundary it has reached. -/
def State.maskAt (s : State) (e t : Nat) : Mask :=
  let v := s.mask e
  if v.from' ≤ t then v.cur
  else match v.olds.find? (fun o => o.1 ≤ t) with
    | some o => o.2
    | none => Mask.empty

/-- An event of converted time t lies in the flicker window of its tile (R62). -/
def State.inWindow (s : State) (stream x y t : Nat) : Bool :=
  let j := tileOf x y (s.get (F.HG_STREAM_GEOM.WIDTH stream)) (s.get (F.HG_STREAM_GEOM.HEIGHT stream))
  let m := s.maskAt (64 * stream + j) t
  m.active && m.period ≠ 0 && decide ((((t : Int) - m.phase).emod m.period).toNat < m.width)

/-- Write a mask entry at the present device time: it applies from the next slice boundary of the stream's group, and
replaces an update that still waits (R93). -/
def State.writeMask (s : State) (e : Nat) (m : Mask) : State :=
  let t := s.sliceNs (e / 64)
  let bound := (s.time / t + 1) * t
  let v := s.mask e
  let olds := if s.time < v.from' then v.olds else (v.from', v.cur) :: v.olds
  { s with frf := { s.frf with masks := tabInsert s.frf.masks e ⟨olds, bound, m, false⟩ } }

/-- Contrast (max − min) ÷ mean in Q16.16 (R95). -/
def Fold.contrast (f : Fold) : Nat :=
  let d := (toSigned 32 f.max - toSigned 32 f.min).toNat
  let m := (toSigned 32 f.mean).toNat
  if m = 0 then 0 else satNat 32 (65536 * d / m)

def FoldOutcome.code : FoldOutcome → Nat
  | .noDecision => 0
  | .steady => 1
  | .flicker => 2
  | .wide => 3

/-- A flicker report of a fold or of a mask change, written or dropped (R95). -/
def State.flickerReport (s : State) (reason chan lane : Nat) (f : Option Fold) (active lock : Bool) : State :=
  if !s.flag F.FRF_CTL.RPT_EN then s
  else
    let r := s.get F.FRF_RPT_CTL.RING
    if s.resultRoom r 1 then
      let body := match f with
        | some f => leBytes 1 f.outcome.code ++ leBytes 1 (bit active + 2 * bit lock) ++ leBytes 8 (1000 * f.at' - 14000) ++
            leBytes 4 f.period ++ leBytes 4 f.phase ++ leBytes 4 f.width ++ leBytes 4 f.mean ++ leBytes 4 f.max ++
            leBytes 4 f.min ++ leBytes 4 f.contrast ++ leBytes 2 f.hot ++ leBytes 2 f.run ++ leBytes 4 f.rms
        | none => leBytes 1 0 ++ leBytes 1 (bit active + 2 * bit lock) ++ zeros 44
      let ent := [0x05#8] ++ leBytes 1 reason ++ leBytes 2 chan ++ leBytes 2 lane ++ body ++ leBytes 8 s.frf.reports ++ zeros 4
      (s.pushRun r ⟨.flicker, [ent]⟩) |> fun s => { s with frf := { s.frf with reports := s.frf.reports + 1 } }
    else (s.put F.FRF_STAT.RPT_DROP 1).bump R.FRF_CNT_RPT_DROP

/-- Channel number of a mask entry (R92). -/
def entryChan (e : Nat) : Nat := 68 * (e / 64) + e % 64

/-- A report of a change of an entry between active and inactive, when mask reports are on (R95). -/
def State.maskReport (s : State) (reason e lane : Nat) (f : Option Fold) (before after : Mask) : State :=
  if before.active ≠ after.active && s.flag F.FRF_RPT_CTL.MASK_RPT then
    s.flickerReport reason (entryChan e) lane f after.active after.lock
  else s

/-- The fold of a lane is decided at the end of its interval, bin time w (R90, R91, R95). -/
def State.foldDecision (s : State) (l : Nat) : State :=
  let w := s.frf.nextBin
  let x := s.lane l
  if !s.frfOn || w % s.dwellUs ≠ 0 || x.foldAt = some w || x.chan.isNone || s.get (F.FRF_LANE_FOLD.PERIOD_NS l) = 0 then s
  else
    let s := s.atBin w
    let f := s.decideFold l w
    let s := s.setLane l { x with sums := [], counts := [], foldAt := some w }
    if f.outcome = .noDecision then s
    else
      let s := { s with frf := { s.frf with decisions := s.frf.decisions ++ [f] } }
      let j := f.chan % 68
      let m := s.maskNow (64 * (f.chan / 68) + j)
      let act := if j < 64 then (if m.lock then m.active else f.outcome = .flicker) else false
      if s.flag (F.FRF_LANE_CTL.REPORT l) then s.flickerReport 1 f.chan l (some f) act (decide (j < 64) && m.lock) else s

def execFrfFoldDecision (lane : Nat) (s : State) : Res := .next (s.foldDecision lane)

/-- The first decision to write: earliest bin time, then lowest lane (R92). -/
def firstDecision : List Fold → Option Fold
  | [] => none
  | f :: r => match firstDecision r with
    | none => some f
    | some g => if g.at' < f.at' || (g.at' = f.at' && g.lane < f.lane) then some g else some f

/-- The entry after a decision (R92). -/
def Mask.decide (m : Mask) (f : Fold) (now : Nat) : Mask :=
  if m.lock then m
  else match f.outcome with
    | .flicker => ⟨true, false, f.period, f.phase, f.width, now⟩
    | .noDecision => m
    | _ => { m with active := false }

/-- The next decision is written to the mask table (R92, R93). -/
def State.frfMaskUpdate (s : State) : State :=
  match firstDecision s.frf.decisions with
  | none => s
  | some f =>
    let s := s.atBin f.at'
    let s := { s with frf := { s.frf with decisions := s.frf.decisions.erase f } }
    let j := f.chan % 68
    if j ≥ 64 then s
    else
      let e := 64 * (f.chan / 68) + j
      let old := s.maskNow e
      if old.lock then s
      else
        let m := old.decide f s.time
        (s.writeMask e m).maskReport (if m.active then 2 else 3) e f.lane (some f) old m

def execFrfMaskUpdate (s : State) : Res := .next s.frfMaskUpdate

/-- The slice boundary from which a written entry applies is reached (R93). -/
def State.frfMaskTakeEffect (s : State) (e : Nat) : State :=
  let v := s.mask e
  if v.applied then s
  else
    let s := s.at v.from'
    { s with frf := { s.frf with masks := tabInsert s.frf.masks e { v with applied := true } } }

def execFrfMaskTakeEffect (entry : Nat) (s : State) : Res := .next (s.frfMaskTakeEffect entry)

/-- An ACTIVE entry has had no FLICKER outcome for TTL seconds (R92, R94). -/
def State.frfMaskExpiry (s : State) (e : Nat) : State :=
  let m := s.maskNow e
  if !m.active || m.lock then s
  else
    let s := s.at (m.age + 1000000000 * s.get F.FRF_MASK_CTL.TTL)
    let m' := { m with active := false }
    (s.writeMask e m').maskReport 4 e 0xFFFF none m m'

def execFrfMaskExpiry (entry : Nat) (s : State) : Res := .next (s.frfMaskExpiry entry)

/-- The entries of a stream are cleared, except those with LOCK (R89), with a report of each that was active (R95). -/
def State.clearMasks (s : State) (stream : Nat) : State :=
  let gone := s.frf.masks.filter (fun p => p.1 / 64 = stream && !p.2.cur.lock)
  let s := { s with frf := { s.frf with masks := s.frf.masks.filter (fun p => p.1 / 64 ≠ stream || p.2.cur.lock) } }
  s.each gone (fun s p => s.maskReport 3 p.1 0xFFFF none p.2.cur Mask.empty)

/-! ### Register operations -/

/-- A write to FRF_MASK_DATA1 completes the entry that FRF_MASK_SEL names (R94). -/
def State.frfMaskData1 (s : State) (val : Word) : State :=
  let e := s.get F.FRF_MASK_SEL.ENTRY
  let p := s.get F.FRF_MASK_DATA0.PERIOD
  let ph := s.get F.FRF_MASK_DATA0.PHASE
  let w := F.FRF_MASK_DATA1.WIDTH.of val
  let s := s.setReg R.FRF_MASK_DATA1 (val &&& (maskOf 63 62 ||| maskOf 31 0))
  if p < 1000000 || p > 50000000 || ph ≥ p || w ≥ p then s.put F.FRF_STAT.MASK_BAD 1
  else
    let old := s.maskNow e
    let m : Mask := ⟨F.FRF_MASK_DATA1.ACTIVE.of val ≠ 0, F.FRF_MASK_DATA1.LOCK.of val ≠ 0, p, ph, w, s.time⟩
    (s.writeMask e m).maskReport (if m.active then 2 else 3) e 0xFFFF none old m

def execFrfMaskData1 (t req val : Nat) (s : State) : Res :=
  .next ((s.at t).asReq req R.FRF_MASK_DATA1 8 val (fun s => s.frfMaskData1 (BitVec.ofNat 64 val)))

/-- True when a bank of a lane is busy (R83). -/
def State.bankBusy (s : State) (l : Nat) (b : Bool) : Bool :=
  b = s.activeBank l || (match (s.lane l).fade with
    | some (t, _) => t = b
    | none => false)

/-- A write to FRF_COEF_DATA (R83). -/
def State.frfCoefData (s : State) (val : Word) : State :=
  let l := s.get F.FRF_COEF_ADDR.LANE
  let b := s.flag F.FRF_COEF_ADDR.BANK
  let i := s.get F.FRF_COEF_ADDR.INDEX
  let c := toSigned 18 (F.FRF_COEF_DATA.COEF.of val)
  let s := s.setReg R.FRF_COEF_DATA (val &&& maskOf 17 0)
  let s := if s.bankBusy l b then s.put (F.FRF_LANE_STAT.BANK_BUSY l) 1
    else
      let x := s.lane l
      s.setLane l (if b then { x with coefB := tabSet 0 x.coefB i c } else { x with coefA := tabSet 0 x.coefA i c })
  if s.flag F.FRF_COEF_ADDR.AUTOINC then s.put F.FRF_COEF_ADDR.INDEX ((i + 1) % 128) else s

def execFrfCoefData (t req val : Nat) (s : State) : Res :=
  .next ((s.at t).asReq req R.FRF_COEF_DATA 4 val (fun s => s.frfCoefData (BitVec.ofNat 64 val)))

/-- A write to FRF_LANE_SWAP (R84): from the request on, the fade counts as in progress (DESIGN CHOICE, log entry 79). -/
def State.frfLaneSwap (s : State) (l : Nat) (val : Word) : State :=
  let x := s.lane l
  let target := (F.FRF_LANE_SWAP.TARGET l).of val ≠ 0
  if (F.FRF_LANE_SWAP.REQ l).of val = 0 then s
  else match x.fade with
    | none => if target = s.activeBank l then s
        else (s.setLane l { x with fade := some (target, 0) }).put (F.FRF_LANE_STAT.FADING l) 1
    | some _ => (s.put (F.FRF_LANE_STAT.PENDING l) 1).put (F.FRF_LANE_STAT.PEND_TARGET l) (bit target)

def execFrfLaneSwap (t req lane val : Nat) (s : State) : Res :=
  .next ((s.at t).asReq req (R.FRF_LANE_SWAP lane) 4 val (fun s => s.frfLaneSwap lane (BitVec.ofNat 64 val)))

/-- A fade has given its F outputs (R84, R85). -/
def State.fadeEnd (s : State) (l : Nat) : State :=
  let x := s.lane l
  match x.fade with
  | none => s
  | some (b, i) =>
    if i < s.fadeLen l then s
    else
      let pend := s.flag (F.FRF_LANE_STAT.PENDING l)
      let target := s.flag (F.FRF_LANE_STAT.PEND_TARGET l)
      let again := pend && target ≠ b
      let s := s.setLane l { x with fade := if again then some (target, 0) else none }
      let s := (s.put (F.FRF_LANE_STAT.ACTIVE l) (bit b)).put (F.FRF_LANE_STAT.FADING l) (bit again)
      (s.put (F.FRF_LANE_STAT.PENDING l) 0).put (F.FRF_LANE_STAT.PEND_TARGET l) 0

def execFadeEnd (lane : Nat) (s : State) : Res := .next (s.fadeEnd lane)

/-- The next switch instant, in bin time (R79, R87). -/
def State.nextSwitch (s : State) : Nat :=
  let w := ceilDiv s.frf.nextBin 128 * 128
  if s.frf.switchedAt = some w then w + 128 else w

/-- A write to FRF_SYNC (R87). -/
def State.frfSync (s : State) (val : Word) : State :=
  let s := s.put F.FRF_SYNC.SCOPE (F.FRF_SYNC.SCOPE.of val)
  let s := s.put F.FRF_SYNC.TARGET (F.FRF_SYNC.TARGET.of val)
  let s := s.put F.FRF_SYNC.TIMED (F.FRF_SYNC.TIMED.of val)
  let s := if F.FRF_SYNC.LATE.of val = 1 then s.put F.FRF_SYNC.LATE 0 else s
  let scope := F.FRF_SYNC.SCOPE.of val
  if F.FRF_SYNC.REQ.of val = 0 || scope = 3 then s
  else
    let next := s.nextSwitch
    let timed := F.FRF_SYNC.TIMED.of val = 1
    let want := if timed then ceilDiv (s.get F.FRF_SYNC_TIME.TIME) 128000 * 128 else next
    let late := timed && want < next
    let s := if late then s.put F.FRF_SYNC.LATE 1 else s
    let s := s.put F.FRF_SYNC.PENDING 1
    { s with frf := { s.frf with sync := some (scope, F.FRF_SYNC.TARGET.of val, max want next) } }

def execFrfSync (t req val : Nat) (s : State) : Res :=
  .next ((s.at t).asReq req R.FRF_SYNC 8 val (fun s => s.frfSync (BitVec.ofNat 64 val)))

/-- First failing check of the FRF global group (R96). -/
def State.frfGlbCode (s : State) : Nat := firstCode [
  (0x01, s.st F.FRF_CTL.DWELL = 0 || s.st F.FRF_CTL.BIN_HOLD < 16 || s.st F.FRF_ROT.LEN > 8704 ||
    s.st F.FRF_MASK_CTL.TTL = 0 || s.st F.FRF_MASK_CTL.MAX_W = 0 || s.st F.FRF_MASK_CTL.MAX_W > 32),
  (0x06, s.frfOn && s.changed F.FRF_CTL.BIN_HOLD)]

/-- A write to FRF_GLB_COMMIT (R96): DWELL and FRF_ROT wait for the next dwell boundary while FRF runs.  FRF starts with the
bin of the present time: earlier bins count as passed (DESIGN CHOICE, log entry 79). -/
def State.frfGlbCommit (s : State) (req val : Nat) : State :=
  let c := R.FRF_GLB_COMMIT
  let code := s.frfGlbCode
  let ok := s.commitPasses req c val code
  let rotates := s.changed F.FRF_CTL.DWELL || s.regChanged R.FRF_ROT
  let starts := !s.frfOn && s.st F.FRF_CTL.ENABLE = 1
  let ctlNow := setBits (s.shadowReg R.FRF_CTL) F.FRF_CTL.DWELL.hi F.FRF_CTL.DWELL.lo (s.get F.FRF_CTL.DWELL)
  let waits := s.frfOn && s.st F.FRF_CTL.ENABLE = 1 && rotates
  let s1 := if waits then
      s.commitSplit req c val code
        [(R.FRF_CTL, ctlNow), (R.FRF_MASK_CTL, s.shadowReg R.FRF_MASK_CTL), (R.FRF_RPT_CTL, s.shadowReg R.FRF_RPT_CTL)]
        [(R.FRF_CTL, s.shadowReg R.FRF_CTL), (R.FRF_ROT, s.shadowReg R.FRF_ROT)]
    else s.commitNow req c val code
  let s2 := if ok && !waits && s.regChanged R.FRF_ROT then { s1 with frf := { s1.frf with cursor := 0 } } else s1
  if ok && starts then { s2 with frf := { s2.frf with nextBin := s.time / 1000, switchedAt := none, dwellAt := none } } else s2

def execFrfGlbCommit (t req val : Nat) (s : State) : Res :=
  .next ((s.at t).asReq req R.FRF_GLB_COMMIT 4 val (fun s => s.frfGlbCommit req val))

/-- Taps of sub-filter k that a staged bank configuration gives. -/
def stagedTaps (w : Word) (k : Nat) : Nat := getBits w (8 * k + 7) (8 * k)

/-- First failing check of a lane group (R96). -/
def State.frfLaneCode (s : State) (l : Nat) : Nat :=
  let p := s.st (F.FRF_LANE_FOLD.PERIOD_NS l)
  let split := 2 ^ s.st (F.FRF_LANE_CTL.SPLIT l)
  let banks := [s.shadowReg (R.FRF_LANE_BCFG_A l), s.shadowReg (R.FRF_LANE_BCFG_B l)]
  firstCode [
    (0x01, s.st (F.FRF_LANE_CTL.SPLIT l) = 3 || s.st (F.FRF_LANE_CTL.D4 l) = 3 || s.st (F.FRF_LANE_CTL.MODE l) = 3 ||
      s.st (F.FRF_LANE_CTL.DET_WIN l) < 4 || s.st (F.FRF_LANE_CTL.DET_WIN l) > 16 ||
      s.st (F.FRF_LANE_CTL.PIN_CH l) ≥ 8704 || (p ≠ 0 && (p < 1000000 || p > 50000000)) ||
      banks.any (fun w => (List.range 4).any (fun k => stagedTaps w k > 128))),
    (0x06, (s.get (F.FRF_LANE_CTL.MODE l) ≠ 0 && (s.changed (F.FRF_LANE_CTL.SPLIT l) || s.changed (F.FRF_LANE_CTL.D4 l))) ||
      (s.bankBusy l false && s.regChanged (R.FRF_LANE_BCFG_A l)) || (s.bankBusy l true && s.regChanged (R.FRF_LANE_BCFG_B l))),
    (0x09, banks.any (fun w => (List.range 4).any (fun k =>
      stagedTaps w k > 128 / split || (k ≥ split && stagedTaps w k ≠ 0))))]

/-- A write to FRF_LANE_COMMIT (R96): the fields of a lane that is and stays OFF take effect at once, those of any other
lane at their boundary. -/
def State.frfLaneCommit (s : State) (req l val : Nat) : State :=
  let c := R.FRF_LANE_COMMIT l
  let code := s.frfLaneCode l
  if s.get (F.FRF_LANE_CTL.MODE l) = 0 && s.st (F.FRF_LANE_CTL.MODE l) = 0 then
    let s1 := s.commitNow req c val code
    if s.commitPasses req c val code then s1.laneApplied l s else s1
  else s.commitLater req c val code

def execFrfLaneCommit (t req lane val : Nat) (s : State) : Res :=
  .next ((s.at t).asReq req (R.FRF_LANE_COMMIT lane) 4 val (fun s => s.frfLaneCommit req lane val))

end Sys2Proof.Machine
end

