-- ==== Sys2Proof/Machine/Headgate.lean ====
section
/-!
DEFINITION. The headgate (R31–R70): Runnel batches and the ordered checks, the journal and the ACK, time conversion,
filtering and slices, and the two commit groups.
-/

namespace Sys2Proof.Machine

/-! ### Runnel formats -/

/-- A datagram that passes check 1 of R44 as a batch (R31, R32). -/
def parseBatch (p : List Byte) (src sport port t : Nat) (inj : Option (Nat × Nat)) : Option Batch :=
  let n := fieldAt p 6 2
  if p.length ≥ 32 && fieldAt p 0 2 = 0xE7C5 && fieldAt p 2 1 = 1 && fieldAt p 3 1 < 128 && n ≤ 2240 && p.length = 32 + 4 * n &&
      fieldAt p 28 4 = crc32c (p.take 28) then
    some ⟨fieldAt p 3 1, fieldAt p 4 2, n, fieldAt p 8 4, fieldAt p 12 8, fieldAt p 24 4, fieldAt p 20 4, p, src, sport, port, t, inj⟩
  else none

/-- Payload check of a batch (R31): check 4. -/
def Batch.payloadOk (b : Batch) : Bool :=
  b.payloadCrc = (if b.n = 0 then 0 else crc32c (b.bytes.drop 32))

def Batch.endOfBurst (b : Batch) : Bool := b.flags.testBit 0
def Batch.ptpLocked (b : Batch) : Bool := b.flags.testBit 1

/-- Event words of a batch (R34). -/
def Batch.words (b : Batch) : List Nat := (List.range b.n).map (fun i => fieldAt b.bytes (32 + 4 * i) 4)

/-- Kind of an event word (R34). -/
def wordKind (w : Nat) : Nat := natBits w 31 30

/-- Time increment of an event word, µs (R34). -/
def wordDt (w : Nat) : Nat :=
  match wordKind w with
  | 0 => natBits w 6 0
  | 1 => natBits w 29 0
  | 2 => natBits w 23 0
  | _ => 0

/-- Tokens that a batch needs: its change and marker words (R43). -/
def Batch.need (b : Batch) : Nat := (b.words.filter (fun w => wordKind w = 0 || wordKind w = 2)).length

/-- Words with their source times (R34). -/
def timedWords : Nat → List Nat → List (Nat × Nat)
  | _, [] => []
  | t, w :: ws => (t + 1000 * wordDt w, w) :: timedWords (t + 1000 * wordDt w) ws

/-- Batch end time: source time of the last word that is not padding, or the base time (R34). -/
def Batch.endTime (b : Batch) : Nat := b.base + 1000 * sumNat (b.words.map wordDt)

/-- An ACK packet (R36). -/
def ackPacket (gap : Bool) (tag cum at' credit : Nat) : List Byte :=
  withCrc (leBytes 2 0xE7C5 ++ leBytes 1 1 ++ leBytes 1 (0x80 + bit gap) ++ leBytes 2 tag ++ leBytes 1 1 ++ zeros 1 ++
    leBytes 4 cum ++ leBytes 8 at' ++ leBytes 2 credit ++ zeros 6)

/-- A NAK packet (R36, R37). -/
def nakPacket (tag reason seq retry : Nat) : List Byte :=
  withCrc (leBytes 2 0xE7C5 ++ leBytes 1 1 ++ leBytes 1 0x80 ++ leBytes 2 tag ++ leBytes 1 2 ++ leBytes 1 reason ++
    leBytes 4 seq ++ zeros 12 ++ leBytes 4 retry)

/-! ### Buckets, ACKs and NAKs -/

/-- Source address of a slot. -/
def State.srcOf (s : State) (i : Nat) : Nat := s.get (F.HG_STREAM_SRC_LO.ADDR_LO i) + 2 ^ 64 * s.get (F.HG_STREAM_SRC_HI.ADDR_HI i)

/-- Tokens in a stream's bucket now, with 32 fractional bits (R43). -/
def State.tokensNow (s : State) (i : Nat) : Nat :=
  let x := s.stream i
  min (s.get (F.HG_STREAM_BKT.BURST i) * 2 ^ 32)
    (x.tokens + s.get (F.HG_STREAM_BKT.RATE i) * (s.time - x.filledAt) * 2 ^ 32 / 1000000000)

/-- A bucket holds `tok` at the present time. -/
def State.setTokens (s : State) (i tok : Nat) : State :=
  (s.setStream i { s.stream i with tokens := tok, filledAt := s.time }).put (F.HG_STREAM_RESID.TOKENS i) (tok / 2 ^ 32)

/-- The bucket of a stream refilled to the present time (R43). -/
def State.refill (s : State) (i : Nat) : State := s.setTokens i (s.tokensNow i)

/-- Credit of an ACK (R38). -/
def State.credit (s : State) (i : Nat) : Nat :=
  if s.jrnFree < 64 * 9088 then 0 else min 64 (s.tokensNow i / 2 ^ 32 / 2240)

/-- A Runnel control packet leaves the ingest address and port for the source of a batch (R36). -/
def State.sendRunnel (s : State) (src sport port : Nat) (p : List Byte) : State :=
  s.emit (.udp (s.outPort port) (s.ingestAddr src) (s.get F.HG_CTL.UDP_PORT) src sport p)

/-- An ACK of a stream to the source address, UDP port and device port of the batch that it answers, with the cumulative
sequence and the acceptance time (R36, R46).  A repeat goes where the last ACK went (DESIGN CHOICE, log entry 72). -/
def State.sendAck (s : State) (i cum at' : Nat) (gap : Bool) (dest : Nat × Nat × Nat) : State :=
  if s.mute then s
  else
    let s := s.setStream i { s.stream i with lastAck := some (cum, at'), peer := dest }
    s.sendRunnel dest.1 dest.2.1 dest.2.2 (ackPacket gap (s.get (F.HG_STREAM_GEOM.TAG i)) cum at' (s.credit i))

/-- Where the answer to a batch goes (R36). -/
def Batch.source (b : Batch) : Nat × Nat × Nat := (b.src, b.sport, b.port)

/-- A NAK for a batch, counted even when refusals are silent (R37, R67). -/
def State.sendNak (s : State) (i : Nat) (b : Batch) (reason retry : Nat) : State :=
  if s.mute then s
  else
    let s := s.bump (R.HG_STREAM_CNT_NAK i)
    if s.flag F.HG_CTL.NAK_EN then s.sendRunnel b.src b.sport b.port (nakPacket b.tag reason b.seq retry) else s

/-- Retry-after of OVER_RATE, µs (R37). -/
def overRateRetry (deficit rate floor : Nat) : Nat := max (ceilDiv (deficit * 1000000) (rate * 2 ^ 32)) floor

/-! ### Time conversion -/

/-- Time mode of a stream. -/
def State.timeMode (s : State) (i : Nat) : Nat := s.get (F.HG_STREAM_CTL.TIME_MODE i)

/-- Offset, rate and reference time in force for a batch accepted now (R53). -/
def State.conversion (s : State) (i : Nat) (base : Nat) : Int × Int × Nat :=
  let x := s.stream i
  let o := s.getS (F.HG_STREAM_TOFF.OFFSET i)
  match s.timeMode i with
  | 1 => (o + x.trk.beta, x.trk.alpha, x.trk.s0.getD base)
  | 2 => (o, s.getS (F.HG_STREAM_TIME.RATE_PPB i), x.sc.getD base)
  | _ => (o, 0, 0)

/-- Device time of a source time (R53). -/
def convert (c : Int × Int × Nat) (src : Nat) : Int := src + c.1 + floorDiv (((src : Int) - c.2.2) * c.2.1) 1000000000

/-- The TRACKED window takes a batch, and is complete with its 64th: its pair then waits for the fit (R54). -/
def Tracked.take (k : Tracked) (sEnd : Nat) (y : Int) : Tracked :=
  let d := y - sEnd
  let b := match k.best with
    | none => (d, (sEnd : Int), y)
    | some (d', e, v) => if d < d' then (d, (sEnd : Int), y) else (d', e, v)
  if k.count + 1 < 64 then { k with count := k.count + 1, best := some b }
  else { k with count := 0, best := none, ready := k.ready ++ [(b.2.1, b.1)] }

/-- Least squares over the points (R54): slope in ppb and intercept in ns, rounded to nearest, ties away from zero.  The
sums and quotients are exact; R54 computes them in FP64 and gives no order of evaluation (DESIGN CHOICE, log entry 73). -/
def lsqFit (old : Int) (pts : List (Int × Int)) : Int × Int :=
  let n : Int := pts.length
  let sx := sumInt (pts.map (fun p => p.1))
  let sy := sumInt (pts.map (fun p => p.2))
  let sxx := sumInt (pts.map (fun p => p.1 * p.1))
  let sxy := sumInt (pts.map (fun p => p.1 * p.2))
  let den := n * sxx - sx * sx
  if den = 0 then
    (old, roundHalfAway (sumInt (pts.map (fun p => p.2 - floorDiv (p.1 * old) 1000000000))) pts.length)
  else
    let num := n * sxy - sx * sy
    let a := roundHalfAway (num * 1000000000) den.toNat
    let a := if a > 1000000 then 1000000 else if a < -1000000 then -1000000 else a
    (a, roundHalfAway (sy * sxx - sx * sxy) den.toNat)

/-- The estimate is fitted anew for the oldest window that waits, over the last 16 windows (R54). -/
def State.trackedFit (s : State) (i : Nat) : State :=
  let x := s.stream i
  match x.trk.ready with
  | [] => s
  | (e, d) :: rest =>
    if s.timeMode i ≠ 1 then s
    else
      let pts := x.trk.points ++ [(e - ((x.trk.s0.getD 0 : Nat) : Int), d)]
      let pts := pts.drop (pts.length - 16)
      let f := lsqFit x.trk.alpha pts
      s.setStream i { x with trk := { x.trk with alpha := f.1, beta := f.2, ready := rest, points := pts, estimated := true } }

def execTrackedFit (stream : Nat) (s : State) : Res := .next (s.trackedFit stream)

/-! ### Filtering -/

/-- The hot-pixel bit of a pixel (R59). -/
def State.hotPixel (s : State) (i x y : Nat) : Bool :=
  let row := ceilDiv (s.get (F.HG_STREAM_GEOM.WIDTH i)) 64 * 8
  (s.mapNat i 0 (64 * s.get (F.HG_STREAM_HPM.ADDR i)) (y * row + x / 8) 1).testBit (x % 8)

/-- Key of a pixel, and of a 2 × 2 cell. -/
def pixelKey (x y : Nat) : Nat := y * 2048 + x
def cellKey (cx cy : Nat) : Nat := cy * 1024 + cx

/-- Age of a stored 32-bit µs time. -/
def ageUs (now stored : Nat) : Nat := (now % 2 ^ 32 + 2 ^ 32 - stored) % 2 ^ 32

/-- Neighbouring cells that fired within τ (R61). -/
def State.firedCells (s : State) (i cx cy nowUs tau : Nat) : Nat :=
  let x := s.stream i
  let w := ceilDiv (s.get (F.HG_STREAM_GEOM.WIDTH i)) 2
  let h := ceilDiv (s.get (F.HG_STREAM_GEOM.HEIGHT i)) 2
  let around : List (Int × Int) := [(-1, -1), (0, -1), (1, -1), (-1, 0), (1, 0), (-1, 1), (0, 1), (1, 1)]
  (around.filter (fun d =>
    let nx := (cx : Int) + d.1
    let ny := (cy : Int) + d.2
    decide (0 ≤ nx) && decide (nx < w) && decide (0 ≤ ny) && decide (ny < h) &&
      (match tabFind x.cells (cellKey nx.toNat ny.toNat) with
        | some t => decide (ageUs nowUs t ≤ tau)
        | none => false))).length

/-- Where the filter stages leave a change event (R58). -/
inductive Verdict where
  | oof | hot | refrac | bg | flicker | kept (tag : Bool)
  deriving DecidableEq, Repr

/-- The stages of R58 on a change event of device time t: the FRF channels, the state that stages 3 and 4 keep, and the
verdict.  A disabled stage 3 or 4 lets every event pass and still writes its time, as R60 and R61 say of every event that
reaches the stage (DESIGN CHOICE, log entry 74). -/
def State.filterEvent (s : State) (i x y : Nat) (on : Bool) (t : Nat) : State × Verdict :=
  if x ≥ s.get (F.HG_STREAM_GEOM.WIDTH i) || y ≥ s.get (F.HG_STREAM_GEOM.HEIGHT i) then (s, .oof)
  else
    let s := s.frfFeed i x y on t
    if s.flag (F.HG_STREAM_DN.HPM_EN i) && s.hotPixel i x y then (s, .hot)
    else
      let us := t / 1000
      let refr := s.get (F.HG_STREAM_DN.REFRAC i)
      let st := s.stream i
      let last := tabFind st.refracT (pixelKey x y)
      let s := s.setStream i { st with refracT := tabInsert st.refracT (pixelKey x y) (us % 2 ^ 32) }
      let early := refr ≠ 0 && (match last with
        | some v => decide (ageUs us v < refr)
        | none => false)
      if early then (s, .refrac)
      else
        let baf := s.flag (F.HG_STREAM_DN.BAF_EN i)
        let n := s.firedCells i (x / 2) (y / 2) us (s.get (F.HG_STREAM_DN.TAU i))
        let st := s.stream i
        let s := s.setStream i { st with cells := tabInsert st.cells (cellKey (x / 2) (y / 2)) (us % 2 ^ 32) }
        if baf && n < s.get (F.HG_STREAM_DN.K i) then (s, .bg)
        else
          let inWin := s.inWindow i x y t
          if s.flag (F.HG_STREAM_DN.FLK_SUPPRESS i) && inWin then (s, .flicker)
          else (s, .kept (s.flag (F.HG_STREAM_DN.FLK_TAG i) && inWin))

/-! ### Slices -/

def SliceAcc.empty (k : Nat) : SliceAcc := ⟨k, [], 0, 0, 0, 0, 0, 0, 0, 0, 0, 0, false, 0, none, false⟩

/-- The accumulator of slice k. -/
def StreamSt.acc (x : StreamSt) (k : Nat) : SliceAcc := (x.accs.find? (fun a => a.k = k)).getD (SliceAcc.empty k)

/-- The state with the accumulator of slice k replaced. -/
def StreamSt.setAcc (x : StreamSt) (a : SliceAcc) : StreamSt :=
  { x with accs := x.accs.filter (fun b => b.k < a.k) ++ [a] ++ x.accs.filter (fun b => a.k < b.k) }

/-- Event list word (R66). -/
def eventWord (marker on tag : Bool) (x y chan off : Nat) : Nat :=
  (if marker then 2 * 2 ^ 62 else 0) + bit on * 2 ^ 61 + bit tag * 2 ^ 60 + y * 2 ^ 49 + x * 2 ^ 38 + chan * 2 ^ 32 + off

/-- Slice and stamp of an event of device time t when slice `k0` is open (R63, R64). -/
def placeEvent (t : Int) (k0 period : Nat) : Nat × Nat × Bool :=
  if t < ((k0 * period : Nat) : Int) then (k0, k0 * period, true) else (t.toNat / period, t.toNat, false)

/-- Earliest acceptance time. -/
def earlier (m : Option Nat) (a : Nat) : Option Nat :=
  match m with
  | some x => some (min x a)
  | none => some a

/-- A marker word in slice `k`: listed among the slice's events and counted (R64). -/
def State.takeMarker (s : State) (i a k w off : Nat) (clamp late : Bool) : State :=
  let st := s.stream i
  let c := st.acc k
  let c := { c with
    events := c.events ++ [eventWord true false false 0 0 (natBits w 29 24) off]
    markers := c.markers + 1, any := true, clamped := c.clamped + bit clamp, late := c.late + bit late
    earliest := earlier c.earliest a }
  let s := s.setStream i (st.setAcc c)
  if late then s.bump (R.HG_STREAM_CNT_LATE i) else s

/-- A pixel word in slice `k` and the filters' verdict: kept, it is listed and fed to the furrow; dropped, its cause
counts (R58 to R64). -/
def State.takePixel (s : State) (i a k w off stamp : Nat) (clamp late : Bool) (v : Verdict) : State :=
  let s := s.bump (R.HG_STREAM_CNT_EVENT i)
  let st := s.stream i
  let c := st.acc k
  let c := { c with accepted := c.accepted + 1, any := true, clamped := c.clamped + bit clamp, earliest := earlier c.earliest a }
  match v with
  | .kept tag =>
    let c := { c with
      events := c.events ++ [eventWord false (w.testBit 29) tag (natBits w 17 7) (natBits w 28 18) 0 off]
      flkTag := c.flkTag + bit tag, late := c.late + bit late }
    let s := s.setStream i (st.setAcc c)
    let s := if late then s.bump (R.HG_STREAM_CNT_LATE i) else s
    s.furrowFeed i (natBits w 17 7) (natBits w 28 18) (w.testBit 29) stamp
  | v =>
    let c := match v with
      | .oof => { c with oof := c.oof + 1 }
      | .hot => { c with hot := c.hot + 1 }
      | .refrac => { c with refrac := c.refrac + 1 }
      | .bg => { c with bg := c.bg + 1 }
      | _ => { c with flkSup := c.flkSup + 1 }
    (s.setStream i (st.setAcc c)).bump (R.HG_STREAM_CNT_FILT i)

/-- One accepted word of source time `src` (R57, R58, R63, R64): its slice is the second part of the answer. -/
def State.takeWord (s : State) (i : Nat) (conv : Int × Int × Nat) (a period k0 : Nat) (src w : Nat) : State × Option Nat :=
  let kind := wordKind w
  if kind = 1 || kind = 3 then (s, none)
  else
    let t0 := convert conv src
    let clamp := decide (t0 > (a : Int))
    let t : Int := if clamp then a else t0
    let pl := placeEvent t k0 period
    let k := pl.1
    let s := if clamp then s.bump (R.HG_STREAM_CNT_CLAMP i) else s
    let off := pl.2.1 - k * period
    if kind = 2 then (s.takeMarker i a k w off clamp pl.2.2, some k)
    else
      let f := s.filterEvent i (natBits w 17 7) (natBits w 28 18) (w.testBit 29) t.toNat
      (f.1.takePixel i a k w off pl.2.1 clamp pl.2.2 f.2, some k)

/-- The accepted words in order, with the slices that they joined. -/
def State.takeWords (s : State) (i : Nat) (conv : Int × Int × Nat) (a period k0 : Nat) :
    List (Nat × Nat) → List Nat → State × List Nat
  | [], ks => (s, ks)
  | (src, w) :: r, ks =>
    let p := s.takeWord i conv a period k0 src w
    p.1.takeWords i conv a period k0 r (match p.2 with
      | some k => if ks.contains k then ks else ks ++ [k]
      | none => ks)

/-- The recovery count as a slice closes (R55).  A count of 16 makes the stream synchronised, but not by the close of a slice
before the one that holds a batch with |r| > T (DEDUCED, log entry 75). -/
def State.recoverCount (s : State) (i k : Nat) : State :=
  let x := s.stream i
  let n := s.get (F.HG_STREAM_STAT.RECOVER_CNT i)
  let counts := s.timeMode i ≠ 1 || x.trk.estimated
  let n' := match x.good.find? (fun p => p.1 = k) with
    | none => n
    | some (_, ok) => if !counts then n else if ok then min 16 (n + 1) else 0
  let s := s.setStream i { x with good := x.good.filter (fun p => k < p.1) }
  let s := s.put (F.HG_STREAM_STAT.RECOVER_CNT i) n'
  if n' = 16 && !reached x.unsK k then s.put (F.HG_STREAM_STAT.UNSYNCED i) 0 else s

/-- Flags of a slice descriptor (R65). -/
def SliceDesc.flags (d : SliceDesc) : Nat :=
  bit d.unsynced + 2 * bit (!d.acc.any) + 4 * bit d.guardClosed + 8 * bit d.replayed +
    16 * bit (d.acc.status % 4 ≠ 0) + 32 * bit (d.acc.status.testBit 2)

/-- The 64-byte slice descriptor (R65). -/
def SliceDesc.bytes (d : SliceDesc) : List Byte :=
  fieldsBytes [(1, 1), (1, d.stream), (2, d.flags), (4, d.acc.events.length), (8, d.k), (6, d.addr), (2, d.acc.markers),
    (4, d.acc.accepted), (4, d.acc.oof), (4, d.acc.hot), (4, d.acc.refrac), (4, d.acc.bg), (4, d.acc.flkSup),
    (4, d.acc.flkTag), (4, d.acc.late), (4, d.acc.clamped), (4, d.early)]

/-- Slice k of a stream, cut for fusion group g, closes: its descriptor joins the stream's input sluice queue, on its way to
the stand group (R63–R65).  A draining stream is CLOSED with it when it was open at the commit and no accepted event waits in
a later one (R41, DEDUCED, log entry 48). -/
def State.closeIn (s : State) (i g k : Nat) (guard replayed : Bool) : State :=
  let x := s.stream i
  let acc := x.acc k
  let period := s.groupNs g
  let uns := s.flag (F.HG_STREAM_STAT.UNSYNCED i)
  let early := match acc.earliest with
    | some a => a - k * period
    | none => s.freeVal .emptyKey % 2 ^ 32
  let d : SliceDesc := ⟨i, g, k, uns, guard, replayed || acc.again, acc, s.freeVal .eventListAddr % 2 ^ 48, early, s.time⟩
  let s := s.tickFree
  let s := s.setStream i { x with kOpen := some (k + 1), accs := x.accs.filter (fun b => k < b.k) }
  let s := { s with hg := { s.hg with lists := s.hg.lists ++ [d] }, sd := { s.sd with input := s.sd.input ++ [d] } }
  let s := s.give s.mm.inQ i [d.bytes]
  let s := s.closeSusp i
  let s := { s with ras := { s.ras with marks := s.ras.marks ++ (s.causesOf i).map (fun c => (c, i, k)) } }
  let s := s.recoverCount i k
  let y := s.stream i
  let drained := decide (y.kDrain.getD k ≤ k) && y.accs.isEmpty && !(s.entriesOf i).any (fun e => e.phase ≠ .accepted)
  if s.streamState i = 3 && drained then
    (s.put (F.HG_STREAM_STAT.STATE i) 0).setStream i { s.stream i with kOpen := none, accs := [], kLast := some k }
  else s

/-- Slice k of a stream closes. -/
def State.closeSlice (s : State) (i k : Nat) (guard replayed : Bool) : State :=
  s.closeIn i (s.get (F.HG_STREAM_CTL.GROUP i)) k guard replayed

/-- Close open slices whose end is at or before `upto`, at most `fuel` of them (R63). -/
def State.closeUpto (s : State) (i : Nat) (upto : Nat) : Nat → State
  | 0 => s
  | fuel + 1 =>
    match (s.stream i).kOpen with
    | none => s
    | some k => if (k + 1) * s.sliceNs i ≤ upto then (s.closeSlice i k false false).closeUpto i upto fuel else s

/-- The residual of an accepted batch of slice k (R55): a is its arrival time, as in R54 (DEDUCED, log entry 75). -/
def State.residual (s : State) (i k : Nat) (arrival : Nat) (tEnd : Int) : State × Bool :=
  let l : Int := 1000 * s.get (F.HG_STREAM_TIME.LAT i)
  let r : Int := (arrival : Int) - tEnd - l
  let period := s.sliceNs i
  let s := s.put (F.HG_STREAM_RESID.RESID i) (fromSigned 32 (satSigned 32 r))
  let s := if s.streamState i = 2 && r.natAbs > period then
      (s.put (F.HG_STREAM_STAT.UNSYNCED i) 1).setStream i { s.stream i with unsK := raise (s.stream i).unsK k }
    else s
  (s, decide (4 * r.natAbs < period))

/-- A batch counts for the slice of its clamped end time (R55). -/
def StreamSt.addGood (x : StreamSt) (k : Nat) (ok : Bool) : StreamSt :=
  match x.good.find? (fun p => p.1 = k) with
  | some _ => { x with good := x.good.map (fun p => if p.1 = k then (k, p.2 && ok) else p) }
  | none => { x with good := x.good ++ [(k, ok)] }

/-- Replace the entry of a batch whose words have no slices yet; an older entry of that sequence, from an earlier opening of
the stream, stays. -/
def State.setEntry (s : State) (i seq : Nat) (f : JEntry → JEntry) : State :=
  { s with hg := { s.hg with journal := s.hg.journal.map (fun e =>
    if e.stream = i && e.seq = seq && e.first.isNone then f e else e) } }

/-- The sensor status word joins the slices of a batch (R33). -/
def StreamSt.addStatus (x : StreamSt) (st : Nat) : List Nat → StreamSt
  | [] => x
  | k :: ks => (x.setAcc { x.acc k with status := (x.acc k).status ||| st }).addStatus st ks

/-- Steps 3 and 4 of R28 for an entry accepted at `a`: conversion, filters, slices and what they close.  The status word of a
batch without event words joins the slice of its clamped end time (R33; DESIGN CHOICE, log entry 76). -/
def State.process (s : State) (i : Nat) (e : JEntry) (a : Nat) : State :=
  let b := e.batch
  let period := s.sliceNs i
  let conv := (e.offset, e.rate, e.refTime)
  let s := s.bump (R.HG_STREAM_CNT_BATCH i)
  let s := s.put (F.HG_STREAM_STAT.IDLE i) (bit b.endOfBurst)
  let tEnd := convert conv b.endTime
  let clamped := min tEnd (a : Int)
  let rr := s.residual i (clamped.toNat / period) b.arrival tEnd
  let s := rr.1
  let x := s.stream i
  let k0 := x.kOpen.getD (a / period)
  let s := s.setStream i { x with kOpen := some k0, k0 := some (x.k0.getD k0) }
  let w := s.takeWords i conv a period k0 (timedWords b.base b.words) []
  let s := w.1
  let kEnd := max k0 (clamped.toNat / period)
  let ks := if w.2.isEmpty then [kEnd] else w.2
  let s := s.setEntry i e.seq (fun e => { e with first := some ((minNat? ks).getD kEnd), last := maxNat ks })
  let x := (s.stream i).addStatus b.status ks
  let x := x.addGood (clamped.toNat / period) rr.2
  let s := s.setStream i { x with tEnd := max x.tEnd clamped.toNat }
  s.closeUpto i clamped.toNat (clamped.toNat / period + 1 - k0)

/-! ### Acceptance -/

/-- The oldest entry of a stream that is not ACCEPTED. -/
def State.firstOpen (s : State) (i : Nat) : Option JEntry := (s.entriesOf i).find? (fun e => e.phase ≠ .accepted)

/-- An entry becomes ACCEPTED at the present time, and steps 3 and 4 act on it (R47, R48). -/
def State.accept (s : State) (i : Nat) (e : JEntry) : State :=
  let x := s.stream i
  let y := a_L_o s i e.batch
  let trk := if s.timeMode i = 1 then
      ({ x.trk with s0 := some (x.trk.s0.getD e.batch.base) }).take e.batch.endTime y else x.trk
  let s := s.setStream i { x with trk := trk, sc := some (x.sc.getD e.batch.base) }
  let c := s.conversion i e.batch.base
  let c := if s.timeMode i = 1 then (s.getS (F.HG_STREAM_TOFF.OFFSET i) + x.trk.beta, x.trk.alpha, c.2.2) else c
  let s := s.setEntry i e.seq (fun e => { e with
    phase := .accepted, acceptT := s.time, offset := c.1, rate := c.2.1, refTime := c.2.2 })
  let s := s.put (F.HG_STREAM_STAT.ACC_SEQ i) e.seq
  s.process i { e with phase := .accepted, acceptT := s.time, offset := c.1, rate := c.2.1, refTime := c.2.2 } s.time
where
  /-- Arrival time less nominal transit less offset (R54). -/
  a_L_o (s : State) (i : Nat) (b : Batch) : Int :=
    (b.arrival : Int) - 1000 * s.get (F.HG_STREAM_TIME.LAT i) - s.getS (F.HG_STREAM_TOFF.OFFSET i)

/-- The fetched injection descriptor of a ring with a command sequence. -/
def Ring.injection (x : Ring) (seq : Nat) : Option InjDesc := x.fetched.find? (fun d => fieldAt d.desc 8 4 = seq)

/-- The completion of an injected batch waits on its COMPLETE ring (R52, R383): `seq` is the batch's, `cs` the
descriptor's sequence. -/
def State.pushInjection (s : State) (i seq r cs : Nat) : State :=
  match s.ring r with
  | none => s
  | some x => match x.injection cs with
    | none => s
    | some d => s.pushRun x.complete ⟨.injection i seq, [completionEntry 0 (fieldAt d.desc 2 2) cs r d.hAfter []]⟩

/-- ACKs are handed over in sequence order for the entries that are ready: both copies complete and no mirror
confirmation awaited (R46–R49).  An injected batch is instead ready for its completion, whose transmission accepts it
(R52). -/
def State.ackReady (s : State) (i : Nat) (recovery : Bool) : Nat → State
  | 0 => s
  | fuel + 1 =>
    match s.firstOpen i with
    | none => s
    | some e =>
      if e.phase ≠ .journalled || e.needMirror || s.mute then s
      else match e.batch.injected with
        | some (r, cs) =>
          let s := s.setEntry i e.seq (fun e => { e with phase := .completing, onRecovery := recovery })
          s.pushInjection i e.seq r cs
        | none =>
          let s := s.setEntry i e.seq (fun e => { e with onRecovery := recovery })
          let s := s.accept i e
          let s := s.sendAck i e.seq s.time (!(s.stream i).held.isEmpty) e.batch.source
          s.ackReady i recovery fuel
/-- Bound of the ACK walk: the entries of the stream. -/
def State.ackAll (s : State) (i : Nat) (recovery : Bool) : State := s.ackReady i recovery (s.entriesOf i).length

/-- Both copies of an entry are complete (R44, check 9). -/
def State.journalled (s : State) (i seq : Nat) : State :=
  let s := s.setEntry i seq (fun e => if e.phase = .writing then { e with phase := .journalled } else e)
  s.ackAll i false

def execJournalWriteComplete (t stream seq : Nat) (s : State) : Res := .next ((s.at t).journalled stream seq)

def execMirrorConfirmation (t stream seq : Nat) (s : State) : Res :=
  .next (((s.at t).setEntry stream seq (fun e => if e.mirrored then e else { e with mirrored := true, needMirror := false })).ackAll
    stream false)

/-- The mirror confirmation of an entry is absent 20 µs after the request (R49). -/
def State.mirrorLate (s : State) (i seq : Nat) : State :=
  match (s.entriesOf i).find? (fun e => e.seq = seq) with
  | none => s
  | some e => if e.needMirror && !e.mirrored then (s.at (e.begun + 20000)).put F.HG_ERR.MIRROR_TMO 1 else s

def execMirrorTmo (stream seq : Nat) (s : State) : Res := .next (s.mirrorLate stream seq)

/-- The journal write of a batch begins (R46): tokens are taken, e advances, the entry is JOURNALLED once both copies
are complete, and in buddy mode it is mirrored (R428). -/
def State.beginJournal (s : State) (i : Nat) (b : Batch) : State :=
  let x := s.stream i
  let mirror := s.flag F.HG_CTL.MIRROR
  let x := { x with
    tokens := x.tokens - b.need * 2 ^ 32, e := some ((b.seq + 1) % 2 ^ 32), processed := x.processed + 1
    first := if x.e.isNone then b.seq else x.first }
  let s := (s.setStream i x).put (F.HG_STREAM_RESID.TOKENS i) (x.tokens / 2 ^ 32)
  let e : JEntry := ⟨i, b.seq, .writing, false, b.injected.isSome, false, mirror, 0, b.arrival, s.time, none, 0, 0, 0, 0,
    s.get (F.HG_STREAM_CTL.GROUP i), b⟩
  let s := ({ s with hg := { s.hg with journal := s.hg.journal ++ [e] } }).jrnShow
  if mirror then s.toBuddy 1 0x02 i e.bytes else s

/-- Checks 6 to 9 for the next batch (R44): the answer tells whether its journal write began, and else the NAK reason and
retry-after.  A batch that passes check 6 moves an OPENING stream to RUNNING (R41). -/
def State.admitNext (s : State) (i : Nat) (b : Batch) : State × Option (Nat × Nat) :=
  if s.streamState i = 1 && !b.ptpLocked then (s, some (5, 1000))
  else
    let s := if s.streamState i = 1 then s.put (F.HG_STREAM_STAT.STATE i) 2 else s
    let s := s.refill i
    let x := s.stream i
    let need := b.need * 2 ^ 32
    if x.tokens < need then
      (s, some (1, overRateRetry (need - x.tokens) (s.get (F.HG_STREAM_BKT.RATE i)) (s.get F.HG_CTL.RETRY_MIN)))
    else if s.jrnFree < entryLen b.n then
      (s.put F.HG_ERR.JRN_FULL 1, some (2, 10 * s.get F.HG_JRN_SIZE.JFULL_RETRY))
    else (s.beginJournal i b, none)

/-- The batches held behind e go through checks 6 to 10 in sequence, while they pass (R46). -/
def State.takeHeld (s : State) (i : Nat) : Nat → State
  | 0 => s
  | fuel + 1 =>
    let x := s.stream i
    match x.e with
    | none => s
    | some e =>
      match x.held.find? (fun h => h.batch.seq = e) with
      | none => s
      | some h =>
        let s := s.setStream i { x with held := x.held.filter (fun g => g.batch.seq ≠ e) }
        let r := s.admitNext i h.batch
        match r.2 with
        | some (reason, retry) => (r.1.bump (R.HG_STREAM_CNT_DISC i)).sendNak i h.batch reason retry
        | none => r.1.takeHeld i fuel

/-- HELD shows the window, and the repeat of the last ACK runs while it holds a batch (R46). -/
def State.showHeld (s : State) (i : Nat) : State :=
  let x := s.stream i
  (s.setStream i { x with gapAt := if x.held.isEmpty then none else some (x.gapAt.getD (s.time + 50000)) }).put
    (F.HG_STREAM_STAT.HELD i) x.held.length

/-- Outcome of the sequence classification (R45). -/
inductive SeqClass where
  | next | ahead | beyond | duplicate | before
  deriving DecidableEq, Repr

/-- Classification of a batch sequence (R45). -/
def StreamSt.classify (x : StreamSt) (seq : Nat) : SeqClass :=
  match x.e with
  | none => .next
  | some e =>
    let d := idxSub seq e
    if d = 0 then .next
    else if d ≤ 63 then .ahead
    else if d < 2 ^ 31 then .beyond
    else if x.processed ≥ 2 ^ 31 || decide (idxSub seq x.first < idxSub e x.first) then .duplicate
    else .before

/-- Check 2 of R44: the slot whose source address, UDP port and tag a batch matches, an open one first, and of several the
one of lowest number (DESIGN CHOICE, log entry 77). -/
def State.slotOf (s : State) (b : Batch) : Option Nat :=
  let hit := fun i => (s.stream i).opened && (s.stream i).injRing.isNone && s.srcOf i = b.src &&
    s.get (F.HG_STREAM_GEOM.TAG i) = b.tag &&
    (s.get (F.HG_STREAM_GEOM.SRC_UDP i) = 0 || s.get (F.HG_STREAM_GEOM.SRC_UDP i) = b.sport)
  match (List.range 128).find? (fun i => hit i && s.streamState i ≠ 0) with
  | some i => some i
  | none => (List.range 128).find? hit

/-- Checks 3 to 10 of R44 for a batch of stream i. -/
def State.takeBatch (s : State) (i : Nat) (b : Batch) : State :=
  let st := s.streamState i
  if st = 0 || st = 3 then s.sendNak i b 3 0xFFFFFFFF
  else if !b.payloadOk then s.sendNak i b 4 0
  else
    let x := s.stream i
    match x.classify b.seq with
    | .ahead =>
      if x.held.any (fun h => h.batch.seq = b.seq) then s
      else (s.setStream i { x with held := x.held ++ [⟨b, s.time⟩] }).showHeld i
    | .beyond => (s.put F.HG_ERR.BEYOND_WIN 1).bump (R.HG_STREAM_CNT_DISC i)
    | .before => s.bump (R.HG_STREAM_CNT_DISC i)
    | .duplicate =>
      if (s.entriesOf i).any (fun e => e.seq = b.seq && e.phase ≠ .accepted) then s
      else match x.lastAck with
        | some (cum, at') => (s.bump (R.HG_STREAM_CNT_DUP i)).sendAck i cum at' (!x.held.isEmpty) b.source
        | none => s
    | .next =>
      let r := s.admitNext i b
      match r.2 with
      | some (reason, retry) => r.1.sendNak i b reason retry
      | none => (r.1.takeHeld i 64).showHeld i

/-- A Runnel datagram arrives at the headgate (R44); on a failed port it is dropped (R386). -/
def State.runnel (s : State) (port src sport : Nat) (p : List Byte) : State :=
  if !s.flag F.HG_CTL.ENABLE || s.mute || (port < 16 && s.flag (F.NET_PORT_STAT.FAILED port)) then s
  else match parseBatch p src sport port s.time none with
    | none => s.put F.HG_ERR.BAD_HDR 1
    | some b => match s.slotOf b with
      | none => s.put F.HG_ERR.UNKNOWN_SRC 1
      | some i => (s.setStream i { s.stream i with lastPort := port }).takeBatch i b

def execRunnelBatch (t port src sport : Nat) (payload : List Byte) (s : State) : Res :=
  .next ((s.at t).runnel port src sport payload)

/-- While a batch is held the last ACK is repeated with GAP (R46). -/
def State.gapRepeat (s : State) (i : Nat) : State :=
  let x := s.stream i
  match x.gapAt, x.lastAck with
  | some g, some (cum, at') =>
    let s := s.at g
    (s.setStream i { x with gapAt := some (g + 50000) }).sendAck i cum at' true x.peer
  | some g, none => (s.at g).setStream i { x with gapAt := some (g + 50000) }
  | none, _ => s

def execGapAckRepeat (stream : Nat) (s : State) : Res := .next (s.gapRepeat stream)

/-- A held batch is dropped after 1 ms in the window (R46). -/
def State.dropHeld (s : State) (i seq : Nat) : State :=
  let x := s.stream i
  match x.held.find? (fun h => h.batch.seq = seq) with
  | none => s
  | some h =>
    let s := s.at (h.since + 1000000)
    ((s.setStream i { x with held := x.held.filter (fun g => g.batch.seq ≠ seq) }).bump (R.HG_STREAM_CNT_DISC i)).showHeld i

def execHeldBatchDrop (stream seq : Nat) (s : State) : Res := .next (s.dropHeld stream seq)

/-- The open slice closes by its guard (R63). -/
def State.guardExpiry (s : State) (i : Nat) : State :=
  match (s.stream i).kOpen with
  | none => s
  | some k => (s.at ((k + 1) * s.sliceNs i + 1000 * s.get (F.HG_STREAM_TIME.GUARD i))).closeSlice i k true false

def execSliceGuardExpiry (stream : Nat) (s : State) : Res := .next (s.guardExpiry stream)

/-! ### Commit groups -/

/-- True when any stream slot is not CLOSED. -/
def State.anyOpen (s : State) : Bool := (List.range 128).any (fun i => s.streamState i ≠ 0)

/-- First failing check of the headgate global group (R67, R69). -/
def State.hgGlbCode (s : State) : Nat := firstCode [
  (0x01, s.st F.HG_CTL.RETRY_MIN = 0 || s.st F.HG_JRN_SIZE.SIZE_MIB < 256 || s.st F.HG_JRN_SIZE.SIZE_MIB > 6144),
  (0x07, (s.anyOpen && (s.regChanged R.HG_JRN_BASE || s.changed F.HG_JRN_SIZE.SIZE_MIB)) ||
    (s.st F.HG_CTL.ENABLE = 1 && !s.inGuarded (4096 * s.st F.HG_JRN_BASE.BASE) (0x100000 * s.st F.HG_JRN_SIZE.SIZE_MIB)))]

/-- A write to HG_GLB_COMMIT (R67). -/
def State.hgGlbCommit (s : State) (req val : Nat) : State := (s.commitNow req R.HG_GLB_COMMIT val s.hgGlbCode).jrnShow

def execHgGlbCommit (t req val : Nat) (s : State) : Res :=
  .next ((s.at t).asReq req R.HG_GLB_COMMIT 4 val (fun s => s.hgGlbCommit req val))

/-- Open streams other than i: every slot that is not CLOSED, a DRAINING one too, which R41 closes only after its last
descriptor (R40; DESIGN CHOICE, log entry 78). -/
def State.otherOpen (s : State) (i : Nat) : List Nat := (List.range 128).filter (fun j => j ≠ i && s.streamState j ≠ 0)

/-- A staged range of the stream group is broken (R39, R69). -/
def State.hgStreamRange (s : State) (i : Nat) : Bool :=
  let g := s.st (F.HG_STREAM_CTL.GROUP i)
  let ppb := toSigned 32 (s.st (F.HG_STREAM_TIME.RATE_PPB i))
  s.st (F.HG_STREAM_CTL.TIME_MODE i) = 3 ||
  s.st (F.HG_STREAM_GEOM.WIDTH i) = 0 || s.st (F.HG_STREAM_GEOM.WIDTH i) > 2048 ||
  s.st (F.HG_STREAM_GEOM.HEIGHT i) = 0 || s.st (F.HG_STREAM_GEOM.HEIGHT i) > 2048 ||
  s.st (F.HG_STREAM_BKT.RATE i) < 1000 || s.st (F.HG_STREAM_BKT.RATE i) > 2000000000 ||
  s.st (F.HG_STREAM_BKT.BURST i) < 2240 || s.st (F.HG_STREAM_BKT.BURST i) > 20000000 ||
  (s.st (F.HG_STREAM_DN.BAF_EN i) = 1 && (s.st (F.HG_STREAM_DN.TAU i) < 100 || s.st (F.HG_STREAM_DN.TAU i) > 100000 ||
    s.st (F.HG_STREAM_DN.K i) < 1 || s.st (F.HG_STREAM_DN.K i) > 8)) ||
  (s.st (F.HG_STREAM_CTL.TIME_MODE i) = 2 && decide (ppb.natAbs > 1000000)) ||
  decide (4 * s.st (F.HG_STREAM_TIME.GUARD i) > s.get (F.CP_GRP_CTL.SLICE_US g))

/-- First failing check of a stream group (R40, R68, R69). -/
def State.hgStreamCode (s : State) (i : Nat) : Nat :=
  let st := s.streamState i
  let opens := s.st (F.HG_STREAM_CTL.OPEN i) = 1
  let others := s.otherOpen i
  let g := s.st (F.HG_STREAM_CTL.GROUP i)
  let running := st = 1 || st = 2
  let drain := running && !opens
  let onlyOpen := s.shadowReg (R.HG_STREAM_CTL i) = setBits (s.reg (R.HG_STREAM_CTL i)) 0 0 0
  let fixedRegs := s.regChanged (R.HG_STREAM_SRC_LO i) || s.regChanged (R.HG_STREAM_SRC_HI i) || s.regChanged (R.HG_STREAM_GEOM i)
  let src := s.st (F.HG_STREAM_SRC_LO.ADDR_LO i) + 2 ^ 64 * s.st (F.HG_STREAM_SRC_HI.ADDR_HI i)
  let anchors := fun (l : List Nat) => (l.filter (fun j => s.flag (F.HG_STREAM_CTL.ANCHOR j))).length
  let own := s.st (F.HG_STREAM_CTL.ANCHOR i)
  firstCode [
    (0x06, st = 3),
    (0x01, s.hgStreamRange i),
    (0x02, opens && (s.stream i).injRing.isNone && others.any (fun j => (s.stream j).injRing.isNone && s.srcOf j = src &&
      s.get (F.HG_STREAM_GEOM.TAG j) = s.st (F.HG_STREAM_GEOM.TAG i) &&
      s.get (F.HG_STREAM_GEOM.SRC_UDP j) = s.st (F.HG_STREAM_GEOM.SRC_UDP i))),
    (0x03, opens && sumNat (others.map (fun j => s.get (F.HG_STREAM_BKT.RATE j))) + s.st (F.HG_STREAM_BKT.RATE i) > 16000000000),
    (0x04, opens && sumNat (others.map (fun j => s.get (F.HG_STREAM_BKT.BURST j))) + s.st (F.HG_STREAM_BKT.BURST i) > 80000000),
    (0x05, opens && own = 1 && (anchors (others.filter (fun j => s.get (F.HG_STREAM_CTL.GROUP j) = g)) + 1 > 4 ||
      anchors others + 1 > 32)),
    (0x06, (drain && (!onlyOpen || fixedRegs)) || (running && opens && (s.regChanged (R.HG_STREAM_CTL i) || fixedRegs)))]

/-- A stream opens (R41–R43, R55, R61, R89, R147): its first slice refreshes every layer.  What its older journal entries still
wait for stays (R51, R425).  Its STREAM reset is kept in a list of its own and does not show in FRF_SYNC.PENDING (R89; DESIGN
CHOICE, log entry 79). -/
def State.openStream (s : State) (i : Nat) : State :=
  let tracked := s.timeMode i = 1
  let x := s.stream i
  let s := s.endLife i
  let s := { s with sd := { s.sd with origin := tabErase s.sd.origin i } }
  let s := s.setStream i { StreamSt.empty with
    tokens := s.get (F.HG_STREAM_BKT.BURST i) * 2 ^ 32, filledAt := s.time, opened := true, injRing := x.injRing
    lastPort := x.lastPort, refl := x.refl, reflected := x.reflected, viewOwed := x.viewOwed }
  let s := s.put (F.HG_STREAM_STAT.STATE i) (if s.timeMode i = 0 then 1 else 2)
  let s := s.put (F.HG_STREAM_STAT.UNSYNCED i) (bit tracked)
  let s := s.put (F.HG_STREAM_STAT.RECOVER_CNT i) 0
  let s := (s.put (F.HG_STREAM_STAT.HELD i) 0).put (F.HG_STREAM_STAT.IDLE i) 0
  let s := s.put (F.HG_STREAM_RESID.TOKENS i) (s.get (F.HG_STREAM_BKT.BURST i))
  let s := s.clearMasks i
  { s with frf := { s.frf with openResets := if s.frf.openResets.contains i then s.frf.openResets else s.frf.openResets ++ [i] } }

/-- A stream drains (R41, R46): the window is dropped; a stream without an open slice is CLOSED at once. -/
def State.drainStream (s : State) (i : Nat) : State :=
  let x := s.stream i
  let s := s.bumpBy (R.HG_STREAM_CNT_DISC i) x.held.length
  let s := (s.setStream i { x with held := [], gapAt := none, kDrain := x.kOpen }).put (F.HG_STREAM_STAT.HELD i) 0
  let idle := x.kOpen.isNone && !(s.entriesOf i).any (fun e => e.phase ≠ .accepted)
  s.put (F.HG_STREAM_STAT.STATE i) (if idle then 0 else 3)

/-- The registers that an OPENING or RUNNING stream may change (R68). -/
def streamLater (i : Nat) : List Nat :=
  [R.HG_STREAM_BKT i, R.HG_STREAM_DN i, R.HG_STREAM_HPM i, R.HG_STREAM_TOFF i, R.HG_STREAM_TIME i]

/-- A write to HG_STREAM_COMMIT opens, drains or modifies a stream (R40, R41, R68): a drain begins at once, while changes of
an open stream wait for the first slice boundary. -/
def State.hgStreamCommit (s : State) (req i val : Nat) : State :=
  let c := R.HG_STREAM_COMMIT i
  let code := s.hgStreamCode i
  let ok := s.commitPasses req c val code
  let st := s.streamState i
  let opens := s.st (F.HG_STREAM_CTL.OPEN i) = 1
  if st = 0 then
    let s := s.commitNow req c val code
    if ok && opens then s.openStream i else s
  else if opens then s.commitLater req c val code
  else
    let all := s.staging c
    let now := all.filter (fun p => !(streamLater i).contains p.1)
    let later := if (streamLater i).any s.regChanged then all.filter (fun p => (streamLater i).contains p.1) else []
    let s := s.commitSplit req c val code now later
    if ok then s.drainStream i else s

def execHgStreamCommit (t req stream val : Nat) (s : State) : Res :=
  .next ((s.at t).asReq req (R.HG_STREAM_COMMIT stream) 4 val (fun s => s.hgStreamCommit req stream val)).mirrorConfig

/-- The pending values of a stream took effect at a slice boundary: the bucket, refilled at the old rate up to it, is limited
to the new burst, and a changed rate takes a new reference time (R53, R68). -/
def State.streamApplied (s : State) (i : Nat) (before : State) : State :=
  let x := s.stream i
  let tok := min ((before.at s.time).tokensNow i) (s.get (F.HG_STREAM_BKT.BURST i) * 2 ^ 32)
  let x := { x with
    sc := if s.get (F.HG_STREAM_TIME.RATE_PPB i) ≠ before.get (F.HG_STREAM_TIME.RATE_PPB i) then none else x.sc }
  (s.setStream i x).setTokens i tok

end Sys2Proof.Machine
end

