-- ==== Sys2Proof/Machine/Special.lean ====
section
/-!
DEFINITION. The elementary functions that the vector units compute (R134, R210, R211): exponential, sigmoid, tanh, error
function, sine, cosine and the angle of a vector, in fixed point with 160 fractional bits, far below a unit in the last place
of FP32.  The hardware's result lies within 2 such units (R134): which one it is stays open.
-/

namespace Sys2Proof

/-- Fractional bits of the fixed-point numbers. -/
def fxBits : Nat := 160
/-- One, ln 2, π and 2/√π in fixed point; π with 320 fractional bits. -/
def fxOne : Int := 2 ^ fxBits
def fxLn2 : Int := 1013035739299659071135698605846798551586536899366
def fxPi320 : Int := 6710401180212168915155840974220003240804194089427148950727106424351713218671805380099500388914039
def fxPi : Int := fxPi320 / 2 ^ 160
def fxErf : Int := 1649128000240172121335468122222580532118151184855

/-- Floor of a value times 2^k; 0 for a value that is not finite. -/
def fvFix (k : Nat) (v : FV) : Int :=
  match v with
  | .fin n m e => toIntFloor (.fin n m (e + k))
  | _ => 0

/-- Value of a fixed-point number. -/
def fxVal (x : Int) : FV := fvOf x (-(fxBits : Int))

/-- A value below 2^-20 in magnitude. -/
def fvTiny : FV → Bool
  | .fin _ m e => m = 0 || decide ((Nat.log2 m : Int) + e < -20)
  | _ => false

/-- v + v³·n/d, for tiny v. -/
def fvCubic (v : FV) (n : Int) (d : Nat) : FV := fvAdd v (fvDiv (fvMul (fvMul (fvMul v v) v) (fvOf n 0)) (.fin false d 0))

/-- Sum of the terms of the exponential series of r. -/
def expGo (r : Int) : Nat → Nat → Int → Int → Int
  | 0, _, _, acc => acc
  | n + 1, i, t, acc => expGo r n (i + 1) ((t * r).fdiv (fxOne * i)) (acc + t)

/-- e^v. -/
def fvExp (v : FV) : FV :=
  match v with
  | .nan => .nan
  | .inf neg => if neg then .fin false 0 0 else .inf false
  | v =>
    let x := fvFix fxBits v
    if x ≥ 200 * fxOne then .inf false
    else if x ≤ -200 * fxOne then .fin false 0 0
    else
      let k := x.fdiv fxLn2
      .fin false (expGo (x - k * fxLn2) 45 1 fxOne 0).toNat (k - fxBits)

def fvOne : FV := .fin false 1 0

/-- 1 / (1 + e^-v). -/
def fvSigmoid (v : FV) : FV :=
  match fvExp (fvNeg v) with
  | .inf _ => .fin false 0 0
  | e => fvDiv fvOne (fvAdd fvOne e)

/-- The hyperbolic tangent. -/
def fvTanh (v : FV) : FV :=
  if fvTiny v then fvCubic v (-1) 3
  else match fvExp (fvAdd v v) with
    | .nan => .nan
    | .inf _ => fvOne
    | e => fvDiv (fvAdd e (fvNeg fvOne)) (fvAdd e fvOne)

/-- Sum of the series of the error function: t is the term's numerator, q the negated square. -/
def erfGo (q : Int) : Nat → Nat → Int → Int → Int
  | 0, _, _, acc => acc
  | n + 1, i, t, acc => erfGo q n (i + 1) ((t * q).fdiv (fxOne * (i + 1))) (acc + t.fdiv (2 * i + 1))

/-- The error function. -/
def fvErf (v : FV) : FV :=
  match v with
  | .nan => .nan
  | .inf neg => fvOf (if neg then -1 else 1) 0
  | v =>
    let x := fvFix fxBits v
    if x ≥ 6 * fxOne then fvOne
    else if x ≤ -6 * fxOne then fvOf (-1) 0
    else fxVal ((erfGo (-(x * x).fdiv fxOne) 200 0 x 0 * fxErf).fdiv fxOne)

/-- Sum of the series of sine (from i = 1) or cosine (from i = 0): t is the present term, q the negated square. -/
def trigGo (q : Int) : Nat → Nat → Int → Int → Int
  | 0, _, _, acc => acc
  | n + 1, i, t, acc => trigGo q n (i + 2) ((t * q).fdiv (fxOne * ((i + 1) * (i + 2)))) (acc + t)

/-- An angle taken into [0, 2π), in fixed point. -/
def fxTurn (v : FV) : Int := (fvFix 320 v).emod (2 * fxPi320) / 2 ^ 160

/-- Sine and cosine. -/
def fvSin (v : FV) : FV :=
  match v with
  | .fin n m e =>
    if fvTiny (.fin n m e) then fvCubic (.fin n m e) (-1) 6
    else
      let r := fxTurn (.fin n m e)
      fxVal (trigGo (-(r * r).fdiv fxOne) 40 1 r 0)
  | _ => .nan
def fvCos (v : FV) : FV :=
  match v with
  | .fin n m e =>
    let r := fxTurn (.fin n m e)
    fxVal (trigGo (-(r * r).fdiv fxOne) 40 0 fxOne 0)
  | _ => .nan

/-- Tangent of half the angle whose tangent is t. -/
def fxHalf (t : Int) : Int := (t * fxOne).fdiv (fxOne + (isqrt (fxOne * fxOne + t * t).toNat : Int))

/-- Sum of the series of the arc tangent. -/
def atanGo (q : Int) : Nat → Nat → Int → Int → Int
  | 0, _, _, acc => acc
  | n + 1, i, t, acc => atanGo q n (i + 2) ((t * q).fdiv fxOne) (acc + t.fdiv i)

/-- Arc tangent of t in [0, 1], by two halvings. -/
def fxAtan (t : Int) : Int :=
  let h := fxHalf (fxHalf t)
  4 * atanGo (-(h * h).fdiv fxOne) 40 1 h 0

/-- A value whose infinities are ±1, beside another that is then 0 unless it is infinite too. -/
def fvDir (v other : FV) : FV :=
  match v, other with
  | .inf n, _ => fvOf (if n then -1 else 1) 0
  | .fin n _ _, .inf _ => .fin n 0 0
  | v, _ => v

/-- Angle of the vector (x, y) in [0, 2π); 0 of the zero vector. -/
def fvAngle (y x : FV) : FV :=
  match fvDir y x, fvDir x y with
  | .fin ny my ey, .fin nx mx ex =>
    let e0 := min ey ex
    let a := fvInt false my ey e0
    let b := fvInt false mx ex e0
    let t := if a ≤ b then fvDiv (fvOf a 0) (fvOf b 0) else fvDiv (fvOf b 0) (fvOf a 0)
    if a = 0 && b = 0 then .fin false 0 0
    else if !nx && !ny && decide (a ≤ b) && fvTiny t then fvCubic t (-1) 3
    else
      let w := fxAtan (fvFix fxBits t)
      let w := if a ≤ b then w else fxPi / 2 - w
      let w := if nx then fxPi - w else w
      fxVal (if ny && a ≠ 0 then 2 * fxPi - w else w)
  | _, _ => .nan

/-! ### Within two units in the last place -/

/-- A finite FP32 number other than 0, moved by d steps of its last place within the finite numbers of its sign. -/
def ulpMove (x : Nat) (d : Int) : Nat :=
  let m : Nat := x % 2 ^ 31
  if m = 0 || !ffinite x then x else x / 2 ^ 31 * 2 ^ 31 + (max (0 : Int) (min ((m : Int) + d) 0x7F7FFFFF)).toNat

/-- Number of a function, for its free choice. -/
def VFn.num : VFn → Nat
  | .exp => 0
  | .recip => 1
  | .rsqrt => 2
  | .sigmoid => 3
  | .tanh => 4
  | .erf => 5
  | .sin => 6
  | .cos => 7
  | .angle => 8

/-- The FP32 number nearest to a value, or one at most two units in its last place away (R134); which is open. -/
def within2 (f : VFn) (arg : Nat) (v : FV) : Nat := ulpMove (f32 v) ((Config.ulp f.num arg % 5 : Nat) - (2 : Int))

/-- A function of the vector unit on FP32 bits (R134). -/
def VFn.app (f : VFn) (x : Nat) : Nat :=
  let v := v32 x
  within2 f x (match f with
    | .exp => fvExp v
    | .recip => fvDiv fvOne v
    | .rsqrt => fvDiv fvOne (fvSqrt v)
    | .sigmoid => fvSigmoid v
    | .tanh => fvTanh v
    | .erf => fvErf v
    | .sin => fvSin v
    | .cos => fvCos v
    | .angle => v)

/-- Angle of the vector (c, s) in FP32, in [0, 2π) (R210). -/
def angle32 (s c : Nat) : Nat :=
  let r := within2 .angle (s * 2 ^ 32 + c) (fvAngle (v32 s) (v32 c))
  if fle 0x40C90FDB r then 0 else r

end Sys2Proof
end

