-- ==== Sys2Proof/Machine/Tensor.lean ====
section
/-!
DEFINITION. The arithmetic of the stand tiles as pure functions of a layer and its input (R130–R133, R143–R151,
R157–R175, R182–R186).  Feature maps are lists of codes, position by position in row-major order, channels within a
position; an MX map has one scale per 32 channels of each position (DESIGN CHOICE, log entry 82).
-/

namespace Sys2Proof

/-! ### Formats -/

/-- Formats that accumulate integers (R130). -/
def intFormat (f : Nat) : Bool := f = 0 || f = 1

/-- Signed 4- or 8-bit reading of a code. -/
def intCode (f x : Nat) : Int := if f = 1 then toSigned 4 x else toSigned 8 x

/-- Value of an MXFP4 element: E2M1. -/
def mxfp4 (x : Nat) : FV :=
  let neg := x / 8 % 2 = 1
  let e := x / 2 % 4
  let m := x % 2
  if e = 0 then .fin neg m (-1) else .fin neg (2 + m) ((e : Int) - 2)

/-- Value of a code without its block scale (R130, R132). -/
def codeVal (f x : Nat) : FV :=
  match f with
  | 0 => fvOf (toSigned 8 x) 0
  | 1 => fvOf (toSigned 4 x) 0
  | 2 => fmtE4M3.decode x
  | 3 => fmtE5M2.decode x
  | 4 => fvOf (toSigned 8 x) (-6)
  | 5 => mxfp4 x
  | 6 => fmtBF16.decode x
  | _ => fmt32.decode x

/-- Exponent of an E8M0 scale; none for its not-a-number. -/
def e8m0 (x : Nat) : Option Int := if x % 256 = 255 then none else some ((x % 256 : Nat) - 127)

/-- A value times a power of two. -/
def fvScale (v : FV) (k : Int) : FV :=
  match v with
  | .fin n m e => .fin n m (e + k)
  | v => v

/-- Formats whose elements share a scale per 32 (R130). -/
def mxFormat (f : Nat) : Bool := f = 4 || f = 5

/-- Elements of a chunk of a reduction vector, and outputs of a group (R157). -/
def chunkLen (f : Nat) : Nat := if f = 1 || f = 5 then 128 else if f = 6 then 32 else 64
def groupLen (f : Nat) : Nat := if f = 6 then 32 else 64

/-! ### Sums of products -/

/-- A product under TRUNC(k, G) (R150). -/
def truncProduct (k g : Nat) (a w : Int) : Int :=
  let p := a * w
  if a.natAbs < g then (if p < 0 then -((p.natAbs - p.natAbs % 2 ^ k : Nat) : Int) else ((p.natAbs - p.natAbs % 2 ^ k : Nat) : Int))
  else p

/-- One term of a reduction vector: input and weight codes with their scales, as R157 orders them. -/
structure Term where
  x : Nat
  w : Nat
  xs : Nat                      -- E8M0 scale codes
  ws : Nat
  deriving DecidableEq, Repr

/-- Value of a code with its block scale (R130, R132). -/
def scaledVal (f x sc : Nat) : FV :=
  if mxFormat f then (match e8m0 sc with
    | some k => fvScale (codeVal f x) k
    | none => .nan)
  else codeVal f x

/-- Exact sum of products, each under the scales of its blocks (R132). -/
def columnSum (f : Nat) : List Term → FV
  | [] => .fin false 0 0
  | t :: r => fvAdd (fvMul (scaledVal f t.x t.xs) (scaledVal f t.w t.ws)) (columnSum f r)

/-- FP32 accumulation of the products of a vector, chunk by chunk, each column sum added with one rounding (R132). -/
def floatSum (f : Nat) : Nat → Nat → List Term → Nat
  | 0, acc, _ => acc
  | n + 1, acc, l =>
    if l.isEmpty then acc
    else floatSum f n (f32 (fvAdd (v32 acc) (columnSum f (l.take (chunkLen f))))) (l.drop (chunkLen f))

/-- Consecutive pieces of a list. -/
def pieces {α : Type} (k : Nat) : Nat → List α → List (List α)
  | 0, _ => []
  | n + 1, l => if l.isEmpty then [] else l.take k :: pieces k n (l.drop k)

/-- Different members of a list, in the order of their first places. -/
def dedup (l : List Nat) : List Nat := l.foldl (fun acc x => if acc.contains x then acc else acc ++ [x]) []

/-- Zero of a layer's accumulation format. -/
def Acc.zero (f : Nat) : Acc := if intFormat f then .int 0 else .fp 0

/-- A saturation to INT32 as a sum leaves the array (R131), with whether it saturated. -/
def Acc.leave (v : Int) : Acc × Bool := (.int (satSigned 32 v), satSigned 32 v ≠ v)

/-! ### Geometry -/

/-- Output size along an axis of a convolution (R164). -/
def convOut (size k s d p0 p1 : Nat) : Nat := (size + p0 + p1 - (d * (k - 1) + 1)) / s + 1

/-- Output height and width of a layer. -/
def Layer.outDims (l : Layer) : Nat × Nat :=
  match l.kind with
  | 0 => (convOut l.h l.kh l.strH l.dilH l.padT l.padB, convOut l.w l.kw l.strW l.dilW l.padL l.padR)
  | 3 => (convOut l.h l.kh l.strH l.dilH l.padT l.padB, convOut l.w l.kw l.strW l.dilW l.padL l.padR)
  | 5 => (l.strH * (l.h - 1) + l.outPadH + l.kh - l.padT - l.padB, l.strW * (l.w - 1) + l.outPadW + l.kw - l.padL - l.padR)
  | _ => (l.h, l.w)

/-- Where a tap reads along an axis: inside at a coordinate, or in padding; REPLICATE clamps (R164). -/
def tapCoord (size y s d p i mode : Nat) : Option Nat :=
  let c : Int := (y * s + i * d : Nat) - (p : Int)
  if 0 ≤ c && c < size then some c.toNat
  else if mode = 2 then some (if c < 0 then 0 else size - 1)
  else none

/-- A tap is wholly padded along an axis: at every output position (R166). -/
def whollyPadded (size out s d p i : Nat) : Bool :=
  (List.range out).all (fun y => (tapCoord size y s d p i 0).isNone)

/-- Taps of a layer's kernel that survive R166, as (row, column). -/
def Layer.liveTaps (l : Layer) : List (Nat × Nat) :=
  let o := l.outDims
  let all := (List.range l.kh).flatMap (fun i => (List.range l.kw).map (fun j => (i, j)))
  let removable := l.padMode = 0 || (l.padMode = 1 && (l.fmt = 0 || l.fmt = 1 || l.fmt = 4 || l.padConst = 0))
  if l.kind ≠ 0 || !removable then all
  else all.filter (fun t => !(whollyPadded l.h o.1 l.strH l.dilH l.padT t.1 || whollyPadded l.w o.2 l.strW l.dilW l.padL t.2))

/-- An activation map as a layer reads it: codes, and scales of the blocks of 32 channels of each position. -/
structure Act where
  codes : List Nat
  scales : List Nat
  deriving DecidableEq, Repr

/-- Code and scale of channel `ch` of `c` at position `p`. -/
def Act.at' (a : Act) (c p ch : Nat) : Nat × Nat := (a.codes.getD (p * c + ch) 0, a.scales.getD (p * ceilDiv c 32 + ch / 32) 127)

/-- Position that a tap reads at an output position; none in padding (R164). -/
def Layer.tapPos (l : Layer) (oy ox i j : Nat) : Option (Nat × Nat) :=
  match tapCoord l.h oy l.strH l.dilH l.padT i l.padMode, tapCoord l.w ox l.strW l.dilW l.padL j l.padMode with
  | some y, some z => some (y, z)
  | _, _ => none

/-- Pieces of at most seven taps along an axis (R160): first tap and length. -/
def axisPieces (k : Nat) : List (Nat × Nat) := (List.range (ceilDiv k 7)).map (fun p => (7 * p, min 7 (k - 7 * p)))

/-- Sub-kernels of a kernel, in row-major order of their places, each with its taps in row-major order (R157, R160). -/
def subKernels (kh kw : Nat) : List (List (Nat × Nat)) :=
  (axisPieces kh).flatMap (fun a => (axisPieces kw).map (fun b =>
    (List.range a.2).flatMap (fun i => (List.range b.2).map (fun j => (a.1 + i, b.1 + j)))))

/-- The sub-kernels that a layer's reduction vectors pack: of a depthwise layer the whole kernel in row-major order (R163),
of a matrix product one tap, of a convolution what R166 leaves of each sub-kernel. -/
def Layer.kernels (l : Layer) : List (List (Nat × Nat)) :=
  if l.kind = 3 then [(List.range l.kh).flatMap (fun i => (List.range l.kw).map (fun j => (i, j)))]
  else if l.kind = 0 then
    let live := l.liveTaps
    ((subKernels l.kh l.kw).map (fun k => k.filter live.contains)).filter (fun k => !k.isEmpty)
  else [[(0, 0)]]

/-- Input channels that an output channel reads: those of its group (R162). -/
def Layer.groupInputs (l : Layer) (o : Nat) : Nat × Nat :=
  let g := max l.groups 1
  let per := l.cin / g
  ((o / max (l.cout / g) 1) * per, per)

/-- A term with the input element that it reads: row, column, channel; none for padding. -/
abbrev KeyedTerm := Term × Option (Nat × Nat × Nat)

/-- Scale of weight `i` of the reduction vector of output `o`, of a sub-kernel whose blocks begin at `off`: blocks of 32
from the start of each sub-kernel, so from the start of its chunks (R157). -/
def Layer.weightScale (l : Layer) (per o off i : Nat) : Nat := l.scales.getD (o * per + off + i / 32) 127

/-- First scale block of each of a list of vectors of given lengths, and the number of blocks. -/
def blockStarts : List Nat → Nat → List Nat
  | [], n => [n]
  | x :: r, n => n :: blockStarts r (n + ceilDiv x 32)

/-- A vector of weights `w` and inputs `x`, each with its scale, for the listed places. -/
def termsOf {α : Type} (places : List α) (w : α → Nat → Nat × Nat) (x : α → (Nat × Nat) × Option (Nat × Nat × Nat)) : List KeyedTerm :=
  ((List.range places.length).zip places).map (fun p =>
    let a := w p.2 p.1
    let b := x p.2
    (⟨b.1.1, a.1, b.1.2, a.2⟩, b.2))

/-- Reduction vectors of output position (oy, ox) and output channel `o` of a convolution or a product with stored weights,
one per sub-kernel (R157, R160–R162, R164). -/
def Layer.vectors (l : Layer) (x : Act) (oy ox o : Nat) : List (List KeyedTerm) :=
  let g := l.groupInputs o
  let ks := l.kernels
  let starts := blockStarts (ks.map (fun k => k.length * g.2)) 0
  let per := starts.getLastD 0
  let kw := max l.kw 1
  let kh := max l.kh 1
  (ks.zip starts).map (fun ks => termsOf (ks.1.flatMap (fun t => (List.range g.2).map (fun c => (t, c))))
    (fun p i => (l.weights.getD ((o * (kh * kw) + p.1.1 * kw + p.1.2) * g.2 + p.2) 0, l.weightScale per o ks.2 i))
    (fun p =>
      let ch := g.1 + p.2
      let pos := if l.kind = 1 then some (oy, ox) else l.tapPos oy ox p.1.1 p.1.2
      match pos with
      | some q => (x.at' l.cin (q.1 * l.w + q.2) ch, some (q.1, q.2, ch))
      | none => ((if l.padMode = 1 then l.padConst else 0, 127), none)))

/-- Taps of a phase of a transposed convolution along an axis: tap number, and the input coordinate that it reads for an
output coordinate, none outside the map (R174). -/
def phaseTaps (out s k p size : Nat) : List (Nat × Option Nat) :=
  let r := (out + p) % s
  let q := (out + p) / s
  (List.range (ceilDiv (k - r) s)).map (fun m => (r + s * m, if m ≤ q && q - m < size then some (q - m) else none))

/-- Scale blocks of phase `f` of a transposed convolution, per output channel (R157, R174). -/
def Layer.phaseBlocks (l : Layer) (per f : Nat) : Nat :=
  let n := fun (r s k : Nat) => ceilDiv (k - r) (max s 1)
  sumNat ((subKernels (n (f / max l.strW 1) l.strH l.kh) (n (f % max l.strW 1) l.strW l.kw)).map (fun k => ceilDiv (k.length * per) 32))

/-- Reduction vectors of an output of a transposed convolution: the taps of its phase, split by R160 (R174). -/
def Layer.vectorsT (l : Layer) (x : Act) (oy ox o : Nat) : List (List KeyedTerm) :=
  let g := l.groupInputs o
  let a := phaseTaps oy l.strH l.kh l.padT l.h
  let b := phaseTaps ox l.strW l.kw l.padL l.w
  let ks := subKernels a.length b.length
  let f := (oy + l.padT) % l.strH * l.strW + (ox + l.padL) % l.strW
  let before := sumNat ((List.range f).map (l.phaseBlocks g.2))
  let per := sumNat ((List.range (l.strH * l.strW)).map (l.phaseBlocks g.2))
  let starts := blockStarts (ks.map (fun k => k.length * g.2)) before
  (ks.zip starts).map (fun ks => termsOf (ks.1.flatMap (fun t => (List.range g.2).map (fun c => (a.getD t.1 (0, none), b.getD t.2 (0, none), c))))
    (fun p i => (l.weights.getD ((o * (l.kh * l.kw) + p.1.1 * l.kw + p.2.1.1) * g.2 + p.2.2) 0, l.weightScale per o ks.2 i))
    (fun p =>
      let ch := g.1 + p.2.2
      match p.1.2, p.2.1.2 with
      | some y, some z => (x.at' l.cin (y * l.w + z) ch, some (y, z, ch))
      | _, _ => ((0, 127), none)))

/-- Reduction vector of an activation product: the second activation stands in the place of the weights (R161). -/
def Layer.vectors2 (l : Layer) (x x2 : Act) (oy ox o : Nat) : List (List KeyedTerm) :=
  [termsOf (List.range l.cin)
    (fun c _ => if l.trans2 then x2.at' l.cout c o else x2.at' l.cin o c)
    (fun c => (x.at' l.cin (oy * l.w + ox) c, some (oy, ox, c)))]

/-- Reduction vectors of an output of a layer of any product kind. -/
def Layer.allVectors (l : Layer) (x x2 : Act) (oy ox o : Nat) : List (List KeyedTerm) :=
  if l.kind = 5 then l.vectorsT x oy ox o else if l.kind = 2 then l.vectors2 x x2 oy ox o else l.vectors x oy ox o

/-! ### Blocks and changes -/

/-- Block of an element of a map of width `w` (R144): 8 × 8 positions, or 64 rows of a map without spatial axes, by 64
channels. -/
def blockOf (spatial : Bool) (y x w ch : Nat) : Nat :=
  if spatial then (y / 8 * (ceilDiv w 8) + x / 8) * 65536 + ch / 64 else (y * w + x) / 64 * 65536 + ch / 64

/-- Difference of two elements as a delta step forms it: exact for integers, rounded to FP32 otherwise (R144, R145). -/
def deltaOf (f : Nat) (a b : Nat × Nat) : FV :=
  if intFormat f then fvOf (intCode f a.1 - intCode f b.1) 0
  else v32 (f32 (fvAdd (scaledVal f a.1 a.2) (fvNeg (scaledVal f b.1 b.2))))

/-- Distance of an element from its reference against δ (R144). -/
def elementChanged (f delta : Nat) (a b : Nat × Nat) : Bool := fle delta (fabs (f32 (deltaOf f a b)))

/-- Block of a layer's input that element (y, x, ch) lies in. -/
def Layer.inBlock (l : Layer) (k : Nat × Nat × Nat) : Nat := blockOf l.spatial k.1 k.2.1 l.w k.2.2

/-- Blocks of a layer's input with at least one element changed from the reference (R144): with δ = 0 every block. -/
def Layer.changedBlocks (l : Layer) (x ref : Act) : List Nat :=
  dedup ((List.range (l.h * l.w)).flatMap (fun p => (List.range l.cin).filterMap (fun c =>
    if elementChanged l.fmt l.delta (x.at' l.cin p c) (ref.at' l.cin p c) then some (l.inBlock (p / l.w, p % l.w, c)) else none)))

/-- The reference after a step: the changed blocks follow the input, the others keep theirs (R145). -/
def Layer.newRef (l : Layer) (changed : List Nat) (x ref : Act) : Act :=
  let follows := fun (p c : Nat) => changed.contains (l.inBlock (p / l.w, p % l.w, c))
  let n := ceilDiv l.cin 32
  { codes := (List.range (l.h * l.w * l.cin)).map (fun k =>
      if follows (k / l.cin) (k % l.cin) then x.codes.getD k 0 else ref.codes.getD k 0)
    scales := (List.range x.scales.length).map (fun k =>
      if follows (k / n) (32 * (k % n)) then x.scales.getD k 127 else ref.scales.getD k 127) }

/-! ### Outputs of one layer -/

/-- One integer product of a layer, with whether it was truncated (R150). -/
def Layer.product (l : Layer) (a w : Int) : Int × Bool :=
  if l.cls = 1 && l.fmt = 0 then (truncProduct l.truncK l.truncG a w, decide (a.natAbs < l.truncG)) else (a * w, false)

/-- What the accumulation of an output gives. -/
structure Summed where
  acc : Acc
  saturated : Bool
  truncated : Nat
  deriving DecidableEq, Repr

/-- K_o of an output channel (R166): the pad constant times the weights of the removed taps, exact in an integer format. -/
def Layer.padSum (l : Layer) (o : Nat) : Acc :=
  if !intFormat l.fmt then .fp (l.padK.getD o 0)
  else if l.kind ≠ 0 || l.padMode ≠ 1 then .int 0
  else
    let g := l.groupInputs o
    let live := l.liveTaps
    let gone := ((List.range l.kh).flatMap (fun i => (List.range l.kw).map (fun j => (i, j)))).filter (fun t => !live.contains t)
    .int (intCode l.fmt l.padConst * sumInt (gone.flatMap (fun t => (List.range g.2).map (fun c =>
      intCode l.fmt (l.weights.getD ((o * (l.kh * l.kw) + t.1 * l.kw + t.2) * g.2 + c) 0)))))

/-- Full accumulation of an output from its reduction vectors (R131, R132, R145, R150, R166). -/
def Layer.fullSum (l : Layer) (o : Nat) (vs : List (List Term)) : Summed :=
  match l.padSum o with
  | .int k =>
    let ps := vs.flatten.map (fun t => l.product (intCode l.fmt t.x) (intCode l.fmt t.w))
    let r := Acc.leave (sumInt (ps.map (fun p => p.1)) + k)
    ⟨r.1, r.2, (ps.filter (fun p => p.2)).length⟩
  | .fp k =>
    let v := vs.foldl (fun acc ts => floatSum l.fmt (ts.length + 1) acc ts) 0
    ⟨.fp (if k % 2 ^ 31 = 0 then v else fadd v k), false, 0⟩

/-- Products of a delta step in one block of the input, for one weight block's column: exact (R132, R145). -/
def deltaColumn (f : Nat) : List (Term × Term) → FV
  | [] => .fin false 0 0
  | p :: r => fvAdd (fvMul (deltaOf f (p.1.x, p.1.xs) (p.2.x, p.2.xs)) (scaledVal f p.1.w p.1.ws)) (deltaColumn f r)

/-- Addition of a delta step to a partial sum (R145): `vs` are the reduction vectors of input and reference, and each term's
block.  In an integer format the whole step is exact; otherwise each changed block adds the column sums of the weight blocks
that it meets, with one rounding each. -/
def Layer.deltaSum (l : Layer) (changed : List Nat) (y : Acc) (vs : List (List ((Term × Term) × Option Nat))) : Summed :=
  match y with
  | .int v =>
    let hit := vs.flatten.filter (fun p => match p.2 with
      | some b => changed.contains b
      | none => false)
    let ps := hit.map (fun p => l.product (intCode l.fmt p.1.1.x - intCode l.fmt p.1.2.x) (intCode l.fmt p.1.1.w))
    let r := Acc.leave (v + sumInt (ps.map (fun p => p.1)))
    ⟨r.1, r.2, (ps.filter (fun p => p.2)).length⟩
  | .fp v =>
    let add := fun (b acc : Nat) (chunk : List ((Term × Term) × Option Nat)) =>
      let mine := chunk.filter (fun p => p.2 = some b)
      if mine.isEmpty then acc else f32 (fvAdd (v32 acc) (deltaColumn l.fmt (mine.map (fun p => p.1))))
    ⟨.fp (changed.foldl (fun acc b => vs.foldl (fun acc ts =>
      (pieces (chunkLen l.fmt) (ts.length + 1) ts).foldl (add b) acc) acc) v), false, 0⟩

/-- Depthwise accumulation in the vector unit: row-major taps, one fused multiply-add each (R163). -/
def Layer.laneSum (l : Layer) (o : Nat) (vs : List (List Term)) : Summed :=
  if intFormat l.fmt then l.fullSum o vs
  else ⟨.fp (vs.flatten.foldl (fun a t => f32 (fvAdd (v32 a) (columnSum l.fmt [t]))) 0), false, 0⟩

/-- A depthwise delta step: one fused multiply-add per tap in a changed block. -/
def Layer.laneDelta (l : Layer) (changed : List Nat) (y : Acc) (vs : List (List ((Term × Term) × Option Nat))) : Summed :=
  match y with
  | .int v => l.deltaSum changed (.int v) vs
  | .fp v =>
    let hit := vs.flatten.filter (fun p => match p.2 with
      | some b => changed.contains b
      | none => false)
    ⟨.fp (hit.foldl (fun a p => f32 (fvAdd (v32 a) (deltaColumn l.fmt [p.1]))) v), false, 0⟩

/-- Largest finite value of an FP8 format, as a code. -/
def fp8Max (f : Nat) : Nat := if f = 2 then 0x7E else 0x7B

/-- Conversion of a value to an output format without scaling (R133). -/
def toFormat (f : Nat) (v : FV) : Nat :=
  match f with
  | 2 => match v with
    | .nan => fmtE4M3.nanBits
    | v =>
      let big := fvLt (fmtE4M3.decode 0x7E) (match v with
        | .fin _ m e => .fin false m e
        | v => v)
      let neg := fvLt v (.fin false 0 0)
      if big || (match v with
        | .inf _ => true
        | _ => false) then bit neg * 128 + fp8Max 2 else min (fmtE4M3.encode v % 128) 0x7E + bit neg * 128
  | 3 => match v with
    | .nan => fmtE5M2.nanBits
    | v =>
      let neg := fvLt v (.fin false 0 0)
      min (fmtE5M2.encode v % 128) (fp8Max 3) + bit neg * 128
  | 6 => fmtBF16.encode v
  | _ => fmt32.encode v

/-- Nearest integer to a value times M over 2^S, ties away from zero (R133).  An infinity gives a number beyond every range,
which the clamp takes to its end; for a not-a-number the spec states no integer: a free value. -/
def scaledRound (v : FV) (m : Int) (sh : Nat) : Int :=
  match v with
  | .fin n a e =>
    let num := (if n then -(a : Int) else (a : Int)) * m
    if e ≥ (sh : Int) then num * 2 ^ (e - sh).toNat else roundHalfAway num (2 ^ ((sh : Int) - e).toNat)
  | .inf n => if decide (m < 0) = n then 2 ^ 64 else -(2 ^ 64)
  | .nan => Config.free .numeric 0

/-- Value of an accumulator. -/
def Acc.val : Acc → FV
  | .int v => fvOf v 0
  | .fp b => v32 b

/-- The output code of channel `o` (R133): bias, requantisation, and whether the value is a not-a-number. -/
def Layer.convert (l : Layer) (o : Nat) (a : Acc) : Nat × Bool :=
  let v := match a with
    | .int v => fvOf (v + l.bias.getD o 0) 0
    | .fp b => v32 (fadd b (l.bias.getD o 0).toNat)
  let nan := v = .nan
  if intFormat l.outFmt then
    let w := if l.outFmt = 1 then 4 else 8
    (fromSigned w (satSigned w (scaledRound v (l.mult.getD o 1) (l.shift.getD o 0) + l.zero)), nan)
  else (toFormat l.outFmt v, nan)

/-! ### Element-wise operations -/

/-- Result of a lane (R134): rounded once to FP32 or BF16; an integer result out of its lane's range is a free value. -/
def laneRound (lane : Nat) (v : FV) : FV :=
  if lane = 6 then fmtBF16.decode (fmtBF16.encode v)
  else if lane = 7 then v32 (f32 v)
  else
    let w := if lane = 8 then 32 else 16
    let x := toIntFloor v
    if satSigned w x = x then v else fvOf (toSigned w (Config.free .numeric 1)) 0

/-- Larger and smaller of two values; a not-a-number passes. -/
def fvMax (a b : FV) : FV := if a = .nan || b = .nan then .nan else if fvLt a b then b else a
def fvMin (a b : FV) : FV := if a = .nan || b = .nan then .nan else if fvLt b a then b else a

/-- FP32 value. -/
def fvc (x : Nat) : FV := v32 x

/-- One element-wise operation on channel `ch` (R134, R187): `aux` is the second activation at the place. -/
def VOp.app (lane ch : Nat) (aux v : FV) (op : VOp) : FV :=
  let arg := fun (c : Option (List Nat)) => match c with
    | some l => fvc (l.getD ch 0)
    | none => aux
  let r := laneRound lane
  let mul := fun a b => r (fvMul a b)
  let add := fun a b => r (fvAdd a b)
  let half := fvc 0x3F000000
  match op with
  | .add c => add v (arg c)
  | .sub c => add v (fvNeg (arg c))
  | .mul c => mul v (arg c)
  | .div c => r (fvDiv v (arg c))
  | .max c => fvMax v (arg c)
  | .min c => fvMin v (arg c)
  | .fma m a => r (fvAdd (fvMul v (fvc (m.getD ch 0))) (arg a))
  | .prelu s => if fvLt v (.fin false 0 0) then mul v (fvc (s.getD ch 0)) else v
  | .clip lo hi => fvMin (fvMax v (fvc lo)) (fvc hi)
  | .hardSigmoid a b => fvMin (fvMax (add (mul v (fvc a)) (fvc b)) (.fin false 0 0)) fvOne
  | .hardSwish => mul v (fvMin (fvMax (add (mul v (fvc 0x3E2AAAAB)) half) (.fin false 0 0)) fvOne)
  | .gelu true =>
    let u := mul (fvc 0x3F4C422A) (add v (mul (fvc 0x3D372713) (mul v (mul v v))))
    mul (mul half v) (add fvOne (r (v32 (VFn.tanh.app (f32 u)))))
  | .gelu false => mul (mul half v) (add fvOne (r (v32 (VFn.erf.app (f32 (mul v (fvc 0x3F3504F3)))))))
  | .sqrt => r (fvSqrt v)
  | .fn f => r (v32 (f.app (f32 v)))

/-- Value of an output code, and the code of a value (R133): integers around the zero point. -/
def Layer.outVal (l : Layer) (x : Nat) : FV := if intFormat l.outFmt then fvOf (intCode l.outFmt x - l.zero) 0 else codeVal l.outFmt x
def Layer.outCode (l : Layer) (v : FV) : Nat :=
  if intFormat l.outFmt then
    let w := if l.outFmt = 1 then 4 else 8
    fromSigned w (satSigned w (scaledRound v 1 0 + l.zero))
  else toFormat l.outFmt v

/-- The element-wise operations of a layer on an output code (R143, R145): code, and whether it is a not-a-number. -/
def Layer.applyOps (l : Layer) (ch : Nat) (aux : FV) (x : Nat × Bool) : Nat × Bool :=
  if l.ops.isEmpty then x
  else
    let v := l.ops.foldl (VOp.app l.lane ch aux) (l.outVal x.1)
    (l.outCode v, x.2 || v = .nan)

/-- Output code of channel `o` from its accumulator: conversion, then the element-wise operations. -/
def Layer.post (l : Layer) (o : Nat) (aux : FV) (a : Acc) : Nat × Bool := l.applyOps o aux (l.convert o a)

/-- Maximum or average over the window of an output position, in row-major order of its positions (R187). -/
def Layer.pool (l : Layer) (x : Act) (oy ox ch : Nat) : FV :=
  let taps := (List.range l.kh).flatMap (fun i => (List.range l.kw).map (fun j => (i, j)))
  let vals := taps.filterMap (fun t => (l.tapPos oy ox t.1 t.2).map (fun p =>
    let c := x.at' l.cin (p.1 * l.w + p.2) ch
    scaledVal l.fmt c.1 c.2))
  match vals with
  | [] => .fin false 0 0
  | v :: vs =>
    if l.vec = 2 then vs.foldl fvMax v
    else
      let sum := vs.foldl (fun a b => v32 (f32 (fvAdd a b))) v
      v32 (f32 (fvDiv sum (fvOf (if l.vec = 4 then taps.length else vals.length : Nat) 0)))

/-! ### Costs -/

/-- Weight blocks per output position of sub-kernels with the given numbers of taps, for `n` output channels (R157, R160,
R162); an activation product has one tap. -/
def Layer.weightBlocks (l : Layer) (taps : List Nat) (n : Nat) : Nat :=
  let g := max l.groups 1
  let per := max (l.cout / g) 1
  sumNat (taps.map (fun t => ceilDiv (t * (l.cin / g)) (chunkLen l.fmt))) *
    (ceilDiv n per * ceilDiv (min n per) (groupLen l.fmt))

/-- Array cycles of weight blocks over a number of positions: a block used for fewer than 64 pays the stall (R129, R158). -/
def blockCycles (blocks positions : Nat) : Nat := if positions = 0 then 0 else blocks * max positions 64

/-- Positions of a part. -/
def Layer.partPositions (l : Layer) (p : LayerPart) : Nat := (p.row1 - p.row0) * l.outDims.2

/-- Array cycles of a transposed convolution's part: each phase with its taps, over the positions that receive any (R175). -/
def Layer.phaseCycles (l : Layer) (p : LayerPart) : Nat :=
  let phase := fun (out s pad : Nat) => (out + pad) % max s 1
  let taps := fun (r s k : Nat) => ceilDiv (k - r) (max s 1)
  let fed := fun (l : List (Nat × Option Nat)) => l.any (fun t => t.2.isSome)
  let rows := (List.range (p.row1 - p.row0)).map (fun i => p.row0 + i)
  sumNat ((List.range l.strH).flatMap (fun a => (List.range l.strW).map (fun b =>
    let ys := rows.filter (fun y => phase y l.strH l.padT = a && fed (phaseTaps y l.strH l.kh l.padT l.h))
    let xs := (List.range l.outDims.2).filter (fun x => phase x l.strW l.padL = b && fed (phaseTaps x l.strW l.kw l.padL l.w))
    blockCycles (l.weightBlocks ((subKernels (taps a l.strH l.kh) (taps b l.strW l.kw)).map List.length) (p.ch1 - p.ch0))
      (ys.length * xs.length))))

/-- Array cycles of a part in a full run, with the sub-kernels `ks` (R158, R175). -/
def Layer.partCycles (l : Layer) (ks : List (List (Nat × Nat))) (p : LayerPart) : Nat :=
  if l.kind = 5 then l.phaseCycles p
  else blockCycles (l.weightBlocks (ks.map List.length) (p.ch1 - p.ch0)) (l.partPositions p)

/-- Array cycles of parts in a full run. -/
def Layer.arrayCycles (l : Layer) (ks : List (List (Nat × Nat))) (parts : List LayerPart) : Nat := sumNat (parts.map (l.partCycles ks))

/-- Lane operations of parts: channels times positions. -/
def Layer.laneOps (l : Layer) (parts : List LayerPart) : Nat := sumNat (parts.map (fun p => l.partPositions p * (p.ch1 - p.ch0)))

/-- Vector cycles of a depthwise layer (R163). -/
def Layer.depthCycles (l : Layer) (parts : List LayerPart) : Nat :=
  ceilDiv (l.laneOps parts) (if l.fmt = 6 then 512 else 256) * (max l.kh 1 * max l.kw 1)

/-- Vector cycles of the conversion of `n` outputs, at two operations each over 256 lanes as the worked example of the stand
chapter has it, and of their element-wise operations (DEDUCED, log entry 25). -/
def Layer.postCycles (l : Layer) (n : Nat) : Nat := ceilDiv (2 * n) 256 + ceilDiv (n * l.ops.length) (if l.lane = 6 || l.lane = 9 then 512 else 256)

/-! ### SKIP -/

/-- Positions that a query keeps under SKIP(ρ, τ): `d2` are squared distances and `score` the pre-softmax scores per key
position, `own` the query's own position (R151). -/
def skipKept (rho tau : Nat) (d2 score : List Nat) (own : Nat) : List Nat :=
  let n := score.length
  let near := (List.range n).filter (fun p => d2.getD p 0 ≤ rho * rho)
  let kept := near.filter (fun p => !flt (score.getD p 0) tau)
  if !kept.isEmpty then kept
  else match near with
    | [] => [own]
    | p :: ps => [ps.foldl (fun b q => if flt (score.getD b 0) (score.getD q 0) then q else b) p]

/-- Numbers of 0 … n − 1 in a given order; without one that names each once, in rising order (R134). -/
def orderOf (order : List Nat) (n : Nat) : List Nat :=
  if order.length = n && (List.range n).all order.contains then order else List.range n

/-- Softmax over the kept scores and the weighted sum of their values, the lanes combined in the given order (R134, R151). -/
def attend (order : List Nat) (kept score : List Nat) (val : Nat → Nat) : Nat :=
  let ps := order.filter kept.contains
  let top := ps.foldl (fun m p => fmax m (score.getD p 0)) (score.getD (ps.headD 0) 0)
  let e := ps.map (fun p => (p, VFn.exp.app (fsub (score.getD p 0) top)))
  let z := e.foldl (fun a p => fadd a p.2) 0
  fdiv (e.foldl (fun a p => f32 (fvAdd (v32 a) (fvMul (v32 p.2) (v32 (val p.1))))) 0) z

/-! ### Crop-and-resize -/

/-- A box of a crop-and-resize list (R169). -/
structure Box where
  y1 : Nat
  x1 : Nat
  y2 : Nat
  x2 : Nat
  map : Nat
  deriving DecidableEq, Repr

/-- The boxes of a list, scaled, at most 4,096 (R169). -/
def boxesOf (scale : Nat) (bs : List Byte) : List Box :=
  (List.range (min (fieldAt bs 0 4) 4096)).map (fun i =>
    let f := fun (k : Nat) => fmul (fieldAt bs (4 + 32 * i + 4 * k) 4) scale
    ⟨f 0, f 1, f 2, f 3, fieldAt bs (4 + 32 * i + 16) 2⟩)

/-- A degenerate box (R172): its map index exceeds the layer's count of inputs. -/
def Box.degenerate (b : Box) (maps : Nat) : Bool :=
  !(ffinite b.y1 && ffinite b.x1 && ffinite b.y2 && ffinite b.x2) || fle b.y2 b.y1 || fle b.x2 b.x1 || b.map > maps

/-- Sample coordinate (R170). -/
def sampleAt (c1 c2 : Nat) (o n : Nat) : Nat := fadd c1 (fdiv (fmul (fadd (fofInt o 0) 0x3F000000) (fsub c2 c1)) (fofInt n 0))

/-- Value of one channel of a sample inside the map, by FP32 operations in the order written (R170, R171).  A map that the
layer does not have, of an index equal to its count of maps (R172), gives free values. -/
def bilinear (l : Layer) (x : Act) (map : Nat) (y z ch : Nat) : Nat :=
  let half := 0x3F000000
  let one := 0x3F800000
  let yc := fsub y half
  let xc := fsub z half
  let y0 := toIntFloor (v32 yc)
  let x0 := toIntFloor (v32 xc)
  let fy := fsub yc (fofInt y0 0)
  let fx := fsub xc (fofInt x0 0)
  let cl := fun (i : Int) (n : Nat) => if i < 0 then 0 else min i.toNat (n - 1)
  let m := fun (i j : Int) =>
    let p := map * (l.h * l.w) + cl i l.h * l.w + cl j l.w
    if p * l.cin + ch < x.codes.length then
      let c := x.at' l.cin p ch
      f32 (scaledVal l.fmt c.1 c.2)
    else Config.free .numeric (p * l.cin + ch) % 2 ^ 32
  let row := fun (i : Int) => fadd (fmul (fsub one fx) (m i x0)) (fmul fx (m i (x0 + 1)))
  fadd (fmul (fsub one fy) (row y0)) (fmul fy (row (y0 + 1)))

/-- A sample of a box, in FP32, and whether it lies outside the map (R170–R172). -/
def boxSample (l : Layer) (x : Act) (maps : Nat) (b : Box) (oy ox ch : Nat) : Nat × Bool :=
  let y := sampleAt b.y1 b.y2 oy l.outH
  let z := sampleAt b.x1 b.x2 ox l.outW
  let inside := fle 0 y && fle y (fofInt l.h 0) && fle 0 z && fle z (fofInt l.w 0)
  if b.degenerate maps then (l.extrap, false) else if inside then (bilinear l x b.map y z ch, false) else (l.extrap, true)

/-- Status byte of a box (R173): DEGENERATE, CLIPPED. -/
def boxStatus (l : Layer) (x : Act) (maps : Nat) (b : Box) : Nat :=
  bit (b.degenerate maps) + 2 * bit ((List.range l.outH).any (fun oy => (List.range l.outW).any (fun ox => (boxSample l x maps b oy ox 0).2)))

/-! ### Feature-map compression -/

/-- Bits of a code (R183). -/
def fmcBits (mode : Nat) : Nat := if mode = 1 then 4 else if mode = 2 then 2 else 8

/-- Bytes of a block of 64 values (R183). -/
def fmcSize (mode : Nat) : Nat := 2 + 8 * fmcBits mode

/-- Codes packed, the first in the lowest bits (R183). -/
def packCodes (bits : Nat) (l : List Nat) : List Byte :=
  leBytes (8 * bits) ((List.range 64).foldl (fun a i => a + l.getD i 0 * 2 ^ (bits * i)) 0)

/-- Code of an integer value between bounds (R184). -/
def fmcCode (n : Nat) (lo hi x : Int) : Nat :=
  if hi = lo then 0 else ((2 * n * (x - lo) + (hi - lo)).fdiv (2 * (hi - lo))).toNat

/-- Largest and smallest of a list of integers. -/
def maxInt (l : List Int) : Int := l.foldl max (l.headD 0)
def minInt (l : List Int) : Int := l.foldl min (l.headD 0)

/-- A block of INT8 values under FMC-4 or FMC-2 (R183, R184). -/
def fmcIntBlock (mode : Nat) (vals : List Nat) : List Byte :=
  let vs := vals.map (fun v => toSigned 8 v)
  let lo := minInt vs
  let hi := maxInt vs
  leBytes 1 (fromSigned 8 lo) ++ leBytes 1 (fromSigned 8 hi) ++
    packCodes (fmcBits mode) (vs.map (fun v => fmcCode (2 ^ fmcBits mode - 1) lo hi v))

/-- Order of FP32 values held as codes, for minima and maxima. -/
def fminL (l : List Nat) : Nat := l.foldl fmin (l.headD 0)
def fmaxL (l : List Nat) : Nat := l.foldl fmax (l.headD 0)

/-- E5M2 bound at or below (`up` false) or at or above a value, scaled by 2^e (R185): among the finite codes. -/
def fmcBound (e : Int) (up : Bool) (x : Nat) : Nat :=
  let codes := (List.range 256).filter (fun c => match fmtE5M2.decode c with
    | .fin _ _ _ => true
    | _ => false)
  let val := fun c => fvScale (fmtE5M2.decode c) e
  if up then
    let ok := codes.filter (fun c => !fvLt (val c) (v32 x))
    if ok.isEmpty then 0x7B else ok.foldl (fun b c => if fvLt (val c) (val b) then c else b) (ok.headD 0)
  else
    let ok := codes.filter (fun c => !fvLt (v32 x) (val c))
    if ok.isEmpty then 0xFB else ok.foldl (fun b c => if fvLt (val b) (val c) then c else b) (ok.headD 0)

/-- A block of BF16 values under FMC-8, with the number of clamped values and whether it is not finite (R184, R185). -/
def fmcFloatBlock (e : Int) (vals : List Nat) : List Byte × Nat × Bool :=
  let vs := vals.map (fun v => v * 65536)
  if vs.any (fun v => !ffinite v) then (leBytes 1 fmtE5M2.nanBits ++ leBytes 1 fmtE5M2.nanBits ++ zeros 64, 0, true)
  else
    let cl := fmcBound e false (fminL vs)
    let ch := fmcBound e true (fmaxL vs)
    let lo := f32 (fvScale (fmtE5M2.decode cl) e)
    let hi := f32 (fvScale (fmtE5M2.decode ch) e)
    let out := vs.filter (fun v => flt v lo || flt hi v)
    let code := fun v =>
      if lo = hi then 0
      else
        let q := toIntFloor (v32 (fadd (fdiv (fmul 0x437F0000 (fsub v lo)) (fsub hi lo)) 0x3F000000))
        if q < 0 then 0 else min q.toNat 255
    (leBytes 1 cl ++ leBytes 1 ch ++ packCodes 8 (vs.map code), out.length, false)

/-- What compressing a map gives: bytes, blocks, clamped values, blocks that are not finite. -/
structure Fmc where
  bytes : List Byte
  blocks : Nat
  clamped : Nat
  nonfinite : Bool
  deriving DecidableEq, Repr

/-- Blocks of 64 channels of each position (R183). -/
def fmcBlocks (c : Nat) (vals : List Nat) : List (List Nat) :=
  (List.range (vals.length / max c 1)).flatMap (fun p => (List.range (ceilDiv c 64)).map (fun j =>
    (vals.drop (p * c + 64 * j)).take (min 64 (c - 64 * j))))

/-- A map compressed (R183). -/
def fmcEncode (mode : Nat) (e : Int) (c : Nat) (vals : List Nat) : Fmc :=
  let bs := fmcBlocks c vals
  if mode = 3 then
    let r := bs.map (fmcFloatBlock e)
    ⟨padTo 64 (r.flatMap (fun p => p.1)), bs.length, sumNat (r.map (fun p => p.2.1)), r.any (fun p => p.2.2)⟩
  else ⟨padTo 64 (bs.flatMap (fmcIntBlock mode)), bs.length, 0, false⟩

/-- Value `i` of a compressed block (R186): an INT8 code, or a BF16 code. -/
def fmcDecode (mode : Nat) (e : Int) (b : List Byte) (i : Nat) : Nat :=
  let bits := fmcBits mode
  let q := leNat (b.drop 2) / 2 ^ (bits * i) % 2 ^ bits
  if mode = 3 then
    match fmtE5M2.decode (fieldAt b 0 1), fmtE5M2.decode (fieldAt b 1 1) with
    | .nan, _ => fmtBF16.nanBits
    | _, .nan => fmtBF16.nanBits
    | l, h =>
      let lo := f32 (fvScale l e)
      let hi := f32 (fvScale h e)
      fmtBF16.encode (v32 (fadd lo (fmul (fofInt q 0) (fdiv (fsub hi lo) 0x437F0000))))
  else
    let lo := toSigned 8 (fieldAt b 0 1)
    let hi := toSigned 8 (fieldAt b 1 1)
    fromSigned 8 (lo + roundHalfAway (q * (hi - lo)) (2 ^ bits - 1))

end Sys2Proof
end

