-- ==== Sys2Proof/Machine/LayerRun.lean ====
section
/-!
DEFINITION. A layer run at a tile (R143–R151, R157–R175): the outputs of the tile's parts, full or by a delta step, what the
tile keeps of them, and what the run counts.
-/

namespace Sys2Proof

open Machine

/-! ### Parts of a layer -/

/-- Share i of m of a part: its output channels are divided, so that every share reads the part's own input rows (R140; how
Aidor divides them: DESIGN CHOICE, log entry 26). -/
def LayerPart.share (p : LayerPart) (i m : Nat) : LayerPart :=
  let n := p.ch1 - p.ch0
  { p with ch0 := p.ch0 + n * i / m, ch1 := p.ch0 + n * (i + 1) / m }

/-- Bytes of the weights of a part. -/
def Layer.partBytes (l : Layer) (p : LayerPart) : Nat :=
  let bits := if l.fmt = 1 || l.fmt = 5 then 4 else if l.fmt = 6 then 16 else if l.fmt = 7 then 32 else 8
  ceilDiv ((p.ch1 - p.ch0) * (max l.kh 1 * max l.kw 1) * (l.cin / max l.groups 1) * bits) 8

/-- Layers whose output in the last slice a layer reads (R188). -/
def Layer.states (l : Layer) : List Nat :=
  [l.src, l.src2, l.src3].filterMap (fun x => match x with
    | .state n => some n
    | _ => none)

/-- Layer that gives a layer its input, if another layer does. -/
def Layer.feeder (l : Layer) : Option Nat :=
  match l.src with
  | .layer n => some n
  | .map n => some n
  | _ => none

/-- Input rows that a part of a layer reads (R164, R176). -/
def Layer.inputRows (l : Layer) (p : LayerPart) : List Nat :=
  dedup ((List.range (p.row1 - p.row0)).flatMap (fun dy =>
    let oy := p.row0 + dy
    if l.kind = 0 || l.kind = 3 then
      (List.range l.kh).filterMap (fun i => tapCoord l.h oy l.strH l.dilH l.padT i l.padMode)
    else if l.kind = 5 then (phaseTaps oy l.strH l.kh l.padT l.h).filterMap (fun t => t.2)
    else [oy]))

/-- The layer whose output is the group's output features: the one marked so, or the last. -/
def handLayer (ls : List Layer) : Nat :=
  match (List.range ls.length).find? (fun j => match ls[j]? with
    | some l => l.handover
    | none => false) with
  | some j => j
  | none => ls.length - 1

/-! ### A layer run -/

/-- What one layer run at one tile gives: its delta state, its outputs by number, and what it counts. -/
structure LayerOut where
  st : LayerSt
  outs : Tab Nat
  blocks : Nat
  changed : Nat
  refreshed : Bool
  trunc : Nat
  skipped : Nat
  sat : Bool
  nan : Bool
  array : Nat
  vec : Nat
  padSkip : Nat
  degen : Nat
  boxOvf : Bool
  deriving DecidableEq, Repr

/-- An output of a layer: its number, position and channel. -/
structure OutPlace where
  idx : Nat
  oy : Nat
  ox : Nat
  ch : Nat
  deriving DecidableEq, Repr

/-- Outputs of a part, in row-major order. -/
def Layer.places (l : Layer) (p : LayerPart) : List OutPlace :=
  let w := l.outDims.2
  (List.range (p.row1 - p.row0)).flatMap (fun dy => (List.range w).flatMap (fun ox => (List.range (p.ch1 - p.ch0)).map (fun dc =>
    let oy := p.row0 + dy
    let ch := p.ch0 + dc
    ⟨(oy * w + ox) * l.cout + ch, oy, ox, ch⟩)))

/-- Activations of a layer run: input, second and third. -/
structure LayerIn where
  x : Act
  x2 : Act
  x3 : Act
  deriving DecidableEq, Repr

/-- Value of the second activation at an output place. -/
def Layer.auxVal (l : Layer) (a : LayerIn) (p : OutPlace) : FV :=
  let w := l.outDims.2
  let c := a.x2.at' l.cout (p.oy * w + p.ox) p.ch
  scaledVal l.fmt2 c.1 c.2

/-- One output joins a layer's outputs. -/
def LayerOut.put (o : LayerOut) (idx : Nat) (y : Nat × Bool) : LayerOut :=
  { o with outs := tabInsert o.outs idx y.1, nan := o.nan || y.2 }

/-- Output `p` of a full run (R131–R133, R145). -/
def Layer.fullOut (l : Layer) (a : LayerIn) (o : LayerOut) (p : OutPlace) : LayerOut :=
  let vs := (l.allVectors a.x a.x2 p.oy p.ox p.ch).map (fun v => v.map (fun t => t.1))
  let sum := if l.kind = 3 then l.laneSum p.ch vs else l.fullSum p.ch vs
  { (o.put p.idx (l.post p.ch (l.auxVal a p) sum.acc)) with
    st := { o.st with sums := tabInsert o.st.sums p.idx sum.acc }, sat := o.sat || sum.saturated, trunc := o.trunc + sum.truncated }

/-- Reduction vectors of output `p` over input and reference, each term with its input block. -/
def Layer.deltaVectors (l : Layer) (a : LayerIn) (ref : Act) (p : OutPlace) : List (List ((Term × Term) × Option Nat)) :=
  ((l.allVectors a.x a.x2 p.oy p.ox p.ch).zip (l.allVectors ref a.x2 p.oy p.ox p.ch)).map (fun v =>
    (v.1.zip v.2).map (fun t => ((t.1.1, t.2.1), t.1.2.map l.inBlock)))

/-- A delta step adds to the partial sum of output `p` (R145). -/
def Layer.deltaOut (l : Layer) (a : LayerIn) (ref : Act) (changed : List Nat) (o : LayerOut) (p : OutPlace) : LayerOut :=
  let vs := l.deltaVectors a ref p
  let y := tabGet (Acc.zero l.fmt) o.st.sums p.idx
  let sum := if l.kind = 3 then l.laneDelta changed y vs else l.deltaSum changed y vs
  { o with
    st := { o.st with sums := tabInsert o.st.sums p.idx sum.acc }, sat := o.sat || sum.saturated, trunc := o.trunc + sum.truncated }

/-- Output `p` follows its partial sum (R145). -/
def Layer.postOut (l : Layer) (a : LayerIn) (o : LayerOut) (p : OutPlace) : LayerOut :=
  o.put p.idx (l.post p.ch (l.auxVal a p) (tabGet (Acc.zero l.fmt) o.st.sums p.idx))

/-- Block of the output that a place lies in (R145). -/
def Layer.outBlock (l : Layer) (p : OutPlace) : Nat := blockOf l.spatial p.oy p.ox l.outDims.2 p.ch

/-- Blocks of the input that output `p` reads. -/
def Layer.readBlocks (l : Layer) (a : LayerIn) (p : OutPlace) : List Nat :=
  (l.allVectors a.x a.x2 p.oy p.ox p.ch).flatten.filterMap (fun t => t.2.map l.inBlock)

/-- A run of a layer of products over a tile's parts (R143–R150, R157–R167): `st` is what the tile keeps of the stream's last
run; a delta step changes the outputs of the output blocks that the changed input blocks reach, and keeps the others. -/
def Layer.productRun (l : Layer) (st : LayerSt) (refresh : Bool) (parts : List LayerPart) (a : LayerIn) (o : LayerOut) : LayerOut :=
  let places := parts.flatMap l.places
  let fullCost := l.arrayCycles l.kernels parts
  let skip := if l.kind = 0 then l.arrayCycles (subKernels l.kh l.kw) parts - fullCost else 0
  let reads := dedup (places.flatMap (l.readBlocks a))
  let blocks := if l.deltaEn then reads.length else 0
  if refresh then
    let o := places.foldl (l.fullOut a) { o with st := st }
    { o with
      st := if l.deltaEn then { o.st with ref := a.x.codes, refScales := a.x.scales, outs := o.outs } else { o.st with sums := [] }
      blocks := blocks, array := if l.kind = 3 then 0 else fullCost
      vec := (if l.kind = 3 then l.depthCycles parts else 0) + l.postCycles places.length, padSkip := skip }
  else
    let ref : Act := ⟨st.ref, st.refScales⟩
    let changed := l.changedBlocks a.x ref
    let reached := places.filter (fun p => (l.readBlocks a p).any changed.contains)
    let marked := dedup (reached.map l.outBlock)
    let again := places.filter (fun p => marked.contains (l.outBlock p))
    let o := again.foldl (l.postOut a) (reached.foldl (l.deltaOut a ref changed) { o with st := st, outs := st.outs })
    let ref := l.newRef changed a.x ref
    let n := (reads.filter changed.contains).length
    let part := fun (c : Nat) => ceilDiv (c * n) (max reads.length 1)
    { o with
      st := { o.st with ref := ref.codes, refScales := ref.scales, outs := o.outs }
      blocks := blocks, changed := n, array := if l.kind = 3 then 0 else part fullCost
      vec := (if l.kind = 3 then part (l.depthCycles parts) else 0) + l.postCycles again.length, padSkip := part skip }

/-- Attention under SKIP at a tile: the queries of its rows against every key (R151); `order` is the order of the reductions. -/
def Layer.skipRun (l : Layer) (parts : List LayerPart) (a : LayerIn) (order : List Nat) (o : LayerOut) : LayerOut :=
  let n := a.x2.codes.length / max l.cin 1
  let key := { l with kind := 2, cls := 0, trans2 := false }
  let keptOf := fun (oy ox : Nat) =>
    let score := (List.range n).map (fun p =>
      f32 (key.fullSum p ((key.vectors2 a.x a.x2 oy ox p).map (fun v => v.map (fun t => t.1)))).acc.val)
    let d2 := (List.range n).map (fun p =>
      ((((ox : Int) - (p % l.w : Nat)) ^ 2) + ((oy : Int) - (p / l.w : Nat)) ^ 2).toNat)
    (skipKept l.rho l.tau d2 score (oy * l.w + ox), score)
  let o := (parts.flatMap l.places).foldl (fun o p =>
    let k := keptOf p.oy p.ox
    let v := attend (orderOf order n) k.1 k.2 (fun q =>
      let c := a.x3.at' l.cout q p.ch
      f32 (scaledVal l.fmt2 c.1 c.2))
    o.put p.idx (l.post p.ch (l.auxVal a p) (.fp v))) o
  let queries := parts.flatMap (fun p => (List.range (p.row1 - p.row0)).flatMap (fun dy => (List.range l.w).map (fun ox => (p.row0 + dy, ox))))
  { o with
    skipped := sumNat (queries.map (fun q => n - (keptOf q.1 q.2).1.length)), array := l.arrayCycles l.kernels parts
    vec := l.postCycles o.outs.length }

/-- Crop-and-resize at a tile (R168–R173): its part holds rows of the list of boxes, OUT_H rows to a box; the tile of a box's
first row writes its status byte, after the outputs of all boxes. -/
def Layer.boxRun (l : Layer) (parts : List LayerPart) (a : LayerIn) (o : LayerOut) : LayerOut :=
  let bytes := a.x2.codes.map (fun b => BitVec.ofNat 8 b)
  let maps := a.x.codes.length / max (l.h * l.w * l.cin) 1
  let bs := boxesOf l.scale bytes
  let size := bs.length * (l.outH * l.outW * l.cout)
  let o := parts.foldl (fun o (p : LayerPart) => (List.range (p.row1 - p.row0)).foldl (fun o dy =>
    let row := p.row0 + dy
    match bs[row / max l.outH 1]? with
    | none => o
    | some b =>
      let oy := row % max l.outH 1
      let o := (List.range l.outW).foldl (fun o ox => (List.range (p.ch1 - p.ch0)).foldl (fun o dc =>
        let ch := p.ch0 + dc
        o.put ((row * l.outW + ox) * l.cout + ch) (l.post ch (.fin false 0 0) (.fp (boxSample l a.x maps b oy ox ch).1))) o) o
      if oy = 0 && p.ch0 = 0 then
        let st := boxStatus l a.x maps b
        { o with outs := tabInsert o.outs (size + row / max l.outH 1) st, degen := o.degen + st % 2 }
      else o) o) o
  { o with boxOvf := decide (fieldAt bytes 0 4 > 4096), vec := l.postCycles o.outs.length }

/-- A layer of the vector unit at a tile: element-wise, pooling, or the program's own results (R134, R187). -/
def Layer.vectorRun (l : Layer) (parts : List LayerPart) (a : LayerIn) (run : LayerRun) (o : LayerOut) : LayerOut :=
  let places := parts.flatMap l.places
  let o := places.foldl (fun o p =>
    let v := if l.vec = 1 then
        let c := a.x.at' l.cin (p.oy * l.w + p.ox) p.ch
        scaledVal l.fmt c.1 c.2
      else l.pool a.x p.oy p.ox p.ch
    let x := if l.vec = 0 then (run.y.getD p.idx 0, decide (l.outVal (run.y.getD p.idx 0) = .nan)) else (l.outCode v, decide (v = .nan))
    o.put p.idx (if l.vec = 0 then x else l.applyOps p.ch (l.auxVal a p) x)) o
  let taps := if l.vec ≥ 2 then max l.kh 1 * max l.kw 1 else 1
  { o with vec := if l.vec = 0 then run.vec else ceilDiv (places.length * (taps + l.ops.length)) (if l.lane = 6 || l.lane = 9 then 512 else 256) }

/-- A layer run at a tile over its parts. -/
def layerRun (l : Layer) (old : Option LayerSt) (blank : LayerSt) (full : Bool) (parts : List LayerPart) (a : LayerIn)
    (run : LayerRun) : LayerOut :=
  let st := old.getD blank
  let refresh := full || old.isNone || !l.deltaEn
  let o : LayerOut := ⟨st, [], 0, 0, refresh && l.deltaEn, 0, 0, false, false, 0, 0, 0, 0, false⟩
  if l.kind = 2 && l.cls = 2 then l.skipRun parts a run.order o
  else if l.kind = 4 then l.boxRun parts a o
  else if l.kind = 6 then l.vectorRun parts a run o
  else l.productRun (if refresh then blank else st) refresh parts a o

/-! ### Maps in DRAM -/

/-- Bytes of a code in a format. -/
def codeBytes (f x : Nat) : List Byte := if f = 6 then leBytes 2 x else if f = 7 then leBytes 4 x else leBytes 1 x

/-- A table's values in order of their numbers, 0 where one is absent. -/
def tabValues (t : Tab Nat) : List Nat := (List.range (maxNat (t.map (fun p => p.1 + 1)))).map (tabGet 0 t)

/-- Values of a map that FMC wrote, as a reader decodes them (R182, R186). -/
def fmcMap (l : Layer) (bytes : List Byte) : List Nat :=
  let nb := ceilDiv l.cout 64
  (List.range (l.outDims.1 * l.outDims.2 * l.cout)).map (fun i =>
    let j := i / max l.cout 1 * nb + i % max l.cout 1 / 64
    fmcDecode l.fmc (toSigned 6 l.fmcExp) ((bytes.drop (j * fmcSize l.fmc)).take (fmcSize l.fmc)) (i % max l.cout 1 % 64))

end Sys2Proof
end

