-- ==== Sys2Proof/Machine/Mailbox.lean ====
section
/-!
DEFINITION. Mailboxes and lock registers (R333–R339, R348, R349), and the reset of a requester's ends and locks.
-/

namespace Sys2Proof.Machine

def MbxEnd.empty : MbxEnd := ⟨false, false, false, false, false, 0, 0xFFFFFFFF, 0, []⟩
def Mbx.empty : Mbx := ⟨MbxEnd.empty, MbxEnd.empty⟩

def State.box (s : State) (m : Nat) : Mbx := tabGet Mbx.empty s.mbx.boxes m

def State.setBox (s : State) (m : Nat) (b : Mbx) : State := { s with mbx := { s.mbx with boxes := tabInsert s.mbx.boxes m b } }

/-- Which end of a mailbox a requester is bound to: false END0, true END1 (R333). -/
def State.endOf (s : State) (m req : Nat) : Option Bool :=
  if s.get (F.MBX_CFG.END0 m) = req && req ≠ 0 then some false
  else if s.get (F.MBX_CFG.END1 m) = req && req ≠ 0 then some true
  else none

def Mbx.side (b : Mbx) (e : Bool) : MbxEnd := if e then b.e1 else b.e0
def Mbx.setSide (b : Mbx) (e : Bool) (x : MbxEnd) : Mbx := if e then { b with e1 := x } else { b with e0 := x }

/-- Requester bound to an end. -/
def State.endReq (s : State) (m : Nat) (e : Bool) : Nat := if e then s.get (F.MBX_CFG.END1 m) else s.get (F.MBX_CFG.END0 m)

/-- Power domain of a requester, as `PWR_DOM` numbers it (R26, R316). -/
def domainOf (req : Nat) : Nat :=
  if req ≤ 8 || req = 58 then 0 else if req ≤ 56 || req = 59 then 5 else if req = 60 then 4 else 1

/-- Bits that a mask leaves. -/
def unmaskedBits (p m : Nat) : Nat := setMinus p m

/-- The interrupt of an end goes to its requester (R335): for the host its MSI-X vector; not while its domain is off. -/
def State.mbxInterrupt (s : State) (m : Nat) (e : Bool) : State :=
  let x := (s.box m).side e
  let r := s.endReq m e
  if unmaskedBits x.pend x.mask = 0 || s.domainOff (domainOf r) then s
  else if r = hostReq then s.raiseVector 0 (s.get F.MBX_HOST_IRQ.VEC)
  else s.emit (.irq r m)

/-- Accesses of a requester that is bound to neither end (R333). -/
def State.foreign (s : State) : State := s.put F.MBX_ERR.FOREIGN 1

/-- One end of a mailbox is reset (R336). -/
def Mbx.resetEnd (b : Mbx) (e : Bool) : Mbx :=
  let x := b.side e
  let y := b.side (!e)
  (b.setSide e { x with queue := [], pend := 0, mask := 0xFFFFFFFF, wake := 0, ready := false }).setSide (!e)
    { y with queue := [], pend := 2 ^ 31, aborted := true }

/-- Both ends are reset: no end survives (R333, R336). -/
def State.resetBox (s : State) (m : Nat) : State :=
  let b := s.box m
  let clear := fun (x : MbxEnd) => { x with ready := false, mask := 0xFFFFFFFF, wake := 0, pend := 0, queue := [] }
  s.setBox m ⟨clear b.e0, clear b.e1⟩

/-- A requester is reset: its claims on double-buffered groups end, and their shadows are reloaded (R508). -/
def State.dropClaims (s : State) (req : Nat) : State :=
  s.each (s.groups.filter (fun g => g.2.holder = req)) (fun s g => (s.reloadShadow g.1).endClaim g.1)

/-- A requester is reset (R336, R339, R508): its mailbox ends, its locks, which become orphaned, and its claims. -/
def State.endReset (s : State) (req : Nat) : State :=
  let s := s.dropClaims req
  let s := s.each (List.range 64) (fun s m =>
    if !s.flag (F.MBX_CFG.ENABLE m) then s
    else match s.endOf m req with
      | some e => (s.setBox m ((s.box m).resetEnd e)).mbxInterrupt m (!e)
      | none => s)
  s.each (List.range 64) (fun s l =>
    if s.get (F.LCK_l.OWNER l) = req then
      (s.put (F.LCK_l.OWNER l) 0).put F.LCK_ORPHAN.LOCKS (s.get F.LCK_ORPHAN.LOCKS ||| 2 ^ l)
    else s)

/-- A write to MBX_CFG (R316, R333). -/
def State.mbxCfg (s : State) (req m val : Nat) : State :=
  if !isControlCore req then s.sysErr F.SYS_ERR.HOST_DENIED req 8 (R.MBX_CFG m)
  else
    let w := BitVec.ofNat 64 val
    let on := (F.MBX_CFG.ENABLE m).of w = 1
    if s.flag (F.MBX_CFG.ENABLE m) then
      if on then s.put F.MBX_ERR.CFG 1
      else (s.resetBox m).setReg (R.MBX_CFG m) (setBits (setBits (setBits 0 63 63 0) 15 8 ((F.MBX_CFG.END1 m).of w)) 7 0 ((F.MBX_CFG.END0 m).of w))
    else if (F.MBX_CFG.END0 m).of w > 62 || (F.MBX_CFG.END1 m).of w > 62 then s.put F.MBX_ERR.CFG 1
    else s.setReg (R.MBX_CFG m) (setBits (setBits (setBits 0 63 63 (bit on)) 15 8 ((F.MBX_CFG.END1 m).of w)) 7 0 ((F.MBX_CFG.END0 m).of w))

def execMbxCfg (t req mbx val : Nat) (s : State) : Res :=
  .next ((s.at t).asReq req (R.MBX_CFG mbx) 8 val (fun s => s.mbxCfg req mbx val))

/-- An access by a bound requester of an enabled mailbox, or a foreign one (R333).  A mailbox that is not in use does nothing
(DESIGN CHOICE, log entry 90). -/
def State.withEnd (s : State) (req m : Nat) (f : Bool → State) : State :=
  match s.endOf m req with
  | some e => if s.flag (F.MBX_CFG.ENABLE m) then f e else s
  | none => s.foreign

/-- A write to MBX_SEND (R334, R336). -/
def State.mbxSend (s : State) (req m val : Nat) : State :=
  s.withEnd req m (fun e =>
    let b := s.box m
    let own := b.side e
    let peer := b.side (!e)
    if !peer.ready then s.setBox m (b.setSide e { own with dropped := true })
    else if peer.queue.length ≥ 8 then s.setBox m (b.setSide e { own with overflow := true })
    else s.setBox m (b.setSide (!e) { peer with queue := peer.queue ++ [val % 2 ^ 64] }))

def execMbxSend (t req mbx val : Nat) (s : State) : Res :=
  .next ((s.at t).asReq req (R.MBX_SEND mbx) 8 val (fun s => s.mbxSend req mbx val))

/-- A core has received the oldest context reference of a word from a mailbox: its guarded record is done (R337). -/
def State.received (s : State) (m core w : Nat) : State :=
  match s.aid.notes.find? (fun n => n.box = m && n.dest = core && n.word = w) with
  | some n => { s with aid := { s.aid with notes := s.aid.notes.erase n } }
  | none => s

/-- A read of MBX_RECV (R334). -/
def State.mbxRecv (s : State) (req m : Nat) : State :=
  match s.endOf m req with
  | none => s.foreign.emit (.readData req (R.MBX_RECV m) 0)
  | some e =>
    if !s.flag (F.MBX_CFG.ENABLE m) then s.emit (.readData req (R.MBX_RECV m) 0)
    else
      let b := s.box m
      let own := b.side e
      match own.queue with
      | [] => (s.setBox m (b.setSide e { own with underflow := true })).emit (.readData req (R.MBX_RECV m) 0)
      | w :: ws =>
        ((s.setBox m (b.setSide e { own with queue := ws })).received m (req - 1) w).emit (.readData req (R.MBX_RECV m) w)

def execMbxRecv (t req mbx : Nat) (s : State) : Res :=
  .next ((s.at t).asReader req (R.MBX_RECV mbx) 8 (fun s => s.mbxRecv req mbx))

/-- A write to MBX_DB_RING (R335, R336): bit 31 is ignored; a bit with WAKE toward an off domain requests its power. -/
def State.mbxRing (s : State) (req m val : Nat) : State :=
  s.withEnd req m (fun e =>
    let b := s.box m
    let own := b.side e
    let peer := b.side (!e)
    let bits := val % 2 ^ 31
    if !peer.ready then s.setBox m (b.setSide e { own with dropped := true })
    else
      let s := s.setBox m (b.setSide (!e) { peer with pend := peer.pend ||| bits })
      let d := domainOf (s.endReq m (!e))
      let s := if bits &&& peer.wake ≠ 0 && s.domainOff d then { s with mbx := { s.mbx with wakeReq := s.mbx.wakeReq ||| 2 ^ d } } else s
      if bits = 0 then s else s.mbxInterrupt m (!e))

def execMbxDbRing (t req mbx val : Nat) (s : State) : Res :=
  .next ((s.at t).asReq req (R.MBX_DB_RING mbx) 8 val (fun s => s.mbxRing req mbx val))

/-- Writes to the other registers of a mailbox: `k` is the register's offset in the group (R335, R348). -/
def State.mbxWrite (s : State) (req m k val : Nat) : State :=
  s.withEnd req m (fun e =>
    let b := s.box m
    let x := b.side e
    let y :=
      if k = 0x18 then { x with
        ready := x.ready || val.testBit 5, dropped := x.dropped && !val.testBit 3, underflow := x.underflow && !val.testBit 2
        overflow := x.overflow && !val.testBit 1, aborted := x.aborted && !val.testBit 0 }
      else if k = 0x28 then { x with pend := setMinus x.pend val }
      else if k = 0x30 then { x with mask := val % 2 ^ 32 }
      else if k = 0x38 then { x with wake := val % 2 ^ 32 }
      else x
    let s := s.setBox m (b.setSide e y)
    if k = 0x30 then s.mbxInterrupt m e else s)

/-- What a requester sees in a mailbox register (R334, R348). -/
def State.mbxView (s : State) (req m k : Nat) : Nat :=
  match s.endOf m req with
  | none => 0
  | some e =>
    let b := s.box m
    let x := b.side e
    let y := b.side (!e)
    if k = 0x18 then
      y.queue.length * 2 ^ 16 + x.queue.length * 2 ^ 8 + bit y.ready * 64 + bit x.ready * 32 + bit x.dropped * 8 +
        bit x.underflow * 4 + bit x.overflow * 2 + bit x.aborted
    else if k = 0x28 then x.pend
    else if k = 0x30 then x.mask
    else if k = 0x38 then x.wake
    else 0

/-! ### Context references (R324, R337) -/

/-- The mailbox that joins two control cores: the lowest one in use (DESIGN CHOICE, log entry 90). -/
def State.joinBox (s : State) (a b : Nat) : Option Nat :=
  (List.range 64).find? (fun m => s.flag (F.MBX_CFG.ENABLE m) &&
    ((s.get (F.MBX_CFG.END0 m) = a + 1 && s.get (F.MBX_CFG.END1 m) = b + 1) ||
      (s.get (F.MBX_CFG.END0 m) = b + 1 && s.get (F.MBX_CFG.END1 m) = a + 1)))

/-- The queue of a mailbox toward a core. -/
def State.queueTo (s : State) (m core : Nat) : List Nat :=
  match s.endOf m (core + 1) with
  | some e => ((s.box m).side e).queue
  | none => []

/-- The word of a recorded reference stands in its mailbox. -/
def State.noteThere (s : State) (n : Note) : Bool := (s.queueTo n.box n.dest).contains n.word

/-- The word of a recorded reference is sent from a core, unless its peer takes no more. -/
def State.sendNote (s : State) (n : Note) (source : Nat) : State :=
  match s.endOf n.box (n.dest + 1) with
  | some e =>
    let peer := (s.box n.box).side e
    if peer.ready && peer.queue.length < 8 then s.mbxSend (source + 1) n.box n.word else s
  | none => s

/-- The context of a command passes from one core to another: recorded in guarded state, and then sent (R324, R337). -/
def State.pass (s : State) (ring seq source dest : Nat) : State :=
  if source = dest then s
  else match s.joinBox source dest with
    | none => s
    | some m =>
      let n : Note := ⟨ring, seq, dest, m, Config.free .contextRef (ring * 2 ^ 32 + seq)⟩
      ({ s with aid := { s.aid with notes := s.aid.notes ++ [n] } }).sendNote n source

/-- The recorded reference of a command that its core has not received. -/
def State.note (s : State) (ring seq : Nat) : Option Note := s.aid.notes.find? (fun n => n.ring = ring && n.seq = seq)

/-- The core that a context reference goes to receives it. -/
def State.takeNote (s : State) (ring seq : Nat) : State :=
  match s.note ring seq with
  | none => s
  | some n =>
    let s := { s with aid := { s.aid with notes := s.aid.notes.erase n } }
    match s.endOf n.box (n.dest + 1) with
    | some e =>
      let b := s.box n.box
      let x := b.side e
      s.setBox n.box (b.setSide e { x with queue := x.queue.erase n.word })
    | none => s

/-- Aidor binds the mailboxes at a start (R348): the pairs of control cores take the first 28 of them, lower core at END0
(DESIGN CHOICE, log entry 90). -/
def corePairs : List (Nat × Nat) :=
  (List.range 8).flatMap (fun i => ((List.range 8).filter (fun j => i < j)).map (fun j => (i, j)))

def State.bindBoxes (s : State) : State :=
  s.each ((List.range 28).zip corePairs) (fun s (p : Nat × Nat × Nat) =>
    ((s.put (F.MBX_CFG.ENABLE p.1) 1).put (F.MBX_CFG.END0 p.1) (p.2.1 + 1)).put (F.MBX_CFG.END1 p.1) (p.2.2 + 1))

/-- The ends that belong to a control core are READY once Aidor has bound them. -/
def State.readyEnds (s : State) (core : Nat) : State :=
  s.each (List.range 64) (fun s m =>
    if !s.flag (F.MBX_CFG.ENABLE m) then s
    else
      let s := if s.get (F.MBX_CFG.END0 m) = core + 1 then
          s.setBox m ((s.box m).setSide false { (s.box m).e0 with ready := true }) else s
      if s.get (F.MBX_CFG.END1 m) = core + 1 then
        s.setBox m ((s.box m).setSide true { (s.box m).e1 with ready := true }) else s)

/-! ### Locks -/

/-- A read of a lock register (R338). -/
def State.lockRead (s : State) (req l : Nat) : State :=
  let o := s.get (F.LCK_l.OWNER l)
  let s := if o = 0 then s.put (F.LCK_l.OWNER l) req else s
  s.emit (.readData req (R.LCK_l l) o)

def execLckAcquireRead (t req lock : Nat) (s : State) : Res :=
  .next ((s.at t).asReader req (R.LCK_l lock) 8 (fun s => s.lockRead req lock))

/-- A write to a lock register (R338). -/
def State.lockWrite (s : State) (req l val : Nat) : State :=
  if val % 256 = req && s.get (F.LCK_l.OWNER l) = req && req ≠ 0 then s.put (F.LCK_l.OWNER l) 0 else s.put F.LCK_ERR.BAD_RELEASE 1

def execLckReleaseWrite (t req lock val : Nat) (s : State) : Res :=
  .next ((s.at t).asReq req (R.LCK_l lock) 8 val (fun s => s.lockWrite req lock val))

/-- A write to LCK_FORCE (R339). -/
def State.lockForce (s : State) (req val : Nat) : State :=
  if isControlCore req then s.put (F.LCK_l.OWNER (val % 64)) 0 else s.sysErr F.SYS_ERR.HOST_DENIED req 8 R.LCK_FORCE

def execLckForce (t req val : Nat) (s : State) : Res :=
  .next ((s.at t).asReq req R.LCK_FORCE 8 val (fun s => s.lockForce req val))

end Sys2Proof.Machine
end

