-- ==== Sys2Proof/Machine/Stand.lean ====
section
/-!
DEFINITION. The stand tiles (R127–R191) and the dispatch of slices (R237–R240): layer runs with delta gating and
approximation, halos, the handover of features, the loss of a tile, and the tile commit group.
-/

namespace Sys2Proof.Machine

/-! ### Groups and tiles -/

/-- Class of a stream (R225). -/
def State.classRow (s : State) (c : Nat) : ClassRow := tabGet ⟨2000, 8, false⟩ s.adm.classes c
def State.streamClass (s : State) (i : Nat) : ClassRow := s.classRow (s.get (F.HG_STREAM_CTL.CLASS i))

def State.isAdmitted (s : State) (i : Nat) : Bool := s.adm.admitted.testBit i

/-- Group of a tile, if it is enabled and the group counts it among its members (R135, R154, R528). -/
def State.tileGroup (s : State) (t : Nat) : Option Nat :=
  if t < 48 && s.flag (F.ST_CTL.ENABLE t) && (s.get (F.ST_GRP_STAT.TILES (s.get (F.ST_CTL.IMAGE t)))).testBit t then
    some (s.get (F.ST_CTL.IMAGE t))
  else none

/-- A tile becomes a member of its group, or ceases to be one. -/
def State.enrol (s : State) (t : Nat) (isIn : Bool) : State :=
  let f := F.ST_GRP_STAT.TILES (s.get (F.ST_CTL.IMAGE t))
  s.put f (if isIn then s.get f ||| 2 ^ t else setMinus (s.get f) (2 ^ t))

/-- Enabled tiles of a group, and those in service. -/
def State.groupTiles (s : State) (g : Nat) : List Nat := (List.range 48).filter (fun t => s.tileGroup t = some g)
def State.liveTiles (s : State) (g : Nat) : List Nat := (s.groupTiles g).filter (fun t => s.get (F.ST_STAT.STATE t) ≠ 4)

/-- Layers of a group's image. -/
def State.groupLayers (s : State) (g : Nat) : List Layer :=
  match s.slot g with
  | some x => x.image.layers
  | none => []

/-- Parts of a layer that a tile took over from lost tiles: its shares (R140). -/
def State.takenParts (s : State) (g t : Nat) (l : Layer) : List LayerPart :=
  let live := s.liveTiles g
  let held := live.map (fun f => s.get (F.ST_CTL.POSITION f))
  ((l.parts.filter (fun p => !held.contains p.position)).map (fun p => p.share (live.idxOf t) live.length)).filter (fun p => p.ch0 < p.ch1)

/-- Parts of a layer that a tile runs: those of its position, and its shares of those of lost tiles (R136, R140). -/
def State.ownedParts (s : State) (g t : Nat) (l : Layer) : List LayerPart :=
  l.parts.filter (fun p => p.position = s.get (F.ST_CTL.POSITION t)) ++ s.takenParts g t l

/-- Refuge pages that the shares of a tile take (R140). -/
def State.refugePages (s : State) (g t : Nat) : Nat :=
  ceilDiv (sumNat ((s.groupLayers g).map (fun l => sumNat ((s.takenParts g t l).map l.partBytes)))) 4096

/-- Layers that a tile owes of each slice, in order. -/
def State.owed (s : State) (g t : Nat) : List Nat :=
  let ls := s.groupLayers g
  (List.range ls.length).filter (fun i => match ls[i]? with
    | some l => !(s.ownedParts g t l).isEmpty
    | none => false)

/-! ### Eligibility and dispatch -/

/-- Deadline key of a slice (R237). -/
def State.deadlineKey (s : State) (d : SliceDesc) : Nat := d.k * s.sliceNs d.stream + d.early + 1000 * (s.streamClass d.stream).d

/-- Count frames of a slice have arrived (R120, R237). -/
def State.framesIn (s : State) (d : SliceDesc) : Bool :=
  (s.standPops d.stream).all (fun p =>
    decide ((d.k + 1) * s.sliceNs d.stream / (s.get (F.FW_POP_CTL.WINDOW p) * s.stepNs) ≤ tabGet 0 s.fw.written p))

/-- A slice in the input queue is eligible: its descriptor is committed in the stream's queue, its count frames have arrived,
and no older slice of the stream waits (R65, R237). -/
def State.eligible (s : State) (d : SliceDesc) : Bool :=
  s.framesIn d && s.committed s.mm.inQ d.stream [d.bytes] && !s.sd.input.any (fun e => e.stream = d.stream && e.k < d.k)

/-- Streams of the eligible slices of a group, admitted or not. -/
def State.eligibleOf (s : State) (g : Nat) : List SliceDesc :=
  s.sd.input.filter (fun d => s.slotFor d.stream d.k = some g && s.eligible d)

/-- The run that an eligible slice starts (R147, R237). -/
def State.startRun (s : State) (g : Nat) (d : SliceDesc) : SliceRun :=
  let epoch := match s.slot g with
    | some x => x.epoch
    | none => 0
  { desc := d, key := s.deadlineKey d, slot := g, epoch := epoch, admitted := s.isAdmitted d.stream
    full := (tabFind s.sd.origin d.stream).isNone || s.sd.fresh.contains d.stream || tabFind s.sd.epochs d.stream ≠ some epoch
    done := [], held := false, outs := [], scales := [], maps := [], frames := [] }

/-- A layer of a slice is complete at every tile that owes it. -/
def State.layerDone (s : State) (g : Nat) (r : SliceRun) (l : Nat) : Bool :=
  (s.liveTiles g).all (fun u => ((s.owed g u).filter (fun x => x ≤ l)).length ≤ tabGet 0 r.done u)

/-- The next layer that a slice owes at a tile, when every layer before it is complete at every tile (R136, R238), and so is, in
the stream's older slices, each layer whose state it reads (R188). -/
def State.nextLayer (s : State) (g t : Nat) (r : SliceRun) : Option Nat :=
  match (s.owed g t).drop (tabGet 0 r.done t) with
  | [] => none
  | l :: _ =>
    let states := match (s.groupLayers g)[l]? with
      | some x => x.states
      | none => []
    if (s.liveTiles g).all (fun u => ((s.owed g u).filter (fun x => x < l)).length ≤ tabGet 0 r.done u) &&
        states.all (fun n => s.sd.runs.all (fun q => q.desc.stream ≠ r.desc.stream || decide (r.desc.k ≤ q.desc.k) || s.layerDone g q n))
    then some l else none

/-- The better of two candidates: slices of streams admitted at their dispatch first, then the smaller deadline key, then the lower
stream (R238, R240, R242). -/
def SliceRun.better (a b : SliceRun) : Bool :=
  if a.admitted ≠ b.admitted then a.admitted
  else if a.key ≠ b.key then decide (a.key < b.key)
  else decide (a.desc.stream < b.desc.stream) || (a.desc.stream = b.desc.stream && decide (a.desc.k ≤ b.desc.k))

/-- The best of a list of candidates. -/
def bestRun : List SliceRun → Option SliceRun
  | [] => none
  | r :: rs => match bestRun rs with
    | none => some r
    | some q => if r.better q then some r else some q

/-- Committed count frames of a slice, to be retained until its handover (R120, R139). -/
def State.sliceFrames (s : State) (i t : Nat) : List (List (List Byte)) :=
  (s.standPops i).flatMap (fun p =>
    let x := s.queue (s.get (F.FW_POP_DEST.QUEUE p))
    (x.kept.take x.sent).filter (frameBefore p t))

/-- A slice leaves the input queue and is dispatched, with its count frames (R120, R237, R246, R247). -/
def State.admitRun (s : State) (g t : Nat) (r : SliceRun) : State :=
  if s.sd.runs.any (fun q => q.desc.stream = r.desc.stream && q.desc.k = r.desc.k) then s
  else
    let overtakes := s.sd.runs.any (fun q => q.slot = g && r.key < q.key && (s.nextLayer g t q).isSome)
    let i := r.desc.stream
    let tk := (r.desc.k + 1) * s.sliceNs i
    let s := { s with sd := { s.sd with
      input := s.sd.input.filter (fun d => !(d.stream = i && d.k = r.desc.k))
      runs := s.sd.runs ++ [{ r with frames := s.sliceFrames i tk }]
      dispatched := tabInsert s.sd.dispatched i r.desc.k, fresh := s.sd.fresh.filter (fun j => j ≠ i)
      epochs := tabInsert s.sd.epochs i r.epoch
      origin := if r.full then tabInsert s.sd.origin i r.desc.k else s.sd.origin } }
    let s := (s.take s.mm.inQ i [r.desc.bytes]).takeFrames i tk
    let s := if s.isAdmitted i then s.bump (R.ST_GRP_CNT_DISP g) else s.bump (R.ST_GRP_CNT_BKG g)
    if overtakes then s.bump (R.ST_GRP_CNT_PREEMPT g) else s

/-- A producer that waits for a halo slot holds its tile (R178). -/
def State.holding (s : State) (t : Nat) : Bool := s.sd.holds.any (fun p => p.1 / 65536 = t)

/-- The dispatcher gives a tile its next layer (R238, R240), if the group runs. -/
def State.dispatch (s : State) (g t : Nat) : State :=
  let st := s.get (F.ST_GRP_STAT.STATE g)
  if s.dead || !(st = 1 || st = 3) || s.get (F.ST_STAT.STATE t) = 4 || s.holding t then s
  else
    let runs := s.sd.runs.filter (fun r => r.slot = g && !r.held)
    let new := (s.eligibleOf g).map (s.startRun g)
    match bestRun ((runs ++ new).filter (fun r => (s.nextLayer g t r).isSome)) with
    | none => s.put (F.ST_STAT.STATE t) 1
    | some r =>
      let l := (s.nextLayer g t r).getD 0
      let s := s.admitRun g t r
      let s := { s with sd := { s.sd with jobs := tabInsert s.sd.jobs t ⟨r.desc.stream, r.desc.k, l, none⟩ } }
      let s := ((s.put (F.ST_STAT.STREAM t) r.desc.stream).put (F.ST_STAT.LAYER t) l).put (F.ST_STAT.STATE t) 2
      let s := s.put (F.ST_HALO_STAT.GEN_EXPECT t) (tabGet 0 s.sd.gens (256 * t + l))
      s.setReg (R.ST_SLICE t) (BitVec.ofNat 64 r.desc.k)

/-! ### Halos -/

/-- CCLK, MHz, at the present operating point (R130, R230). -/
def opMHz (p : Nat) : Nat := if p = 0 then 2400 else if p = 1 then 1600 else if p = 2 then 1200 else 800

/-- CCLK cycles in a time. -/
def State.cycles (s : State) (ns : Nat) : Nat := ns * opMHz (s.get F.PWR_DVFS.CURRENT) / 1000

/-- Tile at a position of a group. -/
def State.tileAt (s : State) (g pos : Nat) : Option Nat := (s.liveTiles g).find? (fun t => s.get (F.ST_CTL.POSITION t) = pos)

/-- What a consumer finds in the slot that it needs (R178, R179). -/
inductive HaloFind where
  | ready | wait | wrong
  deriving DecidableEq, Repr

/-- The slot of generation `e` from one producer (R178, R179): absent, or holding generation e − 2 or e − 1, it makes the
consumer wait; another generation, or another stream or slice, is an error. -/
def State.haloFind (s : State) (t p l e : Nat) (j : TileJob) : HaloFind :=
  match s.sd.halos.find? (fun h => h.consumer = t && h.producer = p && h.layer = l && h.gen % 2 = e % 2) with
  | none => .wait
  | some h =>
    if h.gen = e % 2 ^ 32 then (if h.stream = j.stream && h.k = j.k && !h.released then .ready else .wrong)
    else if (h.gen + 2) % 2 ^ 32 = e % 2 ^ 32 || (h.gen + 1) % 2 ^ 32 = e % 2 ^ 32 then .wait
    else .wrong

/-- Producers that a tile's parts of a layer wait for. -/
def State.producers (s : State) (g t : Nat) (l : Layer) : List Nat :=
  ((s.ownedParts g t l).flatMap (fun p => p.feeds)).filterMap (fun pos => match s.tileAt g pos with
    | some u => if u = t then none else some u
    | none => none)

/-- The halo that producer `t` owes consumer `c` of layer `l` (R176, R181): rows of the feeding layer that the consumer's parts
read and the producer's parts compute, with the complete current outputs of the producer in them. -/
def State.haloRows (s : State) (g t c : Nat) (l : Layer) (r : SliceRun) : Nat × List (Nat × Nat) :=
  match l.feeder with
  | none => (0, [])
  | some n => match (s.groupLayers g)[n]? with
    | none => (0, [])
    | some f =>
      let need := dedup ((s.ownedParts g c l).flatMap l.inputRows)
      let mine := (s.ownedParts g t f).flatMap (fun p => (f.places p).filter (fun q => need.contains q.oy))
      let outs := tabGet [] r.outs n
      ((dedup (mine.map (fun q => q.oy))).length, mine.map (fun q => (q.idx, tabGet 0 outs q.idx)))

/-- The producer has completed its parts of the layer that feeds layer `l` in the slice. -/
def State.feederDone (s : State) (g t : Nat) (l : Layer) (r : SliceRun) : Bool :=
  match l.feeder with
  | none => false
  | some n => decide (((s.owed g t).filter (fun x => x ≤ n)).length ≤ tabGet 0 r.done t)

/-- A corrected error in the SRAM of a tile is reported and interrupts nothing (R128). -/
def State.sramCorrected (s : State) (t : Nat) : State := (s.put (F.ST_ERR.SRAM_CE t) 1).corrected pTile t 1 0 0

/-- A producer publishes the next generation of its edge rows once the slot is free; until then it holds (R178, R181). -/
def State.haloPublish (s : State) (t c j i k : Nat) : State :=
  match s.tileGroup t, s.sd.runs.find? (fun r => r.desc.stream = i && r.desc.k = k) with
  | some g, some r => (match (s.groupLayers g)[j]? with
    | none => s
    | some l =>
      if s.tileGroup c ≠ some g || r.slot ≠ g || !s.feederDone g t l r then s
      else
        let key := 65536 * t + 256 * c + j
        let gen := tabGet 0 s.sd.pubs key
        let same := fun (h : HaloSlot) => h.consumer = c && h.producer = t && h.layer = j && h.gen % 2 = gen % 2
        if s.sd.halos.any (fun h => same h && !h.released) then
          { s with sd := { s.sd with holds := tabInsert s.sd.holds key (tabGet s.time s.sd.holds key) } }
        else
          let s := match tabFind s.sd.holds key with
            | some t0 => s.bumpBy (R.ST_CNT_HALO_HOLD t) (s.cycles (s.time - t0))
            | none => s
          let rows := s.haloRows g t c l r
          let s := { s with sd := { s.sd with
            halos := s.sd.halos.filter (fun h => !same h) ++ [(⟨c, t, j, gen % 2 ^ 32, i, k, rows.1, rows.2, false⟩ : HaloSlot)]
            pubs := tabInsert s.sd.pubs key (gen + 1), holds := tabErase s.sd.holds key } }
          s.put (F.ST_HALO_STAT.GEN_PUB t) gen)
  | _, _ => s

def execHaloPublish (t tile consumer layer stream k : Nat) (corrected : Bool) (s : State) : Res :=
  .next ((if corrected then (s.at t).sramCorrected tile else s.at t).haloPublish tile consumer layer stream k)

/-- Generations of a group restart and its halo slots are emptied (R180). -/
def State.haloRestart (s : State) (g : Nat) : State :=
  let mine := fun t => s.tileGroup t = some g
  { s with sd := { s.sd with
    halos := s.sd.halos.filter (fun h => !mine h.consumer), gens := s.sd.gens.filter (fun p => !mine (p.1 / 256))
    pubs := s.sd.pubs.filter (fun p => !mine (p.1 / 65536)), holds := s.sd.holds.filter (fun p => !mine (p.1 / 65536)) } }

/-! ### Losing a tile -/

/-- Slices of a group are held and restart from their retained inputs; each stream's first slice from now on is refreshed in
full and is its refresh origin; deadline keys stay (R140, R142, R147, R239). -/
def State.restartGroup (s : State) (g : Nat) (held : Bool) : State :=
  let streams := streamsOf (s.slotStreams g)
  let mine := s.sd.runs.filter (fun r => r.slot = g)
  let oldest := fun (r : SliceRun) => !mine.any (fun q => q.desc.stream = r.desc.stream && q.desc.k < r.desc.k)
  let runs := fun (i : Nat) => mine.any (fun r => r.desc.stream = i)
  { s with sd := { s.sd with
    runs := s.sd.runs.map (fun r => if r.slot = g then
      { r with done := [], outs := [], scales := [], maps := [], full := oldest r, held := held } else r)
    origin := mine.foldl (fun t r => if oldest r then tabInsert t r.desc.stream r.desc.k else t) s.sd.origin
    jobs := s.sd.jobs.filter (fun p => s.tileGroup p.1 ≠ some g)
    fresh := s.sd.fresh ++ streams.filter (fun i => !s.sd.fresh.contains i && !runs i) } }

/-- Slices of a group that is out of service wait in the input queue for an image that serves their streams (R142). -/
def State.shelve (s : State) (g : Nat) : State :=
  let mine := s.sd.runs.filter (fun r => r.slot = g)
  let back := mine.map (fun r => r.desc)
  { s with sd := { s.sd with
    input := back ++ s.sd.input, runs := s.sd.runs.filter (fun r => r.slot ≠ g)
    jobs := s.sd.jobs.filter (fun p => s.tileGroup p.1 ≠ some g)
    fresh := s.sd.fresh ++ (dedup (back.map (fun d => d.stream))).filter (fun i => !s.sd.fresh.contains i) } }

/-- Streams whose admission a group's loss withdraws: those that its image serves. -/
def State.groupImageStreams (s : State) (g : Nat) : Nat := s.slotStreams g

/-- Tiles in service. -/
def State.tilesUp (s : State) : Nat := ((List.range 48).filter (fun u => s.get (F.ST_STAT.STATE u) ≠ 4)).length

/-- A tile fails (R128, R140–R142; conditions as R128 lists them, 0 for a halo error): the survivors begin to absorb it, or a
whole-group remap begins, or the group goes out of service.  The failed tile leaves its group; one without a group is only
out of service. -/
def State.tileFail (s : State) (t cond flags : Nat) : State :=
  if s.get (F.ST_STAT.STATE t) = 4 then s
  else
    let s := if cond = 1 then s.put (F.ST_ERR.SRAM_UE t) 1 else if cond = 3 then s.put (F.ST_ERR.SEQ_TRAP t) 1 else s
    match s.tileGroup t with
    | none =>
      let s := (s.put (F.ST_STAT.STATE t) 4).endReset (9 + t)
      let s := s.singlePartFault pTile t cond 0 0 s.tilesUp flags
      (s.degraded pTile t cond 0 s.tilesUp flags s.adm.floor).askCapacity
    | some g =>
      let n := (s.groupTiles g).length
      let streams := s.slotStreams g
      let noRemap := match s.slot g with
        | some x => x.image.noRemap
        | none => true
      let st := s.get (F.ST_GRP_STAT.STATE g)
      let compact := s.get (F.ST_GRP_STAT.LAYOUT g) = 1 || (2 ≤ st && st ≤ 5) || n < 5
      let s := (s.haloRestart g).restartGroup g true
      let s := ((s.put (F.ST_STAT.STATE t) 4).enrol t false).endReset (9 + t)
      let s := s.singlePartFault pTile t cond streams 0 s.tilesUp flags
      let s := if !compact then
          (s.each (s.liveTiles g) (fun s u => s.put (F.ST_STAT.STATE u) 3)).put (F.ST_GRP_STAT.STATE g) 2
        else if noRemap || st = 5 then ((s.shelve g).put (F.ST_GRP_STAT.STATE g) 5).withdraw streams
        else
          let s := s.each (s.liveTiles g) (fun s u => s.put (F.ST_STAT.STATE u) 5)
          (s.put (F.ST_GRP_STAT.STATE g) 4).beginSusp cRemap streams 0
      (s.degraded pTile t cond streams s.tilesUp flags s.adm.floor).askCapacity

def execTileFault (t tile cond : Nat) (s : State) : Res := .next ((s.at t).tileFail tile cond (s.testFlag pTile tile))

/-- The held slices of a group go on. -/
def State.release (s : State) (g : Nat) : State :=
  { s with sd := { s.sd with runs := s.sd.runs.map (fun r => if r.slot = g then { r with held := false } else r) } }

/-- The survivors have loaded their shares: ABSORBED, and the held slices restart (R140, steps 3 and 4); the model takes it at
the next layer boundary of the group (DESIGN CHOICE, log entry 83). -/
def State.absorbDone (s : State) (g : Nat) : State :=
  if s.get (F.ST_GRP_STAT.STATE g) ≠ 2 then s
  else
    let s := s.each (s.liveTiles g) (fun s u =>
      (s.put (F.ST_STAT.REFUGE_USED u) (min 4095 (s.refugePages g u))).put (F.ST_STAT.STATE u) 1)
    (s.release g).put (F.ST_GRP_STAT.STATE g) 3

/-- The survivors of a compact group are loaded in their reduced layout, and the held slices restart (R142). -/
def State.remapDone (s : State) (g : Nat) : State :=
  if s.get (F.ST_GRP_STAT.STATE g) ≠ 4 then s
  else
    let s := s.each (s.liveTiles g) (fun s u => s.put (F.ST_STAT.STATE u) 1)
    ((s.release g).put (F.ST_GRP_STAT.STATE g) 3).endSusp cRemap (s.slotStreams g) 0

def execGroupRemapComplete (t group : Nat) (s : State) : Res := .next ((s.at t).remapDone group)

/-! ### Layer boundaries -/

/-- An activation that a layer of slice `r` reads (R136, R182, R188): the state of a stream is zero in a slice that R147
refreshes. -/
def State.actOf (s : State) (r : SliceRun) (src : Src) (given : Act) : Act :=
  match src with
  | .slice => given
  | .layer n => ⟨tabValues (tabGet [] r.outs n), tabGet [] r.scales n⟩
  | .map n => match (s.groupLayers r.slot)[n]?, tabFind r.maps n with
    | some l, some m => if l.fmc = 0 then ⟨tabValues (tabGet [] r.outs n), tabGet [] r.scales n⟩ else ⟨fmcMap l m.2, []⟩
    | _, _ => ⟨[], []⟩
  | .state n => if r.full then ⟨[], []⟩
    else match s.sd.carried.find? (fun c => c.stream = r.desc.stream && c.layer = n) with
      | some c => ⟨tabValues c.outs, c.scales⟩
      | none => ⟨[], []⟩
  | .member _ _ => ⟨[], []⟩
  | .grid => ⟨[], []⟩

/-- The input of a layer at a tile: rows that neighbours computed come from the halo slots (R176, R178). -/
def State.layerIn (s : State) (t j e : Nat) (l : Layer) (r : SliceRun) (run : LayerRun) : LayerIn :=
  let x := s.actOf r l.src ⟨run.x, run.xScales⟩
  let halo := (s.sd.halos.filter (fun h => h.consumer = t && h.layer = j && h.gen = e % 2 ^ 32)).flatMap (fun h => h.rows)
  let codes := match l.src with
    | .layer n => tabValues (halo.foldl (fun o p => tabInsert o p.1 p.2) (tabGet [] r.outs n))
    | _ => x.codes
  ⟨{ x with codes := codes }, s.actOf r l.src2 ⟨run.x2, run.x2Scales⟩, s.actOf r l.src3 ⟨[], []⟩⟩

/-- Evidence offset of a slice (R195). -/
def SliceDesc.evidence (d : SliceDesc) (period : Nat) : Nat :=
  if d.guardClosed then maxNat (d.acc.events.map (fun e => e % 2 ^ 32)) else period

/-- The feature word of a packet (R195). -/
def featureWord (i fmc c w h k addr exp e epoch : Nat) : List Byte :=
  fieldsBytes [(1, 3), (1, i), (1, fmc), (1, c), (2, w), (2, h), (8, k), (6, addr), (1, exp), (1, 0), (4, e), (8, epoch), (28, 0)]

/-- Place and greatest length of the map that a feature word names (R195): 258 bytes hold 64 values of a position in any form. -/
def mapSpan (w : List Byte) : Nat × Nat :=
  (fieldAt w 16 6, 64 * ceilDiv (258 * ceilDiv (fieldAt w 3 1) 64 * fieldAt w 4 2 * fieldAt w 6 2) 64)

/-- Maps in DRAM that nothing may overwrite yet: those of running slices, and those retained with their feature words (R196). -/
def State.mapsHeld (s : State) : List (Nat × Nat) :=
  s.sd.runs.flatMap (fun r => r.maps.map (fun m => (m.2.1, m.2.2.length))) ++ s.sd.outq.map (fun p => mapSpan p.2) ++
    s.cp.groups.flatMap (fun p => (p.2.feats ++ p.2.present ++ (p.2.fusing ++ p.2.retained).flatMap (fun r => r.reflected)).map
      (fun f => mapSpan f.word1))

/-- The first 64-byte boundary from `a` on at which `n` bytes meet none of the spans `l`, in as many rounds as there are spans. -/
def clearOf (l : List (Nat × Nat)) (n : Nat) : Nat → Nat → Nat
  | 0, a => a
  | k + 1, a => match l.find? (fun p => p.1 < a + n && a < p.1 + p.2) with
    | none => a
    | some p => clearOf l n k (64 * ceilDiv (p.1 + p.2) 64)

/-- A layer is complete at every tile: its state is carried to the stream's next slice (R188), and a map that the layer program
writes goes to DRAM, compressed in the layer's mode, at a 64-byte boundary clear of every retained map (R136, R182–R185,
R196). -/
def State.layerComplete (s : State) (t j : Nat) (ls : List Layer) (l : Layer) (r : SliceRun) : State × SliceRun :=
  let i := r.desc.stream
  let outs := tabGet [] r.outs j
  let bound := ls.any (fun x => x.states.contains j)
  let s := if bound then { s with sd := { s.sd with
      carried := s.sd.carried.filter (fun c => !(c.stream = i && c.layer = j)) ++ [(⟨i, j, outs, tabGet [] r.scales j⟩ : Carried)] } }
    else s
  if !(l.writes || j = handLayer ls) then (s, r)
  else
    let vals := tabValues outs
    let c := if l.fmc = 0 then ⟨padTo 64 (vals.flatMap (codeBytes l.outFmt)), 0, 0, false⟩ else fmcEncode l.fmc (toSigned 6 l.fmcExp) l.cout vals
    let held := s.mapsHeld
    let addr := clearOf held c.bytes.length held.length (64 * (s.freeVal .featureAddr % 2 ^ 30))
    let s := s.tickFree
    let s := { s with mem := memPutAll s.mem addr c.bytes }
    let s := (s.bumpBy (R.ST_CNT_FMC_BLK t) c.blocks).bumpBy (R.ST_CNT_FMC_CLAMP t) c.clamped
    let s := if c.clamped ≠ 0 then s.put (F.ST_OPS_ERR.FMC_RANGE t) 1 else s
    let s := if c.nonfinite then s.put (F.ST_OPS_ERR.FMC_NONFIN t) 1 else s
    (s, { r with maps := tabInsert r.maps j (addr, c.bytes) })

/-- A slice's features are handed to the coppice unit, once per stream and slice, through the stream's output queue (R137,
R195). -/
def State.handOver (s : State) (r : SliceRun) : State :=
  let ls := s.groupLayers r.slot
  let i := r.desc.stream
  let n := handLayer ls
  let s := { s with sd := { s.sd with runs := s.sd.runs.filter (fun q => !(q.desc.stream = i && q.desc.k = r.desc.k)) } }
  if reached (tabFind s.sd.handed i) r.desc.k then s
  else match ls[n]? with
    | none => s
    | some l =>
      let word := featureWord i l.fmc l.cout l.outDims.2 l.outDims.1 r.desc.k ((tabFind r.maps n).getD (0, [])).1
        (fromSigned 8 (toSigned 6 l.fmcExp)) (r.desc.evidence (s.sliceNs i)) r.epoch
      { s with sd := { s.sd with handed := tabInsert s.sd.handed i r.desc.k, outq := s.sd.outq ++ [(r.desc.bytes, word)] } }.give
        s.mm.outQ i [r.desc.bytes, word]

/-- What a run at a tile shows in the tile's counters and error bits (R131, R133, R155, R169, R191). -/
def State.countRun (s : State) (t : Nat) (o : LayerOut) (corrected : Bool) : State :=
  let s := (s.bump (R.ST_CNT_SLICE t)).bumpBy (R.ST_CNT_BLK t) o.blocks
  let s := (s.bumpBy (R.ST_CNT_BLK_CHG t) o.changed).bumpBy (R.ST_CNT_REFRESH t) (bit o.refreshed)
  let s := (s.bumpBy (R.ST_CNT_TRUNC t) o.trunc).bumpBy (R.ST_CNT_SKIP t) o.skipped
  let s := (s.bumpBy (R.ST_CNT_ARRAY t) o.array).bumpBy (R.ST_CNT_VEC t) o.vec
  let s := (s.bumpBy (R.ST_CNT_PAD_SKIP t) o.padSkip).bumpBy (R.ST_CNT_RS_DEGEN t) o.degen
  let s := if o.sat then s.put (F.ST_ERR.ACC_SAT t) 1 else s
  let s := if o.nan then s.put (F.ST_ERR.FP_NAN t) 1 else s
  let s := if o.boxOvf then s.put (F.ST_OPS_ERR.BOX_OVF t) 1 else s
  if corrected then s.sramCorrected t else s

/-- A full refresh of layer `j` in slice `k` (R146, R147). -/
def State.refreshes (s : State) (r : SliceRun) (j : Nat) (l : Layer) : Bool :=
  r.full || (r.desc.k - tabGet r.desc.k s.sd.origin r.desc.stream) % max l.period 1 = j % max l.period 1

/-- The layer at a tile ends: its halos are read and released, its outputs and counters follow, and a slice whose layers are
all complete is handed over. -/
def State.finishLayer (s : State) (g t : Nat) (j : TileJob) (run : LayerRun) : State :=
  match s.sd.runs.find? (fun r => r.desc.stream = j.stream && r.desc.k = j.k), (s.groupLayers g)[j.layer]? with
  | some r, some l =>
    let e := tabGet 0 s.sd.gens (256 * t + j.layer)
    let finds := (s.producers g t l).map (fun p => s.haloFind t p j.layer e j)
    if finds.contains .wrong then (s.put (F.ST_OPS_ERR.HALO_ERR t) 1).tileFail t 0 0
    else if finds.contains .wait then
      { s with sd := { s.sd with jobs := tabInsert s.sd.jobs t { j with waitSince := some (j.waitSince.getD s.time) } } }
    else
      let s := match j.waitSince with
        | some t0 => s.bumpBy (R.ST_CNT_HALO_WAIT t) (s.cycles (s.time - t0))
        | none => s
      let mine := fun (x : LayerSt) => x.stream = j.stream && x.layer = j.layer && x.tile = t
      let old := if r.full then none else s.sd.layers.find? mine
      let o := layerRun l old ⟨j.stream, j.layer, t, [], [], [], []⟩ (s.refreshes r j.layer l) (s.ownedParts g t l)
        (s.layerIn t j.layer e l r run) run
      let outs := o.outs.foldl (fun u p => tabInsert u p.1 p.2) (tabGet [] r.outs j.layer)
      let r := { r with
        done := tabInsert r.done t (tabGet 0 r.done t + 1), outs := tabInsert r.outs j.layer outs
        scales := if run.yScales.isEmpty then r.scales else tabInsert r.scales j.layer run.yScales }
      let s := { s with sd := { s.sd with
        layers := s.sd.layers.filter (fun x => !mine x) ++ (if l.deltaEn then [o.st] else [])
        jobs := tabErase s.sd.jobs t, gens := tabInsert s.sd.gens (256 * t + j.layer) (e + 1)
        halos := s.sd.halos.map (fun (h : HaloSlot) =>
          if h.consumer = t && h.layer = j.layer && h.gen = e % 2 ^ 32 then { h with released := true } else h) } }
      let s := s.countRun t o run.corrected
      let p := if s.layerDone g r j.layer then s.layerComplete t j.layer (s.groupLayers g) l r else (s, r)
      let s := { p.1 with sd := { p.1.sd with
        runs := p.1.sd.runs.map (fun (q : SliceRun) => if q.desc.stream = j.stream && q.desc.k = j.k then p.2 else q) } }
      if (s.liveTiles g).all (fun u => (s.owed g u).length ≤ tabGet 0 p.2.done u) then s.handOver p.2 else s
  | _, _ => { s with sd := { s.sd with jobs := tabErase s.sd.jobs t } }

/-- A tile reaches a layer boundary: the layer in progress ends, and the dispatcher gives it the next (R238); a tile that holds
stays where it is (R178). -/
def State.layerBoundary (s : State) (t : Nat) (run : LayerRun) : State :=
  match s.tileGroup t with
  | none => s
  | some g =>
    let s := s.absorbDone g
    if s.holding t then s
    else
      let s := match tabFind s.sd.jobs t with
        | some j => s.finishLayer g t j run
        | none => s
      match tabFind s.sd.jobs t with
      | some _ => s
      | none => s.dispatch g t

def execLayerBoundary (t tile : Nat) (run : LayerRun) (s : State) : Res := .next ((s.at t).layerBoundary tile run)

/-! ### Tile commit group -/

/-- First failing check of a tile group (R154). -/
def State.stCode (s : State) (t : Nat) : Nat :=
  let on := s.st (F.ST_CTL.ENABLE t) = 1
  let base := 4096 * s.st (F.ST_DELTA_BASE.BASE t)
  let size := 0x100000 * s.st (F.ST_DELTA_SIZE.SIZE_MIB t)
  let onlyEnable := setBits (s.shadowReg (R.ST_CTL t)) 0 0 0 = setBits (s.reg (R.ST_CTL t)) 0 0 0
  firstCode [
    (0x01, s.st (F.ST_CTL.POSITION t) > 47 || s.st (F.ST_LAYOUT.REFUGE_PAGES t) > 2048 || s.st (F.ST_DELTA_SIZE.SIZE_MIB t) > 32768),
    (0x06, s.flag (F.ST_CTL.ENABLE t) && (!onlyEnable || s.regChanged (R.ST_LAYOUT t) || s.regChanged (R.ST_DELTA_BASE t) ||
      s.regChanged (R.ST_DELTA_SIZE t))),
    (0x0D, on && size ≠ 0 && !s.regions.any (fun r => r.affine && r.stop = stopOfTile t && r.base ≤ base && base + size ≤ r.base + r.size)),
    (0x0E, s.st (F.ST_LAYOUT.LAYOUT t) = 0 && s.st (F.ST_LAYOUT.REFUGE_PAGES t) < 410)]

/-- A write to ST_COMMIT (R154). -/
def State.stCommit (s : State) (req t val : Nat) : State :=
  let was := s.flag (F.ST_CTL.ENABLE t)
  let s := s.commitNow req (R.ST_COMMIT t) val (s.stCode t)
  let now := s.flag (F.ST_CTL.ENABLE t)
  if was = now then s else (s.enrol t now).put (F.ST_STAT.STATE t) (bit now)

def execStCommit (t req tile val : Nat) (s : State) : Res :=
  .next ((s.at t).asReq req (R.ST_COMMIT tile) 4 val (fun s => s.stCommit req tile val))

end Sys2Proof.Machine
end

