-- ==== Sys2Proof/Machine/Tracks.lean ====
section
/-!
DEFINITION. Track slots (R209–R212, R216): detections, the slot pass and the track report.  FP32 values are held as their
bits; a chain of operations is evaluated left to right, each rounded to nearest even (DEDUCED, log entry 21).
-/

namespace Sys2Proof.Machine

/-! ### Slots -/

def Slot.free : Slot := ⟨0, 0, 0, 0, 0, 0, 0, 0, 0, 0, [0, 0, 0, 0], 0, [0, 0, 0], List.replicate 10 0, []⟩

def State.track (s : State) (i : Nat) : Slot := tabGet Slot.free s.cp.slots i

def State.setTrack (s : State) (i : Nat) (x : Slot) : State := { s with cp := { s.cp with slots := tabSet Slot.free s.cp.slots i x } }

/-- First slot and number of slots of a group's pool. -/
def State.pool (s : State) (g : Nat) : Nat × Nat := (s.get (F.CP_GRP_SLOTS.FIRST g), s.get (F.CP_GRP_SLOTS.COUNT g))

/-- The slots of a group that are not FREE, in rising index. -/
def State.usedSlots (s : State) (g : Nat) : List (Nat × Slot) :=
  s.cp.slots.filter (fun p => (s.pool g).1 ≤ p.1 && p.1 < (s.pool g).1 + (s.pool g).2 && p.2.state ≠ 0)

/-- A BF16 code as FP32 bits. -/
def bf (x : Nat) : Nat := x % 65536 * 65536

/-- FP32 rounded to BF16. -/
def toBf (x : Nat) : Nat := fmtBF16.encode (v32 x)

/-- The 1 KiB of a slot (R209). -/
def Slot.bytes (x : Slot) : List Byte :=
  (fieldsBytes [(1, x.state), (1, x.cls), (2, x.gen), (2, x.age), (2, x.hits), (8, x.last), (8, x.dormAt), (2, x.mask),
    (1, x.conf), (1, x.flags), (4, 0)] ++ x.pos.flatMap (leBytes 4) ++ leBytes 4 x.heading ++ x.size.flatMap (leBytes 4) ++
    x.cov.flatMap (leBytes 4) ++ zeros 24 ++ x.app.flatMap (leBytes 2) ++ zeros 896).take 1024

/-- A slot from its 1 KiB (R209). -/
def slotOfBytes (b : List Byte) : Slot :=
  let x : Slot := {
    state := fieldAt b 0 1
    cls := fieldAt b 1 1
    gen := fieldAt b 2 2 % 16384
    age := fieldAt b 4 2
    hits := fieldAt b 6 2
    last := fieldAt b 8 8
    dormAt := fieldAt b 16 8
    mask := fieldAt b 24 2
    conf := fieldAt b 26 1
    flags := fieldAt b 27 1
    pos := (List.range 4).map (fun j => fieldAt b (32 + 4 * j) 4)
    heading := fieldAt b 48 4
    size := (List.range 3).map (fun j => fieldAt b (52 + 4 * j) 4)
    cov := (List.range 10).map (fun j => fieldAt b (64 + 4 * j) 4)
    app := (List.range 448).map (fun j => fieldAt b (128 + 2 * j) 2) }
  if x.state = 0 then { Slot.free with gen := x.gen } else x

/-! ### Detections -/

/-- A detection (R210): FP32 values as bits. -/
structure Det where
  cell : Nat
  score : Nat
  x : Nat
  y : Nat
  sx : Nat
  sy : Nat
  size : List Nat
  heading : Nat
  cls : Nat
  emb : List Nat
  mask : Nat
  flags : Nat                   -- bits 1–3 as in a slot
  deriving DecidableEq, Repr

/-- Dot product, in order. -/
def fdot : List Nat → List Nat → Nat
  | a :: as, b :: bs => (as.zip bs).foldl (fun z p => fadd z (fmul p.1 p.2)) (fmul a b)
  | _, _ => 0

/-- A vector of unit length. -/
def fnormal (v : List Nat) : List Nat := v.map (fun a => fdiv a (fsqrt (fdot v v)))

/-- Index of the greatest value, ties to the lower index. -/
def argmax (l : List Nat) : Nat :=
  ((List.range l.length).foldl (fun b i => if flt (l.getD b 0) (l.getD i 0) then i else b) 0)

/-- Insert into a list sorted by a strict order, behind equals. -/
def insertBy {α : Type} (lt : α → α → Bool) (a : α) : List α → List α
  | [] => [a]
  | b :: bs => if lt a b then a :: b :: bs else b :: insertBy lt a bs

/-- Stable insertion sort. -/
def sortBy {α : Type} (lt : α → α → Bool) (l : List α) : List α := l.foldl (fun r a => insertBy lt a r) []

/-- The score of a cell at least a threshold over 255 or 128 (R210, R211). -/
def atLeast (v thr den : Nat) : Bool := !fvLt (fvMul (v32 v) (fvOf den 0)) (fvOf thr 0) && ffinite v

/-- A cell is a peak of its 3 × 3 neighbourhood (R210). -/
def isPeak (w h : Nat) (score : Nat → Nat) (c : Nat) : Bool :=
  let i := c % w
  let j := c / w
  (List.range 3).all (fun dj => (List.range 3).all (fun di =>
    let i2 := i + di
    let j2 := j + dj
    if i2 = 0 || j2 = 0 || i2 > w || j2 > h then true
    else
      let n := (j2 - 1) * w + (i2 - 1)
      n = c || !(flt (score c) (score n) || (n < c && score n = score c))))

/-- Side of a cell in metres. -/
def State.cellSide (s : State) (g : Nat) : Nat := fofRat (s.get (F.CP_GRP_GRID.CELL_CM g)) 100

/-- The detection that a cell gives (R210): positions in metres from the grid origin. -/
def State.detOf (s : State) (g c : Nat) (h : List Nat) (score mask flags : Nat) : Det :=
  let w := s.get (F.CP_GRP_GRID.CELLS_X g) + 1
  let side := s.cellSide g
  let at' := fun (n ch : Nat) => fmul (fadd (fofRat (2 * n + 1) 2) (bf (h.getD ch 0))) side
  { cell := c, score := score, x := at' (c % w) 1, y := at' (c / w) 2
    sx := bf (h.getD 56 0), sy := bf (h.getD 57 0)
    size := [3, 4, 5].map (fun ch => VFn.exp.app (bf (h.getD ch 0)))
    heading := angle32 (bf (h.getD 6 0)) (bf (h.getD 7 0))
    cls := argmax ((List.range 16).map (fun n => bf (h.getD (8 + n) 0)))
    emb := fnormal ((List.range 32).map (fun n => bf (h.getD (24 + n) 0)))
    mask := mask, flags := flags }

/-! ### The slot pass -/

/-- Covariance entry (i, j) of (x, y, vx, vy) in the upper triangle. -/
def covAt (c : List Nat) (i j : Nat) : Nat :=
  let a := min i j
  let b := max i j
  c.getD (4 * a - a * (a + 1) / 2 + b) 0

/-- Upper triangle given by a function. -/
def covOf (f : Nat → Nat → Nat) : List Nat :=
  (List.range 4).flatMap (fun i => ((List.range 4).filter (fun j => i ≤ j)).map (fun j => f i j))

/-- Half and third. -/
def fhalf (a : Nat) : Nat := fmul a 0x3F000000
def fthird (a : Nat) : Nat := fdiv a 0x40400000

/-- Prediction over dt seconds: constant velocity, white-acceleration noise of density q (R211). -/
def Slot.predict (x : Slot) (dt q : Nat) : Slot :=
  let p := covAt x.cov
  let dt2 := fmul dt dt
  let noise := fun (i j : Nat) =>
    if i = j && i < 2 then fmul q (fthird (fmul dt2 dt))
    else if j = i + 2 then fmul q (fhalf dt2)
    else if i = j then fmul q dt else 0
  let step := fun (i j : Nat) =>
    let base :=
      if j < 2 then fadd (fadd (p i j) (fmul dt (fadd (p i (j + 2)) (p (i + 2) j)))) (fmul dt2 (p (i + 2) (j + 2)))
      else if i < 2 then fadd (p i j) (fmul dt (p (i + 2) j))
      else p i j
    if noise i j = 0 then base else fadd base (noise i j)
  { x with
    pos := [fadd (x.pos.getD 0 0) (fmul dt (x.pos.getD 2 0)), fadd (x.pos.getD 1 0) (fmul dt (x.pos.getD 3 0)),
      x.pos.getD 2 0, x.pos.getD 3 0]
    cov := covOf step }

/-- Innovation covariance of a detection: (s11, s12, s22) and its determinant (R211). -/
def innovation (x : Slot) (d : Det) : Nat × Nat × Nat × Nat :=
  let s11 := fadd (covAt x.cov 0 0) (fmul d.sx d.sx)
  let s22 := fadd (covAt x.cov 1 1) (fmul d.sy d.sy)
  let s12 := covAt x.cov 0 1
  (s11, s12, s22, fsub (fmul s11 s22) (fmul s12 s12))

/-- Mahalanobis distance squared of a detection (R211). -/
def mahalanobis (x : Slot) (d : Det) : Nat :=
  let v := innovation x d
  let dx := fsub d.x (x.pos.getD 0 0)
  let dy := fsub d.y (x.pos.getD 1 0)
  let n := fadd (fsub (fmul (fmul dx dx) v.2.2.1) (fmul 0x40000000 (fmul (fmul dx dy) v.2.1))) (fmul (fmul dy dy) v.1)
  fdiv n v.2.2.2

/-- Kalman update of (x, y, vx, vy) with a detection's position (R211). -/
def Slot.update (x : Slot) (d : Det) : Slot :=
  let v := innovation x d
  let r := [fsub d.x (x.pos.getD 0 0), fsub d.y (x.pos.getD 1 0)]
  let gain := fun (i : Nat) =>
    let a := covAt x.cov i 0
    let b := covAt x.cov i 1
    (fdiv (fsub (fmul a v.2.2.1) (fmul b v.2.1)) v.2.2.2, fdiv (fsub (fmul b v.1) (fmul a v.2.1)) v.2.2.2)
  { x with
    pos := (List.range 4).map (fun i => fadd (x.pos.getD i 0) (fadd (fmul (gain i).1 (r.getD 0 0)) (fmul (gain i).2 (r.getD 1 0))))
    cov := covOf (fun i j => fsub (covAt x.cov i j)
      (fadd (fmul (gain i).1 (covAt x.cov 0 j)) (fmul (gain i).2 (covAt x.cov 1 j)))) }

/-- Mix of two values with a weight on the new one. -/
def fmix (w old new : Nat) : Nat := fadd (fmul (fsub 0x3F800000 w) old) (fmul w new)

/-- A UNORM8 nearest to a value in FP32. -/
def unorm8 (v : Nat) : Nat := (max 0 (min 255 (toIntRNE (fvMul (v32 v) (fvOf 255 0)) 0))).toNat

/-- An association (R211): state, size, heading, class, appearance and confidence follow the detection. -/
def Slot.associate (x : Slot) (d : Det) (k alpha beta : Nat) (revived : Bool) : Slot :=
  let u := x.update d
  let app := fnormal (((List.range 32).zip d.emb).map (fun p => fmix beta (bf (x.app.getD p.1 0)) p.2))
  { u with
    size := (x.size.zip d.size).map (fun p => fmix alpha p.1 p.2)
    heading := angle32 (fmix alpha (VFn.sin.app x.heading) (VFn.sin.app d.heading))
      (fmix alpha (VFn.cos.app x.heading) (VFn.cos.app d.heading))
    cls := d.cls, app := app.map toBf ++ (x.app.drop 32)
    conf := unorm8 (fadd (fofRat x.conf 255) (fmul alpha (fsub d.score (fofRat x.conf 255))))
    last := k, mask := d.mask, flags := d.flags + bit (revived || x.flags.testBit 0) }

/-- A new TENTATIVE slot (R211, R212): `velVar` is the variance of its velocity, which the spec leaves open. -/
def Slot.birth (x : Slot) (d : Det) (k velVar : Nat) : Slot where
  state := 1
  cls := d.cls
  gen := (x.gen + 1) % 16384
  age := 0
  hits := 1
  last := k
  dormAt := 0
  mask := d.mask
  conf := unorm8 d.score
  flags := d.flags
  pos := [d.x, d.y, 0, 0]
  heading := d.heading
  size := d.size
  cov := covOf (fun i j => if i ≠ j then 0 else if i = 0 then fmul d.sx d.sx else if i = 1 then fmul d.sy d.sy else velVar)
  app := d.emb.map toBf ++ List.replicate 416 0

/-- What the slot pass keeps as it runs: slots and predicted slots, matches, and what it counted. -/
structure Pass where
  slots : Tab Slot              -- the group's slots as the pass leaves them
  hit : List Nat                -- slots that took a detection
  sought : Bool                 -- some detection matched no slot: the DORMANT slots were looked at
  births : Nat
  refused : Nat
  reclaimed : Nat
  revived : Nat
  deriving DecidableEq, Repr

/-- Greedy matching by ascending cost; ties: lower detection, then lower slot (R211). -/
def greedy : List (Nat × Nat × Nat) → List Nat → List Nat → List (Nat × Nat)
  | [], _, _ => []
  | (_, d, i) :: r, ds, ss => if ds.contains d || ss.contains i then greedy r ds ss else (d, i) :: greedy r (d :: ds) (i :: ss)

/-- Parameters of a group's pass. -/
structure PassPar where
  k : Nat
  tk : Nat
  alpha : Nat
  beta : Nat
  lambda : Nat
  gate : Nat
  reid : Nat
  birth : Nat
  velVar : Nat
  first : Nat
  count : Nat
  deriving DecidableEq, Repr

/-- The DORMANT slot with the greatest likeness to a detection, at or above the threshold (R211). -/
def bestDormant (par : PassPar) (d : Det) (t : Tab Slot) : Option Nat :=
  let like := fun (x : Slot) => fdot d.emb ((x.app.take 32).map bf)
  let cand := t.filter (fun p => p.2.state = 3 && atLeast (like p.2) par.reid 128)
  match cand with
  | [] => none
  | p :: ps => some (ps.foldl (fun b q => if flt (like b.2) (like q.2) then q else b) p).1

/-- A birth takes the lowest FREE slot, else reclaims the oldest DORMANT one (R212). -/
def Pass.allocate (z : Pass) (par : PassPar) (all : Tab Slot) (d : Det) : Pass :=
  let slotAt := fun (i : Nat) => (tabFind z.slots i).getD (tabGet Slot.free all i)
  let free := (List.range par.count).find? (fun n => (slotAt (par.first + n)).state = 0)
  let put := fun (z : Pass) (i : Nat) =>
    { z with slots := tabInsert z.slots i ((slotAt i).birth d par.k par.velVar), hit := z.hit ++ [i], births := z.births + 1 }
  match free with
  | some n => put z (par.first + n)
  | none =>
    let dorm := z.slots.filter (fun p => p.2.state = 3)
    match dorm with
    | [] => { z with refused := z.refused + 1 }
    | p :: ps =>
      let i := (ps.foldl (fun b q => if q.2.dormAt < b.2.dormAt then q else b) p).1
      { put z i with reclaimed := z.reclaimed + 1 }

/-- What the pass does with one unmatched detection: revives a slot, or is a birth (R211). -/
def Pass.revive (z : Pass) (par : PassPar) (d : Det) : Pass × Bool :=
  match bestDormant par d z.slots with
  | some i =>
    let x := tabGet Slot.free z.slots i
    ({ z with
      slots := tabInsert z.slots i { x.associate d par.k par.alpha par.beta true with state := 2, hits := 0 }
      hit := z.hit ++ [i], revived := z.revived + 1 }, true)
  | none => (z, false)

/-- The revivals of the unmatched detections, in index order, and the detections left. -/
def Pass.reviveAll (par : PassPar) : Pass → List Det → Pass × List Det
  | z, [] => (z, [])
  | z, d :: ds =>
    let r := z.revive par d
    let q := r.1.reviveAll par ds
    (q.1, if r.2 then q.2 else d :: q.2)

/-- State changes at the end of the pass (R212): misses, confirmation, dormancy and its expiry.  A missed slot keeps its predicted
state (R211, and step 8 of the example before R219). -/
def Slot.settle (par : PassPar) (confirm tentMiss nDorm dormNs : Nat) (hit : Bool) (x : Slot) : Slot :=
  let x := { x with age := min 65535 (x.age + bit (x.state ≠ 0 && x.last ≠ par.k || x.hits ≠ 1)) }
  if hit then
    if x.state = 1 && x.hits ≥ confirm then { x with state := 2, hits := 0 } else x
  else
    let c := unorm8 (fmul (fofRat x.conf 255) (fsub 0x3F800000 par.alpha))
    match x.state with
    | 1 => if par.k - x.last ≥ tentMiss then { Slot.free with gen := x.gen } else { x with conf := c }
    | 2 =>
      if x.hits + 1 ≥ nDorm then { x with state := 3, hits := x.hits + 1, dormAt := par.tk, conf := c }
      else { x with hits := x.hits + 1, conf := c }
    | 3 => if par.tk - x.dormAt ≥ dormNs then { Slot.free with gen := x.gen } else x
    | _ => x

/-- A matched slot takes its detection (R211). -/
def Pass.match' (z : Pass) (par : PassPar) (pred : Tab Slot) (i : Nat) (d : Det) : Pass :=
  let x := tabGet Slot.free pred i
  let y := x.associate d par.k par.alpha par.beta false
  { z with slots := tabInsert z.slots i { y with hits := if x.state = 1 then x.hits + 1 else 0 }, hit := z.hit ++ [i] }

/-- The slot pass of an instant over a group's slots (R211, R212): `all` gives the FREE slots' generations, `dt` the seconds since
the last pass, of which time the states of the live slots are (DEDUCED, log entry 84). -/
def slotPass (par : PassPar) (dt q confirm tentMiss nDorm dormNs : Nat) (all : Tab Slot) (dets : List Det) : Pass :=
  let mine := all.filter (fun p => par.first ≤ p.1 && p.1 < par.first + par.count && p.2.state ≠ 0)
  let pred := tabMap (fun _ x => if x.state = 1 || x.state = 2 then x.predict dt q else x) mine
  let nd := List.range dets.length
  let pairs := (nd.zip dets).flatMap (fun (e : Nat × Det) => pred.filterMap (fun (p : Nat × Slot) =>
    if p.2.state = 1 || p.2.state = 2 then
      let d2 := mahalanobis p.2 e.2
      if fle d2 par.gate then
        some (fadd d2 (fmul par.lambda (fsub 0x3F800000 (fdot e.2.emb ((p.2.app.take 32).map bf)))), e.1, p.1)
      else none
    else none))
  let ms := greedy (sortBy (fun a b => flt a.1 b.1) pairs) [] []
  let z : Pass := ⟨pred, [], decide (ms.length < dets.length), 0, 0, 0, 0⟩
  let z := ms.foldl (fun z m => match dets[m.1]? with
    | some d => z.match' par pred m.2 d
    | none => z) z
  let left := (nd.zip dets).filter (fun e => !ms.any (fun m => m.1 = e.1))
  let r := z.reviveAll par (left.map (fun e => e.2))
  let z := (r.2.filter (fun d => atLeast d.score par.birth 255)).foldl (fun z d => z.allocate par all d) r.1
  { z with slots := tabMap (fun i x => x.settle par confirm tentMiss nDorm dormNs (z.hit.contains i)) z.slots }

/-! ### Track reports -/

/-- A value times a factor, rounded to nearest with ties away, as a saturated field of `w` bits; `open'` where the value
is not finite. -/
def fieldOf (w : Nat) (signed : Bool) (v factor : Nat) (add : Int) (open' : Nat) : Nat :=
  match fvMul (v32 v) (fvOf factor 0) with
  | .fin n m e =>
    let r := roundHalfAway (if e ≥ 0 then fvInt n m e 0 else if n then -(m : Int) else (m : Int)) (if e ≥ 0 then 1 else 2 ^ (-e).toNat)
    if signed then fromSigned w (satSigned w (add + r)) else satNat w (add + r).toNat
  | _ => open' % 2 ^ w

/-- A correlation in units of 1 ÷ 127 (R216). -/
def corrField (c : List Nat) (i j open' : Nat) : Nat :=
  fieldOf 8 true (fdiv (covAt c i j) (fmul (fsqrt (covAt c i i)) (fsqrt (covAt c j j)))) 127 0 open'

/-- A heading in units of 2π ÷ 65,536; 0x40C90FDB is 2π. -/
def headingField (h open' : Nat) : Nat :=
  match fvMul (v32 (fdiv h 0x40C90FDB)) (fvOf 65536 0) with
  | .fin n m e => (roundHalfAway (if e ≥ 0 then fvInt n m e 0 else if n then -(m : Int) else (m : Int)) (if e ≥ 0 then 1 else 2 ^ (-e).toNat) % 65536).toNat
  | _ => open' % 65536

/-- A track report (R216), byte 63 left for the phase bit: `x` is the slot in its reported state. -/
def State.trackReport (s : State) (g k i : Nat) (x : Slot) (coasting : Bool) (open' : Nat) : List Byte :=
  let flags := natBits x.flags 1 1 + 2 * natBits x.flags 2 2 + 4 * natBits x.flags 3 3 + 8 * natBits x.flags 0 0 +
    16 * bit (x.state = 1) + 32 * bit coasting
  let p := fun n => x.pos.getD n 0
  fieldsBytes [(1, 0x11), (1, x.cls), (1, flags), (1, x.conf), (4, i * 2 ^ 14 + x.gen),
    (4, fieldOf 32 true (p 0) 1000 (s.getS (F.CP_GRP_ORIGIN.X_MM g)) open'),
    (4, fieldOf 32 true (p 1) 1000 (s.getS (F.CP_GRP_ORIGIN.Y_MM g)) open'),
    (2, fieldOf 16 true (p 2) 100 0 open'), (2, fieldOf 16 true (p 3) 100 0 open'), (2, headingField x.heading open')] ++
  (List.range 3).flatMap (fun n => leBytes 2 (fieldOf 16 false (x.size.getD n 0) 100 0 open')) ++
  (List.range 4).flatMap (fun n => leBytes 2 (toBf (fsqrt (covAt x.cov n n)))) ++
  fieldsBytes [(1, corrField x.cov 0 1 open'), (1, corrField x.cov 2 3 open'), (1, corrField x.cov 0 2 open'),
    (1, corrField x.cov 1 3 open'), (2, x.mask), (2, x.age), (2, s.devNum), (1, g), (1, 0), (8, k), (7, 0), (1, 0)]

end Sys2Proof.Machine
end

