-- ==== Sys2Proof/Machine/Fusion.lean ====
section
/-!
DEFINITION. Fusion groups and their members (R193, R206), the projection of features onto the ground grid (R202, R203), the
agreement score (R208) and the run of the fusion program (R192, R204).
-/

namespace Sys2Proof.Machine

/-! ### Groups and members -/

def CpGroup.empty : CpGroup := ⟨[], [], [], [], none, none, false, [], [], [], none, [], false⟩

def State.cpg (s : State) (g : Nat) : CpGroup := tabGet CpGroup.empty s.cp.groups g

def State.setCpg (s : State) (g : Nat) (x : CpGroup) : State := { s with cp := { s.cp with groups := tabInsert s.cp.groups g x } }

/-- Group of a stream (R193). -/
def State.groupOf (s : State) (i : Nat) : Nat := s.get (F.HG_STREAM_CTL.GROUP i)

/-- Streams that are members of a group, rising. -/
def State.cpMembers (s : State) (g : Nat) : List Nat :=
  (List.range 128).filter (fun i => s.flag (F.CP_MBR_CTL.ENABLE i) && s.groupOf i = g)

def State.isAnchor (s : State) (i : Nat) : Bool := s.flag (F.HG_STREAM_CTL.ANCHOR i)

/-- Member position (R193). -/
def State.posOf (s : State) (i : Nat) : Nat := s.get (F.CP_MBR_CTL.POSITION i)

/-- Mask of the positions of streams. -/
def State.posMask (s : State) (l : List Nat) : Nat := unionAll (l.map (fun i => 2 ^ s.posOf i))

/-- Reasons of a member (R206), bits as in CP_MBR_STAT.REASONS. -/
def State.reason (s : State) (i n : Nat) : Bool := (s.get (F.CP_MBR_STAT.REASONS i)).testBit n

def State.setReason (s : State) (i n : Nat) (on : Bool) : State :=
  s.put (F.CP_MBR_STAT.REASONS i) (setMinus (s.get (F.CP_MBR_STAT.REASONS i)) (2 ^ n) + bit on * 2 ^ n)

/-- Masked by UNSYNCED, DISSENT, DROPOUT or SW_MASK (R197, R206). -/
def State.maskedNow (s : State) (i : Nat) : Bool :=
  s.reason i 1 || s.reason i 2 || s.reason i 3 || s.flag (F.CP_MBR_CTL.SW_MASK i)

/-! ### Projection and agreement -/

/-- The entries of a projection table up to the first that breaks the order, and whether one does (R202). -/
def sortedPrefix : List Nat → Nat → List Nat × Bool
  | [], _ => ([], false)
  | w :: ws, prev =>
    let key := natBits w 63 42 * 2 ^ 24 + natBits w 39 16
    if key < prev then ([], true) else let r := sortedPrefix ws key; (w :: r.1, r.2)

/-- Address of a member's projection table. -/
def State.projAddr (s : State) (i : Nat) : Nat := 64 * s.get (F.CP_MBR_PROJ.ADDR i)

/-- The usable entries of a member's projection table (R202). -/
def State.projection (s : State) (i : Nat) : List Nat × Bool :=
  let a := s.projAddr i
  sortedPrefix ((List.range (s.mapNat i 2 a 0 4)).map (fun n => s.mapNat i 2 a (64 + 8 * n) 8)) 0

/-- The cells that a member sees (R203). -/
def cellsOf (es : List Nat) : List Nat := es.map (fun w => natBits w 63 44)

/-- Output format of the image that served a slice, for an uncompressed feature map. -/
def State.featFormat (s : State) (f : Feat) : Nat :=
  match s.slotFor f.stream f.k with
  | none => 6
  | some n => match s.slot n with
    | none => 6
    | some x => match x.image.layers[handLayer x.image.layers]? with
      | some l => l.outFmt
      | none => 6

/-- A feature in FP32 (R186, R203). -/
def State.featVal (s : State) (f : Feat) (pos ch : Nat) : Nat :=
  let mode := fieldAt f.word1 2 1
  let c := fieldAt f.word1 3 1
  let a := fieldAt f.word1 16 6
  if mode = 0 then
    let fmt := s.featFormat f
    let n := if fmt = 7 then 4 else if fmt = 6 then 2 else 1
    f32 (codeVal fmt (s.dramNat (a + n * (pos * c + ch)) n))
  else
    let b := s.dramRead (a + (pos * ceilDiv c 64 + ch / 64) * fmcSize mode) (fmcSize mode)
    let code := fmcDecode mode (toSigned 8 (fieldAt f.word1 22 1)) b (ch % 64)
    if mode = 3 then bf code else fofInt (toSigned 8 code) 0

/-- A feature of a contribution: of an anchor aligned to t_k and rounded once to BF16 (R201). -/
def State.contribVal (s : State) (c : Contrib) (tk pos ch : Nat) (motion : List (Nat × Nat)) : Nat :=
  let fa := s.featVal c.a pos ch
  if !s.isAnchor c.stream then fa
  else match c.b with
    | some b =>
      let fb := s.featVal b pos ch
      bf (toBf (fadd fa (fdiv (fmul (fsub fb fa) (fofInt ((tk : Int) - c.a.sigma) 0)) (fofInt ((b.sigma : Int) - c.a.sigma) 0))))
    | none => match (if c.extrap then motion.find? (fun p => p.1 = ch) else none) with
      | some p => bf (toBf (fadd fa (fmul (s.featVal c.a pos p.2) (fofRat ((tk : Int) - c.a.sigma) 1000000))))
      | none => bf (toBf fa)

/-- Band `b` of channel `ch` on the cells that a contribution sees (R203): the FP32 sum in entry order, rounded once to BF16. -/
def State.projected (s : State) (c : Contrib) (tk ch : Nat) (motion : List (Nat × Nat)) (es : List Nat) (b : Nat) : Tab Nat :=
  let sums := es.foldl (fun (t : Tab (Option Nat)) w =>
    let cell := natBits w 63 44
    if natBits w 43 42 = b then
      let v := fmul (fofInt (natBits w 15 0 : Nat) 16) (s.contribVal c tk (natBits w 39 16) ch motion)
      tabInsert t cell (some (match tabGet none t cell with
        | some z => fadd z v
        | none => v))
    else tabInsert t cell (tabGet none t cell)) []
  sums.map (fun p => (p.1, toBf (p.2.getD 0)))

/-- The agreement score of one member against the others (R208), from channel `occ` of band 0 of their projections in BF16: FP32,
or none when it is undefined. -/
def agreement (m : Tab Nat) (others : List (Tab Nat)) : Option Nat :=
  let terms := m.filterMap (fun p =>
    let vs := (others.filterMap (fun t => tabFind t p.1)).map bf
    match vs with
    | [] => none
    | v :: r => some (bf p.2, fdiv (r.foldl fadd v) (fofInt vs.length 0)))
  let dot := fun (f : Nat × Nat → Nat) => match terms with
    | [] => 0
    | t :: ts => ts.foldl (fun z u => fadd z (f u)) (f t)
  let mm := dot (fun p => fmul p.1 p.1)
  let gg := dot (fun p => fmul p.2 p.2)
  if terms.length < 64 || fabs mm = 0 || fabs gg = 0 then none
  else some (fdiv (dot (fun p => fmul p.1 p.2)) (fsqrt (fmul mm gg)))

/-! ### The fusion program -/

/-- Feature channels of a slice (R195). -/
def Feat.channels (f : Feat) : Nat := fieldAt f.word1 3 1

/-- Input of the fusion program from one contribution, cell by cell (R203): the projected channels band by band, then the
visibility bit and the age channel, all BF16. -/
def State.memberInput (s : State) (tk cells : Nat) (motion : List (Nat × Nat)) (c : Contrib) : Act :=
  let es := (s.projection c.stream).1
  let n := c.a.channels
  let maps := (List.range 4).flatMap (fun b => (List.range n).map (fun ch => s.projected c tk ch motion es b))
  let seen := cellsOf es
  let age := if c.age = 0 then 0 else Config.ageCode c.age % 65536
  ⟨(List.range cells).flatMap (fun j => maps.map (fun m => tabGet 0 m j) ++ [if seen.contains j then 0x3F80 else 0, age]), []⟩

/-- What a layer of the fusion program reads (R203, R204): a member that contributes nothing gives zeros (R206). -/
def fusionAct (members : List (Nat × Bool × Act)) (grid : Act) (outs : List Act) : Src → Act
  | .member p late => match members.find? (fun m => m.1 = p && m.2.1 = late) with
    | some m => m.2.2
    | none => ⟨[], []⟩
  | .grid => grid
  | .layer n => outs.getD n ⟨[], []⟩
  | .map n => outs.getD n ⟨[], []⟩
  | .slice => ⟨[], []⟩
  | .state _ => ⟨[], []⟩

/-- The whole of a layer, as one part. -/
def wholePart (l : Layer) : LayerPart := ⟨0, 0, l.outDims.1, 0, l.cout, []⟩

/-- A layer program's contribution where it gives none. -/
def LayerRun.none : LayerRun := ⟨[], [], [], [], [], [], [], 0, false⟩

/-- The layers of a fusion program run one after another, by the arithmetic of the stand tiles (R192: R131–R134, and R151 with grid
cells for positions): the outputs of each. -/
def fusionRun (members : List (Nat × Bool × Act)) (grid : Act) : List Layer → List LayerRun → List Act → List Act
  | [], _, outs => outs
  | l :: ls, runs, outs =>
    let act := fusionAct members grid outs
    let run := runs.headD LayerRun.none
    let o := layerRun l none ⟨0, 0, 0, [], [], [], []⟩ true [wholePart l] ⟨act l.src, act l.src2, act l.src3⟩ run
    fusionRun members grid ls (runs.drop 1) (outs ++ [⟨tabValues o.outs, run.yScales⟩])

/-- Sixty-four channels of each cell of a layer's output. -/
def cellRows (cells : Nat) (a : Act) : List (List Nat) :=
  (List.range cells).map (fun j => (List.range 64).map (fun ch => a.codes.getD (64 * j + ch) 0 % 65536))

/-- The grid memory that an instant reads, cell by cell (R204, R205). -/
def State.gridRead (s : State) (g k : Nat) : Act :=
  let a := s.gridArea g
  ⟨(List.range (a.2 / 2)).map (fun j => s.dramNat (a.1 + (k + 1) % 2 * a.2 + 2 * j) 2), []⟩

/-- The fusion program of an instant (R204): the detection head, and the grid memory that it writes. -/
def State.fusionProgram (s : State) (g : Nat) (r : Released) (im : Image) (runs : List LayerRun) : List (List Nat) × List Byte :=
  let cells := (s.gridArea g).2 / 128
  let tk := (r.k + 1) * s.groupNs g
  let members := r.fused.map (fun c => (c.pos, decide (c.age ≠ 0), s.memberInput tk cells im.motion c))
  let outs := fusionRun members (s.gridRead g r.k) im.fusion runs []
  let rows := fun (n : Nat) => cellRows cells (outs.getD n ⟨[], []⟩)
  (rows im.headLayer, (rows im.gridLayer).flatten.flatMap (leBytes 2))

end Sys2Proof.Machine
end

