-- ==== Sys2Proof/Machine/Coppice.lean ====
section
/-!
DEFINITION. The coppice units (R192–R220): opening and release of instants, late contributions and anchors, masking and
agreement, the read-out of records, checkpoints, the loss of a unit, and the coppice commit groups.
-/

namespace Sys2Proof.Machine

/-! ### Opening -/

/-- A stream has slice k: its first slice is not after it and its last not before it (R41, R42, R198). -/
def State.hasSlice (s : State) (i k : Nat) : Bool :=
  match (s.stream i).k0 with
  | none => false
  | some a => decide (a ≤ k) && (match (s.stream i).kLast with
    | some b => decide (k ≤ b)
    | none => true)

/-- The group runs: enabled, the units run and its unit is in service. -/
def State.groupOn (s : State) (g : Nat) : Bool :=
  s.flag F.CP_CTL.ENABLE && s.flag (F.CP_GRP_CTL.ENABLE g) && !s.dead && s.get (F.CP_UNIT_STAT.STATE (s.get (F.CP_GRP_CTL.UNIT g))) = 1

/-- The least instant at or after `b` that a stream takes part in. -/
def State.dueOf (s : State) (i b : Nat) : Option Nat :=
  match (s.stream i).k0 with
  | none => none
  | some a => if s.hasSlice i (max a b) then some (max a b) else none

/-- The next instant that a group owes (R198): the least after the last released one that is open, or in which some
member takes part. -/
def State.nextDue (s : State) (g : Nat) : Option Nat :=
  let x := s.cpg g
  let b := match x.last with
    | some k => k + 1
    | none => 0
  minNat? ((s.cpMembers g).filterMap (fun i => s.dueOf i b) ++ x.opens.map (fun o => o.k))

/-- CP_GRP_STAT.STATE follows what the group does. -/
def State.showGroup (s : State) (g : Nat) : State :=
  let x := s.cpg g
  s.put (F.CP_GRP_STAT.STATE g) (if !s.flag (F.CP_GRP_CTL.ENABLE g) then 0 else if !x.fusing.isEmpty then 3
    else if !x.opens.isEmpty then 2 else 1)

/-- Instant k of a group opens and fixes its gating set (R197); a waiting change of the group takes effect (R219). -/
def State.openInstant (s : State) (g k : Nat) : State :=
  let x := s.cpg g
  if x.opens.any (fun o => o.k = k) || reached x.last k then s
  else
    let s := s.applyPending (R.CP_GRP_COMMIT g)
    let gating := (s.cpMembers g).filter (fun i => !s.isAnchor i && s.hasSlice i k && !s.maskedNow i)
    let o : Instant := ⟨k, s.time, s.time + 1000 * s.get (F.CP_GRP_CTL.W_US g), unionAll (gating.map streamBit)⟩
    s.setCpg g { x with opens := sortBy (fun a b => a.k < b.k) (x.opens ++ [o]) }

/-! ### Release -/

/-- A member's slice k has arrived and is not yet reflected. -/
def CpGroup.arrived (x : CpGroup) (i k : Nat) : Option Feat := x.feats.find? (fun f => f.stream = i && f.k = k)

/-- DISSENT, DROPOUT and SW_MASK of a member now, as REASONS codes them (R206). -/
def State.masksOf (s : State) (i : Nat) : Nat :=
  4 * bit (s.reason i 2) + 8 * bit (s.reason i 3) + 32 * bit (s.flag (F.CP_MBR_CTL.SW_MASK i))

/-- The contribution of an anchor at instant k (R201): none when it is STALE. -/
def State.anchorContrib (s : State) (g i tk : Nat) : Option Contrib :=
  let ps := sortBy (fun (a b : Feat) => a.sigma < b.sigma) ((s.cpg g).present.filter (fun f => f.stream = i))
  let pos := s.posOf i
  match ps.find? (fun f => f.sigma = tk) with
  | some a => some ⟨pos, i, a, none, 0, false⟩
  | none =>
    let below := ps.filter (fun f => f.sigma < tk)
    let above := ps.filter (fun f => tk < f.sigma)
    match below.getLast?, above.head? with
    | some a, some b => some ⟨pos, i, a, some b, 0, false⟩
    | some a, none => if tk - a.sigma ≤ s.groupNs g then some ⟨pos, i, a, none, 0, true⟩ else none
    | _, _ => none

/-- DROPOUT of a non-anchor member at the release of instant k (R200). -/
def State.dropout (s : State) (g i : Nat) (timedOut arrived : Bool) : State :=
  let n := s.get (F.CP_GRP_HEALTH.DROP_N g)
  let c := s.get (F.CP_MBR_STAT.DROP_CNT i)
  let inDrop := s.reason i 3
  let hit := if inDrop then arrived else timedOut
  if !hit then s.put (F.CP_MBR_STAT.DROP_CNT i) 0
  else if c + 1 ≥ n then (s.put (F.CP_MBR_STAT.DROP_CNT i) 0).setReason i 3 (!inDrop)
  else s.put (F.CP_MBR_STAT.DROP_CNT i) (c + 1)

/-- The release of open instant `o` (R198–R201). -/
def State.releaseInstant (s : State) (g : Nat) (o : Instant) : State :=
  let x := s.cpg g
  let k := o.k
  let period := s.groupNs g
  let tk := (k + 1) * period
  let ms := s.cpMembers g
  let anchors := ms.filter s.isAnchor
  let others := ms.filter (fun i => !s.isAnchor i)
  let timedOut := others.filter (fun i => o.gating.testBit i && (x.arrived i k).isNone)
  let maskedOthers := others.filter (fun i => timedOut.contains i || s.maskedNow i)
  let contribs := anchors.map (fun i => (i, s.anchorContrib g i tk))
  let stale := (contribs.filter (fun p => p.2.isNone || s.maskedNow p.1)).map (fun p => p.1)
  let isStale := (contribs.filter (fun p => p.2.isNone)).map (fun p => p.1)
  let mine := fun (f : Feat) => others.contains f.stream && decide (f.k ≤ k)
  let fusedOwn := (x.feats.filter (fun f => mine f && !maskedOthers.contains f.stream && (f.k = k || (f.late && f.k + 1 = k)))).map
    (fun (f : Feat) => (⟨s.posOf f.stream, f.stream, f, none, (k - f.k) * period, false⟩ : Contrib))
  let fusedAnchors := contribs.filterMap (fun p => if s.maskedNow p.1 then none else p.2)
  let masked := (x.feats.filter (fun f => mine f && f.k = k && maskedOthers.contains f.stream && !s.reason f.stream 1)).map
    (fun (f : Feat) => (⟨s.posOf f.stream, f.stream, f, none, 0, false⟩ : Contrib))
  let maskedAnchors := contribs.filterMap (fun p => if s.maskedNow p.1 && !s.reason p.1 1 then p.2 else none)
  let reflected := x.feats.filter (fun f => mine f || anchors.contains f.stream)
  let late := (fusedOwn.filter (fun c => c.age ≠ 0)).length
  let tooOld := (reflected.filter (fun f => others.contains f.stream && decide (f.k + 2 ≤ k))).length
  let extrap := (fusedAnchors.filter (fun c => c.extrap)).length
  let susp := fun (i j : Nat) => s.ras.marks.any (fun m => m.2 = (i, j) && m.1 ≠ cRingFull) || (s.causesOf i).any (fun c => c ≠ cRingFull)
  let suspended := reflected.any (fun f => susp f.stream f.k) || timedOut.any (fun i => susp i k)
  let slot := s.fusionFor g k
  let image := match slot with
    | some n => s.slot n
    | none => none
  let epoch := match image with
    | some m => m.epoch
    | none => 0
  let digest := match image with
    | some m => m.digest.take 8
    | none => zeros 8
  let r : Released := ⟨k, s.time, epoch, digest, s.posMask timedOut, s.posMask isStale, s.posMask (maskedOthers ++ stale),
    ms.map (fun i => (i, s.masksOf i)), fusedOwn ++ fusedAnchors, masked ++ maskedAnchors, late, reflected, suspended, reflected.any (fun f => (fieldAt f.word0 2 2).testBit 3)⟩
  let s := s.setCpg g { x with
    feats := x.feats.filter (fun f => !reflected.contains f), opens := x.opens.filter (fun q => q.k ≠ k)
    fusing := x.fusing ++ [r], last := some k, absent := x.absent ++ timedOut.map (fun i => (i, k)) }
  let s := s.each reflected (fun s f =>
    let y := s.stream f.stream
    s.setStream f.stream { y with
      refl := tabInsert y.refl (reflKey g f.k) k
      reflected := tabInsert y.reflected g (max f.k (tabGet f.k y.reflected g)) })
  let s := s.each others (fun s i => (s.setReason i 0 (timedOut.contains i)).dropout g i (timedOut.contains i)
    (reflected.any (fun f => f.stream = i && f.k = k)))
  let s := s.each anchors (fun s i => s.setReason i 4 (isStale.contains i))
  let s := s.each ms (fun s i => s.setReason i 5 (s.flag (F.CP_MBR_CTL.SW_MASK i)))
  let s := (s.put (F.CP_GRP_STAT.MASKED g) r.masked).setReg (R.CP_GRP_INSTANT g) (BitVec.ofNat 64 k)
  let s := (s.bump (R.CP_GRP_CNT_INSTANT g)).bumpBy (R.CP_GRP_CNT_TIMEOUT g) timedOut.length
  let s := (s.bumpBy (R.CP_GRP_CNT_LATE g) late).bumpBy (R.CP_GRP_CNT_LATE_OLD g) tooOld
  (s.bumpBy (R.CP_GRP_CNT_EXTRAP g) extrap).bumpBy (R.CP_GRP_CNT_STALE g) isStale.length

/-- The instants of a group that may be released are released, in order (R198): complete ones, and those that have expired by
`now`; at most `fuel` of them. -/
def State.tryRelease (s : State) (g now : Nat) : Nat → State
  | 0 => s.showGroup g
  | fuel + 1 =>
    let x := s.cpg g
    match x.opens with
    | [] => s.showGroup g
    | o :: _ =>
      let all := (streamsOf o.gating).all (fun i => (x.arrived i o.k).isSome)
      if s.groupOn g && s.nextDue g = some o.k && (all || o.expiry ≤ now) then (s.releaseInstant g o).tryRelease g now fuel
      else s.showGroup g

/-- Release whatever is due. -/
def State.releaseDue (s : State) (g : Nat) : State := s.tryRelease g s.time ((s.cpg g).opens.length + 1)

/-- Release what expired before now: a packet that arrives at the expiry is present (R198). -/
def State.releaseOverdue (s : State) (g : Nat) : State := s.tryRelease g (s.time - 1) ((s.cpg g).opens.length + 1)

/-- The two newest arrived slices of an anchor (R201). -/
def State.addPresent (s : State) (g : Nat) (f : Feat) : State :=
  let x := s.cpg g
  let mine := sortBy (fun (a b : Feat) => a.k < b.k) (x.present.filter (fun p => p.stream = f.stream) ++ [f])
  s.setCpg g { x with present := x.present.filter (fun p => p.stream ≠ f.stream) ++ mine.drop (mine.length - 2) }

/-- UNSYNCED of a member as a slice arrives (R206): set by a descriptor that carries it, cleared by one without it whose slice
will be fused, that is neither two instants old nor of a member that another reason masks (DEDUCED, log entry 85). -/
def State.syncReason (s : State) (g i k : Nat) (unsynced : Bool) : State :=
  if unsynced then s.setReason i 1 true
  else if s.reason i 2 || s.reason i 3 || s.flag (F.CP_MBR_CTL.SW_MASK i) || reached (s.cpg g).last (k + 1) then s
  else s.setReason i 1 false

/-- The feature packet that a stream's output queue holds first. -/
def State.packetReady (s : State) (word0 word1 : List Byte) : Bool :=
  let i := fieldAt word1 1 1
  s.sd.outq.find? (fun p => fieldAt p.2 1 1 = i) = some (word0, word1) && s.committed s.mm.outQ i [word0, word1]

/-- The unit takes a feature packet from the stream's queue (R195, R197, R206); while its group does not run, the packet stays
there (R196). -/
def State.featureArrival (s : State) (word0 word1 : List Byte) : State :=
  let i := fieldAt word1 1 1
  let k := fieldAt word1 8 8
  let g := s.groupOf i
  if !s.groupOn g || !s.flag (F.CP_MBR_CTL.ENABLE i) || i ≥ 128 || !s.packetReady word0 word1 then s
  else
    let s := { s with sd := { s.sd with outq := s.sd.outq.erase (word0, word1) } }.take s.mm.outQ i [word0, word1]
    let s := (s.releaseOverdue g).syncReason g i k ((fieldAt word0 2 2).testBit 0)
    let f : Feat := ⟨i, k, k * s.groupNs g + fieldAt word1 24 4, s.time, reached (s.cpg g).last k, word0, word1⟩
    let s := s.openInstant g k
    let y := s.cpg g
    let s := s.setCpg g { y with feats := y.feats ++ [f] }
    let s := if s.isAnchor i then s.addPresent g f else s
    s.releaseDue g

def execFeatureArrival (t : Nat) (word0 word1 : List Byte) (s : State) : Res := .next ((s.at t).featureArrival word0 word1)

/-- The least instant of a group that is owed and not open (R198). -/
def State.nextShut (s : State) (g : Nat) : Option Nat :=
  let x := s.cpg g
  let b := match x.last with
    | some k => k + 1
    | none => 0
  let starts := b :: (x.opens.map (fun o => o.k + 1)).filter (fun a => b ≤ a)
  minNat? (((s.cpMembers g).flatMap (fun i => starts.filterMap (s.dueOf i))).filter (fun k => !x.opens.any (fun o => o.k = k)))

/-- OPEN_US after t_k without a feature (R197). -/
def State.openTimeout (s : State) (g : Nat) : State :=
  if !s.groupOn g then s
  else match s.nextShut g with
    | none => s
    | some k =>
      let s := s.at ((k + 1) * s.groupNs g + 1000 * s.get (F.CP_GRP_CTL.OPEN_US g))
      ((s.releaseOverdue g).openInstant g k).releaseDue g

def execInstantOpenTimeout (group : Nat) (s : State) : Res := .next (s.openTimeout group)

/-- The wait limit of the oldest open instant (R198). -/
def State.instantExpiry (s : State) (g : Nat) : State :=
  match (s.cpg g).opens with
  | [] => s
  | o :: _ => if s.groupOn g then (s.at o.expiry).releaseDue g else s

def execInstantExpiry (group : Nat) (s : State) : Res := .next (s.instantExpiry group)

/-- A member's newest agreement score moves it into or out of DISSENT (R208). -/
def State.agree (s : State) (g i : Nat) (a : Option Nat) : State :=
  match a with
  | none => s.put (F.CP_MBR_STAT.AGREE i) 0x8000
  | some v =>
    let q := fromSigned 16 (satSigned 16 (toIntRNE (v32 v) 14))
    let s := s.put (F.CP_MBR_STAT.AGREE i) q
    let inDis := s.reason i 2
    let thr := fun (f : Fld) => fvOf (toSigned 16 (s.get f)) (-14)
    let hit := if inDis then !fvLt (v32 v) (thr (F.CP_GRP_HEALTH.DIS_EXIT_THR g)) else fvLt (v32 v) (thr (F.CP_GRP_HEALTH.DIS_THR g))
    let n := if inDis then s.get (F.CP_GRP_HEALTH.DIS_EXIT_N g) else s.get (F.CP_GRP_HEALTH.DIS_N g)
    let c := s.get (F.CP_MBR_STAT.DIS_CNT i)
    if !hit then s.put (F.CP_MBR_STAT.DIS_CNT i) 0
    else if c + 1 ≥ n then (s.put (F.CP_MBR_STAT.DIS_CNT i) 0).setReason i 2 (!inDis)
    else s.put (F.CP_MBR_STAT.DIS_CNT i) (c + 1)

/-! ### Records -/

/-- OR of descriptor flag `n` over reflected slices. -/
def anyFlag (l : List Feat) (n : Nat) : Bool := l.any (fun f => (fieldAt f.word0 2 2).testBit n)

/-- Sum of a descriptor field over reflected slices. -/
def sumField (l : List Feat) (at' : Nat) : Nat := sumNat (l.map (fun f => fieldAt f.word0 at' 4))

/-- The slice record (R215). -/
def State.sliceRecord (s : State) (g : Nat) (r : Released) (suspended replayed gridReset exhausted trunc : Bool) (n : Nat) : List Byte :=
  let extrap := (r.fused.filter (fun c => c.extrap)).length
  let flags := bit suspended + 2 * bit (r.late ≠ 0) + 4 * bit (r.timedOut ≠ 0) + 8 * bit (extrap ≠ 0) + 16 * bit (r.stale ≠ 0) +
    32 * bit replayed + 64 * bit gridReset + 128 * bit exhausted + 256 * bit trunc + 512 * bit (anyFlag r.reflected 4) +
    1024 * bit (anyFlag r.reflected 5) + 2048 * bit (anyFlag r.reflected 0)
  fieldsBytes [(1, 0x10), (1, g), (2, flags), (4, n), (8, r.k), (8, (r.k + 1) * s.groupNs g), (8, r.epoch)] ++ r.digest ++
  fieldsBytes [(2, r.masked), (2, s.posMask (r.reflected.map (fun f => f.stream))), (4, sumField r.reflected 24),
    (4, sumField r.reflected 28 + sumField r.reflected 32 + sumField r.reflected 36), (4, sumField r.reflected 40),
    (4, sumField r.reflected 44), (1, r.late), (1, extrap), (1, 0), (1, 0)]

/-- The view record of one reflected slice (R217). -/
def State.viewRecord (s : State) (g : Nat) (r : Released) (f : Feat) (suspended : Bool) : List Byte :=
  let i := f.stream
  let c := r.fused.find? (fun c => c.stream = i && (c.a.k = f.k || (c.b.any (fun b => b.k = f.k))))
  let d := fieldAt f.word0 2 2
  let m := (tabFind r.reasons i).getD 0
  let flags := bit (d.testBit 0) + 2 * bit (d.testBit 1) + 4 * bit ((s.cpg g).absent.contains (i, f.k)) +
    8 * bit (c.any (fun c => c.age ≠ 0)) + 16 * bit (c.any (fun c => c.extrap)) + 32 * bit (s.isAnchor i) +
    64 * bit (m.testBit 2) + 128 * bit (m.testBit 3) + 256 * bit (r.stale.testBit (s.posOf i)) +
    512 * bit (m.testBit 5) + 1024 * bit (d.testBit 4) + 2048 * bit (d.testBit 5) +
    4096 * bit suspended + 8192 * bit c.isNone
  fieldsBytes [(1, 0x12), (1, i), (2, flags), (1, g), (1, s.posOf i), (2, s.get (F.CP_MBR_STAT.AGREE i)), (8, f.k),
    (4, fromSigned 32 ((r.k : Int) - f.k)),
    (4, fieldAt f.word1 24 4), (4, fieldAt f.word0 24 4), (4, fieldAt f.word0 28 4), (4, fieldAt f.word0 32 4),
    (4, fieldAt f.word0 36 4), (4, fieldAt f.word0 40 4), (4, fieldAt f.word0 44 4), (4, fieldAt f.word0 48 4),
    (4, fieldAt f.word0 52 4), (4, fieldAt f.word0 56 4), (2, fieldAt f.word0 22 2), (1, 0), (1, 0)]

/-! ### Fusion -/

/-- Grid memory set to zero (R205). -/
def State.zeroGrid (s : State) (g : Nat) : State :=
  let a := s.gridArea g
  { s with mem := s.mem.filter (fun c => !(a.1 ≤ c.1 && c.1 < a.1 + 2 * a.2)) }

/-- What fusion knows of the members of an instant: for each, whether it is fused and the cells it sees. -/
structure Sight where
  stream : Nat
  pos : Nat
  fused : Bool
  late : Bool
  extrap : Bool
  cells : List Nat
  deriving DecidableEq, Repr

/-- Detections of an instant (R207, R210): those kept, in descending score, and how many were dropped. -/
def State.detections (s : State) (g : Nat) (sights : List Sight) (head : List (List Nat)) : List Det × Nat :=
  let w := s.get (F.CP_GRP_GRID.CELLS_X g) + 1
  let h := s.get (F.CP_GRP_GRID.CELLS_Y g) + 1
  let fusedAt := fun c => sights.filter (fun v => v.fused && v.cells.contains c)
  let masked := fun c => (fusedAt c).isEmpty && sights.any (fun v => !v.fused && v.cells.contains c)
  let mu := fofRat (s.get (F.CP_GRP_HEALTH.MU g)) 256
  let score := fun c =>
    let raw := bf ((head.getD c []).getD 0 0)
    if masked c then bf (toBf (fmul raw mu)) else raw
  let cells := (List.range (w * h)).filter (fun c => atLeast (score c) (s.get (F.CP_GRP_TRACK.DET_THR g)) 255 && isPeak w h score c)
  let sorted := sortBy (fun a b => flt (score b) (score a)) cells
  let keep := sorted.take (s.get (F.CP_GRP_RPT.DET_MAX g) + 1)
  (keep.map (fun c => s.detOf g c (head.getD c []) (score c) (unionAll ((fusedAt c).map (fun v => 2 ^ v.pos)))
    (2 * bit ((fusedAt c).any (fun v => v.late)) + 4 * bit ((fusedAt c).any (fun v => v.extrap)) + 8 * bit (masked c))),
   sorted.length - keep.length)

/-- Parameters of the slot pass of an instant. -/
def State.passPar (s : State) (g k : Nat) : PassPar where
  k := k
  tk := (k + 1) * s.groupNs g
  alpha := fofInt (s.get (F.CP_GRP_KIN.EMA_ALPHA g)) 16
  beta := fofInt (s.get (F.CP_GRP_KIN.EMB_BETA g)) 16
  lambda := s.get (F.CP_GRP_ASSOC.LAMBDA g)
  gate := s.get (F.CP_GRP_ASSOC.GATE g)
  reid := s.get (F.CP_GRP_TRACK.REID_THR g)
  birth := s.get (F.CP_GRP_TRACK.BIRTH_THR g)
  velVar := s.freeVal .numeric % 2 ^ 31
  first := (s.pool g).1
  count := (s.pool g).2

/-! ### The slot cache -/

/-- Address of a slot in the slot region (R213): part 0 holds the home copies, 1 and 2 the checkpoint buffers. -/
def State.slotAddr (s : State) (part i : Nat) : Nat := 4096 * s.get F.CP_SLOT_BASE.BASE + 0x10000000 * part + 1024 * i

/-- A unit brings a slot into its cache (R192, R213): a miss when it was not there; a full cache writes a slot back to its home
copy, and which one is open (R213). -/
def State.cacheSlot (s : State) (u i : Nat) : State :=
  let c := tabGet [] s.cp.cache u
  if c.contains i then s
  else
    let s := s.bump (R.CP_UNIT_CNT_MISS u)
    if c.length < 8192 then { s with cp := { s.cp with cache := tabInsert s.cp.cache u (c ++ [i]) } }
    else
      let v := c.getD (s.freeVal .cacheVictim % 8192) 0
      let s := s.tickFree.dramPut (s.slotAddr 0 v) (s.track v).bytes
      { s with cp := { s.cp with cache := tabInsert s.cp.cache u (c.filter (fun x => x ≠ v) ++ [i]) } }

/-- Slots in the cache of a unit. -/
def State.showCache (s : State) (u : Nat) : State := s.put (F.CP_UNIT_CACHE.RESIDENT u) (tabGet [] s.cp.cache u).length

/-- Slots that a pass looks at: the live ones, the DORMANT ones when a detection matched none of them, and those it changed. -/
def passSlots (before : List (Nat × Slot)) (z : Pass) (changed : List Nat) : List Nat :=
  let seen := (before.filter (fun p => p.2.state = 1 || p.2.state = 2 || z.sought)).map (fun p => p.1)
  seen ++ changed.filter (fun i => !seen.contains i)

/-- The slot engine's pass of an instant (R211–R213). -/
def State.runPass (s : State) (g k : Nat) (dets : List Det) : State × Pass :=
  let par := s.passPar g k
  let u := s.get (F.CP_GRP_CTL.UNIT g)
  let dt := fofRat ((k - ((s.cpg g).passed).getD k) * s.groupNs g : Nat) 1000000000
  let z := slotPass par dt (s.get (F.CP_GRP_KIN.Q_ACC g)) (s.get (F.CP_GRP_TRACK.N_CONFIRM g)) (s.get (F.CP_GRP_TRACK.TENT_MISS g))
    (s.get (F.CP_GRP_TRACK.N_DORMANT g)) (s.get (F.CP_GRP_TRACK.DORMANT_S g) * 1000000000) s.cp.slots dets
  let changed := (z.slots.filter (fun p => p.2 ≠ s.track p.1)).map (fun p => p.1)
  let touched := passSlots (s.usedSlots g) z changed
  let join := fun (l : List Nat) => l ++ changed.filter (fun i => !l.contains i)
  let s := ((s.each touched (fun s i => s.cacheSlot u i)).showCache u).each z.slots (fun s p => s.setTrack p.1 p.2)
  let x := s.cpg g
  let s := s.setCpg g { x with dirty0 := join x.dirty0, dirty1 := join x.dirty1, passed := some k }
  let s := (s.bumpBy (R.CP_GRP_CNT_BIRTH g) z.births).bumpBy (R.CP_GRP_CNT_BIRTH_REFUSED g) z.refused
  let s := (s.bumpBy (R.CP_GRP_CNT_RECLAIM g) z.reclaimed).bumpBy (R.CP_GRP_CNT_REVIVE g) z.revived
  let s := if z.refused ≠ 0 then s.put F.CP_STAT.BIRTH_REFUSED 1 else s
  (s.tickFree, z)

/-- The slots to report at instant k in order (R214): slot, state as the pass leaves it, whether it coasts. -/
def State.reported (s : State) (g k : Nat) : List (Nat × Slot × Bool) :=
  let tent := s.flag (F.CP_GRP_CTL.RPT_TENT g)
  let l := ((s.usedSlots g).filter (fun p => p.2.state = 2 || (tent && p.2.state = 1))).map (fun p =>
    (p.1, p.2, decide (p.2.state = 2) && decide (p.2.last ≠ k)))
  sortBy (fun a b => b.2.1.conf < a.2.1.conf) l

/-! ### What fusion does with an instant -/

/-- The members that an instant's fusion and masking look at. -/
def State.sights (s : State) (g : Nat) (r : Released) : List Sight :=
  (s.cpMembers g).filterMap (fun i =>
    let cs := r.fused.filter (fun c => c.stream = i)
    if cs.isEmpty && !r.masked.testBit (s.posOf i) then none
    else some ⟨i, s.posOf i, !cs.isEmpty, cs.any (fun c => c.age ≠ 0), cs.any (fun c => c.extrap), cellsOf (s.projection i).1⟩)

/-- Some projection table that the instant uses breaks its order (R202). -/
def State.orderBroken (s : State) (g : Nat) (r : Released) : Bool :=
  (s.cpMembers g).any (fun i => ((r.fused ++ r.scored).any (fun c => c.stream = i) || r.masked.testBit (s.posOf i)) && (s.projection i).2)

/-- A contribution uses slice k. -/
def Contrib.uses (c : Contrib) (k : Nat) : Bool := c.a.k = k || c.b.any (fun b => b.k = k)

/-- Newest contribution of each stream of a list. -/
def newestOf (l : List Contrib) : List Contrib := l.filter (fun c => !l.any (fun d => d.stream = c.stream && d.age < c.age))

/-- Agreement scores of the members whose slice k the instant uses, masked ones among them (R199, R208). -/
def State.scoreMembers (s : State) (g : Nat) (r : Released) (im : Image) : State :=
  let tk := (r.k + 1) * s.groupNs g
  let map := fun (c : Contrib) => (c, s.projected c tk im.occ im.motion (s.projection c.stream).1 0)
  let fused := (newestOf r.fused).map map
  let all := fused ++ r.scored.map map
  s.each (all.filter (fun p => p.1.uses r.k)) (fun s p =>
    s.agree g p.1.stream (agreement p.2 ((fused.filter (fun q => q.1.stream ≠ p.1.stream)).map (fun q => q.2))))

/-- Reflected slices of an instant that get a view record (R217). -/
def State.viewed (s : State) (r : Released) : List Feat := r.reflected.filter (fun f => s.flag (F.CP_MBR_CTL.VIEW_RPT f.stream))

/-- The records of an instant that reflect a stream find room: its slice record, and its view record behind the `n` before it
(R10, R244). -/
def State.streamRoom (s : State) (g : Nat) (main : Bool) (views : List Feat) (i : Nat) : Bool :=
  let n := match (List.range views.length).reverse.find? (fun j => views[j]?.any (fun f => f.stream = i)) with
    | some j => j + 1
    | none => 0
  main && (!s.flag (F.CP_MBR_CTL.VIEW_RPT i) ||
    s.resultRoom (s.get (F.CP_GRP_RPT.VIEW_RING g)) (n + (s.cp.views.filter (fun v => v.1 = g)).length))

/-- RING_FULL begins for the streams of a group whose records must wait, and ends for the others (R10, R245). -/
def State.ringFull (s : State) (g n : Nat) (views : List Feat) : State :=
  let main := s.runRoom g n
  let full := (s.cpMembers g).filter (fun i => !s.streamRoom g main views i)
  let free := (s.cpMembers g).filter (fun i => s.streamRoom g main views i)
  (s.ringSpace (unionAll (free.map streamBit)) true).ringSpace (unionAll (full.map streamBit)) false

/-- View records of an instant wait behind its slice record (R217, R244); their consumption is owed (R425). -/
def State.views (s : State) (g : Nat) (r : Released) : State :=
  let s := s.each (s.viewed r) (fun s f =>
    let run : Run := ⟨.view g f.stream f.k, [s.viewRecord g r f (s.sliceSuspended f.stream f.k)]⟩
    let y := s.stream f.stream
    let s := s.setStream f.stream { y with viewOwed := y.viewOwed ++ [(g, f.k)] }
    { s with cp := { s.cp with views := s.cp.views ++ [(g, r.k, run)] } })
  s.pushViews g

/-- Read-out of an instant's run (R214–R217, R245). -/
def State.readOut (s : State) (g : Nat) (r : Released) (gridReset exhausted : Bool) : State :=
  let all := s.reported g r.k
  let keep := all.take (s.get (F.CP_GRP_RPT.MAX_RPT g))
  let open' := s.freeVal .numeric
  let s := s.tickFree
  let reports := keep.map (fun p => s.trackReport g r.k p.1 p.2.1 p.2.2 open')
  let s := s.each keep (fun s p =>
    let y := s.track p.1
    s.setTrack p.1 { y with flags := y.flags - y.flags % 2 })
  let s := (s.bumpBy (R.CP_GRP_CNT_RPT g) keep.length).bumpBy (R.CP_GRP_CNT_RPT_TRUNC g) (all.length - keep.length)
  let trunc := decide (keep.length < all.length)
  let s := if trunc then s.put F.CP_STAT.RPT_TRUNC 1 else s
  let skip := s.runHeld g r.k
  let s := if skip then s else s.ringFull g (keep.length + 1) (s.viewed r)
  let full := fun (i j : Nat) => s.ras.marks.any (fun m => m = (cRingFull, i, j)) || (s.causesOf i).contains cRingFull
  let suspended := r.suspended || r.reflected.any (fun f => full f.stream f.k)
  let s :=
    if skip then s
    else (s.deliver g r.k (s.sliceRecord g r suspended r.replayed gridReset exhausted trunc keep.length :: reports)).views g r
  let gone := fun (p : Nat × Nat) => r.reflected.any (fun f => p = (f.stream, f.k))
  let x := s.cpg g
  let s := s.setCpg g { x with absent := x.absent.filter (fun p => !gone p) }
  { s with ras := { s.ras with marks := s.ras.marks.filter (fun m => !gone m.2) } }

/-- What a switch of the fusion slot means for instant k (R205, R368): whether the grid channel layout changes there, and
whether the switch is reached. -/
def State.fusionSwitched (s : State) (g k : Nat) : Bool × Bool :=
  let layout := fun (n : Nat) => match s.slot n with
    | some x => x.image.gridLayout
    | none => 0
  match tabFind s.img.fusionOld g with
  | some (first, before) =>
    if first ≤ k then (layout before ≠ layout ((tabFind s.img.fusionSlot g).getD before), true) else (false, false)
  | none => (false, false)

/-- Lines of the grid memory that an instant reads which hold no good data: those found so now, and those known to be bad
(R205, R257). -/
def State.gridLost (s : State) (g k : Nat) (lost : List Nat) : List Nat :=
  let a := s.gridArea g
  let base := a.1 + (k + 1) % 2 * a.2
  (List.range (ceilDiv a.2 64)).filter (fun n => lost.contains n || (match s.regionAt (base + 64 * n) with
    | some r => s.lineBad r (base + 64 * n)
    | none => false))

/-- An uncorrectable line of grid memory sets its cell to zero (R205); the memory counts it (R257). -/
def State.gridReset (s : State) (g k n : Nat) : State :=
  let a := s.gridArea g
  let x := a.1 + (k + 1) % 2 * a.2 + n / 2 * 128
  let s := (s.put F.MEM_ERR.UE 1).bump R.MEM_CNT_UE
  let s := { s with mem := s.mem.filter (fun c => !within c.1 x 128) }
  match s.regionAt x with
  | some r => s.lineGood r (a.1 + (k + 1) % 2 * a.2 + 64 * n)
  | none => s

/-- Grid memory before an instant reads it (R205): zero at the start of a geometry or layout, and in the cells of bad lines; with
the number of those lines. -/
def State.gridReady (s : State) (g k : Nat) (lost : List Nat) : State × Nat :=
  let sw := s.fusionSwitched g k
  let s := if (s.cpg g).gridOk && !sw.1 then s else s.zeroGrid g
  let s := if sw.2 then { s with img := { s.img with fusionOld := tabErase s.img.fusionOld g } } else s
  let bad := s.gridLost g k lost
  let s := s.each bad (fun s n => s.gridReset g k n)
  (if bad.isEmpty then s else (s.put F.CP_STAT.GRID_UE 1).bumpBy (R.CP_GRP_CNT_GRID_RESET g) bad.length, bad.length)

/-- A unit serves released instants in the order of their release, ties to the lower group (R232); one that waits for a checkpoint
holds up its own group alone (R193, R205). -/
def State.served (s : State) (g : Nat) (r : Released) : Bool :=
  let u := s.get (F.CP_GRP_CTL.UNIT g)
  (List.range 32).all (fun h => h = g || s.get (F.CP_GRP_CTL.UNIT h) ≠ u || !s.groupOn h || (s.cpg h).ckpt.isSome ||
    (match (s.cpg h).fusing with
      | [] => true
      | q :: _ => decide (r.at' < q.at') || (r.at' = q.at' && decide (g < h))))

/-- Fusion of the oldest released instant of a group ends (R204–R217): grid memory, masking, detections, the slot pass,
the run, and the checkpoint begins.  It waits for the checkpoint of the instant before (R205). -/
def State.fuse (s : State) (g : Nat) (fu : Fused) : State :=
  let x := s.cpg g
  let u := s.get (F.CP_GRP_CTL.UNIT g)
  match x.fusing with
  | [] => s
  | r :: rest =>
    match (s.fusionFor g r.k).bind s.slot with
    | none => s
    | some im =>
      if !s.groupOn g || !s.served g r then s
      else if x.ckpt.isSome then s.put F.CP_STAT.CKPT_WAIT 1
      else
        let q := s.gridReady g r.k fu.lost
        let s := q.1
        let out := s.fusionProgram g r im.image fu.runs
        let area := s.gridArea g
        let s := s.dramPut (area.1 + r.k % 2 * area.2) (out.2.take area.2)
        let s := s.bumpBy (R.CP_UNIT_CNT_BUSY u) fu.busy
        let s := if s.orderBroken g r then s.put F.CP_STAT.PROJ_ORDER 1 else s
        let sights := s.sights g r
        let s := s.scoreMembers g r im.image
        let d := s.detections g sights out.1
        let s := s.bumpBy (R.CP_GRP_CNT_DET_DROP g) d.2
        let s := if d.2 ≠ 0 then s.put F.CP_STAT.DET_DROP 1 else s
        let p := s.runPass g r.k d.1
        let s := p.1
        let y := s.cpg g
        let s := s.setCpg g { y with
          fusing := rest, ckpt := some r.k, ckSent := false, retained := y.retained ++ [r], gridOk := true }
        let s := s.readOut g r (q.2 ≠ 0) (p.2.refused ≠ 0)
        s.showGroup g

def execFusionComplete (t group : Nat) (fused : Fused) (s : State) : Res := .next ((s.at t).fuse group fused)

/-! ### Checkpoints -/

/-- Address of the commit record of a group and buffer (R213). -/
def State.recordAddr (s : State) (g b : Nat) : Nat := 4096 * s.get F.CP_SLOT_BASE.BASE + 0x30000000 + 64 * (2 * g + b)

/-- The commit record of instant k: k, and a mark that the record is there (DESIGN CHOICE, log entry 86). -/
def commitRecord (k : Nat) : List Byte := fieldsBytes [(8, k), (1, 1), (55, 0)]

/-- The instant in the commit record of a group and buffer. -/
def State.committedAt (s : State) (g b : Nat) : Option Nat :=
  let a := s.recordAddr g b
  if s.dramNat (a + 8) 1 = 1 then some (s.dramNat a 8) else none

/-- The newest checkpoint with a commit record (R213, R426). -/
def State.newestRecord (s : State) (g : Nat) : Option Nat :=
  match s.committedAt g 0, s.committedAt g 1 with
  | some p, some q => some (max p q)
  | some p, none => some p
  | none, q => q

/-- Slot `i` as a checkpoint buffer holds it. -/
def State.bufferSlot (s : State) (b i : Nat) : Slot := slotOfBytes (s.dramRead (s.slotAddr (1 + b) i) 1024)

/-- Numbers of the slots of a group. -/
def State.poolNumbers (s : State) (g : Nat) : List Nat := (List.range (s.pool g).2).map ((s.pool g).1 + ·)

/-- Slots of a group that a buffer does not hold as they are. -/
def State.staleSlots (s : State) (g b : Nat) : List Nat := (s.poolNumbers g).filter (fun i => s.bufferSlot b i ≠ s.track i)

/-- The dirty slots of instant k are written to its buffer, and then its commit record (R213). -/
def State.writeCkpt (s : State) (g k : Nat) : State :=
  let x := s.cpg g
  let s := s.each (if k % 2 = 0 then x.dirty0 else x.dirty1) (fun s i => s.dramPut (s.slotAddr (1 + k % 2) i) (s.track i).bytes)
  let s := s.dramPut (s.recordAddr g (k % 2)) (commitRecord k)
  s.setCpg g { s.cpg g with dirty0 := if k % 2 = 0 then [] else x.dirty0, dirty1 := if k % 2 = 1 then [] else x.dirty1 }

/-- The checkpoint of instant k is reported complete (R213, R425). -/
def State.checkpointDone (s : State) (g k : Nat) : State :=
  let x := s.cpg g
  if x.ckpt ≠ some k then s
  else
    let s := s.setCpg g { x with ckpt := none, ckSent := false }
    let s := s.setReg (R.CP_GRP_CKPT g) (BitVec.ofNat 64 k)
    let s := s.setRel g { s.rel g with ckpt := raise (s.rel g).ckpt k }
    (s.dropRetained g).releaseGroup g

/-- Slot mirror messages of up to eight slots each (R429). -/
def State.mirrorSlots (s : State) (g k : Nat) (l : List Nat) : State :=
  s.each ((List.range (ceilDiv l.length 8)).map (fun n => (l.drop (8 * n)).take 8)) (fun s c =>
    s.toBuddy 2 0x04 g (fieldsBytes [(1, 1), (1, g), (6, 0), (8, k), (2, c.length)] ++
      c.flatMap (fun i => leBytes 4 i ++ (s.track i).bytes)))

/-- The buffer and its commit record are written: the checkpoint completes, in buddy mode once the buddy has confirmed it
(R213, R423, R428, R429). -/
def State.checkpoint (s : State) (g : Nat) : State :=
  let x := s.cpg g
  match x.ckpt with
  | none => s
  | some k =>
    if !s.runHeld g k then s
    else if s.flag F.HG_CTL.MIRROR && !x.ckSent then
      let dirty := if k % 2 = 0 then x.dirty0 else x.dirty1
      let s := (s.mirrorSlots g k dirty).writeCkpt g k
      let v := match s.ring (s.get (F.CP_GRP_RPT.RING g)) with
        | some r => r.dev
        | none => 0
      let sent := match s.exportOf g with
        | some q => s.get (F.NET_EXP_STAT.SENT_SEQ q)
        | none => 0
      let s := s.toBuddy 2 0x05 g (fieldsBytes [(1, g), (1, k % 2), (6, 0), (8, k), (8, ((s.rel g).vis).getD 0), (4, v), (4, sent), (4, dirty.length)])
      s.setCpg g { s.cpg g with ckSent := true }
    else if x.ckSent && s.flag F.HG_CTL.MIRROR then s
    else (if x.ckSent then s else s.writeCkpt g k).checkpointDone g k

def execSlotCheckpointComplete (t group : Nat) (s : State) : Res := .next ((s.at t).checkpoint group)

/-- The slots of a group are those of a checkpoint buffer (R218, R426). -/
def State.loadSlots (s : State) (g : Nat) (k : Option Nat) : State :=
  let old := s.cp.slots.filter (fun p => !((s.pool g).1 ≤ p.1 && p.1 < (s.pool g).1 + (s.pool g).2))
  let slots := match k with
    | some k => (s.poolNumbers g).foldl (fun t i => tabSet Slot.free t i (s.bufferSlot (k % 2) i)) old
    | none => old
  { s with cp := { s.cp with slots := slots } }

/-- Slots of a group are those of its newest completed checkpoint, and the instants after it are executed again from their
retained features (R218, R426). -/
def State.reexecute (s : State) (g : Nat) : State :=
  let x := s.cpg g
  let kc := s.newestRecord g
  let s := s.loadSlots g kc
  let later := (x.retained ++ x.fusing).filter (fun (r : Released) => !reached kc r.k)
  s.setCpg g { x with
    fusing := later.map (fun (r : Released) => { r with replayed := true }), retained := x.retained.filter (fun r => reached kc r.k)
    ckpt := if x.ckpt = kc then x.ckpt else none, ckSent := x.ckSent && x.ckpt = kc, passed := kc
    dirty0 := s.staleSlots g 0, dirty1 := s.staleSlots g 1 }

/-! ### Commit groups -/

/-- Checks of the global group: R219 names none that it can fail. -/
def cpGlbCode : Nat := 0

/-- A write to CP_GLB_COMMIT: the units start or stop with ENABLE. -/
def State.cpGlbCommit (s : State) (req val : Nat) : State :=
  let s := s.commitNow req R.CP_GLB_COMMIT val cpGlbCode
  let on := s.flag F.CP_CTL.ENABLE
  s.each (List.range 8) (fun s u => if s.get (F.CP_UNIT_STAT.STATE u) = 2 then s else s.put (F.CP_UNIT_STAT.STATE u) (bit on))

def execCpGlbCommit (t req val : Nat) (s : State) : Res :=
  .next ((s.at t).asReq req R.CP_GLB_COMMIT 4 val (fun s => s.cpGlbCommit req val))

/-- A group still owes a record (R219). -/
def State.owesRecord (s : State) (g : Nat) : Bool :=
  let x := s.cpg g
  !x.opens.isEmpty || !x.fusing.isEmpty || x.retained.any (fun r => !s.runHeld g r.k)

/-- Reports per second of every enabled group, with the staged values of one (R219), in units of 1/10^6. -/
def State.reportRate (s : State) (g : Nat) : Nat :=
  let other := sumNat (((List.range 32).filter (fun h => h ≠ g && s.flag (F.CP_GRP_CTL.ENABLE h))).map (fun h =>
    s.get (F.CP_GRP_RPT.MAX_RPT h) * 1000000000000 / max (s.get (F.CP_GRP_CTL.SLICE_US h)) 1))
  other + (if s.st (F.CP_GRP_CTL.ENABLE g) = 1 then s.st (F.CP_GRP_RPT.MAX_RPT g) * 1000000000000 / max (s.st (F.CP_GRP_CTL.SLICE_US g)) 1 else 0)

/-- A RESULT ring of at least n entries. -/
def State.isResult (s : State) (r n : Nat) : Bool :=
  match s.ring r with
  | some x => x.kind = .result && decide (n ≤ x.size)
  | none => false

/-- Registers of the group group that a commit may not change while the group runs (R219). -/
def State.cpFixedChanged (s : State) (g : Nat) : Bool :=
  let keep := fun (a : Nat) (hi lo : Nat) => setBits (s.shadowReg a) hi lo 0 ≠ setBits (s.reg a) hi lo 0
  keep (R.CP_GRP_CTL g) 63 38 || keep (R.CP_GRP_RPT g) 17 0 || s.regChanged (R.CP_GRP_GRID g) || s.regChanged (R.CP_GRP_ORIGIN g) ||
    s.regChanged (R.CP_GRP_GMEM g) || s.regChanged (R.CP_GRP_SLOTS g)

/-- A group field outside its range (R219). -/
def State.cpRange (s : State) (g : Nat) : Bool :=
  let out := fun (f : Fld) (lo hi : Nat) => decide (s.st f < lo) || decide (hi < s.st f)
  out (F.CP_GRP_CTL.W_US g) 50 800 || out (F.CP_GRP_CTL.SLICE_US g) 250 5000 || out (F.CP_GRP_GRID.CELL_CM g) 5 50 ||
    out (F.CP_GRP_SLOTS.COUNT g) 0 262144 || out (F.CP_GRP_HEALTH.DIS_N g) 1 255 || out (F.CP_GRP_HEALTH.DIS_EXIT_N g) 1 255 ||
    out (F.CP_GRP_HEALTH.DROP_N g) 1 15 || out (F.CP_GRP_HEALTH.MU g) 0 256 || out (F.CP_GRP_TRACK.DORMANT_S g) 1 65535 ||
    out (F.CP_GRP_TRACK.N_DORMANT g) 1 65535 || out (F.CP_GRP_TRACK.REID_THR g) 0 128 || out (F.CP_GRP_TRACK.N_CONFIRM g) 1 15 ||
    out (F.CP_GRP_TRACK.TENT_MISS g) 1 15 || out (F.CP_GRP_RPT.DET_MAX g) 0 16383

/-- First failing check of a group group (R219). -/
def State.cpGrpCode (s : State) (g : Nat) : Nat :=
  let was := s.flag (F.CP_GRP_CTL.ENABLE g)
  let on := s.st (F.CP_GRP_CTL.ENABLE g) = 1
  let a := s.st (F.CP_GRP_SLOTS.FIRST g)
  let n := s.st (F.CP_GRP_SLOTS.COUNT g)
  firstCode [
    (0x01, s.cpRange g),
    (0x06, (was && on && s.cpFixedChanged g) || (was && !on && (!(s.groupStreams g).isEmpty || s.owesRecord g))),
    (0x0F, a + n > 262144 || (List.range 32).any (fun h => h ≠ g && n ≠ 0 && (s.pool h).2 ≠ 0 &&
      decide (a < (s.pool h).1 + (s.pool h).2) && decide ((s.pool h).1 < a + n))),
    (0x10, !s.isResult (s.st (F.CP_GRP_RPT.RING g)) (s.st (F.CP_GRP_RPT.MAX_RPT g) + 1) ||
      ((s.cpMembers g).any (fun i => s.flag (F.CP_MBR_CTL.VIEW_RPT i)) && !s.isResult (s.st (F.CP_GRP_RPT.VIEW_RING g)) 1)),
    (0x11, s.reportRate g > 4194304 * 1000000)]

/-- A change of the slice length numbers the instants of a group afresh: nothing of the earlier numbering stands (DESIGN CHOICE, log
entry 88). -/
def State.newSlices (s : State) (g : Nat) : State :=
  let s := s.setCpg g { s.cpg g with feats := [], present := [], opens := [], last := none, passed := none, absent := [] }
  let s := s.setRel g ⟨none, none, none⟩
  s.each ([0, 1].filter (fun b => (s.committedAt g b).isSome)) (fun s b => s.dramPut (s.recordAddr g b) (zeros 64))

/-- A group that is enabled or moved shows at its unit (R218, R219); a new geometry starts from zero grid memory (R205), and a new
pool from slots that neither buffer need hold (R213). -/
def State.cpGrpApplied (s : State) (g : Nat) (before : State) : State :=
  let on := s.flag (F.CP_GRP_CTL.ENABLE g)
  let v := before.get (F.CP_GRP_CTL.UNIT g)
  let u := s.get (F.CP_GRP_CTL.UNIT g)
  let s := s.put (F.CP_UNIT_STAT.GROUPS v) (setMinus (s.get (F.CP_UNIT_STAT.GROUPS v)) (2 ^ g))
  let s := if on then s.put (F.CP_UNIT_STAT.GROUPS u) (s.get (F.CP_UNIT_STAT.GROUPS u) ||| 2 ^ g) else s
  let s := if s.get (F.CP_GRP_CTL.SLICE_US g) = before.get (F.CP_GRP_CTL.SLICE_US g) then s else s.newSlices g
  let same := fun a => s.reg a = before.reg a
  let s := if same (R.CP_GRP_GRID g) && same (R.CP_GRP_ORIGIN g) && same (R.CP_GRP_GMEM g) then s
    else s.setCpg g { s.cpg g with gridOk := false }
  let s := if before.reg (R.CP_GRP_SLOTS g) = s.reg (R.CP_GRP_SLOTS g) then s
    else s.setCpg g { s.cpg g with dirty0 := s.staleSlots g 0, dirty1 := s.staleSlots g 1 }
  s.showGroup g

/-- A write to CP_GRP_COMMIT: what a running group may change waits for its next opening (R219). -/
def State.cpGrpCommit (s : State) (req g val : Nat) : State :=
  let c := R.CP_GRP_COMMIT g
  let code := s.cpGrpCode g
  let running := s.flag (F.CP_GRP_CTL.ENABLE g) && s.st (F.CP_GRP_CTL.ENABLE g) = 1
  if running then s.commitLater req c val code
  else
    let ok := s.commitPasses req c val code
    let before := s
    let s := s.commitNow req c val code
    if ok then s.cpGrpApplied g before else s

def execCpGrpCommit (t req group val : Nat) (s : State) : Res :=
  .next ((s.at t).asReq req (R.CP_GRP_COMMIT group) 4 val (fun s => s.cpGrpCommit req group val)).mirrorConfig

/-- The feature shape of the image that serves a stream: width, height, channels (R202). -/
def State.featShape (s : State) (i : Nat) : Option (Nat × Nat × Nat) :=
  match tabFind s.img.streamSlot i with
  | none => none
  | some n => match s.slot n with
    | none => none
    | some x => match x.image.layers[handLayer x.image.layers]? with
      | some l => some (l.outDims.2, l.outDims.1, l.cout)
      | none => none

/-- The projection header of a member matches its image's feature shape, where one serves it, and the group's grid (R202). -/
def State.projOk (s : State) (i : Nat) : Bool :=
  let a := 64 * s.st (F.CP_MBR_PROJ.ADDR i)
  let g := s.st (F.HG_STREAM_CTL.GROUP i)
  (match s.featShape i with
    | some (w, h, c) => s.mapNat i 2 a 4 2 = w && s.mapNat i 2 a 6 2 = h && s.mapNat i 2 a 8 1 = c
    | none => true) &&
  s.mapNat i 2 a 10 2 = s.get (F.CP_GRP_GRID.CELLS_X g) && s.mapNat i 2 a 12 2 = s.get (F.CP_GRP_GRID.CELLS_Y g)

/-- First failing check of a member group (R219); the stream's group is the one that a held change of its stream group
names (DEDUCED, log entry 34). -/
def State.cpMbrCode (s : State) (i : Nat) : Nat :=
  let g := s.st (F.HG_STREAM_CTL.GROUP i)
  let on := s.st (F.CP_MBR_CTL.ENABLE i) = 1
  firstCode [
    (0x10, s.st (F.CP_MBR_CTL.VIEW_RPT i) = 1 && !s.isResult (s.get (F.CP_GRP_RPT.VIEW_RING g)) 1),
    (0x12, on && ((s.cpMembers g).any (fun j => j ≠ i && s.posOf j = s.st (F.CP_MBR_CTL.POSITION i)) || !s.projOk i))]

/-- A write to CP_MBR_COMMIT. -/
def State.cpMbrCommit (s : State) (req i val : Nat) : State :=
  let s := s.commitNow req (R.CP_MBR_COMMIT i) val (s.cpMbrCode i)
  s.setReason i 5 (s.flag (F.CP_MBR_CTL.SW_MASK i))

def execCpMbrCommit (t req stream val : Nat) (s : State) : Res :=
  .next ((s.at t).asReq req (R.CP_MBR_COMMIT stream) 4 val (fun s => s.cpMbrCommit req stream val)).mirrorConfig

end Sys2Proof.Machine
end

