-- ==== Sys2Proof/Machine/NetTime.lean ====
section
/-!
DEFINITION. Ports, launch time and device time (R385–R403, R409–R413): port failure and return, G.8032 instances, queue 7,
transmit timestamps, the servo, PPS, and the commit groups of the network block.
-/

namespace Sys2Proof.Machine

/-! ### Ports -/

/-- Number of ports of the current mode (R385). -/
def modePorts (mode : Nat) : Nat := if mode = 1 then 4 else if mode = 2 then 16 else 8

/-- Rate of a port in Gb/s (R385). -/
def modeRate (mode : Nat) : Nat := if mode = 1 then 400 else if mode = 2 then 100 else 200

def State.portExists (s : State) (p : Nat) : Bool := decide (p < modePorts (s.get F.NET_CTL.MODE))

/-- Wire time of a number of bytes, ns (R397). -/
def State.wireNs (s : State) (bytes : Nat) : Nat := ceilDiv (8 * bytes) (modeRate (s.get F.NET_CTL.MODE))

/-! ### G.8032 ring instances (R389; the state machine of ITU-T G.8032, PRESUMED, log entry 32) -/

def Erp.empty : Erp := ⟨0, 0, none, none⟩

def State.erp (s : State) (n : Nat) : Erp := tabGet Erp.empty s.net.erps n

def State.setErp (s : State) (n : Nat) (x : Erp) : State := { s with net := { s.net with erps := tabInsert s.net.erps n x } }

/-- Ring port of an instance. -/
def State.ringPort (s : State) (n side : Nat) : Nat := if side = 0 then s.get (F.NET_ERP_k.PORT0 n) else s.get (F.NET_ERP_k.PORT1 n)

/-- The side of an instance that a port is, if any. -/
def State.ringSide (s : State) (n p : Nat) : Option Nat :=
  if !s.flag (F.NET_ERP_k.ENABLE n) then none
  else if s.ringPort n 0 = p then some 0 else if s.ringPort n 1 = p then some 1 else none

/-- A port is blocked for a VLAN: some instance blocks it. -/
def State.ringBlocked (s : State) (p : Nat) : Bool :=
  (List.range 8).any (fun n => match s.ringSide n p with
    | some side => (s.erp n).blocked.testBit side
    | none => false)

/-- Wait-to-restore, 5 min; guard timer, 500 ms (the default of G.8032). -/
def wtrNs : Nat := 300000000000
def guardNs : Nat := 500000000

/-- An R-APS message leaves on both ring ports of an instance: destination 01-19-A7-00-00-01, EtherType 0x8902, opcode 40,
request and state, status, node identifier. -/
def State.raps (s : State) (n request status : Nat) : State :=
  let mac := s.get F.NET_MAC.ADDR
  let body := beBytes 6 0x0119A7000001 ++ beBytes 6 mac ++ beBytes 2 0x8100 ++ beBytes 2 (7 * 8192 + s.get (F.NET_ERP_k.RAPS_VID n)) ++
    beBytes 2 0x8902 ++ beBytes 1 0x20 ++ beBytes 1 40 ++ beBytes 1 0 ++ beBytes 1 32 ++ beBytes 1 (16 * request) ++
    beBytes 1 status ++ beBytes 6 mac ++ zeros 24 ++ zeros 1
  s.each [s.ringPort n 0, s.ringPort n 1] (fun s p => if s.portUp p then s.emit (.frame p body) else s)

/-- A ring port of an instance fails: it is blocked, the other side opens, and signal fail is announced. -/
def State.erpFail (s : State) (p : Nat) : State :=
  s.each (List.range 8) (fun s n => match s.ringSide n p with
    | none => s
    | some side =>
      let x := s.erp n
      let failed := x.failed ||| 2 ^ side
      let s := s.setErp n { x with failed := failed, blocked := failed, wtrAt := none }
      (s.put (F.NET_ERP_k.STATE n) 2).raps n 0xB 0)

/-- A ring port is clear of its failure: the guard timer starts, the RPL owner starts wait-to-restore, and NR is announced. -/
def State.erpClear (s : State) (p : Nat) : State :=
  s.each (List.range 8) (fun s n => match s.ringSide n p with
    | none => s
    | some side =>
      let x := s.erp n
      let failed := setMinus x.failed (2 ^ side)
      let s := s.setErp n { x with
        failed := failed, guardAt := some (s.time + guardNs)
        wtrAt := if failed = 0 && s.get (F.NET_ERP_k.ROLE n) = 1 then some (s.time + wtrNs) else none }
      (s.put (F.NET_ERP_k.STATE n) (if failed = 0 then 5 else 2)).raps n 0x0 0)

/-- Wait-to-restore ends at the RPL owner: the RPL port is blocked again, the other side opened, NR with RB announced. -/
def State.waitToRestore (s : State) (n : Nat) : State :=
  match (s.erp n).wtrAt with
  | none => s
  | some t =>
    let s := s.at t
    let s := s.setErp n { s.erp n with blocked := 2 ^ s.get (F.NET_ERP_k.RPL_PORT n), wtrAt := none }
    (s.put (F.NET_ERP_k.STATE n) 1).raps n 0x0 0x80

def execWaitToRestore (inst : Nat) (s : State) : Res := .next (s.waitToRestore inst)

/-- The guard timer ends: R-APS messages are taken again. -/
def State.guardEnd (s : State) (n : Nat) : State :=
  match (s.erp n).guardAt with
  | none => s
  | some t => (s.at t).setErp n { s.erp n with guardAt := none }

def execGuardTimer (inst : Nat) (s : State) : Res := .next (s.guardEnd inst)

/-- An R-APS message is taken: ignored while the guard timer runs (R389). -/
def State.rapsIn (s : State) (n side request status : Nat) : State :=
  let x := s.erp n
  if x.guardAt.isSome then s
  else if request = 0xB then
    let s := s.setErp n { x with blocked := x.failed, wtrAt := none }
    s.put (F.NET_ERP_k.STATE n) 2
  else if request = 0 && status / 128 % 2 = 1 then
    let own := s.get (F.NET_ERP_k.ROLE n)
    let s := s.setErp n { x with blocked := if own = 0 then x.failed else x.failed ||| 2 ^ s.get (F.NET_ERP_k.RPL_PORT n), wtrAt := none }
    s.put (F.NET_ERP_k.STATE n) (if x.failed = 0 then 1 else 2)
  else if request = 0 then
    if s.get (F.NET_ERP_k.ROLE n) = 1 && x.failed = 0 && x.wtrAt.isNone && s.get (F.NET_ERP_k.STATE n) = 2 then
      (s.setErp n { x with wtrAt := some (s.time + wtrNs) }).put (F.NET_ERP_k.STATE n) 5
    else s
  else if request = 0xD then
    (s.setErp n { x with blocked := x.failed ||| 2 ^ side, wtrAt := none }).put (F.NET_ERP_k.STATE n) 4
  else if request = 0x7 then
    (s.setErp n { x with blocked := x.failed, wtrAt := none }).put (F.NET_ERP_k.STATE n) 3
  else s

/-! ### Port failure and return -/

/-- Streams that a port's failure affects (R421). -/
def State.portStreams (s : State) (p : Nat) : Nat :=
  let cams := (List.range 128).filter (fun i => s.streamState i ≠ 0 && (s.stream i).lastPort = p)
  let exps := ((List.range 32).filter (fun q => s.flag (F.NET_EXP_CTL.ENABLE q) && s.expPort q = p)).flatMap (fun q =>
    s.groupStreams (s.get (F.NET_EXP_CTL.GROUP q)))
  let mirrored := if s.flag F.HG_CTL.MIRROR then
      (match s.peerOf (s.get F.RAS_BUDDY.PEER) with
        | some k => (List.range 128).filter (fun i => s.streamState i ≠ 0 && s.memberFor k i = p)
        | none => [])
    else []
  unionAll ((cams ++ exps ++ mirrored).map streamBit)

/-- Unacknowledged messages of failed members go out again on the members that carry their streams now (R406). -/
def State.cvMove (s : State) (p : Nat) : State :=
  s.each (List.range 16) (fun s k =>
    if !s.peerUp k then s
    else
      s.each [1, 2, 3] (fun s ch =>
        let x := s.peer k
        let key := chanKey ch p
        let c := x.chan key
        let s := s.setPeer k (x.setChan key { c with unacked := [], wait := [] })
        let via := if ch = 3 then s.controlPort k else s.memberFor k (((s.members k).idxOf p) + 1)
        s.each (c.unacked.map (fun m => (m.type, m.payload)) ++ c.wait) (fun s m => s.cvSend k ch via m.1 m.2)))

/-- A port fails (R386): it stops, its learned entries go, its ring instances signal, and export queues and peers move. -/
def State.portFail (s : State) (p flags : Nat) : State :=
  if !s.portExists p || s.flag (F.NET_PORT_STAT.FAILED p) then s
  else
    let streams := s.portStreams p
    let qs := (List.range 32).filter (fun q => s.flag (F.NET_EXP_CTL.ENABLE q) && s.expPort q = p && s.get (F.NET_EXP_STAT.STATE q) ≠ 3)
    let s := ((s.put (F.NET_PORT_STAT.FAILED p) 1).put (F.NET_PORT_STAT.LINK p) 0).put (F.NET_PORT_STAT.FEC_LOCK p) 0
    let s := { s with net := { s.net with
      fdb := s.net.fdb.filter (fun e => e.2.static || e.2.port ≠ p), downSince := tabInsert s.net.downSince p s.time } }
    let usable := ((List.range (modePorts (s.get F.NET_CTL.MODE))).filter (fun q => s.portUp q)).length
    let s := s.singlePartFault pPort p 1 streams 0 usable flags
    let s := (s.put F.NET_ERR.PORT_FAIL 1).erpFail p
    let s := (s.each qs State.reroute).cvMove p
    s.degraded pPort p 1 streams usable flags s.adm.floor

def execPortFail (t port : Nat) (s : State) : Res := .next ((s.at t).portFail port (s.testFlag pPort port))

/-- A failed port returns to service (R386, R403) after 1 s without a further failure: queues that moved or were BLOCKED go back
to it. -/
def State.portReturn (s : State) (p : Nat) : State :=
  if !s.flag (F.NET_PORT_STAT.FAILED p) || s.net.testDown.testBit p || s.time < tabGet 0 s.net.downSince p + 1000000000 then s
  else
    let s := ((s.put (F.NET_PORT_STAT.FAILED p) 0).put (F.NET_PORT_STAT.LINK p) 1).put (F.NET_PORT_STAT.FEC_LOCK p) 1
    let s := s.erpClear p
    s.each ((List.range 32).filter (fun q => s.flag (F.NET_EXP_CTL.ENABLE q) && s.get (F.NET_EXP_STAT.STATE q) ≠ s.expRoute q))
      State.reroute

def execPortReturn (t port : Nat) (s : State) : Res := .next ((s.at t).portReturn port)

/-- An enabled port that has never failed reaches link up and FEC lock (R385). -/
def State.portLinkUp (s : State) (p : Nat) : State :=
  if s.portExists p && s.flag (F.NET_PORT_CTL.ENABLE p) && !s.flag (F.NET_PORT_STAT.FAILED p) then
    (s.put (F.NET_PORT_STAT.LINK p) 1).put (F.NET_PORT_STAT.FEC_LOCK p) 1
  else s

def execPortLinkUp (t port : Nat) (s : State) : Res := .next ((s.at t).portLinkUp port)

/-! ### Queue 7 and transmit timestamps -/

/-- Time of a frame's timestamp point corrected by the egress delay, in picoseconds (R394). -/
def State.egressPs (s : State) (p t : Nat) : Nat := ((1000 * (t : Int)) + s.getS (F.NET_PORT_DLY.EGRESS p)).toNat

/-- A transmit timestamp is appended, or discarded when the queue holds 64 (R396). -/
def State.stampTx (s : State) (p id t : Nat) : State :=
  let q := tabGet [] s.net.txts p
  let ps := s.egressPs p t
  if q.length ≥ 64 then (s.put (F.NET_PORT_TXTS_STAT.OVF p) 1).bump (R.NET_PORT_CNT_TXTS_DROP p)
  else
    let s := { s with net := { s.net with txts := tabInsert s.net.txts p (q ++ [(id, ps / 1000, ps % 1000 * 65536 / 1000)]) } }
    s.put (F.NET_PORT_TXTS_STAT.OCC p) (q.length + 1)

/-- The oldest timestamp of a port leaves its queue for NET_PORT_TXTS_ID and NET_PORT_TXTS_TIME (R396). -/
def State.popEntry (s : State) (p : Nat) : State :=
  match tabGet [] s.net.txts p with
  | [] => s.setReg (R.NET_PORT_TXTS_ID p) 0
  | (id, ns, fr) :: r =>
    let s := { s with net := { s.net with txts := tabInsert s.net.txts p r } }
    let s := ((s.put (F.NET_PORT_TXTS_ID.VALID p) 1).put (F.NET_PORT_TXTS_ID.FRAC p) fr).put (F.NET_PORT_TXTS_ID.FRAME_ID p) id
    let s := s.put (F.NET_PORT_TXTS_TIME.NS p) ns
    s.put (F.NET_PORT_TXTS_STAT.OCC p) r.length

/-- A control core's read of NET_PORT_TXTS_ID pops the oldest timestamp; other reads return 0 and pop nothing (R396). -/
def State.popTxts (s : State) (req p : Nat) : State :=
  let off := R.NET_PORT_TXTS_ID p
  if !isControlCore req then s.emit (.readData req off 0)
  else
    let s := s.popEntry p
    s.emit (.readData req off (s.reg off).toNat)

def execNetPortTxtsId (t req port : Nat) (s : State) : Res := .next ((s.at t).asReader req (R.NET_PORT_TXTS_ID port) 8 (fun s => s.popTxts req port))

/-- What a launch-time frame is when it leaves: a heartbeat takes its transmit time at the timestamp point (R407). -/
def State.sendLaunch (s : State) (p start : Nat) (f : TxFrame) : State :=
  let s := s.bump (R.NET_PORT_CNT_TX p)
  match f.what with
  | .gram q seq =>
    let dst := s.get (F.NET_EXP_DST_LO.ADDR q) + 2 ^ 64 * s.get (F.NET_EXP_DST_HI.ADDR q)
    let s := s.emit (.udp p (s.ingestAddr dst) (s.get F.NET_CTL.EXPORT_UDP) dst (s.get (F.NET_EXP_UDP.PORT q)) f.payload)
    (s.at (start + s.wireNs f.wire)).gramSent q seq
  | .heartbeat k alt => (s.cvBeat k p alt (leBytes 8 (s.egressPs p start / 1000) ++ f.payload.drop 8)).at (start + s.wireNs f.wire)
  | .other id =>
    let s := s.emit (.frame p f.payload)
    (match id with
    | some n => s.stampTx p n start
    | none => s).at (start + s.wireNs f.wire)

/-- Export and Culvert frames are always sent (R398). -/
def TxWhat.mustSend : TxWhat → Bool
  | .other _ => false
  | _ => true

/-- The head frame of queue 7 starts, at its launch time or as soon as it may (R397, R398); no run is sent after a FATAL
error (R419) or while FENCED (R432). -/
def State.launch (s : State) (p : Nat) : State :=
  match tabGet [] s.net.q7 p with
  | [] => s
  | f :: r =>
    let gram := match f.what with
      | .gram _ _ => true
      | _ => false
    if !s.portUp p || (gram && s.mute) then s
    else
      let start := max s.time f.launch
      let s := (s.at start)
      let s := { s with net := { s.net with q7 := tabInsert s.net.q7 p r } }
      let late := decide (start > f.launch + s.get (F.NET_PORT_CTL.LATE_TOL p))
      if late && s.flag (F.NET_PORT_CTL.LATE_DROP p) && !f.what.mustSend then s.bump (R.NET_PORT_CNT_LATE_DROP p)
      else
        let s := if late then s.bump (R.NET_PORT_CNT_LATE_SENT p) else s
        s.sendLaunch p start f

def execLaunch (t port : Nat) (s : State) : Res := .next ((s.at t).launch port)

/-! ### Device time -/

/-- Top 16 bits of the fraction (R391). -/
def State.timeFrac (s : State) : Nat := s.frac / 65536

/-- The time and its fraction of one instant in TIM_NOW and TIM_NOW_FRAC (R391). -/
def State.latchTime (s : State) : State := (s.put F.TIM_NOW.NS s.time).put F.TIM_NOW_FRAC.FRAC s.timeFrac

/-- A read of TIM_NOW latches the fraction (R391). -/
def State.readTime (s : State) (req : Nat) : State := s.latchTime.emit (.readData req R.TIM_NOW s.time)

def execTimNow (t req : Nat) (s : State) : Res := .next ((s.at t).asReader req R.TIM_NOW 8 (fun s => s.readTime req))

/-- Nominal ADDEND, and its limits at ±200 ppm (R391). -/
def nominalAddend : Nat := 0x280000000
def addendSlack : Nat := nominalAddend / 5000

/-- The servo's PI control gives ADDEND a value within ±200 ppm of nominal, which the spec does not fix further (R391,
R392). -/
def State.steer (s : State) : State :=
  let v := nominalAddend - addendSlack + s.freeVal .numeric % (2 * addendSlack + 1)
  let s := s.tickFree.put F.TIM_ADDEND.ADDEND v
  if s.get F.TIM_SERVO.STATE = 2 then
    { s with net := { s.net with servo := { s.net.servo with
      means := ((s.time, v) :: s.net.servo.means).filter (fun m => s.time ≤ m.1 + 16000000000) } } }
  else s

/-- No stream is open and no timed activation or configuration is pending (R392). -/
def State.mayStep (s : State) : Bool :=
  !(List.range 128).any (fun i => s.streamState i ≠ 0) && !s.img.slots.any (fun p => p.2.pending.isSome) &&
    !s.aid.ctxs.any (fun c => c.opcode = 0x38 && c.waiting ≠ 0)

/-- The offset sample of a Sync or of a PPS edge (R392). -/
def State.offsetSample (s : State) (off : Int) : State :=
  let st := s.get F.TIM_SERVO.STATE
  let mag := off.natAbs
  let v := s.net.servo
  let near := if mag < 100 then v.near + 1 else 0
  let far := if mag ≥ 1000 then v.far + 1 else 0
  let s := { s with net := { s.net with servo := { v with near := near, far := far } } }
  let s := s.setReg R.TIM_OFFSET (BitVec.ofNat 64 (fromSigned 64 off))
  if st = 1 && mag > 10000 && s.mayStep then { s with time := ((s.time : Int) - off).toNat }
  else
    let s := s.steer
    if st = 1 && near ≥ 16 then s.put F.TIM_SERVO.STATE 2
    else if st = 2 && far ≥ 4 then s.put F.TIM_SERVO.STATE 1
    else s

/-- A source is selected and valid: LOCKING from FREE or HOLDOVER (R392). -/
def State.sourceValid (s : State) : State :=
  let st := s.get F.TIM_SERVO.STATE
  if st = 0 || st = 3 then
    let s := { s with net := { s.net with servo := { s.net.servo with near := 0, far := 0, holdSince := none } } }
    s.put F.TIM_SERVO.STATE 1
  else s

/-- Mean of a list of numbers; `d` for none. -/
def meanOr (d : Nat) (l : List Nat) : Nat := if l.isEmpty then d else sumNat l / l.length

/-- The source is silent: HOLDOVER with the mean ADDEND of the last 16 s in LOCKED (R392). -/
def State.sourceLost (s : State) : State :=
  let st := s.get F.TIM_SERVO.STATE
  if st = 1 || st = 2 then
    let v := s.net.servo
    let mean := meanOr (s.get F.TIM_ADDEND.ADDEND) (v.means.map (fun m => m.2))
    let s := { s with net := { s.net with servo := { v with holdSince := some s.time } } }
    (s.put F.TIM_ADDEND.ADDEND mean).put F.TIM_SERVO.STATE 3
  else s

/-- The time for which the source has been silent has passed: 3 s for PPS_IN; that of PTP is counted in intervals of its messages,
which the row observes (R392). -/
def State.sourceSilent (s : State) : Bool := s.get F.TIM_SERVO.SOURCE ≠ 1 || decide (s.net.servo.ppsAt + 3000000000 ≤ s.time)

def execSourceTimeout (t : Nat) (s : State) : Res := .next (if (s.at t).sourceSilent then (s.at t).sourceLost else s.at t)

/-- HOLDOVER outlasts HOLD_S (R392). -/
def State.holdoverLimit (s : State) : State :=
  let h := s.get F.TIM_SERVO.HOLD_S
  match s.net.servo.holdSince with
  | none => s
  | some t =>
    if h = 0 || s.get F.TIM_SERVO.STATE ≠ 3 then s
    else
      let s := s.at (t + 1000000000 * h)
      let s := { s with net := { s.net with servo := { s.net.servo with holdSince := none } } }
      s.put F.TIM_SERVO.STATE 0

def execHoldoverLimit (s : State) : Res := .next s.holdoverLimit

/-- A rising edge of PPS_IN (R392, R395): stamped, and with SOURCE = PPS_IN an offset sample against whole seconds. -/
def State.ppsIn (s : State) : State :=
  if !s.flag F.TIM_PPS.IN_EN then s
  else
    let s := s.put F.TIM_PPS_IN.NS s.time
    if s.get F.TIM_SERVO.SOURCE ≠ 1 then s
    else
      let r := s.time % 1000000000
      let off : Int := if r < 500000000 then r else (r : Int) - 1000000000
      let s := { s.sourceValid with net := { s.sourceValid.net with servo := { s.sourceValid.net.servo with ppsAt := s.time } } }
      s.offsetSample off

def execPpsIn (t : Nat) (s : State) : Res := .next ((s.at t).ppsIn)

/-- Device time crosses a whole second: PPS_OUT rises (R395); signal 1 of the outputs, value 1. -/
def State.ppsOut (s : State) : State :=
  let t := (s.time / 1000000000 + 1) * 1000000000
  let s := s.at t
  if s.flag F.TIM_PPS.OUT_EN then
    { s.emit (.irq 1 1) with net := { s.net with ppsDue := some (t + 1000000 * s.get F.TIM_PPS.WIDTH_MS) } }
  else s

def execPpsOut (s : State) : Res := .next s.ppsOut

/-- The end of the PPS output pulse (R395). -/
def State.ppsOutFall (s : State) : State :=
  match s.net.ppsDue with
  | none => s
  | some t => { (s.at t).emit (.irq 1 0) with net := { s.net with ppsDue := none } }

def execPpsOutFall (s : State) : Res := .next s.ppsOutFall

/-! ### Forwarding entries -/

/-- A write to NET_FDB_DATA completes the entry that NET_FDB_ADDR names, with the VLAN of NET_FDB_VID (R410). -/
def State.fdbData (s : State) (val : Word) : State :=
  let i := s.get F.NET_FDB_ADDR.INDEX
  let s := s.setReg R.NET_FDB_DATA (val &&& 0xDF00FFFFFFFFFFFF)
  let e : FdbEntry := ⟨s.get F.NET_FDB_DATA.PORT, s.get F.NET_FDB_DATA.MAC, s.get F.NET_FDB_VID.VID, true, s.time⟩
  if s.flag F.NET_FDB_DATA.VALID then { s with net := { s.net with fdb := tabInsert s.net.fdb i e } }
  else { s with net := { s.net with fdb := tabErase s.net.fdb i } }

def execNetFdbData (t req val : Nat) (s : State) : Res :=
  .next ((s.at t).asReq req R.NET_FDB_DATA 8 val (fun s => s.fdbData (BitVec.ofNat 64 val)))

/-- What a read of NET_FDB_DATA finds for the selected entry. -/
def State.fdbView (s : State) : Word :=
  match tabFind s.net.fdb (s.get F.NET_FDB_ADDR.INDEX) with
  | some e => BitVec.ofNat 64 (2 ^ 63 + bit e.static * 2 ^ 62 + e.port * 2 ^ 56 + e.mac)
  | none => 0

/-- A learned entry has not been seen for AGE_S (R387). -/
def State.fdbAge (s : State) (i : Nat) : State :=
  match tabFind s.net.fdb i with
  | some e =>
    if e.static || s.time < e.seen + 1000000000 * s.get F.NET_CTL.AGE_S then s
    else { s with net := { s.net with fdb := tabErase s.net.fdb i } }
  | none => s

def execFdbAgeing (t index : Nat) (s : State) : Res := .next ((s.at t).fdbAge index)

/-! ### Commit groups -/

/-- First failing check of the global group (R409, R410). -/
def State.netGlbCode (s : State) : Nat := firstCode [
  (0x01, s.st F.NET_CTL.AGE_S < 10 || s.st F.NET_CTL.MODE > 2),
  (0x19, s.changed F.NET_CTL.MODE && (List.range 16).any (fun p => s.flag (F.NET_PORT_CTL.ENABLE p)))]

/-- A write to NET_GLB_COMMIT (R410). -/
def State.netGlbCommit (s : State) (req val : Nat) : State := s.commitNow req R.NET_GLB_COMMIT val s.netGlbCode

def execNetGlbCommit (t req val : Nat) (s : State) : Res :=
  .next ((s.at t).asReq req R.NET_GLB_COMMIT 4 val (fun s => s.netGlbCommit req val))

/-- First failing check of a port group (R409). -/
def State.netPortCode (s : State) (p : Nat) : Nat :=
  let a := R.NET_PORT_CTL p
  let keep := fun (w : Word) => setBits (setBits (setBits (setBits w 63 63 0) 31 31 0) 23 0 0) 59 48 0
  firstCode [
    (0x01, s.st (F.NET_PORT_CTL.PTP_ROLE p) > 2),
    (0x06, s.flag (F.NET_PORT_CTL.ENABLE p) && (keep (s.shadowReg a) ≠ keep (s.reg a) || s.regChanged (R.NET_PORT_DLY p)))]

/-- A write to NET_PORT_COMMIT: a port that is disabled has no link; that of an absent port is ignored (R385). -/
def State.netPortCommit (s : State) (req p val : Nat) : State :=
  if !s.portExists p then s
  else
    let s := s.commitNow req (R.NET_PORT_COMMIT p) val (s.netPortCode p)
    if s.flag (F.NET_PORT_CTL.ENABLE p) then s else (s.put (F.NET_PORT_STAT.LINK p) 0).put (F.NET_PORT_STAT.FEC_LOCK p) 0

def execNetPortCommit (t req port val : Nat) (s : State) : Res :=
  .next ((s.at t).asReq req (R.NET_PORT_COMMIT port) 4 val (fun s => s.netPortCommit req port val))

/-- First failing check of an export group (R399, R409). -/
def State.netExpCode (s : State) (q : Nat) : Nat :=
  let on := s.st (F.NET_EXP_CTL.ENABLE q) = 1
  let g := s.st (F.NET_EXP_CTL.GROUP q)
  let runs := s.flag (F.CP_GRP_CTL.ENABLE g) || s.flag (F.CP_GRP_CTL.ENABLE (s.get (F.NET_EXP_CTL.GROUP q)))
  firstCode [
    (0x01, s.st (F.NET_EXP_CTL.LAUNCH_OFF q) > 1000000),
    (0x06, runs && (s.changed (F.NET_EXP_CTL.ENABLE q) || s.changed (F.NET_EXP_CTL.GROUP q))),
    (0x19, on && (!s.portExists (s.st (F.NET_EXP_CTL.PORT q)) ||
      (s.st (F.NET_EXP_CTL.ALT_EN q) = 1 && !s.portExists (s.st (F.NET_EXP_CTL.ALT_PORT q))))),
    (0x1A, on && (g > 31 || (List.range 32).any (fun r => r ≠ q && s.flag (F.NET_EXP_CTL.ENABLE r) && s.get (F.NET_EXP_CTL.GROUP r) = g) ||
      (s.st (F.NET_EXP_CTL.ALT_EN q) = 1 && s.st (F.NET_EXP_CTL.ALT_PORT q) = s.st (F.NET_EXP_CTL.PORT q))))]

/-- A write to NET_EXP_COMMIT: a change that bears on delivery asks for an admission recomputation (R401). -/
def State.netExpCommit (s : State) (req q val : Nat) : State :=
  let c := R.NET_EXP_COMMIT q
  let code := s.netExpCode q
  let ok := s.commitPasses req c val code
  let delivery := s.changed (F.NET_EXP_CTL.PORT q) || s.changed (F.NET_EXP_CTL.ALT_PORT q) || s.changed (F.NET_EXP_CTL.JUMBO q) ||
    s.changed (F.NET_EXP_CTL.LAUNCH_OFF q)
  let g := s.get (F.NET_EXP_CTL.GROUP q)
  let live := (s.groupStreams g).any (fun i => s.adm.admitted.testBit i)
  let s := s.commitNow req c val code
  if !ok then s
  else
    let st := s.get (F.NET_EXP_STAT.STATE q)
    let s := if !s.flag (F.NET_EXP_CTL.ENABLE q) then s.put (F.NET_EXP_STAT.STATE q) 0
      else if st ≠ s.expRoute q then s.reroute q
      else s
    if delivery && live then { s with aid := { s.aid with evals := s.aid.evals ++ [.delivery] } } else s

def execNetExpCommit (t req queue val : Nat) (s : State) : Res :=
  .next ((s.at t).asReq req (R.NET_EXP_COMMIT queue) 4 val (fun s => s.netExpCommit req queue val)).mirrorConfig

/-- First failing check of a peer group (R409). -/
def State.netPeerCode (s : State) (k : Nat) : Nat :=
  let on := s.st (F.NET_PEER_CTL.ENABLE k) = 1
  let d := s.st (F.NET_PEER_CTL.DEVNUM k)
  let links := s.st (F.NET_PEER_CTL.LINKS k)
  firstCode [
    (0x01, popcount 16 links > 4),
    (0x19, on && (!s.portExists (s.st (F.NET_PEER_CTL.PORT k)) ||
      (s.st (F.NET_PEER_CTL.ALT_EN k) = 1 && !s.portExists (s.st (F.NET_PEER_CTL.ALT_PORT k))) ||
      (List.range 16).any (fun p => links.testBit p && !s.portExists p))),
    (0x1B, on && (d = s.devNum || (List.range 16).any (fun j => j ≠ k && s.flag (F.NET_PEER_CTL.ENABLE j) && s.get (F.NET_PEER_CTL.DEVNUM j) = d)))]

/-- Peers that are up (R495). -/
def State.countPeers (s : State) : State := s.put F.SEC_SESS.PEERS ((List.range 16).filter s.peerUp).length

/-- A write to NET_PEER_COMMIT: an enabled peer starts its handshake, a disabled one is OFF. -/
def State.netPeerCommit (s : State) (req k val : Nat) : State :=
  let c := R.NET_PEER_COMMIT k
  let code := s.netPeerCode k
  let ok := s.commitPasses req c val code
  let s := s.commitNow req c val code
  if !ok then s
  else if s.flag (F.NET_PEER_CTL.ENABLE k) then
    if s.get (F.NET_PEER_STAT.STATE k) = 0 then s.put (F.NET_PEER_STAT.STATE k) 1 else s
  else (s.put (F.NET_PEER_STAT.STATE k) 0).countPeers

def execNetPeerCommit (t req peer val : Nat) (s : State) : Res :=
  .next ((s.at t).asReq req (R.NET_PEER_COMMIT peer) 4 val (fun s => s.netPeerCommit req peer val))

/-- First failing check of the TIM group (R413). -/
def State.timCode (s : State) : Nat := firstCode [
  (0x01, s.st F.TIM_PPS.WIDTH_MS = 0 || s.st F.TIM_PPS.WIDTH_MS > 999 || s.st F.TIM_SERVO.SOURCE > 2)]

/-- A write to TIM_COMMIT (R413). -/
def State.timCommit (s : State) (req val : Nat) : State := s.commitNow req R.TIM_COMMIT val s.timCode

def execTimCommit (t req val : Nat) (s : State) : Res :=
  .next ((s.at t).asReq req R.TIM_COMMIT 4 val (fun s => s.timCommit req val))

end Sys2Proof.Machine
end

