-- ==== Sys2Proof/Machine/Admission.lean ====
section
/-!
DEFINITION. Admission (R221–R236, R241–R243): the cost table, the tests at an operating point, the power floor, withdrawal
and readmission, and the release of capacity.  Times are in ns unless a name says otherwise.
-/

namespace Sys2Proof

/-- Cost of an entry for E events (R226). -/
def CostEntry.cost (c : CostEntry) (e : Nat) : Nat :=
  let v := c.fixed + ceilDiv (c.perEvent * e) 256
  if c.ceiling = 0 then v else min c.ceiling v

/-- Entries of a resource in a cost table at an operating point. -/
def Image.entries (m : Image) (res p : Nat) : List CostEntry :=
  m.costs.filter (fun c => c.resource = res && (c.op = 0xFF || c.op = p))

/-- Summed cost of a resource. -/
def Image.cost (m : Image) (res p e : Nat) : Nat := sumNat ((m.entries res p).map (fun c => c.cost e))

/-- Events charged per slice (R227). -/
def Load.events (l : Load) : Nat :=
  let w := l.sliceUs + l.guardUs
  min (ceilDiv (l.rate * w) 1000000 + l.burst) (2000 * w)

/-- An image of no content. -/
def Image.blank : Image := ⟨[], false, false, false, 0, [], [], [], [], 0, 0, 0, [], [], 0, 0, []⟩

end Sys2Proof

namespace Sys2Proof.Machine

/-! ### What a stream is charged at -/

/-- An admitted stream's load at the figures it is charged at (R236). -/
def State.loadOf (s : State) (i : Nat) : Load :=
  let g := s.groupOf i
  let rb := (tabFind s.adm.charged i).getD (s.get (F.HG_STREAM_BKT.RATE i), s.get (F.HG_STREAM_BKT.BURST i))
  ⟨i, g, (tabFind s.img.streamSlot i).getD 16, (s.streamClass i).d, rb.1, rb.2, s.get (F.HG_STREAM_TIME.GUARD i),
    s.get (F.CP_GRP_CTL.SLICE_US g), s.get (F.CP_GRP_CTL.W_US g), s.flag (F.HG_STREAM_CTL.ANCHOR i)⟩

/-- Loads of a set of streams. -/
def State.loads (s : State) (m : Nat) : List Load := (streamsOf m).map s.loadOf

/-- Image in a slot, or one of no content. -/
def State.imageOf (s : State) (n : Nat) : Image :=
  match s.slot n with
  | some x => x.image
  | .none => Image.blank

/-! ### The terms of R221 -/

/-- The stream's stand group takes count frames (R120). -/
def State.takesFrames (s : State) (i : Nat) : Bool := !(s.standPops i).isEmpty

/-- Words of a count frame of a population (R118). -/
def State.frameWords (s : State) (p : Nat) : Nat := 1 + ceilDiv (s.popSize p * (1 + s.get (F.FW_POP_CTL.FORMAT p))) 64

/-- Each frame queue of the stream holds the frames of two slices (R222). -/
def State.queuesHold (s : State) (l : Load) : Bool :=
  (s.standPops l.stream).all (fun p =>
    decide (2 * (1000 * l.sliceUs / max (s.get (F.FW_POP_CTL.WINDOW p) * s.stepNs) 1) * s.frameWords p ≤
      (s.queue (s.get (F.FW_POP_DEST.QUEUE p))).depth))

/-- L_ready, µs (R222). -/
def State.lReady (s : State) (l : Load) : Nat :=
  if s.takesFrames l.stream then
    max l.guardUs (s.get F.FW_CTL.LAG_US + ceilDiv (s.get F.FW_CTL.STRETCH * s.get F.FW_CTL.STEP_US) 100 + 2)
  else l.guardUs

/-- Wire bytes of the worst run of an export queue (R401). -/
def State.expRunBytes (s : State) (q n : Nat) : Nat :=
  sumNat ((chunksOf (s.expMax q) (List.replicate n [])).map (fun c => s.expWire q c.length))

/-- L_deliver, µs (R223). -/
def State.lDeliver (s : State) (g : Nat) : Nat :=
  match s.exportOf g with
  | some q =>
    let bits := 8 * s.expRunBytes q (s.get (F.CP_GRP_RPT.MAX_RPT g) + 1)
    ceilDiv (10000 + s.get (F.NET_EXP_CTL.LAUNCH_OFF q) + ceilDiv bits (modeRate (s.get F.NET_CTL.MODE))) 1000
  | .none => s.hostDeliver

/-- Usable tiles of a stand group (R231): the reserve of one is kept by a fault-absorbing group that is READY; a group out of
service has none. -/
def State.usableTiles (s : State) (slot : Nat) : Nat :=
  let n := (s.liveTiles slot).length
  let st := s.get (F.ST_GRP_STAT.STATE slot)
  if st = 5 then 0 else if s.get (F.ST_GRP_STAT.LAYOUT slot) = 0 && st = 1 then n - 1 else n

/-! ### Coppice load sets (R232) -/

/-- Units in service. -/
def State.liveUnits (s : State) : List Nat := (List.range 8).filter (fun u => s.get (F.CP_UNIT_STAT.STATE u) ≠ 2)

/-- Groups with a load. -/
def groupsOf (ls : List Load) : List Nat := (List.range 32).filter (fun g => ls.any (fun l => l.group = g))

/-- Fallback units: the groups of each unit in turn over the other units in service (R232, DEDUCED, log entry 33). -/
def State.fallbacks (s : State) (ls : List Load) : Tab Nat :=
  (List.range 8).foldl (fun (t : Tab Nat) u =>
    let gs := (groupsOf ls).filter (fun g => s.get (F.CP_GRP_CTL.UNIT g) = u)
    let os := s.liveUnits.filter (fun v => v ≠ u)
    let rot := os.filter (fun v => u < v) ++ os.filter (fun v => v < u)
    if rot.isEmpty then t
    else ((List.range gs.length).zip gs).foldl (fun t p => tabInsert t p.2 (rot.getD (p.1 % rot.length) 0)) t) []

/-- COPPICE cost of an instant of a group, cycles (R232). -/
def State.instantCost (s : State) (ls : List Load) (g p : Nat) : Nat :=
  let fusion := s.imageOf ((tabFind s.img.fusionSlot g).getD 16)
  fusion.cost 0x03 p 0 + sumNat ((ls.filter (fun l => l.group = g)).map (fun l => (s.imageOf l.slot).cost 0x04 p l.events))

/-- The sets of groups that a unit may hold: its own with those that a failing unit sends it (R232). -/
def State.heldSets (s : State) (ls : List Load) (fb : Tab Nat) (reserve : Bool) (u : Nat) : List (List Nat) :=
  let gs := groupsOf ls
  let own := gs.filter (fun g => s.get (F.CP_GRP_CTL.UNIT g) = u)
  if reserve then own :: ((s.liveUnits.filter (fun v => v ≠ u)).map (fun v =>
    own ++ gs.filter (fun g => s.get (F.CP_GRP_CTL.UNIT g) = v && tabFind fb g = some u)))
  else [own]

/-- Work of a set of groups, µs rounded up per group. -/
def State.setUs (s : State) (ls : List Load) (p : Nat) (gs : List Nat) : Nat :=
  sumNat (gs.map (fun g => ceilDiv (s.instantCost ls g p) (opMHz p)))

/-- Condition of R232 for a set: Σ c_h ÷ f ≤ min T_h. -/
def State.setFits (s : State) (ls : List Load) (p : Nat) (gs : List Nat) : Bool :=
  match minNat? (gs.map (fun g => s.get (F.CP_GRP_CTL.SLICE_US g))) with
  | .none => true
  | some t => decide (sumNat (gs.map (fun g => s.instantCost ls g p)) ≤ t * opMHz p)

/-- L_fuse, µs (R232). -/
def State.lFuse (s : State) (ls : List Load) (fb : Tab Nat) (reserve : Bool) (g p : Nat) : Nat :=
  let span := ceilDiv ((s.imageOf ((tabFind s.img.fusionSlot g).getD 16)).cost 0x11 p 0) 1000
  let us := s.get (F.CP_GRP_CTL.UNIT g) :: (tabFind fb g).toList
  span + maxNat ((us.flatMap (fun u => s.heldSets ls fb reserve u)).map (s.setUs ls p))

/-! ### The demand test (R230) -/

/-- A stream in the demand test: period and work deadline in ns, cost in tile-cycles. -/
structure Demand where
  stream : Nat
  period : Nat
  delta : Int
  cost : Nat
  meets : Bool                  -- L_stand ≤ β, with frame queues deep enough that L_ready holds (R222)
  deriving DecidableEq, Repr

/-- The figures of a stream at an operating point (R221, R230). -/
def State.demandOf (s : State) (ls : List Load) (fb : Tab Nat) (reserve : Bool) (p u : Nat) (l : Load) : Demand :=
  let m := s.imageOf l.slot
  let c := m.cost 0x01 p l.events
  let span := m.cost 0x10 p 0
  let beta : Int := 1000 * ((l.deadline : Int) -
    (l.sliceUs + l.waitUs + s.lReady l + s.lFuse ls fb reserve l.group p + s.lDeliver l.group + 32 : Nat))
  let stand := span + 1000 * ceilDiv c (u * opMHz p)
  ⟨l.stream, 1000 * l.sliceUs, beta - span, c, decide (u ≠ 0) && decide ((stand : Int) ≤ beta) && s.queuesHold l⟩

/-- Least common multiple of the periods. -/
def lcmOf (l : List Nat) : Nat := l.foldl Nat.lcm 1

/-- Demand up to L, in cycles (R230). -/
def demandAt (ds : List Demand) (x : Int) : Nat :=
  sumNat (ds.map (fun d => if x < d.delta then 0 else ((x - d.delta).toNat / max d.period 1 + 1) * d.cost))

/-- The check points up to the horizon at which the demand exceeds the supply (R230), each with the stream it belongs to:
`uf` cycles per µs.  Where Σ U_s reaches 1 the test fails outright, with the first stream of the group. -/
def demandFails (ds : List Demand) (uf : Nat) : List (Int × Nat) :=
  let m := lcmOf (ds.map (fun d => max d.period 1))
  let a := 1000 * sumNat (ds.map (fun d => d.cost * (m / max d.period 1)))
  let b := uf * m
  if ds.isEmpty then []
  else if a ≥ b then (ds.take 1).map (fun d => (0, d.stream))
  else
    let num : Int := 1000 * sumInt (ds.map (fun d => ((d.period : Int) - d.delta) * (d.cost * (m / max d.period 1) : Nat)))
    let h2 := num.fdiv ((b - a : Nat) : Int)
    let h := ds.foldl (fun z d => max z d.delta) h2
    ds.flatMap (fun d =>
      if h < d.delta then []
      else ((List.range ((h - d.delta).toNat / max d.period 1 + 1)).map (fun j => d.delta + ((j * max d.period 1 : Nat) : Int))).filterMap
        (fun x => if (1000 * demandAt ds x : Nat) ≤ (uf : Int) * x then .none else some (x, d.stream)))

/-- The stream of the earliest failing check point: R351 names it. -/
def firstFailing (l : List (Int × Nat)) : Option Nat :=
  (l.foldl (fun (z : Option (Int × Nat)) e => match z with
    | some y => if e.1 < y.1 then some e else some y
    | .none => some e) .none).map (fun e => e.2)

/-- Σ U_s of a group, Q0.16 (R230, R246). -/
def utilisation (ds : List Demand) (uf : Nat) : Nat :=
  let m := lcmOf (ds.map (fun d => max d.period 1))
  min 0xFFFF (65536 * (1000 * sumNat (ds.map (fun d => d.cost * (m / max d.period 1)))) / max (uf * m) 1)

/-! ### Bandwidth (R234) -/

/-- Stop of a flow's end (R24, R226): headgate stops and gateways per stream.  Which of the eight headgate stops a stream's flow
leaves from, the spec does not say: stream i leaves from the stop of number i mod 8 (DESIGN CHOICE, log entry 29). -/
def State.flowStop (s : State) (l : Load) (code : Nat) : Nat :=
  if code = 0xFF00 then stopOfHeadgate l.stream
  else if code = 0xFF01 then stopOfUnit (s.get (F.CP_GRP_CTL.UNIT l.group))
  else if code = 0xFF02 then stopOfGateway (s.get (F.FW_MAP_CTL.GATEWAY l.stream))
  else match s.tileAt l.slot code with
    | some t => stopOfTile t
    | .none => 24

/-- Links of the X-then-Y path between two stops, each with its direction (R234, R266): `fuel` hops at most. -/
def pathLinks : Nat → Nat → Nat → List (Nat × Nat)
  | 0, _, _ => []
  | fuel + 1, a, b =>
    let ax := a % 8
    let bx := b % 8
    let port := if ax < bx then some 1 else if bx < ax then some 3 else if a / 8 < b / 8 then some 2 else if b / 8 < a / 8 then some 0 else .none
    match port with
    | .none => []
    | some p => match neighbour a p with
      | .none => []
      | some n => (linkIndex (4 * a + p), p) :: pathLinks fuel n b

/-- Flows of every load: path and rate in bytes per µs × 1000 (kB/s). -/
def State.flows (s : State) (ls : List Load) (p : Nat) : List (Nat × List (Nat × Nat) × Nat) :=
  ls.flatMap (fun l => ((s.imageOf l.slot).entries 0x05 p).map (fun c =>
    (l.stream, pathLinks 20 (s.flowStop l c.src) (s.flowStop l c.dst), ceilDiv (1000 * c.cost l.events) (max l.sliceUs 1))))

/-- Every link and direction within 96 GB/s, every stop within 228.48 GB/s (R234). -/
def State.bandwidthOk (s : State) (ls : List Load) (p : Nat) : Bool :=
  let fs := s.flows ls p
  let ends := fs.flatMap (fun f => f.2.1)
  let linkOk := ends.all (fun e => decide (sumNat ((fs.filter (fun f => f.2.1.contains e)).map (fun f => f.2.2)) ≤ 96000000))
  let striped := sumNat (ls.map (fun l => ceilDiv (1000 * (s.imageOf l.slot).cost 0x07 p l.events) (64 * max l.sliceUs 1)))
  let localAt := fun st => sumNat (ls.flatMap (fun l => ((s.imageOf l.slot).entries 0x06 p).map (fun c =>
    if s.flowStop l c.src = st then ceilDiv (1000 * c.cost l.events) (max l.sliceUs 1) else 0)))
  linkOk && (List.range 64).all (fun n => decide (striped + localAt (16 + n) ≤ 228480000))

/-! ### The tests at a point -/

/-- The buddy link group carries the mirrored rates in each direction (R406, R427): 32 bits an event. -/
def State.linksOk (s : State) (ls : List Load) : Bool :=
  if !s.flag F.HG_CTL.MIRROR && s.bud.standby.isEmpty then true
  else match s.peerOf (s.get F.RAS_BUDDY.PEER) with
    | some k =>
      let cap := 1000000000 * modeRate (s.get F.NET_CTL.MODE) * ((s.members k).filter s.portUp).length
      let need := fun (l : List Load) => 32 * sumNat (l.map (fun x => x.rate))
      decide (need ls ≤ cap) && decide (need s.bud.standby ≤ cap)
    | .none => true

/-- The limits of R40 over every open stream with a candidate, and the report rate of every enabled group (R219, R235). -/
def State.limitsOk (s : State) (ls : List Load) : Bool :=
  let rest := ((List.range 128).filter (fun i => s.get (F.HG_STREAM_STAT.STATE i) ≠ 0 && ls.all (fun l => l.stream ≠ i))).map s.loadOf
  let all := ls ++ rest
  let every := all ++ s.bud.standby
  let anchors := all.filter (fun l => l.anchor)
  decide (sumNat (every.map (fun l => l.rate)) ≤ 16000000000) && decide (sumNat (every.map (fun l => l.burst)) ≤ 80000000) &&
    decide (anchors.length ≤ 32) && anchors.all (fun a => decide ((anchors.filter (fun l => l.group = a.group)).length ≤ 4)) &&
    decide (sumNat (((List.range 32).filter (fun h => s.flag (F.CP_GRP_CTL.ENABLE h))).map (fun h =>
      s.get (F.CP_GRP_RPT.MAX_RPT h) * 1000000000000 / max (s.get (F.CP_GRP_CTL.SLICE_US h)) 1)) ≤ 4194304 * 1000000)

/-- What the tests find at an operating point: the first failing test in the coding of R351 (0 for none), and the stream
concerned.  The streams of a buddy count as standby load (R427). -/
def State.testPoint (s : State) (mine : List Load) (reserve : Bool) (p : Nat) : Nat × Nat :=
  let ls := mine ++ s.bud.standby
  let fb := if reserve then s.fallbacks ls else []
  let slots := (List.range 16).filter (fun n => ls.any (fun l => l.slot = n))
  let bad := slots.flatMap (fun n =>
    let u := s.usableTiles n
    let ds := (ls.filter (fun l => l.slot = n)).map (s.demandOf ls fb reserve p u)
    match ds.find? (fun d => !d.meets) with
    | some d => [d.stream]
    | .none => (firstFailing (demandFails ds (u * opMHz p))).toList)
  match bad with
  | i :: _ => (1, i)
  | [] =>
    match (s.liveUnits.flatMap (fun u => s.heldSets ls fb reserve u)).find? (fun gs => !s.setFits ls p gs) with
    | some gs => (2, minNat? gs |>.getD 0xFFFF)
    | .none =>
    if slots.any (fun n =>
        let step := s.stepNs
        let dem := sumNat ((ls.filter (fun l => l.slot = n && s.flag (F.FW_MAP_CTL.ENABLE l.stream))).map (fun l =>
          (s.imageOf n).cost 0x02 p (ceilDiv (l.rate * step) 1000000000)))
        decide (step * opMHz p / 2000 < dem)) then (3, 0xFFFF)
    else if !s.bandwidthOk ls p || !s.linksOk mine then (4, 0xFFFF)
    else if !s.limitsOk mine then (5, 0xFFFF)
    else (0, 0xFFFF)

/-- No operating point lies within the cap (R442). -/
def State.noCap (s : State) : Bool := s.flag F.PWR_DVFS.CAP_NONE

def State.capPoint (s : State) : Nat := s.get F.PWR_DVFS.CAP_POINT

/-- The lowest operating point at or above `cap` at which every test passes (R229). -/
def State.floorFor (s : State) (ls : List Load) (reserve : Bool) (cap : Nat) : Option Nat :=
  [3, 2, 1, 0].find? (fun p => decide (cap ≤ p) && (s.testPoint ls reserve p).1 = 0)

/-- The answer to a candidate (R229, R235): the floor it needs, or the failing test and the stream. -/
def State.tryAdmit (s : State) (ls : List Load) : Nat ⊕ (Nat × Nat) :=
  if s.noCap then .inr (6, 0xFFFF)
  else match s.floorFor ls true s.capPoint with
    | some p => .inl p
    | .none => if (s.floorFor ls true 0).isSome then .inr (6, 0xFFFF) else .inr (s.testPoint ls true s.capPoint)

/-! ### Floor and records -/

/-- Every stream whose work runs in PD_CMP. -/
def State.belowFloor (s : State) : State :=
  if s.get F.PWR_DVFS.CURRENT > s.adm.floor then s.beginSusp cBelowFloor s.adm.admitted 0
  else s.overSusp cBelowFloor (s.suspended cBelowFloor)

/-- The power manager's target (R443): the cap point, or the floor where that is above it or no cap point exists. -/
def State.target (s : State) : Nat :=
  let f := match s.adm.raising with
    | some (p, _) => min p s.adm.floor
    | .none => s.adm.floor
  if s.noCap || f < s.capPoint then f else s.capPoint

/-- The floor shows in PWR_DVFS, and the target follows it. -/
def State.showFloor (s : State) : State :=
  ((s.put F.PWR_DVFS.FLOOR s.adm.floor).put F.PWR_DVFS.TARGET s.target).belowFloor

/-- Links of the admitted flows, with the streams on each (R234). -/
def State.reserve (s : State) (ls : List Load) : State :=
  let fs := s.flows ls s.adm.floor
  let sets := fs.foldl (fun (t : Tab Nat) (f : Nat × List (Nat × Nat) × Nat) =>
      f.2.1.foldl (fun (t : Tab Nat) (e : Nat × Nat) => tabInsert t e.1 (tabGet 0 t e.1 ||| streamBit f.1)) t) []
  let s := { s with aid := { s.aid with linkSets := sets, linkStreams := unionAll (sets.map (fun (e : Nat × Nat) => e.2)) } }
  s.each (sets.map (fun (e : Nat × Nat) => e.1 / 4)) (fun s st =>
    ((s.setReg (R.CN_STOP_WT_EW st) (BitVec.ofNat 64 (s.freeVal .load))).tickFree.setReg (R.CN_STOP_WT_NS st)
      (BitVec.ofNat 64 (s.tickFree.freeVal .load))).tickFree)

/-- ST_GRP_ADM of every stand group follows the admission state (R246). -/
def State.showAdm (s : State) (ls : List Load) : State :=
  let fb := s.adm.fallback
  s.each (s.img.slots.map (fun p => p.1)) (fun s n =>
    let u := s.usableTiles n
    let ds := (ls.filter (fun l => l.slot = n)).map (s.demandOf ls fb (!fb.isEmpty) s.adm.floor u)
    let mine := s.slotStreams n
    let s := (s.put (F.ST_GRP_ADM.UTIL n) (utilisation ds (u * opMHz s.adm.floor))).put (F.ST_GRP_ADM.FLOOR n) s.adm.floor
    let s := (s.put (F.ST_GRP_ADM.USABLE n) u).put (F.ST_GRP_ADM.WITHDRAWN n) (popcount 128 (s.adm.withdrawn &&& mine))
    s.put (F.ST_GRP_ADM.ADMITTED n) (popcount 128 (s.adm.admitted &&& mine)))

/-- The slices whose records must be visible before the floor is lowered (R229): for each admitted group, the slice open at each
member. -/
def State.lastCharged (s : State) : List (Nat × Nat × Nat) :=
  (List.range 32).flatMap (fun g => (s.cpMembers g).filterMap (fun i =>
    if s.adm.admitted.testBit i then (s.stream i).kOpen.map (fun k => (i, g, k)) else .none))

/-- The set-up of reserves after an evaluation (R232, R234, R241, R246). -/
def State.settleAdm (s : State) (reserve : Bool) : State :=
  let ls := s.loads s.adm.admitted
  let s := { s with adm := { s.adm with fallback := if reserve then s.fallbacks ls else [] } }
  (s.reserve ls).showAdm ls

/-- The floor moves to `p` after an evaluation (R229): up at once, down once the records charged at the old figures are
out. -/
def State.moveFloor (s : State) (p : Nat) : State :=
  if p < s.adm.floor then ({ s with adm := { s.adm with floor := p, lowering := .none } }).showFloor
  else if p = s.adm.floor then { s with adm := { s.adm with lowering := .none } }
  else
    let w := s.lastCharged
    if w.isEmpty then ({ s with adm := { s.adm with floor := p, lowering := .none } }).showFloor
    else { s with adm := { s.adm with lowering := some ⟨p, w⟩ } }

/-- The record of the instant that reflects slice k of a stream, cut for a group, is out. -/
def State.recordOut (s : State) (i g k : Nat) : Bool :=
  match tabFind (s.stream i).refl (reflKey g k) with
  | some n => reached (s.rel g).vis n
  | .none => false

/-- Whether the records of a pending lowering are out (R229). -/
def State.recordsOut (s : State) (w : List (Nat × Nat × Nat)) : Bool := w.all (fun e => s.recordOut e.1 e.2.1 e.2.2)

/-- The last record charged at the old figures is out: the floor is lowered (R229), and the reserves follow it. -/
def State.floorLower (s : State) : State :=
  match s.adm.lowering with
  | .none => s
  | some x =>
    if s.recordsOut x.waits then
      (({ s with adm := { s.adm with floor := x.floor, lowering := .none } }).showFloor).settleAdm (!s.adm.fallback.isEmpty)
    else s

def execFloorLower (t : Nat) (s : State) : Res := .next (s.at t).floorLower

/-! ### Recomputation (R241, R242) -/

/-- Order of withdrawal: ascending RANK, descending D, descending stream number. -/
def State.sooner (s : State) (i j : Nat) : Bool :=
  let a := s.streamClass i
  let b := s.streamClass j
  if a.rank ≠ b.rank then decide (a.rank < b.rank) else if a.d ≠ b.d then decide (b.d < a.d) else decide (j < i)

/-- The streams to keep: those of a list in withdrawal order, dropped from its front until the rest pass (R242). -/
def State.keepPassing (s : State) (reserve : Bool) (cap : Nat) : List Nat → List Nat
  | [] => []
  | i :: r => if (s.floorFor ((i :: r).map s.loadOf) reserve cap).isSome then i :: r else s.keepPassing reserve cap r

/-- Withdrawn streams are readmitted in the reverse order, where the rest still pass (R242). -/
def State.readmit (s : State) (reserve : Bool) (cap : Nat) : List Nat → State
  | [] => s
  | i :: r =>
    let ls := s.loads (s.adm.admitted ||| streamBit i)
    match s.floorFor ls reserve cap with
    | some p =>
      let s := { s with adm := { s.adm with
        admitted := s.adm.admitted ||| streamBit i, withdrawn := setMinus s.adm.withdrawn (streamBit i) } }
      (((s.overSusp cWithdrawn (streamBit i)).moveFloor p).belowFloor).readmit reserve cap r
    | .none => s.readmit reserve cap r

/-- Admission is recomputed for the admitted streams (R228, R241, R242): the least capable reserve that works is set up,
streams are withdrawn while the tests fail, and withdrawn ones are readmitted where they pass. -/
def State.recompute (s : State) : State :=
  let cap := if s.noCap then 4 else s.capPoint
  let order := sortBy s.sooner (streamsOf s.adm.admitted)
  let reserve := (s.floorFor (order.map s.loadOf) true cap).isSome || (s.floorFor (order.map s.loadOf) false cap).isNone
  let keep := if s.noCap then order else s.keepPassing reserve cap order
  let gone := unionAll ((order.filter (fun i => !keep.contains i)).map streamBit)
  let s := s.withdraw gone
  let s := match s.floorFor (keep.map s.loadOf) reserve cap with
    | some p => s.moveFloor p
    | .none => s
  let back := (sortBy s.sooner (streamsOf (setMinus s.adm.withdrawn gone))).reverse
  (s.readmit reserve cap back).settleAdm reserve

def execReadmission (t : Nat) (s : State) : Res := .next (s.at t).recompute

/-! ### Release of capacity (R236) -/

/-- A stream's closing records are out: every slice it closed is reflected in an instant whose run is visible. -/
def State.closedOut (s : State) (i : Nat) : Bool :=
  let x := s.stream i
  match x.kLast with
  | .none => true
  | some k => s.recordOut i (s.groupOf i) k

/-- A capacity release falls due: a closed stream is no longer charged, or a lowering of r or b is taken (R236); admission
is evaluated at that moment (R228). -/
def State.capacityRelease (s : State) (i : Nat) : State :=
  let ask := fun (s : State) => { s with aid := { s.aid with evals := s.aid.evals ++ [.release i] } }
  if (s.adm.admitted ||| s.adm.withdrawn).testBit i && s.streamState i = 0 && s.closedOut i then
    ask { s.endStream i with adm := { s.adm with
      admitted := setMinus s.adm.admitted (streamBit i), withdrawn := setMinus s.adm.withdrawn (streamBit i)
      charged := tabErase s.adm.charged i, releases := tabErase s.adm.releases i } }
  else match tabFind s.adm.releases i with
    | some due =>
      if due ≤ s.time then ask { s with adm := { s.adm with
        charged := tabErase s.adm.charged i, releases := tabErase s.adm.releases i } }
      else s
    | .none => if s.streamState i = 0 && s.closedOut i then s.endStream i else s

def execCapacityRelease (t stream : Nat) (s : State) : Res := .next ((s.at t).capacityRelease stream)

/-! ### Losing a unit -/

/-- Unit that takes over a group of a failed unit: its fallback unit, else the first unit in service that its load set fits
(R218, R232, R422). -/
def State.unitFor (s : State) (g : Nat) : Option Nat :=
  let fb := match tabFind s.adm.fallback g with
    | some v => if s.liveUnits.contains v then some v else .none
    | .none => .none
  let ls := s.loads s.adm.admitted
  match fb with
  | some v => some v
  | .none => s.liveUnits.find? (fun v =>
      s.setFits ls s.adm.floor (g :: (groupsOf ls).filter (fun h => s.get (F.CP_GRP_CTL.UNIT h) = v)))

/-- A group of a failed unit moves, and its instants are executed again (R218). -/
def State.moveGroup (s : State) (g v : Nat) : State :=
  let s := (s.put (F.CP_GRP_CTL.UNIT g) v).put (F.CP_UNIT_STAT.GROUPS v) (s.get (F.CP_UNIT_STAT.GROUPS v) ||| 2 ^ g)
  (s.reexecute g).put (F.CP_GRP_STAT.STATE g) 4

/-- A unit fails (R218, R232, R422): its groups move to other units, and those that fit none are withdrawn. -/
def State.unitFail (s : State) (u cond flags : Nat) : State :=
  if s.get (F.CP_UNIT_STAT.STATE u) = 2 || u ≥ 8 then s
  else
    let gs := (List.range 32).filter (fun g => s.flag (F.CP_GRP_CTL.ENABLE g) && s.get (F.CP_GRP_CTL.UNIT g) = u)
    let streams := unionAll (gs.flatMap (fun g => (s.cpMembers g).map streamBit))
    let s := (s.put (F.CP_UNIT_STAT.STATE u) 2).put (F.CP_UNIT_STAT.GROUPS u) 0
    let usable := s.liveUnits.length
    let s := s.singlePartFault pCoppice u cond streams 0 usable flags
    let s := s.each gs (fun s g => match s.unitFor g with
      | some v => s.moveGroup g v
      | .none => s.withdraw (unionAll ((s.cpMembers g).map streamBit)))
    (s.degraded pCoppice u cond streams usable flags s.adm.floor).askCapacity

def execCoppiceUnitFault (t unit cond : Nat) (s : State) : Res := .next ((s.at t).unitFail unit cond (s.testFlag pCoppice unit))

end Sys2Proof.Machine
end

