-- ==== Sys2Proof/Machine/Crypto.lean ====
section
/-!
DEFINITION. The cryptographic functions that *Identity, signatures and sessions* names: SHA-256 (FIPS 180-4), HMAC-SHA-256
(RFC 2104) and RSASSA-PSS verification (RFC 8017, R480).
-/

namespace Sys2Proof

/-! ### SHA-256 -/

/-- Initial hash value. -/
def shaInit : List (BitVec 32) := [
  0x6A09E667#32, 0xBB67AE85#32, 0x3C6EF372#32, 0xA54FF53A#32,
  0x510E527F#32, 0x9B05688C#32, 0x1F83D9AB#32, 0x5BE0CD19#32]

/-- Round constants. -/
def shaK : List (BitVec 32) := [
  0x428A2F98#32, 0x71374491#32, 0xB5C0FBCF#32, 0xE9B5DBA5#32, 0x3956C25B#32, 0x59F111F1#32,
  0x923F82A4#32, 0xAB1C5ED5#32, 0xD807AA98#32, 0x12835B01#32, 0x243185BE#32, 0x550C7DC3#32,
  0x72BE5D74#32, 0x80DEB1FE#32, 0x9BDC06A7#32, 0xC19BF174#32, 0xE49B69C1#32, 0xEFBE4786#32,
  0x0FC19DC6#32, 0x240CA1CC#32, 0x2DE92C6F#32, 0x4A7484AA#32, 0x5CB0A9DC#32, 0x76F988DA#32,
  0x983E5152#32, 0xA831C66D#32, 0xB00327C8#32, 0xBF597FC7#32, 0xC6E00BF3#32, 0xD5A79147#32,
  0x06CA6351#32, 0x14292967#32, 0x27B70A85#32, 0x2E1B2138#32, 0x4D2C6DFC#32, 0x53380D13#32,
  0x650A7354#32, 0x766A0ABB#32, 0x81C2C92E#32, 0x92722C85#32, 0xA2BFE8A1#32, 0xA81A664B#32,
  0xC24B8B70#32, 0xC76C51A3#32, 0xD192E819#32, 0xD6990624#32, 0xF40E3585#32, 0x106AA070#32,
  0x19A4C116#32, 0x1E376C08#32, 0x2748774C#32, 0x34B0BCB5#32, 0x391C0CB3#32, 0x4ED8AA4A#32,
  0x5B9CCA4F#32, 0x682E6FF3#32, 0x748F82EE#32, 0x78A5636F#32, 0x84C87814#32, 0x8CC70208#32,
  0x90BEFFFA#32, 0xA4506CEB#32, 0xBEF9A3F7#32, 0xC67178F2#32]

/-- Padding: a bit 1, zeros, and the length in bits as 64 bits. -/
def shaPad (bs : List Byte) : List Byte :=
  let n := bs.length
  bs ++ [0x80#8] ++ zeros ((119 - n % 64) % 64) ++ beBytes 8 (8 * n)

/-- The 32-bit big-endian words of a list of bytes, at most `n`. -/
def beWords : Nat → List Byte → List (BitVec 32)
  | 0, _ => []
  | n + 1, bs => BitVec.ofNat 32 (beNat (bs.take 4)) :: beWords n (bs.drop 4)

/-- Message schedule held newest first: `n` more words. -/
def shaExtend : Nat → List (BitVec 32) → List (BitVec 32)
  | 0, w => w
  | n + 1, w =>
    let a := w.getD 14 0
    let b := w.getD 1 0
    let s0 := a.rotateRight 7 ^^^ a.rotateRight 18 ^^^ (a >>> 3)
    let s1 := b.rotateRight 17 ^^^ b.rotateRight 19 ^^^ (b >>> 10)
    shaExtend n ((w.getD 15 0 + s0 + w.getD 6 0 + s1) :: w)

/-- The working variables. -/
structure ShaVars where
  a : BitVec 32
  b : BitVec 32
  c : BitVec 32
  d : BitVec 32
  e : BitVec 32
  f : BitVec 32
  g : BitVec 32
  h : BitVec 32
  deriving DecidableEq, Repr

/-- One round with its constant and schedule word. -/
def shaRound (v : ShaVars) (kw : BitVec 32 × BitVec 32) : ShaVars :=
  let s1 := v.e.rotateRight 6 ^^^ v.e.rotateRight 11 ^^^ v.e.rotateRight 25
  let ch := (v.e &&& v.f) ^^^ (~~~v.e &&& v.g)
  let t1 := v.h + s1 + ch + kw.1 + kw.2
  let s0 := v.a.rotateRight 2 ^^^ v.a.rotateRight 13 ^^^ v.a.rotateRight 22
  let maj := (v.a &&& v.b) ^^^ (v.a &&& v.c) ^^^ (v.b &&& v.c)
  ⟨t1 + (s0 + maj), v.a, v.b, v.c, v.d + t1, v.e, v.f, v.g⟩

/-- One block of 64 bytes. -/
def shaBlock (h : ShaVars) (b : List Byte) : ShaVars :=
  let w := (shaExtend 48 (beWords 16 b).reverse).reverse
  let v := (shaK.zip w).foldl shaRound h
  ⟨h.a + v.a, h.b + v.b, h.c + v.c, h.d + v.d, h.e + v.e, h.f + v.f, h.g + v.g, h.h + v.h⟩

/-- Blocks of 64 bytes, `n` of them. -/
def shaBlocks : Nat → ShaVars → List Byte → ShaVars
  | 0, h, _ => h
  | n + 1, h, bs => shaBlocks n (shaBlock h (bs.take 64)) (bs.drop 64)

/-- The initial variables. -/
def shaStart : ShaVars :=
  let g := fun i => shaInit.getD i 0
  ⟨g 0, g 1, g 2, g 3, g 4, g 5, g 6, g 7⟩

/-- SHA-256: 32 bytes. -/
def sha256 (bs : List Byte) : List Byte :=
  let p := shaPad bs
  let v := shaBlocks (p.length / 64) shaStart p
  [v.a, v.b, v.c, v.d, v.e, v.f, v.g, v.h].flatMap (fun x => beBytes 4 x.toNat)

/-! ### HMAC -/

/-- Exclusive or of two lists of bytes. -/
def xorBytes (a b : List Byte) : List Byte := (a.zip b).map (fun p => p.1 ^^^ p.2)

/-- HMAC-SHA-256 with a key of at most 64 bytes. -/
def hmac256 (key msg : List Byte) : List Byte :=
  let k := key ++ zeros (64 - key.length)
  let inner := sha256 (xorBytes k (List.replicate 64 0x36#8) ++ msg)
  sha256 (xorBytes k (List.replicate 64 0x5C#8) ++ inner)

/-- Bytes of a text in ASCII. -/
def ascii (t : String) : List Byte := t.toList.map (fun c => BitVec.ofNat 8 c.toNat)

/-! ### RSASSA-PSS -/

/-- b^e mod m over the bits of e, at most `fuel` of them. -/
def powMod (m : Nat) : Nat → Nat → Nat → Nat
  | 0, _, _ => 1 % m
  | fuel + 1, b, e =>
    let r := powMod m fuel (b * b % m) (e / 2)
    if e % 2 = 1 then b * r % m else r

/-- MGF1 with SHA-256: `n` bytes. -/
def mgf1 (seed : List Byte) (n : Nat) : List Byte :=
  ((List.range (ceilDiv n 32)).flatMap (fun i => sha256 (seed ++ beBytes 4 i))).take n

/-- EMSA-PSS verification of an encoded message of 384 bytes with a 32-byte salt and emBits = 3,071. -/
def pssOk (msg em : List Byte) : Bool :=
  let db := em.take 351
  let h := sliceAt em 351 32
  let mask := mgf1 h 351
  let x := xorBytes db mask
  let top := (db.getD 0 0).toNat
  let clear := BitVec.ofNat 8 ((x.getD 0 0).toNat % 128) :: x.drop 1
  let ps := clear.take 318
  let salt := clear.drop 319
  em.length = 384 && em.getD 383 0 = 0xBC#8 && top < 128 && ps.all (fun b => b = 0) && clear.getD 318 0 = 1#8 &&
    sha256 (zeros 8 ++ sha256 msg ++ salt) = h

/-- A signature of a message under a modulus with public exponent 65537 verifies (R480). -/
def rsaVerify (modulus sig msg : List Byte) : Bool :=
  let n := beNat modulus
  let s := beNat sig
  modulus.length = 384 && sig.length = 384 && decide (s < n) && pssOk msg (beBytes 384 (powMod n 17 s 65537))

/-- The key hash of R480. -/
def keyHash (modulus : List Byte) : List Byte := sha256 (modulus ++ beBytes 4 65537)

end Sys2Proof
end

