-- ==== Sys2Proof/Machine/Commands.lean ====
section
/-!
DEFINITION. Commands as every opcode shares them: the table of R356, the order in which commands start (R290, R323,
R352), the checks of R350, scatter lists and Out data (R291, R353).
-/

namespace Sys2Proof.Machine

/-! ### The opcode table -/

/-- Data of an opcode (R353): none, In, Out of fixed or variable length, both. -/
inductive DataKind where
  | none | inData | outFixed | outVar | both
  deriving DecidableEq, Repr

/-- A row of R356: least role (none: no session), feature family, data, bytes of fixed Out data, and the component that
does the work (R318). -/
structure OpInfo where
  role : Option Nat
  feature : Nat
  data : DataKind
  outLen : Nat
  comp : Nat
  deriving DecidableEq, Repr

/-- The opcodes of R356. -/
def opInfo (op : Nat) : Option OpInfo :=
  match op with
  | 0x01 => some ⟨none, 0, .outFixed, 16, 2⟩
  | 0x02 => some ⟨none, 0, .both, 32, 2⟩
  | 0x03 => some ⟨some 0, 0, .none, 0, 2⟩
  | 0x10 => some ⟨some 0, 0, .none, 0, 1⟩
  | 0x11 => some ⟨some 0, 0, .none, 0, 1⟩
  | 0x12 => some ⟨some 0, 0, .none, 0, 1⟩
  | 0x18 => some ⟨some 0, 0, .outFixed, 32, 12⟩
  | 0x20 => some ⟨some 2, 1, .none, 0, 3⟩
  | 0x21 => some ⟨some 1, 1, .inData, 0, 5⟩
  | 0x22 => some ⟨some 1, 1, .inData, 0, 5⟩
  | 0x23 => some ⟨some 1, 1, .inData, 0, 5⟩
  | 0x24 => some ⟨some 1, 1, .none, 0, 5⟩
  | 0x30 => some ⟨some 2, 2, .inData, 0, 4⟩
  | 0x31 => some ⟨some 2, 2, .none, 0, 4⟩
  | 0x32 => some ⟨some 2, 2, .none, 0, 4⟩
  | 0x33 => some ⟨some 0, 2, .outFixed, 64, 4⟩
  | 0x38 => some ⟨some 2, 4, .inData, 0, 5⟩
  | 0x40 => some ⟨some 0, 5, .outVar, 0, 11⟩
  | 0x41 => some ⟨some 2, 5, .inData, 0, 11⟩
  | 0x50 => some ⟨some 2, 6, .inData, 0, 12⟩
  | 0x51 => some ⟨some 2, 6, .none, 0, 12⟩
  | 0x60 => some ⟨some 0, 7, .none, 0, 8⟩
  | 0x61 => some ⟨some 2, 7, .none, 0, 8⟩
  | 0x70 => some ⟨some 2, 8, .none, 0, 7⟩
  | 0x71 => some ⟨some 2, 8, .none, 0, 7⟩
  | 0x72 => some ⟨some 2, 8, .none, 0, 7⟩
  | 0x80 => some ⟨some 0, 9, .outVar, 0, 15⟩
  | 0x81 => some ⟨some 1, 9, .none, 0, 14⟩
  | 0x90 => some ⟨some 0, 10, .outVar, 0, 2⟩
  | 0x91 => some ⟨some 2, 11, .inData, 0, 2⟩
  | 0xA0 => some ⟨some 2, 13, .none, 0, 10⟩
  | 0xA1 => some ⟨some 2, 13, .none, 0, 10⟩
  | 0xA2 => some ⟨some 0, 13, .none, 0, 10⟩
  | 0xF0 => some ⟨some 2, 14, .none, 0, 15⟩
  | _ => none

/-! ### Sessions and functions -/

/-- Function of a submitting ring: PF0 for the management window, 64 for the management bus (R350, R488). -/
def State.fnOf (s : State) (ring : Nat) : Nat :=
  if ring = 0x2000 then 0 else if ring = 0x2001 then 64 else match s.ring ring with
    | some x => x.fn
    | none => 0

/-- The open session of an identifier on a function. -/
def State.session (s : State) (fn id : Nat) : Option Session :=
  s.sec.sessions.find? (fun x => x.id = id && x.fn = fn && !x.closing)

/-- True for the admin rings of their function and for the pseudo-rings (R285, R350). -/
def State.isAdmin (s : State) (ring : Nat) : Bool :=
  ring ≥ 0x2000 || (match s.ring ring with
    | some x => ring = s.adminRing x.fn || ring = s.adminRing x.fn + 1
    | none => false)

/-! ### Fields -/

/-- Reserved bytes of an opcode within 16–55, as (offset, length). -/
def reservedOf (op : Nat) (c : Ctx) : List (Nat × Nat) :=
  match op with
  | 0x10 => []
  | 0x02 => [(21, 3), (40, 16)]
  | 0x03 => [(20, 36)]
  | 0x11 => [(18, 38)]
  | 0x12 => [(18, 6), (32, 24)]
  | 0x20 => [(19, 1), (24, 32)]
  | 0x21 => [(18, 38)]
  | 0x22 => [(17, 1), (22, 34)]
  | 0x23 => [(17, 39)]
  | 0x24 => [(17, 39)]
  | 0x30 => [(18, 2), (28, 4), (46, 10)]
  | 0x31 => [(18, 6), (32, 24)]
  | 0x32 => [(17, 39)]
  | 0x33 => [(17, 39)]
  | 0x38 => [(19, 5), (32, 24)]
  | 0x40 => [(18, 2), (28, 28)]
  | 0x41 => [(19, 1), (24, 32)]
  | 0x50 => [(16, 4), (24, 32)]
  | 0x51 => [(16, 1), (18, 6), (32, 24)]
  | 0x61 => [(17, 7), (32, 24)]
  | 0x70 => [(19, 37)]
  | 0x80 => if c.p 16 1 = 0 then [(17, 3), (26, 30)] else if c.p 16 1 = 3 then [(17, 3), (21, 35)] else [(17, 7), (32, 24)]
  | 0x81 => [(18, 2), (25, 31)]
  | 0x90 => [(32, 24)]
  | 0x91 => [(18, 38)]
  | 0xA0 => [(18, 6), (40, 16)]
  | 0xF0 => [(17, 1), (21, 3), (32, 24)]
  | _ => [(16, 40)]

/-- Kind of a ring by its code (R286). -/
def kindOf (n : Nat) : Option RingKind :=
  match n with
  | 1 => some .submit
  | 2 => some .inject
  | 3 => some .complete
  | 4 => some .result
  | 5 => some .log
  | _ => none



/-- A link index names a port of a stop that has a link in that direction (R382). -/
def linkExists (n : Nat) : Bool := n / 4 < 96 && (neighbour (n / 4) (n % 4)).isSome

/-- Parts that TEST_FAULT may name (R382). -/
def State.partExists (s : State) (part i : Nat) : Bool :=
  match part with
  | 1 => decide (i < 48)
  | 2 => decide (i < 96)
  | 3 => decide (i < 8)
  | 4 => decide (i < 8)
  | 5 => decide (i < 512)
  | 6 => linkExists i
  | 7 => decide (i < 4096)
  | 8 => decide (i < modePorts (s.get F.NET_CTL.MODE))
  | _ => false

/-- Range checks of the inline parameters of an opcode: offset of the field, whether it is out of range. -/
def State.rangesOf (s : State) (op : Nat) (c : Ctx) : List (Nat × Bool) :=
  match op with
  | 0x02 => [(20, c.p 20 1 > 3)]
  | 0x10 =>
    let k := kindOf (c.p 18 1)
    let dev := (match k with
      | some k => k.deviceProduced
      | none => false)
    [(18, k.isNone), (19, c.p 19 1 > 3), (20, c.p 20 1 < 6 || c.p 20 1 > 16), (21, c.p 21 1 > 1), (32, c.p 32 4 ≥ 2 ^ 20),
      (36, dev && c.p 36 2 ≥ (if s.fnOf c.ring = 0 then 2048 else 64)), (38, dev && c.p 38 2 = 0), (44, c.p 44 1 > 3), (45, c.p 45 11 ≠ 0)]
  | 0x20 => [(16, c.p 16 1 > 15), (17, c.p 17 1 > 15), (18, c.p 18 1 > 1), (20, c.p 20 4 < 1000 || c.p 20 4 > 100000)]
  | 0x21 => [(16, c.p 16 1 > 31), (17, c.p 17 1 > 15)]
  | 0x22 => [(16, c.p 16 1 > 127), (20, c.p 20 1 > 15), (21, c.p 21 1 > 1)]
  | 0x23 => [(16, c.p 16 1 > 127)]
  | 0x24 => [(16, c.p 16 1 > 127)]
  | 0x30 => [(16, c.p 16 1 > 15), (17, c.p 17 1 > 15 && c.p 17 1 ≠ 255),
      (32, c.p 32 8 = 0 || s.img.slots.any (fun (p : Nat × ImgSlot) => p.2.epoch = c.p 32 8))]
  | 0x31 => [(16, c.p 16 1 > 15), (17, c.p 17 1 > 7)]
  | 0x32 => [(16, c.p 16 1 > 15)]
  | 0x33 => [(16, c.p 16 1 > 15)]
  | 0x38 => [(16, c.p 16 2 = 0 || c.p 16 2 > 256), (18, c.p 18 1 > 1)]
  | 0x41 => [(18, c.p 18 1 > 1)]
  | 0x50 => [(20, c.p 20 4 > 1048576)]
  | 0x51 => [(17, c.p 17 1 > 3)]
  | 0x61 => [(16, c.p 16 1 > 1)]
  | 0x70 => [(16, c.p 16 2 < 100 || c.p 16 2 > 560), (18, c.p 18 1 > 1)]
  | 0x80 => [(16, c.p 16 1 > 3), (24, c.p 16 1 = 0 && (c.p 24 2 = 0 || c.p 24 2 > 512)),
      (20, c.p 16 1 = 3 && c.p 20 1 > 15 && c.p 20 1 ≠ 255)]
  | 0x81 => [(24, c.p 24 1 > 3)]
  | 0x91 => [(16, c.p 16 1 > 4), (17, c.p 17 1 ≥ (if c.p 16 1 = 4 then modePorts (s.get F.NET_CTL.MODE) else 1))]
  | 0xA0 => [(16, c.p 16 2 > 1023)]
  | 0xF0 => [(16, c.p 16 1 = 0 || c.p 16 1 > 8), (18, !s.partExists (c.p 16 1) (c.p 18 2)), (20, c.p 20 1 > 3)]
  | _ => []

/-- Checks on In data: offset into the buffer, whether it is wrong (R351). -/
def dataChecks (op : Nat) (c : Ctx) : List (Nat × Bool) :=
  let d := c.data
  let k := c.p 16 1
  match op with
  | 0x91 => [(0, fieldAt d 0 4 ≠ 0x4B500001), (4, fieldAt d 4 1 ≠ k), (5, fieldAt d 5 1 > (if k = 4 then 0 else 15)),
      (6, if k = 4 then fieldAt d 6 1 ≠ 16 && fieldAt d 6 1 ≠ 32 else fieldAt d 6 1 ≠ 32),
      (7, if k = 4 then fieldAt d 7 1 = 0 || fieldAt d 7 1 > 32 else fieldAt d 7 1 ≠ 0)]
  | 0x02 => [(48, fieldAt d 48 16 ≠ 0)]
  | 0x22 => [(0, fieldAt d 0 8 % 2 = 0), (104, fieldAt d 104 8 ≠ 0)]
  | 0x23 => [(40, fieldAt d 40 1 > 15), (41, fieldAt d 41 1 > 63), (42, fieldAt d 42 6 ≠ 0)]
  | _ => []

/-- Offset of the first offending field, a reserved byte that no table of the opcode groups being one (DESIGN CHOICE, log entry 51): in the
descriptor, else in the data buffer with bit 15 set (R351). -/
def State.badField (s : State) (op : Nat) (c : Ctx) : Option Nat :=
  let flags := if c.flags > 7 then [1] else []
  let resv := (reservedOf op c).flatMap (fun r => ((List.range r.2).map (r.1 + ·)).filter (fun o => c.p o 1 ≠ 0))
  let rng := (s.rangesOf op c).filterMap (fun r => if r.2 then some r.1 else none)
  match minNat? (flags ++ resv ++ rng) with
  | some o => some o
  | none => match minNat? ((dataChecks op c).filterMap (fun r => if r.2 then some r.1 else none)) with
    | some o => some (0x8000 + o)
    | none => none

/-! ### Scatter lists (R291, R353) -/

/-- Data elements of a list. -/
def sgData (l : List (Nat × Nat × Nat)) : List (Nat × Nat × Nat) := l.filter (fun e => !e.2.2.testBit 1)

/-- Bytes that a list's buffers hold. -/
def sgBytes (l : List (Nat × Nat × Nat)) : Nat := sumNat ((sgData l).map (fun e => e.2.1))

/-- Walk of the parts: `left` bytes of a chained part, which its CHAIN element states, nothing for the first part; `parts`
chained parts at most; the list ends with LAST. -/
def sgWalk : List (Nat × Nat × Nat) → Option Nat → Nat → Bool
  | [], _, _ => false
  | e :: r, left, parts =>
    if (match left with
      | some n => decide (n < 16)
      | none => false) || e.2.2 > 2 then false
    else if e.2.2 = 2 then e.2.1 ≠ 0 && e.2.1 % 16 = 0 && (match parts with
      | 0 => false
      | p + 1 => sgWalk r (some e.2.1) p)
    else if e.2.1 = 0 || e.2.1 > 16777216 then false
    else if e.2.2 = 1 then r.isEmpty
    else sgWalk r (left.map (fun n => n - 16)) parts

/-- A scatter list keeps the limits of R291 and its data elements make up the length that the descriptor states (DEDUCED, log entry
47). -/
def sgOk (len : Nat) (l : List (Nat × Nat × Nat)) : Bool :=
  sgWalk l none 16 && (sgData l).length ≤ 4096 && sgBytes l = len

/-- Host addresses lie below 128 TiB (R284). -/
def hostAddrOk (a n : Nat) : Bool := a + n ≤ 2 ^ 47

/-- Length of the In data that an opcode states (R356). -/
def inLen (op : Nat) (c : Ctx) : Nat :=
  match op with
  | 0x02 => 64
  | 0x21 => 80
  | 0x22 => 112
  | 0x23 => 48
  | 0x30 => c.p 20 4 + c.p 24 4
  | 0x41 => c.p 20 4
  | 0x50 => c.p 20 4
  | 0x91 => 112
  | _ => sgBytes c.sg

/-- Status of the scatter list: 0 when it obeys R291 and R353. -/
def sgStatus (i : OpInfo) (op : Nat) (c : Ctx) : Nat :=
  let has := c.flags.testBit 0
  if i.data = .none then 0
  else
    let need := if i.data = .inData || i.data = .both then inLen op c else i.outLen
    if !has then (if need = 0 && i.data = .inData then 0 else 0x0102)
    else if !sgOk c.listLen c.sg then 0x0102
    else if (i.data = .inData || i.data = .both) && (sgBytes c.sg ≠ need || c.data.length ≠ need) then 0x0102
    else if i.data = .outFixed && sgBytes c.sg < need then 0x0102
    else if c.p 56 8 % 16 ≠ 0 || !hostAddrOk (c.p 56 8) 16 || !c.sg.all (fun e => hostAddrOk e.1 e.2.1 && (e.2.2 ≠ 2 || e.1 % 16 = 0)) then 0x0103
    else 0

/-- Out data go to the buffers of a list. -/
def State.sgWrite (s : State) (fn : Nat) : List (Nat × Nat × Nat) → List Byte → State
  | [], _ => s
  | e :: r, bs =>
    if bs.isEmpty then s
    else if e.2.2.testBit 1 then s.sgWrite fn r bs
    else (s.emit (.hostWrite fn none false e.1 (bs.take e.2.1))).sgWrite fn r (bs.drop e.2.1)

/-- Out data of a command: to the buffers of its list, or to the data buffer of the management bus (R353, R489). -/
def State.outData (s : State) (c : Ctx) (out : List Byte) : State :=
  if c.ring = 0x2001 then
    { s with aid := { s.aid with bus := { s.aid.bus with data := (out ++ s.aid.bus.data.drop out.length).take 96 } } }
  else s.sgWrite (s.fnOf c.ring) c.sg out

/-- A command completes after its Out data (R353). -/
def State.completeOut (s : State) (c : Ctx) (out data : List Byte) : State := (s.outData c out).complete c 0 data

/-- A command with Out data of variable length completes: with TRUNCATED when they do not fit (R351, R353). -/
def State.completeVar (s : State) (c : Ctx) (out data : List Byte) : State :=
  let room := sgBytes c.sg
  if out.length ≤ room then s.completeOut c out data
  else (s.sgWrite (s.fnOf c.ring) c.sg out).complete c 0x0003 (leBytes 4 room ++ leBytes 4 out.length)

/-! ### The checks of R350 -/

/-- Role that a command needs: OPERATOR for a RING_CREATE of an INJECT ring; MANUFACTURING for the MANUFACTURING key, and
for the OWNER key while none is set (R356, R380). -/
def State.needRole (s : State) (i : OpInfo) (op : Nat) (c : Ctx) : Option Nat :=
  if op = 0x10 && c.p 18 1 = 2 then some 1
  else if op = 0x91 && (c.p 16 1 = 3 || (c.p 16 1 = 2 && (tabFind s.sec.keys 2).isNone)) then some 3
  else i.role

/-- Opcodes that the management bus accepts (R491). -/
def busOps : List Nat := [0x01, 0x02, 0x03, 0x18, 0x60, 0xA2, 0x70, 0x71, 0x72]

/-- First field of a descriptor that breaks the data rules of the management bus (R489). -/
def busField (i : OpInfo) (op : Nat) (c : Ctx) : Option Nat :=
  let sgl := c.flags.testBit 0
  let n := c.listLen
  if sgl ≠ decide (i.data ≠ .none) then some 1
  else if i.data = .none then (if n ≠ 0 then some 12 else if c.p 56 8 ≠ 0 then some 56 else none)
  else if n > 96 || (if i.data = .inData || i.data = .both then n ≠ inLen op c else decide (n < i.outLen)) then some 12
  else if c.p 56 8 ≠ 0 then some 56 else none

/-- Feature families that a command needs: TIMED_ACTIVATE also for the timed activations (R356). -/
def needFeatures (i : OpInfo) (op : Nat) (c : Ctx) : List Nat :=
  if (op = 0x31 || op = 0x51) && (c.p 17 1).testBit 0 then [i.feature, 3] else [i.feature]

/-- Checks 2 to 7 of R350, and the component's state: the status and completion data of the first that fails. -/
def State.checkCommand (s : State) (c : Ctx) : Option (Nat × List Byte) :=
  let op := c.opcode
  match opInfo op with
  | none => some (0x0100, [])
  | some i =>
    let fn := s.fnOf c.ring
    let onBus := c.ring = 0x2001
    let rest := fun (_ : Unit) =>
      match (if onBus then busField i op c else none), s.badField op c with
      | some o, _ => some (0x0101, leBytes 2 o)
      | none, some o => some (0x0101, leBytes 2 o)
      | none, none =>
        if i.data = .none && c.flags.testBit 0 then some (0x0101, leBytes 2 1)
        else if i.data = .none && c.listLen ≠ 0 then some (0x0101, leBytes 2 12)
        else if i.data = .none && c.p 56 8 ≠ 0 then some (0x0101, leBytes 2 56)
        else
          let st := if onBus then 0 else sgStatus i op c
          if st ≠ 0 then some (st, [])
          else if s.aid.disabled.testBit i.comp then some (0x0500, []) else none
    if onBus && !busOps.contains op then some (0x0100, [])
    else match s.needRole i op c with
    | none => if c.session ≠ 0 then some (0x0101, leBytes 2 4) else rest ()
    | some role => match s.session fn c.session with
      | none => some (0x0400, [])
      | some x =>
        let bound := match s.ring c.ring with
          | some r => r.session = c.session
          | none => true
        if !s.isAdmin c.ring && !bound then some (0x0405, [])
        else if x.role < role then some (0x0401, [])
        else if (needFeatures i op c).any (fun f => !x.feats.testBit f) then some (0x0300, [])
        else rest ()

/-! ### The order of commands -/

/-- Objects that a command names (R352), as (kind, number): 0 session, 1 ring, 2 class, 3 stream, 4 group, 5 image slot,
6 calibration set, 7 patch slots, 8 buddy pairing, 9 role key (R486). -/
def Ctx.objects (c : Ctx) : List (Nat × Nat) :=
  match c.opcode with
  | 0x02 => [(9, c.p 20 1)]
  | 0x03 => [(0, c.p 16 4)]
  | 0x10 => [(1, c.p 16 2)]
  | 0x11 => [(1, c.p 16 2)]
  | 0x12 => [(1, c.p 16 2)]
  | 0x20 => [(2, c.p 16 1)]
  | 0x21 => [(4, c.p 16 1), (5, c.p 17 1)]
  | 0x22 => [(3, c.p 16 1), (5, c.p 20 1)]
  | 0x23 => [(3, c.p 16 1)]
  | 0x24 => [(3, c.p 16 1)]
  | 0x30 => [(5, c.p 16 1), (5, c.p 17 1)]
  | 0x31 => [(5, c.p 16 1)]
  | 0x32 => [(5, c.p 16 1)]
  | 0x33 => [(5, c.p 16 1)]
  | 0x40 => [(6, 0)]
  | 0x41 => [(6, 0)]
  | 0x50 => [(7, 0)]
  | 0x51 => [(7, 0)]
  | 0x91 => [(9, c.p 16 1)]
  | 0xA0 => [(8, 0)]
  | 0xA1 => [(8, 0)]
  | 0xA2 => [(8, 0)]
  | _ => []

/-- Contexts in front of a command, oldest first. -/
def State.before (s : State) (c : Ctx) : List Ctx := s.aid.ctxs.takeWhile (fun x => !(x.ring = c.ring && x.seq = c.seq))

/-- What commands wait for. -/
def wClose : Nat := 1
def wDestroy : Nat := 2
def wEval : Nat := 3
def wFloor : Nat := 4
def wStreamClosed : Nat := 5
def wActivate : Nat := 6
def wSwitched : Nat := 7
def wTimedConfig : Nat := 8
def wHandover : Nat := 9
def wTimedFw : Nat := 10
def wCap : Nat := 11
def wStop : Nat := 12
def wWarm : Nat := 13
def wPair : Nat := 14
def wTestInject : Nat := 15
def wTestRecover : Nat := 16

/-- A command in progress has run as far as later commands on its objects are concerned (R352): it has started, and waits
neither for an evaluation or a raise of the floor nor for its stream to close (DEDUCED, log entry 50). -/
def Ctx.hasRun (x : Ctx) : Bool := x.steps ≠ 0 && x.waiting ≠ wEval && x.waiting ≠ wFloor && x.waiting ≠ wStreamClosed

/-- A command waits for one before it that names the same object and has not run (R352). -/
def State.objectHeld (s : State) (c : Ctx) : Bool :=
  (s.before c).any (fun x => !x.hasRun && x.objects.any (fun o => c.objects.contains o))

/-! ### Cores and levels (R318, R322, R324) -/

/-- Components that run on every core in service (R318). -/
def replicated (comp : Nat) : Bool := comp ≤ 1 || comp = 14

/-- Home core of a singleton (R318). -/
def State.home (s : State) (comp : Nat) : Nat := tabGet (comp % 8) s.aid.homes comp

/-- The core that serves a ring; MGMT's home core for the pseudo-rings (R323, R332). -/
def State.ringCore (s : State) (ring : Nat) : Nat :=
  match s.ring ring with
  | some x => x.core
  | none => s.home 13

/-- The core that an opcode's work runs on: the home core of its component, or the core of the ring (R318, R324). -/
def State.workCore (s : State) (op ring : Nat) : Nat :=
  match opInfo op with
  | some i => if replicated i.comp then s.ringCore ring else s.home i.comp
  | none => s.ringCore ring

/-- The core that a command's component runs on. -/
def State.coreOf (s : State) (c : Ctx) : Nat := s.workCore c.opcode c.ring

/-- Level of an admission event (R322): a recomputation that a fault causes is URGENT. -/
def Eval.level : Eval → Level
  | .capacity => .urgent
  | _ => .normal

/-- What waits for a control core (R322). -/
inductive Work where
  | doorbell (mbx : Nat)                  -- the ABORT doorbell of a mailbox end of the core (R335, R336)
  | eval (e : Eval)
  | window (off size val : Nat)           -- a write to BAR2
  | command (ring seq : Nat)
  deriving DecidableEq, Repr

/-- Mailboxes whose ABORT doorbell interrupts a core (R335). -/
def State.aborts (s : State) (core : Nat) : List Nat :=
  (List.range 64).filter (fun m => s.flag (F.MBX_CFG.ENABLE m) && (match s.endOf m (core + 1) with
    | some e => let x := (s.box m).side e
      x.pend.testBit 31 && !x.mask.testBit 31
    | none => false))

/-- The work that waits for a core, each level in arrival order (R322). -/
def State.work (s : State) (core : Nat) : List (Level × Work) :=
  (s.aborts core).map (fun m => (.event, .doorbell m)) ++
  (if s.home 3 = core then s.aid.evals.map (fun e => (e.level, .eval e)) else []) ++
  (if s.home 13 = core then s.aid.mw.arrived.map (fun (w : Nat × Nat × Nat) => (.urgent, .window w.1 w.2.1 w.2.2)) else []) ++
  (s.aid.ctxs.filter (fun c => c.steps = 0 && s.coreOf c = core)).map (fun c => (.normal, .command c.ring c.seq))

/-- A core has work above the level NORMAL, which runs before any NORMAL step (R322). -/
def State.preempted (s : State) (core : Nat) : Bool := (s.work core).any (fun w => w.1 ≠ .normal)

/-- Nothing but its turn on its core keeps a command from running: no object holds it, its context has reached the core of its
component (R324), and the commands before it on its ring have started, where one that only an object holds counts as started
(R323), or completed when it carries FENCE (R290). -/
def State.ready (s : State) (c : Ctx) : Bool :=
  !s.objectHeld c && (match s.note c.ring c.seq with
    | some n => s.noteThere n
    | none => true) &&
  (s.before c).all (fun x => x.ring ≠ c.ring || ((x.steps ≠ 0 || s.objectHeld x) && !c.flags.testBit 1))

/-- A command may run (R322): it is ready, its core has no work of a higher level, and no command that is ready arrived before
it at that core. -/
def State.mayStart (s : State) (c : Ctx) : Bool :=
  s.ready c && !s.preempted (s.coreOf c) &&
    (s.before c).all (fun x => x.steps ≠ 0 || s.coreOf x ≠ s.coreOf c || !s.ready x)

/-- A command row: the command in progress that it names starts on its core, through the gate of its component, provided it
carries the row's opcode and may start; its checks decide, and then `run` (R350); what it changes of the mirrored configuration
goes to the buddy (R428). -/
def State.command (s : State) (cmd : CmdRef) (op : Nat) (form : Ctx → Bool) (run : State → Ctx → State) : State :=
  match s.ctx cmd.ring cmd.seq with
  | none => s
  | some c =>
    if c.opcode ≠ op || c.steps ≠ 0 || !form c || !s.mayStart c then s
    else
      let s := (s.takeNote c.ring c.seq).gate (s.coreOf c) ((opInfo op).elim 1 (fun i => i.comp))
      let c := { c with
        steps := 1, sg := cmd.sg
        data := if c.ring = 0x2001 then s.aid.bus.data.take c.listLen else cmd.data }
      let s := s.setCtx c
      (match s.checkCommand c with
      | some r => s.complete c r.1 r.2
      | none => run s c).mirrorConfig

/-- Every form of an opcode. -/
def anyForm (_ : Ctx) : Bool := true

/-- A command waits for an event. -/
def State.await (s : State) (c : Ctx) (what arg : Nat) : State := s.setCtx { c with waiting := what, arg := arg }

/-- An admission event is queued (R228). -/
def State.askEval (s : State) (e : Eval) : State := { s with aid := { s.aid with evals := s.aid.evals ++ [e] } }

/-- Contexts that wait for something. -/
def State.waiters (s : State) (what : Nat) : List Ctx := s.aid.ctxs.filter (fun c => c.waiting = what)

end Sys2Proof.Machine
end

