-- ==== Sys2Proof/Machine/Models.lean ====
section
/-!
DEFINITION. Model images (R135, R149, R367–R370): load, activation and its switch, unload and query.
-/

namespace Sys2Proof

/-- Approximation classes keep to their groups (R149): `n` tiles. -/
def Image.classesOk (m : Image) (n : Nat) : Bool :=
  m.layers.all (fun l => (l.cls ≠ 1 || n ≤ 12) && (l.cls ≠ 2 || n ≥ 24))

end Sys2Proof

namespace Sys2Proof.Machine

/-! ### Tiles and furrow cores -/

/-- Tiles that belong to no group and have not failed. -/
def State.freeTiles (s : State) : List Nat :=
  (List.range 48).filter (fun t => (s.tileGroup t).isNone && s.get (F.ST_STAT.STATE t) ≠ 4)

/-- The tiles that an image is given (R367): those asked for, or the lowest-numbered free ones, at least five in
fault-absorbing layout (DEDUCED, log entry 36). -/
def State.tilesFor (s : State) (m : Image) (mask : Nat) : List Nat :=
  if mask ≠ 0 then (List.range 48).filter (fun t => mask.testBit t)
  else s.freeTiles.take (if m.compact then m.tiles else max 5 m.tiles)

/-- A tile list can hold an image (R135, R138). -/
def State.tilesHold (s : State) (m : Image) (ts : List Nat) : Bool :=
  ts.all (fun t => s.freeTiles.contains t) && decide (1 ≤ ts.length) && decide (m.tiles ≤ ts.length) &&
    (m.compact || decide (5 ≤ ts.length))

/-- Furrow cores without a logical number that have not failed. -/
def State.freeCores (s : State) : List Nat :=
  (List.range 96).filter (fun c => s.get (F.FW_CORE_STAT.STATE c) ≠ 3 &&
    (!s.flag (F.FW_CORE_CFG.ENABLE c) || s.get (F.FW_CORE_CFG.LOGICAL c) = 0x7F))

/-- Logical cores of the resident images. -/
def State.usedLogical (s : State) : List Nat := s.img.slots.flatMap (fun p => p.2.image.cores.map (fun c => c.logical))

/-- The furrow cores can hold a netlist: at most 95 in use by all images, one left idle (R121). -/
def State.coresHold (s : State) (m : Image) : Bool :=
  decide (s.usedLogical.length + m.cores.length ≤ 95) && (m.cores.isEmpty || decide (m.cores.length + 1 ≤ s.freeCores.length)) &&
    m.cores.all (fun c => !s.usedLogical.contains c.logical && decide (c.logical < 96))

/-- A table from entries. -/
def tabOf {α : Type} (l : List (Nat × α)) : Tab α := l.foldl (fun (t : Tab α) (p : Nat × α) => tabInsert t p.1 p.2) []

/-- A logical core's tables and synapses go to a physical core, and the remap table names it (R103, R126). -/
def State.loadCore (s : State) (m : ImgCore) (c : Nat) : State :=
  let base := 0x410000000000 + c * 0x100000
  let clear := s.mem.filter (fun x => !(base ≤ x.1 && x.1 < base + 0x80000))
  let s := { s with
    mem := memPutAll clear base (m.weights.take 0x80000)
    fw := { s.fw with
      neurons := tabInsert s.fw.neurons c (((List.range m.neurons.length).zip m.neurons).foldl
        (fun (t : Tab Nat) (p : Nat × Nat) => tabSet 0 t p.1 p.2) [])
      fanout := tabInsert s.fw.fanout c (m.fanout.foldl (fun (t : Tab Nat) (p : Nat × Nat) => tabSet 0 t p.1 p.2) [])
      remap := tabSet 0 s.fw.remap m.logical c } }
  let s := ((s.put (F.FW_CORE_CFG.SCALE c) m.scale).put (F.FW_CORE_CFG.GW_MASK c) m.gwMask).put (F.FW_CORE_CFG.LOGICAL c) m.logical
  let s := (s.setReg (R.FW_CORE_UP_LO c) (BitVec.ofNat 64 m.up)).setReg (R.FW_CORE_UP_HI c) (BitVec.ofNat 64 (m.up / 2 ^ 64))
  (s.setReg (R.FW_CORE_DN_LO c) (BitVec.ofNat 64 m.down)).setReg (R.FW_CORE_DN_HI c) (BitVec.ofNat 64 (m.down / 2 ^ 64))

/-- Every core of a netlist is loaded, logical cores in order onto the lowest-numbered free ones (DEDUCED, log entry 36). -/
def State.loadCores (s : State) (m : Image) : State :=
  s.each (m.cores.zip s.freeCores) (fun s p => s.loadCore p.1 p.2)

/-- Physical cores of an image's logical cores. -/
def State.coresOf (s : State) (m : Image) : List Nat := m.cores.map (fun c => s.physOf c.logical)

/-- The delta store of a tile: the lowest plain tile-affine region of its stop (R148; DESIGN CHOICE, log entry 36). -/
def State.deltaStore (s : State) (t : Nat) : Option Region :=
  s.regions.find? (fun r => r.affine && !r.guarded && r.stop = stopOfTile t)

/-- Tile `t` joins group `n` at a position. -/
def State.joinTile (s : State) (n : Nat) (compact : Bool) (p t : Nat) : State :=
  let s := match s.deltaStore t with
    | some r => (s.put (F.ST_DELTA_BASE.BASE t) (r.base / 4096)).put (F.ST_DELTA_SIZE.SIZE_MIB t) (min 32768 (r.size / 0x100000))
    | none => s
  let s := ((s.put (F.ST_CTL.POSITION t) p).put (F.ST_CTL.IMAGE t) n).put (F.ST_CTL.ENABLE t) 1
  let s := (s.put (F.ST_LAYOUT.LAYOUT t) (bit compact)).put (F.ST_LAYOUT.REFUGE_PAGES t) (if compact then 0 else 410)
  (s.put (F.ST_STAT.STATE t) 1).put (F.ST_STAT.REFUGE_USED t) 0

/-- The master copy of an image goes to a guarded striped region that holds it, at a place of Aidor's choice (R139, R367; DESIGN
CHOICE, log entry 36). -/
def State.putMaster (s : State) (bs : List Byte) : State :=
  match s.regions.find? (fun r => r.guarded && !r.affine && bs.length ≤ r.size) with
  | some r => s.tickFree.dramPut (r.base + 64 * (s.freeVal .load % ((r.size - bs.length) / 64 + 1))) bs
  | none => s

/-- The master copies of an image are loaded and its tiles form group `n` (R136, R139, R367). -/
def State.install (s : State) (n : Nat) (m : Image) (epoch : Nat) (digest : List Byte) (replaces : Option Nat) (ts : List Nat) : State :=
  let s := (s.putMaster m.bytes).loadCores m
  let s := s.each ((List.range ts.length).zip ts) (fun s p => s.joinTile n m.compact p.1 p.2)
  let s := ((s.put (F.ST_GRP_STAT.STATE n) 1).put (F.ST_GRP_STAT.LAYOUT n) (bit m.compact)).put (F.ST_GRP_STAT.NO_REMAP n) (bit m.noRemap)
  let s := (s.put (F.ST_GRP_STAT.TILES n) (unionAll (ts.map (fun t => 2 ^ t)))).setReg (R.ST_GRP_EPOCH n) (BitVec.ofNat 64 epoch)
  s.setSlot n ⟨m, epoch, digest, false, replaces, unionAll (ts.map (fun t => 2 ^ t)), none, ts.length⟩

/-- A core leaves its image: it stands idle without a logical number. -/
def State.freeCore (s : State) (c : Nat) : State := (s.put (F.FW_CORE_CFG.LOGICAL c) 0x7F).put (F.FW_CORE_STAT.STATE c) 4

/-- A tile leaves its group. -/
def State.freeTile (s : State) (t : Nat) : State :=
  let s := s.put (F.ST_CTL.ENABLE t) 0
  if s.get (F.ST_STAT.STATE t) = 4 then s else s.put (F.ST_STAT.STATE t) 0

/-- A slot becomes EMPTY: its tiles, cores and master copies are freed (R370). -/
def State.uninstall (s : State) (n : Nat) : State :=
  match s.slot n with
  | none => s
  | some x =>
    let s := s.each (x.image.cores) (fun s c =>
      if s.flag (F.FW_CORE_CFG.ENABLE (s.physOf c.logical)) then s.freeCore (s.physOf c.logical)
      else s.put (F.FW_CORE_CFG.LOGICAL (s.physOf c.logical)) 0x7F)
    let s := s.each (s.groupTiles n) State.freeTile
    let s := (s.setReg (R.ST_GRP_STAT n) 0).setReg (R.ST_GRP_EPOCH n) 0
    { s with img := { s.img with slots := tabErase s.img.slots n } }

/-! ### MODEL_LOAD -/

/-- The state in which the streams and groups of slot `old` are served by slot `n`: what admission looks at (R228). -/
def State.asReplaced (s : State) (old n : Nat) : State :=
  { s with img := { s.img with
    streamSlot := tabMap (fun _ x => if x = old then n else x) s.img.streamSlot
    fusionSlot := tabMap (fun _ x => if x = old then n else x) s.img.fusionSlot } }

/-- A load is complete: the slot is READY (R367). -/
def State.loadDone (s : State) (c : Ctx) : State :=
  match s.slot (c.p 16 1) with
  | none => s
  | some x => s.complete c 0 (x.digest.take 8 ++ leBytes 1 x.usable)

def State.modelLoad (m : Image) (s : State) (c : Ctx) : State :=
  let n := c.p 16 1
  let m := { m with bytes := c.data }
  let ts := s.tilesFor m (c.p 40 6)
  let epoch := c.p 32 8
  if (s.slot n).isSome then s.complete c 0x0303 []
  else if !m.formatOk then s.complete c 0x0104 []
  else if !m.classesOk ts.length then s.complete c 0x0105 []
  else if !s.tilesHold m ts || !s.coresHold m then s.complete c 0x0203 []
  else
    let old := c.p 17 1
    let repl := if old < 16 && (s.slot old).isSome then some old else none
    let s := s.install n m epoch (sha256 c.data) repl ts
    match repl with
    | some _ => (s.await c wEval 0).askEval (.load n c.ring c.seq)
    | none => s.loadDone c

def execModelLoad (t : Nat) (cmd : CmdRef) (image : Image) (s : State) : Res :=
  .next ((s.at t).command cmd 0x30 anyForm (State.modelLoad image))

/-! ### Activation -/

/-- 1 ms and 86,400 s, the window of a timed activation or commit (R368, R371). -/
def windowOk (now t : Nat) : Bool := decide (now + 1000000 ≤ t) && decide (t ≤ now + 86400 * 1000000000)

def State.modelActivate (s : State) (c : Ctx) : State :=
  let n := c.p 16 1
  let timed := (c.p 17 1).testBit 0
  let isLocal := (c.p 17 1).testBit 2
  match s.slot n with
  | none => s.complete c 0x0303 []
  | some x =>
    if x.active || x.pending.isSome || (s.waiters wEval).any (fun w => w.opcode = 0x30 && w.p 16 1 = n) then s.complete c 0x0303 []
    else if timed && !windowOk s.time (c.p 24 8) then s.complete c 0x0106 []
    else if timed && !isLocal && s.get F.TIM_SERVO.STATE ≠ 2 then s.complete c 0x0309 []
    else
      let at' := if timed then c.p 24 8 else s.time + 1000000
      (s.setSlot n { x with pending := some ⟨at', c.ring, c.seq⟩ }).await c wActivate at'

def execModelActivate (t : Nat) (cmd : CmdRef) (s : State) : Res :=
  .next ((s.at t).command cmd 0x31 (fun c => !(c.p 17 1).testBit 1) State.modelActivate)

/-- CANCEL (R369). -/
def State.modelCancel (s : State) (c : Ctx) : State :=
  let n := c.p 16 1
  match s.slot n with
  | none => s.complete c 0x0303 []
  | some x => match x.pending with
    | none => s.complete c 0x0303 []
    | some a =>
      let s := s.setSlot n { x with pending := none }
      let s := match s.ctx a.ring a.seq with
        | some w => s.complete w 0x0307 []
        | none => s
      s.complete c 0 []

def execModelActivateCancel (t : Nat) (cmd : CmdRef) (s : State) : Res :=
  .next ((s.at t).command cmd 0x31 (fun c => (c.p 17 1).testBit 1) State.modelCancel)

/-- A population of an image takes effect. -/
def State.setPop (s : State) (p : ImgPop) : State :=
  let s := (s.setReg (R.FW_POP_CTL p.number) (BitVec.ofNat 64 p.ctl)).setReg (R.FW_POP_SHAPE p.number) (BitVec.ofNat 64 p.shape)
  (s.setReg (R.FW_POP_DEST p.number) (BitVec.ofNat 64 p.dest)).setReg (R.FW_POP_HBUF p.number) (BitVec.ofNat 64 p.hbuf)

/-- The netlist of an image starts at a step: its cores run from initial membranes (R102, R368). -/
def State.startNetlist (s : State) (m : Image) (step : Nat) : State :=
  let s := s.each (s.coresOf m) (fun s c =>
    let s := (s.put (F.FW_CORE_CFG.ENABLE c) 1).coreStart c
    s.setFcore c { s.fcore c with opened := step, first := step })
  s.each m.pops State.setPop

/-- Streams and groups that slot `old` serves: open streams, and groups by fusion slot. -/
def State.servedBy (s : State) (old : Nat) : List Nat × List Nat :=
  ((s.img.streamSlot.filter (fun p => p.2 = old && s.streamState p.1 ≠ 0)).map (fun p => p.1),
    (s.img.fusionSlot.filter (fun p => p.2 = old)).map (fun p => p.1))

/-- First slice under the new image, for slices of `t` ns: the one at or after the activation time (R368), or every slice that
still waits when the replaced group is out of service (R142). -/
def firstUnder (out : Bool) (at' t : Nat) : Nat := if out then 0 else ceilDiv at' t

/-- A pending activation reaches its time (R368): for each stream and group of the replaced slot the first slice at or
after it runs under the new image; the replaced slot returns to READY.  Where the replaced group is out of service its waiting
slices run under the new image, and admission is computed again for its streams (R142, R242). -/
def State.activationSwitch (s : State) (n : Nat) : State :=
  match s.slot n with
  | none => s
  | some x => match x.pending with
    | none => s
    | some a =>
      let s := s.at a.at'
      let served := match x.replaces with
        | some old => s.servedBy old
        | none => ([], [])
      let old := x.replaces.getD n
      let out := x.replaces.isSome && s.get (F.ST_GRP_STAT.STATE old) = 5
      let s := s.setSlot n { x with active := true, pending := none }
      let s := match x.replaces with
        | some o => (match s.slot o with
          | some y => s.setSlot o { y with active := false }
          | none => s)
        | none => s
      let s := s.each served.1 (fun s i =>
        let k := firstUnder out a.at' (s.sliceNs i)
        let s := { s with img := { s.img with
          streamSlot := tabInsert s.img.streamSlot i n, streamOld := tabInsert s.img.streamOld i (k, old) } }
        match x.image.maps.find? (fun m => m.1 = i), tabFind s.built (3 * i + 1) with
        | some m, some b => { s with built := tabInsert s.built (3 * i + 1) (b.1, m.2) }
        | _, _ => s)
      let s := s.each served.2 (fun s g =>
        let k := ceilDiv a.at' (s.groupNs g)
        { s with img := { s.img with
          fusionSlot := tabInsert s.img.fusionSlot g n, fusionOld := tabInsert s.img.fusionOld g (k, old) } })
      let groups := served.1.map s.groupOf ++ served.2
      let g0 := minNat? groups
      let start := match g0 with
        | some g => ceilDiv a.at' (s.groupNs g) * s.groupNs g
        | none => a.at'
      let s := (s.startNetlist x.image (start / max s.stepNs 1)).haloRestart n
      let s := if out then s.askCapacity else s
      match s.ctx a.ring a.seq with
      | none => s
      | some c => match g0 with
        | none => s.complete c 0 []
        | some g => s.await c wSwitched (1024 * ceilDiv a.at' (s.groupNs g) + g)

def execActivationSwitch (t slot : Nat) (s : State) : Res :=
  .next (let s := s.at t
    match s.slot slot with
    | some x => (match x.pending with
      | some a => if a.at' ≤ s.time then s.activationSwitch slot else s
      | none => s)
    | none => s)

/-- The first affected slice has been dispatched under the new image: some stream of the group has dispatched slice k. -/
def State.switched (s : State) (c : Ctx) : Bool :=
  let g := c.arg % 1024
  let k := c.arg / 1024
  (s.groupStreams g).isEmpty || (s.groupStreams g).any (fun i => reached (tabFind s.sd.dispatched i) k)

/-! ### MODEL_UNLOAD and MODEL_QUERY -/

/-- A slot is in use (R370). -/
def State.slotBusy (s : State) (n : Nat) : Bool :=
  match s.slot n with
  | none => false
  | some x =>
    x.active || x.pending.isSome || s.slotStreams n ≠ 0 ||
    s.img.fusionSlot.any (fun p => p.2 = n && s.flag (F.CP_GRP_CTL.ENABLE p.1)) ||
    s.img.streamOld.any (fun p => p.2.2 = n && s.streamState p.1 ≠ 0 && !reached (tabFind s.sd.handed p.1) p.2.1)

def State.modelUnload (s : State) (c : Ctx) : State :=
  let n := c.p 16 1
  if s.slotBusy n then s.complete c 0x0303 [] else (s.uninstall n).complete c 0 []

def execModelUnload (t : Nat) (cmd : CmdRef) (s : State) : Res :=
  .next ((s.at t).command cmd 0x32 anyForm State.modelUnload)

/-- L_pipe of a slot at the power floor, ns: the largest over the streams that it serves (R221, R370). -/
def State.slotPipe (s : State) (n : Nat) : Nat :=
  let ls := s.loads s.adm.admitted
  let p := s.adm.floor
  let u := s.usableTiles n
  maxNat ((ls.filter (fun l => l.slot = n)).map (fun l =>
    let m := s.imageOf n
    1000 * s.lReady l + m.cost 0x10 p 0 + 1000 * ceilDiv (m.cost 0x01 p l.events) (max u 1 * opMHz p) +
      1000 * s.lFuse ls s.adm.fallback (!s.adm.fallback.isEmpty) l.group p))

/-- Out data of MODEL_QUERY (R370). -/
def State.queryData (s : State) (n : Nat) : List Byte :=
  match s.slot n with
  | none => zeros 64
  | some x =>
    let st := if x.pending.isSome then 3 else if x.active then 2 else 1
    let at' := match x.pending with
      | some a => a.at'
      | none => 0
    leBytes 1 st ++ leBytes 1 (bit x.image.compact) ++ leBytes 6 x.tiles ++ leBytes 8 x.epoch ++ (x.digest ++ zeros 32).take 32 ++
      leBytes 8 at' ++ leBytes 4 (satNat 32 (s.slotPipe n)) ++ zeros 4

def execModelQuery (t : Nat) (cmd : CmdRef) (s : State) : Res :=
  .next ((s.at t).command cmd 0x33 anyForm (fun s c => s.completeOut c (s.queryData (c.p 16 1)) []))

end Sys2Proof.Machine
end

