-- ==== Sys2Proof/Machine/Streams.lean ====
section
/-!
DEFINITION. Classes, groups and streams as Aidor commands them (R362–R366), and the evaluation of admission (R228, R229,
R235, R243).
-/

namespace Sys2Proof.Machine

/-! ### Commits by Aidor -/

/-- Requester number of a component's home core (R316). -/
def State.aidReq (s : State) (comp : Nat) : Nat := s.home comp + 1

/-- Aidor writes values to registers of the group committed at `c`. -/
def State.aidWrites (s : State) (req c : Nat) : List (Nat × Nat) → State
  | [] => s
  | (a, v) :: r => match regAt a with
    | some x => (s.groupWrite req 8 c a x.1.fields (BitVec.ofNat 64 v) (maskOf 63 0)).aidWrites req c r
    | none => s.aidWrites req c r

/-- Aidor writes the values and commits the group: the code, if the commit did not succeed.  A group that another
requester holds takes neither (R508). -/
def State.tryCommit (s : State) (req c : Nat) (vals : List (Nat × Nat)) (commit : State → State) : State × Option Nat :=
  let h := (s.group c).holder
  if h ≠ 0 && h ≠ req then (s.sysErr F.SYS_ERR.GROUP_HELD req 8 c, some (getBits (s.reg (c + 4)) 7 0))
  else
    let s := commit (s.aidWrites req c vals)
    let code := getBits (s.reg (c + 4)) 7 0
    (s, if code = 0 then none else some code)

/-- Completion data of 0x0108 (R351). -/
def commitData (index c code : Nat) : List Byte := leBytes 2 index ++ leBytes 4 c ++ leBytes 1 code

/-- A command completes with COMMIT_CHECK; the state before its commits stands, but for the code (R364). -/
def State.commitFailed (s0 : State) (c : Ctx) (index off code : Nat) : State :=
  (s0.setReg (off + 4) (BitVec.ofNat 64 code)).complete c 0x0108 (commitData index off code)

/-- `n` consecutive register values of a buffer from offset `o`, with the registers' offsets from `a` on. -/
def regVals (a : Nat) (d : List Byte) (o n : Nat) : List (Nat × Nat) :=
  (List.range n).map (fun j => (a + 8 * j, fieldAt d (o + 8 * j) 8))

/-! ### Maps that Aidor builds (R364, R475) -/

/-- Data of a calibration item, if it is not missing. -/
def State.calItem (s : State) (n : Nat) : Option (List Byte) := (tabFind s.cal.items n).map (fun x => x.data)

/-- A map as Aidor builds it from its source: as it stands, or through the stream's undistortion table, which leaves its
header of `h` bytes as it stands. -/
def State.undistort (s : State) (i h : Nat) (bs : List Byte) : List Byte :=
  match s.calItem (0x8200 + i) with
  | some _ => bs.take h ++ (List.range (bs.length - h)).map (fun j => BitVec.ofNat 8 (Config.free .undistorted (s.fresh + j)))
  | none => bs

/-- A map of kind `k` is built at address `a`, of Aidor's choice. -/
def State.build (s : State) (i k a : Nat) (bs : List Byte) : State :=
  { s with built := tabInsert s.built (3 * i + k) (a, bs), fresh := s.fresh + 1 + bs.length }

/-- A map of kind `k` is used at the address given. -/
def State.unbuild (s : State) (i k : Nat) : State := { s with built := tabErase s.built (3 * i + k) }

/-- Where Aidor puts a map: bits [47:6] of a register. -/
def State.mapAddr (s : State) (w : Nat) : Nat := (setBits (BitVec.ofNat 64 w) 47 6 (s.freeVal .load)).toNat

/-- The device address that such a register value holds. -/
def mapPlace (w : Nat) : Nat := 64 * natBits w 47 6

/-- An address of 0 in bits [47:6]. -/
def noAddr (w : Nat) : Bool := natBits w 47 6 = 0

/-! ### STREAM_OPEN -/

/-- The load that a STREAM_OPEN asks for. -/
def State.openLoad (s : State) (c : Ctx) : Load :=
  let d := c.data
  let ctl := BitVec.ofNat 64 (fieldAt d 0 8)
  let g := (F.HG_STREAM_CTL.GROUP 0).of ctl
  ⟨c.p 16 1, g, c.p 20 1, (s.classRow ((F.HG_STREAM_CTL.CLASS 0).of ctl)).d, fieldAt d 32 4, fieldAt d 36 4,
    (F.HG_STREAM_TIME.GUARD 0).of (BitVec.ofNat 64 (fieldAt d 64 8)), s.get (F.CP_GRP_CTL.SLICE_US g), s.get (F.CP_GRP_CTL.W_US g),
    (F.HG_STREAM_CTL.ANCHOR 0).of ctl = 1⟩

/-- Class that a STREAM_OPEN names. -/
def State.openClass (s : State) (c : Ctx) : ClassRow :=
  s.classRow ((F.HG_STREAM_CTL.CLASS 0).of (BitVec.ofNat 64 (fieldAt c.data 0 8)))

/-- The maps of a stream that Aidor builds at its open, and the addresses of its hot-pixel map, retina map and projection table
then in force (R364). -/
def State.openMaps (s : State) (c : Ctx) : State × (Nat × Nat × Nat) :=
  let i := c.p 16 1
  let hpm := fieldAt c.data 48 8
  let map := fieldAt c.data 80 8
  let proj := fieldAt c.data 96 8
  let own := match (s.imageOf (c.p 20 1)).maps.find? (fun m => m.1 = i) with
    | some m => m.2
    | none => []
  let hpm' := if noAddr hpm then s.mapAddr hpm else hpm
  let s := if noAddr hpm then s.build i 0 (mapPlace hpm') ((s.calItem (0x8100 + i)).getD []) else s.unbuild i 0
  let map' := if noAddr map then s.mapAddr map else map
  let s := if noAddr map then s.build i 1 (mapPlace map') (s.undistort i 0 own) else s.unbuild i 1
  let proj' := if noAddr proj then s.mapAddr proj else proj
  let s := if noAddr proj then s.build i 2 (mapPlace proj') (s.undistort i 64 ((s.calItem (0x8000 + i)).getD [])) else s.unbuild i 2
  (s, hpm', map', proj')

/-- The ring that injects into a stream, and the image slot that serves it, follow its open (R364). -/
def State.openLinks (s : State) (c : Ctx) : State :=
  let i := c.p 16 1
  let ring := c.p 18 2
  let s := s.setStream i { s.stream i with injRing := if ring = 0xFFFF then none else some ring }
  let s := match s.ring ring with
    | some x => s.setRing ring { x with stream := some i }
    | none => s
  { s with img := { s.img with
    streamSlot := tabInsert s.img.streamSlot i (c.p 20 1), streamOld := tabErase s.img.streamOld i } }

/-- Steps 3 and 4 of R364: maps and offset, then the commits of the FW map group, the CP member group and the HG stream
group. -/
def State.openFinish (s : State) (c : Ctx) (admitting : Bool) : State :=
  let before := s
  let i := c.p 16 1
  let d := c.data
  let toff := fieldAt d 56 8
  if noAddr (fieldAt d 96 8) && (s.calItem (0x8000 + i)).isNone then s.complete c 0x0308 []
  else
    let toff' := if toff = 0 && !(c.p 21 1).testBit 0 then leNat (((s.calItem (0x8300 + i)).getD []).take 8) else toff
    let maps := s.openMaps c
    let at' := maps.2
    let s := maps.1.openLinks c
    let req := s.aidReq 5
    let hg := regVals (R.HG_STREAM_CTL i) d 0 6 ++ [(R.HG_STREAM_HPM i, at'.1), (R.HG_STREAM_TOFF i, toff'), (R.HG_STREAM_TIME i, fieldAt d 64 8)]
    let s := s.aidWrites req (R.HG_STREAM_COMMIT i) hg
    let r1 := s.tryCommit req (R.FW_MAP_COMMIT i) [(R.FW_MAP_CTL i, fieldAt d 72 8), (R.FW_MAP_ADDR i, at'.2.1)]
      (fun s => s.commitLater req (R.FW_MAP_COMMIT i) 1 (s.fwMapCode i))
    match r1.2 with
    | some code => before.commitFailed c 0 (R.FW_MAP_COMMIT i) code
    | none =>
      let r2 := r1.1.tryCommit req (R.CP_MBR_COMMIT i) [(R.CP_MBR_CTL i, fieldAt d 88 8), (R.CP_MBR_PROJ i, at'.2.2)]
        (fun s => s.cpMbrCommit req i 1)
      match r2.2 with
      | some code => before.commitFailed c 0 (R.CP_MBR_COMMIT i) code
      | none =>
        let r3 := r2.1.tryCommit req (R.HG_STREAM_COMMIT i) [] (fun s => s.hgStreamCommit req i 1)
        match r3.2 with
        | some code => before.commitFailed c 0 (R.HG_STREAM_COMMIT i) code
        | none =>
          let s := r3.1
          let b := streamBit i
          let s := { s with adm := { s.adm with
            admitted := if admitting then s.adm.admitted ||| b else setMinus s.adm.admitted b
            withdrawn := setMinus s.adm.withdrawn b
            charged := tabErase s.adm.charged i, releases := tabErase s.adm.releases i } }
          let s := ((if admitting then s.settleAdm true else s).belowFloor).bindQueues i
          s.complete c 0 (leBytes 1 s.adm.floor ++ leBytes 1 (bit admitting))

/-- STREAM_OPEN (R364): its states, then admission unless its class is BEST_EFFORT. -/
def State.streamOpen (s : State) (c : Ctx) : State :=
  let i := c.p 16 1
  let ring := c.p 18 2
  let l := s.openLoad c
  let live := match s.slot (c.p 20 1) with
    | some x => x.active
    | none => false
  let mine := match s.ring ring with
    | some x => x.kind = .inject && x.session = c.session
    | none => false
  if s.streamState i ≠ 0 || !s.flag F.HG_CTL.ENABLE || !s.flag (F.CP_GRP_CTL.ENABLE l.group) || !live then s.complete c 0x0303 []
  else if ring ≠ 0xFFFF && !mine then s.complete c 0x0405 []
  else if (s.openClass c).bestEffort then s.openFinish c false
  else (s.await c wEval 0).askEval (.openStream i c.ring c.seq)

def execStreamOpen (t : Nat) (cmd : CmdRef) (s : State) : Res :=
  .next ((s.at t).command cmd 0x22 anyForm State.streamOpen)

/-! ### STREAM_MODIFY -/

/-- Rate and burst at which a stream is charged. -/
def State.chargedAt (s : State) (i : Nat) : Nat × Nat :=
  (tabFind s.adm.charged i).getD (s.get (F.HG_STREAM_BKT.RATE i), s.get (F.HG_STREAM_BKT.BURST i))

/-- Rate and burst that a STREAM_MODIFY sets. -/
def State.modifyBkt (s : State) (c : Ctx) : Nat × Nat :=
  if (fieldAt c.data 41 1).testBit 0 then (fieldAt c.data 0 4, fieldAt c.data 4 4)
  else (s.get (F.HG_STREAM_BKT.RATE (c.p 16 1)), s.get (F.HG_STREAM_BKT.BURST (c.p 16 1)))

/-- Class that a STREAM_MODIFY leaves. -/
def State.modifyClass (s : State) (c : Ctx) : Nat :=
  if (fieldAt c.data 41 1).testBit 5 then fieldAt c.data 40 1 else s.get (F.HG_STREAM_CTL.CLASS (c.p 16 1))

/-- The load that a STREAM_MODIFY asks for: the larger figures until a lowering is released (R236). -/
def State.modifyLoad (s : State) (c : Ctx) : Load :=
  let i := c.p 16 1
  let old := s.chargedAt i
  let new := s.modifyBkt c
  let guard := if (fieldAt c.data 41 1).testBit 4 then (F.HG_STREAM_TIME.GUARD 0).of (BitVec.ofNat 64 (fieldAt c.data 32 8))
    else s.get (F.HG_STREAM_TIME.GUARD i)
  { s.loadOf i with
    deadline := (s.classRow (s.modifyClass c)).d, rate := max old.1 new.1, burst := max old.2 new.2, guardUs := guard }

/-- Registers that a STREAM_MODIFY writes. -/
def Ctx.modifyVals (c : Ctx) : List (Nat × Nat) :=
  let i := c.p 16 1
  let regs := [R.HG_STREAM_BKT i, R.HG_STREAM_DN i, R.HG_STREAM_HPM i, R.HG_STREAM_TOFF i, R.HG_STREAM_TIME i]
  ((List.range 5).zip regs).filterMap (fun (p : Nat × Nat) =>
    if (fieldAt c.data 41 1).testBit p.1 then some (p.2, fieldAt c.data (8 * p.1) 8) else none)

/-- The commit of a STREAM_MODIFY: values and class wait for the next slice boundary; a lowering of r or b is released D
after it (R236, R365). -/
def State.modifyFinish (s : State) (c : Ctx) (admitting : Bool) : State :=
  let s0 := s
  let i := c.p 16 1
  let req := s.aidReq 5
  let old := s.chargedAt i
  let new := s.modifyBkt c
  let cls := s.modifyClass c
  let s := if (fieldAt c.data 41 1).testBit 2 then s.unbuild i 0 else s
  let r := s.tryCommit req (R.HG_STREAM_COMMIT i) c.modifyVals (fun s => s.hgStreamCommit req i 1)
  match r.2 with
  | some code => s0.commitFailed c 0 (R.HG_STREAM_COMMIT i) code
  | none =>
    let s := r.1
    let g := s.group (R.HG_STREAM_COMMIT i)
    let s := s.setGroup (R.HG_STREAM_COMMIT i) { g with
      pending := g.pending.map (fun l => l.map (fun (p : Nat × Word) => if p.1 = R.HG_STREAM_CTL i then (p.1, setBits p.2 19 16 cls) else p)) }
    let lower := decide (new.1 < old.1) || decide (new.2 < old.2)
    let boundary := match (s.stream i).kOpen with
      | some k => (k + 1) * s.sliceNs i
      | none => s.time
    let b := streamBit i
    let best := (s.classRow cls).bestEffort
    let s := { s with adm := { s.adm with
      charged := tabInsert s.adm.charged i (max old.1 new.1, max old.2 new.2)
      releases := if lower then tabInsert s.adm.releases i (boundary + 1000 * (s.classRow cls).d) else tabErase s.adm.releases i
      admitted := if best then setMinus s.adm.admitted b else if admitting then s.adm.admitted ||| b else s.adm.admitted
      withdrawn := if best || admitting then setMinus s.adm.withdrawn b else s.adm.withdrawn } }
    let s := if best || admitting then s.overSusp cWithdrawn b else s
    (s.settleAdm true).belowFloor.complete c 0 []

def State.streamModify (s : State) (c : Ctx) : State :=
  let i := c.p 16 1
  let st := s.streamState i
  let old := s.chargedAt i
  let new := s.modifyBkt c
  let cls := s.modifyClass c
  let asks := decide (old.1 < new.1) || decide (old.2 < new.2) || cls ≠ s.get (F.HG_STREAM_CTL.CLASS i)
  if st ≠ 1 && st ≠ 2 then s.complete c 0x0303 []
  else if asks && !(s.classRow cls).bestEffort then (s.await c wEval 0).askEval (.modify i c.ring c.seq)
  else s.modifyFinish c false

def execStreamModify (t : Nat) (cmd : CmdRef) (s : State) : Res :=
  .next ((s.at t).command cmd 0x23 anyForm State.streamModify)

/-! ### STREAM_CLOSE -/

/-- Completion of a STREAM_CLOSE: the last slice that the stream closed, all ones for none (R366). -/
def State.closeDone (s : State) (c : Ctx) : State :=
  let x := s.stream (c.p 16 1)
  s.complete c 0 (match x.kLast with
    | some k => leBytes 8 k
    | none => List.replicate 8 0xFF#8)

def State.streamClose (s : State) (c : Ctx) : State :=
  let i := c.p 16 1
  let st := s.streamState i
  if st = 0 then s.complete c 0x0303 []
  else if st = 3 then s.await c wStreamClosed i
  else
    let req := s.aidReq 5
    let v := (setBits (s.reg (R.HG_STREAM_CTL i)) 0 0 0).toNat
    let r := s.tryCommit req (R.HG_STREAM_COMMIT i) [(R.HG_STREAM_CTL i, v)] (fun s => s.hgStreamCommit req i 1)
    match r.2 with
    | some code => s.commitFailed c 0 (R.HG_STREAM_COMMIT i) code
    | none => if r.1.streamState i = 0 then r.1.closeDone c else r.1.await c wStreamClosed i

def execStreamClose (t : Nat) (cmd : CmdRef) (s : State) : Res :=
  .next ((s.at t).command cmd 0x24 anyForm State.streamClose)

/-! ### GROUP_SET -/

/-- Registers of a GROUP_SET with their values (R363). -/
def Ctx.groupVals (c : Ctx) : List (Nat × Nat) := regVals (R.CP_GRP_CTL (c.p 16 1)) c.data 0 10

/-- The state with the values of a GROUP_SET in force: what admission looks at. -/
def State.asGroup (s : State) (c : Ctx) : State :=
  s.applyStaged (c.groupVals.map (fun (p : Nat × Nat) => (p.1, BitVec.ofNat 64 p.2)))

/-- A GROUP_SET alters what admission depends on (R363). -/
def State.groupAlters (s : State) (c : Ctx) : Bool :=
  let g := c.p 16 1
  let n := s.asGroup c
  [F.CP_GRP_CTL.SLICE_US g, F.CP_GRP_CTL.W_US g, F.CP_GRP_CTL.OPEN_US g, F.CP_GRP_CTL.UNIT g, F.CP_GRP_RPT.MAX_RPT g,
    F.CP_GRP_RPT.RING g, F.CP_GRP_RPT.VIEW_RING g].any (fun f => n.get f ≠ s.get f)

/-- The fusion slot of a group is set (R205, R363). -/
def State.setFusion (s : State) (g n : Nat) : State :=
  let same := tabFind s.img.fusionSlot g = some n
  let s := { s with img := { s.img with fusionSlot := tabInsert s.img.fusionSlot g n, fusionOld := tabErase s.img.fusionOld g } }
  if same then s else s.setCpg g { s.cpg g with gridOk := false }

/-- The commit of a GROUP_SET. -/
def State.groupFinish (s : State) (c : Ctx) : State :=
  let g := c.p 16 1
  let req := s.aidReq 5
  let r := s.tryCommit req (R.CP_GRP_COMMIT g) c.groupVals (fun s => s.cpGrpCommit req g 1)
  match r.2 with
  | some code => s.commitFailed c 0 (R.CP_GRP_COMMIT g) code
  | none => (r.1.setFusion g (c.p 17 1)).complete c 0 []

def State.groupSet (s : State) (c : Ctx) : State :=
  let g := c.p 16 1
  let n := c.p 17 1
  if (s.slot n).isNone then s.complete c 0x0303 []
  else if s.flag (F.CP_GRP_CTL.ENABLE g) && tabFind s.img.fusionSlot g ≠ some n then s.complete c 0x0303 []
  else if (s.groupStreams g).any s.isAdmitted && s.groupAlters c then (s.await c wEval 0).askEval (.group g c.ring c.seq)
  else s.groupFinish c

def execGroupSet (t : Nat) (cmd : CmdRef) (s : State) : Res :=
  .next ((s.at t).command cmd 0x21 anyForm State.groupSet)

/-! ### CLASS_SET -/

/-- The row that a CLASS_SET gives. -/
def Ctx.classRow (c : Ctx) : ClassRow := ⟨c.p 20 4, c.p 17 1, c.p 18 1 = 1⟩

/-- The class table takes a row; streams of a class that became BEST_EFFORT run under R240 (R362). -/
def State.setClass (s : State) (n : Nat) (r : ClassRow) : State :=
  let mine := unionAll (((List.range 128).filter (fun i => s.streamState i ≠ 0 && s.get (F.HG_STREAM_CTL.CLASS i) = n)).map streamBit)
  let s := { s with adm := { s.adm with classes := tabInsert s.adm.classes n r } }
  if r.bestEffort then
    { s.overSusp cWithdrawn mine with adm := { s.adm with
      admitted := setMinus s.adm.admitted mine, withdrawn := setMinus s.adm.withdrawn mine } }
  else s

/-- Completion of a CLASS_SET: streams withdrawn, and the floor (R362). -/
def State.classDone (s : State) (c : Ctx) (before : Nat) : State :=
  s.complete c 0 (leBytes 1 (popcount 128 (setMinus s.adm.withdrawn before)) ++ leBytes 1 s.adm.floor)

def State.classSet (s : State) (c : Ctx) : State :=
  let n := c.p 16 1
  let old := s.classRow n
  let new := c.classRow
  if decide (new.d < old.d) || (new.bestEffort && !old.bestEffort) then (s.await c wEval 0).askEval (.classChange n c.ring c.seq)
  else (s.setClass n new).classDone c s.adm.withdrawn

def execClassSet (t : Nat) (cmd : CmdRef) (s : State) : Res :=
  .next ((s.at t).command cmd 0x20 anyForm State.classSet)

/-! ### Evaluation -/

/-- Completion data of a refused admission (R351). -/
def refusedData (r : Nat × Nat) : List Byte := leBytes 1 r.1 ++ zeros 1 ++ leBytes 2 r.2

/-- The command of an evaluation that passed goes on, with the floor in force (R229). -/
def State.evalDone (s : State) (e : Eval) : State :=
  match e with
  | .openStream _ r q => (match s.ctx r q with
    | some c => s.openFinish c true
    | none => s)
  | .modify _ r q => (match s.ctx r q with
    | some c => s.modifyFinish c true
    | none => s)
  | .group _ r q => (match s.ctx r q with
    | some c => (s.groupFinish c).settleAdm true
    | none => s)
  | .load _ r q => (match s.ctx r q with
    | some c => s.loadDone c
    | none => s)
  | _ => s

/-- A candidate passed at floor `p`: the command goes on at once, or waits for the raise of CCLK (R229). -/
def State.passed (s : State) (e : Eval) (c : Ctx) (p : Nat) : State :=
  if p < s.adm.floor && p < s.get F.PWR_DVFS.CURRENT then
    ({ s.await c wFloor p with adm := { s.adm with raising := some (p, e), lowering := none } }).showFloor
  else (if p < s.adm.floor then s.moveFloor p else s).evalDone e

/-- A request is evaluated against a list of loads (R228, R235). -/
def State.evalRequest (s : State) (e : Eval) (r q : Nat) (loads : Ctx → State × List Load) (fail : State → Ctx → State) : State :=
  match s.ctx r q with
  | none => s
  | some c =>
    let h := loads c
    match h.1.tryAdmit h.2 with
    | .inl p => s.passed e c p
    | .inr x => (fail s c).complete c 0x0202 (refusedData x)

/-- One evaluation (R228). -/
def State.evaluate (s : State) (e : Eval) : State :=
  let keep := fun (s : State) (_ : Ctx) => s
  match e with
  | .openStream i r q =>
    s.evalRequest e r q (fun c => (s, s.loads (setMinus s.adm.admitted (streamBit i)) ++ [s.openLoad c])) keep
  | .modify i r q =>
    s.evalRequest e r q (fun c => (s, s.loads (setMinus s.adm.admitted (streamBit i)) ++ [s.modifyLoad c])) keep
  | .group _ r q => s.evalRequest e r q (fun c => (s.asGroup c, (s.asGroup c).loads s.adm.admitted)) keep
  | .load n r q =>
    s.evalRequest e r q (fun c => let h := s.asReplaced (c.p 17 1) n; (h, h.loads s.adm.admitted)) (fun s _ => s.uninstall n)
  | .classChange n r q =>
    (match s.ctx r q with
    | none => s
    | some c => ((s.setClass n c.classRow).recompute).classDone c s.adm.withdrawn)
  | .capacity => s.recompute
  | .delivery => s.recompute
  | .release _ => s.recompute

/-- Aidor takes the oldest waiting event, unless a raise of the floor is in progress (R228, R229). -/
def State.admissionEvaluation (s : State) : State :=
  if s.adm.raising.isSome then s
  else match s.aid.evals with
    | [] => s
    | e :: r => ({ s with aid := { s.aid with evals := r } }).evaluate e

/-- CCLK has reached a floor that is being raised: the request completes (R229). -/
def State.raiseReached (s : State) : State :=
  match s.adm.raising with
  | none => s
  | some (p, e) =>
    if s.get F.PWR_DVFS.CURRENT ≤ p then
      (({ s with adm := { s.adm with raising := none, floor := min p s.adm.floor } }).showFloor).evalDone e
    else s

/-- Throttling starts: a raise in progress is abandoned (R243). -/
def State.abandonRaise (s : State) : State :=
  match s.adm.raising with
  | none => s
  | some (_, e) => ({ s with adm := { s.adm with raising := none, abandoned := some e } }).showFloor

/-- CCLK is at or above the floor again: the abandoned request becomes a new evaluation (R243). -/
def State.resumeRaise (s : State) : State :=
  match s.adm.abandoned with
  | none => s
  | some e => if s.get F.PWR_DVFS.CURRENT ≤ s.adm.floor then
      ({ s with adm := { s.adm with abandoned := none } }).askEval e else s

end Sys2Proof.Machine
end

