-- ==== Sys2Proof/Machine/Power.lean ====
section
/-!
DEFINITION. Operating points and the DVFS sequencer (R440, R441), the power cap (R442, R443, R376), the thermal and power
emergencies (R444, R445), loss of the PLL and of rails in RUN (R439, R445, R522).
-/

namespace Sys2Proof.Machine

/-- VDD_CORE of an operating point, mV (R440). -/
def opMv (p : Nat) : Nat := if p = 0 then 850 else if p = 1 then 740 else if p = 2 then 680 else 620

/-- Package power of an operating point, W (R442). -/
def opWatts (p : Nat) : Nat := if p = 0 then 560 else if p = 1 then 325 else if p = 2 then 237 else 169

/-- Cap point of a cap in W (R442). -/
def capPointOf (w : Nat) : Option Nat := (List.range 4).find? (fun p => opWatts p ≤ w)

def State.setPow (s : State) (p : Pow) : State := { s with pow := p }

/-- Point that the divider selects. -/
def State.point (s : State) : Nat := s.get F.PWR_DVFS.CURRENT

/-- States of the sequencer (R458). -/
def dvIdle : Nat := 0
def dvRaise : Nat := 1
def dvHold : Nat := 2
def dvLower : Nat := 4

/-- The divider switches (R441): the counter, the block average (R443), the suspension below the floor, and what waits for the
point (R229, R243). -/
def State.divide (s : State) (p : Nat) : State :=
  let s := (s.put F.PWR_DVFS.CURRENT p).bump R.PWR_CNT_DVFS
  let s := s.setPow { s.pow with switched := true }
  (s.belowFloor.raiseReached).resumeRaise

/-- A voltage of VDD_CORE is requested (R441). -/
def State.askVoltage (s : State) (mv : Nat) : State := (s.setPow { s.pow with mv := mv }).emit (.avs 0 mv)

/-- A raise starts: the voltage is requested first (R441). -/
def State.raiseTo (s : State) (p : Nat) : State :=
  let s := (s.askVoltage (opMv p)).put F.PWR_DVFS.STATE dvRaise
  s.setPow { s.pow with raiseAt := some s.time, holdAt := none, goal := p }

/-- A lower: the divider switches first, then the lower voltage is requested (R441). -/
def State.lowerTo (s : State) (p : Nat) : State :=
  let s := s.divide p
  let s := (s.askVoltage (opMv p)).put F.PWR_DVFS.STATE dvLower
  s.setPow { s.pow with raiseAt := none, holdAt := none, goal := p, confirmed := min s.pow.confirmed (opMv p) }

/-- A drop of the thermal and emergency rules: to a lower point, whatever raise is in progress. -/
def State.dropTo (s : State) (p : Nat) : State :=
  let s := s.abandonRaise
  if s.point < p then s.lowerTo p
  else if s.pow.raiseAt.isSome then s.lowerTo s.point else s

/-- Rules that hold CCLK down: an emergency or throttling. -/
def State.heldDown (s : State) : Bool := s.get F.PWR_EMERG.POWER ≠ 0 || s.get F.PWR_EMERG.THERMAL ≠ 0 || s.flag F.PWR_EMERG.THROTTLING

/-- The point that the power floor calls for, while one is being raised the new one (R229). -/
def State.floorGoal (s : State) : Nat :=
  match s.adm.raising with
  | some (p, _) => min p s.adm.floor
  | none => s.adm.floor

/-- The power manager's last change is 250 µs old (R224, R441). -/
def State.spaced (s : State) : Bool :=
  match s.pow.changedAt with
  | some t => decide (t + 250000 ≤ s.time)
  | none => true

/-- The power manager makes a change (R224). -/
def State.powChange (s : State) : State := s.setPow { s.pow with changedAt := some s.time }

/-- The sequencer takes a request of the power manager, 250 µs after its last: up to the floor when the point is below it, down to the target when
the point is above that (R441, R443); raises beyond the floor are steps of the cap controller. -/
def State.dvfsRequest (s : State) : State :=
  if s.heldDown || !s.spaced then s
  else if s.floorGoal < s.point then
    (if s.pow.raiseAt.isSome && s.pow.goal ≤ s.floorGoal then s else s.powChange.raiseTo s.floorGoal)
  else if s.point < s.get F.PWR_DVFS.TARGET then s.powChange.lowerTo (s.get F.PWR_DVFS.TARGET)
  else s

def execDvfsRequest (t : Nat) (s : State) : Res := .next (s.at t).dvfsRequest

/-- A voltage read is complete (R441): the first one within 5 mV of the request starts the hold. -/
def State.voltageRead (s : State) (mv : Nat) : State :=
  let near := decide (mv ≤ s.pow.mv + 5 ∧ s.pow.mv ≤ mv + 5)
  if !near then s
  else if s.get F.PWR_DVFS.STATE = dvRaise then (s.put F.PWR_DVFS.STATE dvHold).setPow { s.pow with holdAt := some s.time }
  else if s.get F.PWR_DVFS.STATE = dvLower then s.put F.PWR_DVFS.STATE dvIdle
  else s

def execAvsVoltageRead (t mv : Nat) (s : State) : Res := .next ((s.at t).voltageRead mv)

/-- PGOOD has held for 20 µs after the confirming read (R440, R441): the voltage is confirmed and the divider switches. -/
def State.holdEnd (s : State) : State :=
  match s.pow.holdAt with
  | none => s
  | some h =>
    if s.time < h + 20000 then s
    else
      let s := s.setPow { s.pow with confirmed := s.pow.mv, raiseAt := none, holdAt := none }
      (s.put F.PWR_DVFS.STATE dvIdle).divide s.pow.goal

def execPgoodHold (t : Nat) (s : State) : Res := .next (s.at t).holdEnd

/-- A power emergency is in force, for 10 ms from its last condition (R445). -/
def State.powerEmergency (s : State) : State :=
  let s := (s.put F.PWR_EMERG.POWER 1).setPow { s.pow with warnEnd := some (s.time + 10000000) }
  s.dropTo 3

/-- A raise is not confirmed within 200 µs of its request (R441). -/
def State.raiseTimeout (s : State) : State :=
  match s.pow.raiseAt with
  | none => s
  | some r =>
    let s := s.at (r + 200000)
    let s := (s.askVoltage (opMv s.point)).put F.PWR_DVFS.STATE dvIdle
    (s.setPow { s.pow with raiseAt := none, holdAt := none, goal := s.point }).powerEmergency

def execRaiseTimeout (s : State) : Res := .next s.raiseTimeout

def execPowerEmergency (t : Nat) (s : State) : Res := .next (s.at t).powerEmergency

/-- The power emergency ends after 10 ms without its conditions (R445). -/
def State.powerEmergencyEnd (s : State) : State :=
  match s.pow.warnEnd with
  | none => s
  | some e => if s.time < e then s else (s.put F.PWR_EMERG.POWER 0).setPow { s.pow with warnEnd := none }

def execPowerEmergencyEnd (t : Nat) (s : State) : Res := .next (s.at t).powerEmergencyEnd

/-! ### Power cap -/

/-- POWER_SET (R376): a cap whose point lies below the floor, or that leaves none, needs FORCE. -/
def State.powerSet (s : State) (c : Ctx) : State :=
  let force := (c.p 18 1).testBit 0
  let ok := match capPointOf (c.p 16 2) with
    | some p => decide (p ≤ s.adm.floor)
    | none => false
  if ok || force then s.await c wCap (c.p 16 2) else s.complete c 0x0303 []

def execPowerSet (t : Nat) (cmd : CmdRef) (s : State) : Res := .next ((s.at t).command cmd 0x70 anyForm State.powerSet)

/-- A cap applies (R442, R443): the cap point and the target follow it, and its command completes. -/
def State.applyCap (s : State) (c : Ctx) : State :=
  let s := s.put F.PWR_CAP.CAP_W c.arg
  let p := capPointOf c.arg
  let s := (s.put F.PWR_DVFS.CAP_NONE (bit p.isNone)).put F.PWR_DVFS.CAP_POINT (p.getD 3)
  let s := s.put F.PWR_DVFS.TARGET s.target
  s.complete c 0 (leBytes 1 (p.getD 4) ++ leBytes 1 s.adm.floor)

/-- CAP_AT_FLOOR begins or ends (R243, R417). -/
def State.capAtFloor (s : State) (on : Bool) (mw : Nat) : State :=
  if s.pow.atFloor = on then s
  else (s.setPow { s.pow with atFloor := on }).health (if on then hBegin else hEnd) 0x12 0 mw (s.get F.PWR_CAP.CAP_W) 0 0

/-- The decision at the end of a millisecond on its block average (R443). -/
def State.capStep (s : State) (mw : Nat) : State :=
  let cap := 1000 * s.get F.PWR_CAP.CAP_W
  let p := s.point
  if mw > cap then
    if p < s.adm.floor then (if s.spaced then (s.powChange.bump R.PWR_CNT_CAP).lowerTo (p + 1) else s)
    else s.capAtFloor true mw
  else
    let s := s.capAtFloor false mw
    if s.get F.PWR_DVFS.TARGET < p && s.pow.raiseAt.isNone && !s.heldDown && s.spaced &&
        100 * mw * opWatts (p - 1) < 95 * cap * opWatts p then
      s.powChange.raiseTo (p - 1)
    else s

/-- A power measurement interval elapses (R443): waiting caps apply, and a block without a divider switch decides. -/
def State.capDecision (s : State) (mw : Nat) : State :=
  let s := s.put F.PWR_CAP.PKG_MW (min mw (2 ^ 24 - 1))
  let s := s.each (s.waiters wCap) State.applyCap
  if s.pow.switched then s.setPow { s.pow with switched := false } else s.capStep mw

def execPowerCapDecision (t mw : Nat) (s : State) : Res := .next ((s.at t).capDecision mw)

/-! ### Thermal limits -/

/-- Thresholds of R444 by ordering code: throttle, emergency, trip. -/
def thermalLimits (gradeE : Bool) : Int × Int × Int := if gradeE then (100, 105, 115) else (90, 95, 105)

def State.limits (s : State) : Int × Int × Int := thermalLimits (s.flag F.SEC_FUSE.GRADE_E)

/-- Hottest of the sensors and its number; the first among equals. -/
def hottest : List Int → Nat → Int × Nat
  | [], _ => (-128, 0)
  | x :: xs, i =>
    let r := hottest xs (i + 1)
    if xs.isEmpty || x ≥ r.1 then (x, i) else r

/-- The throttle rule takes over: its next step is due at once (R444). -/
def State.throttle (s : State) : State :=
  if s.flag F.PWR_EMERG.THROTTLING then s
  else ((s.put F.PWR_EMERG.THROTTLING 1).setPow { s.pow with stepAt := some s.time }).abandonRaise

/-- What the thresholds call for (R444). -/
def State.thermalAct (s : State) (hot : Int) : State :=
  let (thr, emg, trip) := s.limits
  let s := s.setPow { s.pow with hot := hot }
  if hot ≥ trip && !s.dead then
    let s := (s.put F.PWR_STOP.LAST_CAUSE 2).setPow { s.pow with cmpStopped := true, therm := true }
    s.fatal pOther 0 2 s.ownStreams 0
  else
    let s := if hot ≥ emg && !s.flag F.PWR_EMERG.THERMAL then
        let s := if s.point < 3 then s.bump R.PWR_CNT_THROTTLE else s
        ((s.put F.PWR_EMERG.THERMAL 1).setPow { s.pow with therm := true, coolAt := none }).dropTo 3
      else s
    let s := if s.flag F.PWR_EMERG.THERMAL then
        s.setPow { s.pow with coolAt := if hot < emg - 5 then some (s.pow.coolAt.getD s.time) else none }
      else s
    if hot ≥ thr then s.throttle else s

/-- A sample of every sensor (R444); 7 °C is added while the trims are missing (R475). -/
def State.thermalSample (s : State) (temps : List Int) : State :=
  let r := hottest temps 0
  let hot := if (s.calItem 0x0020).isNone then r.1 + 7 else r.1
  ((s.put F.PWR_TEMP.SENSOR r.2).put F.PWR_TEMP.MAX_C (fromSigned 8 hot)).thermalAct hot

def execThermalSample (t : Nat) (temps : List Int) (s : State) : Res := .next ((s.at t).thermalSample temps)

/-- The next throttle step (R444): one point lower until the hottest sensor is below THROTTLE − 3 °C, then one point higher
up to the target. -/
def State.throttleStep (s : State) : State :=
  match s.pow.stepAt with
  | none => s
  | some d =>
    let s := s.at d
    let s := s.setPow { s.pow with stepAt := some (d + 250000) }
    if s.get F.PWR_EMERG.POWER ≠ 0 || s.get F.PWR_EMERG.THERMAL ≠ 0 then s
    else if s.pow.hot ≥ s.limits.1 - 3 then
      (if s.point < 3 then (s.bump R.PWR_CNT_THROTTLE).dropTo (s.point + 1) else s)
    else if s.get F.PWR_DVFS.TARGET < s.point then (if s.pow.raiseAt.isSome then s else s.raiseTo (s.point - 1))
    else (s.put F.PWR_EMERG.THROTTLING 0).setPow { s.pow with stepAt := none }

def execThrottleStep (s : State) : Res := .next s.throttleStep

/-- The hottest sensor has been below EMERGENCY − 5 °C for 10 ms (R444). -/
def State.thermalEnd (s : State) : State :=
  match s.pow.coolAt with
  | none => s
  | some c =>
    if s.time < c + 10000000 || !s.flag F.PWR_EMERG.THERMAL then s
    else ((s.put F.PWR_EMERG.THERMAL 0).setPow { s.pow with therm := false, coolAt := none }).throttle

def execThermalEmergencyEnd (t : Nat) (s : State) : Res := .next (s.at t).thermalEnd

/-! ### Losses -/

/-- The device is in RUN, with firmware ready. -/
def State.running (s : State) : Bool := s.aon.phase = .up && s.get F.PWR_STOP.STATE = 0

/-- The PLL loses lock in RUN (R439): FATAL, and every clock but ACLK stands still. -/
def State.pllLost (s : State) : State :=
  if !s.running then s
  else
    let s := ((s.put F.CLK_STAT.ROOT_LOCK 0).put F.PWR_STOP.LAST_CAUSE 1).setPow { s.pow with stopped := true }
    s.fatal pOther 0 1 s.ownStreams 0

def execPllLockLoss (t : Nat) (s : State) : Res := .next (s.at t).pllLost

/-- A PGOOD input falls for more than 2 µs (R445, R522): FATAL for a running rail in RUN; in STOP the DRAM rails take the
retention with them. -/
def State.pgoodLost (s : State) (rail : Nat) : State :=
  let on := (s.get F.PWR_RAIL.EN).testBit rail
  let s := s.put F.PWR_RAIL.PGOOD (setMinus (s.get F.PWR_RAIL.PGOOD) (2 ^ rail))
  if s.running && on then (s.put F.PWR_STOP.LAST_CAUSE 3).fatal pOther rail 3 s.ownStreams 0
  else if s.get F.PWR_STOP.STATE = 2 && (rail = 1 || rail = 2) then s.put F.PWR_RET_STAT.VALID 0
  else s

def execPgoodLoss (t rail : Nat) (s : State) : Res := .next (if rail < 8 then (s.at t).pgoodLost rail else s.at t)

/-- A lost PGOOD input rises again (R522). -/
def execPgoodReturn (t rail : Nat) (s : State) : Res :=
  .next (let s := s.at t
    if rail < 8 then s.put F.PWR_RAIL.PGOOD (s.get F.PWR_RAIL.PGOOD ||| 2 ^ rail) else s)

end Sys2Proof.Machine
end

