-- ==== Sys2Proof/Machine/Rings.lean ====
section
/-!
DEFINITION. Host-produced rings (R300, R307, R325–R328): fetching, injection descriptors (R52, R383), the writing of runs
(R302), the ring commands (R359–R361) and the function level reset (R309).
-/

namespace Sys2Proof.Machine

/-! ### Fetching -/

/-- What is in progress on a ring (R323): commands, and injection descriptors. -/
def State.inProgress (s : State) (r : Nat) : Nat :=
  (s.aid.ctxs.filter (fun c => c.ring = r)).length + (match s.ring r with
    | some x => x.fetched.length
    | none => 0)

/-- Contexts in use (R324). -/
def State.contexts (s : State) : Nat := s.aid.ctxs.length + sumNat (s.hif.rings.map (fun (p : Nat × Ring) => p.2.fetched.length))

/-- A ring's destruction is under way: it is fetched no more (R360). -/
def State.dying (s : State) (r : Nat) : Bool := (s.waiters wDestroy).any (fun c => c.arg = r)

/-- Descriptors of a ring may be fetched now (R300, R307, R309, R312, R419). -/
def State.mayFetch (s : State) (r : Nat) (x : Ring) : Bool :=
  !x.kind.deviceProduced && s.ringOpen x && x.state ≠ .waitEpoch && s.flag F.HIF_STAT.FW_READY &&
    s.get F.PWR_STOP.STATE = 0 && !s.dead && !s.dying r

/-- Weight of a ring class (R311). -/
def State.classWeight (s : State) (cls : Nat) : Nat := (s.reg R.HIF_WRR).toNat / 256 ^ cls % 256

/-- Rings of a core that wait to be fetched: those of a class of weight 0 only when no other class waits (R287, R311). -/
def State.waitingRings (s : State) (core : Nat) : List (Nat × Ring) :=
  let l := s.hif.rings.filter (fun (p : Nat × Ring) => p.2.core = core && s.mayFetch p.1 p.2 && p.2.host ≠ p.2.dev && s.inProgress p.1 < 64)
  let heavy := l.filter (fun p => s.classWeight p.2.cls ≠ 0)
  if heavy.isEmpty then l else heavy

/-- The ring that a core fetches from: the one in turn while its deficit lasts, else the next waiting one in number order, around
to the first (R323; DESIGN CHOICE, log entry 91). -/
def State.ringInTurn (s : State) (core : Nat) : Option Nat :=
  let l := s.waitingRings core
  let cur := tabGet 0 s.aid.turns core
  if l.any (fun p => p.1 = cur && p.2.deficit ≠ 0) then some cur
  else match l.find? (fun p => cur < p.1), l with
    | some p, _ => some p.1
    | none, p :: _ => some p.1
    | none, [] => none

/-- What a ring may still take in its turn: a turn that begins adds the weight of its class, at least 1 (R323). -/
def State.quantum (s : State) (r : Nat) (x : Ring) : Nat :=
  if tabGet 0 s.aid.turns x.core = r && x.deficit ≠ 0 then x.deficit else x.deficit + max 1 (s.classWeight x.cls)

/-- How many descriptors one chunk takes (R300, R323, R324). -/
def State.fetchCount (s : State) (r : Nat) (x : Ring) (n : Nat) : Nat :=
  min (min (min n 16) (s.quantum r x)) (min (idxSub x.host x.dev) (min (64 - s.inProgress r) (4096 - s.contexts)))

/-- CRC of a command in progress that has a journal entry in state STARTED (R326). -/
def State.startedCrc (s : State) (r seq : Nat) : Option Nat :=
  match s.ctx r seq with
  | some c => some (descCrc c.desc)
  | none => match s.ring r with
    | some x => (x.injection seq).map (fun d => descCrc d.desc)
    | none => none

/-- A fetched descriptor (R325, R327): a new one is in progress, and its context passes to the core of its component (R324); a repeat is answered, or waits for its original; any other
is stale.  `h` is the fetch index after it was read. -/
def State.takeDescriptor (s : State) (r h : Nat) (inject : Bool) (d : List Byte) : State :=
  let seq := fieldAt d 8 4
  let tag := fieldAt d 2 2
  let noIrq := !inject && (fieldAt d 1 1).testBit 2
  let dist := idxSub seq (tabGet 0 s.aid.smax r)
  let again : Repeat := ⟨r, seq, tag, noIrq, h⟩
  if 1 ≤ dist && dist < 2 ^ 31 then
    let s := { s with aid := { s.aid with smax := tabInsert s.aid.smax r seq } }
    if inject then
      (match s.ring r with
      | some x => s.setRing r { x with fetched := x.fetched ++ [(⟨d, h, 0, 0⟩ : InjDesc)] }
      | none => s)
    else ({ s with aid := { s.aid with ctxs := s.aid.ctxs ++ [(⟨r, seq, d, h, 0, 0, 0, [], []⟩ : Ctx)] } }).pass r seq
      (s.ringCore r) (s.workCore (fieldAt d 0 1) r)
  else match s.aid.done.find? (fun e => e.ring = r && e.seq = seq), s.startedCrc r seq with
    | some e, _ =>
      s.postCompletion r noIrq (if e.crc = descCrc d then repeatEntry again e.entry else completionEntry 0x0302 tag seq r h [])
    | none, some crc =>
      if crc = descCrc d then { s with aid := { s.aid with repeats := s.aid.repeats ++ [again] } }
      else s.postCompletion r noIrq (completionEntry 0x0302 tag seq r h [])
    | none, none => s.postCompletion r noIrq (completionEntry 0x0301 tag seq r h [])

/-- Journal entries of a ring that lie outside the range of R328 are released once its completions are consumed. -/
def State.releaseDone (s : State) (r : Nat) (x : Ring) : State :=
  let keep := max x.size 256
  let top := tabGet 0 s.aid.smax r
  let out := match s.ring x.complete with
    | some y => y.wait.isEmpty && y.visible.isEmpty
    | none => true
  if out then
    { s with aid := { s.aid with done := s.aid.done.filter (fun e => e.ring ≠ r || decide (idxSub top e.seq < keep)) } }
  else s

/-- Descriptors of a ring read from H upwards in the ring's turn (R300, R323), or a translation fault of the read (R284). -/
def State.fetch (s : State) (r : Nat) (descs : List (List Byte)) (xlate : Bool) : State :=
  match s.ring r with
  | none => s
  | some x =>
    if !s.mayFetch r x || s.ringInTurn x.core ≠ some r then s
    else if xlate then (s.setRing r { x with state := .halted }).xlateFault r
    else
      let n := s.fetchCount r x descs.length
      let ds := (List.range n).zip descs
      let dev := (x.dev + n) % 2 ^ 32
      let left := if dev = x.host then 0 else s.quantum r x - n
      let s := { s with aid := { s.aid with turns := tabInsert s.aid.turns x.core r } }
      let s := s.setRing r { x with dev := dev, deficit := left }
      let s := s.each ds (fun s p => s.takeDescriptor r ((x.dev + p.1 + 1) % 2 ^ 32) (x.kind = .inject) p.2)
      s.releaseDone r x

def execDescriptorFetch (t ring : Nat) (descs : List (List Byte)) (xlate : Bool) (s : State) : Res :=
  .next ((s.at t).fetch ring descs xlate)

/-! ### Injection descriptors -/

/-- An injection descriptor is done: it leaves the ring, DONE goes to the completion journal, and its repeats complete. -/
def State.injectionDone (s : State) (r : Nat) (d : InjDesc) (entry : List Byte) : State :=
  let cs := fieldAt d.desc 8 4
  let mine := s.aid.repeats.filter (fun (q : Repeat) => q.ring = r && q.seq = cs)
  let s := match s.ring r with
    | some x => s.setRing r { x with fetched := x.fetched.filter (fun e => fieldAt e.desc 8 4 ≠ cs) }
    | none => s
  let s := { s with aid := { s.aid with
    repeats := s.aid.repeats.filter (fun (q : Repeat) => !(q.ring = r && q.seq = cs))
    done := s.aid.done ++ [(⟨r, cs, descCrc d.desc, 1, entry⟩ : Done)] } }
  s.each mine (fun s q => s.postCompletion q.ring q.noIrq (repeatEntry q entry))

/-- An injection descriptor completes (R383). -/
def State.endInjection (s : State) (r : Nat) (d : InjDesc) (status : Nat) (data : List Byte) : State :=
  let entry := completionEntry status (fieldAt d.desc 2 2) (fieldAt d.desc 8 4) r d.hAfter data
  (s.postCompletion r false entry).injectionDone r d entry

/-- First offending field of an injection descriptor or of the header of its batch, the latter with bit 15 set (R383). -/
def injectionField (d : InjDesc) (buffer : List Byte) : Option Nat :=
  let n := fieldAt buffer 6 2
  let p := buffer.take 32
  if fieldAt d.desc 0 1 ≠ 1 then some 0
  else if fieldAt d.desc 1 1 ≠ 0 then some 1
  else if fieldAt d.desc 12 4 ≠ 32 + 4 * n then some 12
  else if fieldAt d.desc 24 40 ≠ 0 then some 24
  else if fieldAt p 0 2 ≠ 0xE7C5 then some 0x8000
  else if fieldAt p 2 1 ≠ 1 then some 0x8002
  else if fieldAt p 3 1 ≥ 128 then some 0x8003
  else if n > 2240 then some 0x8006
  else if fieldAt p 28 4 ≠ crc32c ((p ++ zeros 32).take 28) then some 0x801C
  else none

/-- The stage of a fetched descriptor. -/
def State.setStage (s : State) (r : Nat) (d : InjDesc) (stage dup : Nat) : State :=
  match s.ring r with
  | some x => s.setRing r { x with fetched := x.fetched.map (fun e =>
      if fieldAt e.desc 8 4 = fieldAt d.desc 8 4 then { e with stage := stage, dup := dup } else e) }
  | none => s

/-- A refused batch (R52, R383): the NAK reason in byte 16, the retry-after in bytes 20–23. -/
def State.refuseInjection (s : State) (r i : Nat) (d : InjDesc) (reason retry : Nat) : State :=
  (s.bump (R.HG_STREAM_CNT_NAK i)).endInjection r d 0x0205 (leBytes 1 reason ++ zeros 3 ++ leBytes 4 retry)

/-- Checks 3 to 9 of R44 for an injected batch of stream i (R52). -/
def State.takeInjected (s : State) (r i : Nat) (d : InjDesc) (b : Batch) : State :=
  if s.streamState i = 3 then s.refuseInjection r i d 3 0xFFFFFFFF
  else if !b.payloadOk then s.refuseInjection r i d 4 0
  else match (s.stream i).classify b.seq with
    | .duplicate =>
      if (s.entriesOf i).any (fun e => e.seq = b.seq && e.phase ≠ .accepted) then s.setStage r d 2 b.seq
      else (s.bump (R.HG_STREAM_CNT_DUP i)).endInjection r d 0 []
    | .next =>
      let a := s.admitNext i b
      (match a.2 with
      | some (reason, retry) => a.1.refuseInjection r i d reason retry
      | none => a.1.setStage r d 1 0)
    | .ahead => s.refuseInjection r i d 6 0
    | .beyond => s.refuseInjection r i d 6 0
    | .before => s.refuseInjection r i d 6 0

/-- Checks of R350 that apply to an injection descriptor (R383): the status of the first that fails. -/
def State.checkInjection (s : State) (x : Ring) (d : InjDesc) : Option Nat :=
  match s.session x.fn (fieldAt d.desc 4 4) with
  | none => some 0x0400
  | some ses => if x.session ≠ ses.id then some 0x0405 else if !ses.feats.testBit 12 then some 0x0300 else none

/-- The device reads the buffer of the oldest fetched injection descriptor that has not started (R52, R292, R383). -/
def State.readInjection (s : State) (r : Nat) (buffer : List Byte) : State :=
  match s.ring r with
  | none => s
  | some x => match x.fetched.find? (fun d => d.stage = 0) with
    | none => s
    | some d =>
      if s.mute then s
      else match s.checkInjection x d with
        | some st => s.endInjection r d st []
        | none => match injectionField d buffer with
          | some o => s.endInjection r d 0x0101 (leBytes 2 o)
          | none =>
            let p := (buffer ++ zeros (fieldAt d.desc 12 4)).take (fieldAt d.desc 12 4)
            (match x.stream, parseBatch p 0 0 0 s.time (some (r, fieldAt d.desc 8 4)) with
            | some i, some b => if s.streamState i = 0 then s.endInjection r d 0x0303 [] else s.takeInjected r i d b
            | _, _ => s.endInjection r d 0x0303 [])

def execInjectionDescriptor (t ring : Nat) (buffer : List Byte) (s : State) : Res := .next ((s.at t).readInjection ring buffer)

/-! ### Writing runs -/

/-- The completion of an injected batch was transmitted (R52): the descriptor is consumed and the batch accepted; waiting
duplicates of it complete, and the next entry that is ready follows. -/
def State.injectionWritten (s : State) (i seq : Nat) (entry : List Byte) : State :=
  let r := fieldAt entry 8 2
  let s := match s.ring r with
    | some x => (match x.injection (fieldAt entry 4 4) with
      | some d => s.injectionDone r d entry
      | none => s)
    | none => s
  let s := match (s.entriesOf i).find? (fun e => e.seq = seq && e.phase = .completing) with
    | some e => s.accept i e
    | none => s
  let twins := match s.ring r with
    | some x => x.fetched.filter (fun d => d.stage = 2 && d.dup = seq)
    | none => []
  (s.each twins (fun s d => s.endInjection r d 0 [])).ackAll i false

/-- What the visibility of a run brings about (R52). -/
def State.afterShown (s : State) (run : Run) : State :=
  match run.kind with
  | .injection i seq => s.injectionWritten i seq (run.entries.headD [])
  | _ => s

/-- The next run of a ring is written (R302), with what its visibility brings about. -/
def State.runWritten (s : State) (r : Nat) (xlate : Bool) : State :=
  match s.ring r with
  | none => s
  | some x =>
    let s' := s.runWrite r xlate
    match s.nextRun x, s'.ring r with
    | some (run, _), some y => if y.dev ≠ x.dev then s'.afterShown run else s'
    | _, _ => s'

def execRunWrite (t ring : Nat) (xlate : Bool) (s : State) : Res := .next ((s.at t).runWritten ring xlate)

/-! ### Readback -/

/-- One past the entries whose writes may have been issued before a reset or a loss of the link: the pending run's too. -/
def Ring.maybeIssued (x : Ring) : Nat :=
  match x.pending with
  | some p => (p.start + p.len) % 2 ^ 32
  | none => x.dev

/-- The first entry of a pending run as the device reads it back (R307): the run is visible when C has passed its start, or
when the entry's phase bit is valid and its type and bytes 8–15 match. -/
def Ring.foundVisible (x : Ring) (p : PendingRun) (entry : List Byte) : Bool :=
  (decide (idxSub x.host p.start < 2 ^ 31) && x.host ≠ p.start) ||
    (fieldAt entry (x.kind.entryBytes - 1) 1 % 2 = (p.start / x.size + 1) % 2 && fieldAt entry 0 1 = p.type &&
      fieldAt entry 8 8 = p.key)

/-- What the device finds in host memory for a ring after a warm start, at a takeover, or when the link returns (R307, R308):
the consumer record, and the first entry of a pending run.  A run found visible is not written again; any other is written
whole by the RUN_WRITE that follows. -/
def State.readBack (s : State) (h : HostRead) : State :=
  match s.ring h.ring with
  | none => s
  | some x =>
    if !x.kind.deviceProduced then s
    else
      let s := s.recordAt Ring.maybeIssued h.ring h.record
      match s.ring h.ring with
      | none => s
      | some y => match y.pending, s.nextRun y with
        | some p, some (run, rest) =>
          if y.foundVisible p h.entry then ((s.runShown h.ring y run rest).afterShown run).takeConsumer h.ring y.host
          else s.put F.HIF_ERR.READBACK 1
        | _, _ => s

def execLinkUp (t speed width : Nat) (cxl : Bool) (host : List HostRead) (s : State) : Res :=
  .next (let s := s.at t
    let before := s.hostDeliver
    let s := s.put F.HIF_STAT.LINK_UP 1
    let s := { s with hif := { s.hif with cxl := cxl } }
    let s := s.put F.HIF_STAT.WATCH_MODE (bit (cxl && !s.flag F.HIF_CTL.FORCE_POLL))
    let s := s.linkTrained speed width before
    s.each host State.readBack)

/-! ### RING_CREATE -/

/-- Ring numbers of a function's blocks (R285). -/
def State.ringNumbers (s : State) (f : Nat) : List Nat :=
  if f < 64 then (List.range (8 * s.get (F.HIF_FN_CFG.BLOCKS f))).map (fun i => s.adminRing f + i) else []

/-- True for the two numbers that are kept for admin rings. -/
def State.isAdminNumber (s : State) (f r : Nat) : Bool := r = s.adminRing f || r = s.adminRing f + 1

/-- The ring that a RING_CREATE asks for: the number given, or the lowest free one (R359). -/
def State.ringAsked (s : State) (c : Ctx) : Option Nat :=
  let f := s.fnOf c.ring
  if c.p 16 2 = 0xFFFF then (s.ringNumbers f).find? (fun r => (s.ring r).isNone && !s.isAdminNumber f r) else some (c.p 16 2)

/-- A base address keeps R287 and R284. -/
def baseOk (kind : RingKind) (logN base : Nat) : Bool := base % ringAlign kind (2 ^ logN) = 0 && hostAddrOk base (2 ^ logN * kind.entryBytes)

/-- LOG rings on the device (R344). -/
def State.logRings (s : State) : Nat := (s.hif.rings.filter (fun p => p.2.kind = .log)).length

/-- The bound COMPLETE ring of a RING_CREATE is present in the function. -/
def State.boundOk (s : State) (c : Ctx) : Bool :=
  match s.ring (c.p 22 2) with
  | some y => y.kind = .complete && y.fn = s.fnOf c.ring
  | none => false

/-- The ring that a RING_CREATE describes. -/
def State.newRing (s : State) (c : Ctx) (kind : RingKind) (e : Nat) : Ring :=
  { Ring.blank with
    kind := kind, cls := c.p 19 1, logN := c.p 20 1, base := c.p 24 8, fn := s.fnOf c.ring
    pasid := if c.p 21 1 = 1 then some (c.p 32 4) else none
    session := c.session
    complete := if kind.deviceProduced then 0 else c.p 22 2
    vec := c.p 36 2, nc := c.p 38 2, nt := c.p 40 2, epoch := e, core := s.coreFor }

/-- RING_CREATE (R359). -/
def State.ringCreate (s : State) (c : Ctx) : State :=
  let f := s.fnOf c.ring
  let kind := (kindOf (c.p 18 1)).getD .submit
  let named := c.p 16 2 ≠ 0xFFFF
  if named && !(s.ringNumbers f).contains (c.p 16 2) then s.complete c 0x0101 (leBytes 2 16)
  else if !baseOk kind (c.p 20 1) (c.p 24 8) then s.complete c 0x0103 []
  else if named && ((s.ring (c.p 16 2)).isSome || s.isAdminNumber f (c.p 16 2)) then s.complete c 0x0303 []
  else if !kind.deviceProduced && !s.boundOk c then s.complete c 0x0308 []
  else if kind = RingKind.log && s.logRings ≥ 8 then s.complete c 0x0200 []
  else match s.ringAsked c with
    | none => s.complete c 0x0200 []
    | some r =>
      let s := s.advanceEpoch r
      let e := s.epochOf r
      let s := (s.setRing r (s.newRing c kind e)).showHosted
      let s := { s with aid := { s.aid with
        smax := tabErase s.aid.smax r
        done := s.aid.done.filter (fun d => d.ring ≠ r)
        log := { s.aid.log with
          filters := if kind = RingKind.log then tabInsert s.aid.log.filters r (c.p 42 2, c.p 44 1) else tabErase s.aid.log.filters r
          drops := tabErase s.aid.log.drops r } } }
      s.complete c 0 (leBytes 2 r ++ leBytes 2 e)

def execRingCreate (t : Nat) (cmd : CmdRef) (s : State) : Res := .next ((s.at t).command cmd 0x10 anyForm State.ringCreate)

/-! ### RING_DESTROY -/

/-- A ring is named where R360 forbids its destruction. -/
def State.ringNamed (s : State) (r : Nat) (x : Ring) : Bool :=
  (x.kind = .complete && s.hif.rings.any (fun p => !p.2.kind.deviceProduced && p.2.complete = r)) ||
  (List.range 32).any (fun g => s.flag (F.CP_GRP_CTL.ENABLE g) && (s.get (F.CP_GRP_RPT.RING g) = r ||
    (s.get (F.CP_GRP_RPT.VIEW_RING g) = r && (s.cpMembers g).any (fun i => s.flag (F.CP_MBR_CTL.VIEW_RPT i))))) ||
  (List.range 256).any (fun p => s.flag (F.FW_POP_CTL.ENABLE p) && s.flag (F.FW_POP_CTL.HOST p) && s.get (F.FW_POP_DEST.RING p) = r) ||
  (s.flag F.FRF_CTL.RPT_EN && s.get F.FRF_RPT_CTL.RING = r) || s.get F.HIF_EVT.RING = r

/-- Nothing is left that the destruction of a ring waits for (R360). -/
def State.ringIdle (s : State) (c : Ctx) (r : Nat) : Bool :=
  match s.ring r with
  | none => true
  | some x =>
    if x.kind.deviceProduced then x.wait.isEmpty && x.pending.isNone
    else x.fetched.isEmpty && !s.aid.ctxs.any (fun d => d.ring = r && !(d.ring = c.ring && d.seq = c.seq))

/-- A ring ceases to exist, with the command's completion handed over first (R360). -/
def State.ringGone (s : State) (c : Ctx) (r : Nat) : State :=
  let s := s.complete c 0 []
  ({ s with
      hif := { s.hif with rings := tabErase s.hif.rings r }
      aid := { s.aid with log := { s.aid.log with filters := tabErase s.aid.log.filters r } } }).showHosted

def State.ringDestroy (s : State) (c : Ctx) : State :=
  let r := c.p 16 2
  match s.ring r with
  | none => s.complete c 0x0308 []
  | some x =>
    if x.fn ≠ s.fnOf c.ring then s.complete c 0x0308 []
    else if s.isAdminNumber x.fn r || s.ringNamed r x || s.dying r then s.complete c 0x0303 []
    else if s.ringIdle c r then s.ringGone c r
    else s.await c wDestroy r

def execRingDestroy (t : Nat) (cmd : CmdRef) (s : State) : Res := .next ((s.at t).command cmd 0x11 anyForm State.ringDestroy)

/-! ### RING_ATTACH -/

/-- RING_ATTACH (R309, R361). -/
def State.ringAttach (s : State) (c : Ctx) : State :=
  let r := c.p 16 2
  match s.ring r with
  | none => s.complete c 0x0308 []
  | some x =>
    if !baseOk x.kind x.logN (c.p 24 8) then s.complete c 0x0103 []
    else if x.fn ≠ s.fnOf c.ring then s.complete c 0x0308 []
    else if x.state ≠ .detached then s.complete c 0x0303 []
    else
      let s := s.advanceEpoch r
      let s := s.setRing r { x with
        base := c.p 24 8, epoch := s.epochOf r, restart := false
        session := if s.isAdminNumber x.fn r then 0 else c.session
        state := if x.kind.deviceProduced then .active else .waitEpoch }
      s.complete c 0 (zeros 2 ++ leBytes 2 (s.epochOf r))

def execRingAttach (t : Nat) (cmd : CmdRef) (s : State) : Res := .next ((s.at t).command cmd 0x12 anyForm State.ringAttach)

/-! ### Function level reset -/

/-- SEC_SESS.OPEN shows the ring and window sessions (R495). -/
def State.showSessions (s : State) : State := s.put F.SEC_SESS.OPEN (s.sec.sessions.filter (fun x => x.fn < 64)).length

/-- The sessions that satisfy a condition close. -/
def State.closeSessions (s : State) (p : Session → Bool) : State :=
  ({ s with sec := { s.sec with sessions := s.sec.sessions.filter (fun x => !p x) } }).showSessions

/-- The rings of a function stop (R309): what is visible counts as consumed, and every ring is DETACHED. -/
def State.stopRings (s : State) (f : Nat) : State :=
  s.each (s.hif.rings.filter (fun p => p.2.fn = f)) (fun s p =>
    let s := if p.2.pending.isSome || !p.2.wait.isEmpty then s.put F.HIF_ERR.FLR_ABORT 1 else s
    let s := if p.2.kind.deviceProduced then s.takeConsumer p.1 p.2.dev else s
    match s.ring p.1 with
    | some x => s.setRing p.1 { x with state := .detached, pending := none, restart := false }
    | none => s)

/-- An FLR of a function (R309, R358); that of PF0 also stops the rings of every VF and resets the host as a requester
(R316).  MSI-X vectors come back masked. -/
def State.flr (s : State) (f : Nat) : State :=
  let fs := if f = 0 then List.range 64 else [f]
  let s := s.each fs State.stopRings
  let s := s.closeSessions (fun x => fs.contains x.fn)
  let s := { s with hif := { s.hif with
    unmasked := s.hif.unmasked.filter (fun (x : Nat × Nat) => !fs.contains x.1)
    msiPending := s.hif.msiPending.filter (fun (x : Nat × Nat) => !fs.contains x.1) } }
  if f = 0 then s.endReset hostReq else s

def execFlr (t fn : Nat) (s : State) : Res := .next (if fn < 64 then (s.at t).flr fn else s.at t)

end Sys2Proof.Machine
end

