-- ==== Sys2Proof/Machine/Sessions.lean ====
section
/-!
DEFINITION. Sessions and keys (R357, R358, R485–R488): challenge, open, close, key provisioning.
-/

namespace Sys2Proof.Machine

/-! ### Free values -/

/-- `n` free bytes of a kind; the counter moves past them (DESIGN CHOICE, log entry 3). -/
def State.freeBytes (s : State) (k : FreeKind) (n : Nat) : List Byte :=
  (List.range n).map (fun j => BitVec.ofNat 8 (Config.free k (s.fresh + j)))

/-- The counter of free values moved on by `n`. -/
def State.tickBy (s : State) (n : Nat) : State := { s with fresh := s.fresh + n }

/-- The first 32-bit number from `b` upwards that is not 0 and not in use. -/
def unusedId (b : Nat) (used : List Nat) : Nat :=
  ((List.range (used.length + 2)).map (fun j => (b + j) % 2 ^ 32)).find? (fun x => x ≠ 0 && !used.contains x) |>.getD 1

/-! ### SESSION_CHALLENGE -/

/-- The newest 15 challenges of a function, and those of the others (R357). -/
def trimChallenges (fn : Nat) (l : List Challenge) : List Challenge :=
  let mine := l.filter (fun c => c.fn = fn)
  if mine.length ≥ 16 then l.filter (fun c => c.fn ≠ fn || some c ≠ mine.head?) else l

/-- SESSION_CHALLENGE (R357): a fresh nonce and its identifier. -/
def State.sessionChallenge (s : State) (c : Ctx) : State :=
  let fn := s.fnOf c.ring
  let nonce := s.freeBytes .nonce 16
  let s := s.tickBy 16
  let id := unusedId (s.freeVal .challengeId) ((s.sec.challenges.filter (fun x => x.fn = fn)).map (fun x => x.id))
  let s := s.tickFree
  let s := { s with sec := { s.sec with
    challenges := trimChallenges fn s.sec.challenges ++ [(⟨fn, id, nonce, s.time⟩ : Challenge)] } }
  s.completeOut c nonce (leBytes 4 id)

def execSessionChallenge (t : Nat) (cmd : CmdRef) (s : State) : Res :=
  .next ((s.at t).command cmd 0x01 anyForm State.sessionChallenge)

/-! ### SESSION_OPEN -/

/-- Feature families that silicon revision B0 offers (R355). -/
def deviceFeatures : Nat := 0x7FFF

/-- Key of a role: that of the key store, or for MANUFACTURING the factory's (R477). -/
def State.roleKey (s : State) (role : Nat) : Option (List Byte) :=
  match tabFind s.sec.keys role with
  | some k => some k
  | none => if role = 3 then some s.sec.fuses.mfgKey else none

/-- Channel mask of a role's key (R478). -/
def State.roleMask (s : State) (role : Nat) : Nat :=
  match tabFind s.sec.keys role with
  | some _ => tabGet 0 s.sec.masks role
  | none => Config.free .factoryMask 0

/-- Channel code of a function or of the management bus (R488). -/
def channelCode (fn : Nat) : Nat := if fn = 64 then 0x40 else fn

/-- Bit of a channel in the masks (R485). -/
def channelBit (code : Nat) : Nat := if code = 0 then 0 else if code = 0x40 then 2 else if code = 0x41 then 3 else 1

/-- A failed proof on a function (R357, R488): eight within 1 s close the function to opens for 1 s. -/
def State.proofFailed (s : State) (fn : Nat) : State :=
  let s := (s.put F.SEC_ERR.PROOF_BAD 1).bump R.SEC_CNT_PROOF_FAIL
  let fails := (fn, s.time) :: s.sec.fails.filter (fun (x : Nat × Nat) => decide (s.time < x.2 + 1000000000))
  let n := (fails.filter (fun (x : Nat × Nat) => x.1 = fn)).length
  { s with sec := { s.sec with
    fails := if n ≥ 8 then fails.filter (fun (x : Nat × Nat) => x.1 ≠ fn) else fails
    lockout := if n ≥ 8 then tabInsert s.sec.lockout fn (s.time + 1000000000) else s.sec.lockout } }

/-- The challenge that a SESSION_OPEN names, if it is valid (R357). -/
def State.challenge (s : State) (fn id : Nat) : Option Challenge :=
  s.sec.challenges.find? (fun x => x.fn = fn && x.id = id && decide (s.time ≤ x.at' + 1000000000))

/-- The proof of R487 for a key, a device nonce and the command's data. -/
def sessionProof (key nd nh : List Byte) (role code : Nat) : List Byte :=
  hmac256 key (nd ++ nh ++ leBytes 1 role ++ leBytes 1 code)

/-- The session key of R487. -/
def sessionKey (key nd nh : List Byte) (id : Nat) : List Byte := hmac256 key (ascii "FLOLOS-SESS" ++ nd ++ nh ++ leBytes 4 id)

/-- Ring and window sessions that are open (R357). -/
def State.openSessions (s : State) : Nat := (s.sec.sessions.filter (fun x => x.fn < 64)).length

/-- SESSION_OPEN (R357, R487). -/
def State.sessionOpen (s : State) (c : Ctx) : State :=
  let fn := s.fnOf c.ring
  let role := c.p 20 1
  let code := channelCode fn
  let chal := s.challenge fn (c.p 16 4)
  let s := { s with sec := { s.sec with challenges := s.sec.challenges.filter (fun x => !(x.fn = fn && x.id = c.p 16 4)) } }
  if s.time < tabGet 0 s.sec.lockout fn then s.complete c 0x0406 []
  else
    let nh := c.data.take 16
    match chal, s.roleKey role with
    | some x, some key =>
      if s.sec.zeroised || !(s.roleMask role).testBit (channelBit code) ||
          sliceAt c.data 16 32 ≠ sessionProof key x.nonce nh role code then (s.proofFailed fn).complete c 0x0402 []
      else if fn < 64 && s.openSessions ≥ 256 then s.complete c 0x0201 []
      else
        let id := unusedId (s.freeVal .sessionId) (s.sec.sessions.map (fun y => y.id))
        let s := s.tickFree
        let feats := (deviceFeatures &&& c.p 24 16) ||| 1
        let s := ({ s with sec := { s.sec with
          sessions := s.sec.sessions ++ [(⟨id, fn, role, feats, sessionKey key x.nonce nh id, [], s.time, false⟩ : Session)]
          } }).showSessions
        (s.bump R.SEC_CNT_SESSION_OPEN).completeOut c (leBytes 16 feats ++ leBytes 16 deviceFeatures) (leBytes 4 id ++ leBytes 1 role)
    | _, _ => (s.proofFailed fn).complete c 0x0402 []

def execSessionOpen (t : Nat) (cmd : CmdRef) (s : State) : Res :=
  .next ((s.at t).command cmd 0x02 anyForm State.sessionOpen)

/-- The sessions changed one by one. -/
def State.mapSessions (s : State) (f : Session → Session) : State :=
  { s with sec := { s.sec with sessions := s.sec.sessions.map f } }

/-! ### SESSION_CLOSE -/

/-- The session that a SESSION_CLOSE closes has no other command under way (R358). -/
def State.sessionQuiet (s : State) (c : Ctx) (id : Nat) : Bool :=
  !s.aid.ctxs.any (fun x => x.session = id && x.steps ≠ 0 && !(x.ring = c.ring && x.seq = c.seq))

/-- The session is closed and the command completes. -/
def State.closeFinish (s : State) (c : Ctx) (id : Nat) : State :=
  let fn := s.fnOf c.ring
  (s.closeSessions (fun x => x.id = id && x.fn = fn)).complete c 0 []

/-- SESSION_CLOSE (R358). -/
def State.sessionClose (s : State) (c : Ctx) : State :=
  let fn := s.fnOf c.ring
  let id := c.p 16 4
  let owner := match s.session fn c.session with
    | some x => decide (2 ≤ x.role)
    | none => false
  match s.session fn id with
  | none => s.complete c 0x0400 []
  | some _ =>
    if id ≠ c.session && !owner then s.complete c 0x0401 []
    else if s.hif.rings.any (fun p => p.2.session = id && p.2.fn = fn) then s.complete c 0x0303 []
    else
      let s := s.mapSessions (fun x => if x.id = id && x.fn = fn then { x with closing := true } else x)
      if s.sessionQuiet c id then s.closeFinish c id else s.await c wClose id

def execSessionClose (t : Nat) (cmd : CmdRef) (s : State) : Res :=
  .next ((s.at t).command cmd 0x03 anyForm State.sessionClose)

/-! ### KEY_PROVISION -/

/-- The session that issued a command. -/
def State.issuer (s : State) (c : Ctx) : Option Session := s.session (s.fnOf c.ring) c.session

/-- SEC_KEYS shows what is provisioned (R495); FACTORY_MFG_KEY serves while the store holds no MANUFACTURING key and does
not count. -/
def State.showKeys (s : State) : State :=
  (s.put F.SEC_KEYS.ROLE_SET (unionAll (s.sec.keys.map (fun (p : Nat × List Byte) => 2 ^ p.1)))).put F.SEC_KEYS.CAK_SET
    (unionAll (s.sec.caks.map (fun (p : Nat × List Byte × List Byte) => 2 ^ p.1)))

/-- The key that a package carries (R485). -/
def packageKey (ks d : List Byte) : List Byte :=
  (xorBytes (sliceAt d 16 32) (hmac256 ks (ascii "FLOLOS-WRAP" ++ sliceAt d 8 8))).take (fieldAt d 6 1)

/-- Both copies of the key store have been written (R485). -/
def State.twoCopies (s : State) : State :=
  { s with sec := { s.sec with older := ⟨s.sec.keys, s.sec.masks, s.sec.caks⟩ } }

/-- KEY_PROVISION (R380, R485). -/
def State.keyProvision (s : State) (c : Ctx) : State :=
  let d := c.data
  let kind := c.p 16 1
  match s.issuer c with
  | none => s.complete c 0x0400 []
  | some x =>
    let nonce := sliceAt d 8 8
    if x.nonces.contains nonce || sliceAt d 80 32 ≠ hmac256 x.key (d.take 80) then s.complete c 0x0402 []
    else
      let s := s.mapSessions (fun y => if y.id = x.id then { y with nonces := nonce :: y.nonces } else y)
      let key := packageKey x.key d
      if kind = 4 then
        let s := { s with sec := { s.sec with caks := tabInsert s.sec.caks (c.p 17 1) (key, sliceAt d 48 (fieldAt d 7 1)) } }
        s.twoCopies.showKeys.complete c 0 []
      else
        let s := { s with sec := { s.sec with
          keys := tabInsert s.sec.keys kind key, masks := tabInsert s.sec.masks kind (fieldAt d 5 1) } }
        (s.twoCopies.showKeys.closeSessions (fun y => y.role = kind && y.id ≠ x.id)).complete c 0 []

def execKeyProvision (t : Nat) (cmd : CmdRef) (s : State) : Res :=
  .next ((s.at t).command cmd 0x91 anyForm State.keyProvision)

end Sys2Proof.Machine
end

