-- ==== Sys2Proof/Machine/Firmware.lean ====
section
/-!
DEFINITION. The control complex at work (R318–R332, R340–R347): log records, command steps, compartments, control cores, the
management window, patch staging and the handover of components.
-/

namespace Sys2Proof.Machine

/-- Firmware is ready (R464, step 15). -/
def State.fwReady (s : State) : Bool := s.flag F.HIF_STAT.FW_READY

/-- A power or thermal emergency is in force (R444, R445). -/
def State.emergency (s : State) : Bool := s.flag F.PWR_EMERG.POWER || s.flag F.PWR_EMERG.THERMAL

/-! ### Log records -/

/-- A log record (R343): component, level with LOST, code, sequence, time, arguments, core, records dropped before it. -/
def logRecord (comp level code seq time a0 a1 a2 core dropped : Nat) : List Byte :=
  fieldsBytes [(1, comp), (1, level + (if dropped = 0 then 0 else 8)), (2, code), (4, seq), (8, time), (4, a0), (4, a1), (4, a2),
    (1, core), (1, min dropped 255), (1, 0), (1, 0)]

/-- True when a record of a component is produced (R344, R345). -/
def Mw.produces (m : Mw) (comp level code : Nat) : Bool :=
  if code ≥ 0x8000 then m.trace.testBit ((code - 0x8000) / 256) else decide (level ≤ m.level / 4 ^ comp % 4)

/-- A record goes to a LOG ring that accepts it, or is counted as dropped there (R344). -/
def State.logTo (s : State) (r comp level code seq a0 a1 a2 core : Nat) : State :=
  let dropped := tabGet 0 s.aid.log.drops r
  let room : Bool := match s.ring r with
    | some x => x.kind = .log && s.ringOpen x && decide (x.waiting + 1 ≤ x.room)
    | none => false
  if room then
    let s := s.pushRun r ⟨.log, [logRecord comp level code seq s.time a0 a1 a2 core dropped]⟩
    { s with aid := { s.aid with log := { s.aid.log with drops := tabErase s.aid.log.drops r } } }
  else { s with aid := { s.aid with log := { s.aid.log with drops := tabInsert s.aid.log.drops r (dropped + 1) } } }

/-- A component produces a log record or trace record (R344, R345). -/
def State.logWork (s : State) (core comp : Nat) (w : LogWork) : State :=
  let level := if w.code ≥ 0x8000 then 3 else w.level % 4
  if !s.aid.mw.produces comp level w.code then s
  else
    let seq := s.aid.log.next
    let rec' := logRecord comp level w.code seq s.time w.a0 w.a1 w.a2 core 0
    let kept := if s.aid.log.kept.length ≥ 65536 then s.aid.log.kept.drop 1 else s.aid.log.kept
    let s := { s with aid := { s.aid with log := { s.aid.log with kept := kept ++ [rec'], next := (seq + 1) % 2 ^ 32 } } }
    let rings := s.aid.log.filters.filter (fun (p : Nat × Nat × Nat) => p.2.1.testBit comp && decide (level ≤ p.2.2))
    s.each rings (fun s (p : Nat × Nat × Nat) => s.logTo p.1 comp level w.code seq w.a0 w.a1 w.a2 core)

/-! ### Command steps -/

/-- A component runs on a core (R318). -/
def State.runsOn (s : State) (core comp : Nat) : Bool :=
  core < 8 && comp < 16 && (s.get F.MBX_CORE_STAT.IN_SERVICE).testBit core && (replicated comp || s.home comp = core)

/-- What TEST_FAULT reports once its part has failed and recovered (R382). -/
def Injected.report (x : Injected) : List Byte :=
  let since := fun (t : Nat) => min (t - x.at') (2 ^ 32 - 1)
  match x.detected with
  | some (d, r) => leBytes 4 (since d) ++ leBytes 4 (if r = 0 then 0 else since r) ++ leBytes 1 1 ++ leBytes 1 (bit x.degraded)
  | none => zeros 10

/-- A waiting command whose wait is over completes (R358, R360, R366, R369, R382). -/
def State.resume (s : State) (c : Ctx) : State :=
  if c.waiting = wClose then (if s.sessionQuiet c c.arg then s.closeFinish c c.arg else s)
  else if c.waiting = wDestroy then (if s.ringIdle c c.arg then s.ringGone c c.arg else s)
  else if c.waiting = wStreamClosed then (if s.streamState c.arg = 0 then s.closeDone c else s)
  else if c.waiting = wSwitched then (if s.switched c then s.complete c 0 (leBytes 8 (c.arg / 1024)) else s)
  else if c.waiting = wTestRecover then
    match s.aid.tests.find? (fun (x : Injected) => x.part = c.p 16 1 && x.index = c.arg && x.detected.isSome) with
    | some x =>
      let s := if x.part ≠ pQueue then s
        else { s with aid := { s.aid with tests := s.aid.tests.filter (fun (y : Injected) => !(y.part = pQueue && y.index = x.index)) } }
      s.complete c 0 x.report
    | none => s
  else s

/-- A component may run a step on a core (R318, R320, R322): it is not disabled, the core is not trapped, and no work of a higher
level waits there. -/
def State.stepAllowed (s : State) (core comp : Nat) : Bool :=
  s.runsOn core comp && !s.aid.disabled.testBit comp && !s.aid.traps.testBit core && !s.preempted core

/-- One command step, entered through the gate of its component (R319, R321, R326): its log records; then an opcode that R356 does not list completes with 0x0100, a waiting
command goes on when its wait is over, and the durable step count moves on. -/
def State.commandStep (s : State) (core comp : Nat) (w : StepWork) : State :=
  if !s.stepAllowed core comp then s
  else
    let s := s.gate core comp
    let s := s.each w.logs (fun s l => s.logWork core comp l)
    match s.ctx w.ring w.seq with
    | none => s
    | some c =>
      if c.steps = 0 then
        if (opInfo c.opcode).isNone && s.mayStart c then s.complete c 0x0100 [] else s
      else
        let c := { c with steps := c.steps + 1 }
        (s.setCtx c).resume c

/-- A command issued in the management window before a context was free is taken (R324, R332). -/
def State.mwTake (s : State) : State :=
  if s.aid.mw.busy && !s.aid.ctxs.any (fun c => c.ring = 0x2000) && !s.aid.repeats.any (fun (r : Repeat) => r.ring = 0x2000) &&
      s.aid.ctxs.length < 4096 && s.get F.PWR_STOP.STATE = 0 then s.takeDescriptor 0x2000 0 false s.aid.mw.desc
  else s

def execCommandStep (t core comp : Nat) (work : StepWork) (s : State) : Res :=
  .next (((s.at t).commandStep core comp work).mwTake)

/-! ### Control cores -/

/-- Streams whose group's result rings a core serves (R421). -/
def State.coreStreams (s : State) (c : Nat) : Nat :=
  let on := fun (r : Nat) => match s.ring r with
    | some x => decide (x.core = c)
    | none => false
  unionAll (((List.range 32).filter (fun g => on (s.get (F.CP_GRP_RPT.RING g)) || on (s.get (F.CP_GRP_RPT.VIEW_RING g)))).flatMap
    (fun g => (s.groupStreams g).map streamBit))

/-- The rings of a core move one by one to the core with the fewest (R329). -/
def State.moveRings (s : State) (c : Nat) : State :=
  (s.each (s.hif.rings.filter (fun p => p.2.core = c)) (fun s p => s.setRing p.1 { p.2 with core := s.coreFor })).showHosted

/-- The singletons of a core move to the core with the fewest rings (R329). -/
def State.moveSingletons (s : State) (c : Nat) : State :=
  let d := s.coreFor
  let mine := (List.range 16).filter (fun k => !replicated k && s.home k = c)
  { s with aid := { s.aid with homes := mine.foldl (fun h k => tabInsert h k d) s.aid.homes } }

/-- Mailbox ends of a failed core are bound to the core that takes its singletons, which takes them into use (R329, R336). -/
def State.rebind (s : State) (c d : Nat) : State :=
  (s.each (List.range 64) (fun s m =>
    let s := if s.get (F.MBX_CFG.END0 m) = c + 1 then s.put (F.MBX_CFG.END0 m) (d + 1) else s
    if s.get (F.MBX_CFG.END1 m) = c + 1 then s.put (F.MBX_CFG.END1 m) (d + 1) else s)).readyEnds d

/-- A recorded context reference whose word is lost, or whose core is no longer that of the component, is sent again from its
guarded record (R337); one whose two cores are now the same has arrived. -/
def State.resendNote (s : State) (n : Note) : State :=
  match s.ctx n.ring n.seq with
  | none => s.takeNote n.ring n.seq
  | some c =>
    if n.dest = s.coreOf c && s.noteThere n then s
    else (s.takeNote n.ring n.seq).pass n.ring n.seq (s.ringCore n.ring) (s.coreOf c)

def State.resendNotes (s : State) : State := s.each s.aid.notes State.resendNote

def State.setCore (s : State) (c : Nat) (x : CoreSt) : State := { s with aid := { s.aid with cores := tabInsert s.aid.cores c x } }
def State.coreSt (s : State) (c : Nat) : CoreSt := tabGet ⟨none, false⟩ s.aid.cores c

/-- A core is taken out of service for good (R330). -/
def State.coreOut (s : State) (c cond flags : Nat) : State :=
  let s := s.setCore c { s.coreSt c with out := true }
  s.degraded pCore c cond 0 s.liveCores.length flags s.adm.floor

/-- A control core fails (R329, R330): its locks and mailbox ends are reset, its singletons and then its rings move, and the
messages that went lost are sent again (R337). -/
def State.ctlFail (s : State) (c cond flags : Nat) : State :=
  if !s.liveCores.contains c then s
  else
    let streams := s.coreStreams c
    let again := match (s.coreSt c).rejoined with
      | some t => decide (s.time < t + 100000000)
      | none => false
    let s := s.put F.MBX_CORE_STAT.IN_SERVICE (setMinus (s.get F.MBX_CORE_STAT.IN_SERVICE) (2 ^ c))
    let s := (s.put F.MBX_CORE_STAT.FAILED (s.get F.MBX_CORE_STAT.FAILED ||| 2 ^ c)).endReset (c + 1)
    if s.liveCores.length < 2 then s.fatal pCore c cond streams 0
    else
      let s := s.singlePartFault pCore c cond streams 0 s.liveCores.length flags
      let d := s.coreFor
      let s := (((s.moveSingletons c).moveRings c).rebind c d).resendNotes
      let s := { s with aid := { s.aid with traps := setMinus s.aid.traps (2 ^ c) } }
      if again then s.coreOut c cond flags else s

/-- A core rejoins with no rings. -/
def State.rejoin (s : State) (c : Nat) : State :=
  let s := s.put F.MBX_CORE_STAT.IN_SERVICE (s.get F.MBX_CORE_STAT.IN_SERVICE ||| 2 ^ c)
  ((s.put F.MBX_CORE_STAT.FAILED (setMinus (s.get F.MBX_CORE_STAT.FAILED) (2 ^ c))).setCore c ⟨some s.time, false⟩).gate c 0

/-- A failed core has reloaded (R329, R330): it rejoins, or goes out of service when its patch fails the check.  A core that
TEST_FAULT made to fail stays failed until its RESTORE. -/
def State.coreReload (s : State) (c : Nat) (ok : Bool) : State :=
  if !(s.get F.MBX_CORE_STAT.FAILED).testBit c || c ≥ 8 || (s.coreSt c).out || s.isInjected pCore c then s
  else if ok then s.rejoin c
  else s.coreOut c 0 0

def execCoreRejoin (t core : Nat) (checkOk : Bool) (s : State) : Res := .next ((s.at t).coreReload core checkOk)

/-- A component breaks its compartment (R320): the component restarts; a second time within 1 s disables it, and commands
that need it complete with 0x0500.  A violation by KERNEL is a core crash. -/
def State.violation (s : State) (core comp : Nat) : State :=
  if comp = 0 then s.ctlFail core 4 0
  else
    let again := match tabFind s.aid.violated comp with
      | some t => decide (s.time < t + 1000000000)
      | none => false
    let s := s.errRecord ⟨.recovered, pComponent, comp, 1, 0, 0, 0, 1, 0, 0⟩
    let s := { s with aid := { s.aid with violated := tabInsert s.aid.violated comp s.time } }
    if again && !s.aid.disabled.testBit comp then
      let s := { s with aid := { s.aid with disabled := s.aid.disabled ||| 2 ^ comp } }
      let s := s.degraded pComponent comp 1 0 0 0 s.adm.floor
      s.each (s.aid.ctxs.filter (fun c => c.steps ≠ 0 && (opInfo c.opcode).any (fun i => i.comp = comp))) (fun s c => s.complete c 0x0500 [])
    else s

/-- An access that a window holds whole, with the right it needs (R319). -/
def CompWindow.allows (w : CompWindow) (addr len : Nat) (kind : AccessKind) : Bool :=
  w.base ≤ addr && addr + len ≤ w.base + 2 ^ w.logSize && (match kind with
    | .fetch => w.x
    | .load => w.r
    | .store => w.w)

/-- An access that a compartment check unit lets pass (R319): in the register space by its block bitmap, elsewhere by a window. -/
def CheckUnit.allows (u : CheckUnit) (addr len : Nat) (kind : AccessKind) : Bool :=
  if 0x7F0000000000 ≤ addr && addr < 0x7F0001000000 then kind ≠ .fetch && u.blocks.testBit (blockRow (addr - 0x7F0000000000))
  else u.windows.any (fun w => w.allows addr len kind)

/-- A control core makes an access, or has trapped on one (R319, R320): one that its check unit does not allow is blocked, and the
component that runs there has broken its compartment; its restart sends again what it had sent and was lost (R337). -/
def State.checkAccess (s : State) (core addr len : Nat) (kind : AccessKind) : State :=
  if !s.liveCores.contains core then s
  else if (s.unit core).allows addr len kind && !s.aid.traps.testBit core then s
  else
    let s := { s with aid := { s.aid with traps := setMinus s.aid.traps (2 ^ core) } }
    (s.violation core (s.unit core).comp).resendNotes

def execCompartmentViolation (t core : Nat) (access : CoreAccess) (s : State) : Res :=
  .next ((s.at t).checkAccess core access.addr access.len access.kind)

/-! ### The management window -/

/-- The window's command register is written with 1 (R332). -/
def State.mwGo (s : State) : State :=
  if !s.fwReady || s.get F.PWR_STOP.STATE ≠ 0 then s
  else if s.aid.mw.busy then { s with aid := { s.aid with mw := { s.aid.mw with refused := true } } }
  else ({ s with aid := { s.aid with mw := { s.aid.mw with busy := true } } }).mwTake

/-- Bytes of a list replaced from position `i`. -/
def patchBytes (bs : List Byte) (i : Nat) (new : List Byte) : List Byte := bs.take i ++ new ++ bs.drop (i + new.length)

/-- A write to BAR2 (R331, R332). -/
def State.mwWrite (s : State) (off size val : Nat) : State :=
  if !s.fwReady || !((size = 4 || size = 8) && off % size = 0) then s
  else if 0x100 ≤ off && off < 0x140 then
    if s.aid.mw.busy then { s with aid := { s.aid with mw := { s.aid.mw with refused := true } } }
    else { s with aid := { s.aid with mw := { s.aid.mw with desc := patchBytes s.aid.mw.desc (off - 0x100) (leBytes size val) } } }
  else if off = 0x40 then { s with aid := { s.aid with mw := { s.aid.mw with trace := val % 2 ^ 16 } } }
  else if off = 0x48 then { s with aid := { s.aid with mw := { s.aid.mw with level := val % 2 ^ 32 } } }
  else if off = 0x160 then (if val % 2 = 1 then s.mwGo else s)
  else if off = 0x168 then
    { s with aid := { s.aid with mw := { s.aid.mw with refused := s.aid.mw.refused && !val.testBit 1 } } }
  else s

/-- Writes to the window take effect in the order of their arrival, once no URGENT work that arrived before them waits for the
core that MGMT runs on (R322, R331). -/
def State.mwDrain (s : State) : State :=
  if !(s.aborts (s.home 13)).isEmpty || (s.home 3 = s.home 13 && s.aid.evals.any (fun e => e.level ≠ .normal)) then s
  else
    let ws := s.aid.mw.arrived
    ({ s with aid := { s.aid with mw := { s.aid.mw with arrived := [] } } }).each ws (fun s (w : Nat × Nat × Nat) => s.mwWrite w.1 w.2.1 w.2.2)

/-- A write to the window arrives. -/
def State.mwArrive (s : State) (off size val : Nat) : State :=
  ({ s with aid := { s.aid with mw := { s.aid.mw with arrived := s.aid.mw.arrived ++ [(off, size, val)] } } }).mwDrain

def execMwWrite (t off size val : Nat) (s : State) : Res := .next ((s.at t).mwArrive off size val)

def execMwCmdGo (t : Nat) (s : State) : Res := .next ((s.at t).mwArrive 0x160 8 1)

def execControlCoreFail (t core cond : Nat) (s : State) : Res :=
  .next (let s := s.at t
    (s.ctlFail core cond (s.testFlag pCore core)).mwDrain)

/-! ### Admission -/

def execAdmissionEvaluation (t : Nat) (s : State) : Res := .next ((s.at t).admissionEvaluation.mwDrain).mirrorConfig

/-! ### Patch images -/

/-- Component entries of an image header (R481): component, offset in the body, length, digest. -/
def patchEntries (d : List Byte) : List (Nat × Nat × Nat × List Byte) :=
  (List.range (fieldAt d 6 2)).map (fun i =>
    let e := sliceAt d (64 + 48 * i) 48
    (fieldAt e 0 1, fieldAt e 4 4, fieldAt e 8 4, sliceAt e 16 32))

/-- Check 2 of R482: the header's form. -/
def patchForm (d : List Byte) : Bool :=
  let n := fieldAt d 6 2
  let es := patchEntries d
  decide (d.length ≥ 4096) && fieldAt d 0 4 = 0x5EA1F128 && fieldAt d 4 2 = 1 && decide (1 ≤ n) && decide (n ≤ 16) &&
    decide (fieldAt d 12 4 ≤ 64) && decide (fieldAt d 20 1 < 2) && fieldAt d 21 3 = 0 && fieldAt d 56 8 = 0 &&
    (sliceAt d 2368 1728).all (fun b => b = 0) && (sliceAt d (64 + 48 * n) (48 * (16 - n))).all (fun b => b = 0) &&
    es.all (fun e => decide (e.1 < 16) && decide (4096 + e.2.1 + e.2.2.1 ≤ d.length)) && decide ((es.map (fun e => e.1)).Nodup)

/-- Checks 3 and 4 of R482, for an image or a token: key hashes and signatures over `msg`. -/
def State.signedBy (s : State) (msg wMod wSig oMod oSig : List Byte) (ownerFlag : Bool) : Bool :=
  keyHash wMod = s.sec.fuses.rootHash && rsaVerify wMod wSig msg &&
    (!s.flag F.SEC_FUSE.OWNER_SET || (ownerFlag && keyHash oMod = s.sec.fuses.ownerHash && rsaVerify oMod oSig msg))

/-- Check 6 of R482: the body digest and those of the component patches. -/
def patchDigests (d : List Byte) : Bool :=
  let body := d.drop 4096
  sha256 body = sliceAt d 24 32 && (patchEntries d).all (fun e => sha256 (sliceAt body e.2.1 e.2.2.1) = e.2.2.2)

/-- Checks 2 to 6 of R482: 0, or the status. -/
def State.patchCheck (s : State) (d : List Byte) : Nat :=
  if !patchForm d then 0x0403
  else if !s.signedBy (d.take 832) (sliceAt d 832 384) (sliceAt d 1216 384) (sliceAt d 1600 384) (sliceAt d 1984 384)
      (fieldAt d 20 1 = 1) then 0x0403
  else if fieldAt d 12 4 < s.get F.SEC_FUSE.ROLLBACK then 0x0404
  else if !patchDigests d then 0x0403 else 0

/-- The patch slot that an image makes (R340). -/
def patchOf (d : List Byte) (state : Nat) : PatchSlot :=
  ⟨state, fieldAt d 8 4, fieldAt d 12 4, sha256 d, (patchEntries d).map (fun e => (e.1, e.2.2.2)), d⟩

def State.setUpd (s : State) (u : Upd) : State := { s with aid := { s.aid with upd := u } }

/-- The active slot: 0 A, 1 B (R340). -/
def Upd.active (u : Upd) : Option Nat := if u.slotA.state = 2 then some 0 else if u.slotB.state = 2 then some 1 else none
def Upd.slot (u : Upd) (n : Nat) : PatchSlot := if n = 0 then u.slotA else u.slotB
def Upd.setSlot (u : Upd) (n : Nat) (x : PatchSlot) : Upd := if n = 0 then { u with slotA := x } else { u with slotB := x }
/-- The staged slot, if any. -/
def Upd.staged (u : Upd) : Option Nat := if u.slotA.state = 1 then some 0 else if u.slotB.state = 1 then some 1 else none
/-- An activation is in progress or deferred (R342). -/
def Upd.busy (u : Upd) : Bool := u.handover.isSome || u.deferred.isSome
/-- Version and image digest of the active patch; 0 for none. -/
def Upd.version (u : Upd) : Nat := match u.active with
  | some n => (u.slot n).version
  | none => 0
def Upd.digest (u : Upd) : List Byte := match u.active with
  | some n => (u.slot n).digest
  | none => zeros 32

/-- FW_DIGEST (R347). -/
def State.fwDigest (s : State) : List Byte :=
  let comps := match s.aid.upd.active with
    | some n => (s.aid.upd.slot n).comps
    | none => []
  sha256 (s.sec.fuses.romDigest ++ (List.range 16).flatMap (fun k => (tabFind comps k).getD []))

/-- FW_VERSION (R374): the byte of the active slot while none is active is free. -/
def State.fwVersion (s : State) (c : Ctx) : State :=
  let rom := Config.free .romVersion 0
  let slot := match s.aid.upd.active with
    | some n => n
    | none => s.freeVal .activeSlot
  s.tickFree.completeOut c s.fwDigest (leBytes 4 s.aid.upd.version ++ leBytes 2 (rom / 2 ^ 16) ++ leBytes 2 rom ++ leBytes 1 slot)

def execFwVersion (t : Nat) (cmd : CmdRef) (s : State) : Res := .next ((s.at t).command cmd 0x18 anyForm State.fwVersion)

/-- Device address of a patch slot in scratch: A at 0x10_0000, B at 0x20_0000 (R317). -/
def patchAddr (n : Nat) : Nat := 0x430000000000 + 0x100000 * (n + 1)

/-- The code and data of a patch image go to the slot's place in scratch (R317, R340). -/
def State.loadSlot (s : State) (n : Nat) (d : List Byte) : State := { s with mem := memPutAll s.mem (patchAddr n) (d.drop 4096) }

/-- FW_STAGE (R340, R374, R482): an image that passes its checks goes to the slot that is not ACTIVE. -/
def State.fwStage (s : State) (c : Ctx) : State :=
  let d := c.data
  if s.aid.upd.busy then s.complete c 0x0304 []
  else if fieldAt d 16 4 ≠ c.p 20 4 then s.complete c 0x0101 (leBytes 2 20)
  else
    let st := s.patchCheck d
    if st = 0x0403 then ((s.bump R.SEC_CNT_SIG_FAIL).put F.SEC_ERR.SIG_BAD 1).complete c st []
    else if st ≠ 0 then s.complete c st []
    else
      let n := if s.aid.upd.active = some 0 then 1 else 0
      let p := patchOf d 1
      ((s.setUpd (s.aid.upd.setSlot n p)).loadSlot n d).complete c 0 (leBytes 4 p.version)

def execFwStage (t : Nat) (cmd : CmdRef) (s : State) : Res := .next ((s.at t).command cmd 0x50 anyForm State.fwStage)

/-! ### Activation -/

/-- Health record ACTIVATION (R417). -/
def State.activationRecord (s : State) (what version : Nat) : State := s.health hEvent 0x16 0 what version 0 0

/-- An activation begins for a command (R341, R342). -/
def State.activationBegin (s : State) (c : Ctx) : State :=
  if s.aid.upd.busy then s.complete c 0x0304 []
  else match s.aid.upd.staged with
    | none => s.complete c 0x0303 []
    | some n =>
      if s.emergency then
        ((s.setUpd { s.aid.upd with deferred := some n }).activationRecord 1 (s.aid.upd.slot n).version).complete c 0x0001 []
      else (s.setUpd { s.aid.upd with handover := some ⟨n, 0, false, some (c.ring, c.seq)⟩ }).await c wHandover n

/-- FW_ACTIVATE in its activating form (R374). -/
def State.fwActivate (s : State) (c : Ctx) : State :=
  if (c.p 17 1).testBit 0 then
    if s.aid.upd.busy then s.complete c 0x0304 []
    else if s.aid.upd.staged.isNone then s.complete c 0x0303 []
    else s.await c wTimedFw (c.p 24 8)
  else s.activationBegin c

def isCancel (c : Ctx) : Bool := (c.p 17 1).testBit 1

def execFwActivate (t : Nat) (cmd : CmdRef) (s : State) : Res :=
  .next ((s.at t).command cmd 0x51 (fun c => !isCancel c) State.fwActivate)

/-- FW_ACTIVATE in its cancel form (R374). -/
def State.fwCancel (s : State) (c : Ctx) : State :=
  match s.waiters wTimedFw, s.aid.upd.deferred with
  | w :: _, _ => (s.complete w 0x0307 []).complete c 0 []
  | [], some n => ((s.setUpd { s.aid.upd with deferred := none }).activationRecord 3 (s.aid.upd.slot n).version).complete c 0 []
  | [], none => s.complete c 0x0303 []

def execFwActivateCancel (t : Nat) (cmd : CmdRef) (s : State) : Res :=
  .next ((s.at t).command cmd 0x51 isCancel State.fwCancel)

/-- The waiting context with the earliest time. -/
def earliest : List Ctx → Option Ctx
  | [] => none
  | c :: cs => match earliest cs with
    | none => some c
    | some d => if d.arg < c.arg then some d else some c

/-- The time of the earliest timed activation comes (R341). -/
def State.fwTimed (s : State) : State :=
  match earliest (s.waiters wTimedFw) with
  | none => s
  | some c => (s.at c.arg).activationBegin c

def execFwActivateTime (s : State) : Res := .next s.fwTimed

/-- A deferred activation begins when the emergency has cleared (R342). -/
def State.deferredBegin (s : State) : State :=
  match s.aid.upd.deferred with
  | none => s
  | some n =>
    if s.emergency then s
    else (s.setUpd { s.aid.upd with deferred := none, handover := some ⟨n, 0, false, none⟩ }).activationRecord 2 (s.aid.upd.slot n).version

def execDeferredActivationBegin (t : Nat) (s : State) : Res := .next ((s.at t).deferredBegin)

/-- Order of the handover (R341). -/
def handoverOrder : List Nat := [14, 15, 13, 11, 2, 8, 9, 5, 4, 3, 7, 6, 10, 1, 12, 0]

/-- The last component is handed over (R341): the slot is ACTIVE, the other one STAGED, and the new digest is bound. -/
def State.handoverDone (s : State) (h : Handover) : State :=
  let u := s.aid.upd
  let other := 1 - h.slot
  let u := if (u.slot other).state = 2 then u.setSlot other { u.slot other with state := 1 } else u
  let u := { u.setSlot h.slot { u.slot h.slot with state := 2 } with handover := none }
  let s := { s.setUpd u with aon := { s.aon with bound := u.digest } }
  match h.cmd with
  | some (r, q) => match s.ctx r q with
    | some c => s.complete c 0 []
    | none => s
  | none => s

/-- A component passes to its new version, or its handover fails; then those already handed over are handed back, in reverse
order (R341, R342). -/
def State.handoverStep (s : State) (comp : Nat) (ok : Bool) : State :=
  match s.aid.upd.handover with
  | none => s
  | some h =>
    if h.back then
      if handoverOrder.getD (h.done - 1) 16 ≠ comp || h.done = 0 then s
      else if h.done = 1 then s.setUpd { s.aid.upd with handover := none }
      else s.setUpd { s.aid.upd with handover := some { h with done := h.done - 1 } }
    else if handoverOrder.getD h.done 16 ≠ comp then s
    else if ok then
      let h := { h with done := h.done + 1 }
      if h.done = 16 then s.handoverDone h else s.setUpd { s.aid.upd with handover := some h }
    else
      let s := s.setUpd { s.aid.upd with handover := if h.done = 0 then none else some { h with back := true, cmd := none } }
      match h.cmd with
      | some (r, q) => (match s.ctx r q with
        | some c => s.complete c 0x0501 []
        | none => s)
      | none => s.activationRecord 4 (s.aid.upd.slot h.slot).version

def execComponentHandover (t comp : Nat) (handoverOk : Bool) (s : State) : Res := .next ((s.at t).handoverStep comp handoverOk)

end Sys2Proof.Machine
end

