-- ==== Sys2Proof/Machine/Registers.lean ====
section
/-!
DEFINITION. Register accesses (R497–R512): which accesses land, who may write what, claims of double-buffered groups and
their commits, SETUP_LOCK, and what a read finds.
-/

namespace Sys2Proof.Machine

/-! ### Commits -/

/-- A write of `val` to the commit register at `c`, of base `base` in the register table, for its element `i` (R509). -/
def State.commitWrite (s : State) (req c base i val : Nat) : State :=
  if base = R.HG_GLB_COMMIT then s.hgGlbCommit req val
  else if base = R.HG_STREAM_COMMIT 0 then s.hgStreamCommit req i val
  else if base = R.FRF_GLB_COMMIT then s.frfGlbCommit req val
  else if base = R.FRF_LANE_COMMIT 0 then s.frfLaneCommit req i val
  else if base = R.FW_GLB_COMMIT then s.fwGlbCommit req val
  else if base = R.FW_CORE_COMMIT 0 then s.fwCoreCommit req i val
  else if base = R.FW_MAP_COMMIT 0 then s.fwMapCommit req i val
  else if base = R.FW_POP_COMMIT 0 then s.fwPopCommit req i val
  else if base = R.ST_COMMIT 0 then s.stCommit req i val
  else if base = R.CP_GLB_COMMIT then s.cpGlbCommit req val
  else if base = R.CP_GRP_COMMIT 0 then s.cpGrpCommit req i val
  else if base = R.CP_MBR_COMMIT 0 then s.cpMbrCommit req i val
  else if base = R.MEM_RGN_COMMIT 0 then s.memRgnCommit req i val
  else if base = R.SQ_Q_COMMIT then s.sqQCommit req val
  else if base = R.HIF_FN_COMMIT 0 then s.hifFnCommit req i val
  else if base = R.HIF_FN_ADM_COMMIT 0 then s.hifAdmCommit req i val
  else if base = R.NET_GLB_COMMIT then s.netGlbCommit req val
  else if base = R.NET_PORT_COMMIT 0 then s.netPortCommit req i val
  else if base = R.NET_EXP_COMMIT 0 then s.netExpCommit req i val
  else if base = R.NET_PEER_COMMIT 0 then s.netPeerCommit req i val
  else if base = R.TIM_COMMIT then s.timCommit req val
  else s.commitNow req c val 0

/-- The boundary at which a pending commit takes effect (R509): the first slice boundary after it for a stream group (R68),
the next step for the furrow groups (R124).  What a running FRF's groups and a fusion group wait for, its own rows bring: the
stage-4 output, the switch instant, the dwell boundary (R96), the next opening of an instant (R219); a group of a stopped FRF
takes effect at the next multiple of 128 µs or of the dwell. -/
def State.pendingDue (s : State) (c : Nat) : Option Nat :=
  match regAt c with
  | none => none
  | some (r, is) =>
    let i := is.headD 0
    if r.base = R.HG_STREAM_COMMIT 0 then some (s.boundaryAfter c (s.sliceNs i))
    else if r.base = R.FRF_LANE_COMMIT 0 && !s.frfOn then some (s.boundaryAfter c 128000)
    else if r.base = R.FRF_GLB_COMMIT && !s.frfOn then some (s.boundaryAfter c (1000 * s.dwellUs))
    else if r.base = R.FW_MAP_COMMIT 0 || r.base = R.FW_POP_COMMIT 0 then some (s.boundaryAfter c s.stepNs)
    else none

/-- The pending commit of the group at `c` takes effect, with what its block does then (R509), once its boundary has come. -/
def State.pendingApply (s : State) (c : Nat) : State :=
  if (s.group c).pending.isNone || !(match s.pendingDue c with
      | some d => decide (d ≤ s.time)
      | none => false) then s
  else
    let s1 := s.applyPending c
    match regAt c with
    | none => s1
    | some (r, is) =>
      let i := is.headD 0
      if r.base = R.HG_STREAM_COMMIT 0 then s1.streamApplied i s
      else if r.base = R.FRF_LANE_COMMIT 0 then s1.laneApplied i s
      else if r.base = R.CP_GRP_COMMIT 0 then s1.cpGrpApplied i s
      else s1

def execPendingCommitApply (t commit : Nat) (s : State) : Res := .next ((s.at t).pendingApply commit).mirrorConfig

/-- 10 ms after the holder's last write, its claim lapses (R508). -/
def State.claimLapse (s : State) (c : Nat) : State :=
  let g := s.group c
  if g.holder = 0 then s
  else (((s.at (g.lastWrite + 10000000)).sysErr F.SYS_ERR.CLAIM_LAPSED g.holder 0 c).reloadShadow c).endClaim c

def execClaimLapsed (commit : Nat) (s : State) : Res := .next (s.claimLapse commit)

/-- A write to SYS_SHADOW_DISCARD by the holder of the group's claim, or by a control core (R508, R512). -/
def State.discard (s : State) (req c : Nat) : State :=
  let g := s.group c
  if g.holder ≠ 0 && (g.holder = req || isControlCore req) then (s.reloadShadow c).endClaim c else s

/-! ### Registers with an effect of their own -/

/-- WATCH_MODE follows the link and FORCE_POLL (R298). -/
def State.showWatch (s : State) : State :=
  let on := s.flag F.HIF_STAT.LINK_UP && s.hif.cxl && !s.flag F.HIF_CTL.FORCE_POLL
  let s := if on then s else { s with hif := { s.hif with watch := [] } }
  s.put F.HIF_STAT.WATCH_MODE (bit on)

/-- W1C bits of SQ_Q_STAT clear in the selected queue (R279). -/
def State.sqClear (s : State) (val : Word) : State :=
  let q := s.get F.SQ_SEL.QUEUE
  let x := s.queue q
  s.setQueue q { x with
    overrun := x.overrun && F.SQ_Q_STAT.OVERRUN.of val = 0
    ptrErr := x.ptrErr && F.SQ_Q_STAT.PTR_ERR.of val = 0
    ue := x.ue && F.SQ_Q_STAT.UE.of val = 0 }

/-- A G.8032 instance starts or stops with its ENABLE (R389): a starting RPL owner or neighbour blocks its RPL side and
waits for the restore time. -/
def State.erpConfigured (s : State) (n : Nat) (was : Bool) : State :=
  let now := s.flag (F.NET_ERP_k.ENABLE n)
  if now && !was then
    let role := s.get (F.NET_ERP_k.ROLE n)
    let s := s.setErp n { Erp.empty with
      blocked := if role = 0 then 0 else 2 ^ s.get (F.NET_ERP_k.RPL_PORT n)
      wtrAt := if role = 1 then some (s.time + wtrNs) else none }
    s.put (F.NET_ERP_k.STATE n) 5
  else if was && !now then (s.setErp n Erp.empty).put (F.NET_ERP_k.STATE n) 0
  else s

/-- Bits that some field of a register occupies. -/
def fieldMask (fs : List FieldSpec) : Word := maskWhere (fun _ => true) fs

/-- Bits that a write can change or act on. -/
def writable (fs : List FieldSpec) : Word := maskWhere (fun x => x ≠ .RO) fs

/-- A write that lands in a register outside the groups (R17). -/
def State.plainWrite (s : State) (req a : Nat) (fs : List FieldSpec) (val m : Word) : State :=
  s.setReg a (s.writeBits req a fs (s.reg a) val m)

/-- A write to a register outside the groups, with the effect that its chapter gives it; `v` are the written bits. -/
def State.freeWrite (s : State) (req a base i : Nat) (fs : List FieldSpec) (val m : Word) : State :=
  let v := val &&& m
  if base = R.SYS_SHADOW_DISCARD then s.discard req (F.SYS_SHADOW_DISCARD.COMMIT_OFF.of v)
  else if base = R.HIF_CTL then (s.plainWrite req a fs val m).showWatch
  else if base = R.FRF_SYNC then s.frfSync v
  else if base = R.FRF_MASK_DATA1 then s.frfMaskData1 ((s.reg a &&& ~~~m) ||| v)
  else if base = R.FRF_COEF_DATA then s.frfCoefData v
  else if base = R.FRF_LANE_SWAP 0 then s.frfLaneSwap i v
  else if base = R.FW_TBL_DATA then s.fwTblWrite v.toNat
  else if base = R.SQ_SEL then (s.plainWrite req a fs val m).sqMirror
  else if base = R.SQ_Q_CTL then (if v.getLsbD 0 then s.sqReset (s.get F.SQ_SEL.QUEUE) (.software req) 0 else s)
  else if base = R.SQ_Q_STAT then s.sqClear v
  else if base = R.NET_FDB_DATA then s.fdbData v
  else if base = R.NET_VLAN_DATA then
    let s := s.plainWrite req a fs val m
    { s with net := { s.net with vlans := tabSet 0 s.net.vlans (s.get F.NET_VLAN_ADDR.VID) (s.reg R.NET_VLAN_DATA) } }
  else if base = R.NET_ERP_k 0 then (s.plainWrite req a fs val m).erpConfigured i (s.flag (F.NET_ERP_k.ENABLE i))
  else if base = R.RAS_CTL then
    let s := s.plainWrite req a fs val m
    s.put F.RAS_CTL.FAULT_MASK (s.get F.RAS_CTL.FAULT_MASK ||| 8)
  else if base = R.MBX_CFG 0 then s.mbxCfg req i v.toNat
  else if base = R.MBX_SEND 0 then s.mbxSend req i v.toNat
  else if base = R.MBX_DB_RING 0 then s.mbxRing req i v.toNat
  else if base = R.MBX_STAT 0 then s.mbxWrite req i 0x18 v.toNat
  else if base = R.MBX_DB_PEND 0 then s.mbxWrite req i 0x28 v.toNat
  else if base = R.MBX_DB_MASK 0 then s.mbxWrite req i 0x30 v.toNat
  else if base = R.MBX_DB_WAKE 0 then s.mbxWrite req i 0x38 v.toNat
  else if base = R.LCK_l 0 then s.lockWrite req i v.toNat
  else if base = R.LCK_FORCE then s.lockForce req v.toNat
  else s.plainWrite req a fs val m

/-! ### Writes -/

/-- True for a port register whose port does not exist in the present mode (R384, R500). -/
def State.portAbsent (s : State) (r : RegSpec) (i : Nat) : Bool :=
  blockRow r.base = 11 && r.base < 0x161000 && decide (i ≥ modePorts (s.get F.NET_CTL.MODE))

/-- The register at an offset, unless it does not exist in the present configuration (R500). -/
def State.regHere (s : State) (a : Nat) : Option (RegSpec × List Nat) :=
  match regAt a with
  | some x => if s.portAbsent x.1 (x.2.headD 0) then none else some x
  | none => none

/-- A write of the bits `m` of `val` to one register: the fields kept from the requester set HOST_DENIED and the others
land (R504), in a group under its claim (R508). -/
def State.writeOne (s : State) (req size a : Nat) (r : RegSpec) (is : List Nat) (val m : Word) : State :=
  let fs := r.fields
  if m &&& fieldMask fs = 0 then s
  else
    let s := if !isControlCore req && (aidorOnly a &&& m &&& writable fs) ≠ 0 then s.sysErr F.SYS_ERR.HOST_DENIED req size a else s
    let i := is.headD 0
    if (membersAt a).isEmpty then
      match r.group with
      | some g => s.groupWrite req size (g.1 + dotStride g.2 is) a fs val m
      | none => s.freeWrite req a r.base i fs val m
    else s.commitWrite req a r.base i (val &&& m).toNat

/-- Access sizes and alignments that the device takes (R499). -/
def accessOk (off size : Nat) : Bool := (size = 8 && off % 8 = 0) || (size = 4 && off % 4 = 0)

/-- Low and high halves of a slot. -/
def lowHalf : Word := maskOf 31 0
def highHalf : Word := maskOf 63 32

/-- A register write at a BAR0 offset (R499, R500, R504, R508): `val` holds the written bytes.  An 8-byte write to a slot
of two 32-bit registers writes both; a 4-byte write to half of a 64-bit register writes that half alone. -/
def State.writeReg (s : State) (req off size val : Nat) : State :=
  if !accessOk off size then s.sysErr F.SYS_ERR.BAD_ACCESS req size off
  else
    let slot := off / 8 * 8
    match s.regHere slot, s.regHere (slot + 4) with
    | none, none => s.sysErr F.SYS_ERR.UNMAPPED req size off
    | lo, hi =>
      let w := BitVec.ofNat 64 val
      let s := match lo with
        | some (r, is) =>
          if size = 8 then s.writeOne req size slot r is w (maskOf (8 * r.size - 1) 0)
          else if off = slot then s.writeOne req size slot r is w lowHalf
          else if r.size = 8 then s.writeOne req size slot r is (w <<< 32) highHalf
          else s
        | none => s
      match hi with
      | some (r, is) =>
        if size = 8 then s.writeOne req size (slot + 4) r is (w >>> 32) lowHalf
        else if off = slot then s
        else s.writeOne req size (slot + 4) r is w lowHalf
      | none => s

/-- A write in the 4 KiB BAR0 of VF n: its function window, its own ring selector, read-only registers, unmapped
offsets (R507). -/
def State.vfWrite (s : State) (n req off size val : Nat) : State :=
  if !accessOk off size then s.sysErr F.SYS_ERR.BAD_ACCESS req size off
  else if off < 0x100 then s.writeReg req (0x22000 + 0x100 * n + off) size val
  else if off / 8 = 0x28 then
    (if off % 8 = 0 then { s with hif := { s.hif with selVf := tabSet 0 s.hif.selVf n (val % 2 ^ 13) } } else s)
  else if off < 0x110 || (0x148 ≤ off && off < 0x158) then s
  else s.sysErr F.SYS_ERR.UNMAPPED req size off

def execRegisterWrite (t fn req off size val : Nat) (s : State) : Res :=
  .next (if fn = 0 then (s.at t).asReq req off size val (fun s => s.writeReg req off size val)
    else (s.at t).vfWrite fn req off size val).mirrorConfig

def execSetupLock (t req val : Nat) (s : State) : Res := .next ((s.at t).asReq req R.SYS_CTL 8 val (fun s => s.writeReg req R.SYS_CTL 8 val))

def execSysShadowDiscard (t req val : Nat) (s : State) : Res :=
  .next ((s.at t).asReq req R.SYS_SHADOW_DISCARD 8 val (fun s => s.writeReg req R.SYS_SHADOW_DISCARD 8 val))

/-! ### What a read finds -/

/-- Kinds and states of a ring as HIF_RING_STAT codes them (R314). -/
def RingKind.code : RingKind → Nat
  | .submit => 1
  | .inject => 2
  | .complete => 3
  | .result => 4
  | .log => 5
def RingState.code : RingState → Nat
  | .active => 0
  | .waitEpoch => 1
  | .full => 2
  | .halted => 3
  | .detached => 4

/-- HIF_RING_STAT and HIF_RING_IDX of a selected ring (R314). -/
def State.ringStat (s : State) (r : Nat) : Word :=
  match s.ring r with
  | none => 0
  | some x => BitVec.ofNat 64 (x.epoch * 2 ^ 48 + x.fn * 2 ^ 32 + x.kind.code * 2 ^ 16 + x.cls * 2 ^ 12 + x.state.code * 2 ^ 8 +
      bit x.pending.isSome * 16 + (x.logN - 6))
def State.ringIdx (s : State) (r : Nat) : Word :=
  match s.ring r with
  | none => 0
  | some x => BitVec.ofNat 64 (x.dev * 2 ^ 32 + x.host)

/-- C and E of the channel in FRF_CH_SEL, Q19.12 (R78). -/
def State.chanView (s : State) : Word :=
  let x := s.chan (s.get F.FRF_CH_SEL.CH)
  BitVec.ofNat 64 (fromSigned 32 x.e * 2 ^ 32 + fromSigned 32 x.c)

/-- The operator registers of a layer (R156, R189), by offset in the tile's group. -/
def layerWord (l : Layer) (off : Nat) : Nat :=
  let taps := l.liveTaps.length
  let kernel := decide (l.kind = 0 ∨ l.kind = 3 ∨ l.kind = 5)
  if off = 0x88 then l.delta * 2 ^ 32 + l.period * 2 ^ 16 + l.cls * 2 ^ 13 + l.truncK * 2 ^ 10 + bit l.deltaEn * 2 ^ 9 + l.truncG % 128
  else if off = 0x90 then l.tau * 2 ^ 32 + l.rho
  else if off = 0x98 then
    l.padConst % 65536 * 2 ^ 48 + (l.dilH - 1) * 2 ^ 43 + (l.dilW - 1) * 2 ^ 38 + (l.strH - 1) * 2 ^ 35 + (l.strW - 1) * 2 ^ 32 +
      (if kernel then l.kh * 2 ^ 28 + l.kw * 2 ^ 24 + taps * 2 ^ 16 else 0) + l.fmcExp % 64 * 2 ^ 10 + l.fmc * 2 ^ 8 +
      l.padMode * 2 ^ 6 + bit (l.kind = 0 && taps = 1) * 32 + l.kind
  else if off = 0xA0 then l.extrap * 2 ^ 32 + l.scale
  else (l.outH - 1) * 2 ^ 6 + (l.outW - 1)

/-- The layer in ST_LYR_SEL of a tile (R156); without one, the register's own value. -/
def State.layerView (s : State) (t off a : Nat) : Word :=
  let l := match s.tileGroup t with
    | some g => (s.groupLayers g)[s.get (F.ST_LYR_SEL.LAYER t)]?
    | none => none
  match l with
  | some l => BitVec.ofNat 64 (layerWord l off)
  | none => s.reg a

/-- Eligible slices of a group, of admitted streams or of the others (R237, R246). -/
def State.readyRuns (s : State) (g : Nat) (admitted : Bool) : List SliceRun :=
  ((s.eligibleOf g).filter (fun d => s.isAdmitted d.stream = admitted)).map (s.startRun g)

/-- ST_GRP_DISP and ST_GRP_HEAD_DL (R246). -/
def State.dispView (s : State) (g : Nat) : Word :=
  let ready := s.readyRuns g true
  let head := match bestRun ready with
    | some r => 2 ^ 39 + r.desc.stream * 2 ^ 32
    | none => 0
  BitVec.ofNat 64 (head + ready.length * 2 ^ 16 + (s.readyRuns g false).length * 2 ^ 8)
def State.headView (s : State) (g : Nat) : Word :=
  match bestRun (s.readyRuns g true) with
  | some r => BitVec.ofNat 64 r.key
  | none => 0

/-- What a read by `req` of the register at `a` finds, apart from side effects of the read (R508, R512 and the chapters'
selector windows): the shadow for a field of a group, the selected element for a window, the active value else. -/
def State.readReg (s : State) (req a : Nat) : Word :=
  if a = R.HIF_RING_STAT then s.ringStat (s.get F.HIF_RING_SEL.RING)
  else if a = R.HIF_RING_IDX then s.ringIdx (s.get F.HIF_RING_SEL.RING)
  else if a = R.SYS_CLAIM_STAT then
    let c := s.get F.SYS_CLAIM_SEL.COMMIT_OFF
    let g := s.group c
    if (membersAt c).isEmpty then 0 else BitVec.ofNat 64 (g.holder * 2 ^ 56 + bit g.pending.isSome * 2 + 1)
  else if a = R.SQ_Q_STAT then
    let x := s.queue (s.get F.SQ_SEL.QUEUE)
    BitVec.ofNat 64 (x.epoch * 2 ^ 56 + x.words.length * 2 ^ 36 + bit x.ue * 2 ^ 26 + bit x.ptrErr * 2 ^ 25 + bit x.overrun * 2 ^ 24 +
      (2 ^ F.SQ_Q_CFG.DEPTH_LOG2.of x.cfg - x.words.length - x.opened.length))
  else if a = R.SQ_Q_PKT then
    let x := s.queue (s.get F.SQ_SEL.QUEUE)
    BitVec.ofNat 64 (x.pktIn * 2 ^ 32 + x.pktOut)
  else if a = R.FW_TBL_DATA then s.fwTblView
  else if a = R.NET_FDB_DATA then s.fdbView
  else if a = R.NET_VLAN_DATA then tabGet 0 s.net.vlans (s.get F.NET_VLAN_ADDR.VID)
  else if a = R.TIM_NOW then BitVec.ofNat 64 s.time
  else if a = R.FRF_CH_COARSE then s.chanView
  else if R.HG_STREAM_RESID 0 ≤ a && a ≤ R.HG_STREAM_RESID 127 && a % 256 = 0x58 then
    let i := (a - R.HG_STREAM_RESID 0) / 256
    if s.streamState i = 0 then s.reg a else setBits (s.reg a) 63 32 (s.tokensNow i / 2 ^ 32)
  else if R.ST_CTL 0 ≤ a && a < R.ST_CTL 48 && 0x88 ≤ a % 4096 && a % 4096 < 0xB0 then
    s.layerView ((a - R.ST_CTL 0) / 4096) (a % 4096) a
  else if R.ST_GRP_STAT 0 ≤ a && a < R.ST_GRP_STAT 16 && a % 64 = 0x10 then s.dispView ((a - R.ST_GRP_STAT 0) / 64)
  else if R.ST_GRP_STAT 0 ≤ a && a < R.ST_GRP_STAT 16 && a % 64 = 0x18 then s.headView ((a - R.ST_GRP_STAT 0) / 64)
  else if R.CP_GRP_STAT 0 ≤ a && a ≤ R.CP_GRP_STAT 31 && (a - R.CP_GRP_STAT 0) % 256 = 0 then
    setBits (s.reg a) 47 32 (s.posMask (s.cpMembers ((a - R.CP_GRP_STAT 0) / 256)))
  else if a = R.FW_STEP_NOW then BitVec.ofNat 64 (s.time / max s.stepNs 1)
  else if R.LCK_PEEK_l 0 ≤ a && a < R.LCK_PEEK_l 64 then s.reg (a - 0x200)
  else if R.MBX_CFG 0 ≤ a && a < R.MBX_CFG 64 && a % 64 ≠ 0 then BitVec.ofNat 64 (s.mbxView req (a / 64 % 64) (a % 64))
  else match groupAt a with
    | some _ => s.shadowReg a
    | none => s.reg a

end Sys2Proof.Machine
end

