-- ==== Sys2Proof/Machine/Services.lean ====
section
/-!
DEFINITION. The commands of calibration (R373–R375, R473–R475), time (R375), statistics and logging (R379), attestation
(R380, R484), configuration (R371, R372) and test faults (R382, R528).
-/

namespace Sys2Proof.Machine

/-! ### Calibration -/

/-- A device item (R475); items from 0x8000 on belong to the site. -/
def isDevice (n : Nat) : Bool := n < 0x8000

/-- Item numbers of R475. -/
def listedItem (n : Nat) : Bool :=
  [0x0001, 0x0010, 0x0011, 0x0012, 0x0018, 0x0020, 0x0021, 0x0022, 0x0030].contains n ||
    (decide (0x8000 ≤ n) && decide (n < 0x8400) && decide (n % 256 < 128))

/-- Set digest (R474). -/
def Cal.digest (x : Cal) : List Byte :=
  sha256 (x.items.flatMap (fun (p : Nat × CalItem) => leBytes 4 p.1 ++ leBytes 4 p.2.data.length ++ p.2.data))

/-- Bytes of all items. -/
def Cal.total (x : Cal) : Nat := sumNat (x.items.map (fun (p : Nat × CalItem) => p.2.data.length))

/-- An entry of the directory (R474). -/
def dirEntry (n : Nat) (x : CalItem) : List Byte :=
  fieldsBytes [(2, n), (1, if isDevice n then 0 else 1), (1, bit x.factory), (4, x.place), (4, x.data.length), (4, crc32c x.data),
    (2, x.version)] ++ zeros 14

/-- The directory copy in use (R474): header, entries, with the CRC of the whole. -/
def Cal.directory (x : Cal) : List Byte :=
  let head := fieldsBytes [(4, 0xCA15E7A1), (2, 1), (2, x.items.length), (4, x.seq), (4, x.total)] ++ x.digest ++ zeros 12
  let rest := x.items.flatMap (fun (p : Nat × CalItem) => dirEntry p.1 p.2)
  head ++ leBytes 4 (crc32c (head ++ zeros 4 ++ rest)) ++ rest

/-- Contents of an item as CAL_READ names it: the directory, the certificates of R479, or an item of the set. -/
def State.calSource (s : State) (n : Nat) : Option (List Byte) :=
  if n = 0xFFFF then some s.cal.directory
  else if n = 0xF000 then some s.sec.idChain
  else if n = 0xF001 then some s.sec.attCert
  else s.calItem n

/-- CAL_READ (R373). -/
def State.calRead (s : State) (c : Ctx) : State :=
  match s.calSource (c.p 16 2) with
  | none => s.complete c 0x0308 []
  | some d =>
    let out := (d.drop (c.p 20 4)).take (c.p 24 4)
    s.completeVar c out (leBytes 4 out.length ++ leBytes 4 d.length)

def execCalRead (t : Nat) (cmd : CmdRef) (s : State) : Res := .next ((s.at t).command cmd 0x40 anyForm State.calRead)

/-- Data area of the flash (R473): start and bytes. -/
def calArea : Nat := 0x800000
def calAreaBytes : Nat := 120 * 1048576

/-- Items laid one behind another from the start of the data area, as compaction leaves them (R473). -/
def compact : Nat → List (Nat × CalItem) → List (Nat × CalItem)
  | _, [] => []
  | a, (n, x) :: r => (n, { x with place := a }) :: compact (a + x.data.length) r

/-- Items with room for `n` bytes behind them, and the place of that room (R473). -/
def Cal.room (x : Cal) (n : Nat) : Tab CalItem × Nat :=
  let top := max calArea (maxNat (x.items.map (fun (p : Nat × CalItem) => p.2.place + p.2.data.length)))
  if top + n ≤ calArea + calAreaBytes then (x.items, top) else (compact calArea x.items, calArea + x.total)

/-- A directory is written with its sequence increased (R473). -/
def State.setCal (s : State) (items : Tab CalItem) : State := 
  { s with cal := ⟨items, (s.cal.seq + 1) % 2 ^ 32, s.cal.items⟩ }

/-- The items of a whole set (DEDUCED, log entry 43): a directory copy, then the items' data in the order of its entries. -/
def parseSet : List Byte → List Byte → Nat → Tab CalItem
  | _, _, 0 => []
  | es, ds, n + 1 =>
    let len := fieldAt es 8 4
    tabInsert (parseSet (es.drop 32) (ds.drop len) n) (fieldAt es 0 2)
      ⟨(fieldAt es 3 1).testBit 0, fieldAt es 16 2, ds.take len, fieldAt es 4 4⟩

/-- Lengths of the entries of a directory. -/
def setLengths : List Byte → Nat → List Nat
  | _, 0 => []
  | es, n + 1 => fieldAt es 8 4 :: setLengths (es.drop 32) n

/-- A whole set has the form of R474. -/
def setOk (d : List Byte) : Bool :=
  let n := fieldAt d 6 2
  let dir := d.take (64 + 32 * n)
  fieldAt d 0 4 = 0xCA15E7A1 && fieldAt d 4 2 = 1 && decide (n ≤ 2046) &&
    d.length = 64 + 32 * n + sumNat (setLengths (d.drop 64) n) &&
    fieldAt d 60 4 = crc32c (dir.take 60 ++ zeros 4 ++ dir.drop 64)

/-- CAL_WRITE completes with the first 8 bytes of the new set digest (R373). -/
def State.calDone (s : State) (c : Ctx) (items : Tab CalItem) (flashOk : Bool) : State :=
  if sumNat (items.map (fun (p : Nat × CalItem) => p.2.data.length)) > 64 * 1048576 then s.complete c 0x0206 []
  else if !flashOk then s.complete c 0x0503 []
  else
    let s := s.setCal items
    s.complete c 0 (s.cal.digest.take 8)

/-- CAL_WRITE (R373). -/
def State.calWrite (s : State) (flashOk : Bool) (c : Ctx) : State :=
  let n := c.p 16 2
  let del := (c.p 18 1).testBit 0
  if n = 0xFFFF then
    if del then s.calDone c [] flashOk
    else if !setOk c.data then s.complete c 0x0101 (leBytes 2 0x8000)
    else
      let k := fieldAt c.data 6 2
      let items := parseSet (c.data.drop 64) (c.data.drop (64 + 32 * k)) k
      s.calDone c (compact calArea items) flashOk
  else if !listedItem n then s.complete c 0x0101 (leBytes 2 16)
  else if del then
    if (s.calItem n).isNone then s.complete c 0x0308 [] else s.calDone c (tabErase s.cal.items n) flashOk
  else
    let ver := match tabFind s.cal.items n with
      | some x => x.version
      | none => s.freeVal .itemVersion % 65536
    let r := s.cal.room c.data.length
    s.tickFree.calDone c (tabInsert r.1 n ⟨false, ver, c.data, r.2⟩) flashOk

def execCalWrite (t : Nat) (cmd : CmdRef) (flashOk : Bool) (s : State) : Res :=
  .next ((s.at t).command cmd 0x41 anyForm (fun s c => s.calWrite flashOk c))

/-! ### Time -/

/-- TIME_GET (R375). -/
def State.timeGet (s : State) (c : Ctx) : State :=
  s.complete c 0 (leBytes 8 s.time ++ leBytes 1 (s.get F.TIM_SERVO.STATE) ++ zeros 1 ++
    leBytes 4 (fromSigned 32 (satSigned 32 (s.getS F.TIM_OFFSET.NS))))

def execTimeGet (t : Nat) (cmd : CmdRef) (s : State) : Res := .next ((s.at t).command cmd 0x60 anyForm State.timeGet)

/-- Some stream is open. -/
def State.streamsOpen (s : State) : Bool := (List.range 128).any (fun i => s.streamState i ≠ 0)

/-- A timed activation or timed CONFIG_COMMIT waits. -/
def State.timedPending (s : State) : Bool :=
  (s.waiters wActivate).any (fun c => (c.p 17 1).testBit 0) || !(s.waiters wTimedConfig).isEmpty || !(s.waiters wTimedFw).isEmpty

/-- TIME_SET (R375). -/
def State.timeSet (s : State) (c : Ctx) : State :=
  let st := s.get F.TIM_SERVO.STATE
  if st = 1 || st = 2 || s.streamsOpen || s.timedPending then s.complete c 0x0303 []
  else
    let v := c.p 24 8
    let d := if c.p 16 1 = 0 then v else ((s.time : Int) + toSigned 64 v).toNat
    ({ s with time := d, frac := if c.p 16 1 = 0 then 0 else s.frac }).complete c 0 []

def execTimeSet (t : Nat) (cmd : CmdRef) (s : State) : Res := .next ((s.at t).command cmd 0x61 anyForm State.timeSet)

/-! ### Statistics and logging -/

/-- A 64-bit counter of the register map. -/
def isCounter (a : Nat) : Bool :=
  match regAt a with
  | some (r, _) => r.size = 8 && r.fields = [⟨63, 0, .RO, 0, some 0⟩]
  | none => false

/-- Records of a retained list from index `from'` on, the next index, and whether older ones were asked for: `next` is the
index after the newest. -/
def retained (l : List (List Byte)) (next from' : Nat) : List Byte × Nat × Bool :=
  let oldest := next - l.length
  ((l.drop (from' - oldest)).flatten, next, decide (from' < oldest))

/-- STATS_READ (R379). -/
def State.statsRead (s : State) (c : Ctx) : State :=
  let k := c.p 16 1
  if k = 0 then
    let a := c.p 20 4
    let n := c.p 24 2
    if (List.range n).all (fun j => isCounter (a + 8 * j)) then
      s.completeVar c ((List.range n).flatMap (fun j => leBytes 8 (s.reg (a + 8 * j)).toNat)) (leBytes 4 (8 * n))
    else s.complete c 0x0101 (leBytes 2 20)
  else if k = 3 then
    let gs := if c.p 20 1 = 0xFF then List.range 16 else [c.p 20 1]
    s.completeVar c (gs.flatMap (fun g => leBytes 8 (s.reg (R.ST_GRP_ADM g)).toNat)) (leBytes 4 (8 * gs.length))
  else
    let r := if k = 1 then retained s.aid.log.kept s.aid.log.next (c.p 24 8)
      else retained s.ras.log (s.get F.RAS_SEQ.NEXT) (c.p 24 8)
    s.completeVar c r.1 (leBytes 4 r.1.length ++ leBytes 8 r.2.1 ++ leBytes 1 (bit r.2.2))

def execStatsRead (t : Nat) (cmd : CmdRef) (s : State) : Res := .next ((s.at t).command cmd 0x80 anyForm State.statsRead)

/-- LOG_CONFIG (R346, R379). -/
def State.logConfig (s : State) (c : Ctx) : State :=
  let m := s.aid.mw
  let f := c.p 24 1
  let s := { s with aid := { s.aid with mw := { m with
    trace := if f.testBit 0 then c.p 16 2 else m.trace
    level := if f.testBit 1 then c.p 20 4 else m.level } } }
  s.complete c 0 (leBytes 2 m.trace ++ zeros 2 ++ leBytes 4 m.level)

def execLogConfig (t : Nat) (cmd : CmdRef) (s : State) : Res := .next ((s.at t).command cmd 0x81 anyForm State.logConfig)

/-! ### Attestation -/

/-- Slot entry of a heartbeat and of a report (R407): slot, state, epoch, first 8 bytes of the configuration digest. -/
def slotEntry (n : Nat) (x : ImgSlot) : List Byte :=
  leBytes 1 n ++ leBytes 1 (if x.pending.isSome then 3 else if x.active then 2 else 1) ++ zeros 6 ++ leBytes 8 x.epoch ++
    (x.digest ++ zeros 8).take 8

/-- The report of R484 before its signature. -/
def State.report (s : State) (nonce : List Byte) : List Byte :=
  let n := s.img.slots.length
  fieldsBytes [(4, 0xA77E5701), (2, 1), (2, 600 + 24 * n), (8, s.get F.SEC_SERIAL.SERIAL), (2, s.devNum), (1, 0x10),
      (1, bit (s.flag F.SEC_FUSE.OWNER_SET) + 2 * bit s.sec.debugged), (4, s.get F.SEC_FUSE.ROLLBACK), (8, s.time)] ++
    nonce ++ s.sec.fuses.romDigest ++ s.fwDigest ++ s.aid.upd.digest ++ s.cal.digest ++
    sha256 (s.img.slots.flatMap (fun (p : Nat × ImgSlot) => p.2.digest)) ++ leBytes 4 s.aid.upd.version ++ leBytes 1 n ++
    leBytes 1 (s.aid.upd.active.getD 0xFF) ++ zeros 2 ++ s.img.slots.flatMap (fun (p : Nat × ImgSlot) => slotEntry p.1 p.2)

/-- ATTEST (R380, R484): the signature is made with a key that no part of the spec shows. -/
def State.attest (s : State) (c : Ctx) : State :=
  let body := s.report (sliceAt c.desc 16 16)
  let sig := s.freeBytes .signature 384
  (s.tickBy 384).completeVar c (body ++ sig) (leBytes 2 (body.length + 384))

def execAttest (t : Nat) (cmd : CmdRef) (s : State) : Res := .next ((s.at t).command cmd 0x90 anyForm State.attest)

/-! ### CONFIG_COMMIT -/

/-- An entry of the list (R371): its offset in the buffer, register offset, kind, values. -/
structure CfgEntry where
  at' : Nat
  off : Nat
  kind : Nat
  resv : Nat
  vals : List Nat
  deriving DecidableEq, Repr

/-- The first `n` entries of a buffer from offset `i`; none when the buffer ends first or a count is out of range, with the
offset of that entry. -/
def parseEntries (d : List Byte) : Nat → Nat → List CfgEntry × Option Nat
  | 0, i => ([], if i = d.length then none else some i)
  | n + 1, i =>
    let k := fieldAt d (i + 4) 2
    if k = 0 || k > 16 || i + 8 + 8 * k > d.length then ([], some i)
    else
      let r := parseEntries d n (i + 8 + 8 * k)
      (⟨i, fieldAt d i 4, fieldAt d (i + 6) 1, fieldAt d (i + 7) 1, (List.range k).map (fun j => fieldAt d (i + 8 + 8 * j) 8)⟩ :: r.1, r.2)

/-- The registers of an entry with their values. -/
def CfgEntry.regs (e : CfgEntry) : List (Nat × Nat) := (List.range e.vals.length).map (fun j => (e.off + 8 * j, e.vals.getD j 0))

/-- A register that CONFIG_COMMIT may reach with a value (R372, R409). -/
def State.cfgAllowed (s : State) (e : CfgEntry) (a v : Nat) : Bool :=
  let w := BitVec.ofNat 64 v
  let net := (a - 0x160000) % 0x2000
  if (regAt a).isNone || a % 8 ≠ 0 then false
  else if blockRow a = 3 then a ≤ R.HG_JRN_SIZE || a = R.HG_GLB_COMMIT || a = R.HG_ERR
  else if blockRow a = 4 then a ≠ R.FRF_CNT_LATE && a ≠ R.FRF_CNT_RPT_DROP
  else if blockRow a = 5 then
    a ≤ R.FW_CKPT_BASE || a = R.FW_GLB_COMMIT || a = R.FW_STAT || (a = R.FW_TBL_ADDR && F.FW_TBL_ADDR.TABLE.of w = 2) ||
      (a = R.FW_TBL_DATA && e.off = R.FW_TBL_ADDR)
  else if blockRow a = 8 then
    a = R.MEM_CTL || a = R.MEM_ERR || (R.MEM_RGN_BASE 0 ≤ a && a < R.MEM_RGN_BASE 32)
  else if blockRow a = 10 then true
  else if blockRow a = 11 then
    if a = R.NET_CTL then F.NET_CTL.MODE.of w = F.NET_CTL.MODE.of (s.shadowReg a)
    else if a = R.NET_IP4 || a = R.NET_IP6_LO || a = R.NET_IP6_HI || a = R.NET_GLB_COMMIT then true
    else if R.NET_FDB_ADDR ≤ a && a ≤ R.NET_VLAN_DATA then true
    else if R.NET_ERP_k 0 ≤ a && a < R.NET_ERP_k 8 then true
    else if R.NET_PEER_CTL 0 ≤ a && a < R.NET_PEER_CTL 16 then
      if a % 32 = 0 then
        let k := (a - R.NET_PEER_CTL 0) / 32
        (F.NET_PEER_CTL.BUDDY k).of w = (F.NET_PEER_CTL.BUDDY k).of (s.shadowReg a)
      else a % 32 ≠ 24
    else if R.NET_PEER_COMMIT 0 ≤ a && a < R.NET_PEER_COMMIT 16 then true
    else if R.NET_EXP_CTL 0 ≤ a && a < R.NET_EXP_CTL 32 then a % 64 ≤ 32
    else net = 0 || net = 0x10
  else if blockRow a = 12 then a = R.TIM_SERVO || a = R.TIM_PPS || a = R.TIM_BC || a = R.TIM_COMMIT
  else false

/-- The group of a kind-0 entry, when all its registers lie in one (R371). -/
def CfgEntry.group (e : CfgEntry) : Option Nat :=
  match groupAt e.off with
  | some c => if e.regs.all (fun p => groupAt p.1 = some c) then some c else none
  | none => none

/-- True when an entry may be applied at all (R371, R372). -/
def State.cfgOk (s : State) (e : CfgEntry) : Bool :=
  e.resv = 0 && decide (e.kind < 2) && e.regs.all (fun p => s.cfgAllowed e p.1 p.2) && (e.kind = 1 || e.group.isSome)

/-- True when an entry changes an RWL field (R371). -/
def State.cfgLocked (s : State) (e : CfgEntry) : Bool :=
  s.flag F.SYS_CTL.SETUP_LOCK && e.regs.any (fun p => match regAt p.1 with
    | some (r, _) => ((s.readReg hostReq p.1 ^^^ BitVec.ofNat 64 p.2) &&& maskWhere (fun x => x = .RWL) r.fields) ≠ 0
    | none => false)

/-- The entries are applied in order; the command completes at the first that fails, else after the last (R371). -/
def State.cfgApply (s : State) (c : Ctx) : Nat → List CfgEntry → State
  | _, [] => s.complete c 0 []
  | i, e :: es =>
    let req := s.aidReq 5
    if s.cfgLocked e then s.complete c 0x0305 []
    else match (if e.kind = 0 then e.group else none) with
      | none => ((s.each e.regs (fun s p => s.writeReg req p.1 8 p.2))).cfgApply c (i + 1) es
      | some g =>
        let base := match regAt g with
          | some (r, is) => (r.base, is.headD 0)
          | none => (g, 0)
        let r := s.tryCommit req g e.regs (fun s => s.commitWrite req g base.1 base.2 1)
        match r.2 with
        | none => r.1.cfgApply c (i + 1) es
        | some code => r.1.complete c 0x0108 (commitData i g code)

/-- The entries of a CONFIG_COMMIT, or the offset of the first that is not well formed or not allowed. -/
def State.cfgEntries (s : State) (c : Ctx) : List CfgEntry × Option Nat :=
  let r := parseEntries c.data (c.p 16 2) 0
  match r.1.find? (fun e => !s.cfgOk e) with
  | some e => (r.1, some e.at')
  | none => r

/-- CONFIG_COMMIT (R371). -/
def State.configCommit (s : State) (c : Ctx) : State :=
  let r := s.cfgEntries c
  match r.2 with
  | some o => s.complete c 0x0101 (leBytes 2 (0x8000 + o))
  | none =>
    if (c.p 18 1).testBit 0 then
      let t := c.p 24 8
      if t < s.time + 1000000 || t > s.time + 86400 * 1000000000 then s.complete c 0x0106 [] else s.await c wTimedConfig t
    else s.cfgApply c 0 r.1

def execConfigCommit (t : Nat) (cmd : CmdRef) (s : State) : Res :=
  .next ((s.at t).command cmd 0x38 anyForm State.configCommit)

/-- The time of the earliest timed CONFIG_COMMIT comes (R371). -/
def State.timedConfig (s : State) : State :=
  match earliest (s.waiters wTimedConfig) with
  | none => s
  | some c => (s.at c.arg).cfgApply c 0 (s.cfgEntries c).1

def execTimedConfigCommit (s : State) : Res := .next s.timedConfig.mirrorConfig

/-! ### Test faults -/

/-- Index under which a part's error records name it: a link from its end of lower number (R416). -/
def partIndex (part i : Nat) : Nat := if part = pLink then linkIndex i else i

/-- A part is failed now. -/
def State.partFailed (s : State) (part i : Nat) : Bool :=
  if part = pTile then s.get (F.ST_STAT.STATE i) = 4
  else if part = pFurrow then s.get (F.FW_CORE_STAT.STATE i) = 3
  else if part = pCoppice then s.get (F.CP_UNIT_STAT.STATE i) = 2
  else if part = pCore then (s.get F.MBX_CORE_STAT.FAILED).testBit i
  else if part = pPseudo then s.lostPcs.contains i && !s.mm.healed.contains i
  else if part = pLink then s.linkOut i
  else if part = pPort then s.flag (F.NET_PORT_STAT.FAILED i)
  else false

/-- The fault would be FATAL under R261 or R330. -/
def State.wouldBeFatal (s : State) (part i : Nat) : Bool :=
  if part = pPseudo then
    let lost := s.lostPcs.filter (fun p => !s.mm.healed.contains p)
    lost.any (fun p => p / 8 = i / 8) || decide (lost.length ≥ 8)
  else if part = pCore then (s.liveCores.filter (fun c => c ≠ i)).length < 2
  else false

/-- The part fails at the injection instant (R382): its detection comes with the row of its kind. -/
def State.inject' (s : State) (c : Ctx) : State :=
  let part := c.p 16 1
  let i := c.p 18 2
  if s.wouldBeFatal part i || s.partFailed part i || s.isInjected part (partIndex part i) then s.complete c 0x0303 []
  else
    let x : Injected := ⟨part, partIndex part i, s.time, none, false⟩
    let s := { s with aid := { s.aid with tests := s.aid.tests ++ [x] } }
    let s := if part = pPort then { s with net := { s.net with testDown := s.net.testDown ||| 2 ^ i } } else s
    s.await c wTestRecover (partIndex part i)

/-- A physical core that held a logical core out of service takes it up again from its newest checkpoint (R528). -/
def State.coreAgain (s : State) (c : Nat) : State :=
  (s.put (F.FW_CORE_STAT.STATE c) 1).coreBack c (s.get (F.FW_CORE_CFG.LOGICAL c)) (s.fcore c)

/-- A part returns to service (R528). -/
def State.restorePart (s : State) (part i : Nat) : State :=
  if part = pTile then (s.put (F.ST_CTL.ENABLE i) 1).put (F.ST_STAT.STATE i) 1
  else if part = pFurrow then
    let out := (List.range 96).find? (fun c => s.get (F.FW_CORE_STAT.STATE c) = 3 && s.get (F.FW_CORE_CFG.LOGICAL c) ≠ 0x7F)
    let idle := fun (s : State) =>
      ((s.put (F.FW_CORE_CFG.ENABLE i) 1).put (F.FW_CORE_CFG.LOGICAL i) 0x7F).put (F.FW_CORE_STAT.STATE i) 4
    match out with
    | some c =>
      let l := s.get (F.FW_CORE_CFG.LOGICAL c)
      if c = i then s.coreAgain i
      else (idle s).coreMove c i l
    | none => idle s
  else if part = pCoppice then s.put (F.CP_UNIT_STAT.STATE i) (bit (s.flag F.CP_CTL.ENABLE))
  else if part = pCore then s.rejoin i
  else if part = pPseudo then { s with mm := { s.mm with healed := i :: s.mm.healed } }
  else if part = pLink then { s with mm := { s.mm with relinked := linkIndex i :: s.mm.relinked } }
  else { s with net := { s.net with testDown := setMinus s.net.testDown (2 ^ i), downSince := tabInsert s.net.downSince i s.time } }

/-- RESTORE of a part that failed under TEST_FAULT (R382, R528). -/
def State.restoreTest (s : State) (c : Ctx) : State :=
  let part := c.p 16 1
  let i := c.p 18 2
  let j := partIndex part i
  if part = pQueue || !s.isInjected part j || !s.partFailed part i then s.complete c 0x0303 []
  else
    let s := { s with aid := { s.aid with tests := s.aid.tests.filter (fun (x : Injected) => !(x.part = part && x.index = j)) } }
    let s := s.restorePart part i
    let s := (s.health hEvent 0x11 0 (part + 256 * j) s.adm.floor 0 j).askCapacity
    s.complete c 0 (zeros 10)

/-- Bit 1 of the flags of a TEST_FAULT. -/
def isRestore (c : Ctx) : Bool := (c.p 20 1).testBit 1

/-- TEST_FAULT (R382): an injection at once, a timed one or a restore waits for its row. -/
def State.testFault (s : State) (c : Ctx) : State :=
  let timed := (c.p 20 1).testBit 0
  if timed || isRestore c then s.await c wTestInject (if timed then c.p 24 8 else s.time) else s.inject' c

def execTestFault (t : Nat) (cmd : CmdRef) (s : State) : Res := .next ((s.at t).command cmd 0xF0 anyForm State.testFault)

/-- The oldest waiting TEST_FAULT that satisfies a condition and is due. -/
def State.testDue (s : State) (p : Ctx → Bool) : Option Ctx := (s.waiters wTestInject).find? (fun c => p c && decide (c.arg ≤ s.time))

/-- A timed TEST_FAULT reaches its injection instant. -/
def State.testInjection (s : State) : State :=
  match s.testDue (fun c => !isRestore c) with
  | some c => s.inject' c
  | none => s

def execTestFaultInjection (t : Nat) (s : State) : Res := .next (s.at t).testInjection

/-- A TEST_FAULT with RESTORE takes effect. -/
def State.testRestore (s : State) : State :=
  match s.testDue isRestore with
  | some c => s.restoreTest c
  | none => s

def execTestFaultRestore (t : Nat) (s : State) : Res := .next (s.at t).testRestore

/-! ### Accesses to device addresses -/

/-- Requester number of an agent of the mesh (R24, R316, R269); 0 for one that has none. -/
def requesterOf (agent : Nat) : Nat :=
  let s := agent / 4
  if 82 ≤ s && s ≤ 85 && agent % 4 < 2 then 2 * (s - 82) + agent % 4 + 1
  else if 24 ≤ s && s < 72 then 9 + (s - 24)
  else if 4 ≤ s && s < 12 then 57
  else if s = 86 then 58
  else if 72 ≤ s && s < 80 then 59
  else if 88 ≤ s && s < 92 then 60
  else if s = 12 || s = 13 then 61
  else if 92 ≤ s && s < 96 then 62 else 0

/-- The 8 bytes of a register slot as a requester reads them (R499). -/
def State.readSlot (s : State) (req slot : Nat) : Nat :=
  match s.regHere slot with
  | some (r, _) =>
    if r.size = 8 then (s.readReg req slot).toNat
    else (s.readReg req slot).toNat % 2 ^ 32 + (if (s.regHere (slot + 4)).isSome then (s.readReg req (slot + 4)).toNat % 2 ^ 32 * 2 ^ 32 else 0)
  | none => if (s.regHere (slot + 4)).isSome then (s.readReg req (slot + 4)).toNat % 2 ^ 32 * 2 ^ 32 else 0

/-- Registers of a mailbox that its two requesters alone may use (R333). -/
def isMbxOwn (off : Nat) : Bool := R.MBX_CFG 0 ≤ off && off < R.MBX_CFG 64 && off % 64 ≠ 0

/-- A register read through the device-space mirror (R264, R499, R500), with what the read itself does: it acquires a lock (R338),
takes a word from a mailbox (R334) or a transmit timestamp from its queue (R396), latches the time's fraction (R391), or
steps the index of the furrow tables (R126). -/
def State.mirrorRead (s : State) (req off n : Nat) : State :=
  let slot := off / 8 * 8
  if !accessOk off n then (s.sysErr F.SYS_ERR.BAD_ACCESS req n off).emit (.readData req off 0)
  else if (s.regHere slot).isNone && (s.regHere (slot + 4)).isNone then
    (s.sysErr F.SYS_ERR.UNMAPPED req n off).emit (.readData req off 0)
  else if R.LCK_l 0 ≤ off && off < R.LCK_l 64 then s.lockRead req ((off - R.LCK_l 0) / 8)
  else if isMbxOwn off && (s.endOf (off / 64 % 64) req).isNone then s.foreign.emit (.readData req off 0)
  else if isMbxOwn off && off % 64 / 8 = 2 then s.mbxRecv req (off / 64 % 64)
  else
    let stamps := decide ((regAt slot).map (·.1.base) = some (R.NET_PORT_TXTS_ID 0))
    let s := if slot = R.TIM_NOW then s.latchTime
      else if stamps && isControlCore req then s.popEntry ((regAt slot).elim 0 (·.2.headD 0)) else s
    let v := if stamps && !isControlCore req then 0 else s.readSlot req slot
    let s := s.emit (.readData req off (if n = 8 then v else if off = slot then v % 2 ^ 32 else v / 2 ^ 32))
    if slot = R.FW_TBL_DATA then s.tblNext else s

/-- An access to the register space by an agent of the mesh (R264): as BAR0, with the agent's requester number. -/
def State.regAccess (s : State) (agent off : Nat) (write : Bool) (data : List Byte) (n : Nat) : State :=
  let req := requesterOf agent
  if req = 0 then s
  else if write then s.asReq req off n (leNat data) (fun s => s.writeReg req off n (leNat data))
  else s.asReader req off n (fun s => s.mirrorRead req off n)

/-- What an uncorrectable error in the SRAM of a part means for the part (R103, R122, R128, R218): its fault. -/
def State.sramFault (s : State) (a : Nat) : State :=
  match windowOf a with
  | .tileSram true => let t := (a - 0x400000000000) / 0x1000000; s.tileFail t 1 (s.testFlag pTile t)
  | .furrow true => let c := (a - 0x410000000000) / 0x100000; s.coreFail c 2 (s.testFlag pFurrow c)
  | .slotCache => let u := (a - 0x420000000000) / 0x800000; s.unitFail u 2 (s.testFlag pCoppice u)
  | _ => s

/-- An access that reaches its memory or the register space (R256, R264); an uncorrectable error of an SRAM is also its part's
fault. -/
def State.memServe (s : State) (agent a : Nat) (write : Bool) (data : List Byte) (n : Nat) (ecc : Ecc) : State :=
  match windowOf a with
  | .regs => s.regAccess agent (a - 0x7F0000000000) write data n
  | _ =>
    let s := s.access agent a write data n ecc
    if !write && (ecc = .both || ecc = .oneCopy) then s.sramFault a else s

/-- A row of the memory system (R256, R264, R319): what a control core's check unit does not let pass is blocked and traps; what
goes to a domain that is off stalls (R453). -/
def State.memAccess (s : State) (agent a : Nat) (write : Bool) (data : List Byte) (n : Nat) (ecc : Ecc) : State :=
  let req := requesterOf agent
  let core := req - 1
  if isControlCore req && !(s.unit core).allows a n (if write then .store else .load) then
    { s with aid := { s.aid with traps := s.aid.traps ||| 2 ^ core } }
  else if s.domainOff (memDomain a) then s.stall (memDomain a) (.mem agent a write data n ecc)
  else s.memServe agent a write data n ecc

def execDramAccess (t agent addr : Nat) (write : Bool) (data : List Byte) (len : Nat) (ecc : Ecc) (s : State) : Res :=
  .next ((s.at t).memAccess agent addr write data len ecc)

end Sys2Proof.Machine
end

