-- ==== Sys2Proof/Machine/Start.lean ====
section
/-!
DEFINITION. The cold start (R460–R464, R466, R468, R469), enumeration on the management bus (R471) and the debug port
(R492–R494).  A cold start runs in one step up to its wait for an address (step 14); the assignment of the address ends it.
-/

namespace Sys2Proof.Machine

/-! ### What is kept and what is sensed -/

/-- Clear device state as a cold reset leaves it: the flash, the fuses and the counts that AON holds from start to start
stay (R466, R469, R473, R476); the commands that wait, what left the package and the counter of free values belong to the
model. -/
def State.coldBase (s : State) : State :=
  { State.reset with
    pending := s.pending, out := s.out, fresh := s.fresh
    regs := [(R.SEC_SERIAL, s.reg R.SEC_SERIAL), (R.SEC_FUSE, setBits (s.reg R.SEC_FUSE) 0 0 0)]
    aid := { Aid.reset with upd := { s.aid.upd with handover := none, deferred := none } }
    cal := s.cal
    sec := { Sec.reset with
      fuses := s.sec.fuses, keys := s.sec.keys, masks := s.sec.masks, caks := s.sec.caks, older := s.sec.older,
      idChain := s.sec.idChain, attCert := s.sec.attCert, attModulus := s.sec.attModulus }
    aon := { Aon.reset with
      fails := s.aon.fails, failStep := s.aon.failStep, failCause := s.aon.failCause, failDetail := s.aon.failDetail,
      escalated := s.aon.escalated, escCause := s.aon.escCause, enumIn := s.aon.enumIn } }

/-- The fuse array is shadowed (R464 step 4, R476, R495). -/
def State.senseFuses (s : State) (f : FuseImage) : State :=
  let s := { s with sec := { s.sec with fuses := ⟨f.secret, f.rootHash, f.ownerHash, f.mfgKey, f.romDigest⟩ } }
  let s := s.put F.SEC_SERIAL.SERIAL f.serial
  let s := (s.put F.SEC_FUSE.ROLLBACK (min f.rollback 64)).put F.SEC_FUSE.DEBUG_STATE f.debug
  (s.put F.SEC_FUSE.GRADE_E (bit f.gradeE)).put F.SEC_FUSE.OWNER_SET (bit f.ownerSet)

/-- A patch slot as the flash gives it: EMPTY without an image. -/
def flashSlot (img : List Byte) (active : Bool) : PatchSlot :=
  if img.isEmpty then ⟨0, 0, 0, [], [], []⟩ else patchOf img (if active then 2 else 1)

/-- The flash as it is found. -/
def State.readFlash (s : State) (f : FlashImage) : State :=
  let items := f.items.foldl (fun (t : Tab CalItem) (x : Nat × Bool × Nat × Nat × List Byte) =>
    tabInsert t x.1 ⟨x.2.1, x.2.2.1, x.2.2.2.2, x.2.2.2.1⟩) []
  let s := s.setUpd ⟨flashSlot f.slotA (f.active = 0), flashSlot f.slotB (f.active = 1), none, none⟩
  State.twoCopies { s with
    cal := ⟨items, f.seq, items⟩
    sec := { s.sec with
      keys := f.keys.foldl (fun (t : Tab (List Byte)) (x : Nat × List Byte × Nat) => tabInsert t x.1 x.2.1) []
      masks := f.keys.foldl (fun (t : Tab Nat) (x : Nat × List Byte × Nat) => tabInsert t x.1 x.2.2) []
      caks := f.caks.foldl (fun (t : Tab (List Byte × List Byte)) (x : Nat × List Byte × List Byte) => tabInsert t x.1 x.2) []
      idChain := f.idChain, attCert := f.attCert, attModulus := f.attModulus } }

/-- Straps are sampled (R461). -/
def State.sampleStraps (s : State) (b : Boot) : State :=
  ((s.put F.SYS_STAT.CHAIN_ID b.chainId).put F.SYS_STAT.PERST_MODE (bit b.perstHigh)).put F.SYS_STAT.BIST_EN (bit b.bistEn)

/-- The straps as AON holds them. -/
def State.keepStraps (s before : State) : State :=
  ((s.put F.SYS_STAT.CHAIN_ID (before.get F.SYS_STAT.CHAIN_ID)).put F.SYS_STAT.PERST_MODE (before.get F.SYS_STAT.PERST_MODE)).put
    F.SYS_STAT.BIST_EN (before.get F.SYS_STAT.BIST_EN)

/-! ### Steps of a cold start -/

/-- Rails, PLL, domains and the thermal limits of the ordering code (R444, R446, R464). -/
def State.powerUp (s : State) : State :=
  let s := (s.put F.PWR_RAIL.EN 0xFF).put F.PWR_RAIL.PGOOD 0xFF
  let s := (s.put F.PWR_DOM.READY 0x7F).put F.PWR_DOM.ISO 0
  let s := (s.put F.CLK_STAT.REF_OK 1).put F.CLK_STAT.ROOT_LOCK 1
  let e := s.flag F.SEC_FUSE.GRADE_E
  let s := (s.put F.SYS_ID.GRADE_E (bit e)).put F.SEC_FUSE.FUSE_OK 1
  let l := thermalLimits e
  let s := (s.put F.PWR_TEMP.THROTTLE_C (fromSigned 8 l.1)).put F.PWR_TEMP.TRIP_C (fromSigned 8 l.2.2)
  s.setPow { s.pow with mv := 620, confirmed := 620 }

/-- The host link trains (R464 step 5): speed 0 while it does not. -/
def State.linkStart (s : State) (b : Boot) : State :=
  if b.speed = 0 then s
  else
    let s := ((s.put F.HIF_STAT.LINK_UP 1).put F.HIF_STAT.LINK_SPEED b.speed).put F.HIF_STAT.LINK_WIDTH b.width
    ({ s with hif := { s.hif with cxl := b.cxl } }).showWatch

/-- The host link is down (R308, R450). -/
def State.linkLost (s : State) : State :=
  let s := ((s.put F.HIF_STAT.LINK_UP 0).put F.HIF_STAT.LINK_SPEED 0).put F.HIF_STAT.LINK_WIDTH 0
  { s.put F.HIF_STAT.WATCH_MODE 0 with hif := { s.hif with cxl := false } }

/-- The control cores start in KERNEL with their mailboxes bound, and singleton c runs on core c mod 8 (R318, R319, R348). -/
def State.startCores (s : State) : State :=
  let s := (s.put F.MBX_CORE_STAT.IN_SERVICE 0xFF).bindBoxes
  let s := s.each (List.range 8) (fun s c => (s.readyEnds c).gate c 0)
  { s with aid := { s.aid with homes := (List.range 16).foldl (fun (h : Tab Nat) (k : Nat) => tabInsert h k (k % 8)) [], cores := [] } }

/-- Items of the set that are device items (R475). -/
def deviceItems : List Nat := [0x0001, 0x0010, 0x0011, 0x0012, 0x0018, 0x0020, 0x0021, 0x0022, 0x0030]

/-- A RECOVERED record of part 12 whose address and detection fields hold two numbers (R475). -/
def State.otherRecord (s : State) (addr at' : Nat) : State := s.errRecordAt ⟨.recovered, pOther, 0, 0, 0, 0, 0, 1, addr, 0⟩ at'

/-- The calibration set (R464 step 10, R473–R475): the valid directory copy with the higher sequence, without the items whose
data fail their CRC; one record names what is missing or that the digest differs. -/
def State.loadCal (s : State) (b : Boot) : State :=
  let dir : Tab CalItem := if b.dirCopies.testBit 0 then s.cal.items else if b.dirCopies.testBit 1 then s.cal.older else []
  let named := (⟨dir, 0, []⟩ : Cal).digest
  let items := tabEraseAll dir b.badItems
  let used := (⟨items, 0, []⟩ : Cal).digest
  let s := { s with cal := { s.cal with items := items } }
  let missing := deviceItems.any (fun n => (tabFind items n).isNone)
  if named ≠ used then s.otherRecord (leNat (named.take 8)) (leNat (used.take 8))
  else if missing then s.otherRecord 0 s.time
  else s

/-- The MAC address and the delays that come from the calibration set (R475): an item's format is the firmware's, so that the
delay an item gives is free. -/
def State.applyCal (s : State) : State :=
  let mac := match s.calItem 0x0001 with
    | some d => beNat (d.take 6)
    | none => 0x02 * 2 ^ 40 + s.get F.SEC_SERIAL.SERIAL % 2 ^ 40
  let s := s.put F.NET_MAC.ADDR mac
  let s := if (s.calItem (0x0010 + s.get F.NET_CTL.MODE)).isSome then
      s.each (List.range 16) (fun s p =>
        (s.setReg (R.NET_PORT_DLY p) (BitVec.ofNat 64 (s.freeVal .portDelay))).tickFree)
    else s
  if (s.calItem 0x0018).isSome then (s.put F.TIM_PPS.OUT_COMP (s.freeVal .portDelay)).tickFree else s

/-- The key store (R464, R478): copy bits as in `Boot.keyCopies`. -/
def State.loadKeys (s : State) (b : Boot) : State :=
  let s := if b.keyCopies % 4 = 3 then s else s.put F.SEC_ERR.KEYSTORE 1
  let s :=
    if b.keyCopies.testBit 0 then s
    else if b.keyCopies.testBit 1 then
      { s with sec := { s.sec with keys := s.sec.older.keys, masks := s.sec.older.masks, caks := s.sec.older.caks } }
    else ({ s with sec := { s.sec with keys := [], masks := [], caks := [] } }).errRecord
      ⟨.recovered, pOther, 0, 0, 0, 0, 0, 1, 0, 0⟩
  s.showKeys

/-- A patch slot that fails checks 2 to 6 is treated as EMPTY (R482). -/
def State.recheck (s : State) (x : PatchSlot) : PatchSlot :=
  if x.state = 0 || s.patchCheck x.image ≠ 0 then ⟨0, 0, 0, [], [], []⟩ else x

/-- A slot that the checks of R482 refuse counts as an image on a signature or digest failure (R495, R496). -/
def State.countRefused (s : State) (x : PatchSlot) : State :=
  if x.state ≠ 0 && s.patchCheck x.image = 0x0403 then (s.bump R.SEC_CNT_SIG_FAIL).put F.SEC_ERR.SIG_BAD 1 else s

/-- The patch images (R464 step 11, R482, R483): the active slot first, whose level the counter then takes; then the other. -/
def State.loadPatches (s : State) : State :=
  let u := s.aid.upd
  let a := u.active.getD 0
  let s := (s.countRefused (u.slot a)).countRefused (u.slot (1 - a))
  let x := s.recheck (u.slot a)
  let s := if x.state = 2 then s.put F.SEC_FUSE.ROLLBACK (max (s.get F.SEC_FUSE.ROLLBACK) x.level) else s
  let y := s.recheck (u.slot (1 - a))
  let u := (u.setSlot a x).setSlot (1 - a) y
  let s := s.setUpd u
  let s := if x.state = 0 then s else s.loadSlot a x.image
  let s := if y.state = 0 then s else s.loadSlot (1 - a) y.image
  { s with aon := { s.aon with bound := if x.state = 2 then x.digest else [] } }

/-- A new debug nonce is drawn (R493). -/
def State.drawNonce (s : State) : State :=
  ({ s with sec := { s.sec with nonce := s.freeBytes .nonce 16 } }).tickBy 16

/-- Pseudo-channels that do not train lie within what R261 relocates. -/
def relocatable (l : List Nat) : Bool :=
  decide (l.length ≤ 8) && decide ((l.map stopOfPc).Nodup)

/-- A cold start fails (R468, R469): all rails but VDD_AON and VDD_IO go off; the third failure in a row is failsafe. -/
def State.coldFail (s : State) (f : StartFail) : State :=
  let n := min 3 (s.aon.fails + 1)
  let base := (s.coldBase.keepStraps s).put F.SYS_STAT.START_SRC (s.get F.SYS_STAT.START_SRC)
  let base := ((base.at s.time).put F.PWR_RAIL.EN 1).put F.PWR_RAIL.PGOOD 1
  let base := (base.put F.PWR_DOM.READY 0x40).put F.PWR_DOM.ISO 0x3F
  { base with aon := { base.aon with
    phase := if n = 3 then .failsafe else .retry
    startAt := s.time, fails := n, failStep := f.step, failCause := f.cause, failDetail := f.detail } }

/-- Steps 2 to 13 of a cold start on a cleared device. -/
def State.coldSteps (s : State) (b : Boot) : State :=
  match b.fail with
  | some f => s.coldFail f
  | none =>
    if !relocatable b.lostPcs then s.coldFail ⟨8, 0x06, b.lostPcs.headD 0 % 256⟩
    else
      let s := ((s.powerUp.loadKeys b).linkStart b).startCores
      let s := s.each b.lostPcs (fun s p => s.pcFail p 3 0)
      ((s.loadCal b).applyCal.loadPatches).drawNonce

/-- A cold start begins (R464): `src` as START_SRC codes it; `sample` when the straps are sampled; `lost` the failing step of
the warm start before it, whose loss the first record reports (R466). -/
def State.coldStart (s : State) (src : Nat) (sample : Bool) (lost : Option Nat) (b : Boot) : State :=
  let x := s.coldBase
  let x := if sample then x.sampleStraps b else x.keepStraps s
  let x := match b.fuses with
    | some f => x.senseFuses f
    | none => x
  let x := match b.flash with
    | some f => x.readFlash f
    | none => x
  let x := x.put F.SYS_STAT.START_SRC src
  let x := { x with aon := { x.aon with phase := .starting, startAt := 0 } }
  let x := match lost with
    | some step => x.health hEvent 0x14 0 step 0 0 0
    | none => x
  x.coldSteps b

/-- VDD_AON rises (R460): a cold start with every AON count cleared. -/
def execPowerOn (t : Nat) (boot : Boot) (s : State) : Res :=
  .next (({ s.at t with aon := Aon.reset }).coldStart 0 true none boot)

/-- RST_N is released (R460, R469). -/
def State.rstRelease (s : State) (b : Boot) : State :=
  if s.aon.phase = .off then s else ({ s with aon := { s.aon with fails := 0 } }).coldStart 1 true none b

def execRstN (t : Nat) (boot : Boot) (s : State) : Res := .next ((s.at t).rstRelease boot)

/-- 100 ms after a failed cold start it is repeated (R468). -/
def State.coldRetry (s : State) (b : Boot) : State :=
  if s.aon.phase ≠ .retry || s.time < s.aon.startAt + 100000000 then s
  else s.coldStart (s.get F.SYS_STAT.START_SRC) false none b

def execColdStartRetry (t : Nat) (boot : Boot) (s : State) : Res := .next ((s.at t).coldRetry boot)

/-- Step 15 is not reached within 3 s of the start (R468). -/
def State.readyLate (s : State) : State :=
  if s.aon.phase ≠ .starting || s.time < s.aon.startAt + 3000000000 then s else s.coldFail ⟨15, 0x09, 0⟩

def execReadyTimeout (t : Nat) (s : State) : Res := .next ((s.at t).readyLate)

/-- VDD_AON leaves its range (R522): everything that AON, retention and DRAM hold is lost; flash and fuses stay. -/
def State.aonLost (s : State) : State :=
  let b := s.coldBase
  { b with aon := Aon.reset }

def execVddAonLoss (t : Nat) (s : State) : Res := .next (s.at t).aonLost

/-- Step 15: firmware is ready (R464), and the power manager targets its point (R443). -/
def State.setReady (s : State) : State :=
  let s := ((s.put F.HIF_STAT.FW_READY 1).put F.SYS_STAT.FW_READY 1).put F.PWR_DVFS.TARGET s.target
  { s with aon := { s.aon with phase := .up, fails := 0 } }

/-! ### Pins and pages -/

/-- Level of ALIVE (R464, R469, R472, R516). -/
def State.alive (s : State) : Bool := s.aon.phase = .up

/-- FAULT_N asserted (R415, R454, R469). -/
def State.faultPin (s : State) : Bool := s.faultAsserted || s.aon.phase = .failsafe || s.flag F.PWR_WAKE_STAT.LOCKOUT

/-- The status page (R457). -/
def State.statusPage (s : State) : List Byte :=
  leBytes 1 (if s.aon.phase = .failsafe then 4 else s.get F.PWR_STOP.STATE) ++ leBytes 1 (s.get F.PWR_WAKE_STAT.CAUSE) ++
    leBytes 1 (s.get F.PWR_WAKE_STAT.INDEX) ++
    leBytes 1 (s.get F.PWR_WAKE_STAT.ATTEMPTS + 128 * s.get F.PWR_WAKE_STAT.LOCKOUT) ++
    leBytes 1 (s.get F.PWR_RET_STAT.DISCARDED) ++ leBytes 1 (s.get F.PWR_STOP.ABORT) ++ leBytes 2 s.devNum

/-- The start-failure page (R469). -/
def State.failPage (s : State) : List Byte :=
  leBytes 1 s.aon.fails ++ leBytes 1 s.aon.failStep ++ leBytes 1 s.aon.failCause ++ leBytes 1 s.aon.failDetail ++
    leBytes 1 s.aon.escalated ++ leBytes 1 s.aon.escCause ++ zeros 2

/-- Serial, most significant byte first. -/
def State.serialBytes (s : State) : List Byte := beBytes 8 (s.get F.SEC_SERIAL.SERIAL)

/-- The ID page (R470). -/
def State.idPage (s : State) : List Byte :=
  leBytes 2 0x9128 ++ leBytes 1 0x10 ++
    leBytes 1 (s.get F.SYS_STAT.ADDRESSED + 2 * bit s.aon.enumIn + 4 * bit s.aon.enumOut) ++ leBytes 2 s.devNum ++
    leBytes 1 (s.get F.SYS_STAT.CHAIN_ID) ++ leBytes 1 (s.get F.SYS_STAT.POSITION) ++ s.serialBytes

/-! ### Enumeration -/

/-- Assigned address of a position (R471 rule 4). -/
def addrOf (p : Nat) : Nat := if p = 50 then 0x48 else 0x08 + p

/-- The device holds an address. -/
def State.addressed (s : State) : Bool := s.flag F.SYS_STAT.ADDRESSED

/-- The address that the device answers, if any (R471 rules 1 and 4). -/
def State.busAddr (s : State) : Option Nat :=
  if s.aon.phase = .off then none
  else if s.addressed then some (addrOf (s.get F.SYS_STAT.POSITION))
  else if s.aon.enumIn then some 0x3A else none

def execEnumInChange (t : Nat) (level : Bool) (s : State) : Res :=
  .next (let s := s.at t
    { s with aon := { s.aon with enumIn := level } })

/-- A read at pointer 0xE0 (R471 rules 2 and 6): an unaddressed device with ENUM_IN high drives its serial and loses to a
lower one; an addressed device answers its own address with 0xFF bytes. -/
def State.arbitrate (s : State) (addr : Nat) (others : List Nat) : State :=
  if s.busAddr ≠ some addr then s
  else if s.addressed then s.emit (.bus (List.replicate 8 0xFF#8))
  else
    let mine := s.get F.SEC_SERIAL.SERIAL
    if others.any (fun x => decide (x < mine)) then { s with aon := { s.aon with lostArb := true } }
    else s.emit (.bus s.serialBytes)

def execArbitrationRead (t addr : Nat) (others : List Nat) (s : State) : Res := .next ((s.at t).arbitrate addr others)

/-- A SETPOS write to 0x3A (R471 rules 3 to 5): a device that takes it answers its assigned address, takes its number and
drives ENUM_OUT; step 14 of a cold start ends with it, and the start with step 15. -/
def State.setPosition (s : State) (bs : List Byte) : State :=
  if s.busAddr ≠ some 0x3A || s.addressed then s
  else
    let p := fieldAt bs 0 1
    let lost := s.aon.lostArb
    let s := { s with aon := { s.aon with lostArb := false } }
    if lost || bs.length ≠ 10 || p > 63 || fieldAt bs 1 1 ≠ 255 - p || beNat (sliceAt bs 2 8) ≠ s.get F.SEC_SERIAL.SERIAL then s
    else
      let s := (s.put F.SYS_STAT.POSITION p).put F.SYS_STAT.ADDRESSED 1
      let s := s.put F.SYS_STAT.DEVNUM (64 * s.get F.SYS_STAT.CHAIN_ID + p)
      let s := { s with aon := { s.aon with enumOut := true } }
      if s.aon.phase = .starting then s.setReady else s

def execSetpos (t : Nat) (bytes : List Byte) (s : State) : Res := .next ((s.at t).setPosition bytes)

/-! ### Debug port -/

/-- The token instructions work unless the part is DISABLED, until three tokens failed (R492, R493). -/
def State.tokensWork (s : State) : Bool :=
  s.aon.phase ≠ .off && s.get F.SEC_FUSE.DEBUG_STATE ≤ 1 && s.get F.SEC_DBG.BLOCKED = 0

def execDbgNonce (t : Nat) (s : State) : Res :=
  .next (let s := s.at t
    if s.aon.phase ≠ .off && s.get F.SEC_FUSE.DEBUG_STATE ≤ 1 then s.emit (.jtag (leNat s.sec.nonce)) else s)

/-- Every Culvert peer is closed. -/
def State.closePeers (s : State) : State :=
  let s := s.each (List.range 16) (fun s k =>
    if s.get (F.NET_PEER_STAT.STATE k) = 2 then s.put (F.NET_PEER_STAT.STATE k) 0 else s)
  s.put F.SEC_SESS.PEERS 0

/-- A debug token is shifted in (R493, R494). -/
def State.token (s : State) (d : List Byte) : State :=
  if !s.tokensWork then s
  else
    let rights := fieldAt d 4 2
    let ok := fieldAt d 0 4 = 0xDB610001 && fieldAt d 6 2 = 0 && decide (rights < 16) &&
      fieldAt d 8 8 = s.get F.SEC_SERIAL.SERIAL && sliceAt d 16 16 = s.sec.nonce &&
      s.signedBy (d.take 32) (sliceAt d 32 384) (sliceAt d 416 384) (sliceAt d 800 384) (sliceAt d 1184 384) true
    let s := s.drawNonce
    if !ok then
      let n := min 3 (s.get F.SEC_DBG.FAILS + 1)
      let s := (s.put F.SEC_ERR.TOKEN_BAD 1).bump R.SEC_CNT_TOKEN_FAIL
      (s.put F.SEC_DBG.FAILS n).put F.SEC_DBG.BLOCKED (bit (decide (n = 3)))
    else
      let s := if rights / 4 = 0 then s
        else ((({ s with sec := { s.sec with zeroised := true } }).closeSessions (fun _ => true)).closePeers).put F.SEC_DBG.ZEROISED 1
      let s := (s.put F.SEC_DBG.RIGHTS (s.get F.SEC_DBG.RIGHTS ||| rights)).put F.SEC_DBG.UNLOCKED 1
      { s with sec := { s.sec with debugged := true } }

def execDbgToken (t : Nat) (token : List Byte) (s : State) : Res := .next ((s.at t).token token)

end Sys2Proof.Machine
end

