-- ==== Sys2Proof/Machine/Stop.lean ====
section
/-!
DEFINITION. The stop state (R448–R457): STOP_ENTER (R377), the steps of the entry, an address match with what it wakes or
abandons, a wake that fails, its repeats, and the domains that come up after a wake.
-/

namespace Sys2Proof.Machine

/-! ### Entry -/

/-- The registers whose ENABLE bits step E2 clears (R448): headgate, FRF, furrow, stand tiles, coppice. -/
def enableFields : List Fld :=
  [F.HG_CTL.ENABLE, F.FRF_CTL.ENABLE, F.FW_CTL.ENABLE, F.CP_CTL.ENABLE] ++ (List.range 48).map F.ST_CTL.ENABLE

/-- The ENABLE bits set now. -/
def State.enabledNow (s : State) : List (Nat × Word) :=
  (enableFields.filter (fun f => s.flag f)).map (fun f => (f.addr, s.reg f.addr))

/-- Clear the ENABLE bits, keeping the registers as they were (R448). -/
def State.disableBlocks (s : State) : State :=
  let on := s.enabledNow
  let s := { s with aon := { s.aon with enables := on } }
  s.each enableFields (fun s f => if s.flag f then s.put f 0 else s)

/-- Set them again (R449). -/
def State.enableBlocks (s : State) : State :=
  let s := s.each s.aon.enables (fun s (p : Nat × Word) => s.setReg p.1 p.2)
  { s with aon := { s.aon with enables := [] } }

/-- STOP_ENTER (R377): E1 and E2, and the completion; the later steps follow one per idle tick (DESIGN CHOICE, log entry 44). -/
def State.stopEnter (s : State) (c : Ctx) : State :=
  let busy := s.aid.ctxs.any (fun (x : Ctx) => !(x.ring = c.ring && x.seq = c.seq)) ||
    s.hif.rings.any (fun (p : Nat × Ring) => !p.2.fetched.isEmpty)
  if s.anyOpen || busy then s.complete c 0x0306 []
  else
    let s := s.closePeers.disableBlocks
    let s := { s with aon := { s.aon with entered := s.time } }
    (s.complete c 0 []).put F.PWR_STOP.STATE 1 |>.put F.PWR_STOP.STEP 2

def execStopEnter (t : Nat) (cmd : CmdRef) (s : State) : Res := .next ((s.at t).command cmd 0x71 anyForm State.stopEnter)

/-- Ranges of the registers that a retention bank holds (R455). -/
def bankRanges (b : Nat) : List (Nat × Nat) :=
  match b with
  | 3 => [(R.MEM_CTL, R.MEM_CTL + 8), (R.MEM_STOP_SHARE 0, R.MEM_STOP_SHARE 64), (R.CN_CTL, R.CN_CTL + 8),
      (R.CN_STOP_LINK 0, R.CN_STOP_LINK 96)]
  | 4 => [(R.HIF_CTL, R.HIF_EVT + 8), (R.HIF_FN_CFG 0, R.HIF_FN_ADM_SQ 64)]
  | 5 => [(0x160000, 0x190000)]
  | 6 => [(R.MEM_RGN_BASE 0, R.MEM_RGN_BASE 32), (R.HG_JRN_BASE, R.HG_JRN_BASE + 16), (R.RAS_LOG_BASE, R.RAS_LOG_BASE + 8)]
  | 7 => [(R.MEM_RGN_BASE 0, R.MEM_RGN_BASE 32), (R.HG_JRN_BASE, R.HG_JRN_BASE + 16), (R.RAS_LOG_BASE, R.RAS_LOG_BASE + 8),
      (0, 0x20000)]
  | _ => []

/-- DRAM training records: 96 bytes per channel, channel c at byte 96·c of the span of banks 0 to 2 (R263, R455). -/
def trainingSpan : List Byte := (List.range 256).flatMap (fun c => (List.range 96).map (Config.training c))

/-- A register that software configures: one with a field that can be written. -/
def isConfig (a : Nat) : Bool :=
  match regAt a with
  | some r => r.1.fields.any (fun f => f.acc = .RW || f.acc = .RWL)
  | none => false

/-- A bank holds a register: of its ranges the configuration, and in bank 3 the state of the canal links too (R455). -/
def bankHolds (b a : Nat) : Bool := (bankRanges b).any (fun r => r.1 ≤ a && a < r.2) && (b = 3 || isConfig a)

/-- Registers that a bank holds. -/
def State.bankRegs (s : State) (b : Nat) : List (Nat × Word) := s.regs.filter (fun p => bankHolds b p.1)

/-- Bytes of a bank: the training records, or its registers, offset and value (DESIGN CHOICE, log entry 92). -/
def bankBytes (b : Nat) (regs : List (Nat × Word)) : List Byte :=
  if b < 3 then (trainingSpan.drop (8192 * b)).take 8192 else regs.flatMap (fun p => leBytes 4 p.1 ++ leBytes 8 p.2.toNat)

/-- A retention bank as step E4 writes it, with its CRC-32C (R448, R455). -/
def State.bankOf (s : State) (b : Nat) : RetBank := ⟨s.bankRegs b, crc32c (bankBytes b (s.bankRegs b))⟩

/-- Step E4: the retention banks are written, and device time and the servo's state with them (R450, R455). -/
def State.writeRetention (s : State) : State :=
  { s.put F.PWR_RET_STAT.VALID 0xFF with aon := { s.aon with
    saved := s.time, servo := s.get F.TIM_SERVO.STATE, banks := (List.range 8).map s.bankOf } }

/-- The registers of the banks that pass their check are restored at W5 (R452, R455); `bad` has a bit per bank that fails. -/
def State.restoreBanks (s : State) (bad : Nat) : State :=
  s.each ((List.range 8).zip s.aon.banks) (fun s (p : Nat × RetBank) =>
    if bad.testBit p.1 then s else s.each (p.2.regs.filter (fun r => bankHolds p.1 r.1)) (fun s r => s.setReg r.1 r.2))

/-- The Ethernet links go down. -/
def State.portsDown (s : State) : State :=
  s.each (List.range 16) (fun s p => if s.flag (F.NET_PORT_STAT.LINK p) then
    (s.put (F.NET_PORT_STAT.LINK p) 0).put (F.NET_PORT_STAT.FEC_LOCK p) 0 else s)

/-- Step E5: isolation, and the links down (R447, R448). -/
def State.isolate (s : State) : State :=
  let s := (s.put F.PWR_DOM.ISO 0x3F).put F.PWR_DOM.READY 0x40
  let s := (s.put F.HIF_STAT.FW_READY 0).put F.SYS_STAT.FW_READY 0
  s.linkLost.portsDown

/-- Step E7: the rails fall but VDD_IO, VPP_DRAM and VDD_DRAM (R446, R448). -/
def State.railsDown (s : State) : State :=
  (s.put F.PWR_RAIL.EN (s.get F.PWR_RAIL.EN &&& 7)).put F.PWR_RAIL.PGOOD (s.get F.PWR_RAIL.PGOOD &&& 7)

/-- Step E8: the device is in STOP. -/
def State.stopReached (s : State) : State :=
  ((s.bump R.PWR_CNT_STOP).put F.PWR_STOP.STATE 2).put F.PWR_STOP.STEP 0

/-- Step `n` of the entry, 3 to 8 (R448). -/
def State.entryStep (s : State) (n : Nat) : State :=
  let s := s.put F.PWR_STOP.STEP n
  if n = 4 then s.writeRetention
  else if n = 5 then s.isolate
  else if n = 6 then s.put F.CLK_STAT.ROOT_LOCK 0
  else if n = 7 then s.railsDown
  else if n = 8 then s.stopReached
  else s

/-- The next step of an entry under way. -/
def State.entryNext (s : State) : State :=
  if s.get F.PWR_STOP.STATE = 1 then s.entryStep (s.get F.PWR_STOP.STEP + 1) else s

/-- The steps up to step `n`. -/
def State.entryTo (s : State) (n : Nat) : State :=
  (List.range 9).foldl (fun s i => if s.get F.PWR_STOP.STATE = 1 && s.get F.PWR_STOP.STEP < i && i ≤ n then s.entryStep i else s) s

/-! ### Abandoning an entry -/

/-- What A1 unwinds (R449). -/
def State.unwind1 (s : State) : State := s.enableBlocks

/-- What A2 unwinds: the retention is discarded without a check (R449, R456). -/
def State.unwind2 (s : State) : State := (s.put F.PWR_RET_STAT.VALID 0).unwind1

/-- What A3 unwinds: PLL, clocks and isolation; the links retrain by their own events (R449). -/
def State.unwind3 (s : State) : State :=
  let s := ((s.put F.CLK_STAT.ROOT_LOCK 1).put F.PWR_DOM.ISO 0).put F.PWR_DOM.READY 0x7F
  ((s.put F.HIF_STAT.FW_READY 1).put F.SYS_STAT.FW_READY 1).unwind2

/-- Attempts of the present wake (R454): ATTEMPTS has two bits and stays at 3 (DEDUCED, log entry 45). -/
def State.setAttempts (s : State) (n : Nat) : State :=
  { s.put F.PWR_WAKE_STAT.ATTEMPTS (min n 3) with aon := { s.aon with attempts := n } }

/-- A wake is under way up to W6 or a failure (R452); a failed wake waits for its repeat (R454). -/
def State.wakeFails (s : State) (cause index : Nat) : State :=
  let s := s.isolate
  let s := (s.put F.CLK_STAT.ROOT_LOCK 0).railsDown
  let s := ((s.bump R.PWR_CNT_WAKE_FAIL).put F.PWR_STOP.STATE 2).put F.PWR_STOP.STEP 0
  let s := (s.put F.PWR_WAKE_STAT.CAUSE cause).put F.PWR_WAKE_STAT.INDEX index
  let spent := decide (s.aon.attempts ≥ s.get F.PWR_WAKE_CFG.WAKE_RETRY + 1)
  let s := if spent then s.put F.PWR_WAKE_STAT.LOCKOUT 1 else s
  { s with aon := { s.aon with waking := false, retryAt := if spent then none else some (s.time + 10000000) } }

/-- The entry is abandoned at abort point `a` (R449): RUN continues, unless the unwinding fails, which completes the entry and
counts as a wake failure. -/
def State.abandon (s : State) (a : Nat) (b : Boot) : State :=
  match (if a = 1 then none else b.fail) with
  | some f => ((s.entryTo 8).setAttempts 1).wakeFails f.cause f.detail
  | none =>
    let s := if a = 1 then s.unwind1 else if a = 2 then s.unwind2 else s.unwind3
    let s := ((s.put F.PWR_STOP.STATE 0).put F.PWR_STOP.STEP 0).put F.PWR_STOP.ABORT a
    (s.bump R.PWR_CNT_STOP_ABORT).health hEvent 0x17 0 a 0 0 0

/-! ### Waking -/

/-- Registers of a BAR0 range take their cold values. -/
def State.coldRange (s : State) (lo hi : Nat) : State :=
  { s with regs := s.regs.filter (fun p => !(lo ≤ p.1 && p.1 < hi)) }

/-- Device time and servo at a wake (R450): `ok` when ACLK ran throughout. -/
def State.wakeTime (s : State) (t : Nat) (ok : Bool) : State :=
  let d := if ok then s.aon.saved + (t - s.aon.saved) / 80 * 80 else s.aon.saved
  let s := { s with time := d, frac := 0 }
  s.put F.TIM_SERVO.STATE (if ok && s.aon.servo = 2 then 3 else 0)

/-- Rings are treated as after an FLR (R309, R455). -/
def State.ringsDetached (s : State) : State :=
  s.each s.hif.rings (fun s (p : Nat × Ring) => s.setRing p.1 { p.2 with
    state := .detached, host := if p.2.kind.deviceProduced then p.2.dev else p.2.host, visible := [], pending := none, restart := false })

/-- What the loss of retention banks means for the parts they hold (R455): one RECOVERED record for each but the training
records, which are CORRECTED. -/
def State.loseBanks (s : State) (bad : Nat) (dead : List Nat) : State :=
  let s := s.put F.PWR_RET_STAT.DISCARDED bad
  let s := if bad % 8 ≠ 0 then (s.put F.MEM_ERR.TRAIN_FAIL 1).corrected pOther 0 0 0 0 else s
  let s := if bad.testBit 3 then
      let s := (s.coldRange R.MEM_CTL (R.MEM_CTL + 8)).coldRange (R.MEM_STOP_SHARE 0) (R.MEM_STOP_SHARE 64)
      let s := (s.coldRange R.CN_CTL (R.CN_CTL + 8)).each (List.range 96) (fun s n =>
        s.coldRange (R.CN_STOP_LINK n) (R.CN_STOP_LINK n + 8))
      ({ s with mm := { s.mm with links := [], relinked := [] } }).each dead (fun s l => s.linkDown l 2 0)
    else s
  let s := if bad.testBit 4 then (s.coldRange R.HIF_CTL (R.HIF_EVT + 8)).coldRange (R.HIF_FN_CFG 0) (R.HIF_FN_ADM_SQ 64) |>.ringsDetached else s
  let s := if bad.testBit 5 then { (s.put F.TIM_SERVO.STATE 0) with time := 0, frac := 0 } else s
  let s := if bad.testBit 7 then
      let s := (s.coldRange R.SYS_CTL (R.SYS_CTL + 8)).coldRange (R.SYS_SCRATCHk 0) (R.SYS_SCRATCHk 8)
      let s := s.coldRange R.PWR_WAKE_CFG (R.PWR_WAKE_CFG + 8)
      let s := ((s.put F.PWR_DVFS.TARGET 3).put F.PWR_DVFS.FLOOR 3).put F.PWR_CAP.CAP_W 480
      let s := (s.put F.PWR_DVFS.CAP_POINT 1).put F.PWR_DVFS.CAP_NONE 0
      ({ s with adm := { s.adm with floor := 3 } }).askCapacity
    else s
  s.each ((List.range 8).filter (fun i => 3 ≤ i && bad.testBit i)) (fun s _ => s.errRecord ⟨.recovered, pOther, 0, 0, 0, 0, 0, 1, 0, 0⟩)

/-- Steps W1 to W6 (R452): rails, PLL, retention, the patch digest, and the control domain. -/
def State.wake (s : State) (t : Nat) (b : Boot) (aclkOk : Bool) : State :=
  let s := s.at t
  let s := s.setAttempts (s.aon.attempts + 1)
  let s := { s with aon := { s.aon with waking := true, retryAt := none } }
  if b.fail.isSome then s
  else if s.get F.PWR_RET_STAT.VALID ≠ 0xFF || b.badBanks / 64 % 4 = 3 then
    s.coldStart 5 false (some 9) b
  else
    let s := (s.put F.PWR_RAIL.EN (s.get F.PWR_RAIL.EN ||| 0x18)).put F.PWR_RAIL.PGOOD (s.get F.PWR_RAIL.PGOOD ||| 0x18)
    let s := s.put F.CLK_STAT.ROOT_LOCK 1
    let s := ((s.restoreBanks b.badBanks).wakeTime t aclkOk).loseBanks b.badBanks b.deadLinks
    let s := { s with mbx := { Mboxes.reset with wakeReq := s.mbx.wakeReq } }
    let s := s.each s.liveCores (fun s c => (s.readyEnds c).gate c 0)
    let s := (s.put F.PWR_DOM.READY 0x41).put F.PWR_DOM.ISO 0x3E
    let s := s.setPow { s.pow with mv := 620, confirmed := 620, raiseAt := none, holdAt := none }
    let s := (s.put F.PWR_DVFS.CURRENT 3).put F.PWR_DVFS.STATE 0
    s.put F.PWR_STOP.STATE 3

/-- Bytes of a transfer that the matcher takes (R451). -/
def wakeBytes (x : BusXfer) : List Byte := if x.read then [] else x.data.take 8

/-- MGMT takes the buffered bytes at W6 (R452): they go to the registers that their pointer names (R489). -/
def State.takeBuffered (s : State) (pointer : Nat) : State :=
  let bs := s.aon.wakeBuf
  let s := { s with aon := { s.aon with wakeBuf := [] } }
  if 0x10 ≤ pointer && pointer < 0x50 then
    { s with aid := { s.aid with bus := { s.aid.bus with desc := (patchBytes s.aid.bus.desc (pointer - 0x10) bs).take 64 } } }
  else if 0x80 ≤ pointer && pointer < 0xE0 then
    { s with aid := { s.aid with bus := { s.aid.bus with data := (patchBytes s.aid.bus.data (pointer - 0x80) bs).take 96 } } }
  else s

/-- An address match (R449, R451): it abandons an entry at its next abort point, or wakes a device in STOP.  A read of the
status page is served and wakes nothing. -/
def State.addressMatch (s : State) (t addr : Nat) (x : BusXfer) (b : Boot) (aclkOk : Bool) : State :=
  if s.busAddr ≠ some addr then s
  else if x.read && x.pointer = 0xF0 then s.emit (.bus s.statusPage)
  else if s.get F.PWR_STOP.STATE = 1 then
    let n := s.get F.PWR_STOP.STEP
    let s := s.at t
    if n ≤ 2 then s.abandon 1 b
    else if n ≤ 4 then (s.entryTo 4).abandon 2 b
    else if n ≤ 6 then (s.entryTo 6).abandon 3 b
    else
      let s := (s.entryTo 8).setAttempts 0
      let s := { s with aon := { s.aon with wakeBuf := wakeBytes x } }
      (s.wake t b aclkOk).takeBuffered x.pointer
  else if s.get F.PWR_STOP.STATE = 2 && !s.flag F.PWR_WAKE_STAT.LOCKOUT && !s.aon.waking && s.aon.retryAt.isNone then
    let s := s.setAttempts 0
    let s := { s with aon := { s.aon with wakeBuf := wakeBytes x } }
    let s := s.wake t b aclkOk
    if s.get F.PWR_STOP.STATE = 3 then s.takeBuffered x.pointer else s
  else s

def execAddressMatch (t addr : Nat) (xfer : BusXfer) (boot : Boot) (aclkOk : Bool) (s : State) : Res :=
  .next (s.addressMatch t addr xfer boot aclkOk)

/-- A wake is aborted (R454). -/
def State.wakeAbort (s : State) (cause index : Nat) : State := if s.aon.waking then s.wakeFails cause index else s

def execWakeAbort (t cause index : Nat) (s : State) : Res := .next ((s.at t).wakeAbort cause index)

/-- 10 ms in STOP after an aborted wake, it is repeated (R454). -/
def State.wakeRetry (s : State) (t : Nat) (b : Boot) (aclkOk : Bool) : State :=
  match s.aon.retryAt with
  | none => s
  | some r => if max s.time t < r then s else s.wake t b aclkOk

def execWakeRetry (t : Nat) (boot : Boot) (aclkOk : Bool) (s : State) : Res := .next (s.wakeRetry t boot aclkOk)

/-! ### Domains -/

/-- Rails that a domain needs beside those of the control domain (R26, R446): NET and HIF share theirs. -/
def railsOf (dom : Nat) : Nat := if dom = 3 || dom = 4 then 0x60 else if dom = 5 then 0x80 else 0

/-- Every domain is on: the block registers are restored and firmware is ready (R452). -/
def State.awake (s : State) : State :=
  let s := s.enableBlocks.put F.PWR_RET_STAT.VALID 0
  let s := ((s.put F.HIF_STAT.FW_READY 1).put F.SYS_STAT.FW_READY 1).put F.PWR_DVFS.TARGET s.target
  let s := s.put F.PWR_STOP.STATE 0
  { s with aon := { s.aon with waking := false }, mm := { s.mm with queues := tabMap (fun _ (q : SqQueue) =>
    { q with words := [], opened := [], discarding := false, midRead := false }) s.mm.queues } }

/-- Domain that a stalled access waits for (R453). -/
def Stalled.domain : Stalled → Nat
  | .reg _ _ off _ _ => domainAt off
  | .read _ off _ => domainAt off
  | .mem _ addr _ _ _ _ => memDomain addr

/-- The accesses that waited for a domain complete in their order (R453). -/
def State.resumeStalled (s : State) (dom : Nat) : State :=
  let go := s.mbx.stalled.filter (fun x => x.domain = dom)
  ({ s with mbx := { s.mbx with stalled := s.mbx.stalled.filter (fun x => x.domain ≠ dom) } }).each go (fun s x => match x with
    | .reg _ req off size val => s.writeReg req off size val
    | .read req off size => s.mirrorRead req off size
    | .mem agent addr write data len ecc => s.memServe agent addr write data len ecc)

/-- A domain that is off becomes ready (R452, R453): the accesses that stalled complete; rails, isolation, the READY bit; its WAKE request ends. -/
def State.domainReady (s : State) (dom : Nat) : State :=
  if dom = 0 || dom > 5 || s.get F.PWR_STOP.STATE ≠ 3 || (s.get F.PWR_DOM.READY).testBit dom then s
  else
    let r := railsOf dom
    let s := (s.put F.PWR_RAIL.EN (s.get F.PWR_RAIL.EN ||| r)).put F.PWR_RAIL.PGOOD (s.get F.PWR_RAIL.PGOOD ||| r)
    let s := s.put F.PWR_DOM.READY (s.get F.PWR_DOM.READY ||| 2 ^ dom)
    let s := s.put F.PWR_DOM.ISO (setMinus (s.get F.PWR_DOM.ISO) (2 ^ dom))
    let s := { s with mbx := { s.mbx with wakeReq := setMinus s.mbx.wakeReq (2 ^ dom) } }
    let s := s.resumeStalled dom
    if s.get F.PWR_DOM.READY = 0x7F then s.awake else s

def execDomainReady (t dom : Nat) (s : State) : Res := .next ((s.at t).domainReady dom)

end Sys2Proof.Machine
end

