-- ==== Sys2Proof/Machine/Warm.lean ====
section
/-!
DEFINITION. Warm reset and warm start (R460–R467, R498): the prologue, what each block keeps, the replay of accepted work
(R426), escalation to a cold start, WARM_RESET (R378) and PERST_N.  A warm reset and the start that follows run in one step.
-/

namespace Sys2Proof.Machine

/-! ### Registers -/

/-- A register after a warm reset (R16, R498): fields with a warm value take it; the others are restored by firmware. -/
def warmWord : List FieldSpec → Word → Word
  | [], w => w
  | f :: fs, w => match f.warm with
    | some v => setBits (warmWord fs w) f.hi f.lo v
    | none => warmWord fs w

/-- Mailbox bindings, which firmware sets again before it is ready (R338 and the text before R349). -/
def isBinding (a : Nat) : Bool := decide (R.MBX_CFG 0 ≤ a && a < R.MBX_CFG 64) && (a - R.MBX_CFG 0) % 64 = 0

/-- Every register after a warm reset. -/
def State.warmRegs (s : State) : State :=
  { s with
    regs := s.regs.map (fun (p : Nat × Word) => if isBinding p.1 then p else match regAt p.1 with
      | some (r, _) => (p.1, warmWord r.fields p.2)
      | none => p)
    shadow := [], groups := [] }

/-- RWL fields that Aidor restores from the state `o` before the reset: the headgate's global group, and with AUTO_LOCK every one
(R67, R511). -/
def State.restoreSetUp (o s : State) : State :=
  s.each o.regs (fun s (p : Nat × Word) =>
    if s.flag F.SYS_CTL.AUTO_LOCK || (R.HG_CTL ≤ p.1 && p.1 ≤ R.HG_JRN_SIZE) then match regAt p.1 with
      | some (r, _) =>
        let m := maskWhere (fun x => x = .RWL) r.fields
        s.setReg p.1 ((s.reg p.1 &&& ~~~m) ||| (p.2 &&& m))
      | none => s
    else s)

/-! ### Blocks -/

/-- States that firmware restores from the state `o` before the reset: parts that had failed stay failed, the others stand
as their groups had them, and running tiles are idle (R142, R219, R382; DEDUCED, log entry 49). -/
def State.warmStates (o s : State) : State :=
  let s := s.each (List.range 48) (fun s t =>
    let st := o.get (F.ST_STAT.STATE t)
    if st = 0 then s else s.put (F.ST_STAT.STATE t) (if st = 2 then 1 else st))
  let s := s.each ((List.range 96).filter (fun c => o.get (F.FW_CORE_STAT.STATE c) = 3)) (fun s c => s.put (F.FW_CORE_STAT.STATE c) 3)
  let s := s.each ((List.range 8).filter (fun u => o.get (F.CP_UNIT_STAT.STATE u) ≠ 0)) (fun s u =>
    (s.put (F.CP_UNIT_STAT.STATE u) (o.get (F.CP_UNIT_STAT.STATE u))).put (F.CP_UNIT_STAT.GROUPS u) (o.get (F.CP_UNIT_STAT.GROUPS u)))
  s.each ((List.range 16).filter (fun p => o.flag (F.NET_PORT_STAT.FAILED p))) (fun s p => s.put (F.NET_PORT_STAT.FAILED p) 1)

/-- Control cores restart (R318): those taken out of service, or made to fail by TEST_FAULT, stay out (R330, R528). -/
def State.warmCores (s : State) : State :=
  let on := (List.range 8).filter (fun c => !(s.coreSt c).out && !s.isInjected pCore c)
  let on' := unionAll (on.map (fun c => 2 ^ c))
  let s := (s.put F.MBX_CORE_STAT.IN_SERVICE on').put F.MBX_CORE_STAT.FAILED (0xFF - on')
  let s := { s with aid := { s.aid with homes := (List.range 16).foldl (fun (h : Tab Nat) (k : Nat) => tabInsert h k (k % 8)) [] } }
  let s := s.each ((List.range 8).filter (fun c => !on.contains c)) (fun s c =>
    let d := s.coreFor
    ((s.moveSingletons c).moveRings c).rebind c d)
  let s := s.each on (fun s c => (s.readyEnds c).gate c 0)
  ({ s with aid := { s.aid with traps := 0, turns := [] } }).resendNotes.showHosted

/-- Rings get their next epochs and open their restart windows; a host-produced ring waits for a record with its new epoch
(R305, R307). -/
def State.warmRings (s : State) : State :=
  let s := s.each s.hif.rings (fun s (p : Nat × Ring) => s.advanceEpoch p.1)
  s.each s.hif.rings (fun s (p : Nat × Ring) =>
    let x := p.2
    let s := s.setRing p.1 { x with
      epoch := s.epochOf p.1, restart := true
      state := if x.state = .detached then .detached else if x.kind.deviceProduced then .active else .waitEpoch }
    if p.1 = s.adminRing x.fn then (s.put (F.HIF_FN_ADM_STAT.EPOCH x.fn) (s.epochOf p.1)).put (F.HIF_FN_ADM_STAT.RESTART x.fn) 1 else s)

/-- The firmware activation under way is lost: the device runs on the slot that was ACTIVE (R342). -/
def State.warmUpdate (s : State) : State :=
  match s.aid.upd.handover with
  | none => s
  | some h =>
    let s := (s.setUpd { s.aid.upd with handover := none }).activationRecord 4 (s.aid.upd.slot h.slot).version
    match h.cmd with
    | some (r, q) => (match s.ctx r q with
      | some c => s.complete c 0x0501 []
      | none => s)
    | none => s

/-- A lane after a warm reset (R89): its bank contents alone stand, and a PIN lane takes its channel at the next switch
instant. -/
def State.warmLane (s : State) (l : Nat) (x : FrfLane) : FrfLane :=
  { FrfLane.empty with
    coefA := x.coefA, coefB := x.coefB
    next := if s.get (F.FRF_LANE_CTL.MODE l) = 2 then some (some (s.get (F.FRF_LANE_CTL.PIN_CH l))) else none }

/-- The FRF restarts with an ALL reset due, the rotation at its first entry and a mask table of the LOCK entries alone (R80,
R89, R92). -/
def State.warmFrf (s : State) : State :=
  { s with frf := { s.frf with
    nextBin := s.time / 1000, chans := [], lanes := tabMap s.warmLane s.frf.lanes
    masks := s.frf.masks.filter (fun (p : Nat × MaskVer) => p.2.cur.lock), cursor := 0, decisions := [],
    sync := none, openResets := [], switchedAt := none, dwellAt := none, firstReset := true } }

/-- The furrow fabric starts anew (R102). -/
def State.warmFurrow (s : State) : State :=
  let s := { s with fw := { s.fw with cores := [], frames := [], flight := [], marked := [], written := [] } }
  s.each ((List.range 96).filter (fun c => s.flag (F.FW_CORE_CFG.ENABLE c) && s.get (F.FW_CORE_STAT.STATE c) ≠ 3)) State.coreStart

/-- The stand restarts: every stream's next slice refreshes every layer (R147, R180). -/
def State.warmStand (s : State) : State :=
  { s with sd := { Sd.reset with fresh := List.range 128, gens := [] } }

/-- Every enabled sluice queue is reset (R426 step 1): the replay produces what they held again. -/
def State.warmQueues (s : State) : State :=
  s.each (s.mm.queues.filter (fun (p : Nat × SqQueue) => p.2.enabled)) (fun s p =>
    (s.setQueue p.1 { s.queue p.1 with kept := [], sent := 0 }).sqReset p.1 (.software 0) 0)

/-- Links that TEST_FAULT restored lose their detours; the others keep theirs (R528). -/
def State.warmLinks (s : State) : State :=
  let gone := s.mm.relinked.flatMap linkEnds
  let s := s.each gone (fun s l =>
    let s := s.put (F.CN_STOP_LINK.FAILED (l / 4)) (setMinus (s.get (F.CN_STOP_LINK.FAILED (l / 4))) (2 ^ (l % 4)))
    s.put (F.CN_STOP_LINK.DETOUR (l / 4)) (setMinus (s.get (F.CN_STOP_LINK.DETOUR (l / 4))) (2 ^ (l % 4))))
  { s with mm := { s.mm with links := [], relinked := [] } }

/-- Peers come up only through a new handshake (R404, R490). -/
def State.peersDown (s : State) : State :=
  { s.closePeers with net := { s.net with peers := [] } }

/-- The network block: links down, queues empty, sessions of peers gone; export queues keep what they have not sent. -/
def State.warmNet (s : State) : State :=
  let s := s.portsDown.peersDown
  { s with net := { s.net with
    q7 := [], fdb := s.net.fdb.filter (fun (p : Nat × FdbEntry) => p.2.static), txts := [], downSince := [], ppsDue := none } }

/-- Export queues resend from SENT_SEQ + 1 (R402). -/
def State.warmExports (s : State) : State :=
  s.each (s.net.exps.map (fun (p : Nat × ExpQ) => p.1)) State.resend

/-! ### Replay -/

/-- The words of an entry whose slices lie after `kc`, in order (R51, R426): a word that would fall before the entry's first
slice belongs to that slice. -/
def State.replayWords (s : State) (i : Nat) (conv : Int × Int × Nat) (a period first : Nat) (kc : Option Nat) : List (Nat × Nat) → State
  | [] => s
  | (src, w) :: r =>
    let t0 := convert conv src
    let t : Int := if t0 > (a : Int) then a else t0
    let k := (placeEvent t first period).1
    if reached kc k then s.replayWords i conv a period first kc r
    else
      let s := (s.takeWord i conv a period first src w).1
      let x := s.stream i
      let s := s.setStream i (x.setAcc { x.acc k with again := true })
      s.replayWords i conv a period first kc r

/-- Slices of an entry that lie after `kc`. -/
def JEntry.slicesAfter (e : JEntry) (kc : Option Nat) : List Nat :=
  match e.first with
  | some f => ((List.range (e.last + 1 - f)).map (f + ·)).filter (fun k => !reached kc k)
  | none => []

/-- One ACCEPTED entry is cut again, after k_c of the group that it was journalled for (R426 step 3). -/
def State.replayEntry (s : State) (i : Nat) (e : JEntry) : State :=
  let kc := s.newestRecord e.group
  match e.phase, e.first with
  | .accepted, some first =>
    let s := s.replayWords i (e.offset, e.rate, e.refTime) e.acceptT (s.groupNs e.group) first kc (timedWords e.batch.base e.batch.words)
    s.setStream i ((s.stream i).addStatus e.batch.status (e.slicesAfter kc))
  | _, _ => s

/-- Entries of one group, and its slices that were closed before the reset: the entries are cut again, and the slices close
again with the flags that they had (R426). -/
def State.replayPart (s : State) (i g : Nat) (old : List SliceDesc) : State :=
  let s := s.each ((s.entriesOf i).filter (fun e => e.group = g)) (fun s e => s.replayEntry i e)
  s.each (old.filter (fun d => d.group = g)) (fun s d =>
    (s.put (F.HG_STREAM_STAT.UNSYNCED i) (bit d.unsynced)).closeIn i g d.k d.guardClosed true)

/-- What reflects the slices of a stream, as the checkpoints have it: slices at or before k_c are not cut again, so that one that
no instant reflected counts for k_c (R426; DEDUCED, log entry 49). -/
def State.replayRefl (s : State) (i : Nat) : Tab Nat :=
  let kept := (s.stream i).refl.filter (fun (p : Nat × Nat) => reached (s.newestRecord (p.1 % 32)) (p.1 / 32))
  (s.entriesOf i).foldl (fun t e => match e.first, s.newestRecord e.group with
    | some f, some kc => ((List.range (min (e.last + 1) (kc + 1) - f)).map (f + ·)).foldl (fun t k =>
        if (tabFind t (reflKey e.group k)).isSome then t else tabInsert t (reflKey e.group k) kc) t
    | _, _ => t) kept

/-- The counters of one stream that events raise (R70). -/
def eventCounters (i : Nat) : List Nat :=
  [R.HG_STREAM_CNT_EVENT i, R.HG_STREAM_CNT_LATE i, R.HG_STREAM_CNT_CLAMP i, R.HG_STREAM_CNT_FILT i]

/-- The replay of one stream (R43, R61, R70, R426 step 3): the parts of earlier groups first, and then its own. -/
def State.replayStream (s : State) (i : Nat) : State :=
  let x := s.stream i
  let stat := s.reg (R.HG_STREAM_STAT i)
  let counts := (eventCounters i).map (fun a => (a, s.reg a))
  let old := s.hg.lists.filter (fun d => d.stream = i && !reached (s.newestRecord d.group) d.k)
  let refl := s.replayRefl i
  let news := x.reflected.filterMap (fun (p : Nat × Nat) => (s.newestRecord p.1).map (fun k => (p.1, min p.2 k)))
  let s := { s with hg := { s.hg with lists := s.hg.lists.filter (fun (d : SliceDesc) => d.stream ≠ i || reached (s.newestRecord d.group) d.k) } }
  let s := s.setStream i { x with
    tokens := 0, filledAt := s.time, held := [], gapAt := none, accs := [], refracT := [], cells := [], refl := refl, reflected := news }
  let s := (s.put (F.HG_STREAM_RESID.TOKENS i) 0).put (F.HG_STREAM_STAT.STATE i) 2
  let g := s.groupOf i
  let past := (dedup (old.map (fun d => d.group) ++ (s.entriesOf i).map (fun e => e.group))).filter (fun h => h ≠ g)
  let s := s.each past (fun s h => s.replayPart i h old)
  let s := s.setStream i { s.stream i with accs := [] }
  let s := s.replayPart i g old
  let s := (s.setReg (R.HG_STREAM_STAT i) stat).put (F.HG_STREAM_STAT.HELD i) 0
  let s := s.applyStaged counts
  let s := s.setStream i { s.stream i with kOpen := x.kOpen, kLast := x.kLast, good := x.good }
  s.ackAll i true

/-- Journal writes in flight complete in the prologue (R463, P2). -/
def State.settleJournal (s : State) : State :=
  { s with hg := { s.hg with journal := s.hg.journal.map (fun (e : JEntry) =>
    if e.phase = .writing then { e with phase := .journalled } else e) } }

/-- Slots of a group are loaded, grid memory is zero, and the instants after k_c are owed again; view records behind a run that is
held stay with it (R423, R426 steps 2 and 6). -/
def State.replayGroup (s : State) (g : Nat) : State :=
  let kc := s.newestRecord g
  let s := (s.setCpg g { CpGroup.empty with last := kc, passed := kc }).loadSlots g kc
  let s := s.setCpg g { s.cpg g with dirty0 := s.staleSlots g 0, dirty1 := s.staleSlots g 1 }
  let s := match kc with
    | some k => s.setReg (R.CP_GRP_CKPT g) (BitVec.ofNat 64 k)
    | none => s
  let s := s.setRel g { s.rel g with ckpt := kc }
  ({ s with cp := { s.cp with
    cache := [], views := s.cp.views.filter (fun v => v.1 ≠ g || reached kc v.2.1 || s.runHeld g v.2.1) } }).zeroGrid g

/-- The replay of accepted work (R426): groups, then streams, while the blocks but the furrow fabric stand still; replayed events
reach it (R28, R102).  Then they go on. -/
def State.replayAll (s : State) : State :=
  let on := s.enabledNow
  let s := s.each (enableFields.filter (fun f => f ≠ F.FW_CTL.ENABLE)) (fun s f => if s.flag f then s.put f 0 else s)
  let s := s.each ((List.range 32).filter (fun g => s.flag (F.CP_GRP_CTL.ENABLE g))) State.replayGroup
  let s := s.each ((List.range 128).filter (fun i => s.streamState i ≠ 0 || !(s.entriesOf i).isEmpty)) State.replayStream
  s.each on (fun s (p : Nat × Word) => s.setReg p.1 p.2)

/-- A device whose buddy has taken over replays nothing and opens none of its streams; it is FENCED (R432, R467). -/
def State.fencedStart (s : State) : State :=
  let s := (s.put F.RAS_BUDDY.FENCED 1).health hEvent 0x19 0 3 0 0 0
  let s := s.each (List.range 128) (fun s i => if s.streamState i ≠ 0 then
    (s.put (F.HG_STREAM_STAT.STATE i) 0).setStream i { s.stream i with kOpen := none, accs := [], held := [], gapAt := none } else s)
  ({ s with hg := { s.hg with journal := [], lists := [] } }).jrnShow

/-! ### The warm start -/

/-- Why a warm start fails, if it does (R466): cause and step. -/
def State.warmFailure (s : State) (b : Boot) : Option (Nat × Nat) :=
  let slot := match s.aid.upd.active with
    | some n => s.aid.upd.slot n
    | none => ⟨0, 0, 0, [], [], []⟩
  if b.badBanks / 64 % 4 = 3 then some (0x11, 9)
  else match b.warmFail with
    | some f => if f.step ≤ 9 then some (f.cause, f.step)
      else if slot.state = 2 && (if b.badBanks.testBit 6 then decide (s.patchCheck slot.image ≠ 0) else decide (slot.digest ≠ s.aon.bound)) then
        some (0x12, 11)
      else some (f.cause, f.step)
    | none =>
      if slot.state = 2 && (if b.badBanks.testBit 6 then decide (s.patchCheck slot.image ≠ 0) else decide (slot.digest ≠ s.aon.bound)) then
        some (0x12, 11)
      else none

/-- A failed warm start escalates to a cold start that reports JOURNAL_LOST first (R466). -/
def State.escalate (s : State) (cause step : Nat) (b : Boot) : State :=
  ({ s with aon := { s.aon with escalated := min 255 (s.aon.escalated + 1), escCause := cause } }).coldStart 5 false (some step) b

/-- What waits for the end of the start: WARM_RESET commands complete with WARM_COUNT (R378). -/
def State.warmCommands (s : State) : State :=
  s.each (s.waiters wWarm) (fun s c => s.complete c 0 (leBytes 4 (s.get F.HIF_STAT.WARM_COUNT)))

/-- What a warm reset leaves of the registers and of the parts that do not outlive it, with the rails, the clocks and the enables on
again (R463, R464). -/
def State.warmBase (s : State) : State :=
  let on := enableFields.filter (fun f => s.flag f)
  let s := s.restoreSetUp (s.warmStates s.settleJournal.warmRegs)
  let s := s.each on (fun s f => s.put f 1)
  let s := (s.put F.SYS_STAT.WARM 1).put F.SEC_FUSE.FUSE_OK 1
  let s := (s.put F.PWR_RAIL.EN 0xFF).put F.PWR_RAIL.PGOOD 0xFF
  let s := (s.put F.PWR_DOM.READY 0x7F).put F.PWR_DOM.ISO 0
  let s := ((s.put F.CLK_STAT.ROOT_LOCK 1).put F.PWR_STOP.STATE 0).put F.PWR_STOP.STEP 0
  let s := s.setPow { Pow.reset with mv := opMv s.point, confirmed := opMv s.point, hot := s.pow.hot, atFloor := s.pow.atFloor }
  { s with
    ras := { s.ras with silent := false, merging := [] }
    mbx := Mboxes.reset
    sec := { s.sec with challenges := [] }
    aid := { s.aid with mw := Aid.reset.mw, bus := Aid.reset.bus }
    aon := { s.aon with enables := [], waking := false, retryAt := none, phase := .starting } }

/-- Steps 3 to 15 of a warm start that does not fail (R464). The blocks that ran are enabled again (R68, R219, R426; log
entry 49). -/
def State.warmSteps (s : State) (b : Boot) : State :=
  let count := s.get F.HIF_STAT.WARM_COUNT
  let s := s.warmBase
  let s := (s.loseBanks b.badBanks b.deadLinks).warmLinks
  let s := (s.linkLost.linkStart b).warmCores.warmRings
  let s := s.warmUpdate.warmFrf.warmStand.warmQueues.warmNet.warmFurrow
  let s := if b.calOk then s else s.otherRecord 0 s.time
  let s := if s.get F.RAS_BUDDY.STATE ≠ 0 && b.peerWord / 2 ^ 56 = 2 then s.fencedStart else s.replayAll
  let s := s.warmExports
  let s := (s.put F.HIF_STAT.WARM_COUNT ((count + 1) % 65536)).setReady
  let s := s.each (List.range 64) (fun s n => s.put (F.HIF_FN_STAT.WARM_COUNT n) ((count + 1) % 65536))
  let s := if s.flag F.SYS_CTL.AUTO_LOCK then s.put F.SYS_CTL.SETUP_LOCK 1 else s
  let s := s.put F.PWR_RET_STAT.VALID 0
  (s.each b.host State.readBack).warmCommands

/-- A warm reset and its start (R462–R467): `src` as START_SRC codes it. -/
def State.warmReset (s : State) (src : Nat) (b : Boot) : State :=
  let s := if s.get F.PWR_STOP.STATE ≥ 2 then (s.wakeTime s.time true).put F.PWR_DVFS.CURRENT 3 else s
  let s := s.enableBlocks.put F.SYS_STAT.START_SRC src
  let s := { s with aon := { s.aon with startAt := s.time } }
  match s.warmFailure b with
  | some f => s.escalate f.1 f.2 b
  | none => s.warmSteps b

/-- WARM_RESET (R378): the reset begins once the command has started, and the command completes after the start. -/
def State.warmCommand (b : Boot) (s : State) (c : Ctx) : State := (s.await c wWarm 0).warmReset 4 b

def execWarmReset (t : Nat) (cmd : CmdRef) (boot : Boot) (s : State) : Res :=
  .next ((s.at t).command cmd 0x72 anyForm (State.warmCommand boot))

/-- PERST_N is released (R460–R462): a cold start when PERST_MODE is high; else a warm reset, which before firmware is ready
retrains the link alone, and which failsafe ignores. -/
def State.perst (s : State) (b : Boot) : State :=
  match s.aon.phase with
  | .off => s
  | .failsafe => s
  | .retry => if s.flag F.SYS_STAT.PERST_MODE then s.coldStart 2 false none b else s
  | .starting => if s.flag F.SYS_STAT.PERST_MODE then s.coldStart 2 false none b else s.linkLost.linkStart b
  | .up => if s.flag F.SYS_STAT.PERST_MODE then s.coldStart 2 false none b else s.warmReset 3 b

def execPerstN (t : Nat) (boot : Boot) (s : State) : Res := .next ((s.at t).perst boot)

end Sys2Proof.Machine
end

