-- ==== Sys2Proof/Machine/Buddy.lean ====
section
/-!
DEFINITION. Buddy mode (R381, R427–R434): pairing and mirroring, what a device keeps of its buddy, loss, the lease, fencing
and takeover.
-/

namespace Sys2Proof.Machine

def State.setBud (s : State) (b : Bud) : State := { s with bud := b }

/-- State of the pair, as RAS_BUDDY codes it (R381): 0 NONE, 1 PAIRING, 2 PAIRED, 3 PEER_LOST, 4 TAKEN_OVER. -/
def State.budState (s : State) : Nat := s.get F.RAS_BUDDY.STATE

/-- Peer entry of the buddy. -/
def State.buddy (s : State) : Option Nat := s.peerOf (s.get F.RAS_BUDDY.PEER)

/-- A health record of cause BUDDY (R417): 1 paired, 2 unpaired, 3 fenced, 4 fence left. -/
def State.budHealth (s : State) (what : Nat) : State := s.health hEvent 0x19 0 what 0 0 (s.get F.RAS_BUDDY.PEER)

/-- A PAIR message goes to the buddy (R429). -/
def State.tellPair (s : State) (op : Nat) : State := s.toBuddy 3 0x07 0 (s.pairBytes op)

/-! ### The end of mirroring -/

/-- Mirroring stops: entries wait for no confirmation any more (R49), and checkpoints that awaited one complete (R213). -/
def State.stopMirror (s : State) : State :=
  let s := s.put F.HG_CTL.MIRROR 0
  let s := { s with
    hg := { s.hg with journal := s.hg.journal.map (fun (e : JEntry) => { e with needMirror := false }) }
    bud := { s.bud with sent := [], sentRings := [] } }
  let s := s.each ((List.range 128).filter (fun i => (s.firstOpen i).isSome)) (fun s i => s.ackAll i false)
  s.each (List.range 32) (fun s g => match (s.cpg g).ckpt with
    | some k => if (s.cpg g).ckSent then s.checkpointDone g k else s
    | none => s)

/-- The pair ends on this device. -/
def State.endPair (s : State) : State :=
  let s := (s.put F.RAS_BUDDY.FENCED 0).stopMirror
  let s := s.each (List.range 16) (fun s k => if s.flag (F.NET_PEER_CTL.BUDDY k) then s.put (F.NET_PEER_CTL.BUDDY k) 0 else s)
  ((s.put F.RAS_BUDDY.STATE 0).put F.RAS_BUDDY.PEER 0).setBud Bud.reset

/-- The BUDDY_PAIR in progress completes. -/
def State.pairStatus (s : State) (status : Nat) : State :=
  match s.bud.pairing with
  | none => s
  | some (r, q, _) => (match s.ctx r q with
    | some c => s.complete c status []
    | none => s)

/-- Unpairing (R381): mirroring stops, and the device goes on unmirrored. -/
def State.unpair (s : State) : State :=
  if s.budState = 0 then s
  else
    let s := s.pairStatus 0x0504
    let s := if s.flag F.RAS_BUDDY.FENCED then s.budHealth 4 else s
    (s.budHealth 2).endPair

/-! ### Conditions of pairing -/

/-- Images that serve open streams or enabled groups, as (epoch, digest) (R427). -/
def State.servingImages (s : State) : List (Nat × List Byte) :=
  (s.img.slots.filter (fun p => s.slotStreams p.1 ≠ 0 ||
    s.img.fusionSlot.any (fun f => f.2 = p.1 && s.flag (F.CP_GRP_CTL.ENABLE f.1)))).map (fun p => (p.2.epoch, p.2.digest))

/-- Images that the slots hold. -/
def State.residentImages (s : State) : List (Nat × List Byte) := s.img.slots.map (fun p => (p.2.epoch, p.2.digest))

/-- Own slot of a configuration epoch; 16 where there is none. -/
def State.localSlot (s : State) (epoch : Nat) : Nat :=
  match s.img.slots.find? (fun p => p.2.epoch = epoch) with
  | some p => p.1
  | none => 16

/-- The pair as it begins: the peer's streams stand by (R427). -/
def State.withPeer (s : State) (dev : Nat) (r : PairReply) (cmd : Nat × Nat) : State :=
  let s := (s.put F.RAS_BUDDY.STATE 1).put F.RAS_BUDDY.PEER dev
  let s := s.setBud { Bud.reset with
    pairing := some (cmd.1, cmd.2, s.time), streams := r.streams, groups := r.groups
    standby := r.loads.map (fun (l : Load) => { l with slot := s.localSlot l.slot })
    fusion := r.fusion.foldl (fun (t : Tab Nat) (f : Nat × Nat) => tabInsert t f.1 (s.localSlot f.2)) []
    confirmed := s.time, peerSince := s.time }
  match s.peerOf dev with
  | some k => s.put (F.NET_PEER_CTL.BUDDY k) 1
  | none => s

/-- First failing condition of R427, in its order: status and data. -/
def State.pairCode (s : State) (dev : Nat) (r : PairReply) : Option (Nat × List Byte) :=
  let lease := s.get F.RAS_LEASE.ADDR
  let h := (s.withPeer dev r (0, 0)).tryAdmit (s.loads s.adm.admitted)
  if !r.sameHost || lease = 0 || lease ≠ r.lease then some (0x0303, [])
  else if s.ownStreams &&& r.streams ≠ 0 || s.ownGroups &&& r.groups ≠ 0 then some (0x0303, [])
  else if !(r.serving.all s.residentImages.contains && s.servingImages.all r.resident.contains) then some (0x0303, [])
  else match h with
    | .inr x => some (0x0202, refusedData x)
    | .inl _ => (match r.refusal with
      | some x => some (0x0202, refusedData x)
      | none => if r.frames then none else some (0x0303, []))

/-- Pairing begins: the power floor carries the standby load (R229, R427). -/
def State.beginPair (s : State) (dev : Nat) (r : PairReply) (cmd : Nat × Nat) : State :=
  let s := s.withPeer dev r cmd
  match s.tryAdmit (s.loads s.adm.admitted) with
  | .inl p => (if p < s.adm.floor then s.moveFloor p else s).settleAdm true
  | .inr _ => s

/-! ### Mirroring -/

/-- The newest completed checkpoint of a group goes to the buddy, whole, with its commit (R428, R429); the slots of the other
buffer are owed whole too. -/
def State.mirrorCkpt (s : State) (g : Nat) : State :=
  match s.newestRecord g with
  | none => s
  | some k =>
    let used := fun (b : Nat) => (s.poolNumbers g).filter (fun i => s.bufferSlot b i ≠ Slot.free)
    let t := used (k % 2)
    let v := match s.ring (s.get (F.CP_GRP_RPT.RING g)) with
      | some r => r.dev
      | none => 0
    let sent := match s.exportOf g with
      | some q => s.get (F.NET_EXP_STAT.SENT_SEQ q)
      | none => 0
    let x := s.cpg g
    let join := fun (l : List Nat) => l ++ ((s.usedSlots g).map (fun p => p.1)).filter (fun i => !l.contains i)
    let s := s.setCpg g { x with
      dirty0 := if k % 2 = 1 then join x.dirty0 else x.dirty0, dirty1 := if k % 2 = 0 then join x.dirty1 else x.dirty1 }
    let s := s.each ((List.range (ceilDiv t.length 8)).map (fun n => (t.drop (8 * n)).take 8)) (fun s c =>
      s.toBuddy 2 0x04 g (fieldsBytes [(1, 1), (1, g), (6, 0), (8, k), (2, c.length)] ++
        c.flatMap (fun i => leBytes 4 i ++ (s.bufferSlot (k % 2) i).bytes)))
    s.toBuddy 2 0x05 g (fieldsBytes [(1, g), (1, k % 2), (6, 0), (8, k), (8, ((s.rel g).vis).getD 0), (4, v), (4, sent), (4, t.length)])

/-- Runs of a group that wait go to the buddy (R428). -/
def State.mirrorWaiting (s : State) (g : Nat) : State :=
  let ws := match s.exportOf g with
    | some q => (s.expq q).wait
    | none => (match s.ring (s.get (F.CP_GRP_RPT.RING g)) with
      | some x => x.wait
      | none => [])
  s.each ws (fun s r => match r.kind with
    | .slice h k => if h = g then s.mirrorRun g k r.entries else s
    | _ => s)

/-- Mirroring starts (R428): what the journal, the checkpoints and the run buffers hold goes out, and the configuration. -/
def State.startMirror (s : State) : State :=
  let s := s.put F.HG_CTL.MIRROR 1
  let s := { s with hg := { s.hg with journal := s.hg.journal.map (fun (e : JEntry) =>
    if e.phase = JPhase.accepted || e.mirrored then e else { e with needMirror := true }) } }
  let s := s.each s.hg.journal (fun s e => s.toBuddy 1 0x02 e.stream e.bytes)
  let s := s.each ((List.range 32).filter (fun g => s.flag (F.CP_GRP_CTL.ENABLE g))) (fun s g => (s.mirrorCkpt g).mirrorWaiting g)
  s.mirrorConfig

/-- Nothing that was mirrored awaits its acknowledgement. -/
def State.mirrorSettled (s : State) (k : Nat) : Bool := (s.peer k).chans.all (fun c => c.1 < 16 || (c.2.unacked.isEmpty && c.2.wait.isEmpty))

/-- Both devices mirror in full: the pair is PAIRED and BUDDY_PAIR completes (R381). -/
def State.pairDone (s : State) : State :=
  if s.budState = 1 && s.bud.ready = 3 then
    let s := s.pairStatus 0
    ((s.put F.RAS_BUDDY.STATE 2).setBud { s.bud with pairing := none, confirmed := s.time }).budHealth 1
  else s

/-- READY is sent once everything mirrored is acknowledged (R381, R429). -/
def State.pairReady (s : State) : State :=
  match s.buddy with
  | none => s
  | some k =>
    if s.budState = 1 && s.flag F.HG_CTL.MIRROR && !s.bud.ready.testBit 0 && s.mirrorSettled k then
      ((s.tellPair 3).setBud { (s.tellPair 3).bud with ready := s.bud.ready ||| 1 }).pairDone
    else s

/-! ### Commands -/

/-- The Culvert address of a BUDDY_PAIR is that of the peer entry of its device number (R381): a REQUEST reaches the peer. -/
def State.pairReaches (s : State) (c : Ctx) : Bool :=
  match s.peerOf (c.p 16 2) with
  | some k => c.p 24 16 = s.get (F.NET_PEER_ADDR_LO.ADDR k) + 2 ^ 64 * s.get (F.NET_PEER_ADDR_HI.ADDR k)
  | none => false

/-- BUDDY_PAIR (R381, R427): without an answer it ends with the 1 s of its timeout. -/
def State.buddyPair (r : PairReply) (s : State) (c : Ctx) : State :=
  let dev := c.p 16 2
  if s.budState ≠ 0 then s.complete c 0x0303 []
  else match s.pairCode dev r with
    | some x => s.complete c x.1 x.2
    | none =>
      let n := (s.await c wPair 0).beginPair dev r (c.ring, c.seq)
      if s.pairReaches c then n.tellPair 1 else n

def execBuddyPair (t : Nat) (cmd : CmdRef) (peer : PairReply) (s : State) : Res :=
  .next ((s.at t).command cmd 0xA0 anyForm (State.buddyPair peer))

/-- BUDDY_UNPAIR (R381). -/
def State.buddyUnpair (s : State) (c : Ctx) : State := ((s.tellPair 4).unpair).complete c 0 []

def execBuddyUnpair (t : Nat) (cmd : CmdRef) (s : State) : Res := .next ((s.at t).command cmd 0xA1 anyForm State.buddyUnpair)

/-- Data of BUDDY_STATUS (R381); a fenced device reports PEER_LOST (R433). -/
def State.buddyData (s : State) : List Byte :=
  let seen := match s.buddy with
    | some k => (s.peer k).lastRx
    | none => 0
  fieldsBytes [(1, if s.flag F.RAS_BUDDY.FENCED then 3 else s.budState), (1, 0), (2, s.get F.RAS_BUDDY.PEER), (8, seen)]

def State.buddyStatus (s : State) (c : Ctx) : State := s.complete c 0 s.buddyData

def execBuddyStatus (t : Nat) (cmd : CmdRef) (s : State) : Res := .next ((s.at t).command cmd 0xA2 anyForm State.buddyStatus)

/-- Pairing has lasted 1 s (R381): neither device mirrors. -/
def State.pairTimeout (s : State) : State :=
  match s.bud.pairing with
  | none => s
  | some (_, _, t0) => if s.budState = 1 then ((((s.at (t0 + 1000000000)).pairStatus 0x0504).tellPair 4).endPair) else s

def execPairingTimeout (s : State) : Res := .next s.pairTimeout

/-- A PAIR message of the peer (R429). -/
def State.pairMessage (s : State) (dev : Nat) (p : List Byte) (r : PairReply) : State :=
  let mine := s.get F.RAS_BUDDY.PEER = dev && s.budState ≠ 0
  let s := if mine then s.setBud { s.bud with streams := fieldAt p 8 16, groups := fieldAt p 24 4 } else s
  match fieldAt p 0 1 with
  | 1 =>
    if s.budState = 0 then (if (s.pairCode dev r).isNone then ((s.beginPair dev r (0xFFFF, 0)).tellPair 2).startMirror else s)
    else if mine && s.budState = 1 then (if s.flag F.HG_CTL.MIRROR then s.tellPair 2 else (s.tellPair 2).startMirror) else s
  | 2 => if mine && s.budState = 1 && !s.flag F.HG_CTL.MIRROR then s.startMirror else s
  | 3 => if mine && s.budState = 1 then (s.setBud { s.bud with ready := s.bud.ready ||| 2 }).pairDone else s
  | 4 => if !mine then s else if s.budState = 1 then (s.stopMirror).setBud { s.stopMirror.bud with ready := 0 } else s.unpair
  | 5 =>
    if !mine then s
    else
      let n := fieldAt p 2 2
      let m := fieldAt p 4 2
      let regs := (List.range n).map (fun j => (fieldAt p (32 + 16 * j) 4, BitVec.ofNat 64 (fieldAt p (40 + 16 * j) 8)))
      let rings := (List.range m).map (fun j => sliceAt p (32 + 16 * n + 64 * j) 64)
      s.setBud { s.bud with
        config := regs.foldl (fun (t : Tab Word) (e : Nat × Word) => tabInsert t e.1 e.2) s.bud.config
        rings := rings.foldl (fun (t : Tab (List Byte)) (e : List Byte) =>
          if fieldAt e 2 1 = 0 then tabErase t (fieldAt e 0 2) else tabInsert t (fieldAt e 0 2) e) s.bud.rings }
  | _ => s

/-! ### What the buddy keeps -/

/-- A register of the lost device, as mirrored. -/
def State.peerReg (s : State) (a : Nat) : Word := (tabFind s.bud.config a).getD (coldOf a)

/-- A mirrored journal entry as it arrives, for a stream of group `g` (R50, R429). -/
def mirrorEntry (p : List Byte) (port t g : Nat) : Option JEntry :=
  let n := fieldAt p 36 2
  match parseBatch (sliceAt p 64 (32 + 4 * n)) 0 0 port (fieldAt p 16 8) none with
  | none => none
  | some b =>
    let first := fieldAt p 24 8
    some ⟨fieldAt p 0 1, fieldAt p 4 4, if fieldAt p 1 1 = 2 then .accepted else .journalled, true, (fieldAt p 2 1).testBit 1, false,
      false, fieldAt p 8 8, fieldAt p 16 8, t, if first = 2 ^ 64 - 1 then none else some first,
      if first = 2 ^ 64 - 1 then 0 else first + fieldAt p 32 4, toSigned 64 (fieldAt p 40 8), toSigned 32 (fieldAt p 48 4),
      fieldAt p 52 4, g, b⟩

/-- JOURNAL_MIRROR: the entry is held, a repeated one in place of the older copy. -/
def State.holdEntry (s : State) (p : List Byte) (port : Nat) : State :=
  let i := fieldAt p 0 1
  match mirrorEntry p port s.time ((F.HG_STREAM_CTL.GROUP i).of (s.peerReg (R.HG_STREAM_CTL i))) with
  | none => s
  | some e => s.setBud { s.bud with
    journal := s.bud.journal.filter (fun (x : JEntry) => !(x.stream = e.stream && x.seq = e.seq)) ++ [e] }

/-- JOURNAL_RELEASE: the entries of a stream up to a sequence go (R425, R429). -/
def State.dropMirrored (s : State) (p : List Byte) : State :=
  s.each (List.range (fieldAt p 0 2)) (fun s j =>
    let i := fieldAt p (2 + 8 * j) 4
    let q := fieldAt p (6 + 8 * j) 4
    s.setBud { s.bud with journal := s.bud.journal.filter (fun (x : JEntry) => x.stream ≠ i || decide (idxSub q x.seq ≥ 2 ^ 31)) })

/-- CKPT_MIRROR: slots of a buffer, or a part of a run (R429, R430). -/
def State.holdCkpt (s : State) (p : List Byte) : State :=
  let g := fieldAt p 1 1
  let k := fieldAt p 8 8
  let n := fieldAt p 16 2
  if fieldAt p 0 1 = 1 then
    let key := 2 * g + k % 2
    let t := (List.range n).foldl (fun (t : Tab (List Byte)) (j : Nat) =>
      tabInsert t (fieldAt p (18 + 1028 * j) 4) (sliceAt p (22 + 1028 * j) 1024)) (tabGet [] s.bud.slots key)
    s.setBud { s.bud with slots := tabInsert s.bud.slots key t }
  else
    let part := fieldAt p 2 2
    let entries := (List.range n).map (fun j => sliceAt p (24 + 64 * j) 64)
    let mine := fun (x : MirRun) => decide (x.group = g) && decide (x.k = k)
    let before := match s.bud.runs.find? mine with
      | some x => if part = 0 then [] else x.entries
      | none => []
    let all := before ++ entries
    let whole := (fieldAt p 4 1).testBit 0 && all.length = fieldAt p 20 4
    s.setBud { s.bud with runs := s.bud.runs.filter (fun x => !mine x) ++ [(⟨g, k, all, whole⟩ : MirRun)] }

/-- CKPT_COMMIT: the mirror checkpoint is committed; runs that are delivered need no copy (R429). -/
def State.holdCommit (s : State) (p : List Byte) : State :=
  let g := fieldAt p 0 1
  let vis := fieldAt p 16 8
  s.setBud { s.bud with
    ckpts := tabInsert s.bud.ckpts g ⟨fieldAt p 8 8, vis, fieldAt p 24 4, fieldAt p 28 4⟩
    runs := s.bud.runs.filter (fun x => x.group ≠ g || decide (vis < x.k)) }

/-! ### Loss, lease and fence -/

/-- The buddy is declared lost (R432): the device goes on unmirrored (R49). -/
def State.declareLost (s : State) : State :=
  if s.budState = 2 && !s.flag F.RAS_BUDDY.FENCED then
    let s := (s.put F.RAS_BUDDY.STATE 3).stopMirror
    s.setBud { s.bud with lost := true }
  else s

/-- The own lease word (R431). -/
def State.leaseWord (s : State) : Nat := (if s.budState = 4 then 2 else 1) * 2 ^ 56 + s.time / 1000 % 2 ^ 56

/-- Host address of the own word: the lower device number has the first eight bytes of the line. -/
def State.leaseAddr (s : State) : Nat :=
  64 * s.get F.RAS_LEASE.ADDR + (if s.devNum < s.get F.RAS_BUDDY.PEER then 0 else 8)

/-- The own lease word is written. -/
def State.putLease (s : State) : State :=
  (s.emit (.hostWrite 0 none false s.leaseAddr (leBytes 8 s.leaseWord))).setBud { s.bud with ownWord := s.leaseWord }

/-- One lease cycle (R431, R432): the own word is written and read back, and the peer's word is read.  A fence ends when the
path is back and the peer's word shows ALIVE. -/
def State.leaseCycle (s : State) (readBack peerWord : Nat) (pathOk : Bool) : State :=
  if s.get F.RAS_LEASE.ADDR = 0 || s.budState = 0 || !s.flag F.HIF_STAT.LINK_UP || !pathOk then s
  else
    let s := s.putLease
    let b := s.bud
    let s := s.setBud { b with
      confirmed := if readBack = b.ownWord then s.time else b.confirmed
      peerWord := peerWord, peerSince := if peerWord = b.peerWord then b.peerSince else s.time }
    if s.flag F.RAS_BUDDY.FENCED && peerWord / 2 ^ 56 = 1 then ((s.put F.RAS_BUDDY.FENCED 0).budHealth 4).declareLost else s

def execLeaseWrite (t readBack peerWord : Nat) (pathOk : Bool) (s : State) : Res :=
  .next ((s.at t).leaseCycle readBack peerWord pathOk)

/-- Heartbeats silent and the own lease unconfirmed for 900 µs: FENCED (R432). -/
def State.fence (s : State) : State :=
  match s.buddy with
  | none => s
  | some k =>
    if s.budState = 2 && !s.flag F.RAS_BUDDY.FENCED && decide ((s.peer k).lastRx + 900000 ≤ s.time) &&
        decide (s.bud.confirmed + 900000 ≤ s.time) then
      (s.put F.RAS_BUDDY.FENCED 1).budHealth 3
    else s

def execFenced (t : Nat) (s : State) : Res := .next (s.at t).fence

/-! ### Takeover -/

/-- Groups and streams of the lost device. -/
def State.peerGroups (s : State) : List Nat := (List.range 32).filter (fun g => s.bud.groups.testBit g)
def State.peerStreams (s : State) : List Nat := streamsOf s.bud.streams

/-- Export registers of a queue (R412). -/
def expRegs (q : Nat) : List Nat := [R.NET_EXP_CTL q, R.NET_EXP_DST_LO q, R.NET_EXP_DST_HI q, R.NET_EXP_UDP q]

/-- The configuration of the lost device's streams and groups takes effect here. -/
def State.adoptConfig (s : State) : State :=
  let exps := (List.range 32).flatMap expRegs
  s.each (s.bud.config.filter (fun p => !exps.contains p.1)) (fun s p => s.setReg p.1 p.2)

/-- A committed mirror checkpoint of a group becomes one of the device's own: its slots in the buffer, and its commit record alone
(R213, R433 step 3). -/
def State.adoptCkpt (s : State) (g k : Nat) (t : Tab (List Byte)) : State :=
  let want := fun (i : Nat) => (tabFind t i).getD Slot.free.bytes
  let s := s.each ((s.poolNumbers g).filter (fun i => s.dramRead (s.slotAddr (1 + k % 2) i) 1024 ≠ want i)) (fun s i =>
    s.dramPut (s.slotAddr (1 + k % 2) i) (want i))
  let s := if (s.committedAt g ((k + 1) % 2)).isSome then s.dramPut (s.recordAddr g ((k + 1) % 2)) (zeros 64) else s
  s.dramPut (s.recordAddr g (k % 2)) (commitRecord k)

/-- Unit of the survivor that takes a group of the lost device: the one of its number while that is in service, else the one that
a failed unit's group would go to (R433 step 2; DESIGN CHOICE, log entry 46). -/
def State.adoptUnit (s : State) (g : Nat) : Nat :=
  let u := s.get (F.CP_GRP_CTL.UNIT g)
  if s.get (F.CP_UNIT_STAT.STATE u) = 2 then (s.unitFor g).getD u else u

/-- Slots and marks of a group from its newest committed mirror checkpoint, with grid memory zero (R433 step 3). -/
def State.adoptGroup (s : State) (g : Nat) : State :=
  let u := s.adoptUnit g
  let s := (s.put (F.CP_GRP_CTL.UNIT g) u).put (F.CP_UNIT_STAT.GROUPS u) (s.get (F.CP_UNIT_STAT.GROUPS u) ||| 2 ^ g)
  let s := { s with img := { s.img with fusionSlot := match tabFind s.bud.fusion g with
    | some n => tabInsert s.img.fusionSlot g n
    | none => s.img.fusionSlot } }
  match tabFind s.bud.ckpts g with
  | none => (s.setCpg g CpGroup.empty).zeroGrid g
  | some c =>
    let s := (s.adoptCkpt g c.k (tabGet [] s.bud.slots (2 * g + c.k % 2))).loadSlots g (some c.k)
    let s := (s.setCpg g { CpGroup.empty with
      last := some c.k, passed := some c.k, dirty0 := s.staleSlots g 0, dirty1 := s.staleSlots g 1 }).setRel g ⟨some c.vis, some c.vis, some c.k⟩
    (s.setReg (R.CP_GRP_CKPT g) (BitVec.ofNat 64 c.k)).zeroGrid g

/-- Slices that the words of a batch fall into under a conversion, for an acceptance time (R63). -/
def batchSlices (conv : Int × Int × Nat) (a period : Nat) (b : Batch) : List Nat :=
  (timedWords b.base b.words).filterMap (fun (w : Nat × Nat) =>
    if wordKind w.2 = 1 || wordKind w.2 = 3 then none
    else
      let t := convert conv w.1
      some (((if t > (a : Int) then (a : Int) else t).toNat) / period))

/-- A mirrored entry becomes ACCEPTED: one without a recorded acceptance takes the present time (R433 step 2). -/
def State.adoptEntry (s : State) (e : JEntry) : JEntry :=
  match e.phase, e.first with
  | .accepted, some _ => e
  | _, _ =>
    let a := if e.phase = JPhase.accepted then e.acceptT else s.time
    let c := s.conversion e.stream e.batch.base
    let period := max (s.sliceNs e.stream) 1
    let ks := batchSlices c a period e.batch
    let kEnd := (min (convert c e.batch.endTime) (a : Int)).toNat / period
    { e with
      phase := .accepted, acceptT := a, offset := c.1, rate := c.2.1, refTime := c.2.2
      first := some ((minNat? ks).getD kEnd), last := if ks.isEmpty then kEnd else maxNat ks }

/-- A standby stream opens in RUNNING (R433 step 2): its entries are ACCEPTED, its slices after k_c are cut, and one ACK goes
to its camera. -/
def State.adoptStream (s : State) (i : Nat) : State :=
  let kc := (s.rel (s.groupOf i)).ckpt
  let es := (s.bud.journal.filter (fun (e : JEntry) => e.stream = i)).map s.adoptEntry
  let newest := es.getLast?.map (fun e => e.seq)
  let start := match kc, minNat? (es.filterMap (fun e => e.first)) with
    | some k, _ => k + 1
    | none, some k => k
    | none, none => s.time / max (s.sliceNs i) 1
  let slot := match s.bud.standby.find? (fun l => l.stream = i) with
    | some l => tabInsert s.img.streamSlot i l.slot
    | none => s.img.streamSlot
  let s := ({ s with
      hg := { s.hg with journal := s.hg.journal ++ es }
      img := { s.img with streamSlot := slot } }).put (F.HG_STREAM_STAT.STATE i) 2
  let s := s.setStream i { StreamSt.empty with
    e := newest.map (fun q => (q + 1) % 2 ^ 32), first := (es.map (fun e => e.seq)).headD 0, processed := es.length
    filledAt := s.time, peer := (s.srcOf i, s.get (F.HG_STREAM_GEOM.SRC_UDP i), 16), opened := true, lastPort := 16
    sc := (es.map (fun e => e.batch.base)).head?, k0 := some start, kOpen := some start }
  let s := (s.bindQueues i).each es (fun s e => s.replayEntry i e)
  let tEnd := maxNat (es.map (fun e => (min (convert (e.offset, e.rate, e.refTime) e.batch.endTime) (e.acceptT : Int)).toNat))
  let s := s.setStream i { s.stream i with tEnd := tEnd }
  let s := s.closeUpto i tEnd (tEnd / max (s.sliceNs i) 1 + 1 - start)
  match newest with
  | some q => (s.put (F.HG_STREAM_STAT.ACC_SEQ i) q).sendAck i q s.time false (s.stream i).peer
  | none => s

/-- The number under which a ring is adopted: its own, or the lowest free one of its function (DESIGN CHOICE, log entry 46). -/
def State.adoptNumber (s : State) (f r : Nat) : Nat :=
  if (s.ring r).isNone then r
  else ((s.ringNumbers f).find? (fun n => (s.ring n).isNone && !s.isAdminNumber f n)).getD r

/-- A result ring is adopted at V with its epoch advanced, in the restart window (R305, R307, R433 step 4): no entry is free
until its consumer record has been read. -/
def State.adoptRing (s : State) (r v : Nat) (f : Fld) : State :=
  match tabFind s.bud.rings r with
  | none => s
  | some e =>
    let fn := fieldAt e 20 2
    let n := s.adoptNumber fn r
    if (s.ring n).isSome then s
    else
      let epoch := nextEpoch (fieldAt e 6 2)
      let x : Ring := { Ring.blank with
        kind := RingKind.result, cls := fieldAt e 3 1, logN := fieldAt e 4 1, base := fieldAt e 8 8, fn := fn
        pasid := if fieldAt e 5 1 = 1 then some (fieldAt e 16 4) else none
        vec := fieldAt e 22 2, nc := fieldAt e 24 2, nt := fieldAt e 26 2, epoch := epoch, restart := true
        dev := v, host := idxSub v (2 ^ fieldAt e 4 1), core := s.coreFor }
      let s := { s with hif := { s.hif with epochs := tabInsert s.hif.epochs n epoch } }
      ((s.setRing n x).put f n).showHosted

/-- The rings of a group are adopted; V of its view ring is not mirrored and free. -/
def State.adoptRings (s : State) (g : Nat) : State :=
  let v := match tabFind s.bud.ckpts g with
    | some c => c.v
    | none => 0
  let s := s.adoptRing (s.get (F.CP_GRP_RPT.RING g)) v (F.CP_GRP_RPT.RING g)
  if (s.cpMembers g).any (fun i => s.flag (F.CP_MBR_CTL.VIEW_RPT i)) then
    s.tickFree.adoptRing (s.get (F.CP_GRP_RPT.VIEW_RING g)) (s.freeVal .load % 2 ^ 32) (F.CP_GRP_RPT.VIEW_RING g)
  else s

/-- An export queue of the lost device is adopted (R433 step 4, R434): under its number, or the highest queue that is off. -/
def State.adoptExport (s : State) (q : Nat) : State :=
  let ctl := s.peerReg (R.NET_EXP_CTL q)
  let g := (F.NET_EXP_CTL.GROUP q).of ctl
  let own := if s.flag (F.NET_EXP_CTL.ENABLE q) then (List.range 32).reverse.find? (fun r => !s.flag (F.NET_EXP_CTL.ENABLE r)) else some q
  match own, tabFind s.bud.ckpts g with
  | some r, some c =>
    if (F.NET_EXP_CTL.ENABLE q).of ctl = 0 then s
    else
      let s := s.each ((expRegs q).zip (expRegs r)) (fun s p => s.setReg p.2 (s.peerReg p.1))
      let s := s.put (F.NET_EXP_STAT.SENT_SEQ r) c.sent
      (s.setExpq r { ExpQ.empty with next := (c.sent + 1) % 2 ^ 32, lost := some (s.get F.RAS_BUDDY.PEER, q) }).reroute r
  | _, _ => s

/-- The mirrored run buffer is written out (R433 step 4); incomplete runs are discarded (R430). -/
def State.adoptRuns (s : State) : State :=
  s.each (s.bud.runs.filter (fun x => x.complete && !reached (s.rel x.group).vis x.k)) (fun s x => s.deliver x.group x.k x.entries)

/-- Takeover of the buddy (R432, R433): once declared lost with its lease word unchanged for 1,000 µs, or asked for by a
TAKEOVER message. -/
def State.takeover (s : State) (host : List HostRead) : State :=
  let due := s.bud.asked || (s.bud.lost && decide (s.bud.peerSince + 1000000 ≤ s.time))
  if !due || s.budState < 2 || s.budState = 4 || s.flag F.RAS_BUDDY.FENCED then s
  else
    let s := s.declareLost
    let s := ((s.put F.RAS_BUDDY.STATE 4).putLease).beginSusp cTakeover s.bud.streams 0
    let s := (s.bump R.RAS_CNT_TAKEOVER).adoptConfig
    let s := s.each s.peerGroups State.adoptGroup
    let s := s.each s.peerStreams State.adoptStream
    let s := s.jrnShow
    let s := s.each s.peerGroups State.adoptRings
    let s := s.each host State.readBack
    let s := (s.each (List.range 32) State.adoptExport).adoptRuns
    let adm := s.adm.admitted ||| unionAll (s.bud.standby.map (fun l => streamBit l.stream))
    let s := ({ s with adm := { s.adm with admitted := adm } }).setBud { s.bud with
      standby := [], journal := [], slots := [], runs := [], asked := false }
    (s.settleAdm true).endSusp cTakeover s.bud.streams 0

def execTakeover (t : Nat) (host : List HostRead) (s : State) : Res := .next ((s.at t).takeover host)

end Sys2Proof.Machine
end

