-- ==== Sys2Proof/Machine/Peers.lean ====
section
/-!
DEFINITION. Culvert peers (R404–R408, R435, R490): the datagrams that arrive, acknowledgement and retransmission, heartbeats,
loss, the handshake and configuration dissent.
-/

namespace Sys2Proof.Machine

/-! ### Acknowledgement -/

/-- Messages behind 1,024 unacknowledged ones go out as room appears (R405). -/
def State.cvFlush (s : State) (k chan port : Nat) : State :=
  let x := s.peer k
  let c := x.chan (chanKey chan port)
  let n := 1024 - c.unacked.length
  if c.wait.isEmpty then s
  else (s.setPeer k (x.setChan (chanKey chan port) { c with wait := [] })).each (c.wait.take n ++ c.wait.drop n) (fun s m =>
    s.cvSend k chan port m.1 m.2)

/-- What the acknowledgement of a message brings about: the mirror confirmation of an entry (R49), the completion of a
checkpoint (R213). -/
def State.confirmed (s : State) (m : CvMsg) : State :=
  if m.type = 0x02 then
    (s.setEntry (fieldAt m.payload 0 1) (fieldAt m.payload 4 4) (fun e => { e with mirrored := true, needMirror := false })).ackAll
      (fieldAt m.payload 0 1) false
  else if m.type = 0x05 then
    (if (s.cpg (fieldAt m.payload 0 1)).ckSent then s.checkpointDone (fieldAt m.payload 0 1) (fieldAt m.payload 8 8) else s)
  else s

/-- A cumulative acknowledgement (R405). -/
def State.cvAck (s : State) (k chan port ack : Nat) : State :=
  let x := s.peer k
  let c := x.chan (chanKey chan port)
  let old := c.unacked.filter (fun m => decide (idxSub ack m.seq < 2 ^ 31))
  if old.isEmpty then s
  else
    let s := s.setPeer k (x.setChan (chanKey chan port) { c with unacked := c.unacked.filter (fun m => decide (idxSub ack m.seq ≥ 2 ^ 31)) })
    ((s.each old State.confirmed).cvFlush k chan port).pairReady

/-- The path of the messages that arrive with ALT_PATH over a port (R405, R406). -/
def State.homePort (s : State) (k port : Nat) : Nat :=
  if s.flag (F.NET_PEER_CTL.ALT_EN k) && s.get (F.NET_PEER_CTL.ALT_PORT k) = port then s.get (F.NET_PEER_CTL.PORT k)
  else
    let ms := s.members k
    let i := ms.idxOf port
    if ms.length ≤ 1 || ms.length ≤ i then port else ms.getD ((i + ms.length - 1) % ms.length) port

/-- The alternate path of a port: ALT_PORT for the primary one, the next member in service for a link member (R405, R406). -/
def State.altPort (s : State) (k port : Nat) : Option Nat :=
  if s.flag (F.NET_PEER_CTL.ALT_EN k) && s.get (F.NET_PEER_CTL.PORT k) = port then some (s.get (F.NET_PEER_CTL.ALT_PORT k))
  else
    let ms := s.members k
    let i := ms.idxOf port
    (ms.drop (i + 1) ++ ms.take i).find? s.portUp

/-- Unacknowledged messages of a channel are sent again 8 µs after they were sent, and 8 µs later once more on the alternate
path (R405). -/
def State.cvRetransmit (s : State) (k key : Nat) : State :=
  let chan := key / 16
  let port := key % 16
  let c := (s.peer k).chan key
  if !s.peerUp k || chan = 0 then s
  else
    let due := fun (m : CvMsg) => decide (m.tries < 2) && decide (m.sentAt + 8000 ≤ s.time)
    let s := s.each (c.unacked.filter due) (fun s m =>
      let alt := s.altPort k port
      if m.tries = 0 then s.cvEmit k chan port m.type m.seq 1 m.payload
      else match alt with
        | some p => s.emit (.culvert k p (s.cvBytes k chan port m.type m.seq 3 m.payload))
        | none => s.cvEmit k chan port m.type m.seq 1 m.payload)
    s.setPeer k ((s.peer k).setChan key { c with
      unacked := c.unacked.map (fun m => if due m then { m with tries := m.tries + 1, sentAt := s.time } else m) })

def execCulvertRetransmit (t peer chan : Nat) (s : State) : Res := .next ((s.at t).cvRetransmit peer chan)

/-! ### Heartbeats -/

/-- Some part is out of service (R414; what the flag of a heartbeat shows, DESIGN CHOICE, log entry 46). -/
def State.partsOut (s : State) : Bool :=
  [(pTile, 48), (pFurrow, 96), (pCoppice, 8), (pCore, 8), (pPseudo, 512), (pLink, 384), (pPort, 16)].any (fun p =>
    (List.range p.2).any (fun i => s.partFailed p.1 i))

/-- Payload of a heartbeat (R407); its transmit time is written when it leaves. -/
def State.beatBytes (s : State) (k : Nat) : List Byte :=
  let x := s.peer k
  let n := s.img.slots.length
  fieldsBytes [(8, 0), (8, x.lastTx), (8, x.lastRx), (1, s.get F.TIM_SERVO.STATE), (1, s.budState), (1, n),
    (1, bit s.partsOut + 2 * bit (s.flag F.PWR_EMERG.POWER || s.flag F.PWR_EMERG.THERMAL)), (4, 0)] ++
  s.img.slots.flatMap (fun p => slotEntry p.1 p.2)

/-- The instants of heartbeats: n × 100 µs plus 1 µs for each unit of the device number mod 64 (R407). -/
def State.beatDue (s : State) : Bool := s.time % 100000 = s.devNum % 64 * 1000

/-- A heartbeat to every up peer on its port, and on its alternate port (R407); none after a FATAL error (R419). -/
def State.heartbeats (s : State) : State :=
  if !s.beatDue || s.ras.silent then s
  else
    s.each ((List.range 16).filter s.peerUp) (fun s k =>
      let p := s.beatBytes k
      let f := fun (alt : Bool) => (⟨s.time, p.length + 122, .heartbeat k alt, p⟩ : TxFrame)
      let s := s.queue7 (s.get (F.NET_PEER_CTL.PORT k)) (f false)
      if s.flag (F.NET_PEER_CTL.ALT_EN k) then s.queue7 (s.get (F.NET_PEER_CTL.ALT_PORT k)) (f true) else s)

def execHeartbeat (t : Nat) (s : State) : Res := .next (s.at t).heartbeats

/-- Receive time corrected by the ingress delay (R394). -/
def State.ingressNs (s : State) (p : Nat) : Nat := ((1000 * (s.time : Int) - s.getS (F.NET_PORT_DLY.INGRESS p)) / 1000).toNat

/-- One slot entry of a heartbeat against the own slots (R435). -/
def State.compareSlot (s : State) (dev epoch theirs : Nat) : State :=
  match s.img.slots.find? (fun p => p.2.epoch = epoch && fieldAt p.2.digest 0 8 ≠ theirs) with
  | none => s
  | some p =>
    let own := fieldAt p.2.digest 0 8
    let s := s.bump R.RAS_CNT_DISSENT
    let known := s.net.dissent.any (fun d => d.peer = dev && d.epoch = epoch)
    let rest := s.net.dissent.filter (fun d => !(d.peer = dev && d.epoch = epoch))
    let s := { s with net := { s.net with dissent := rest ++ [(⟨dev, epoch, s.time, own, theirs⟩ : Dissent)] } }
    if known then s else s.health hBegin 0x13 0 epoch own theirs dev

/-- A heartbeat is taken (R407, R435). -/
def State.takeBeat (s : State) (k port : Nat) (p : List Byte) : State :=
  let t4 : Int := s.ingressNs port
  let t3 := fieldAt p 0 8
  let t1 := fieldAt p 8 8
  let t2 := fieldAt p 16 8
  let off := floorDiv (((t2 : Int) - t1) - (t4 - t3)) 2
  let s := s.setPeer k { s.peer k with lastRx := s.ingressNs port, lastTx := t3 }
  let s := s.put (F.NET_PEER_STAT.OFFSET k) (fromSigned 32 (satSigned 32 off))
  let dev := s.get (F.NET_PEER_CTL.DEVNUM k)
  s.each (List.range (fieldAt p 26 1)) (fun s j => s.compareSlot dev (fieldAt p (40 + 24 * j) 8) (fieldAt p (48 + 24 * j) 8))

/-- The dissents that satisfy a condition end (R435). -/
def State.endDissents (s : State) (c : Dissent → Bool) : State :=
  let gone := s.net.dissent.filter c
  ({ s with net := { s.net with dissent := s.net.dissent.filter (fun d => !c d) } }).each gone (fun s d =>
    s.health hEnd 0x13 0 d.epoch d.own d.theirs d.peer)

/-- 1 s without a finding for a peer and an epoch (R435). -/
def State.dissentEnd (s : State) (dev epoch : Nat) : State :=
  match s.net.dissent.find? (fun d => d.peer = dev && d.epoch = epoch) with
  | none => s
  | some d => (s.at (d.last + 1000000000)).endDissents (fun x => x.peer = dev && x.epoch = epoch)

def execDissentEnd (peer epoch : Nat) (s : State) : Res := .next (s.dissentEnd peer epoch)

/-! ### Loss -/

/-- Ten heartbeats of a peer are missing (R408): it is LOST, its dissents end (R435), and a buddy is declared lost (R432). -/
def State.peerLost (s : State) (k : Nat) : State :=
  if !s.peerUp k || s.time < (s.peer k).lastRx + 1000000 then s
  else
    let dev := s.get (F.NET_PEER_CTL.DEVNUM k)
    let s := (s.put (F.NET_PEER_STAT.STATE k) 3).countPeers
    let s := (s.health hEvent 0x15 0 3 0 0 dev).endDissents (fun d => d.peer = dev)
    if s.flag (F.NET_PEER_CTL.BUDDY k) then s.declareLost else s

def execPeerLost (t peer : Nat) (s : State) : Res := .next ((s.at t).peerLost peer)

/-! ### Handshake -/

/-- The OPERATOR key, when Culvert may use it (R490). -/
def State.peerKey (s : State) : Option (List Byte) :=
  match tabFind s.sec.keys 1 with
  | some key => if (s.roleMask 1).testBit (channelBit 0x41) && !s.sec.zeroised then some key else none
  | none => none

/-- A proof of R490: the verifier's nonce before the prover's, then the prover's device number and the verifier's. -/
def peerProof (key theirs own : List Byte) (me other : Nat) : List Byte :=
  hmac256 key (theirs ++ own ++ [0x01#8, 0x41#8] ++ leBytes 2 me ++ leBytes 2 other)

/-- An AUTH message (R490). -/
def State.cvAuth (s : State) (k op : Nat) (nonce proof : List Byte) : State :=
  s.cvEmit k 3 (s.controlPort k) 0x09 0 0 ([BitVec.ofNat 8 op] ++ zeros 7 ++ (nonce ++ zeros 16).take 16 ++ (proof ++ zeros 32).take 32 ++
    leBytes 4 (s.peer k).ours)

/-- A fresh nonce, and a session ID for the peer to carry. -/
def State.drawPeer (s : State) (k : Nat) : State :=
  let nonce := s.freeBytes .nonce 16
  (s.setPeer k { s.peer k with nonce := nonce, ours := s.freeVal .sessionId % 2 ^ 32 }).tickBy 16

/-- The device with the lower number sends CHALLENGE, with one nonce until it is answered (R490). -/
def State.challengePeer (s : State) (k : Nat) : State :=
  if !s.flag (F.NET_PEER_CTL.ENABLE k) || s.peerUp k || s.devNum ≥ s.get (F.NET_PEER_CTL.DEVNUM k) || s.peerKey.isNone ||
      s.time < (s.peer k).retryAt then s
  else
    let s := if s.get (F.NET_PEER_STAT.STATE k) = 0 then s.put (F.NET_PEER_STAT.STATE k) 1 else s
    let s := if (s.peer k).nonce.isEmpty then s.drawPeer k else s
    s.cvAuth k 1 (s.peer k).nonce []

def execAuthChallenge (t peer : Nat) (s : State) : Res := .next ((s.at t).challengePeer peer)

/-- The exchange failed: it is retried after 100 ms (R490). -/
def State.authRetry (s : State) (k : Nat) : State := s.setPeer k { s.peer k with nonce := [], other := [], retryAt := s.time + 100000000 }

/-- A proof failed: REJECT and PROOF_BAD (R490); Culvert counts as one function (R488), here 65. -/
def State.authReject (s : State) (k : Nat) : State := ((s.cvAuth k 4 [] []).proofFailed 65).authRetry k

/-- A peer comes up: its channels start anew (R405), and its silence counts from now (DESIGN CHOICE, log entry 46). -/
def State.peerUpNow (s : State) (k theirs : Nat) : State :=
  let s := s.setPeer k { s.peer k with theirs := theirs, chans := [], lastRx := s.time, lastTx := 0, nonce := [], other := [] }
  (((s.put (F.NET_PEER_STAT.STATE k) 2).countPeers).health hEvent 0x15 0 2 0 0 (s.get (F.NET_PEER_CTL.DEVNUM k)))

/-- An AUTH message arrives (R490). -/
def State.authMessage (s : State) (k : Nat) (p : List Byte) : State :=
  let me := s.devNum
  let it := s.get (F.NET_PEER_CTL.DEVNUM k)
  let x := s.peer k
  let nonce := sliceAt p 8 16
  let proof := sliceAt p 24 32
  let id := fieldAt p 56 4
  match s.peerKey with
  | none => s
  | some key => match fieldAt p 0 1 with
    | 1 =>
      if me < it then s
      else
        let s := s.drawPeer k
        let y := s.peer k
        (s.setPeer k { y with other := nonce }).cvAuth k 2 y.nonce (peerProof key nonce y.nonce me it)
    | 2 =>
      if it < me || x.nonce.isEmpty then s
      else if proof = peerProof key x.nonce nonce it me then
        (s.cvAuth k 3 x.nonce (peerProof key nonce x.nonce me it)).peerUpNow k id
      else s.authReject k
    | 3 =>
      if me < it || x.nonce.isEmpty then s
      else if proof = peerProof key x.nonce x.other it me then s.peerUpNow k id
      else s.authReject k
    | 4 => if s.peerUp k then s else s.authRetry k
    | _ => s

/-! ### Datagrams -/

/-- The peer that a datagram is from, by its address and its device numbers (R404). -/
def State.sender (s : State) (src : Nat) (d : List Byte) : Option Nat :=
  (List.range 16).find? (fun k => s.flag (F.NET_PEER_CTL.ENABLE k) && s.get (F.NET_PEER_CTL.DEVNUM k) = fieldAt d 4 2 % 1024 &&
    s.get (F.NET_PEER_ADDR_LO.ADDR k) + 2 ^ 64 * s.get (F.NET_PEER_ADDR_HI.ADDR k) = src)

/-- A datagram's form: magic, version, length, checksums, destination (R404). -/
def State.cvForm (s : State) (d : List Byte) : Bool :=
  32 ≤ d.length && fieldAt d 0 2 = 0xC71B && fieldAt d 2 1 = 1 && d.length = 32 + fieldAt d 16 2 &&
    fieldAt d 28 4 = crc32c (d.take 28) && fieldAt d 24 4 = crc32c (d.drop 32) && fieldAt d 6 2 % 1024 = s.devNum

/-- A datagram that is dropped (R404). -/
def State.cvDrop (s : State) : State := s.put F.NET_ERR.CULVERT_AUTH 1

/-- A message taken in its order. -/
def State.cvTake (s : State) (k port type : Nat) (p : List Byte) (r : PairReply) : State :=
  let dev := s.get (F.NET_PEER_CTL.DEVNUM k)
  let buddy := s.flag (F.NET_PEER_CTL.BUDDY k)
  match type with
  | 0x02 => if buddy then s.holdEntry p port else s
  | 0x03 => if buddy then s.dropMirrored p else s
  | 0x04 => if buddy then s.holdCkpt p else s
  | 0x05 => if buddy then s.holdCommit p else s
  | 0x07 => s.pairMessage dev p r
  | 0x08 => if buddy && (s.budState = 2 || s.budState = 3) then (s.setBud { s.bud with asked := true }).declareLost else s
  | _ => s

/-- A Culvert datagram arrives over a port (R404, R405). -/
def State.culvertIn (s : State) (port : Nat) (m : Culvert) : State :=
  let d := m.bytes
  let type := fieldAt d 3 1
  let chan := fieldAt d 18 1
  let p := d.drop 32
  match s.sender m.src d with
  | none => s.cvDrop
  | some k =>
    if !s.cvForm d then s
    else if type = 0x09 then (if fieldAt d 20 4 = 0 then s.authMessage k p else s.cvDrop)
    else if !s.peerUp k || fieldAt d 20 4 ≠ (s.peer k).ours then s.cvDrop
    else if chan = 0 then (if type = 0x01 then s.takeBeat k port p else s)
    else
      let home := if (fieldAt d 19 1).testBit 1 then s.homePort k port else port
      let s := s.cvAck k chan home (fieldAt d 12 4)
      if type = 0x06 then s
      else
        let x := s.peer k
        let c := x.chan (chanKey chan home)
        if fieldAt d 8 4 = (c.taken + 1) % 2 ^ 32 then
          let s := s.setPeer k (x.setChan (chanKey chan home) { c with taken := (c.taken + 1) % 2 ^ 32 })
          let s := s.cvTake k port type p m.pair
          s.emit (.culvert k port (s.cvBytes k chan home 0x06 0 0 []))
        else s.emit (.culvert k port (s.cvBytes k chan home 0x06 0 0 []))

def execCulvertDatagram (t port : Nat) (msg : Culvert) (s : State) : Res :=
  .next (if (s.at t).portUp port then (s.at t).culvertIn port msg else s.at t)

end Sys2Proof.Machine
end

