-- ==== Sys2Proof/Machine/Bridge.lean ====
section
/-!
DEFINITION. Frames at a port (R385–R390, R393): what is dropped, learning and forwarding, delivery to the device endpoint,
PTP messages, R-APS messages and key agreement.
-/

namespace Sys2Proof.Machine

/-! ### Frames -/

/-- A frame as the bridge sees it: addresses, VLAN, priority, whether it carried a tag, EtherType, what follows it. -/
structure Eth where
  dst : Nat
  src : Nat
  vid : Nat
  pcp : Nat
  tagged : Bool
  type : Nat
  body : List Byte
  deriving DecidableEq, Repr

/-- Big-endian number in a list of bytes. -/
def beAt (bs : List Byte) (i n : Nat) : Nat := beNat (sliceAt bs i n)

/-- A frame read; an untagged one belongs to the port's PVID with priority 0 (R388). -/
def readEth (pvid : Nat) (b : List Byte) : Eth :=
  if beAt b 12 2 = 0x8100 then ⟨beAt b 0 6, beAt b 6 6, beAt b 14 2 % 4096, beAt b 14 2 / 8192, true, beAt b 16 2, b.drop 18⟩
  else ⟨beAt b 0 6, beAt b 6 6, pvid, 0, false, beAt b 12 2, b.drop 14⟩

/-- The frame with or without its tag. -/
def Eth.bytes (e : Eth) (tag : Bool) : List Byte :=
  beBytes 6 e.dst ++ beBytes 6 e.src ++ (if tag then beBytes 2 0x8100 ++ beBytes 2 (8192 * e.pcp + e.vid) else []) ++
    beBytes 2 e.type ++ e.body

/-- IPv4-mapped address. -/
def mapped4 (a : Nat) : Nat := 0xFFFF * 2 ^ 32 + a

/-- IP payload of a frame: source and destination as 128-bit addresses, protocol, payload. -/
def Eth.ip (e : Eth) : Option (Nat × Nat × Nat × List Byte) :=
  let b := e.body
  if e.type = 0x0800 then some (mapped4 (beAt b 12 4), mapped4 (beAt b 16 4), beAt b 9 1, (b.take (beAt b 2 2)).drop (4 * (beAt b 0 1 % 16)))
  else if e.type = 0x86DD then some (beAt b 8 16, beAt b 24 16, beAt b 6 1, (b.drop 40).take (beAt b 4 2))
  else none

/-- An IP address is the device's (R387): NET_IP4, or NET_IP6. -/
def State.isOwnIp (s : State) (a : Nat) : Bool :=
  let v4 := s.get F.NET_IP4.ADDR
  let v6 := s.get F.NET_IP6_LO.ADDR + 2 ^ 64 * s.get F.NET_IP6_HI.ADDR
  (v4 ≠ 0 && a = mapped4 v4) || (v6 ≠ 0 && a = v6)

/-- A UDP datagram to the device: source address and port, destination port, payload. -/
def State.udpOf (s : State) (e : Eth) : Option (Nat × Nat × Nat × List Byte) :=
  match e.ip with
  | some (src, dst, 17, p) => if s.isOwnIp dst then some (src, beAt p 0 2, beAt p 2 2, (p.take (beAt p 4 2)).drop 8) else none
  | _ => none

/-- A frame whose destination address is the device's. -/
def State.toDevice (s : State) (e : Eth) : Bool := e.dst = s.get F.NET_MAC.ADDR

/-- A group address. -/
def isGroup (mac : Nat) : Bool := mac.testBit 40

/-! ### Forwarding -/

/-- NET_VLAN_DATA of a VLAN. -/
def State.vlan (s : State) (vid : Nat) : Word := tabGet 0 s.net.vlans vid

/-- A port is a member of a VLAN that exists. -/
def State.isMember (s : State) (vid p : Nat) : Bool := (s.vlan vid).getLsbD 63 && (F.NET_VLAN_DATA.MEMBERS.of (s.vlan vid)).testBit p

/-- The device endpoint hears a port in a VLAN: both are members of it (R387, R410). -/
def State.hears (s : State) (vid p : Nat) : Bool := s.isMember vid p && s.isMember vid 16

/-- The entry of an address in a VLAN. -/
def State.fdbFind (s : State) (mac vid : Nat) : Option (Nat × FdbEntry) := s.net.fdb.find? (fun p => p.2.mac = mac && p.2.vid = vid)

/-- The source address of a frame is learned on its port; a full table learns no new address (R387). -/
def State.learn (s : State) (p : Nat) (e : Eth) : State :=
  if !s.flag F.NET_CTL.LEARN || isGroup e.src then s
  else match s.fdbFind e.src e.vid with
    | some (i, x) =>
      if x.static then s else { s with net := { s.net with fdb := tabInsert s.net.fdb i { x with port := p, seen := s.time } } }
    | none =>
      let n := s.net.fdb.length
      if n ≥ 32768 then s
      else match (List.range (n + 1)).find? (fun i => (tabFind s.net.fdb i).isNone) with
        | some i => { s with net := { s.net with fdb := tabInsert s.net.fdb i ⟨p, e.src, e.vid, false, s.time⟩ } }
        | none => s

/-- A frame leaves on a port, tagged as the VLAN orders (R387). -/
def State.sendOn (s : State) (e : Eth) (p : Nat) : State :=
  let un := (F.NET_VLAN_DATA.UNTAGGED.of (s.vlan e.vid)).testBit p
  (s.emit (.frame p (e.bytes (!un)))).bump (R.NET_PORT_CNT_TX p)

/-- A frame may leave on a port: another one than it came in on, in service, a member of the VLAN, not blocked. -/
def State.mayLeave (s : State) (e : Eth) (from' p : Nat) : Bool :=
  p ≠ from' && s.portExists p && s.portUp p && s.isMember e.vid p && !s.ringBlocked p

/-- Forwarding between ports (R387): to the port learned for the destination, else to the other members of the VLAN. -/
def State.forward (s : State) (from' : Nat) (e : Eth) : State :=
  if !s.flag F.NET_CTL.BRIDGE || !s.isMember e.vid from' then s
  else
    let flood := fun (s : State) =>
      let s := if s.net.fdb.length ≥ 32768 && !isGroup e.dst then s.bump R.NET_CNT_FDB_FULL else s
      s.each ((List.range 16).filter (s.mayLeave e from')) (fun s p => s.sendOn e p)
    if isGroup e.dst then flood s
    else match s.fdbFind e.dst e.vid with
      | some (_, x) => if x.port ≥ 16 then s else if s.mayLeave e from' x.port then s.sendOn e x.port else s
      | none => flood s

/-! ### The device endpoint -/

/-- The PTP message in a frame: over Ethernet, or in UDP to ports 319 and 320 of the device (R387). -/
def State.ptpOf (s : State) (e : Eth) : Option (List Byte) :=
  if e.type = 0x88F7 then some e.body
  else match s.udpOf e with
    | some (_, _, dport, p) => if dport = 319 || dport = 320 then some p else none
    | none => none

/-- The PTP message that a frame to be sent carries, over Ethernet or UDP. -/
def ptpSent (b : List Byte) : List Byte :=
  let e := readEth 0 b
  if e.type = 0x88F7 then e.body else match e.ip with
    | some (_, _, _, u) => u.drop 8
    | none => []

/-- What the device writes into a PTP message that it sends (R393, R394; places of IEEE 1588, PRESUMED, log entry 93): into an
Announce its priorities and, in FREE and HOLDOVER, where it is the grandmaster, its clockClass; into a one-step Sync the corrected
egress time. -/
def State.ptpFill (s : State) (p : Nat) (m : List Byte) : List Byte :=
  let kind := beAt m 0 1 % 16
  let st := s.get F.TIM_SERVO.STATE
  if kind = 0xB && (st = 0 || st = 3) then
    m.take 47 ++ beBytes 1 (s.get F.TIM_BC.PRIORITY1) ++ beBytes 1 (if st = 0 then s.get F.TIM_BC.FREE_CLASS else s.get F.TIM_BC.HOLD_CLASS) ++
      sliceAt m 49 3 ++ beBytes 1 (s.get F.TIM_BC.PRIORITY2) ++ m.drop 53
  else if kind = 0 && s.flag (F.NET_PORT_CTL.ONE_STEP p) then
    let ns := s.egressPs p s.time / 1000
    m.take 34 ++ beBytes 6 (ns / 1000000000) ++ beBytes 4 (ns % 1000000000) ++ m.drop 44
  else m

/-- A PTP answer leaves; an event message is stamped, as a Sync is unless the port sends one-step (R393, R396). -/
def State.ptpAnswer (s : State) (p : Nat) (b : List Byte) : State :=
  if b.isEmpty then s
  else
    let m := ptpSent b
    let b := b.take (b.length - m.length) ++ s.ptpFill p m
    let s := (s.emit (.frame p b)).bump (R.NET_PORT_CNT_TX p)
    let kind := beAt m 0 1 % 16
    if m.isEmpty || kind > 3 || (kind = 0 && s.flag (F.NET_PORT_CTL.ONE_STEP p)) then s else s.stampTx p (beAt m 30 2) s.time

/-- The source of the time servo is heard: it is valid, and its Announce time is noted (R390). -/
def State.announced (s : State) : State :=
  let s := { s with net := { s.net with servo := { s.net.servo with announceAt := s.time } } }
  s.sourceValid

/-- An offset sample that arrives on a port (R390). -/
def State.synced (s : State) (p : Nat) (off : Int) : State :=
  let s := s.sourceValid.put F.TIM_SERVO.PORT p
  let s := { s with net := { s.net with servo := { s.net.servo with syncAt := s.time } } }
  s.offsetSample off

/-- What a PTP message does to the time servo, when PTP is its source (R390, R392). -/
def State.ptpServo (s : State) (p : Nat) (w : PtpWork) : State :=
  if s.get F.TIM_SERVO.SOURCE ≠ 0 then s
  else
    let s := if w.announce then s.announced else s
    match w.offset with
    | none => s
    | some off => if s.get F.TIM_SERVO.STATE = 0 then s else s.synced p off

/-- A PTP message is taken by the time unit (R392, R393). -/
def State.ptpIn (s : State) (p : Nat) (w : PtpWork) : State :=
  let s := match w.portState with
    | some v => s.put (F.NET_PORT_STAT.PTP_STATE p) v
    | none => s
  (s.ptpServo p w).ptpAnswer p w.answer

/-- Key agreement on an EAPOL frame, with the CAK of the port (R390), which CORE and FUSE take away (R494). -/
def State.mkaIn (s : State) (p : Nat) (w : MkaWork) : State :=
  if (tabFind s.sec.caks p).isNone || s.sec.zeroised then s
  else
    let s := ((s.put (F.NET_PORT_MACSEC.MKA_UP p) (bit w.up)).put (F.NET_PORT_MACSEC.TX_AN p) (w.txAn % 4)).put
      (F.NET_PORT_MACSEC.RX_SC p) (min w.rxSc 32)
    if w.answer.isEmpty then s else (s.emit (.frame p w.answer)).bump (R.NET_PORT_CNT_TX p)

/-- The ring instance whose R-APS VLAN a frame is in, on one of its ring ports (R389). -/
def State.rapsRing (s : State) (p : Nat) (e : Eth) : Option (Nat × Nat) :=
  if e.type = 0x8902 && beAt e.body 1 1 = 40 then
    (List.range 8).findSome? (fun n => match s.ringSide n p with
      | some side => if s.get (F.NET_ERP_k.RAPS_VID n) = e.vid then some (n, side) else none
      | none => none)
  else none

/-- An R-APS message: taken by its instance, and passed on over the other ring port unless that is blocked (PRESUMED, log entry 32). -/
def State.rapsFrame (s : State) (p n side : Nat) (e : Eth) : State :=
  let s := s.rapsIn n side (beAt e.body 4 1 / 16) (beAt e.body 5 1)
  let q := s.ringPort n (1 - side)
  if beAt e.body 6 6 ≠ s.get F.NET_MAC.ADDR && q ≠ p && s.portUp q && (s.erp n).blocked = 0 then s.sendOn e q else s

/-- Address and echo protocols that the NET component answers (R387): ARP, ICMP, ICMPv6. -/
def State.answered (s : State) (e : Eth) : Bool :=
  e.type = 0x0806 || (match e.ip with
    | some (_, dst, proto, _) => (e.type = 0x0800 && proto = 1 && s.isOwnIp dst) || (e.type = 0x86DD && proto = 58)
    | none => false)

/-- Delivery by the first row of R387 that matches a frame, or forwarding. -/
def State.deliverFrame (s : State) (p : Nat) (e : Eth) (f : Frame) : State :=
  let ptp := s.get (F.NET_PORT_CTL.PTP_ROLE p) ≠ 0 && (s.ptpOf e).isSome
  if ptp then s.ptpIn p f.ptp
  else match s.rapsRing p e with
    | some (n, side) => s.rapsFrame p n side e
    | none =>
      if e.type = 0x888E then s.mkaIn p f.mka
      else if s.ringBlocked p then s
      else
        let s := s.learn p e
        if s.toDevice e && !s.hears e.vid p then s
        else match s.udpOf e with
        | some (src, sport, dport, b) =>
          if !s.toDevice e then s.forward p e
          else if dport = s.get F.HG_CTL.UDP_PORT then s.runnel p src sport b
          else if dport = s.get F.NET_CTL.CULVERT_UDP then s.culvertIn p ⟨src, b, f.pair⟩
          else s.put F.NET_ERR.UNKNOWN_FRAME 1
        | none =>
          if s.toDevice e then
            (if !s.answered e then s.put F.NET_ERR.UNKNOWN_FRAME 1
            else if f.reply.isEmpty then s else (s.emit (.frame p f.reply)).bump (R.NET_PORT_CNT_TX p))
          else
            let s := if isGroup e.dst && s.hears e.vid p && s.answered e && !f.reply.isEmpty then
                (s.emit (.frame p f.reply)).bump (R.NET_PORT_CNT_TX p) else s
            s.forward p e

/-- A frame is received on a port (R385–R390). -/
def State.frameIn (s : State) (p : Nat) (f : Frame) : State :=
  if !s.portExists p || !s.flag (F.NET_PORT_CTL.ENABLE p) || !s.portUp p then s
  else if !f.fcsOk || f.bytes.length + 4 > 9216 then s.bump (R.NET_PORT_CNT_RX_FCS p)
  else
    let s := s.bump (R.NET_PORT_CNT_RX p)
    let e := readEth (s.get (F.NET_PORT_CTL.PVID p)) f.bytes
    if s.flag (F.NET_PORT_CTL.MACSEC p) && e.type ≠ 0x888E && !(f.secured && f.secOk) then s.bump (R.NET_PORT_CNT_MACSEC_DROP p)
    else s.deliverFrame p e f

def execEthernetFrame (t port : Nat) (frame : Frame) (s : State) : Res := .next ((s.at t).frameIn port frame)

end Sys2Proof.Machine
end

