-- ==== Sys2Proof/Machine/Reliability.lean ====
section
/-!
DEFINITION. What the reliability block and the management bus do beside the other blocks: the FATAL error (R419), the end
of fault spacing (R420), the merge window of CORRECTED errors (R416), commands on the management bus (R488, R489).
-/

namespace Sys2Proof.Machine

/-! ### Faults -/

/-- A FATAL error is detected while the device runs (R414, R419): it bears on every stream. -/
def State.fatalError (s : State) (part index cond : Nat) : State :=
  if s.running then s.fatal part index cond s.ownStreams 0 else s

def execFatalError (t part index cond : Nat) (s : State) : Res := .next ((s.at t).fatalError part index cond)

/-- The FAULT_SPACING suspension that began first ends, 10 ms after the detection of its fault (R10, R420). -/
def State.spacingEnd (s : State) : State :=
  let open' := s.ras.susp.filter (fun x => x.cause = cSpacing && x.doneAt.isNone)
  match minNat? (open'.map (fun x => x.since)) with
  | none => s
  | some t => (s.at (t + spacingNs)).endSusp cSpacing (unionAll ((open'.filter (fun x => x.since = t)).map (fun x => x.streams))) 0

def execFaultSpacingEnd (s : State) : Res := .next s.spacingEnd

/-- The 1 ms of a part's CORRECTED errors is over: one record with MERGED and their count (R416). -/
def State.mergeEnd (s : State) (part index : Nat) : State :=
  match s.ras.merging.find? (fun m => m.part = part && m.index = index) with
  | none => s
  | some m =>
    let s := { s with ras := { s.ras with merging := s.ras.merging.filter (fun x => !(x.part = part && x.index = index)) } }
    (s.at (m.since + 1000000)).errRecordAt ⟨.corrected, part, index, m.cond, m.streams, 4, 0, m.count, m.address, 0⟩ m.since

def execCeMergeWindow (part index : Nat) (s : State) : Res := .next (s.mergeEnd part index)

/-! ### The management bus -/

/-- A command is issued on the management bus (R470, R489): the descriptor and the data buffer as written, then the issue.
A transfer to a session command keeps its session (R488). -/
def State.busCommand (s : State) (desc data : List Byte) : State :=
  if !s.fwReady || s.get F.PWR_STOP.STATE ≠ 0 || s.aid.bus.busy then s
  else
    let d := (desc ++ zeros 64).take 64
    let s := { s with
      aid := { s.aid with bus := { s.aid.bus with desc := d, data := (data ++ s.aid.bus.data.drop data.length).take 96, busy := true } }
      sec := { s.sec with sessions := s.sec.sessions.map (fun (x : Session) =>
        if x.fn = 64 && x.id = fieldAt d 4 4 then { x with lastUse := s.time } else x) } }
    s.takeDescriptor 0x2001 0 false d

def execMbCommand (t : Nat) (desc data : List Byte) (s : State) : Res := .next ((s.at t).busCommand desc data)

/-- A session on the bus closes 10 s after the last transfer to one of its commands (R488). -/
def State.busTimeout (s : State) : State :=
  match minNat? ((s.sec.sessions.filter (fun x => x.fn = 64)).map (fun x => x.lastUse)) with
  | none => s
  | some t => (s.at (t + 10000000000)).closeSessions (fun x => x.fn = 64 && decide (x.lastUse ≤ t))

def execBusSessionTimeout (s : State) : Res := .next s.busTimeout

end Sys2Proof.Machine
end

