-- ==== Sys2Proof/Machine/Dispatch.lean ====
section
/-!
DEFINITION. One arm for each command of the table: its meaning, on everything but the queue.
-/

namespace Sys2Proof.Machine

def exec (i : Instr) (s : State) : Host.Outcome State Fault Refusal :=
  match i with
  | .runnelBatch t port src sport payload => Sys2Proof.Machine.execRunnelBatch t port src sport payload s
  | .journalWriteComplete t stream seq => Sys2Proof.Machine.execJournalWriteComplete t stream seq s
  | .mirrorConfirmation t stream seq => Sys2Proof.Machine.execMirrorConfirmation t stream seq s
  | .mirrorTmo stream seq => Sys2Proof.Machine.execMirrorTmo stream seq s
  | .gapAckRepeat stream => Sys2Proof.Machine.execGapAckRepeat stream s
  | .heldBatchDrop stream seq => Sys2Proof.Machine.execHeldBatchDrop stream seq s
  | .sliceGuardExpiry stream => Sys2Proof.Machine.execSliceGuardExpiry stream s
  | .trackedFit stream => Sys2Proof.Machine.execTrackedFit stream s
  | .hgGlbCommit t req val => Sys2Proof.Machine.execHgGlbCommit t req val s
  | .hgStreamCommit t req stream val => Sys2Proof.Machine.execHgStreamCommit t req stream val s
  | .frfBinPass => Sys2Proof.Machine.execFrfBinPass s
  | .frfDetectorWindowEnd lane => Sys2Proof.Machine.execFrfDetectorWindowEnd lane s
  | .frfSwitchInstant => Sys2Proof.Machine.execFrfSwitchInstant s
  | .frfDwellBoundary => Sys2Proof.Machine.execFrfDwellBoundary s
  | .frfFoldDecision lane => Sys2Proof.Machine.execFrfFoldDecision lane s
  | .frfMaskUpdate => Sys2Proof.Machine.execFrfMaskUpdate s
  | .frfMaskTakeEffect entry => Sys2Proof.Machine.execFrfMaskTakeEffect entry s
  | .frfMaskExpiry entry => Sys2Proof.Machine.execFrfMaskExpiry entry s
  | .frfLaneSwap t req lane val => Sys2Proof.Machine.execFrfLaneSwap t req lane val s
  | .fadeEnd lane => Sys2Proof.Machine.execFadeEnd lane s
  | .frfSync t req val => Sys2Proof.Machine.execFrfSync t req val s
  | .frfMaskData1 t req val => Sys2Proof.Machine.execFrfMaskData1 t req val s
  | .frfCoefData t req val => Sys2Proof.Machine.execFrfCoefData t req val s
  | .frfGlbCommit t req val => Sys2Proof.Machine.execFrfGlbCommit t req val s
  | .frfLaneCommit t req lane val => Sys2Proof.Machine.execFrfLaneCommit t req lane val s
  | .spikePacket t packet => Sys2Proof.Machine.execSpikePacket t packet s
  | .stepMarker t packet => Sys2Proof.Machine.execStepMarker t packet s
  | .gatewayMarker t gateway stream step => Sys2Proof.Machine.execGatewayMarker t gateway stream step s
  | .stepEnd t core => Sys2Proof.Machine.execStepEnd t core s
  | .stepDeadline core => Sys2Proof.Machine.execStepDeadline core s
  | .stretchExpiry core => Sys2Proof.Machine.execStretchExpiry core s
  | .countFrame t pop => Sys2Proof.Machine.execCountFrame t pop s
  | .furrowCoreFault t core cond => Sys2Proof.Machine.execFurrowCoreFault t core cond s
  | .fwGlbCommit t req val => Sys2Proof.Machine.execFwGlbCommit t req val s
  | .fwCoreCommit t req core val => Sys2Proof.Machine.execFwCoreCommit t req core val s
  | .fwMapCommit t req stream val => Sys2Proof.Machine.execFwMapCommit t req stream val s
  | .fwPopCommit t req pop val => Sys2Proof.Machine.execFwPopCommit t req pop val s
  | .fwTblData t req val => Sys2Proof.Machine.execFwTblData t req val s
  | .layerBoundary t tile run => Sys2Proof.Machine.execLayerBoundary t tile run s
  | .haloPublish t tile consumer layer stream k corrected => Sys2Proof.Machine.execHaloPublish t tile consumer layer stream k corrected s
  | .tileFault t tile cond => Sys2Proof.Machine.execTileFault t tile cond s
  | .groupRemapComplete t group => Sys2Proof.Machine.execGroupRemapComplete t group s
  | .stCommit t req tile val => Sys2Proof.Machine.execStCommit t req tile val s
  | .featureArrival t word0 word1 => Sys2Proof.Machine.execFeatureArrival t word0 word1 s
  | .instantOpenTimeout group => Sys2Proof.Machine.execInstantOpenTimeout group s
  | .instantExpiry group => Sys2Proof.Machine.execInstantExpiry group s
  | .fusionComplete t group fused => Sys2Proof.Machine.execFusionComplete t group fused s
  | .slotCheckpointComplete t group => Sys2Proof.Machine.execSlotCheckpointComplete t group s
  | .coppiceUnitFault t unit cond => Sys2Proof.Machine.execCoppiceUnitFault t unit cond s
  | .cpGlbCommit t req val => Sys2Proof.Machine.execCpGlbCommit t req val s
  | .cpGrpCommit t req group val => Sys2Proof.Machine.execCpGrpCommit t req group val s
  | .cpMbrCommit t req stream val => Sys2Proof.Machine.execCpMbrCommit t req stream val s
  | .admissionEvaluation t => Sys2Proof.Machine.execAdmissionEvaluation t s
  | .readmission t => Sys2Proof.Machine.execReadmission t s
  | .capacityRelease t stream => Sys2Proof.Machine.execCapacityRelease t stream s
  | .floorLower t => Sys2Proof.Machine.execFloorLower t s
  | .dramAccess t agent addr write data len ecc => Sys2Proof.Machine.execDramAccess t agent addr write data len ecc s
  | .patrolScrub t addr ecc => Sys2Proof.Machine.execPatrolScrub t addr ecc s
  | .dramRefresh t temp => Sys2Proof.Machine.execDramRefresh t temp s
  | .pseudoChannelFail t pc cond => Sys2Proof.Machine.execPseudoChannelFail t pc cond s
  | .memRgnCommit t req region val => Sys2Proof.Machine.execMemRgnCommit t req region val s
  | .canalFlit t link flit => Sys2Proof.Machine.execCanalFlit t link flit s
  | .linkFail t link => Sys2Proof.Machine.execLinkFail t link s
  | .sqWrite t queue agent mark word => Sys2Proof.Machine.execSqWrite t queue agent mark word s
  | .sqRead t queue agent => Sys2Proof.Machine.execSqRead t queue agent s
  | .queueReset t queue cause => Sys2Proof.Machine.execQueueReset t queue cause s
  | .sqQCommit t req val => Sys2Proof.Machine.execSqQCommit t req val s
  | .doorbellSnoop t block recs xlate => Sys2Proof.Machine.execDoorbellSnoop t block recs xlate s
  | .doorbellPoll t block recs xlate => Sys2Proof.Machine.execDoorbellPoll t block recs xlate s
  | .watchReread t block recs => Sys2Proof.Machine.execWatchReread t block recs s
  | .nudge t fn off recs => Sys2Proof.Machine.execNudge t fn off recs s
  | .descriptorFetch t ring descs xlate => Sys2Proof.Machine.execDescriptorFetch t ring descs xlate s
  | .runWrite t ring xlate => Sys2Proof.Machine.execRunWrite t ring xlate s
  | .coalescingTime ring => Sys2Proof.Machine.execCoalescingTime ring s
  | .flr t fn => Sys2Proof.Machine.execFlr t fn s
  | .linkDown t => Sys2Proof.Machine.execLinkDown t s
  | .linkUp t speed width cxl host => Sys2Proof.Machine.execLinkUp t speed width cxl host s
  | .hifFnCommit t req fn val => Sys2Proof.Machine.execHifFnCommit t req fn val s
  | .hifFnAdmCommit t req fn val => Sys2Proof.Machine.execHifFnAdmCommit t req fn val s
  | .commandStep t core comp work => Sys2Proof.Machine.execCommandStep t core comp work s
  | .compartmentViolation t core access => Sys2Proof.Machine.execCompartmentViolation t core access s
  | .controlCoreFail t core cond => Sys2Proof.Machine.execControlCoreFail t core cond s
  | .coreRejoin t core checkOk => Sys2Proof.Machine.execCoreRejoin t core checkOk s
  | .mwWrite t off size val => Sys2Proof.Machine.execMwWrite t off size val s
  | .mwCmdGo t => Sys2Proof.Machine.execMwCmdGo t s
  | .mbxCfg t req mbx val => Sys2Proof.Machine.execMbxCfg t req mbx val s
  | .mbxSend t req mbx val => Sys2Proof.Machine.execMbxSend t req mbx val s
  | .mbxRecv t req mbx => Sys2Proof.Machine.execMbxRecv t req mbx s
  | .mbxDbRing t req mbx val => Sys2Proof.Machine.execMbxDbRing t req mbx val s
  | .lckAcquireRead t req lock => Sys2Proof.Machine.execLckAcquireRead t req lock s
  | .lckReleaseWrite t req lock val => Sys2Proof.Machine.execLckReleaseWrite t req lock val s
  | .lckForce t req val => Sys2Proof.Machine.execLckForce t req val s
  | .componentHandover t comp handoverOk => Sys2Proof.Machine.execComponentHandover t comp handoverOk s
  | .deferredActivationBegin t => Sys2Proof.Machine.execDeferredActivationBegin t s
  | .sessionChallenge t cmd => Sys2Proof.Machine.execSessionChallenge t cmd s
  | .sessionOpen t cmd => Sys2Proof.Machine.execSessionOpen t cmd s
  | .sessionClose t cmd => Sys2Proof.Machine.execSessionClose t cmd s
  | .ringCreate t cmd => Sys2Proof.Machine.execRingCreate t cmd s
  | .ringDestroy t cmd => Sys2Proof.Machine.execRingDestroy t cmd s
  | .ringAttach t cmd => Sys2Proof.Machine.execRingAttach t cmd s
  | .fwVersion t cmd => Sys2Proof.Machine.execFwVersion t cmd s
  | .classSet t cmd => Sys2Proof.Machine.execClassSet t cmd s
  | .groupSet t cmd => Sys2Proof.Machine.execGroupSet t cmd s
  | .streamOpen t cmd => Sys2Proof.Machine.execStreamOpen t cmd s
  | .streamModify t cmd => Sys2Proof.Machine.execStreamModify t cmd s
  | .streamClose t cmd => Sys2Proof.Machine.execStreamClose t cmd s
  | .modelLoad t cmd image => Sys2Proof.Machine.execModelLoad t cmd image s
  | .modelActivate t cmd => Sys2Proof.Machine.execModelActivate t cmd s
  | .modelActivateCancel t cmd => Sys2Proof.Machine.execModelActivateCancel t cmd s
  | .activationSwitch t slot => Sys2Proof.Machine.execActivationSwitch t slot s
  | .modelUnload t cmd => Sys2Proof.Machine.execModelUnload t cmd s
  | .modelQuery t cmd => Sys2Proof.Machine.execModelQuery t cmd s
  | .configCommit t cmd => Sys2Proof.Machine.execConfigCommit t cmd s
  | .timedConfigCommit => Sys2Proof.Machine.execTimedConfigCommit s
  | .calRead t cmd => Sys2Proof.Machine.execCalRead t cmd s
  | .calWrite t cmd flashOk => Sys2Proof.Machine.execCalWrite t cmd flashOk s
  | .fwStage t cmd => Sys2Proof.Machine.execFwStage t cmd s
  | .fwActivate t cmd => Sys2Proof.Machine.execFwActivate t cmd s
  | .fwActivateCancel t cmd => Sys2Proof.Machine.execFwActivateCancel t cmd s
  | .fwActivateTime => Sys2Proof.Machine.execFwActivateTime s
  | .timeGet t cmd => Sys2Proof.Machine.execTimeGet t cmd s
  | .timeSet t cmd => Sys2Proof.Machine.execTimeSet t cmd s
  | .powerSet t cmd => Sys2Proof.Machine.execPowerSet t cmd s
  | .stopEnter t cmd => Sys2Proof.Machine.execStopEnter t cmd s
  | .warmReset t cmd boot => Sys2Proof.Machine.execWarmReset t cmd boot s
  | .statsRead t cmd => Sys2Proof.Machine.execStatsRead t cmd s
  | .logConfig t cmd => Sys2Proof.Machine.execLogConfig t cmd s
  | .attest t cmd => Sys2Proof.Machine.execAttest t cmd s
  | .keyProvision t cmd => Sys2Proof.Machine.execKeyProvision t cmd s
  | .buddyPair t cmd peer => Sys2Proof.Machine.execBuddyPair t cmd peer s
  | .buddyUnpair t cmd => Sys2Proof.Machine.execBuddyUnpair t cmd s
  | .buddyStatus t cmd => Sys2Proof.Machine.execBuddyStatus t cmd s
  | .testFault t cmd => Sys2Proof.Machine.execTestFault t cmd s
  | .testFaultInjection t => Sys2Proof.Machine.execTestFaultInjection t s
  | .testFaultRestore t => Sys2Proof.Machine.execTestFaultRestore t s
  | .injectionDescriptor t ring buffer => Sys2Proof.Machine.execInjectionDescriptor t ring buffer s
  | .ethernetFrame t port frame => Sys2Proof.Machine.execEthernetFrame t port frame s
  | .portFail t port => Sys2Proof.Machine.execPortFail t port s
  | .portReturn t port => Sys2Proof.Machine.execPortReturn t port s
  | .fdbAgeing t index => Sys2Proof.Machine.execFdbAgeing t index s
  | .netFdbData t req val => Sys2Proof.Machine.execNetFdbData t req val s
  | .sourceTimeout t => Sys2Proof.Machine.execSourceTimeout t s
  | .holdoverLimit => Sys2Proof.Machine.execHoldoverLimit s
  | .launch t port => Sys2Proof.Machine.execLaunch t port s
  | .netPortTxtsId t req port => Sys2Proof.Machine.execNetPortTxtsId t req port s
  | .culvertDatagram t port msg => Sys2Proof.Machine.execCulvertDatagram t port msg s
  | .dissentEnd peer epoch => Sys2Proof.Machine.execDissentEnd peer epoch s
  | .culvertRetransmit t peer chan => Sys2Proof.Machine.execCulvertRetransmit t peer chan s
  | .heartbeat t => Sys2Proof.Machine.execHeartbeat t s
  | .peerLost t peer => Sys2Proof.Machine.execPeerLost t peer s
  | .authChallenge t peer => Sys2Proof.Machine.execAuthChallenge t peer s
  | .timNow t req => Sys2Proof.Machine.execTimNow t req s
  | .ppsIn t => Sys2Proof.Machine.execPpsIn t s
  | .ppsOut => Sys2Proof.Machine.execPpsOut s
  | .netGlbCommit t req val => Sys2Proof.Machine.execNetGlbCommit t req val s
  | .netPortCommit t req port val => Sys2Proof.Machine.execNetPortCommit t req port val s
  | .netExpCommit t req queue val => Sys2Proof.Machine.execNetExpCommit t req queue val s
  | .netPeerCommit t req peer val => Sys2Proof.Machine.execNetPeerCommit t req peer val s
  | .timCommit t req val => Sys2Proof.Machine.execTimCommit t req val s
  | .fatalError t part index cond => Sys2Proof.Machine.execFatalError t part index cond s
  | .faultSpacingEnd => Sys2Proof.Machine.execFaultSpacingEnd s
  | .leaseWrite t readBack peerWord pathOk => Sys2Proof.Machine.execLeaseWrite t readBack peerWord pathOk s
  | .fenced t => Sys2Proof.Machine.execFenced t s
  | .takeover t host => Sys2Proof.Machine.execTakeover t host s
  | .dvfsRequest t => Sys2Proof.Machine.execDvfsRequest t s
  | .avsVoltageRead t mv => Sys2Proof.Machine.execAvsVoltageRead t mv s
  | .pgoodHold t => Sys2Proof.Machine.execPgoodHold t s
  | .raiseTimeout => Sys2Proof.Machine.execRaiseTimeout s
  | .powerCapDecision t mw => Sys2Proof.Machine.execPowerCapDecision t mw s
  | .thermalSample t temps => Sys2Proof.Machine.execThermalSample t temps s
  | .throttleStep => Sys2Proof.Machine.execThrottleStep s
  | .thermalEmergencyEnd t => Sys2Proof.Machine.execThermalEmergencyEnd t s
  | .powerEmergency t => Sys2Proof.Machine.execPowerEmergency t s
  | .powerEmergencyEnd t => Sys2Proof.Machine.execPowerEmergencyEnd t s
  | .pllLockLoss t => Sys2Proof.Machine.execPllLockLoss t s
  | .pgoodLoss t rail => Sys2Proof.Machine.execPgoodLoss t rail s
  | .addressMatch t addr xfer boot aclkOk => Sys2Proof.Machine.execAddressMatch t addr xfer boot aclkOk s
  | .wakeAbort t cause index => Sys2Proof.Machine.execWakeAbort t cause index s
  | .wakeRetry t boot aclkOk => Sys2Proof.Machine.execWakeRetry t boot aclkOk s
  | .domainReady t dom => Sys2Proof.Machine.execDomainReady t dom s
  | .powerOn t boot => Sys2Proof.Machine.execPowerOn t boot s
  | .rstN t boot => Sys2Proof.Machine.execRstN t boot s
  | .perstN t boot => Sys2Proof.Machine.execPerstN t boot s
  | .coldStartRetry t boot => Sys2Proof.Machine.execColdStartRetry t boot s
  | .readyTimeout t => Sys2Proof.Machine.execReadyTimeout t s
  | .arbitrationRead t addr others => Sys2Proof.Machine.execArbitrationRead t addr others s
  | .setpos t bytes => Sys2Proof.Machine.execSetpos t bytes s
  | .mbCommand t desc data => Sys2Proof.Machine.execMbCommand t desc data s
  | .busSessionTimeout => Sys2Proof.Machine.execBusSessionTimeout s
  | .dbgNonce t => Sys2Proof.Machine.execDbgNonce t s
  | .dbgToken t token => Sys2Proof.Machine.execDbgToken t token s
  | .setupLock t req val => Sys2Proof.Machine.execSetupLock t req val s
  | .sysShadowDiscard t req val => Sys2Proof.Machine.execSysShadowDiscard t req val s
  | .claimLapsed commit => Sys2Proof.Machine.execClaimLapsed commit s
  | .pendingCommitApply t commit => Sys2Proof.Machine.execPendingCommitApply t commit s
  | .registerWrite t fn req off size val => Sys2Proof.Machine.execRegisterWrite t fn req off size val s
  | .vddAonLoss t => Sys2Proof.Machine.execVddAonLoss t s
  | .pgoodReturn t rail => Sys2Proof.Machine.execPgoodReturn t rail s
  | .enumInChange t level => Sys2Proof.Machine.execEnumInChange t level s
  | .waitToRestore inst => Sys2Proof.Machine.execWaitToRestore inst s
  | .guardTimer inst => Sys2Proof.Machine.execGuardTimer inst s
  | .ppsOutFall => Sys2Proof.Machine.execPpsOutFall s
  | .ceMergeWindow part index => Sys2Proof.Machine.execCeMergeWindow part index s
  | .msixUnmask t fn vec masked => Sys2Proof.Machine.execMsixUnmask t fn vec masked s
  | .linkRetrain t speed width => Sys2Proof.Machine.execLinkRetrain t speed width s
  | .portLinkUp t port => Sys2Proof.Machine.execPortLinkUp t port s
  | .pairingTimeout => Sys2Proof.Machine.execPairingTimeout s

end Sys2Proof.Machine
end

