-- ==== Sys2Proof/Machine/Idle.lean ====
section
/-!
DEFINITION. What the block does while no command waits: one cycle of TCLK (R391), and the next step of a STOP entry under
way (R448).  That this is what an empty queue stands for is the model's choice (DESIGN CHOICE, log entry 44).
-/

namespace Sys2Proof.Machine

/-- TCLK runs: the root PLL is locked and the clocks are not held (R438, R439, R448). -/
def State.ticking (s : State) : Bool := s.flag F.CLK_STAT.ROOT_LOCK && !s.pow.stopped

/-- One TCLK cycle: D := D + ADDEND × 2^−32 ns (R391). -/
def State.tick (s : State) : State :=
  if s.ticking then
    let n := s.frac + s.get F.TIM_ADDEND.ADDEND
    { s with time := s.time + n / 2 ^ 32, frac := n % 2 ^ 32 }
  else s

/-- The block with no command waiting. -/
def State.idle (s : State) : State := s.tick.entryNext

end Sys2Proof.Machine
end

