-- ==== Sys2Proof/Safety.lean ====
section
/-!
DEFINITION. What counts as a safe run, in the terms that claims use: no step stops, the memory and the register file keep
their canonical form, the queue of commands loses only its front, and what left the package is never taken back.
-/

namespace Sys2Proof

/-- The canonical form of a state: memory cells at rising addresses and none that reads as an unlisted one; registers,
and shadow copies, at rising offsets. -/
def Canonical (s : Machine.State) : Prop :=
  Machine.Memory.wf s.mem = true ∧ tabSorted s.regs = true ∧ tabSorted s.shadow = true

/-- The parts of a state, apart from the queue: one for each field. -/
inductive Part where
  | time | frac | regs | shadow | groups | mem | out | fresh | hif | ras | mm | hg | frf | fw | sd | img | cp | aid
  | cal | built | mbx | net | bud | sec | adm | pow | aon
  deriving DecidableEq, Repr

/-- A set of parts as a number, one bit for each part. -/
def Part.bit : Part → Nat
  | .time => 1
  | .frac => 2
  | .regs => 4
  | .shadow => 8
  | .groups => 16
  | .mem => 32
  | .out => 64
  | .fresh => 128
  | .hif => 256
  | .ras => 512
  | .mm => 1024
  | .hg => 2048
  | .frf => 4096
  | .fw => 8192
  | .sd => 16384
  | .img => 32768
  | .cp => 65536
  | .aid => 131072
  | .cal => 262144
  | .built => 524288
  | .mbx => 1048576
  | .net => 2097152
  | .bud => 4194304
  | .sec => 8388608
  | .adm => 16777216
  | .pow => 33554432
  | .aon => 67108864

/-- The set of the listed parts. -/
def parts (l : List Part) : Nat := l.foldl (fun m p => m ||| p.bit) 0

/-- A part is the same in two states. -/
def Same (s t : Machine.State) : Part → Prop
  | .time => t.time = s.time
  | .frac => t.frac = s.frac
  | .regs => t.regs = s.regs
  | .shadow => t.shadow = s.shadow
  | .groups => t.groups = s.groups
  | .mem => t.mem = s.mem
  | .out => t.out = s.out
  | .fresh => t.fresh = s.fresh
  | .hif => t.hif = s.hif
  | .ras => t.ras = s.ras
  | .mm => t.mm = s.mm
  | .hg => t.hg = s.hg
  | .frf => t.frf = s.frf
  | .fw => t.fw = s.fw
  | .sd => t.sd = s.sd
  | .img => t.img = s.img
  | .cp => t.cp = s.cp
  | .aid => t.aid = s.aid
  | .cal => t.cal = s.cal
  | .built => t.built = s.built
  | .mbx => t.mbx = s.mbx
  | .net => t.net = s.net
  | .bud => t.bud = s.bud
  | .sec => t.sec = s.sec
  | .adm => t.adm = s.adm
  | .pow => t.pow = s.pow
  | .aon => t.aon = s.aon

/-- From `s` to `t` the queue is not touched, no output is taken back, no free value is used again, the canonical form is
kept, and only parts of the set `W` change. -/
def Keeps (W : Nat) (s t : Machine.State) : Prop :=
  t.pending = s.pending ∧ s.out <+: t.out ∧ s.fresh ≤ t.fresh ∧ (Canonical s → Canonical t) ∧
    ∀ p : Part, p.bit ||| W ≠ W → Same s t p

/-- A command's answer that goes on, to a state that changes in the parts of `W` alone and keeps what `Keeps` says. -/
def Moves (W : Nat) (s : Machine.State) (r : Machine.Res) : Prop := ∃ t, r = .next t ∧ Keeps W s t

/-- The step from a state does not stop. -/
def Runs (s : Machine.State) : Prop := ∃ t, Machine.step s = .next t

end Sys2Proof
end

