-- ==== Sys2Proof/WellFormed.lean ====
section
/-!
DEFINITION. Which commands are well formed: the ranges of the numbers that name a part, a register's element or a value
(R499, R504, R506 and the register tables of the block chapters).  A number out of range names nothing that the spec has.
-/

namespace Sys2Proof

/-- Requester numbers (R316). -/
def isReq (r : Nat) : Bool := 1 ≤ r && r ≤ 62

/-- An access of a control core: within the 48-bit address space, of a byte or more. -/
def CoreAccess.wf (a : CoreAccess) : Bool := a.addr < 2 ^ 48 && 1 ≤ a.len

/-- A command in progress is named by a ring (R285), or a pseudo-ring (R325), and a command sequence. -/
def CmdRef.wf (c : CmdRef) : Bool := (c.ring < 8192 || c.ring = 0x2000 || c.ring = 0x2001) && c.seq < 2 ^ 32

/-- A well-formed command. -/
def Instr.wf : Instr → Bool
  | .runnelBatch _ port src sport _ => port < 16 && src < 2 ^ 128 && sport < 2 ^ 16
  | .journalWriteComplete _ stream seq => stream < 128 && seq < 2 ^ 32
  | .mirrorConfirmation _ stream seq => stream < 128 && seq < 2 ^ 32
  | .mirrorTmo stream seq => stream < 128 && seq < 2 ^ 32
  | .gapAckRepeat stream => stream < 128
  | .heldBatchDrop stream seq => stream < 128 && seq < 2 ^ 32
  | .sliceGuardExpiry stream => stream < 128
  | .trackedFit stream => stream < 128
  | .hgGlbCommit _ req val => isReq req && val < 2 ^ 64
  | .hgStreamCommit _ req stream val => isReq req && stream < 128 && val < 2 ^ 64
  | .frfBinPass => true
  | .frfDetectorWindowEnd lane => lane < 256
  | .frfSwitchInstant => true
  | .frfDwellBoundary => true
  | .frfFoldDecision lane => lane < 256
  | .frfMaskUpdate => true
  | .frfMaskTakeEffect entry => entry < 8192
  | .frfMaskExpiry entry => entry < 8192
  | .frfLaneSwap _ req lane val => isReq req && lane < 256 && val < 2 ^ 64
  | .fadeEnd lane => lane < 256
  | .frfSync _ req val => isReq req && val < 2 ^ 64
  | .frfMaskData1 _ req val => isReq req && val < 2 ^ 64
  | .frfCoefData _ req val => isReq req && val < 2 ^ 64
  | .frfGlbCommit _ req val => isReq req && val < 2 ^ 64
  | .frfLaneCommit _ req lane val => isReq req && lane < 256 && val < 2 ^ 64
  | .spikePacket _ packet => packet < 2 ^ 32
  | .stepMarker _ packet => packet < 2 ^ 32
  | .gatewayMarker _ gateway stream _ => gateway < 8 && stream < 128
  | .stepEnd _ core => core < 96
  | .stepDeadline core => core < 96
  | .stretchExpiry core => core < 96
  | .countFrame _ pop => pop < 256
  | .furrowCoreFault _ core _ => core < 96
  | .fwGlbCommit _ req val => isReq req && val < 2 ^ 64
  | .fwCoreCommit _ req core val => isReq req && core < 96 && val < 2 ^ 64
  | .fwMapCommit _ req stream val => isReq req && stream < 128 && val < 2 ^ 64
  | .fwPopCommit _ req pop val => isReq req && pop < 256 && val < 2 ^ 64
  | .fwTblData _ req val => isReq req && val < 2 ^ 64
  | .layerBoundary _ tile _ => tile < 48
  | .haloPublish _ tile consumer layer stream _ _ => tile < 48 && consumer < 48 && layer < 256 && stream < 128
  | .tileFault _ tile _ => tile < 48
  | .groupRemapComplete _ group => group < 16
  | .stCommit _ req tile val => isReq req && tile < 48 && val < 2 ^ 64
  | .featureArrival _ _ _ => true
  | .instantOpenTimeout group => group < 32
  | .instantExpiry group => group < 32
  | .fusionComplete _ group _ => group < 32
  | .slotCheckpointComplete _ group => group < 32
  | .coppiceUnitFault _ unit _ => unit < 8
  | .cpGlbCommit _ req val => isReq req && val < 2 ^ 64
  | .cpGrpCommit _ req group val => isReq req && group < 32 && val < 2 ^ 64
  | .cpMbrCommit _ req stream val => isReq req && stream < 128 && val < 2 ^ 64
  | .admissionEvaluation _ => true
  | .readmission _ => true
  | .capacityRelease _ stream => stream < 128
  | .floorLower _ => true
  | .dramAccess _ _ addr _ _ _ _ => addr < 2 ^ 48
  | .patrolScrub _ addr _ => addr < 2 ^ 48
  | .dramRefresh _ _ => true
  | .pseudoChannelFail _ pc _ => pc < 512
  | .memRgnCommit _ req region val => isReq req && region < 32 && val < 2 ^ 64
  | .canalFlit _ link _ => link < 384
  | .linkFail _ link => link < 384
  | .sqWrite _ queue _ _ _ => queue < 4096
  | .sqRead _ queue _ => queue < 4096
  | .queueReset _ queue _ => queue < 4096
  | .sqQCommit _ req val => isReq req && val < 2 ^ 64
  | .doorbellSnoop _ block _ _ => block < 1024
  | .doorbellPoll _ block _ _ => block < 1024
  | .watchReread _ block _ => block < 1024
  | .nudge _ fn off _ => fn < 64 && off < 2 ^ 24
  | .descriptorFetch _ ring _ _ => ring < 8192
  | .runWrite _ ring _ => ring < 8192
  | .coalescingTime ring => ring < 8192
  | .flr _ fn => fn < 64
  | .linkDown _ => true
  | .linkUp _ _ _ _ _ => true
  | .hifFnCommit _ req fn val => isReq req && fn < 64 && val < 2 ^ 64
  | .hifFnAdmCommit _ req fn val => isReq req && fn < 64 && val < 2 ^ 64
  | .commandStep _ core comp _ => core < 8 && comp < 16
  | .compartmentViolation _ core access => core < 8 && access.wf
  | .controlCoreFail _ core _ => core < 8
  | .coreRejoin _ core _ => core < 8
  | .mwWrite _ off size val => off < 2 ^ 20 && (size = 4 || size = 8) && val < 2 ^ 64
  | .mwCmdGo _ => true
  | .mbxCfg _ req mbx val => isReq req && mbx < 64 && val < 2 ^ 64
  | .mbxSend _ req mbx val => isReq req && mbx < 64 && val < 2 ^ 64
  | .mbxRecv _ req mbx => isReq req && mbx < 64
  | .mbxDbRing _ req mbx val => isReq req && mbx < 64 && val < 2 ^ 64
  | .lckAcquireRead _ req lock => isReq req && lock < 64
  | .lckReleaseWrite _ req lock val => isReq req && lock < 64 && val < 2 ^ 64
  | .lckForce _ req val => isReq req && val < 2 ^ 64
  | .componentHandover _ comp _ => comp < 16
  | .deferredActivationBegin _ => true
  | .sessionChallenge _ cmd => cmd.wf
  | .sessionOpen _ cmd => cmd.wf
  | .sessionClose _ cmd => cmd.wf
  | .ringCreate _ cmd => cmd.wf
  | .ringDestroy _ cmd => cmd.wf
  | .ringAttach _ cmd => cmd.wf
  | .fwVersion _ cmd => cmd.wf
  | .classSet _ cmd => cmd.wf
  | .groupSet _ cmd => cmd.wf
  | .streamOpen _ cmd => cmd.wf
  | .streamModify _ cmd => cmd.wf
  | .streamClose _ cmd => cmd.wf
  | .modelLoad _ cmd _ => cmd.wf
  | .modelActivate _ cmd => cmd.wf
  | .modelActivateCancel _ cmd => cmd.wf
  | .activationSwitch _ slot => slot < 16
  | .modelUnload _ cmd => cmd.wf
  | .modelQuery _ cmd => cmd.wf
  | .configCommit _ cmd => cmd.wf
  | .timedConfigCommit => true
  | .calRead _ cmd => cmd.wf
  | .calWrite _ cmd _ => cmd.wf
  | .fwStage _ cmd => cmd.wf
  | .fwActivate _ cmd => cmd.wf
  | .fwActivateCancel _ cmd => cmd.wf
  | .fwActivateTime => true
  | .timeGet _ cmd => cmd.wf
  | .timeSet _ cmd => cmd.wf
  | .powerSet _ cmd => cmd.wf
  | .stopEnter _ cmd => cmd.wf
  | .warmReset _ cmd _ => cmd.wf
  | .statsRead _ cmd => cmd.wf
  | .logConfig _ cmd => cmd.wf
  | .attest _ cmd => cmd.wf
  | .keyProvision _ cmd => cmd.wf
  | .buddyPair _ cmd _ => cmd.wf
  | .buddyUnpair _ cmd => cmd.wf
  | .buddyStatus _ cmd => cmd.wf
  | .testFault _ cmd => cmd.wf
  | .testFaultInjection _ => true
  | .testFaultRestore _ => true
  | .injectionDescriptor _ ring _ => ring < 8192
  | .ethernetFrame _ port _ => port < 16
  | .portFail _ port => port < 16
  | .portReturn _ port => port < 16
  | .fdbAgeing _ index => index < 32768
  | .netFdbData _ req val => isReq req && val < 2 ^ 64
  | .sourceTimeout _ => true
  | .holdoverLimit => true
  | .launch _ port => port < 16
  | .netPortTxtsId _ req port => isReq req && port < 16
  | .culvertDatagram _ port _ => port < 16
  | .dissentEnd peer _ => peer < 1024
  | .culvertRetransmit _ peer chan => peer < 16 && chan < 64
  | .heartbeat _ => true
  | .peerLost _ peer => peer < 16
  | .authChallenge _ peer => peer < 16
  | .timNow _ req => isReq req
  | .ppsIn _ => true
  | .ppsOut => true
  | .netGlbCommit _ req val => isReq req && val < 2 ^ 64
  | .netPortCommit _ req port val => isReq req && port < 16 && val < 2 ^ 64
  | .netExpCommit _ req queue val => isReq req && queue < 32 && val < 2 ^ 64
  | .netPeerCommit _ req peer val => isReq req && peer < 16 && val < 2 ^ 64
  | .timCommit _ req val => isReq req && val < 2 ^ 64
  | .fatalError _ part index _ => part < 13 && index < 65536
  | .faultSpacingEnd => true
  | .leaseWrite _ _ _ _ => true
  | .fenced _ => true
  | .takeover _ _ => true
  | .dvfsRequest _ => true
  | .avsVoltageRead _ _ => true
  | .pgoodHold _ => true
  | .raiseTimeout => true
  | .powerCapDecision _ _ => true
  | .thermalSample _ _ => true
  | .throttleStep => true
  | .thermalEmergencyEnd _ => true
  | .powerEmergency _ => true
  | .powerEmergencyEnd _ => true
  | .pllLockLoss _ => true
  | .pgoodLoss _ rail => rail < 8
  | .addressMatch _ addr _ _ _ => addr < 128
  | .wakeAbort _ _ index => index < 65536
  | .wakeRetry _ _ _ => true
  | .domainReady _ dom => dom < 7
  | .powerOn _ _ => true
  | .rstN _ _ => true
  | .perstN _ _ => true
  | .coldStartRetry _ _ => true
  | .readyTimeout _ => true
  | .arbitrationRead _ addr _ => addr < 128
  | .setpos _ _ => true
  | .mbCommand _ _ _ => true
  | .busSessionTimeout => true
  | .dbgNonce _ => true
  | .dbgToken _ _ => true
  | .setupLock _ req val => isReq req && val < 2 ^ 64
  | .sysShadowDiscard _ req val => isReq req && val < 2 ^ 64
  | .claimLapsed commit => commit < 2 ^ 24
  | .pendingCommitApply _ commit => commit < 2 ^ 24
  | .registerWrite _ fn req off size val => fn < 64 && isReq req && off < 2 ^ 24 && (size = 4 || size = 8) && val < 2 ^ 64
  | .vddAonLoss _ => true
  | .pgoodReturn _ rail => rail < 8
  | .enumInChange _ _ => true
  | .waitToRestore inst => inst < 8
  | .guardTimer inst => inst < 8
  | .ppsOutFall => true
  | .ceMergeWindow part index => part < 13 && index < 65536
  | .msixUnmask _ fn vec _ => fn < 64 && vec < 2048
  | .linkRetrain _ _ _ => true
  | .portLinkUp _ port => port < 16
  | .pairingTimeout => true

end Sys2Proof
end

