-- ==== Sys2Proof/Certificates/Slice0/Obligations.lean ====
section
/-!
DEFINITION. The statements about the block: what each command does, what every command keeps, and what a step does.
-/

section

open Sys2Proof Sys2Proof.Machine

/-- A command goes on, to a state of which `P` holds. -/
def Sys2Proof.Answers (c : Instr) (s : State) (P : State → Prop) : Prop := ∃ t, exec c s = .next t ∧ P t

/-- The state in which the commit at `c` has taken effect at once (R509): code 0, every member at its staged value, the
shadow reloaded, the claim over. -/
def Sys2Proof.Taken (s : State) (c : Nat) : State :=
  ((((s.setReg (c + 4) 0).applyStaged (s.staging c)).reloadShadow c).endClaim c)

/-- The state in which the commit at `c` has given the registers of `now` their staged values, and nothing waits. -/
def Sys2Proof.TakenOf (s : State) (c : Nat) (now : List (Nat × Word)) : State :=
  (((s.setReg (c + 4) 0).applyStaged now).reloadShadow c).endClaim c

/-- The state in which the commit at `c` has given the registers of `now` their staged values, while those of `later` wait. -/
def Sys2Proof.Halfway (s : State) (c : Nat) (now later : List (Nat × Word)) : State :=
  ((s.setReg (c + 4) 0).applyStaged now).setGroup c ⟨0, (s.group c).lastWrite, some later, s.time⟩

/-- The state in which the commit at `c` waits for its boundary (R509): code 0, the claim over, the staged values kept. -/
def Sys2Proof.Waiting (s : State) (c : Nat) : State :=
  (s.setReg (c + 4) 0).setGroup c ⟨0, (s.group c).lastWrite, some (s.staging c), s.time⟩

/-! ### What statements about command rows share -/

/-- The state in which a command's checks and effect run: what its mailbox brought is taken, its core works in the component's
compartment, and the command is in progress. -/
def Sys2Proof.Gated (s : State) (c : Ctx) : State :=
  ((s.takeNote c.ring c.seq).gate (s.coreOf c) ((opInfo c.opcode).elim 1 (fun i => i.comp))).setCtx c

/-- A command row names a command in progress that has not started, carries the row's opcode and may start, and every check
of R350 passes: `c` is its context as it starts, with the list and the In data that the device has read. -/
def Sys2Proof.Starts (s : State) (cmd : CmdRef) (op : Nat) (c : Ctx) : Prop :=
  ∃ c0, s.ctx cmd.ring cmd.seq = some c0 ∧ c0.opcode = op ∧ c0.steps = 0 ∧ s.mayStart c0 = true ∧
    c = { c0 with
      steps := 1, sg := cmd.sg
      data := if c0.ring = 0x2001 then s.aid.bus.data.take c0.listLen else cmd.data } ∧
    (Gated s c).checkCommand c = none

/-- The state in which the command runs. -/
def Sys2Proof.Begun (s : State) (t : Nat) (c : Ctx) : State := Gated (s.at t) c

/-- The command has completed with a status and data: its entry is the newest of the completion journal, and it is no longer
in progress. -/
def Sys2Proof.Completed (u : State) (c : Ctx) (status : Nat) (data : List Byte) : Prop :=
  u.aid.done.getLast? =
    some ⟨c.ring, c.seq, descCrc c.desc, c.steps, completionEntry status c.tag c.seq c.ring c.hAfter data⟩ ∧
  u.ctx c.ring c.seq = none

/-- An agent's access to memory goes through: its check unit lets a control core pass, and the domain of the memory is on. -/
def Sys2Proof.Passes (s : State) (agent a n : Nat) (kind : AccessKind) : Prop :=
  (isControlCore (requesterOf agent) = true → (s.unit (requesterOf agent - 1)).allows a n kind = true) ∧
  s.domainOff (memDomain a) = false

/-- The command waits for an event. -/
def Sys2Proof.WaitsFor (u : State) (c : Ctx) (what arg : Nat) : Prop := u.ctx c.ring c.seq = some { c with waiting := what, arg := arg }

/-- No work of a higher level that arrived before a write to the management window waits for the core that MGMT runs on, and no
earlier write waits (R322, R331). -/
def Sys2Proof.MwFree (s : State) : Prop :=
  s.aborts (s.home 13) = [] ∧ (s.home 3 = s.home 13 → ∀ e ∈ s.aid.evals, e.level = .normal) ∧ s.aid.mw.arrived = []

/-! ### The machine -/

/-- A step with a command at the front of the queue is that command on the state with the queue's rest.  With an empty queue (DESIGN CHOICE, log entry 44:
the model's choice of what it stands for) device time moves on by ADDEND while TCLK runs, nothing else changes outside a STOP entry, and
an entry goes on by one step: retention is written at E4, domains are isolated at E5, the PLL stops at E6, the rails fall
at E7, and E8 is STOP. -/
def Obligations.StepRunsFrontCommand : Prop :=
  (∀ (c : Instr) (s : State) (rest : List Instr), s.pending = c :: rest → step s = exec c { s with pending := rest }) ∧
  ∀ (s : State), s.pending = [] →
    (s.get F.PWR_STOP.STATE ≠ 1 → s.ticking = false → step s = .next s) ∧
    (s.get F.PWR_STOP.STATE ≠ 1 → s.ticking = true → ∃ d f, step s = .next { s with time := d, frac := f } ∧ f < 2 ^ 32 ∧
      2 ^ 32 * d + f = 2 ^ 32 * s.time + s.frac + s.get F.TIM_ADDEND.ADDEND) ∧
    (s.get F.PWR_STOP.STATE = 1 → ∃ u, step s = .next u ∧
      (s.get F.PWR_STOP.STEP < 7 → u.get F.PWR_STOP.STEP = s.get F.PWR_STOP.STEP + 1 ∧ u.get F.PWR_STOP.STATE = 1) ∧
      (s.get F.PWR_STOP.STEP = 3 → u.get F.PWR_RET_STAT.VALID = 0xFF ∧ u.aon.saved = u.time) ∧
      (s.get F.PWR_STOP.STEP = 4 → u.get F.PWR_DOM.ISO = 0x3F ∧ u.get F.HIF_STAT.LINK_UP = 0 ∧ u.get F.HIF_STAT.FW_READY = 0) ∧
      (s.get F.PWR_STOP.STEP = 5 → u.get F.CLK_STAT.ROOT_LOCK = 0) ∧
      (s.get F.PWR_STOP.STEP = 6 → u.get F.PWR_RAIL.EN = s.get F.PWR_RAIL.EN &&& 7) ∧
      (s.get F.PWR_STOP.STEP = 7 → u.get F.PWR_STOP.STATE = 2 ∧ u.get F.PWR_STOP.STEP = 0 ∧
        u.reg R.PWR_CNT_STOP = s.reg R.PWR_CNT_STOP + 1))

/-- The state after reset: every register at the table's cold value (some of which are written out here; one that the spec
does not give is 0, DESIGN CHOICE, log entry 2), no shadow copy, claim, ring, session, stream or listed byte of memory, an empty queue, and the canonical form. -/
def Obligations.ResetState : Prop :=
  let s := State.reset
  Canonical s ∧ s.pending = [] ∧ (∀ a, s.reg a = coldOf a) ∧ s.shadow = [] ∧ s.groups = [] ∧ s.mem = [] ∧ s.hif.rings = [] ∧
  s.sec.sessions = [] ∧ s.hg.streams = [] ∧ s.out = [] ∧ s.aon.phase = .off ∧
  (∀ a, memByte s.mem a = 0) ∧
  s.reg R.SYS_ID = 0x0001000091281000 ∧ s.get F.SYS_STAT.POSITION = 0xFF ∧ s.get F.HIF_STAT.FW_READY = 0 ∧
  s.get F.PWR_DVFS.CURRENT = 3 ∧ s.get F.PWR_DVFS.FLOOR = 3 ∧ s.get F.PWR_CAP.CAP_W = 480 ∧ s.get F.SYS_CTL.SETUP_LOCK = 0

/-- No command stops the block, whatever its operands and the state: it answers a next state, in which the same commands
wait, what has left the package stands at the front of the outputs, and the counter of free values is no lower. -/
def Obligations.EveryCommandAnswers : Prop :=
  ∀ (c : Instr) (s : State), Answers c s fun u => u.pending = s.pending ∧ s.out <+: u.out ∧ s.fresh ≤ u.fresh

/-- From any state in canonical form (memory cells at rising addresses, none that reads as an unlisted one; registers and
shadow copies at rising offsets) a step answers a state in canonical form. -/
def Obligations.StepKeepsCanonical : Prop := ∀ (s : State), Canonical s → ∃ t, step s = .next t ∧ Canonical t

/-- Every part of a state. -/
def Sys2Proof.allParts : List Part :=
  [.time, .frac, .regs, .shadow, .groups, .mem, .out, .fresh, .hif, .ras, .mm, .hg, .frf, .fw, .sd, .img, .cp, .aid, .cal, .built,
    .mbx, .net, .bud, .sec, .adm, .pow, .aon]

/-- The parts of the state that a command may change. -/
def Sys2Proof.rowParts : Instr → List Part
  | .runnelBatch _ _ _ _ _ => [.time, .regs, .out, .hg, .frf, .net]
  | .journalWriteComplete _ _ _ | .mirrorConfirmation _ _ _ =>
      [.time, .regs, .out, .fresh, .hif, .ras, .mm, .hg, .frf, .fw, .sd, .aid]
  | .mirrorTmo _ _ | .pgoodReturn _ _ | .portLinkUp _ _ => [.time, .regs]
  | .gapAckRepeat _ => [.time, .out, .hg]
  | .heldBatchDrop _ _ => [.time, .regs, .hg]
  | .sliceGuardExpiry _ => [.time, .regs, .out, .fresh, .hif, .ras, .mm, .hg, .sd]
  | .trackedFit _ => [.hg]
  | .hgGlbCommit _ _ _ | .fwPopCommit _ _ _ _ | .stCommit _ _ _ _ | .cpGlbCommit _ _ _ | .memRgnCommit _ _ _ _
    | .hifFnCommit _ _ _ _ | .netGlbCommit _ _ _ | .netPortCommit _ _ _ _ | .netPeerCommit _ _ _ _ | .timCommit _ _ _ =>
      [.time, .regs, .shadow, .groups, .aid, .mbx]
  | .hgStreamCommit _ _ _ _ | .streamClose _ _ =>
      [.time, .regs, .shadow, .groups, .out, .hif, .ras, .hg, .frf, .sd, .aid, .mbx, .net, .bud]
  | .frfBinPass | .frfSwitchInstant | .frfDwellBoundary => [.time, .regs, .shadow, .groups, .frf]
  | .frfDetectorWindowEnd _ => [.time, .regs, .frf]
  | .frfFoldDecision _ | .frfMaskUpdate | .frfMaskExpiry _ => [.time, .regs, .hif, .frf]
  | .frfMaskTakeEffect _ => [.time, .frf]
  | .frfLaneSwap _ _ _ _ | .frfSync _ _ _ | .frfCoefData _ _ _ => [.time, .regs, .frf, .aid, .mbx]
  | .fadeEnd _ => [.regs, .frf]
  | .frfMaskData1 _ _ _ => [.time, .regs, .hif, .frf, .aid, .mbx]
  | .frfGlbCommit _ _ _ | .frfLaneCommit _ _ _ _ => [.time, .regs, .shadow, .groups, .frf, .aid, .mbx]
  | .spikePacket _ _ | .stepMarker _ _ | .stepEnd _ _ | .stepDeadline _ | .stretchExpiry _ => [.time, .regs, .mem, .mm, .fw]
  | .gatewayMarker _ _ _ _ => [.time, .fw]
  | .countFrame _ _ | .patrolScrub _ _ _ | .pseudoChannelFail _ _ _ =>
      [.time, .regs, .mem, .out, .hif, .ras, .mm, .frf, .fw, .sd, .aid, .net, .sec]
  | .furrowCoreFault _ _ _ => [.time, .regs, .mem, .out, .fresh, .hif, .ras, .mm, .frf, .fw, .aid, .net, .sec, .adm]
  | .fwGlbCommit _ _ _ | .fwCoreCommit _ _ _ _ => [.time, .regs, .shadow, .groups, .fw, .aid, .mbx]
  | .fwMapCommit _ _ _ _ | .cpMbrCommit _ _ _ _ => [.time, .regs, .shadow, .groups, .out, .frf, .aid, .mbx, .net, .bud]
  | .fwTblData _ _ _ => [.time, .regs, .fw, .aid, .mbx]
  | .layerBoundary _ _ _ =>
      [.time, .regs, .shadow, .groups, .mem, .out, .fresh, .hif, .ras, .mm, .frf, .fw, .sd, .aid, .mbx, .net, .sec, .adm]
  | .haloPublish _ _ _ _ _ _ false => [.time, .regs, .sd]
  | .haloPublish _ _ _ _ _ _ true => [.time, .regs, .out, .hif, .ras, .frf, .fw, .sd, .aid, .net, .sec]
  | .tileFault _ _ _ => [.time, .regs, .shadow, .groups, .out, .hif, .ras, .frf, .fw, .sd, .aid, .mbx, .net, .sec, .adm]
  | .groupRemapComplete _ _ => [.time, .regs, .hif, .ras, .sd]
  | .featureArrival _ _ _ => [.time, .regs, .shadow, .groups, .out, .mm, .hg, .sd, .cp]
  | .instantOpenTimeout _ => [.time, .regs, .shadow, .groups, .hg, .cp]
  | .instantExpiry _ => [.time, .regs, .hg, .cp]
  | .fusionComplete _ _ _ => [.time, .regs, .mem, .out, .fresh, .hif, .ras, .mm, .hg, .frf, .img, .cp, .net]
  | .slotCheckpointComplete _ _ => [.time, .regs, .mem, .out, .ras, .mm, .hg, .frf, .cp, .net]
  | .coppiceUnitFault _ _ _ => [.time, .regs, .out, .hif, .ras, .frf, .fw, .cp, .aid, .net, .sec, .adm]
  | .cpGrpCommit _ _ _ _ => [.time, .regs, .shadow, .groups, .mem, .out, .ras, .mm, .frf, .cp, .aid, .mbx, .net, .bud]
  | .admissionEvaluation _ =>
      [.time, .regs, .shadow, .groups, .mem, .out, .fresh, .hif, .ras, .mm, .hg, .frf, .sd, .img, .cp, .aid, .built, .mbx,
       .net, .bud, .adm]
  | .readmission _ | .floorLower _ => [.time, .regs, .fresh, .hif, .ras, .aid, .adm]
  | .capacityRelease _ _ => [.time, .regs, .hif, .ras, .sd, .aid, .adm]
  | .dramAccess _ _ _ _ _ _ _ =>
      [.time, .regs, .shadow, .groups, .mem, .out, .fresh, .hif, .ras, .mm, .hg, .frf, .fw, .sd, .cp, .aid, .mbx, .net,
       .sec, .adm]
  | .dramRefresh _ _ => [.time, .regs, .mm]
  | .canalFlit _ _ _ | .linkFail _ _ | .queueReset _ _ _ =>
      [.time, .regs, .out, .hif, .ras, .mm, .frf, .fw, .aid, .net, .sec]
  | .sqWrite _ _ _ _ _ => [.time, .regs, .out, .mm]
  | .sqRead _ _ _ => [.time, .out, .mm]
  | .sqQCommit _ _ _ => [.time, .regs, .shadow, .groups, .mm, .aid, .mbx]
  | .doorbellSnoop _ _ _ _ | .doorbellPoll _ _ _ _ | .watchReread _ _ _ | .nudge _ _ _ _ =>
      [.time, .regs, .out, .hif, .ras, .hg, .frf, .fw, .aid, .net, .sec]
  | .descriptorFetch _ _ _ _ => [.time, .regs, .out, .hif, .ras, .frf, .fw, .aid, .mbx, .net, .sec]
  | .runWrite _ _ _ => [.time, .regs, .out, .fresh, .hif, .ras, .mm, .hg, .frf, .fw, .sd, .cp, .aid, .net, .sec]
  | .coalescingTime _ | .msixUnmask _ _ _ _ => [.time, .out, .hif]
  | .flr _ _ => [.time, .regs, .shadow, .groups, .out, .hif, .ras, .hg, .frf, .mbx, .net, .sec]
  | .linkDown _ => [.time, .regs, .hif]
  | .linkUp _ _ _ _ _ => [.time, .regs, .out, .fresh, .hif, .ras, .mm, .hg, .frf, .fw, .sd, .cp, .aid, .net]
  | .hifFnAdmCommit _ _ _ _ => [.time, .regs, .shadow, .groups, .out, .hif, .frf, .aid, .mbx, .net, .bud]
  | .commandStep _ _ _ _ | .mbCommand _ _ _ => [.time, .regs, .hif, .aid, .mbx, .sec]
  | .compartmentViolation _ _ _ | .controlCoreFail _ _ _ =>
      [.time, .regs, .shadow, .groups, .out, .hif, .ras, .frf, .fw, .aid, .mbx, .net, .sec]
  | .coreRejoin _ _ _ | .portFail _ _ | .fatalError _ _ _ _ | .pgoodLoss _ _ | .ceMergeWindow _ _ =>
      [.time, .regs, .out, .hif, .ras, .frf, .fw, .aid, .net, .sec]
  | .mwWrite _ _ _ _ | .mwCmdGo _ => [.time, .regs, .hif, .aid, .mbx]
  | .mbxCfg _ _ _ _ | .mbxSend _ _ _ _ | .lckReleaseWrite _ _ _ _ | .lckForce _ _ _ => [.time, .regs, .aid, .mbx]
  | .mbxRecv _ _ _ | .lckAcquireRead _ _ _ | .timNow _ _ => [.time, .regs, .out, .aid, .mbx]
  | .mbxDbRing _ _ _ _ => [.time, .regs, .out, .hif, .aid, .mbx]
  | .componentHandover _ _ _ => [.time, .regs, .hif, .ras, .aid, .aon]
  | .deferredActivationBegin _ | .fwActivateTime => [.time, .regs, .hif, .ras, .aid]
  | .sessionChallenge _ _ => [.time, .out, .fresh, .hif, .frf, .aid, .mbx, .net, .bud, .sec]
  | .sessionOpen _ _ => [.time, .regs, .out, .fresh, .hif, .frf, .aid, .mbx, .net, .bud, .sec]
  | .sessionClose _ _ | .keyProvision _ _ => [.time, .regs, .out, .hif, .frf, .aid, .mbx, .net, .bud, .sec]
  | .ringCreate _ _ | .ringDestroy _ _ => [.time, .regs, .out, .hif, .frf, .aid, .mbx, .net, .bud]
  | .ringAttach _ _ | .modelQuery _ _ | .calRead _ _ | .timeGet _ _ | .powerSet _ _ | .statsRead _ _ | .logConfig _ _
    | .buddyStatus _ _ | .testFault _ _ => [.time, .out, .hif, .frf, .aid, .mbx, .net, .bud]
  | .fwVersion _ _ | .attest _ _ => [.time, .out, .fresh, .hif, .frf, .aid, .mbx, .net, .bud]
  | .classSet _ _ => [.time, .out, .hif, .ras, .frf, .aid, .mbx, .net, .bud, .adm]
  | .groupSet _ _ => [.time, .regs, .shadow, .groups, .mem, .out, .hif, .ras, .mm, .frf, .img, .cp, .aid, .mbx, .net, .bud]
  | .streamOpen _ _ =>
      [.time, .regs, .shadow, .groups, .out, .fresh, .hif, .ras, .mm, .hg, .frf, .fw, .sd, .img, .aid, .built, .mbx, .net,
       .bud, .adm]
  | .streamModify _ _ =>
      [.time, .regs, .shadow, .groups, .out, .fresh, .hif, .ras, .hg, .frf, .sd, .aid, .built, .mbx, .net, .bud, .adm]
  | .modelLoad _ _ _ => [.time, .regs, .mem, .out, .fresh, .hif, .mm, .frf, .fw, .img, .aid, .mbx, .net, .bud]
  | .modelActivate _ _ | .modelActivateCancel _ _ => [.time, .out, .hif, .frf, .img, .aid, .mbx, .net, .bud]
  | .activationSwitch _ _ => [.time, .regs, .hif, .fw, .sd, .img, .aid, .built]
  | .modelUnload _ _ => [.time, .regs, .out, .hif, .frf, .img, .aid, .mbx, .net, .bud]
  | .configCommit _ _ | .timedConfigCommit | .registerWrite _ _ _ _ _ _ =>
      [.time, .regs, .shadow, .groups, .mem, .out, .hif, .ras, .mm, .hg, .frf, .fw, .sd, .cp, .aid, .mbx, .net, .bud, .sec]
  | .calWrite _ _ _ => [.time, .out, .fresh, .hif, .frf, .aid, .cal, .mbx, .net, .bud]
  | .fwStage _ _ => [.time, .regs, .mem, .out, .hif, .frf, .aid, .mbx, .net, .bud]
  | .fwActivate _ _ | .fwActivateCancel _ _ => [.time, .regs, .out, .hif, .ras, .frf, .aid, .mbx, .net, .bud]
  | .timeSet _ _ => [.time, .frac, .out, .hif, .frf, .aid, .mbx, .net, .bud]
  | .stopEnter _ _ => [.time, .regs, .out, .hif, .frf, .aid, .mbx, .net, .bud, .aon]
  | .warmReset _ _ _ | .addressMatch _ _ _ _ _ | .wakeRetry _ _ _ | .powerOn _ _ | .rstN _ _ | .perstN _ _
    | .coldStartRetry _ _ => allParts
  | .buddyPair _ _ _ => [.time, .regs, .out, .fresh, .hif, .ras, .frf, .aid, .mbx, .net, .bud, .adm]
  | .buddyUnpair _ _ => [.time, .regs, .out, .fresh, .hif, .ras, .mm, .hg, .frf, .fw, .sd, .cp, .aid, .mbx, .net, .bud]
  | .testFaultInjection _ => [.time, .hif, .aid, .net]
  | .testFaultRestore _ => [.time, .regs, .mem, .fresh, .hif, .ras, .mm, .fw, .aid, .net]
  | .injectionDescriptor _ _ _ => [.time, .regs, .out, .hif, .hg, .frf, .aid, .net]
  | .ethernetFrame _ _ _ | .culvertDatagram _ _ _ =>
      [.time, .regs, .out, .fresh, .hif, .ras, .mm, .hg, .frf, .fw, .sd, .cp, .aid, .net, .bud, .sec, .adm]
  | .portReturn _ _ => [.time, .regs, .out, .hif, .ras, .net]
  | .fdbAgeing _ _ | .heartbeat _ | .guardTimer _ => [.time, .net]
  | .netFdbData _ _ _ => [.time, .regs, .aid, .mbx, .net]
  | .sourceTimeout _ | .holdoverLimit => [.time, .regs, .net]
  | .launch _ _ => [.time, .regs, .out, .hif, .ras, .hg, .frf, .cp, .net]
  | .netPortTxtsId _ _ _ => [.time, .regs, .out, .aid, .mbx, .net]
  | .dissentEnd _ _ => [.time, .regs, .hif, .ras, .net]
  | .culvertRetransmit _ _ _ => [.time, .out, .frf, .net]
  | .peerLost _ _ | .leaseWrite _ _ _ _ | .pairingTimeout =>
      [.time, .regs, .out, .fresh, .hif, .ras, .mm, .hg, .frf, .fw, .sd, .cp, .aid, .net, .bud]
  | .authChallenge _ _ => [.time, .regs, .out, .fresh, .net]
  | .ppsIn _ => [.time, .regs, .fresh, .net]
  | .ppsOut | .ppsOutFall => [.time, .out, .net]
  | .netExpCommit _ _ _ _ => [.time, .regs, .shadow, .groups, .out, .hif, .ras, .frf, .aid, .mbx, .net, .bud]
  | .faultSpacingEnd | .fenced _ => [.time, .regs, .hif, .ras]
  | .takeover _ _ =>
      [.time, .regs, .mem, .out, .fresh, .hif, .ras, .mm, .hg, .frf, .fw, .sd, .img, .cp, .aid, .net, .bud, .adm]
  | .dvfsRequest _ | .raiseTimeout | .powerCapDecision _ _ | .throttleStep | .powerEmergency _ =>
      [.time, .regs, .shadow, .groups, .mem, .out, .fresh, .hif, .ras, .mm, .hg, .frf, .sd, .img, .cp, .aid, .built, .adm,
       .pow]
  | .avsVoltageRead _ _ | .powerEmergencyEnd _ => [.time, .regs, .pow]
  | .pgoodHold _ =>
      [.time, .regs, .shadow, .groups, .mem, .fresh, .hif, .ras, .mm, .hg, .frf, .sd, .img, .cp, .aid, .built, .adm, .pow]
  | .thermalSample _ _ =>
      [.time, .regs, .shadow, .groups, .mem, .out, .fresh, .hif, .ras, .mm, .hg, .frf, .fw, .sd, .img, .cp, .aid, .built,
       .net, .sec, .adm, .pow]
  | .thermalEmergencyEnd _ => [.time, .regs, .hif, .ras, .adm, .pow]
  | .pllLockLoss _ => [.time, .regs, .out, .hif, .ras, .frf, .fw, .aid, .net, .sec, .pow]
  | .wakeAbort _ _ _ => [.time, .regs, .hif, .aon]
  | .domainReady _ _ =>
      [.time, .regs, .shadow, .groups, .mem, .out, .fresh, .hif, .ras, .mm, .hg, .frf, .fw, .sd, .cp, .aid, .mbx, .net,
       .sec, .adm, .aon]
  | .readyTimeout _ | .vddAonLoss _ =>
      [.time, .frac, .regs, .shadow, .groups, .mem, .hif, .ras, .mm, .hg, .frf, .fw, .sd, .img, .cp, .aid, .built, .mbx,
       .net, .bud, .sec, .adm, .pow, .aon]
  | .arbitrationRead _ _ _ => [.time, .out, .aon]
  | .setpos _ _ => [.time, .regs, .aon]
  | .busSessionTimeout => [.time, .regs, .sec]
  | .dbgNonce _ => [.time, .out]
  | .dbgToken _ _ => [.time, .regs, .fresh, .sec]
  | .setupLock _ _ _ | .sysShadowDiscard _ _ _ =>
      [.time, .regs, .shadow, .groups, .mem, .out, .hif, .ras, .mm, .hg, .frf, .fw, .sd, .cp, .aid, .mbx, .net, .sec]
  | .claimLapsed _ => [.time, .regs, .shadow, .groups]
  | .pendingCommitApply _ _ => [.time, .regs, .shadow, .groups, .mem, .out, .ras, .mm, .hg, .frf, .cp, .net, .bud]
  | .enumInChange _ _ => [.time, .aon]
  | .waitToRestore _ => [.time, .regs, .out, .net]
  | .linkRetrain _ _ _ => [.time, .regs, .aid]

/-- For every command and state: of the parts of the state (the registers, the shadow copies and claims, bonded memory, the outputs, the
rings, the blocks' own state, images, admission, firmware, security, power, the AON block) only those listed for the command
may differ afterwards; every other part is as it was. -/
def Obligations.RowsChangeOnlyTheirParts : Prop :=
  ∀ (c : Instr) (s t : State), exec c s = .next t → ∀ p : Part, p ∉ rowParts c → Same s t p
/-! ### Headgate -/

/-- A RUNNEL_BATCH that parses as a batch of an OPEN stream, carries the expected sequence number while nothing is held,
finds its tokens in the bucket and its bytes free in the journal: its entry is appended to the journal in the phase of
writing, the expected number moves on by one modulo 2^32 and the bucket loses what the batch needs. -/
def Obligations.BatchBeginsJournalEntry : Prop :=
  ∀ (s : State) (t port src sport : Nat) (p : List Byte) (b : Batch) (i : Nat),
      s.flag F.HG_CTL.ENABLE = true → s.mute = false → (16 ≤ port ∨ s.flag (F.NET_PORT_STAT.FAILED port) = false) →
      parseBatch p src sport port (max s.time t) none = some b → s.slotOf b = some i → s.streamState i = 2 →
      b.payloadOk = true → (s.stream i).classify b.seq = .next → (s.stream i).held = [] →
      b.need * 2 ^ 32 ≤ (s.at t).tokensNow i → entryLen b.n ≤ s.jrnFree →
      Answers (.runnelBatch t port src sport p) s fun u =>
        (∃ e, u.hg.journal = s.hg.journal ++ [e] ∧ e.stream = i ∧ e.seq = b.seq ∧ e.phase = .writing ∧ e.batch = b) ∧
        (u.stream i).e = some ((b.seq + 1) % 2 ^ 32) ∧
        (u.stream i).tokens = (s.at t).tokensNow i - b.need * 2 ^ 32

/-- 50 µs after the last, a gap acknowledgement is sent again with the same cumulative number; a held batch leaves after its
millisecond and counts as discarded; a mirror confirmation that is late sets MIRROR_TMO; the guard of the open slice
closes it and its descriptor, marked as closed by the guard, goes to the input of the slice dispatch.  When both copies of
the first open entry are written and no confirmation is awaited, the batch is accepted and acknowledged up to its number; a
confirmation of an entry still being written only marks it; the best point of a full fitting window joins the fitted points, of
which the last 16 stay, and a line is fitted to them by least squares. -/
def Obligations.HeadgateTimersAndJournal : Prop :=
  (∀ (s : State) (i g cum a : Nat), (s.stream i).gapAt = some g → (s.stream i).lastAck = some (cum, a) →
      s.mute = false → Answers (.gapAckRepeat i) s fun u => u.time = max s.time g ∧ (u.stream i).gapAt = some (g + 50000) ∧
        let dest := (s.stream i).peer
        ∃ credit, u.out = s.out ++ [.udp (s.outPort dest.2.2) (s.ingestAddr dest.1) (s.get F.HG_CTL.UDP_PORT) dest.1 dest.2.1
          (ackPacket true (s.get (F.HG_STREAM_GEOM.TAG i)) cum a credit)]) ∧
  (∀ (s : State) (i seq : Nat) (h : Held), (s.stream i).held.find? (fun h => h.batch.seq = seq) = some h →
      Answers (.heldBatchDrop i seq) s fun u => u.time = max s.time (h.since + 1000000) ∧
        (u.stream i).held = (s.stream i).held.filter (fun h => h.batch.seq ≠ seq) ∧
        u.reg (R.HG_STREAM_CNT_DISC i) = s.reg (R.HG_STREAM_CNT_DISC i) + 1) ∧
  (∀ (s : State) (i seq : Nat) (e : JEntry), (s.entriesOf i).find? (fun e => e.seq = seq) = some e →
      e.needMirror = true → e.mirrored = false →
      Answers (.mirrorTmo i seq) s fun u => u.time = max s.time (e.begun + 20000) ∧ u.get F.HG_ERR.MIRROR_TMO = 1) ∧
  (∀ (s : State) (i k : Nat), (s.stream i).kOpen = some k →
      Answers (.sliceGuardExpiry i) s fun u => ∃ d, u.sd.input = s.sd.input ++ [d] ∧ d.stream = i ∧ d.k = k ∧ d.guardClosed = true) ∧
  (∀ (s : State) (t i seq : Nat) (e : JEntry),
      let s1 := (s.at t).setEntry i seq (fun e => if e.phase = .writing then { e with phase := .journalled } else e)
      s1.firstOpen i = some e → e.phase = .journalled → e.needMirror = false → e.batch.injected = none → s.mute = false →
      Answers (.journalWriteComplete t i seq) s fun u =>
        let s2 := (s1.setEntry i e.seq (fun e => { e with onRecovery := false })).accept i e
        u = (s2.sendAck i e.seq s2.time (!(s2.stream i).held.isEmpty) e.batch.source).ackReady i false
          ((s1.entriesOf i).length - 1)) ∧
  (∀ (s : State) (t i seq : Nat) (e : JEntry),
      let s1 := (s.at t).setEntry i seq (fun e => if e.mirrored then e else { e with mirrored := true, needMirror := false })
      s1.firstOpen i = some e → e.phase = .writing → Answers (.mirrorConfirmation t i seq) s fun u => u = s1) ∧
  (∀ (s : State) (i : Nat) (e d : Int) (rest : List (Int × Int)), s.timeMode i = 1 → (s.stream i).trk.ready = (e, d) :: rest →
      Answers (.trackedFit i) s fun u => (u.stream i).trk.ready = rest ∧ (u.stream i).trk.count = (s.stream i).trk.count ∧
        (u.stream i).trk.best = (s.stream i).trk.best ∧ (u.stream i).trk.estimated = true ∧
        let pts := (s.stream i).trk.points ++ [(e - ((s.stream i).trk.s0.getD 0 : Nat), d)]
        (u.stream i).trk.points = pts.drop (pts.length - 16) ∧
        ((u.stream i).trk.alpha, (u.stream i).trk.beta) = lsqFit (s.stream i).trk.alpha (pts.drop (pts.length - 16)))
/-! ### Flicker rate filters -/

/-- While FRF runs, a bin pass moves to the next bin at the bin's end plus BIN_HOLD, and each channel gives its output on
every eighth bin and then integrates the bin.  A detector window that ends on a lane with a channel latches the peak of
each sub-filter of the lane and clears peak, sum and clean count. -/
def Obligations.FrfBinsAndWindows : Prop :=
  (∀ s : State, s.frfOn = true → Answers .frfBinPass s fun u =>
      let n := s.frf.nextBin
      u.frf.nextBin = n + 1 ∧ u.time = max s.time (1000 * (n + s.get F.FRF_CTL.BIN_HOLD)) ∧
      u.frf.chans = tabMap (fun _ ch => (if n % 8 = 0 then
        ch.output n (s.get F.FRF_CTL.CENV_ATK) (s.get F.FRF_CTL.CENV_REL) else ch).integrate n) s.frf.chans) ∧
  (∀ (s : State) (l c : Nat), s.frfOn = true →
    s.frf.nextBin % (2 ^ s.get (F.FRF_LANE_CTL.DET_WIN l) * 32 * s.d4 l) = 0 →
    (s.lane l).windowAt ≠ some s.frf.nextBin → (s.lane l).chan = some c →
    Answers (.frfDetectorWindowEnd l) s fun u =>
      (u.lane l).windowAt = some s.frf.nextBin ∧
      (∀ d ∈ (u.lane l).subs, d.peak = 0 ∧ d.sumSq = 0 ∧ d.clean = 0 ∧ d.dirty = false) ∧
      ∀ k < s.split l, k < 4 → u.get (F.FRF_LANE_DETk_A.PEAK l k) =
        (((s.lane l).subs.getD k FrfSub.empty).latch ((s.chan c).coarse s.frf.nextBin)).1 % 2 ^ 32)

/-- At a switch instant every listed lane that has a channel to take, and no commit of its own that waits, holds it, the resets of newly opened streams and the
first reset are done, and the instant is marked; at a dwell boundary at which no commit of the global group waits, the lane of rank j below the table's length takes the
entry j places on, and the cursor advances by the number of entries used, modulo the length. -/
def Obligations.FrfSwitches : Prop :=
  (∀ s : State, s.frfOn = true → s.frf.nextBin % 128 = 0 → s.frf.switchedAt ≠ some s.frf.nextBin →
    Answers .frfSwitchInstant s fun u =>
      u.frf.switchedAt = some s.frf.nextBin ∧ u.frf.firstReset = false ∧ u.frf.openResets = [] ∧
      u.time = max s.time (1000 * (s.frf.nextBin + s.get F.FRF_CTL.BIN_HOLD)) ∧
      ∀ l ∈ s.lanesListed, ∀ c, (s.group (R.FRF_LANE_COMMIT l)).pending = none → (s.lane l).next = some c →
        (u.lane l).chan = c ∧ (u.lane l).next = none) ∧
  (∀ s : State, s.frfOn = true → s.frf.nextBin % s.dwellUs = 0 → s.frf.dwellAt ≠ some s.frf.nextBin →
    (s.group R.FRF_GLB_COMMIT).pending = none →
    Answers .frfDwellBoundary s fun u =>
      let len := s.get F.FRF_ROT.LEN
      u.frf.dwellAt = some s.frf.nextBin ∧
      u.frf.cursor = (if len = 0 then 0 else (s.frf.cursor + min s.rotating.length len) % len) ∧
      ∀ j l, s.rotating[j]? = some l →
        (u.lane l).next = some (if j < len ∧ s.rotEntry ((s.frf.cursor + j) % len) < 8704
          then some (s.rotEntry ((s.frf.cursor + j) % len)) else none))

/-- A swap request to the bank that is not active starts a fade and shows it; while a fade runs it becomes pending; a fade
that has given its outputs makes its bank active.  A coefficient lands in the addressed bank when that bank is idle, and
the index advances with AUTOINC.  An untimed reset request waits for the next switch instant. -/
def Obligations.FrfBanks : Prop :=
  (∀ (s : State) (t req l val : Nat), s.reaches req (R.FRF_LANE_SWAP l) = true → (F.FRF_LANE_SWAP.REQ l).of (BitVec.ofNat 64 val) = 1 →
    (s.lane l).fade = none → decide ((F.FRF_LANE_SWAP.TARGET l).of (BitVec.ofNat 64 val) ≠ 0) ≠ s.activeBank l →
    Answers (.frfLaneSwap t req l val) s fun u =>
      (u.lane l).fade = some (decide ((F.FRF_LANE_SWAP.TARGET l).of (BitVec.ofNat 64 val) ≠ 0), 0) ∧
      u.get (F.FRF_LANE_STAT.FADING l) = 1) ∧
  (∀ (s : State) (t req l val : Nat) (f : Bool × Nat), s.reaches req (R.FRF_LANE_SWAP l) = true → (F.FRF_LANE_SWAP.REQ l).of (BitVec.ofNat 64 val) = 1 →
    (s.lane l).fade = some f →
    Answers (.frfLaneSwap t req l val) s fun u =>
      u.get (F.FRF_LANE_STAT.PENDING l) = 1 ∧ (u.lane l).fade = some f) ∧
  (∀ (s : State) (l i : Nat) (b : Bool), (s.lane l).fade = some (b, i) → s.fadeLen l ≤ i →
    s.flag (F.FRF_LANE_STAT.PENDING l) = false →
    Answers (.fadeEnd l) s fun u => (u.lane l).fade = none ∧ u.get (F.FRF_LANE_STAT.ACTIVE l) = bit b ∧
      u.get (F.FRF_LANE_STAT.FADING l) = 0) ∧
  (∀ (s : State) (t req val : Nat), let l := s.get F.FRF_COEF_ADDR.LANE; let b := s.flag F.FRF_COEF_ADDR.BANK
    let i := s.get F.FRF_COEF_ADDR.INDEX
    s.reaches req R.FRF_COEF_DATA = true → s.bankBusy l b = false →
    Answers (.frfCoefData t req val) s fun u =>
      tabGet 0 (if b then (u.lane l).coefB else (u.lane l).coefA) i = toSigned 18 (val % 2 ^ 18) ∧
      u.get F.FRF_COEF_ADDR.INDEX = if s.flag F.FRF_COEF_ADDR.AUTOINC then (i + 1) % 128 else i) ∧
  (∀ (s : State) (t req val : Nat), let v := BitVec.ofNat 64 val
    s.reaches req R.FRF_SYNC = true → F.FRF_SYNC.REQ.of v = 1 → F.FRF_SYNC.SCOPE.of v < 3 → F.FRF_SYNC.TIMED.of v = 0 →
    Answers (.frfSync t req val) s fun u =>
      u.frf.sync = some (F.FRF_SYNC.SCOPE.of v, F.FRF_SYNC.TARGET.of v, s.nextSwitch) ∧ u.get F.FRF_SYNC.PENDING = 1)

/-- A fold is decided at the dwell boundary and starts anew; a decision that is not NO_DECISION waits for the mask table.
The first waiting decision rewrites its entry unless the entry is locked; an entry written now applies from the next slice
boundary of its stream; an unlocked active entry goes inactive when its TTL has passed; a write to FRF_MASK_DATA1 replaces
the selected entry, or sets MASK_BAD where period, phase or width are out of range. -/
def Obligations.FrfMasks : Prop :=
  (∀ (s : State) (l c : Nat), let w := s.frf.nextBin
    s.frfOn = true → w % s.dwellUs = 0 → (s.lane l).foldAt ≠ some w → (s.lane l).chan = some c →
    s.get (F.FRF_LANE_FOLD.PERIOD_NS l) ≠ 0 →
    Answers (.frfFoldDecision l) s fun u =>
      (u.lane l).sums = [] ∧ (u.lane l).counts = [] ∧ (u.lane l).foldAt = some w ∧
      u.frf.decisions = if (s.decideFold l w).outcome = .noDecision then s.frf.decisions else s.frf.decisions ++ [s.decideFold l w]) ∧
  (∀ (s : State) (f : Fold), let e := 64 * (f.chan / 68) + f.chan % 68
    firstDecision s.frf.decisions = some f → f.chan % 68 < 64 → (s.maskNow e).lock = false →
    Answers .frfMaskUpdate s fun u =>
      (u.mask e).cur = (s.maskNow e).decide f u.time ∧ (u.mask e).applied = false ∧
      (u.mask e).from' = (u.time / s.sliceNs (e / 64) + 1) * s.sliceNs (e / 64) ∧
      u.frf.decisions = s.frf.decisions.erase f) ∧
  (∀ (s : State) (e : Nat), (s.mask e).applied = false →
    Answers (.frfMaskTakeEffect e) s fun u => (u.mask e).applied = true ∧ (u.mask e).cur = (s.mask e).cur ∧
      u.time = max s.time (s.mask e).from') ∧
  (∀ (s : State) (e : Nat), (s.maskNow e).active = true → (s.maskNow e).lock = false →
    Answers (.frfMaskExpiry e) s fun u => (u.mask e).cur = { s.maskNow e with active := false } ∧
      u.time = max s.time ((s.maskNow e).age + 1000000000 * s.get F.FRF_MASK_CTL.TTL)) ∧
  (∀ (s : State) (t req val : Nat), let e := s.get F.FRF_MASK_SEL.ENTRY; let p := s.get F.FRF_MASK_DATA0.PERIOD
    let ph := s.get F.FRF_MASK_DATA0.PHASE; let w := F.FRF_MASK_DATA1.WIDTH.of (BitVec.ofNat 64 val)
    s.reaches req R.FRF_MASK_DATA1 = true → 1000000 ≤ p → p ≤ 50000000 → ph < p → w < p →
    Answers (.frfMaskData1 t req val) s fun u => (u.mask e).cur =
      ⟨F.FRF_MASK_DATA1.ACTIVE.of (BitVec.ofNat 64 val) ≠ 0, F.FRF_MASK_DATA1.LOCK.of (BitVec.ofNat 64 val) ≠ 0, p, ph, w, max s.time t⟩) ∧
  (∀ (s : State) (t req val : Nat), let p := s.get F.FRF_MASK_DATA0.PERIOD
    s.reaches req R.FRF_MASK_DATA1 = true →
    p < 1000000 ∨ 50000000 < p ∨ p ≤ s.get F.FRF_MASK_DATA0.PHASE ∨ p ≤ F.FRF_MASK_DATA1.WIDTH.of (BitVec.ofNat 64 val) →
    Answers (.frfMaskData1 t req val) s fun u => u.get F.FRF_STAT.MASK_BAD = 1 ∧ u.frf.masks = s.frf.masks)

/-! ### Furrow spiking fabric -/

/-- A packet that is the first of its path on the mesh, and behind no packet held at the same router input, is taken by the
core of its router: one whose target is the open step, or the step after it, adds its axon's weights to that step's
accumulator as long as the step is below its cap of inputs; one for a later step waits in the delay queue while that has room;
one for a step that has ended is counted as late and joins the open step; a marker raises the mark of its source to one past
its step.  A gateway marker that is due leaves towards every core of the stream's map and moves the stream's next step on. -/
def Obligations.FurrowPackets : Prop :=
  (∀ (s : State) (t p : Nat) (f : FwFly), let c := s.routerOf (natBits p 31 25); let x := s.fcore c
    let n := fullStep x.opened (natBits p 7 0) + natBits p 14 9
    s.fwOn = true → s.coreRuns c = true → p.testBit 8 = false → firstOfPath s.fw.flight [] p = some f →
    x.held.any (fun h => inputOf h.src c = inputOf f.src c) = false → n = x.opened → x.acc.inputs < inputCap →
    Answers (.spikePacket t p) s fun u =>
      (u.fcore c).acc = x.acc.add (s.weightRow c (natBits p 24 15)) false false false ∧
      (u.fcore c).acc.inputs = x.acc.inputs + 1 ∧ u.fw.flight = s.fw.flight.erase f) ∧
  (∀ (s : State) (t p : Nat) (f : FwFly), let c := s.routerOf (natBits p 31 25); let x := s.fcore c
    let n := fullStep x.opened (natBits p 7 0) + natBits p 14 9
    s.fwOn = true → s.coreRuns c = true → p.testBit 8 = false → firstOfPath s.fw.flight [] p = some f →
    x.held.any (fun h => inputOf h.src c = inputOf f.src c) = false → n = x.opened + 1 → x.next.inputs < inputCap →
    Answers (.spikePacket t p) s fun u =>
      (u.fcore c).next = x.next.add (s.weightRow c (natBits p 24 15)) false false false ∧ (u.fcore c).acc = x.acc) ∧
  (∀ (s : State) (t p : Nat) (f : FwFly), let c := s.routerOf (natBits p 31 25); let x := s.fcore c
    let n := fullStep x.opened (natBits p 7 0) + natBits p 14 9
    s.fwOn = true → s.coreRuns c = true → p.testBit 8 = false → firstOfPath s.fw.flight [] p = some f →
    x.held.any (fun h => inputOf h.src c = inputOf f.src c) = false → x.opened + 1 < n → x.queue.length < 4096 →
    Answers (.spikePacket t p) s fun u =>
      (u.fcore c).queue = x.queue ++ [⟨p, n, f.src, false, false, false⟩] ∧ (u.fcore c).acc = x.acc ∧ (u.fcore c).next = x.next) ∧
  (∀ (s : State) (t p : Nat) (f : FwFly), let c := s.routerOf (natBits p 31 25); let x := s.fcore c
    let n := fullStep x.opened (natBits p 7 0) + natBits p 14 9
    s.fwOn = true → s.coreRuns c = true → p.testBit 8 = false → firstOfPath s.fw.flight [] p = some f →
    x.held.any (fun h => inputOf h.src c = inputOf f.src c) = false → n < x.opened → x.acc.inputs < inputCap →
    Answers (.spikePacket t p) s fun u =>
      (u.fcore c).acc = x.acc.add (s.weightRow c (natBits p 24 15)) true false false ∧
      (if natBits p 14 9 = 0 then u.reg R.FW_CNT_EXT_LATE = s.reg R.FW_CNT_EXT_LATE + 1 ∧ u.get F.FW_STAT.EXT_LATE = 1
        else u.reg R.FW_CNT_LATE = s.reg R.FW_CNT_LATE + 1 ∧ u.get F.FW_STAT.LATE = 1)) ∧
  (∀ (s : State) (t p : Nat) (f : FwFly), let c := s.routerOf (natBits p 31 25); let x := s.fcore c
    let src := natBits p 24 15
    s.fwOn = true → s.coreRuns c = true → p.testBit 8 = true → firstOfPath s.fw.flight [] p = some f →
    x.held.any (fun h => inputOf h.src c = inputOf f.src c) = false →
    Answers (.stepMarker t p) s fun u =>
      tabGet 0 (u.fcore c).marks src = max (tabGet 0 x.marks src) (fullStep x.opened (natBits p 7 0) + 1) ∧
      (u.fcore c).acc = x.acc ∧ u.fw.flight = s.fw.flight.erase f) ∧
  (∀ (s : State) (t g i step : Nat), s.fwOn = true → s.flag (F.FW_MAP_CTL.ENABLE i) = true →
    s.get (F.FW_MAP_CTL.GATEWAY i) = g → tabGet 0 s.fw.marked i ≤ step → (step + 1) * s.stepNs ≤ (s.at t).horizon i →
    Answers (.gatewayMarker t g i step) s fun u =>
      tabGet 0 u.fw.marked i = step + 1 ∧
      u.fw.flight = s.fw.flight ++ (s.mapCores i).map (fun l => ⟨128 + g, spikePacket (s.physOf l) (128 + g) 0 true step⟩))

/-- When the conditions for the end of its open step hold, a core updates its 1,024 neurons from the step's accumulator,
opens the next step and runs; at the deadline a core whose step can end ends it, and any other
stretches it and counts it; when the stretch is used up the step ends. -/
def Obligations.FurrowSteps : Prop :=
  (∀ (s : State) (t c : Nat), c < 96 → s.fwOn = true → s.coreRuns c = true → (s.at t).stepReady c = true →
    Answers (.stepEnd t c) s fun u => let x := s.fcore c
      (u.fcore c).opened = x.opened + 1 ∧ (u.fcore c).stretching = false ∧ u.get (F.FW_CORE_STAT.STATE c) = 1 ∧
      ((∀ p ∈ x.spill, x.opened + 1 < p.target) →
        let n := updateNeurons (tabGet [] s.fw.neurons c) (s.get (F.FW_CORE_CFG.SCALE c)) x.acc.sums (List.range 1024) ⟨x.v, x.rho, []⟩
        (u.fcore c).v = n.v ∧ (u.fcore c).rho = n.rho)) ∧
  (∀ (s : State) (c : Nat), c < 96 → s.fwOn = true → s.coreRuns c = true → (s.fcore c).stretching = false →
    (s.at (s.stepDeadline c)).stepReady c = true →
    Answers (.stepDeadline c) s fun u =>
      (u.fcore c).opened = (s.fcore c).opened + 1 ∧ (u.fcore c).stretching = false ∧ u.get (F.FW_CORE_STAT.STATE c) = 1) ∧
  (∀ (s : State) (c : Nat), c < 96 → s.fwOn = true → s.coreRuns c = true → (s.fcore c).stretching = false →
    (s.at (s.stepDeadline c)).stepReady c = false →
    Answers (.stepDeadline c) s fun u =>
      (u.fcore c).stretching = true ∧ (u.fcore c).opened = (s.fcore c).opened ∧ u.get (F.FW_CORE_STAT.STATE c) = 2 ∧
      u.get F.FW_STAT.STRETCH = 1 ∧ u.reg R.FW_CNT_STRETCH = s.reg R.FW_CNT_STRETCH + 1 ∧
      u.time = max s.time (s.stepDeadline c)) ∧
  (∀ (s : State) (c : Nat), c < 96 → s.fwOn = true → s.coreRuns c = true → (s.fcore c).stretching = true →
    Answers (.stretchExpiry c) s fun u =>
      (u.fcore c).opened = (s.fcore c).opened + 1 ∧ (u.fcore c).stretching = false ∧ u.get (F.FW_CORE_STAT.STATE c) = 1)

/-- The oldest frame of a population goes into its queue, whose producer is the gateway of the population's core, once that has
room and no packet waits before it: the queue holds its words and keeps the frame until it is consumed, and the window counts
as written.  A table write lands in the table of an idle core and the index advances with AUTOINC, one to a core that is enabled
sets TBL_BUSY, and the remap table takes it at any time.  A core that fails reads FAILED, is recorded once as RECOVERED, and an
idle core takes its logical number. -/
def Obligations.FurrowFramesAndCores : Prop :=
  (∀ (s : State) (t p : Nat) (f : FwFrame), let q := s.get (F.FW_POP_DEST.QUEUE p); let x := s.queue q
    p < 256 → s.fw.frames.find? (fun f => f.pop = p) = some f → x.enabled = true → x.kept.length = x.sent →
    f.words.length ≤ x.space → x.prod / 4 = stopOfGateway (gatewayOf (s.physOf (s.get (F.FW_POP_CTL.CORE p)))) →
    s.flag (F.FW_POP_CTL.HOST p) = false →
    Answers (.countFrame t p) s fun u => u.fw.frames = s.fw.frames.erase f ∧
      tabGet 0 u.fw.written p = fieldAt f.header 8 8 + 1 ∧ (u.queue q).words = x.words ++ markLast f.words ∧
      (u.queue q).kept = x.kept ++ [f.words] ∧ (u.queue q).pktIn = (x.pktIn + 1) % 2 ^ 32) ∧
  (∀ (s : State) (t req val : Nat), let c := s.get F.FW_TBL_ADDR.CORE; let i := s.get F.FW_TBL_ADDR.INDEX
    s.reaches req R.FW_TBL_DATA = true →
    s.get F.FW_TBL_ADDR.TABLE = 0 → c < 96 → i < 1024 → s.flag (F.FW_CORE_CFG.ENABLE c) = false →
    Answers (.fwTblData t req val) s fun u => tabGet 0 (tabGet [] u.fw.neurons c) i = val % 2 ^ 64 ∧
      u.get F.FW_TBL_ADDR.INDEX = i + bit (s.flag F.FW_TBL_ADDR.AUTOINC)) ∧
  (∀ (s : State) (t req val : Nat), let c := s.get F.FW_TBL_ADDR.CORE
    s.reaches req R.FW_TBL_DATA = true → s.get F.FW_TBL_ADDR.TABLE < 2 → c < 96 → s.flag (F.FW_CORE_CFG.ENABLE c) = true →
    Answers (.fwTblData t req val) s fun u => u.get F.FW_STAT.TBL_BUSY = 1 ∧ u.fw = s.fw) ∧
  (∀ (s : State) (t req val : Nat), let i := s.get F.FW_TBL_ADDR.INDEX
    s.reaches req R.FW_TBL_DATA = true → s.get F.FW_TBL_ADDR.TABLE = 2 → i < 96 →
    Answers (.fwTblData t req val) s fun u => u.physOf i = val % 128 ∧ u.fw.neurons = s.fw.neurons) ∧
  (∀ (s : State) (t c cond : Nat), c < 96 → s.get (F.FW_CORE_STAT.STATE c) ≠ 3 →
    Answers (.furrowCoreFault t c cond) s fun u =>
      u.get (F.FW_CORE_STAT.STATE c) = 3 ∧ u.reg R.RAS_CNT_RECOV = s.reg R.RAS_CNT_RECOV + 1 ∧
      u.get F.RAS_LAST_FAULT.TIME = max s.time t % 2 ^ 64) ∧
  (∀ (s : State) (t c d cond : Nat), c < 96 → s.get (F.FW_CORE_STAT.STATE c) ≠ 3 → s.flag (F.FW_CORE_CFG.ENABLE c) = true →
    s.get (F.FW_CORE_CFG.LOGICAL c) ≠ 0x7F → d ≠ c →
    s.coresUp.find? (fun d => d ≠ c ∧ s.get (F.FW_CORE_CFG.LOGICAL d) = 0x7F) = some d →
    Answers (.furrowCoreFault t c cond) s fun u => u.physOf (s.get (F.FW_CORE_CFG.LOGICAL c)) = d ∧ u.routerOf c = d)
/-! ### Stand tiles -/

/-- At a layer boundary of a tile that does not hold and whose layer has all its halos ready, the state that the layer run gives
is kept for a delta-gated layer, the next halo generation is expected, and the tile's slice counter rises by one; a tile without
a layer, in a group that runs, takes the next layer of the best of the group's runs and eligible slices, and shows its stream,
layer and slice.  In a group whose survivors absorb a lost tile, they have absorbed it by then (DESIGN CHOICE, log entry 83): the group
reads ABSORBED and its held slices go on. -/
def Obligations.LayerBoundary : Prop :=
  (∀ (s : State) (t tile g : Nat) (run : LayerRun) (j : TileJob) (r : SliceRun) (l : Layer),
    tile < 48 → s.tileGroup tile = some g → s.get (F.ST_GRP_STAT.STATE g) ≠ 2 → s.holding tile = false →
    tabFind s.sd.jobs tile = some j →
    s.sd.runs.find? (fun r => r.desc.stream = j.stream && r.desc.k = j.k) = some r → (s.groupLayers g)[j.layer]? = some l →
    (∀ p ∈ s.producers g tile l, s.haloFind tile p j.layer (tabGet 0 s.sd.gens (256 * tile + j.layer)) j = .ready) →
    Answers (.layerBoundary t tile run) s fun u =>
      let e := tabGet 0 s.sd.gens (256 * tile + j.layer)
      let old := if r.full then none
        else s.sd.layers.find? (fun x => x.stream = j.stream && x.layer = j.layer && x.tile = tile)
      let o := layerRun l old ⟨j.stream, j.layer, tile, [], [], [], []⟩ (s.refreshes r j.layer l) (s.ownedParts g tile l)
        (s.layerIn tile j.layer e l r run) run
      (l.deltaEn = true → o.st ∈ u.sd.layers) ∧ tabGet 0 u.sd.gens (256 * tile + j.layer) = e + 1 ∧
      u.reg (R.ST_CNT_SLICE tile) = s.reg (R.ST_CNT_SLICE tile) + 1) ∧
  (∀ (s : State) (t tile g : Nat) (run : LayerRun) (r : SliceRun), tile < 48 → s.tileGroup tile = some g →
    tabFind s.sd.jobs tile = none → s.dead = false → s.holding tile = false →
    s.get (F.ST_GRP_STAT.STATE g) = 1 ∨ s.get (F.ST_GRP_STAT.STATE g) = 3 → s.get (F.ST_STAT.STATE tile) ≠ 4 →
    bestRun ((s.sd.runs.filter (fun r => r.slot = g && !r.held) ++ (s.eligibleOf g).map (s.startRun g)).filter
      (fun r => (s.nextLayer g tile r).isSome)) = some r →
    Answers (.layerBoundary t tile run) s fun u =>
      tabFind u.sd.jobs tile = some ⟨r.desc.stream, r.desc.k, (s.nextLayer g tile r).getD 0, none⟩ ∧
      u.get (F.ST_STAT.STATE tile) = 2 ∧ u.reg (R.ST_SLICE tile) = BitVec.ofNat 64 r.desc.k) ∧
  (∀ (s : State) (t tile g : Nat) (run : LayerRun), tile < 48 → s.tileGroup tile = some g →
    s.get (F.ST_GRP_STAT.STATE g) = 2 → tabFind s.sd.jobs tile = none →
    Answers (.layerBoundary t tile run) s fun u =>
      u.get (F.ST_GRP_STAT.STATE g) = 3 ∧ ∀ r ∈ u.sd.runs, r.slot = g → r.held = false)

/-- A producer that has completed its parts of the layer that feeds a consumer's publishes its edge rows, complete and current, as
the next generation in the free slot; while the slot is in use it holds; an SRAM error corrected on the way is shown (R128).
A tile that fails reads FAILED, leaves its group and is recorded once as RECOVERED: the survivors of a fault-absorbing group begin to absorb it, a compact group begins a whole-group
remap, or goes out of service where its image forbids that or it is so already.  A remap that completes puts the group and its
tiles back to work, and its slices are no longer held. -/
def Obligations.StandHalosAndFaults : Prop :=
  (∀ (s : State) (t p c j i k g : Nat) (e : Bool) (r : SliceRun) (l : Layer),
    let key := 65536 * p + 256 * c + j; let gen := tabGet 0 s.sd.pubs key
    s.tileGroup p = some g → s.tileGroup c = some g → s.sd.runs.find? (fun r => r.desc.stream = i && r.desc.k = k) = some r →
    r.slot = g → (s.groupLayers g)[j]? = some l → s.feederDone g p l r = true →
    s.sd.halos.any (fun h => (h.consumer = c && h.producer = p && h.layer = j && h.gen % 2 = gen % 2) && !h.released) = false →
    Answers (.haloPublish t p c j i k e) s fun u =>
      (⟨c, p, j, gen % 2 ^ 32, i, k, (s.haloRows g p c l r).1, (s.haloRows g p c l r).2, false⟩ : HaloSlot) ∈ u.sd.halos ∧
      tabGet 0 u.sd.pubs key = gen + 1 ∧ tabFind u.sd.holds key = none) ∧
  (∀ (s : State) (t p c j i k g : Nat) (e : Bool) (r : SliceRun) (l : Layer),
    let key := 65536 * p + 256 * c + j; let gen := tabGet 0 s.sd.pubs key
    s.tileGroup p = some g → s.tileGroup c = some g → s.sd.runs.find? (fun r => r.desc.stream = i && r.desc.k = k) = some r →
    r.slot = g → (s.groupLayers g)[j]? = some l → s.feederDone g p l r = true →
    s.sd.halos.any (fun h => (h.consumer = c && h.producer = p && h.layer = j && h.gen % 2 = gen % 2) && !h.released) = true →
    Answers (.haloPublish t p c j i k e) s fun u =>
      u.sd.halos = s.sd.halos ∧ tabFind u.sd.holds key = some (tabGet (max s.time t) s.sd.holds key) ∧
      (j < 256 → u.holding p = true)) ∧
  (∀ (s : State) (t p c j i k : Nat), p < 48 →
    Answers (.haloPublish t p c j i k true) s fun u => u.get (F.ST_ERR.SRAM_CE p) = 1) ∧
  (∀ (s : State) (t tile cond : Nat), tile < 48 → s.get (F.ST_STAT.STATE tile) ≠ 4 →
    Answers (.tileFault t tile cond) s fun u =>
      u.get (F.ST_STAT.STATE tile) = 4 ∧ u.reg R.RAS_CNT_RECOV = s.reg R.RAS_CNT_RECOV + 1 ∧ u.tileGroup tile = none ∧
      u.aid.evals.head? = some .capacity) ∧
  (∀ (s : State) (t tile cond g : Nat), tile < 48 → s.get (F.ST_STAT.STATE tile) ≠ 4 → s.tileGroup tile = some g →
    Answers (.tileFault t tile cond) s fun u =>
      let st := s.get (F.ST_GRP_STAT.STATE g)
      let compact := s.get (F.ST_GRP_STAT.LAYOUT g) = 1 ∨ (2 ≤ st ∧ st ≤ 5) ∨ (s.groupTiles g).length < 5
      let stays := (match s.slot g with | some x => x.image.noRemap | none => true) = true ∨ st = 5
      u.get (F.ST_GRP_STAT.STATE g) = (if ¬ compact then 2 else if stays then 5 else 4) ∧
      (¬ (compact ∧ stays) → ∀ v ∈ s.liveTiles g, v ≠ tile → u.get (F.ST_STAT.STATE v) = if compact then 5 else 3)) ∧
  (∀ (s : State) (t g : Nat), g < 16 → s.get (F.ST_GRP_STAT.STATE g) = 4 →
    Answers (.groupRemapComplete t g) s fun u => u.get (F.ST_GRP_STAT.STATE g) = 3 ∧
      (∀ tile ∈ s.liveTiles g, u.get (F.ST_STAT.STATE tile) = 1) ∧ ∀ r ∈ u.sd.runs, r.slot = g → r.held = false)
/-! ### Coppice units and admission -/

/-- The feature packet at the head of its stream's output queue, of an enabled member of a group that runs, leaves the queue and
joins the group's arrived features, with its evidence time, after every instant that had expired before is released; its slice
sets the member's UNSYNCED reason, or clears it where it is still to be fused and no other reason masks the member; it opens its
instant.  The least instant that is owed and not open opens OPEN_US after its end; the oldest open instant is released at its
wait limit.  Whatever may be released then is. -/
def Obligations.FusionInstants : Prop :=
  (∀ (s : State) (t : Nat) (w0 w1 : List Byte), let i := fieldAt w1 1 1; let k := fieldAt w1 8 8; let g := s.groupOf i
    s.groupOn g = true → s.flag (F.CP_MBR_CTL.ENABLE i) = true → i < 128 → (s.at t).packetReady w0 w1 = true →
    Answers (.featureArrival t w0 w1) s fun u =>
      let s1 := { s.at t with sd := { (s.at t).sd with outq := s.sd.outq.erase (w0, w1) } }
      let s2 := (s1.take s.mm.outQ i [w0, w1]).releaseOverdue g
      u.sd.outq = s.sd.outq.erase (w0, w1) ∧
      ∃ v : State, u = v.releaseDue g ∧ (v.cpg g).last = (s2.cpg g).last ∧
        (v.cpg g).feats = (s2.cpg g).feats ++
          [⟨i, k, k * s.groupNs g + fieldAt w1 24 4, max s.time t, reached (s2.cpg g).last k, w0, w1⟩] ∧
        (reached (s2.cpg g).last k = false → ∃ o ∈ (v.cpg g).opens, o.k = k)) ∧
  (∀ (s : State) (t : Nat) (w0 w1 : List Byte), let i := fieldAt w1 1 1; let k := fieldAt w1 8 8; let g := s.groupOf i
    s.groupOn g = true → s.flag (F.CP_MBR_CTL.ENABLE i) = true → i < 128 → (s.at t).packetReady w0 w1 = true →
    (s.group (R.CP_GRP_COMMIT g)).pending = none → (s.cpg g).opens = [] → reached (s.cpg g).last (k + 1) = false →
    (fieldAt w0 2 2).testBit 0 = true ∨ (s.reason i 2 = false ∧ s.reason i 3 = false ∧ s.flag (F.CP_MBR_CTL.SW_MASK i) = false) →
    Answers (.featureArrival t w0 w1) s fun u => u.reason i 1 = (fieldAt w0 2 2).testBit 0) ∧
  (∀ (s : State) (g k : Nat), s.groupOn g = true → s.nextShut g = some k →
    Answers (.instantOpenTimeout g) s fun u =>
      let ends := max s.time ((k + 1) * s.groupNs g + 1000 * s.get (F.CP_GRP_CTL.OPEN_US g))
      ∃ v : State, u = v.releaseDue g ∧ v.time = ends ∧
        (reached (v.cpg g).last k = false → ∃ o ∈ (v.cpg g).opens, o.k = k ∧ o.expiry = ends + 1000 * v.get (F.CP_GRP_CTL.W_US g))) ∧
  (∀ (s : State) (g : Nat) (o : Instant) (l : List Instant), (s.cpg g).opens = o :: l → s.groupOn g = true →
    s.nextDue g = some o.k →
    Answers (.instantExpiry g) s fun u => u.time = max s.time o.expiry ∧ ∃ r ∈ (u.cpg g).fusing, r.k = o.k)

/-- When no checkpoint is being written, and the unit serves no instant that was released before, fusion of the oldest released
instant ends: it is retained, and its checkpoint begins; while one is being written fusion waits and shows it.  A checkpoint whose
run is held completes when no mirror awaits it: CP_GRP_CKPT names the instant, its buffer's commit record does (in the layout of
log entry 86), and no instant that is covered by it and visible is retained.  A unit that fails is recorded once as RECOVERED
and each of its groups with a live fallback unit moves there. -/
def Obligations.FusionAndUnits : Prop :=
  (∀ (s : State) (t g : Nat) (fu : Fused) (r : Released) (l : List Released) (im : ImgSlot), (s.cpg g).fusing = r :: l →
    (s.fusionFor g r.k).bind s.slot = some im → s.groupOn g = true → s.served g r = true → (s.cpg g).ckpt = none →
    Answers (.fusionComplete t g fu) s fun u => (u.cpg g).fusing = l ∧ (u.cpg g).ckpt = some r.k ∧
      (u.cpg g).retained = (s.cpg g).retained ++ [r] ∧ (u.cpg g).gridOk = true) ∧
  (∀ (s : State) (t g : Nat) (fu : Fused) (r : Released) (l : List Released) (im : ImgSlot), (s.cpg g).fusing = r :: l →
    (s.fusionFor g r.k).bind s.slot = some im → s.groupOn g = true → s.served g r = true → (s.cpg g).ckpt.isSome = true →
    Answers (.fusionComplete t g fu) s fun u => u.get F.CP_STAT.CKPT_WAIT = 1 ∧ u.cp = s.cp ∧ u.mem = s.mem) ∧
  (∀ (s : State) (t g k : Nat), g < 32 → (s.cpg g).ckpt = some k → s.runHeld g k = true → s.flag F.HG_CTL.MIRROR = false →
    Answers (.slotCheckpointComplete t g) s fun u => (u.cpg g).ckpt = none ∧ u.reg (R.CP_GRP_CKPT g) = BitVec.ofNat 64 k ∧
      (u.rel g).ckpt = raise (s.rel g).ckpt k ∧
      ((s.cpg g).ckSent = false → k < 2 ^ 64 → (∀ n < 8, (s.regionAt (s.recordAddr g (k % 2) + n)).isSome = true) →
        u.dramNat (s.recordAddr g (k % 2)) 8 = k) ∧
      ∀ r ∈ (u.cpg g).retained, ¬ (reached (u.rel g).vis r.k = true ∧ reached (u.rel g).ckpt r.k = true)) ∧
  (∀ (s : State) (t i cond : Nat), i < 8 → s.get (F.CP_UNIT_STAT.STATE i) ≠ 2 →
    Answers (.coppiceUnitFault t i cond) s fun u =>
      u.get (F.CP_UNIT_STAT.STATE i) = 2 ∧ u.reg R.RAS_CNT_RECOV = s.reg R.RAS_CNT_RECOV + 1 ∧
      ∀ g < 32, ∀ v < 8, s.flag (F.CP_GRP_CTL.ENABLE g) = true → s.get (F.CP_GRP_CTL.UNIT g) = i →
        tabFind s.adm.fallback g = some v → v ≠ i → s.get (F.CP_UNIT_STAT.STATE v) ≠ 2 →
        u.get (F.CP_GRP_CTL.UNIT g) = v)

/-- A closed stream whose records are out is charged no longer and asks for an evaluation, and a lowered rate falls due at
its time; the floor is lowered once the records charged at the old figures are out; a recomputation whose tests pass at
some point with the reserve keeps every admitted stream, and a floor that must rise rises at once. -/
def Obligations.Capacity : Prop :=
  (∀ (s : State) (t i : Nat), (s.adm.admitted ||| s.adm.withdrawn).testBit i = true → s.streamState i = 0 → s.closedOut i = true →
    Answers (.capacityRelease t i) s fun u =>
      u.adm.admitted = setMinus s.adm.admitted (streamBit i) ∧ u.adm.withdrawn = setMinus s.adm.withdrawn (streamBit i) ∧
      tabFind u.adm.charged i = none ∧ u.aid.evals = s.aid.evals ++ [.release i]) ∧
  (∀ (s : State) (t i due : Nat), s.streamState i ≠ 0 → tabFind s.adm.releases i = some due → due ≤ max s.time t →
    Answers (.capacityRelease t i) s fun u => tabFind u.adm.charged i = none ∧ tabFind u.adm.releases i = none ∧
      u.adm.admitted = s.adm.admitted ∧ u.aid.evals = s.aid.evals ++ [.release i]) ∧
  (∀ (s : State) (t : Nat) (x : FloorLower), s.adm.lowering = some x → s.recordsOut x.waits = true →
    Answers (.floorLower t) s fun u => u.adm.floor = x.floor ∧ u.adm.lowering = none ∧
      u.get F.PWR_DVFS.FLOOR = x.floor % 4) ∧
  (∀ (s : State) (t p : Nat), s.noCap = false → s.adm.withdrawn = 0 →
    s.floorFor ((sortBy s.sooner (streamsOf s.adm.admitted)).map s.loadOf) true s.capPoint = some p → p < s.adm.floor →
    Answers (.readmission t) s fun u => u.adm.admitted = s.adm.admitted ∧ u.adm.withdrawn = 0 ∧ u.adm.floor = p ∧
      u.get F.PWR_DVFS.FLOOR = p % 4)

/-! ### Commits of double-buffered groups -/

/-- What `Taken` says, register by register: for the group committed at `c`, whose members are distinct registers and not
its status register, each member then holds the staged value, the status register reads 0, every other register keeps, a
read of a member finds its active value again, and the group is held by nobody; no other group changes. -/
def Obligations.TakenGroup : Prop :=
  ∀ (s : State) (c : Nat), (membersAt c).Nodup → c + 4 ∉ membersAt c →
    (∀ a ∈ membersAt c, (Taken s c).reg a = s.shadowReg a ∧ (Taken s c).shadowReg a = s.shadowReg a) ∧
    (Taken s c).reg (c + 4) = 0 ∧
    (∀ a, a ≠ c + 4 → a ∉ membersAt c → (Taken s c).reg a = s.reg a) ∧
    (Taken s c).group c = { s.group c with holder := 0 } ∧
    (∀ d, d ≠ c → (Taken s c).group d = s.group d) ∧
    (Taken s c).mem = s.mem ∧ (Taken s c).out = s.out ∧ (Taken s c).hg = s.hg ∧ (Taken s c).hif = s.hif

/-- Of each group that a row commits, the members are listed, distinct, and none is the status register beside the commit
register. -/
def Obligations.GroupLayout : Prop :=
  (∀ c ∈ [R.HG_GLB_COMMIT, R.FRF_GLB_COMMIT, R.FW_GLB_COMMIT, R.CP_GLB_COMMIT, R.SQ_Q_COMMIT, R.NET_GLB_COMMIT, R.TIM_COMMIT],
    membersAt c ≠ [] ∧ (membersAt c).Nodup ∧ c + 4 ∉ membersAt c) ∧
  ∀ i < 256, ∀ c ∈ [R.FRF_LANE_COMMIT i, R.FW_POP_COMMIT i] ++
      (if i < 128 then [R.HG_STREAM_COMMIT i, R.FW_MAP_COMMIT i, R.CP_MBR_COMMIT i] else []) ++
      (if i < 96 then [R.FW_CORE_COMMIT i] else []) ++ (if i < 48 then [R.ST_COMMIT i] else []) ++
      (if i < 64 then [R.HIF_FN_COMMIT i, R.HIF_FN_ADM_COMMIT i] else []) ++
      (if i < 32 then [R.CP_GRP_COMMIT i, R.MEM_RGN_COMMIT i, R.NET_EXP_COMMIT i] else []) ++
      (if i < 16 then [R.NET_PORT_COMMIT i, R.NET_PEER_COMMIT i] else []),
    membersAt c ≠ [] ∧ (membersAt c).Nodup ∧ c + 4 ∉ membersAt c

/-- A commit that passes its block's checks, with its claim free or the requester's own, takes the staged values and adds
only what its block does then: the Headgate shows its journal sizes; a stream opens when its slot was CLOSED, drains when
OPEN falls; the FRF block's coarse bins start with ENABLE; a fabric that was on changes nothing else; an enabled core
starts, a disabled one reads OFF; a tile joins or leaves its image's group. -/
def Obligations.CommitNowIngest : Prop :=
  (∀ (s : State) (t req val : Nat), let s' := s.at t
    s.reaches req R.HG_GLB_COMMIT = true → s'.commitPasses req R.HG_GLB_COMMIT val s'.hgGlbCode = true →
    Answers (.hgGlbCommit t req val) s fun u => u = (Taken s' R.HG_GLB_COMMIT).jrnShow) ∧
  (∀ (s : State) (t req i val : Nat), let s' := s.at t; let c := R.HG_STREAM_COMMIT i
    s.reaches req c = true → s'.commitPasses req c val (s'.hgStreamCode i) = true → s.streamState i = 0 →
    Answers (.hgStreamCommit t req i val) s fun u =>
      u = (if s.st (F.HG_STREAM_CTL.OPEN i) = 1 then (Taken s' c).openStream i else Taken s' c).mirrorConfig) ∧
  (∀ (s : State) (t req i val : Nat), let s' := s.at t; let c := R.HG_STREAM_COMMIT i
    s.reaches req c = true → s'.commitPasses req c val (s'.hgStreamCode i) = true → s.streamState i ≠ 0 → s.st (F.HG_STREAM_CTL.OPEN i) ≠ 1 →
    ((streamLater i).any s.regChanged = false →
      Answers (.hgStreamCommit t req i val) s fun u =>
        u = ((TakenOf s' c ((s.staging c).filter (fun p => !(streamLater i).contains p.1))).drainStream i).mirrorConfig) ∧
    ((streamLater i).any s.regChanged = true →
      Answers (.hgStreamCommit t req i val) s fun u =>
        u = ((Halfway s' c ((s.staging c).filter (fun p => !(streamLater i).contains p.1))
          ((s.staging c).filter (fun p => (streamLater i).contains p.1))).drainStream i).mirrorConfig)) ∧
  (∀ (s : State) (t req val : Nat), let s' := s.at t
    s.reaches req R.FRF_GLB_COMMIT = true → s'.commitPasses req R.FRF_GLB_COMMIT val s'.frfGlbCode = true → s.frfOn = false →
    Answers (.frfGlbCommit t req val) s fun u =>
      u.regs = (Taken s' R.FRF_GLB_COMMIT).regs ∧
      (s.st F.FRF_CTL.ENABLE = 1 → u.frf.nextBin = s'.time / 1000 ∧ u.frf.dwellAt = none ∧ u.frf.switchedAt = none)) ∧
  (∀ (s : State) (t req l val : Nat), let s' := s.at t; let c := R.FRF_LANE_COMMIT l
    s.reaches req c = true → s'.commitPasses req c val (s'.frfLaneCode l) = true → s.get (F.FRF_LANE_CTL.MODE l) = 0 → s.st (F.FRF_LANE_CTL.MODE l) = 0 →
    Answers (.frfLaneCommit t req l val) s fun u => u = (Taken s' c).laneApplied l s') ∧
  (∀ (s : State) (t req val : Nat), let s' := s.at t
    s.reaches req R.FW_GLB_COMMIT = true → s'.commitPasses req R.FW_GLB_COMMIT val s'.fwGlbCode = true → s.fwOn = true →
    Answers (.fwGlbCommit t req val) s fun u => u = Taken s' R.FW_GLB_COMMIT) ∧
  (∀ (s : State) (t req core val : Nat), let s' := s.at t; let v := Taken s' (R.FW_CORE_COMMIT core)
    s.reaches req (R.FW_CORE_COMMIT core) = true → s'.commitPasses req (R.FW_CORE_COMMIT core) val (s'.fwCoreCode core) = true →
    Answers (.fwCoreCommit t req core val) s fun u =>
      (v.get (F.FW_CORE_STAT.STATE core) = 3 → u = v) ∧
      (v.get (F.FW_CORE_STAT.STATE core) ≠ 3 → s.flag (F.FW_CORE_CFG.ENABLE core) = false → v.flag (F.FW_CORE_CFG.ENABLE core) = true →
        (u.fcore core).opened = v.firstStep ∧ (u.fcore core).v = v.initV core ∧
        u.get (F.FW_CORE_STAT.STATE core) = if v.get (F.FW_CORE_CFG.LOGICAL core) = 0x7F then 4 else 1) ∧
      (v.get (F.FW_CORE_STAT.STATE core) ≠ 3 → v.flag (F.FW_CORE_CFG.ENABLE core) = false → u.get (F.FW_CORE_STAT.STATE core) = 0)) ∧
  (∀ (s : State) (t req tile val : Nat), let s' := s.at t; let v := Taken s' (R.ST_COMMIT tile)
    s.reaches req (R.ST_COMMIT tile) = true → s'.commitPasses req (R.ST_COMMIT tile) val (s'.stCode tile) = true →
    Answers (.stCommit t req tile val) s fun u => u =
      if s.flag (F.ST_CTL.ENABLE tile) = v.flag (F.ST_CTL.ENABLE tile) then v
      else (v.enrol tile (v.flag (F.ST_CTL.ENABLE tile))).put (F.ST_STAT.STATE tile) (bit (v.flag (F.ST_CTL.ENABLE tile))))

/-- The other groups of which every field takes effect at once: a Coppice group that is not running, a member (whose
SW_MASK becomes a mask reason), a region (the guarded total is shown), a hardware queue (a queue newly enabled starts
empty), a function and its admin rings (both epochs advance and LIVE is set), network, port (a disabled port shows no
link), export queue, peer (an enabled peer connects) and time. -/
def Obligations.CommitNowDevice : Prop :=
  (∀ (s : State) (t req val : Nat), let s' := s.at t
    s.reaches req R.CP_GLB_COMMIT = true → s'.commitPasses req R.CP_GLB_COMMIT val cpGlbCode = true →
    Answers (.cpGlbCommit t req val) s fun u => u.cp = s.cp ∧
      ∀ i < 8, s.get (F.CP_UNIT_STAT.STATE i) ≠ 2 →
        u.get (F.CP_UNIT_STAT.STATE i) = bit ((Taken s' R.CP_GLB_COMMIT).flag F.CP_CTL.ENABLE)) ∧
  (∀ (s : State) (t req g val : Nat), let s' := s.at t; let c := R.CP_GRP_COMMIT g
    s.reaches req c = true → s'.commitPasses req c val (s'.cpGrpCode g) = true →
    ¬ (s.flag (F.CP_GRP_CTL.ENABLE g) = true ∧ s.st (F.CP_GRP_CTL.ENABLE g) = 1) →
    Answers (.cpGrpCommit t req g val) s fun u => u = ((Taken s' c).cpGrpApplied g s').mirrorConfig) ∧
  (∀ (s : State) (t req i val : Nat), let s' := s.at t; let v := Taken s' (R.CP_MBR_COMMIT i)
    i < 128 → s.reaches req (R.CP_MBR_COMMIT i) = true → s'.commitPasses req (R.CP_MBR_COMMIT i) val (s'.cpMbrCode i) = true →
    Answers (.cpMbrCommit t req i val) s fun u =>
      (u.get (F.CP_MBR_STAT.REASONS i)).testBit 5 = v.flag (F.CP_MBR_CTL.SW_MASK i) ∧ u.cp = s.cp) ∧
  (∀ (s : State) (t req r val : Nat), let s' := s.at t; let v := Taken s' (R.MEM_RGN_COMMIT r)
    s.reaches req (R.MEM_RGN_COMMIT r) = true → s'.commitPasses req (R.MEM_RGN_COMMIT r) val (s'.memRgnCode r) = true →
    Answers (.memRgnCommit t req r val) s fun u =>
      u = v.put F.MEM_GUARD_USED.MIB (guardedSize v.regions / 0x100000)) ∧
  (∀ (s : State) (t req val : Nat), let s' := s.at t; let q := s.get F.SQ_SEL.QUEUE
    s.reaches req R.SQ_Q_COMMIT = true → s'.commitPasses req R.SQ_Q_COMMIT val s'.sqCode = true →
    Answers (.sqQCommit t req val) s fun u =>
      (u.queue q).cfg = s.shadowReg R.SQ_Q_CFG ∧ (u.queue q).cstat = 0 ∧
      (F.SQ_Q_CFG.ENABLE.of (s.shadowReg R.SQ_Q_CFG) = 1 → (s.queue q).enabled = false →
        (u.queue q).words = [] ∧ (u.queue q).opened = [] ∧ (u.queue q).epoch = 0 ∧ (u.queue q).pktIn = 0 ∧ (u.queue q).pktOut = 0 ∧
        (u.queue q).kept = [] ∧ (u.queue q).streams = (Taken s' R.SQ_Q_COMMIT).queueSet q (s.shadowReg R.SQ_Q_CFG))) ∧
  (∀ (s : State) (t req f val : Nat), let s' := s.at t; let c := R.HIF_FN_COMMIT f
    s.reaches req c = true → s'.commitPasses req c val (s'.hifFnCode f) = true → Answers (.hifFnCommit t req f val) s fun u => u = Taken s' c) ∧
  (∀ (s : State) (t req f val : Nat), let s' := s.at t; let v := Taken s' (R.HIF_FN_ADM_COMMIT f); let r := v.adminRing f
    f < 64 → s.reaches req (R.HIF_FN_ADM_COMMIT f) = true → s'.commitPasses req (R.HIF_FN_ADM_COMMIT f) val (s'.hifAdmCode f) = true →
    Answers (.hifFnAdmCommit t req f val) s fun u =>
      u.get (F.HIF_FN_ADM_STAT.LIVE f) = 1 ∧
      ∃ sq cq, u.ring r = some sq ∧ u.ring (r + 1) = some cq ∧
        sq.kind = .submit ∧ sq.fn = f ∧ sq.complete = r + 1 ∧ sq.base = 4096 * v.get (F.HIF_FN_ADM_SQ.BASE f) ∧
        sq.logN = v.get (F.HIF_FN_ADM_SQ.SIZE_LOG2 f) + 6 ∧
        cq.kind = .complete ∧ cq.fn = f ∧ cq.base = 4096 * v.get (F.HIF_FN_ADM_CQ.BASE f) ∧
        cq.logN = v.get (F.HIF_FN_ADM_CQ.SIZE_LOG2 f) + 6 ∧ cq.state = .active) ∧
  (∀ (s : State) (t req val : Nat), let s' := s.at t
    s.reaches req R.NET_GLB_COMMIT = true → s'.commitPasses req R.NET_GLB_COMMIT val s'.netGlbCode = true →
    Answers (.netGlbCommit t req val) s fun u => u = Taken s' R.NET_GLB_COMMIT) ∧
  (∀ (s : State) (t req p val : Nat), let s' := s.at t; let v := Taken s' (R.NET_PORT_COMMIT p)
    s.reaches req (R.NET_PORT_COMMIT p) = true → s'.commitPasses req (R.NET_PORT_COMMIT p) val (s'.netPortCode p) = true → s.portExists p = true →
    Answers (.netPortCommit t req p val) s fun u => u =
      if v.flag (F.NET_PORT_CTL.ENABLE p) then v else (v.put (F.NET_PORT_STAT.LINK p) 0).put (F.NET_PORT_STAT.FEC_LOCK p) 0) ∧
  (∀ (s : State) (t req q val : Nat), let s' := s.at t; let v := Taken s' (R.NET_EXP_COMMIT q)
    s.reaches req (R.NET_EXP_COMMIT q) = true → s'.commitPasses req (R.NET_EXP_COMMIT q) val (s'.netExpCode q) = true →
    Answers (.netExpCommit t req q val) s fun u =>
      (v.flag (F.NET_EXP_CTL.ENABLE q) = false → u.get (F.NET_EXP_STAT.STATE q) = 0 ∧ ∀ a, a ≠ R.NET_EXP_STAT q → u.reg a = v.reg a) ∧
      (v.flag (F.NET_EXP_CTL.ENABLE q) = true → v.get (F.NET_EXP_STAT.STATE q) = v.expRoute q → u.regs = v.regs) ∧
      (v.flag (F.NET_EXP_CTL.ENABLE q) = true → v.get (F.NET_EXP_STAT.STATE q) ≠ v.expRoute q → u.regs = (v.reroute q).regs)) ∧
  (∀ (s : State) (t req k val : Nat), let s' := s.at t; let v := Taken s' (R.NET_PEER_COMMIT k)
    k < 16 → s.reaches req (R.NET_PEER_COMMIT k) = true → s'.commitPasses req (R.NET_PEER_COMMIT k) val (s'.netPeerCode k) = true →
    Answers (.netPeerCommit t req k val) s fun u =>
      (v.flag (F.NET_PEER_CTL.ENABLE k) = true → v.get (F.NET_PEER_STAT.STATE k) = 0 → u.get (F.NET_PEER_STAT.STATE k) = 1) ∧
      (v.flag (F.NET_PEER_CTL.ENABLE k) = false → u.get (F.NET_PEER_STAT.STATE k) = 0 ∧ u.get F.SEC_SESS.PEERS = ((List.range 16).filter u.peerUp).length)) ∧
  ∀ (s : State) (t req val : Nat), let s' := s.at t
    s.reaches req R.TIM_COMMIT = true → s'.commitPasses req R.TIM_COMMIT val s'.timCode = true →
    Answers (.timCommit t req val) s fun u => u = Taken s' R.TIM_COMMIT

/-- Where the fields of a group take effect at a boundary, a commit that passes ends the claim, sets the code to 0 and keeps
the staged values; the boundary (PENDING_COMMIT_APPLY) then gives the registers those values, with what the block of a
stream, a lane or a fusion group does then. -/
def Obligations.CommitWaits : Prop :=
  (∀ (s : State) (t req i val : Nat), let s' := s.at t; let c := R.FW_MAP_COMMIT i
    i < 128 → s.reaches req c = true → s'.commitPasses req c val (s'.fwMapCode i) = true →
    Answers (.fwMapCommit t req i val) s fun u => u = (Waiting s' c).mirrorConfig) ∧
  (∀ (s : State) (t req p val : Nat), let s' := s.at t; let c := R.FW_POP_COMMIT p
    s.staging c ≠ [] → s.reaches req c = true → s'.commitPasses req c val (s'.fwPopCode p) = true →
    Answers (.fwPopCommit t req p val) s fun u => u = Waiting s' c) ∧
  (∀ (s : State) (t req i val : Nat), let s' := s.at t; let c := R.HG_STREAM_COMMIT i
    i < 128 → s.reaches req c = true → s'.commitPasses req c val (s'.hgStreamCode i) = true → s.streamState i ≠ 0 → s.st (F.HG_STREAM_CTL.OPEN i) = 1 →
    Answers (.hgStreamCommit t req i val) s fun u => u = (Waiting s' c).mirrorConfig) ∧
  (∀ (s : State) (t req l val : Nat), let s' := s.at t; let c := R.FRF_LANE_COMMIT l
    l < 256 → s.reaches req c = true → s'.commitPasses req c val (s'.frfLaneCode l) = true →
    ¬ (s.get (F.FRF_LANE_CTL.MODE l) = 0 ∧ s.st (F.FRF_LANE_CTL.MODE l) = 0) →
    Answers (.frfLaneCommit t req l val) s fun u => u = Waiting s' c) ∧
  (∀ (s : State) (t req val : Nat), let s' := s.at t; let c := R.FRF_GLB_COMMIT
    s.reaches req c = true → s'.commitPasses req c val s'.frfGlbCode = true →
    s.frfOn = true → s.st F.FRF_CTL.ENABLE = 1 → (s.changed F.FRF_CTL.DWELL = true ∨ s.regChanged R.FRF_ROT = true) →
    Answers (.frfGlbCommit t req val) s fun u => u =
      Halfway s' c [(R.FRF_CTL, setBits (s.shadowReg R.FRF_CTL) F.FRF_CTL.DWELL.hi F.FRF_CTL.DWELL.lo (s.get F.FRF_CTL.DWELL)),
          (R.FRF_MASK_CTL, s.shadowReg R.FRF_MASK_CTL), (R.FRF_RPT_CTL, s.shadowReg R.FRF_RPT_CTL)]
        [(R.FRF_CTL, s.shadowReg R.FRF_CTL), (R.FRF_ROT, s.shadowReg R.FRF_ROT)]) ∧
  (∀ (s : State) (t req g val : Nat), let s' := s.at t; let c := R.CP_GRP_COMMIT g
    g < 32 → s.reaches req c = true → s'.commitPasses req c val (s'.cpGrpCode g) = true →
    s.flag (F.CP_GRP_CTL.ENABLE g) = true → s.st (F.CP_GRP_CTL.ENABLE g) = 1 →
    Answers (.cpGrpCommit t req g val) s fun u => u = (Waiting s' c).mirrorConfig) ∧
  (∀ (s : State) (t c : Nat), (∀ d, s.pendingDue c = some d → (s.at t).time < d) →
    Answers (.pendingCommitApply t c) s fun u => u = (s.at t).mirrorConfig) ∧
  (∀ (s : State) (t c d : Nat) (l : List (Nat × Word)) (r : RegSpec) (is : List Nat), (s.group c).pending = some l →
    regAt c = some (r, is) → s.pendingDue c = some d → d ≤ (s.at t).time →
    Answers (.pendingCommitApply t c) s fun u =>
      let s' := s.at t
      let v := if (s.group c).holder = 0
        then (((s'.applyStaged l).setGroup c { s.group c with pending := none }).reloadShadow c)
        else (s'.applyStaged l).setGroup c { s.group c with pending := none }
      u = (if r.base = R.HG_STREAM_COMMIT 0 then v.streamApplied (is.headD 0) s'
        else if r.base = R.FRF_LANE_COMMIT 0 then v.laneApplied (is.headD 0) s'
        else if r.base = R.CP_GRP_COMMIT 0 then v.cpGrpApplied (is.headD 0) s' else v).mirrorConfig)

/-- A commit write by a requester that does not hold the claim records GROUP_HELD and changes no register of the group; a
write with bit 0 clear does nothing; else the status register takes the first failing code, 8 before any other while an
earlier commit waits, the claim ends, and the staged values are dropped: a read finds the active values again. -/
def Obligations.CommitTurnedAway : Prop :=
  (∀ (s : State) (req c val code : Nat) (now later : List (Nat × Word)),
    (s.group c).holder ≠ 0 → (s.group c).holder ≠ req →
    (s.commitSplit req c val code now later).get F.SYS_ERR.GROUP_HELD = 1 ∧
    (∀ a, a ≠ R.SYS_ERR → a ≠ R.SYS_ERR_INFO → (s.commitSplit req c val code now later).reg a = s.reg a) ∧
    (s.commitSplit req c val code now later).shadow = s.shadow ∧ (s.commitSplit req c val code now later).groups = s.groups) ∧
  (∀ (s : State) (req c val code : Nat) (now later : List (Nat × Word)),
    ((s.group c).holder = 0 ∨ (s.group c).holder = req) → val % 2 = 0 → s.commitSplit req c val code now later = s) ∧
  ∀ (s : State) (req c val code : Nat) (now later : List (Nat × Word)),
    ((s.group c).holder = 0 ∨ (s.group c).holder = req) → val % 2 = 1 → code < 256 → (s.group c).pending ≠ none ∨ code ≠ 0 →
    let u := s.commitSplit req c val code now later
    u.reg (c + 4) = BitVec.ofNat 64 (if (s.group c).pending ≠ none then 8 else code) ∧
    (∀ a, a ≠ c + 4 → u.reg a = s.reg a) ∧ (∀ a ∈ membersAt c, u.shadowReg a = u.reg a) ∧
    (u.group c).holder = 0 ∧ (u.group c).pending = (s.group c).pending

/-! ### Bonded memory, canal mesh, sluice queues -/

/-- An access goes through when the agent's check unit, if it has one, allows it and the memory's domain is on.  A write to a
mapped DRAM address then stores its bytes at the address and upwards and leaves every other byte as it was.  A read of a
good line answers the bytes that memory holds and changes none; a read of an uncorrectable plain line sets UE and answers
zeros with an error, except that a map, which Aidor writes again, is answered once it is right; delta state makes the tile's
streams refresh, grid memory becomes zero cells, and other data stay bad.  A guarded line with one good copy is read from
it.  An access that a control core's check unit does not allow is blocked and traps. -/
def Obligations.DramAccesses : Prop :=
  (∀ (s : State) (t agent a : Nat) (data : List Byte) (n : Nat) (e : Ecc) (r : Region), a < 0x1000000000 →
    Passes s agent a n .store → s.regionAt a = some r →
    Answers (.dramAccess t agent a true data n e) s fun u =>
      (∀ b, memByte u.mem b = if a ≤ b ∧ b < a + data.length then data.getD (b - a) 0 else memByte s.mem b) ∧
      u.out = s.out ∧ u.regs = s.regs) ∧
  (∀ (s : State) (t agent a : Nat) (data : List Byte) (n : Nat) (r : Region), a < 0x1000000000 →
    Passes s agent a n .load → s.regionAt a = some r → s.lineBad r a = false →
    Answers (.dramAccess t agent a false data n .clean) s fun u =>
      u.out = s.out ++ [.memData agent a (s.dramSeen a n) false] ∧ u.mem = s.mem ∧ u.regs = s.regs) ∧
  (∀ (s : State) (t agent a : Nat) (data : List Byte) (n : Nat) (r : Region), a < 0x1000000000 →
    Passes s agent a n .load → s.regionAt a = some r → s.lineBad r a = false → r.guarded = false →
    Answers (.dramAccess t agent a false data n .both) s fun u =>
      u.get F.MEM_ERR.UE = 1 ∧ u.reg R.MEM_CNT_UE = s.reg R.MEM_CNT_UE + 1 ∧
      (s.plainData a = .map → u.out = s.out ++ [.memData agent a (s.dramRead a n) false] ∧ u.mem = s.mem) ∧
      (s.plainData a ≠ .map → u.out = s.out ++ [.memData agent a (zeros n) true]) ∧
      (s.plainData a = .other → u.mm.ueLines.contains (a / 64) = true ∧ u.mem = s.mem) ∧
      (s.plainData a ≠ .other → u.mm.ueLines.contains (a / 64) = false) ∧
      (∀ tile, s.plainData a = .delta tile → ∀ i ∈ s.tileStreams tile, u.sd.fresh.contains i = true) ∧
      (∀ g, s.plainData a = .grid g → ∀ b, memByte u.mem b = if a / 64 = b / 64 then 0 else memByte s.mem b)) ∧
  (∀ (s : State) (t agent a : Nat) (data : List Byte) (n : Nat) (r : Region), a < 0x1000000000 →
    Passes s agent a n .load → s.regionAt a = some r → s.lineBad r a = false → r.guarded = true →
    (copiesOf r a).any (fun p => s.lostPcs.contains p) = false →
    Answers (.dramAccess t agent a false data n .oneCopy) s fun u =>
      .memData agent a (s.dramSeen a n) false ∈ u.out ∧ u.reg R.MEM_CNT_MIRROR_READ = s.reg R.MEM_CNT_MIRROR_READ + 1 ∧
      u.get F.MEM_ERR.CE = 1 ∧ u.mem = s.mem) ∧
  (∀ (s : State) (t agent a : Nat) (write : Bool) (data : List Byte) (n : Nat) (e : Ecc), let c := requesterOf agent - 1
    isControlCore (requesterOf agent) = true → (s.unit c).allows a n (if write then .store else .load) = false →
    Answers (.dramAccess t agent a write data n e) s fun u =>
      u = { s.at t with aid := { s.aid with traps := s.aid.traps ||| 2 ^ c } })

/-- An access of any agent to a device address in DRAM that lies in no enabled region: a read answers zeros together with an
error, a write leaves memory alone; both set MEM_ERR.UNMAPPED and count in MEM_CNT_UNMAPPED. -/
def Obligations.UnmappedAccess : Prop :=
  ∀ (s : State) (t agent a : Nat) (write : Bool) (data : List Byte) (n : Nat) (e : Ecc), a < 0x1000000000 →
    Passes s agent a n (if write then .store else .load) → s.regionAt a = none →
    Answers (.dramAccess t agent a write data n e) s fun u =>
      u.get F.MEM_ERR.UNMAPPED = 1 ∧ u.reg R.MEM_CNT_UNMAPPED = s.reg R.MEM_CNT_UNMAPPED + 1 ∧ u.mem = s.mem ∧
      u.out = if write then s.out else s.out ++ [.memData agent a (zeros n) true]

/-- The patrol scrubber counts a mapped line and leaves a good one alone; a refresh interval takes the hottest die's
temperature and halves above 85 °C; the first pseudo-channel of its stop to fail takes a MEM_PC_FAILk entry and one
RECOVERED record; the last flit of a packet advances its port's sequence, a bad flit is replayed and counted; a failed link is marked at
both ends and recorded once as RECOVERED where its detour is whole. -/
def Obligations.MemoryAndCanalFaults : Prop :=
  (∀ (s : State) (t a : Nat) (r : Region), s.domainOff dMem = false → s.flag F.MEM_CTL.SCRUB_EN = true →
    s.regionAt a = some r →
    s.lineBad r (a / 64 * 64) = false →
    Answers (.patrolScrub t a .clean) s fun u => u.reg R.MEM_CNT_SCRUB = s.reg R.MEM_CNT_SCRUB + 1 ∧
      u.mm.scrubNext = a / 64 * 64 + 64 ∧ u.mem = s.mem ∧ u.out = s.out) ∧
  (∀ (s : State) (t : Nat) (temp : Int),
    Answers (.dramRefresh t temp) s fun u => u.get F.MEM_TEMP.MAX_C = fromSigned 8 temp ∧
      u.refreshInterval = if temp > 85 then 195 else 390) ∧
  (∀ (s : State) (t pc cond k : Nat), pc < 512 → pc ∉ s.lostPcs → s.mm.healed = [] →
    (∀ p ∈ s.lostPcs, p / 8 ≠ pc / 8) → (List.range 8).find? (fun k => !s.flag (F.MEM_PC_FAILk.VALID k)) = some k →
    Answers (.pseudoChannelFail t pc cond) s fun u =>
      u.get (F.MEM_PC_FAILk.VALID k) = 1 ∧ u.get (F.MEM_PC_FAILk.PC k) = pc ∧ u.get F.MEM_ERR.PC_FAILED = 1 ∧
      u.reg R.RAS_CNT_RECOV = s.reg R.RAS_CNT_RECOV + 1 ∧ u.aid.evals.head? = some .capacity) ∧
  (∀ (s : State) (t l : Nat) (last : Bool), l < 384 → s.domainOff dSoc = false → s.linkFailed l = false →
    Answers (.canalFlit t l ⟨true, last⟩) s fun u =>
      u.stopSeq l = (if last then (s.stopSeq l + 1) % 65536 else s.stopSeq l) ∧ tabGet 0 u.mm.links l = 0) ∧
  (∀ (s : State) (t l : Nat) (last : Bool), l < 384 → s.domainOff dSoc = false → s.linkFailed l = false →
    tabGet 0 s.mm.links l + 1 < s.get F.CN_CTL.RETRY_LIMIT →
    Answers (.canalFlit t l ⟨false, last⟩) s fun u => tabGet 0 u.mm.links l = tabGet 0 s.mm.links l + 1 ∧
      u.get F.CN_ERR.CRC = 1 ∧ u.reg R.CN_CNT_RETRY = s.reg R.CN_CNT_RETRY + 1 ∧ u.stopSeq l = s.stopSeq l) ∧
  (∀ (s : State) (t l : Nat), l < 384 → (otherEnd l).isSome = true → s.linkOut l = false →
    (detourLinks l).any s.linkOut = false →
    Answers (.linkFail t l) s fun u => (∀ x ∈ linkEnds l, u.linkFailed x = true) ∧ u.get F.CN_ERR.LINK_FAIL = 1 ∧
      u.reg R.RAS_CNT_RECOV = s.reg R.RAS_CNT_RECOV + 1 ∧ u.aid.evals.head? = some .capacity)

/-- The producer's words gather until LAST commits them all, with a notice to the consumer of a queue that was empty; a word
that finds no room drops the open packet and sets OVERRUN; BAD drops it too; another agent's write only sets
ILLEGAL_AGENT.  The consumer takes the oldest word, after which packets that a producer of the device keeps may follow; an empty queue
answers no word.  A queue reset empties the queue, moves its epoch on modulo 256 and sends both agents a notice with the
packets read; what a producer of the device still keeps is given again. -/
def Obligations.SluiceQueues : Prop :=
  (∀ (s : State) (t q agent : Nat) (w : List Byte), let x := s.queue q
    s.domainOff dSoc = false → x.enabled = true → agent = x.prod → x.discarding = false → 0 < x.space →
    Answers (.sqWrite t q agent .more w) s fun u => u.queue q = { x with opened := x.opened ++ [w] } ∧ u.out = s.out) ∧
  (∀ (s : State) (t q agent : Nat) (w : List Byte), let x := s.queue q
    s.domainOff dSoc = false → x.enabled = true → agent = x.prod → x.discarding = false → 0 < x.space →
    Answers (.sqWrite t q agent .last w) s fun u =>
      (u.queue q).words.map (fun p => p.1) = x.words.map (fun p => p.1) ++ x.opened ++ [w] ∧
      ((u.queue q).words.getLast?).map (fun p => p.2) = some true ∧ (u.queue q).opened = [] ∧
      (u.queue q).pktIn = (x.pktIn + 1) % 2 ^ 32 ∧
      u.out = if x.words = [] then s.out ++ [.notice x.cons q 0 0] else s.out) ∧
  (∀ (s : State) (t q agent : Nat) (mark : Mark) (w : List Byte), let x := s.queue q
    s.domainOff dSoc = false → x.enabled = true → agent = x.prod → x.discarding = false → x.space = 0 →
    Answers (.sqWrite t q agent mark w) s fun u => (u.queue q).overrun = true ∧ (u.queue q).words = x.words ∧
      (u.queue q).opened = [] ∧ (u.queue q).discarding = decide (mark = .more)) ∧
  (∀ (s : State) (t q agent : Nat) (w : List Byte), let x := s.queue q
    s.domainOff dSoc = false → x.enabled = true → agent = x.prod → x.discarding = false → 0 < x.space →
    Answers (.sqWrite t q agent .bad w) s fun u => u.queue q = { x with opened := [] }) ∧
  (∀ (s : State) (t q agent : Nat) (mark : Mark) (w : List Byte), s.domainOff dSoc = false →
    (s.queue q).enabled = true → agent ≠ (s.queue q).prod →
    Answers (.sqWrite t q agent mark w) s fun u => u.get F.SQ_ERR.ILLEGAL_AGENT = 1 ∧ u.mm.queues = s.mm.queues) ∧
  (∀ (s : State) (t q agent : Nat) (w : List Byte) (last : Bool) (r : List (List Byte × Bool)), let x := s.queue q
    s.domainOff dSoc = false → x.enabled = true → agent = x.cons → x.words = (w, last) :: r →
    Answers (.sqRead t q agent) s fun u => r <+: (u.queue q).words ∧ (x.kept = [] → (u.queue q).words = r) ∧
      (u.queue q).midRead = !last ∧ (u.queue q).kept = (if last then x.kept.drop 1 else x.kept) ∧
      (u.queue q).pktOut = (if last then (x.pktOut + 1) % 2 ^ 32 else x.pktOut) ∧
      s.out ++ [.sqWord agent q w last true] <+: u.out) ∧
  (∀ (s : State) (t q agent : Nat), s.domainOff dSoc = false →
    agent ≠ (s.queue q).cons ∨ (s.queue q).enabled = false ∨ (s.queue q).words = [] →
    Answers (.sqRead t q agent) s fun u => u.out = s.out ++ [.sqWord agent q (zeros 64) false false] ∧ u.mm.queues = s.mm.queues) ∧
  (∀ (s : State) (t q : Nat) (cause : ResetCause), let x := s.queue q
    Answers (.queueReset t q cause) s fun u => (u.queue q).opened = [] ∧ (u.queue q).epoch = (x.epoch + 1) % 256 ∧
      (u.queue q).kept = x.kept ∧ (x.kept = [] → (u.queue q).words = [] ∧ (u.queue q).pktIn = x.pktIn) ∧
      s.out ++ [.notice x.prod q 1 x.pktOut, .notice x.cons q 1 x.pktOut] <+: u.out ∧
      (∀ r, cause = .software r → u.regs = s.regs) ∧
      (cause = .pointer ∨ cause = .uncorrectable → u.reg R.SQ_CNT_RESET = s.reg R.SQ_CNT_RESET + 1 ∧
        u.reg R.RAS_CNT_RECOV = s.reg R.RAS_CNT_RECOV + 1))

/-! ### Mailboxes and locks -/

/-- A word sent from one end of an enabled mailbox joins the queue of a ready peer with fewer than eight words; a full one
sets OVERFLOW and one not ready DROPPED at the sender.  A read takes the oldest word, or sets UNDERFLOW and answers 0.  A
doorbell sets the peer's pending bits but bit 31, and interrupts it.  A requester bound to neither end changes nothing but
FOREIGN. -/
def Obligations.Mailboxes : Prop :=
  (∀ (s : State) (t req m val : Nat) (e : Bool), let b := s.box m
    s.endOf m req = some e → s.flag (F.MBX_CFG.ENABLE m) = true → (b.side (!e)).ready = true → (b.side (!e)).queue.length < 8 →
    s.reaches req (R.MBX_SEND m) = true →
    Answers (.mbxSend t req m val) s fun u =>
      ((u.box m).side (!e)).queue = (b.side (!e)).queue ++ [val % 2 ^ 64] ∧ (u.box m).side e = b.side e) ∧
  (∀ (s : State) (t req m val : Nat) (e : Bool), let b := s.box m
    s.endOf m req = some e → s.flag (F.MBX_CFG.ENABLE m) = true → (b.side (!e)).ready = false ∨ 8 ≤ (b.side (!e)).queue.length →
    s.reaches req (R.MBX_SEND m) = true →
    Answers (.mbxSend t req m val) s fun u =>
      (u.box m).side (!e) = b.side (!e) ∧ ((u.box m).side e).queue = (b.side e).queue ∧
      (if (b.side (!e)).ready then ((u.box m).side e).overflow = true else ((u.box m).side e).dropped = true)) ∧
  (∀ (s : State) (t req m w : Nat) (ws : List Nat) (e : Bool), s.endOf m req = some e → s.flag (F.MBX_CFG.ENABLE m) = true → ((s.box m).side e).queue = w :: ws →
    s.reaches req (R.MBX_RECV m) = true →
    Answers (.mbxRecv t req m) s fun u => ((u.box m).side e).queue = ws ∧ (u.box m).side (!e) = (s.box m).side (!e) ∧
      u.out = s.out ++ [.readData req (R.MBX_RECV m) w]) ∧
  (∀ (s : State) (t req m : Nat) (e : Bool), s.endOf m req = some e → s.flag (F.MBX_CFG.ENABLE m) = true → ((s.box m).side e).queue = [] →
    s.reaches req (R.MBX_RECV m) = true →
    Answers (.mbxRecv t req m) s fun u => ((u.box m).side e).underflow = true ∧
      u.out = s.out ++ [.readData req (R.MBX_RECV m) 0]) ∧
  (∀ (s : State) (t req m val : Nat) (e : Bool), let x := (s.box m).side (!e)
    s.endOf m req = some e → s.flag (F.MBX_CFG.ENABLE m) = true → x.ready = true → val % 2 ^ 31 ≠ 0 →
    unmaskedBits (x.pend ||| val % 2 ^ 31) x.mask ≠ 0 → s.endReq m (!e) ≠ hostReq → s.domainOff (domainOf (s.endReq m (!e))) = false →
    s.reaches req (R.MBX_DB_RING m) = true →
    Answers (.mbxDbRing t req m val) s fun u =>
      ((u.box m).side (!e)).pend = x.pend ||| val % 2 ^ 31 ∧ u.out = s.out ++ [.irq (s.endReq m (!e)) m]) ∧
  (∀ (s : State) (t req m : Nat) (e : Bool), s.endOf m req = some e → s.flag (F.MBX_CFG.ENABLE m) = false →
    s.reaches req (R.MBX_RECV m) = true →
    Answers (.mbxRecv t req m) s fun u => u.mbx = s.mbx ∧ u.out = s.out ++ [.readData req (R.MBX_RECV m) 0]) ∧
  (∀ (s : State) (t req m val : Nat), s.endOf m req = none →
    s.reaches req (R.MBX_SEND m) = true →
    Answers (.mbxSend t req m val) s fun u => u.get F.MBX_ERR.FOREIGN = 1 ∧ u.mbx = s.mbx)

/-- A control core binds a disabled mailbox to two requesters; an enabled one takes only a disable, and another requester
is denied.  A read of a free lock acquires it and answers 0, of a held one answers its owner; the owner's write of its own
number releases it, any other write sets BAD_RELEASE; only a control core may force a release. -/
def Obligations.LocksAndBinding : Prop :=
  (∀ (s : State) (t req m val : Nat), m < 64 → isControlCore req = true → s.flag (F.MBX_CFG.ENABLE m) = false →
    val % 256 ≤ 62 → val / 256 % 256 ≤ 62 →
    s.reaches req (R.MBX_CFG m) = true →
    Answers (.mbxCfg t req m val) s fun u => u.get (F.MBX_CFG.END0 m) = val % 256 ∧
      u.get (F.MBX_CFG.END1 m) = val / 256 % 256 ∧ u.get (F.MBX_CFG.ENABLE m) = val / 2 ^ 63 % 2 ∧ u.mbx = s.mbx) ∧
  (∀ (s : State) (t req m val : Nat), m < 64 → isControlCore req = true → s.flag (F.MBX_CFG.ENABLE m) = true →
    val / 2 ^ 63 % 2 = 1 →
    s.reaches req (R.MBX_CFG m) = true →
    Answers (.mbxCfg t req m val) s fun u => u.get F.MBX_ERR.CFG = 1 ∧ u.reg (R.MBX_CFG m) = s.reg (R.MBX_CFG m) ∧ u.mbx = s.mbx) ∧
  (∀ (s : State) (t req m val : Nat), isControlCore req = false →
    s.reaches req (R.MBX_CFG m) = true →
    Answers (.mbxCfg t req m val) s fun u => u.get F.SYS_ERR.HOST_DENIED = 1 ∧ u.mbx = s.mbx) ∧
  (∀ (s : State) (t req l : Nat), l < 64 → req < 256 →
    s.reaches req (R.LCK_l l) = true →
    Answers (.lckAcquireRead t req l) s fun u => let o := s.get (F.LCK_l.OWNER l)
      u.get (F.LCK_l.OWNER l) = (if o = 0 then req else o) ∧ u.out = s.out ++ [.readData req (R.LCK_l l) o]) ∧
  (∀ (s : State) (t req l val : Nat), l < 64 → req ≠ 0 → val % 256 = req → s.get (F.LCK_l.OWNER l) = req →
    s.reaches req (R.LCK_l l) = true →
    Answers (.lckReleaseWrite t req l val) s fun u => u.get (F.LCK_l.OWNER l) = 0) ∧
  (∀ (s : State) (t req l val : Nat), l < 64 → val % 256 ≠ req ∨ s.get (F.LCK_l.OWNER l) ≠ req →
    s.reaches req (R.LCK_l l) = true →
    Answers (.lckReleaseWrite t req l val) s fun u => u.get F.LCK_ERR.BAD_RELEASE = 1 ∧
      u.get (F.LCK_l.OWNER l) = s.get (F.LCK_l.OWNER l)) ∧
  (∀ (s : State) (t req val : Nat), isControlCore req = true →
    s.reaches req R.LCK_FORCE = true →
    Answers (.lckForce t req val) s fun u => u.get (F.LCK_l.OWNER (val % 64)) = 0) ∧
  (∀ (s : State) (t req val : Nat), isControlCore req = false →
    s.reaches req R.LCK_FORCE = true →
    Answers (.lckForce t req val) s fun u => u.get F.SYS_ERR.HOST_DENIED = 1 ∧
      ∀ l < 64, u.get (F.LCK_l.OWNER l) = s.get (F.LCK_l.OWNER l))

/-! ### Host interface: doorbells, runs, the link, functions -/

/-- Of a created ring of an enabled function: a record with another epoch is counted stale; one whose index is not possible
sets DB_BAD and leaves both indices, the epoch and the state of the ring; a good one of a ring that the host produces moves
P, closes the restart window and makes a waiting ring, or a HALTED one whose index moved, ACTIVE; a good one of a ring that the device produces moves
C, drops the runs that C has passed and ends FULL when C moved. -/
def Obligations.DoorbellRecords : Prop :=
  ∀ (s : State) (r w : Nat) (x : Ring), s.ring r = some x → s.flag (F.HIF_FN_CFG.ENABLE x.fn) = true →
    let e := natBits w 47 32
    let i := w % 2 ^ 32
    (x.epochOk e = false →
      (s.doorbell r w).reg R.HIF_CNT_DB_STALE = s.reg R.HIF_CNT_DB_STALE + 1 ∧ (s.doorbell r w).hif = s.hif ∧
      (s.doorbell r w).out = s.out) ∧
    (x.epochOk e = true → x.indexOk x.dev i = false → (s.doorbell r w).get F.HIF_ERR.DB_BAD = 1 ∧
      ∃ y, (s.doorbell r w).ring r = some y ∧ (y.host, y.dev, y.epoch, y.state) = (x.host, x.dev, x.epoch, x.state)) ∧
    (x.epochOk e = true → x.indexOk x.dev i = true → x.kind.deviceProduced = false →
      (s.doorbell r w).ring r = some { x with
        host := i, restart := x.restart && decide (e ≠ x.epoch)
        state := if (x.state = .halted ∧ i ≠ x.host) ∨ x.state = .waitEpoch then .active else x.state }) ∧
    (x.epochOk e = true → x.indexOk x.dev i = true → x.kind.deviceProduced = true →
      ∃ y, (s.doorbell r w).ring r = some y ∧ y.host = i ∧ y.dev = x.dev ∧
        y.visible = x.visible.filter (fun v => !v.passed i) ∧
        y.state = if x.state = .full ∧ i ≠ x.host then .active else x.state)

/-- In watch mode a snoop or a re-read of a line that holds a created ring has the watch cache hold the line and takes its
eight records in order; without it a poll takes them; a nudge counts and takes the line that its offset names within the
function's blocks, and only counts beyond them or between lines; a translation fault of the read sets XLATE. -/
def Obligations.DoorbellReads : Prop :=
  (∀ (s : State) (t block : Nat) (recs : List Nat), s.flag F.HIF_STAT.WATCH_MODE = true → s.lineHeld block = true →
    let v := ((s.at t).holdLine block recs).doorbellLine block (recs.take 8) 0
    Answers (.doorbellSnoop t block recs false) s (fun u => u = v) ∧ Answers (.watchReread t block recs) s (fun u => u = v)) ∧
  (∀ (s : State) (block : Nat) (recs : List Nat),
    s.holdLine block recs = if s.flag F.HIF_STAT.WATCH_MODE
      then { s with hif := { s.hif with watch := tabInsert s.hif.watch block (recs.take 8) } } else s) ∧
  (∀ (s : State) (t block : Nat) (recs : List Nat), s.flag F.HIF_STAT.WATCH_MODE = false → s.lineHeld block = true →
    Answers (.doorbellPoll t block recs false) s (fun u => u = (s.at t).doorbellLine block (recs.take 8) 0)) ∧
  (∀ (s : State) (t block : Nat) (recs : List Nat), s.flag F.HIF_STAT.WATCH_MODE = true → s.lineHeld block = true →
    Answers (.doorbellSnoop t block recs true) s fun u => u.get F.HIF_ERR.XLATE = 1 ∧
      u.reg R.RAS_CNT_RECOV = s.reg R.RAS_CNT_RECOV + 1) ∧
  (∀ (s : State) (t fn off : Nat) (recs : List Nat), s.flag (F.HIF_FN_CFG.ENABLE fn) = true → off % 64 = 0 →
    off / 64 < s.get (F.HIF_FN_CFG.BLOCKS fn) → fn < 64 →
    Answers (.nudge t fn off recs) s fun u => u =
      let b := s.get (F.HIF_FN_CFG.FIRST_BLOCK fn) + off / 64
      (((s.at t).bump R.HIF_CNT_NUDGE).holdLine b recs).doorbellLine b (recs.take 8) 0) ∧
  ∀ (s : State) (t fn off : Nat) (recs : List Nat), off % 64 ≠ 0 ∨ s.get (F.HIF_FN_CFG.BLOCKS fn) ≤ off / 64 → fn < 64 →
    Answers (.nudge t fn off recs) s fun u => u = (s.at t).bump R.HIF_CNT_NUDGE

/-- The oldest waiting run of a ring that may be written and has room: the entries after the first are written to host
memory, with Relaxed Ordering where it is allowed, then the first without it, each with its phase bit; V advances by the
run's length, the run is visible and no longer waits;
where no interrupt coalesces it, the unmasked vector is raised.  A run without room writes nothing and leaves V; the ring is
FULL. -/
def Obligations.RunsBecomeVisible : Prop :=
  (∀ (s : State) (t r : Nat) (x : Ring) (run : Run) (rest : List Run), s.ring r = some x → x.kind.deviceProduced = true →
    x.wait = run :: rest → s.dead = false → s.mayWrite x run = true → run.entries.length ≤ x.room →
    Answers (.runWrite t r false) s fun u =>
      s.out ++ x.writes (s.flag F.HIF_CTL.RO_EN) ((x.dev + 1) % 2 ^ 32) (run.entries.drop 1) ++
        x.writes false x.dev (run.entries.take 1) <+: u.out ∧
      ∃ y, u.ring r = some y ∧ y.dev = (x.dev + run.entries.length) % 2 ^ 32 ∧ y.host = x.host ∧
        y.visible = x.visible ++ [⟨run.kind, (x.dev + run.entries.length) % 2 ^ 32⟩] ∧
        rest <+: y.wait ∧ (run.kind = .event → y.wait = rest)) ∧
  (∀ (s : State) (t r : Nat) (x : Ring) (run : Run) (rest : List Run), s.ring r = some x → x.kind.deviceProduced = true →
    x.wait = run :: rest → s.dead = false → s.mayWrite x run = true → run.entries.length ≤ x.room →
    run.kind = .event → run.entries ≠ [] → x.nt = 0 → (x.fn, x.vec) ∈ s.hif.unmasked →
    Answers (.runWrite t r false) s fun u => u.out.getLast? = some (.msix x.fn x.vec) ∧
      ∃ y, u.ring r = some y ∧ y.fresh = 0 ∧ y.firstAt = none) ∧
  (∀ (s : State) (t r : Nat) (x : Ring) (run : Run) (rest : List Run), s.ring r = some x → x.kind.deviceProduced = true →
    x.wait = run :: rest → s.dead = false → s.mayWrite x run = true → x.room < run.entries.length → x.state = .active →
    Answers (.runWrite t r false) s fun u => u.out = s.out ∧
      ∃ y, u.ring r = some y ∧ y.dev = x.dev ∧ y.host = x.host ∧ y.visible = x.visible ∧ y.state = .full)

/-- NT after the first entry that no interrupt covers, the ring's vector is raised; an unmasked vector sends what was
pending.  A link that goes down clears its status and the watch cache and leaves the rings; one that comes up shows what it trained and watches
doorbell lines where CXL.cache is enabled and not forced off; a change of the delivery row asks for admission again.  A
function level reset detaches every ring of the function, counts what was visible as consumed, and closes its sessions. -/
def Obligations.InterruptsLinkAndReset : Prop :=
  (∀ (s : State) (r t0 : Nat) (x : Ring), s.ring r = some x → x.firstAt = some t0 → (x.fn, x.vec) ∈ s.hif.unmasked →
    Answers (.coalescingTime r) s fun u => u.time = max s.time (t0 + 1000 * x.nt) ∧ u.out = s.out ++ [.msix x.fn x.vec] ∧
      u.ring r = some { x with fresh := 0, firstAt := none } ∧ u.regs = s.regs) ∧
  (∀ (s : State) (t fn vec : Nat), (fn, vec) ∈ s.hif.msiPending →
    Answers (.msixUnmask t fn vec false) s fun u => u.out = s.out ++ [.msix fn vec] ∧ (fn, vec) ∈ u.hif.unmasked ∧
      (fn, vec) ∉ u.hif.msiPending ∧ u.hif.rings = s.hif.rings) ∧
  (∀ (s : State) (t fn vec : Nat),
    Answers (.msixUnmask t fn vec true) s fun u => (fn, vec) ∉ u.hif.unmasked ∧ u.hif.msiPending = s.hif.msiPending ∧
      u.out = s.out ∧ u.hif.rings = s.hif.rings) ∧
  (∀ (s : State) (t : Nat),
    Answers (.linkDown t) s fun u => u.get F.HIF_STAT.LINK_UP = 0 ∧ u.get F.HIF_STAT.LINK_SPEED = 0 ∧
      u.get F.HIF_STAT.LINK_WIDTH = 0 ∧ u.get F.HIF_STAT.WATCH_MODE = 0 ∧ u.hif = { s.hif with cxl := false, watch := [] } ∧
      (∀ a, a ≠ R.HIF_STAT → u.reg a = s.reg a) ∧ u.out = s.out) ∧
  (∀ (s : State) (t speed width : Nat) (cxl : Bool), speed < 8 → width < 8 →
    Answers (.linkUp t speed width cxl []) s fun u => u.get F.HIF_STAT.LINK_UP = 1 ∧ u.get F.HIF_STAT.LINK_SPEED = speed ∧
      u.get F.HIF_STAT.LINK_WIDTH = width ∧ u.get F.HIF_STAT.WATCH_MODE = bit (cxl && !s.flag F.HIF_CTL.FORCE_POLL) ∧
      u.hif = { s.hif with cxl := cxl }) ∧
  (∀ (s : State) (t speed width : Nat), speed < 8 → width < 8 → s.flag F.HIF_STAT.LINK_UP = true →
    Answers (.linkRetrain t speed width) s fun u => u.get F.HIF_STAT.LINK_SPEED = speed ∧
      u.get F.HIF_STAT.LINK_WIDTH = width ∧
      u.aid.evals = if linkDeliver speed width = s.hostDeliver then s.aid.evals else s.aid.evals ++ [.delivery]) ∧
  ∀ (s : State) (t f : Nat), 0 < f → f < 64 → tabSorted s.hif.rings = true →
    Answers (.flr t f) s fun u =>
      (∀ r x, s.ring r = some x → x.fn = f → ∃ y, u.ring r = some y ∧ y.state = .detached ∧ y.pending = none ∧
        y.restart = false ∧ y.dev = x.dev ∧ y.host = (if x.kind.deviceProduced then x.dev else x.host)) ∧
      (∀ r x, s.ring r = some x → x.fn ≠ f → u.ring r = some x) ∧
      u.sec.sessions = s.sec.sessions.filter (fun z => z.fn ≠ f) ∧
      u.hif.unmasked = s.hif.unmasked.filter (fun z => z.1 ≠ f)

/-- A descriptor read from a command ring in its turn (log entry 91: the order of a round is the model's choice) moves H by
one.  A sequence number ahead of every earlier one makes the newest
command in progress, not yet started.  One that the completion journal holds with the same bytes is answered with status
0x0002, the original's status and data; with other bytes with 0x0302.  One that is neither ahead nor known is stale:
0x0301. -/
def Obligations.Fetching : Prop :=
  ∀ (s : State) (t r : Nat) (x y : Ring) (d : List Byte), s.ring r = some x → (s.at t).mayFetch r x = true →
    (s.at t).ringInTurn x.core = some r → x.kind = .submit → 0 < idxSub x.host x.dev → s.inProgress r < 64 → s.contexts < 4096 →
    s.ring x.complete = some y → x.complete ≠ r → r < 0x2000 →
    let seq := fieldAt d 8 4
    let tag := fieldAt d 2 2
    let h := (x.dev + 1) % 2 ^ 32
    let far := idxSub seq (tabGet 0 s.aid.smax r) = 0 ∨ 2 ^ 31 ≤ idxSub seq (tabGet 0 s.aid.smax r)
    let answered := fun (u : State) (entry : List Byte) =>
      (∃ z, u.ring x.complete = some z ∧ z.wait = y.wait ++ [⟨.completion ((fieldAt d 1 1).testBit 2), [entry]⟩] ∧
        (z.dev, z.host, z.visible) = (y.dev, y.host, y.visible)) ∧ u.aid.ctxs = s.aid.ctxs
    let moved := some { x with dev := h, deficit := if h = x.host then 0 else s.quantum r x - 1 }
    (¬ far → Answers (.descriptorFetch t r [d] false) s fun u =>
      u.aid.ctxs = s.aid.ctxs ++ [⟨r, seq, d, h, 0, 0, 0, [], []⟩] ∧ tabGet 0 u.aid.smax r = seq ∧
      u.ring r = moved ∧ (s.workCore (fieldAt d 0 1) r = x.core → u.regs = s.regs ∧ u.aid.notes = s.aid.notes ∧ u.mbx = s.mbx)) ∧
    (∀ e, far → s.aid.done.find? (fun e => e.ring = r && e.seq = seq) = some e →
      Answers (.descriptorFetch t r [d] false) s fun u => u.ring r = moved ∧
        answered u (if e.crc = descCrc d then completionEntry 0x0002 tag seq r h (sliceAt e.entry 0 2 ++ sliceAt e.entry 16 12)
          else completionEntry 0x0302 tag seq r h [])) ∧
    (far → s.aid.done.find? (fun e => e.ring = r && e.seq = seq) = none → s.ctx r seq = none → x.fetched = [] →
      Answers (.descriptorFetch t r [d] false) s fun u => u.ring r = moved ∧
        answered u (completionEntry 0x0301 tag seq r h []))

/-- The device reads the buffer of the oldest injection descriptor that has not started: with an open session that carries
INJECTION, no bad field, and the expected sequence of a running stream with tokens and journal space, the batch's journal
entry begins and the descriptor waits for it; a bad field completes the descriptor with 0x0101 and the field's offset. -/
def Obligations.InjectedBatches : Prop :=
  ∀ (s : State) (t r : Nat) (buffer : List Byte) (x : Ring) (d : InjDesc), s.ring r = some x →
    x.fetched.find? (fun d => d.stage = 0) = some d → s.mute = false → s.checkInjection x d = none →
    (∀ (i : Nat) (b : Batch), injectionField d buffer = none → x.stream = some i →
      parseBatch ((buffer ++ zeros (fieldAt d.desc 12 4)).take (fieldAt d.desc 12 4)) 0 0 0 (max s.time t)
        (some (r, fieldAt d.desc 8 4)) = some b →
      s.streamState i = 2 → b.payloadOk = true → (s.stream i).classify b.seq = .next →
      b.need * 2 ^ 32 ≤ (s.at t).tokensNow i → entryLen b.n ≤ s.jrnFree →
      Answers (.injectionDescriptor t r buffer) s fun u =>
        (∃ e, u.hg.journal = s.hg.journal ++ [e] ∧ e.stream = i ∧ e.seq = b.seq ∧ e.phase = .writing ∧ e.batch = b) ∧
        ∃ y, u.ring r = some y ∧ ({ d with stage := 1, dup := 0 } : InjDesc) ∈ y.fetched) ∧
    (∀ (o : Nat) (y : Ring), injectionField d buffer = some o → s.ring x.complete = some y → x.complete ≠ r → r < 0x2000 →
      (∀ q ∈ s.aid.repeats, q.ring ≠ r) →
      Answers (.injectionDescriptor t r buffer) s fun u =>
        (∃ z, u.ring x.complete = some z ∧ z.wait = y.wait ++ [⟨.completion false, [completionEntry 0x0101 (fieldAt d.desc 2 2)
          (fieldAt d.desc 8 4) r d.hAfter (leBytes 2 o)]⟩]) ∧ u.hg = s.hg)

/-! ### Commands: order, checks, completion -/

/-- A row that names no command in progress, or one with another opcode, already started, of another form or held back by the
order of commands, leaves the state alone.  One that may start and fails a check completes with that check's status and
data, and no register, memory, session, image or admission changes.  The checks in their order: an opcode that is not
listed is 0x0100; without an open session of its function 0x0400; a role below the opcode's 0x0401; a feature family that
the session does not carry 0x0300. -/
def Obligations.CommandChecks : Prop :=
  (∀ (s : State) (cmd : CmdRef) (op : Nat) (form : Ctx → Bool) (run : State → Ctx → State),
    (∀ c0, s.ctx cmd.ring cmd.seq = some c0 → c0.opcode ≠ op ∨ c0.steps ≠ 0 ∨ form c0 = false ∨ s.mayStart c0 = false) →
    s.command cmd op form run = s) ∧
  (∀ (s : State) (cmd : CmdRef) (form : Ctx → Bool) (run : State → Ctx → State) (c0 : Ctx) (st : Nat) (data : List Byte),
    s.ctx cmd.ring cmd.seq = some c0 → c0.steps = 0 → form c0 = true → s.mayStart c0 = true →
    let c := { c0 with
      steps := 1, sg := cmd.sg, data := if c0.ring = 0x2001 then s.aid.bus.data.take c0.listLen else cmd.data }
    (Gated s c).checkCommand c = some (st, data) →
    let u := s.command cmd c0.opcode form run
    Completed u c st data ∧ u.regs = s.regs ∧ u.mem = s.mem ∧ u.sec = s.sec ∧ u.img = s.img ∧ u.adm = s.adm ∧ u.time = s.time) ∧
  (∀ (s : State) (c : Ctx), opInfo c.opcode = none → s.checkCommand c = some (0x0100, [])) ∧
  (∀ (s : State) (c : Ctx) (i : OpInfo) (role : Nat), opInfo c.opcode = some i → c.ring ≠ 0x2001 →
    s.needRole i c.opcode c = some role → s.session (s.fnOf c.ring) c.session = none →
    s.checkCommand c = some (0x0400, [])) ∧
  ∀ (s : State) (c : Ctx) (i : OpInfo) (role : Nat) (x : Session), opInfo c.opcode = some i → c.ring ≠ 0x2001 →
    s.needRole i c.opcode c = some role → s.session (s.fnOf c.ring) c.session = some x →
    (s.isAdmin c.ring = true ∨ ∃ y, s.ring c.ring = some y ∧ y.session = c.session) →
    (x.role < role → s.checkCommand c = some (0x0401, [])) ∧
    (role ≤ x.role → (∃ f ∈ needFeatures i c.opcode c, x.feats.testBit f = false) → s.checkCommand c = some (0x0300, []))

/-- When a command of a ring completes, its entry waits last on the bound COMPLETE ring, its journal entry holds that entry
with the descriptor's CRC and the command's step, it is no longer in progress, and other commands in progress stay.  One of the management window
or of the management bus completes there, and its doorway is free again.  A repeat that waited for it is answered with
ALREADY_DONE behind it. -/
def Obligations.CommandsCompleteOnce : Prop :=
  ∀ (s : State) (c : Ctx) (st : Nat) (data : List Byte),
    let u := s.complete c st data
    let entry := completionEntry st c.tag c.seq c.ring c.hAfter data
    u.aid.done = s.aid.done ++ [⟨c.ring, c.seq, descCrc c.desc, c.steps, entry⟩] ∧
    (∀ r q, (r, q) ≠ (c.ring, c.seq) → u.ctx r q = s.ctx r q) ∧ u.ctx c.ring c.seq = none ∧
    (∀ x y, s.ring c.ring = some x → c.ring < 0x2000 → s.ring x.complete = some y → x.complete ≠ c.ring →
      let own : Run := ⟨.completion (c.flags.testBit 2), [entry]⟩
      ((∀ q ∈ s.aid.repeats, (q.ring, q.seq) ≠ (c.ring, c.seq)) →
        (∃ z, u.ring x.complete = some z ∧ z = { y with wait := y.wait ++ [own], pending := z.pending }) ∧
        u.aid.repeats = s.aid.repeats) ∧
      (∀ q, s.aid.repeats = [q] → (q.ring, q.seq) = (c.ring, c.seq) →
        (∃ z, u.ring x.complete = some z ∧
          z = { y with wait := y.wait ++ [own] ++ [⟨.completion q.noIrq, [repeatEntry q entry]⟩], pending := z.pending }) ∧
        u.aid.repeats = [])) ∧
    (c.ring = 0x2000 → s.aid.repeats = [] → u.aid.mw.cpl = entry ∧ u.aid.mw.busy = false ∧ u.hif = s.hif) ∧
    (c.ring = 0x2001 → s.aid.repeats = [] → u.aid.bus.cpl = entry ∧ u.aid.bus.busy = false ∧ u.hif = s.hif)

/-! ### Sessions and rings -/

/-- A challenge draws a nonce of 16 free bytes and answers its identifier.  An open with a valid challenge and the proof of
the role's key makes a session with the features that both sides have and FAMILY 0, and uses the challenge up; one without a
valid challenge fails with PROOF_BAD.  A close of the own session without rings ends it once nothing else of it runs.  A
key package with a fresh nonce and the right code replaces the role's key and its channel mask, and closes the other
sessions of that role; one with a wrong code changes nothing. -/
def Obligations.SessionCommands : Prop :=
  (∀ (s : State) (t : Nat) (cmd : CmdRef) (c : Ctx), Starts s cmd 0x01 c →
    Answers (.sessionChallenge t cmd) s fun u => ∃ ch, u.sec.challenges.getLast? = some ch ∧ ch.fn = s.fnOf c.ring ∧
      ch.at' = max s.time t ∧ ch.nonce.length = 16 ∧ u.fresh = s.fresh + 17 ∧ Completed u c 0 (leBytes 4 ch.id)) ∧
  (∀ (s : State) (t : Nat) (cmd : CmdRef) (c : Ctx) (x : Challenge) (key : List Byte), Starts s cmd 0x02 c →
    let fn := s.fnOf c.ring
    let role := c.p 20 1
    let nh := c.data.take 16
    (s.at t).challenge fn (c.p 16 4) = some x → s.roleKey role = some key → s.sec.zeroised = false →
    (s.roleMask role).testBit (channelBit (channelCode fn)) = true → tabGet 0 s.sec.lockout fn ≤ max s.time t →
    sliceAt c.data 16 32 = sessionProof key x.nonce nh role (channelCode fn) → 64 ≤ fn ∨ s.openSessions < 256 →
    Answers (.sessionOpen t cmd) s fun u => ∃ z, u.sec.sessions = s.sec.sessions ++ [z] ∧ z.fn = fn ∧ z.role = role ∧
      z.feats = (0x7FFF &&& c.p 24 16) ||| 1 ∧ z.key = sessionKey key x.nonce nh z.id ∧ z.closing = false ∧
      u.sec.challenges = s.sec.challenges.filter (fun y => !(y.fn = fn && y.id = c.p 16 4)) ∧
      u.reg R.SEC_CNT_SESSION_OPEN = s.reg R.SEC_CNT_SESSION_OPEN + 1 ∧ Completed u c 0 (leBytes 4 z.id ++ leBytes 1 role)) ∧
  (∀ (s : State) (t : Nat) (cmd : CmdRef) (c : Ctx), Starts s cmd 0x02 c →
    (s.at t).challenge (s.fnOf c.ring) (c.p 16 4) = none → tabGet 0 s.sec.lockout (s.fnOf c.ring) ≤ max s.time t →
    Answers (.sessionOpen t cmd) s fun u => u.get F.SEC_ERR.PROOF_BAD = 1 ∧
      u.reg R.SEC_CNT_PROOF_FAIL = s.reg R.SEC_CNT_PROOF_FAIL + 1 ∧ u.sec.sessions = s.sec.sessions ∧ Completed u c 0x0402 []) ∧
  (∀ (s : State) (t : Nat) (cmd : CmdRef) (c : Ctx) (x : Session), Starts s cmd 0x03 c →
    let fn := s.fnOf c.ring
    let b := Begun s t c
    c.p 16 4 = c.session → s.session fn c.session = some x → (∀ p ∈ s.hif.rings, ¬ (p.2.session = c.session ∧ p.2.fn = fn)) →
    (b.sessionQuiet c c.session = true → Answers (.sessionClose t cmd) s fun u => Completed u c 0 [] ∧
      u.sec.sessions = s.sec.sessions.filter (fun y => !(y.id = c.session && y.fn = fn))) ∧
    (b.sessionQuiet c c.session = false → Answers (.sessionClose t cmd) s fun u => WaitsFor u c wClose c.session ∧
      u.session fn c.session = none)) ∧
  (∀ (s : State) (t : Nat) (cmd : CmdRef) (c : Ctx) (x : Session), Starts s cmd 0x91 c →
    let d := c.data
    let kind := c.p 16 1
    s.issuer c = some x → sliceAt d 8 8 ∉ x.nonces → sliceAt d 80 32 = hmac256 x.key (d.take 80) → kind ≠ 4 →
    Answers (.keyProvision t cmd) s fun u => tabFind u.sec.keys kind = some (packageKey x.key d) ∧
      tabGet 0 u.sec.masks kind = fieldAt d 5 1 ∧ (∀ k, k ≠ kind → tabFind u.sec.keys k = tabFind s.sec.keys k) ∧
      (∀ y ∈ u.sec.sessions, y.role = kind → y.id = x.id) ∧ u.sec.caks = s.sec.caks ∧ Completed u c 0 []) ∧
  (∀ (s : State) (t : Nat) (cmd : CmdRef) (c : Ctx) (x : Session), Starts s cmd 0x91 c → s.issuer c = some x →
    sliceAt c.data 80 32 ≠ hmac256 x.key (c.data.take 80) →
    Answers (.keyProvision t cmd) s fun u => u.sec = s.sec ∧ u.regs = s.regs ∧ Completed u c 0x0402 [])

/-- A create with a free number of the function, an aligned base and a bound COMPLETE ring where it needs one makes the ring
that the command describes, ACTIVE, empty and with the number's next epoch, and answers number and epoch.  A destroy of a
ring that nothing names removes it once it is idle, and waits until then.  An attach gives a DETACHED ring its new memory
and next epoch; a ring that the host produces waits for a record with it. -/
def Obligations.RingCommands : Prop :=
  (∀ (s : State) (t : Nat) (cmd : CmdRef) (c : Ctx) (k : RingKind), Starts s cmd 0x10 c →
    let fn := s.fnOf c.ring
    let r := c.p 16 2
    let e := nextEpoch (s.epochOf r)
    r ≠ 0xFFFF → (s.ringNumbers fn).contains r = true → s.ring r = none → s.isAdminNumber fn r = false →
    kindOf (c.p 18 1) = some k → baseOk k (c.p 20 1) (c.p 24 8) = true → k.deviceProduced = true ∨ s.boundOk c = true →
    k ≠ .log ∨ s.logRings < 8 →
    Answers (.ringCreate t cmd) s fun u => Completed u c 0 (leBytes 2 r ++ leBytes 2 e) ∧
      ∃ y, u.ring r = some y ∧ y.kind = k ∧ y.cls = c.p 19 1 ∧ y.logN = c.p 20 1 ∧ y.base = c.p 24 8 ∧ y.fn = fn ∧
        y.session = c.session ∧ y.epoch = e ∧ y.state = .active ∧ y.dev = 0 ∧ y.host = 0 ∧
        y.complete = (if k.deviceProduced then 0 else c.p 22 2)) ∧
  (∀ (s : State) (t : Nat) (cmd : CmdRef) (c : Ctx) (x : Ring), Starts s cmd 0x11 c →
    let r := c.p 16 2
    let b := Begun s t c
    s.ring r = some x → x.fn = s.fnOf c.ring → s.isAdminNumber x.fn r = false → s.ringNamed r x = false → b.dying r = false →
    (b.ringIdle c r = true → Answers (.ringDestroy t cmd) s fun u => u.ring r = none ∧ Completed u c 0 []) ∧
    (b.ringIdle c r = false → Answers (.ringDestroy t cmd) s fun u => u.ring r = some x ∧ WaitsFor u c wDestroy r)) ∧
  ∀ (s : State) (t : Nat) (cmd : CmdRef) (c : Ctx) (x : Ring), Starts s cmd 0x12 c →
    let r := c.p 16 2
    let e := nextEpoch (s.epochOf r)
    s.ring r = some x → baseOk x.kind x.logN (c.p 24 8) = true → x.fn = s.fnOf c.ring → x.state = .detached →
    Answers (.ringAttach t cmd) s fun u => Completed u c 0 (zeros 2 ++ leBytes 2 e) ∧
      ∃ y, u.ring r = some y ∧ y.base = c.p 24 8 ∧ y.epoch = e ∧ y.restart = false ∧ y.dev = x.dev ∧ y.host = x.host ∧
        y.state = (if x.kind.deviceProduced then .active else .waitEpoch)

/-! ### Admission, streams, groups -/

/-- A change that admission has no say in takes effect at once: a class whose deadline does not fall, a group whose streams
are not touched, a stream of class BEST_EFFORT, a stream's lower rate.  Any other joins the queue of events and waits.  The
oldest event is evaluated: a request that does not fit completes with 0x0202 and what bounds it, one that fits goes on.  A
close drains the stream and waits until it is CLOSED. -/
def Obligations.AdmissionCommands : Prop :=
  (∀ (s : State) (t : Nat) (cmd : CmdRef) (c : Ctx), Starts s cmd 0x20 c →
    let n := c.p 16 1
    let old := s.classRow n
    (old.d ≤ c.classRow.d → (c.classRow.bestEffort = true → old.bestEffort = true) →
      Answers (.classSet t cmd) s fun u => tabFind u.adm.classes n = some c.classRow ∧
        Completed u c 0 (leBytes 1 (popcount 128 (setMinus u.adm.withdrawn s.adm.withdrawn)) ++ leBytes 1 s.adm.floor)) ∧
    (c.classRow.d < old.d → Answers (.classSet t cmd) s fun u => WaitsFor u c wEval 0 ∧
      u.aid.evals = s.aid.evals ++ [.classChange n c.ring c.seq] ∧ u.adm = s.adm ∧ u.regs = s.regs)) ∧
  (∀ (s : State) (t : Nat) (cmd : CmdRef) (c : Ctx), Starts s cmd 0x21 c →
    let g := c.p 16 1
    let n := c.p 17 1
    let b := Begun s t c
    let r := b.tryCommit (b.aidReq 5) (R.CP_GRP_COMMIT g) c.groupVals (fun s => s.cpGrpCommit (b.aidReq 5) g 1)
    (s.slot n).isSome = true → s.flag (F.CP_GRP_CTL.ENABLE g) = false ∨ tabFind s.img.fusionSlot g = some n →
    (((s.groupStreams g).any s.isAdmitted && s.groupAlters c) = false →
      (r.2 = none → Answers (.groupSet t cmd) s fun u => tabFind u.img.fusionSlot g = some n ∧ u.regs = r.1.regs ∧
        Completed u c 0 []) ∧
      (∀ code, r.2 = some code → Answers (.groupSet t cmd) s fun u =>
        Completed u c 0x0108 (leBytes 2 0 ++ leBytes 4 (R.CP_GRP_COMMIT g) ++ leBytes 1 code))) ∧
    (((s.groupStreams g).any s.isAdmitted && s.groupAlters c) = true →
      Answers (.groupSet t cmd) s fun u => WaitsFor u c wEval 0 ∧ u.aid.evals = s.aid.evals ++ [.group g c.ring c.seq] ∧
        u.regs = s.regs)) ∧
  (∀ (s : State) (t : Nat) (cmd : CmdRef) (c : Ctx), Starts s cmd 0x22 c →
    let i := c.p 16 1
    s.streamState i = 0 → s.flag F.HG_CTL.ENABLE = true → s.flag (F.CP_GRP_CTL.ENABLE (s.openLoad c).group) = true →
    (∃ x, s.slot (c.p 20 1) = some x ∧ x.active = true) → c.p 18 2 = 0xFFFF →
    ((s.openClass c).bestEffort = true → Answers (.streamOpen t cmd) s fun u =>
      u = ((Begun s t c).openFinish c false).mirrorConfig) ∧
    ((s.openClass c).bestEffort = false → Answers (.streamOpen t cmd) s fun u => WaitsFor u c wEval 0 ∧
      u.aid.evals = s.aid.evals ++ [.openStream i c.ring c.seq] ∧ u.regs = s.regs)) ∧
  (∀ (s : State) (t : Nat) (cmd : CmdRef) (c : Ctx), Starts s cmd 0x23 c →
    let i := c.p 16 1
    let b := Begun s t c
    let old := s.chargedAt i
    let new := s.modifyBkt c
    let b' := if (fieldAt c.data 41 1).testBit 2 then b.unbuild i 0 else b
    let r := b'.tryCommit (b.aidReq 5) (R.HG_STREAM_COMMIT i) c.modifyVals (fun s => s.hgStreamCommit (b.aidReq 5) i 1)
    s.streamState i = 2 →
    (new.1 ≤ old.1 → new.2 ≤ old.2 → s.modifyClass c = s.get (F.HG_STREAM_CTL.CLASS i) → r.2 = none →
      Answers (.streamModify t cmd) s fun u => tabFind u.adm.charged i = some old ∧ Completed u c 0 []) ∧
    (old.1 < new.1 → (s.classRow (s.modifyClass c)).bestEffort = false →
      Answers (.streamModify t cmd) s fun u => WaitsFor u c wEval 0 ∧ u.aid.evals = s.aid.evals ++ [.modify i c.ring c.seq] ∧
        u.regs = s.regs)) ∧
  (∀ (s : State) (t : Nat) (cmd : CmdRef) (c : Ctx), Starts s cmd 0x24 c →
    let i := c.p 16 1
    let b := Begun s t c
    let r := b.tryCommit (b.aidReq 5) (R.HG_STREAM_COMMIT i)
      [(R.HG_STREAM_CTL i, (setBits (s.reg (R.HG_STREAM_CTL i)) 0 0 0).toNat)] (fun s => s.hgStreamCommit (b.aidReq 5) i 1)
    (s.streamState i = 3 → Answers (.streamClose t cmd) s fun u => WaitsFor u c wStreamClosed i ∧ u.hg = s.hg) ∧
    (s.streamState i = 1 ∨ s.streamState i = 2 → r.2 = none → r.1.streamState i ≠ 0 →
      Answers (.streamClose t cmd) s fun u => WaitsFor u c wStreamClosed i ∧ u.regs = r.1.regs ∧ u.hg = r.1.hg)) ∧
  (∀ (s : State) (t i r q : Nat) (es : List Eval) (c : Ctx), s.adm.raising = none → s.aid.evals = .openStream i r q :: es →
    s.ctx r q = some c → s.aid.mw.arrived = [] →
    let v := { s.at t with aid := { s.aid with evals := es } }
    let a := v.tryAdmit (v.loads (setMinus s.adm.admitted (streamBit i)) ++ [v.openLoad c])
    (∀ x, a = .inr x → Answers (.admissionEvaluation t) s fun u => Completed u c 0x0202 (leBytes 1 x.1 ++ zeros 1 ++ leBytes 2 x.2) ∧
      u.aid.evals = es ∧ u.adm = s.adm ∧ u.regs = s.regs) ∧
    (∀ p, a = .inl p → s.adm.floor ≤ p → Answers (.admissionEvaluation t) s fun u => u = (v.openFinish c true).mwDrain.mirrorConfig))

/-- Once admission has passed or is not asked, a STREAM_OPEN without a projection table or a site item completes with 0x0308;
else either some commit of its three fails and the completion 0x0108 names it, with images, admission, the Headgate and the
maps as before, or the stream runs under the image slot that the command names and the completion carries the floor and
whether the stream is admitted. -/
def Obligations.StreamOpenWhole : Prop :=
  ∀ (s : State) (c : Ctx) (adm : Bool), let i := c.p 16 1
    let u := s.openFinish c adm
    (noAddr (fieldAt c.data 96 8) = true → s.calItem (0x8000 + i) = none → Completed u c 0x0308 []) ∧
    (noAddr (fieldAt c.data 96 8) = false ∨ (s.calItem (0x8000 + i)).isSome = true →
      (∃ off code, off ∈ [R.FW_MAP_COMMIT i, R.CP_MBR_COMMIT i, R.HG_STREAM_COMMIT i] ∧
        Completed u c 0x0108 (leBytes 2 0 ++ leBytes 4 off ++ leBytes 1 code) ∧ u.img = s.img ∧ u.adm = s.adm ∧ u.hg = s.hg ∧
        u.built = s.built ∧ ∀ a, a ≠ off + 4 → u.reg a = s.reg a) ∨
      (Completed u c 0 (leBytes 1 u.adm.floor ++ leBytes 1 (bit adm)) ∧ tabFind u.img.streamSlot i = some (c.p 20 1) ∧
        tabFind u.img.streamOld i = none))

/-! ### Model images -/

/-- A load into an EMPTY slot that its tiles and cores can hold leaves the slot READY with epoch and digest, and completes,
or waits for admission when it replaces a slot.  An activation of a READY slot is pending 1 ms on, or at its time.
At its time a slot that replaces none is ACTIVE and the command completes.  An
unload of a slot that nothing uses empties it.  A query changes no image. -/
def Obligations.ModelCommands : Prop :=
  (∀ (s : State) (t : Nat) (cmd : CmdRef) (c : Ctx) (image : Image), Starts s cmd 0x30 c →
    let n := c.p 16 1
    let m := { image with bytes := c.data }
    let ts := s.tilesFor m (c.p 40 6)
    let epoch := c.p 32 8
    n < 16 → s.slot n = none → epoch ≠ 0 → (∀ p ∈ s.img.slots, p.2.epoch ≠ epoch) → m.formatOk = true →
    m.classesOk ts.length = true → s.tilesHold m ts = true → s.coresHold m = true →
    let loaded := fun (u : State) => u.get (F.ST_GRP_STAT.STATE n) = 1 ∧ u.reg (R.ST_GRP_EPOCH n) = BitVec.ofNat 64 epoch ∧
      ∃ x, u.slot n = some x ∧ x.image = m ∧ x.epoch = epoch ∧ x.digest = sha256 c.data ∧ x.active = false ∧ x.pending = none ∧
        x.usable = ts.length
    (16 ≤ c.p 17 1 ∨ s.slot (c.p 17 1) = none → Answers (.modelLoad t cmd image) s fun u => loaded u ∧
      Completed u c 0 ((sha256 c.data).take 8 ++ leBytes 1 ts.length)) ∧
    (c.p 17 1 < 16 → (s.slot (c.p 17 1)).isSome = true → Answers (.modelLoad t cmd image) s fun u => loaded u ∧
      WaitsFor u c wEval 0 ∧ u.aid.evals = s.aid.evals ++ [.load n c.ring c.seq])) ∧
  (∀ (s : State) (t : Nat) (cmd : CmdRef) (c : Ctx) (x : ImgSlot), Starts s cmd 0x31 c →
    let n := c.p 16 1
    let f := c.p 17 1
    let b := Begun s t c
    s.slot n = some x → x.active = false → x.pending = none → f.testBit 1 = false →
    (b.waiters wEval).any (fun w => w.opcode = 0x30 && w.p 16 1 = n) = false →
    (f.testBit 0 = false → Answers (.modelActivate t cmd) s fun u =>
      u.slot n = some { x with pending := some ⟨max s.time t + 1000000, c.ring, c.seq⟩ } ∧
      WaitsFor u c wActivate (max s.time t + 1000000)) ∧
    (f.testBit 0 = true → windowOk (max s.time t) (c.p 24 8) = true → s.get F.TIM_SERVO.STATE = 2 →
      Answers (.modelActivate t cmd) s fun u => u.slot n = some { x with pending := some ⟨c.p 24 8, c.ring, c.seq⟩ } ∧
        WaitsFor u c wActivate (c.p 24 8)) ∧
    (f.testBit 0 = true → windowOk (max s.time t) (c.p 24 8) = false →
      Answers (.modelActivate t cmd) s fun u => Completed u c 0x0106 [] ∧ u.img = s.img)) ∧
  (∀ (s : State) (t n : Nat) (x : ImgSlot) (a : Activation) (c : Ctx), s.slot n = some x → x.pending = some a →
    a.at' ≤ max s.time t → x.replaces = none → s.ctx a.ring a.seq = some c →
    Answers (.activationSwitch t n) s fun u => u.slot n = some { x with active := true, pending := none } ∧ Completed u c 0 []) ∧
  (∀ (s : State) (t : Nat) (cmd : CmdRef) (c : Ctx) (x : ImgSlot), Starts s cmd 0x32 c →
    let n := c.p 16 1
    n < 16 → s.slot n = some x → s.slotBusy n = false →
    Answers (.modelUnload t cmd) s fun u => u.slot n = none ∧ u.reg (R.ST_GRP_STAT n) = 0 ∧ u.reg (R.ST_GRP_EPOCH n) = 0 ∧
      Completed u c 0 []) ∧
  (∀ (s : State) (t : Nat) (cmd : CmdRef) (c : Ctx), Starts s cmd 0x33 c → c.ring ≠ 0x2001 →
    let b := Begun s t c
    Answers (.modelQuery t cmd) s fun u => (b.sgWrite (b.fnOf c.ring) c.sg (b.queryData (c.p 16 1))).out <+: u.out ∧
      Completed u c 0 [] ∧ u.img = s.img ∧ u.regs = s.regs)

/-- A second activation of a slot with one pending completes with 0x0303 and leaves the first pending.  With CANCEL set the
pending activation completes with 0x0307 and the cancel with OK.  Where nothing is pending, because nothing was asked for or
because the switch has taken effect, the cancel completes with 0x0303. -/
def Obligations.OnePendingActivation : Prop :=
  (∀ (s : State) (t : Nat) (cmd : CmdRef) (c : Ctx) (x : ImgSlot) (a : Activation), Starts s cmd 0x31 c →
    (c.p 17 1).testBit 1 = false → s.slot (c.p 16 1) = some x → x.pending = some a →
    Answers (.modelActivate t cmd) s fun u => Completed u c 0x0303 [] ∧ u.img = s.img) ∧
  (∀ (s : State) (t : Nat) (cmd : CmdRef) (c w : Ctx) (x : ImgSlot) (a : Activation), Starts s cmd 0x31 c →
    (c.p 17 1).testBit 1 = true → s.slot (c.p 16 1) = some x → x.pending = some a → s.ctx a.ring a.seq = some w →
    (a.ring, a.seq) ≠ (c.ring, c.seq) →
    Answers (.modelActivateCancel t cmd) s fun u => u.slot (c.p 16 1) = some { x with pending := none } ∧ Completed u c 0 [] ∧
      u.ctx a.ring a.seq = none ∧
      ⟨w.ring, w.seq, descCrc w.desc, w.steps, completionEntry 0x0307 w.tag w.seq w.ring w.hAfter []⟩ ∈ u.aid.done) ∧
  ∀ (s : State) (t : Nat) (cmd : CmdRef) (c : Ctx), Starts s cmd 0x31 c → (c.p 17 1).testBit 1 = true →
    (∀ x, s.slot (c.p 16 1) = some x → x.pending = none) →
    Answers (.modelActivateCancel t cmd) s fun u => Completed u c 0x0303 [] ∧ u.img = s.img

/-! ### Configuration, calibration, time, statistics, attestation -/

/-- An entry that is not well formed or not allowed completes the command with 0x0101 and its offset before anything is
written; a timed command waits within its window; an entry of kind 1 is written as the control core would write it, at once
or at its time.  Reads answer what is asked for; a calibration write replaces the item, raises the sequence and answers the
new digest; TIME_SET sets the time of an unsynchronised device without open streams; LOG_CONFIG answers the old settings; a
report is answered with a signature of 384 free bytes. -/
def Obligations.ServiceCommands : Prop :=
  (∀ (s : State) (t : Nat) (cmd : CmdRef) (c : Ctx), Starts s cmd 0x38 c →
    let b := Begun s t c
    let r := b.cfgEntries c
    (∀ o, r.2 = some o → Answers (.configCommit t cmd) s fun u => Completed u c 0x0101 (leBytes 2 (0x8000 + o)) ∧
      u.regs = s.regs ∧ u.groups = s.groups) ∧
    (r.2 = none → (c.p 18 1).testBit 0 = true → b.time + 1000000 ≤ c.p 24 8 → c.p 24 8 ≤ b.time + 86400000000000 →
      Answers (.configCommit t cmd) s fun u => WaitsFor u c wTimedConfig (c.p 24 8) ∧ u.regs = s.regs) ∧
    (∀ e, r = ([e], none) → (c.p 18 1).testBit 0 = false → e.kind = 1 → b.cfgLocked e = false →
      Answers (.configCommit t cmd) s fun u =>
        u.regs = (b.each e.regs (fun s p => s.writeReg (b.aidReq 5) p.1 8 p.2)).regs ∧ Completed u c 0 []) ∧
    (∀ e es, r = (e :: es, none) → (c.p 18 1).testBit 0 = false → b.cfgLocked e = true →
      Answers (.configCommit t cmd) s fun u => Completed u c 0x0305 [] ∧ u.regs = s.regs)) ∧
  (∀ (s : State) (c : Ctx) (e : CfgEntry), earliest (s.waiters wTimedConfig) = some c →
    s.cfgEntries c = ([e], none) → e.kind = 1 → (s.at c.arg).cfgLocked e = false →
    let b := s.at c.arg
    Answers .timedConfigCommit s fun u => Completed u c 0 [] ∧
      u.regs = (b.each e.regs (fun s p => s.writeReg (b.aidReq 5) p.1 8 p.2)).regs) ∧
  (∀ (s : State) (t : Nat) (cmd : CmdRef) (c : Ctx) (d : List Byte), Starts s cmd 0x40 c → c.ring ≠ 0x2001 →
    s.calSource (c.p 16 2) = some d →
    let b := Begun s t c
    let out := (d.drop (c.p 20 4)).take (c.p 24 4)
    out.length ≤ sgBytes c.sg → Answers (.calRead t cmd) s fun u => (b.sgWrite (b.fnOf c.ring) c.sg out).out <+: u.out ∧
      u.cal = s.cal ∧ Completed u c 0 (leBytes 4 out.length ++ leBytes 4 d.length)) ∧
  (∀ (s : State) (t : Nat) (cmd : CmdRef) (c : Ctx), Starts s cmd 0x41 c →
    let n := c.p 16 2
    listedItem n = true → (c.p 18 1).testBit 0 = false → s.cal.total + c.data.length ≤ 67108864 → tabSorted s.cal.items = true →
    Answers (.calWrite t cmd true) s fun u => (∃ x, tabFind u.cal.items n = some x ∧ x.data = c.data ∧ x.factory = false) ∧
      (∀ k, k ≠ n → (tabFind u.cal.items k).map (fun x => x.data) = (tabFind s.cal.items k).map (fun x => x.data)) ∧
      u.cal.seq = (s.cal.seq + 1) % 2 ^ 32 ∧ Completed u c 0 (u.cal.digest.take 8)) ∧
  (∀ (s : State) (t : Nat) (cmd : CmdRef) (c : Ctx), Starts s cmd 0x60 c →
    Answers (.timeGet t cmd) s fun u => Completed u c 0 (leBytes 8 (max s.time t) ++ leBytes 1 (s.get F.TIM_SERVO.STATE) ++ zeros 1 ++
      leBytes 4 (fromSigned 32 (satSigned 32 (s.getS F.TIM_OFFSET.NS)))) ∧ u.time = max s.time t ∧ u.regs = s.regs) ∧
  (∀ (s : State) (t : Nat) (cmd : CmdRef) (c : Ctx), Starts s cmd 0x61 c → s.get F.TIM_SERVO.STATE = 0 → s.streamsOpen = false →
    (Begun s t c).timedPending = false →
    Answers (.timeSet t cmd) s fun u => Completed u c 0 [] ∧ u.regs = s.regs ∧
      (c.p 16 1 = 0 → u.time = c.p 24 8 ∧ u.frac = 0) ∧
      (c.p 16 1 = 1 → u.time = ((max s.time t : Nat) + toSigned 64 (c.p 24 8)).toNat ∧ u.frac = s.frac)) ∧
  (∀ (s : State) (t : Nat) (cmd : CmdRef) (c : Ctx), Starts s cmd 0x80 c → c.ring ≠ 0x2001 → c.p 16 1 = 0 →
    let b := Begun s t c
    let a := c.p 20 4
    let n := c.p 24 2
    (∀ j < n, isCounter (a + 8 * j) = true) → 8 * n ≤ sgBytes c.sg →
    Answers (.statsRead t cmd) s fun u => Completed u c 0 (leBytes 4 (8 * n)) ∧ u.regs = s.regs ∧
      (b.sgWrite (b.fnOf c.ring) c.sg ((List.range n).flatMap (fun j => leBytes 8 (s.reg (a + 8 * j)).toNat))).out <+: u.out) ∧
  (∀ (s : State) (t : Nat) (cmd : CmdRef) (c : Ctx), Starts s cmd 0x81 c →
    Answers (.logConfig t cmd) s fun u => Completed u c 0 (leBytes 2 s.aid.mw.trace ++ zeros 2 ++ leBytes 4 s.aid.mw.level) ∧
      u.aid.mw.trace = (if (c.p 24 1).testBit 0 then c.p 16 2 else s.aid.mw.trace) ∧
      u.aid.mw.level = (if (c.p 24 1).testBit 1 then c.p 20 4 else s.aid.mw.level)) ∧
  (∀ (s : State) (t : Nat) (cmd : CmdRef) (c : Ctx), Starts s cmd 0x90 c → c.ring ≠ 0x2001 →
    let b := Begun s t c
    let body := b.report (sliceAt c.desc 16 16)
    body.length + 384 ≤ sgBytes c.sg →
    Answers (.attest t cmd) s fun u => ∃ sig, sig.length = 384 ∧ (b.sgWrite (b.fnOf c.ring) c.sg (body ++ sig)).out <+: u.out ∧
      Completed u c 0 (leBytes 2 (body.length + 384)) ∧ u.fresh = s.fresh + 384)

/-! ### Firmware -/

/-- An image that passes every check is STAGED in the slot that is not ACTIVE; one that fails its form, signatures or digests
completes with 0x0403 and sets SIG_BAD.  An activation starts the handover of the staged slot, is deferred during an
emergency with status 0x0001, or waits for its time; a cancel completes a waiting one with 0x0307.  Components pass in their
order; the last makes the slot ACTIVE and the other one STAGED and binds its digest; one that fails completes the command
with 0x0501 and those before it are handed back. -/
def Obligations.FirmwareUpdate : Prop :=
  (∀ (s : State) (t : Nat) (cmd : CmdRef) (c : Ctx) (n : Nat), Starts s cmd 0x18 c → s.aid.upd.active = some n →
    Answers (.fwVersion t cmd) s fun u => ∃ rom, Completed u c 0 (leBytes 4 (s.aid.upd.slot n).version ++ rom ++ leBytes 1 n) ∧
      rom.length = 4 ∧ u.aid.upd = s.aid.upd ∧ u.regs = s.regs) ∧
  (∀ (s : State) (t : Nat) (cmd : CmdRef) (c : Ctx), Starts s cmd 0x50 c → s.aid.upd.busy = false → c.p 20 4 ≤ 1048576 →
    fieldAt c.data 16 4 = c.p 20 4 →
    (s.patchCheck c.data = 0 → Answers (.fwStage t cmd) s fun u =>
      u.aid.upd = s.aid.upd.setSlot (if s.aid.upd.active = some 0 then 1 else 0) (patchOf c.data 1) ∧
      Completed u c 0 (leBytes 4 (fieldAt c.data 8 4))) ∧
    (s.patchCheck c.data = 0x0403 → Answers (.fwStage t cmd) s fun u => u.aid.upd = s.aid.upd ∧ u.get F.SEC_ERR.SIG_BAD = 1 ∧
      u.reg R.SEC_CNT_SIG_FAIL = s.reg R.SEC_CNT_SIG_FAIL + 1 ∧ Completed u c 0x0403 [])) ∧
  (∀ (s : State) (t : Nat) (cmd : CmdRef) (c : Ctx) (n : Nat), Starts s cmd 0x51 c → (c.p 17 1).testBit 1 = false →
    s.aid.upd.busy = false → s.aid.upd.staged = some n →
    ((c.p 17 1).testBit 0 = true → Answers (.fwActivate t cmd) s fun u => WaitsFor u c wTimedFw (c.p 24 8) ∧
      u.aid.upd = s.aid.upd) ∧
    ((c.p 17 1).testBit 0 = false → s.emergency = false → Answers (.fwActivate t cmd) s fun u => WaitsFor u c wHandover n ∧
      u.aid.upd = { s.aid.upd with handover := some ⟨n, 0, false, some (c.ring, c.seq)⟩ }) ∧
    ((c.p 17 1).testBit 0 = false → s.emergency = true → Answers (.fwActivate t cmd) s fun u => Completed u c 0x0001 [] ∧
      u.aid.upd = { s.aid.upd with deferred := some n })) ∧
  (∀ (s : State) (t : Nat) (cmd : CmdRef) (c w : Ctx) (ws : List Ctx), Starts s cmd 0x51 c → (c.p 17 1).testBit 1 = true →
    (Begun s t c).waiters wTimedFw = w :: ws →
    Answers (.fwActivateCancel t cmd) s fun u => Completed u c 0 [] ∧ u.ctx w.ring w.seq = none ∧
      ⟨w.ring, w.seq, descCrc w.desc, w.steps, completionEntry 0x0307 w.tag w.seq w.ring w.hAfter []⟩ ∈ u.aid.done) ∧
  (∀ (s : State) (c : Ctx) (n : Nat), earliest (s.waiters wTimedFw) = some c → s.aid.upd.busy = false →
    s.aid.upd.staged = some n → s.emergency = false →
    Answers .fwActivateTime s fun u => u.time = max s.time c.arg ∧ WaitsFor u c wHandover n ∧
      u.aid.upd = { s.aid.upd with handover := some ⟨n, 0, false, some (c.ring, c.seq)⟩ }) ∧
  (∀ (s : State) (t n : Nat), s.aid.upd.deferred = some n → s.emergency = false →
    Answers (.deferredActivationBegin t) s fun u =>
      u.aid.upd = { s.aid.upd with deferred := none, handover := some ⟨n, 0, false, none⟩ }) ∧
  (∀ (s : State) (t comp : Nat) (h : Handover), s.aid.upd.handover = some h → h.back = false →
    handoverOrder.getD h.done 16 = comp → comp < 16 →
    (h.done < 15 → Answers (.componentHandover t comp true) s fun u =>
      u.aid.upd = { s.aid.upd with handover := some { h with done := h.done + 1 } } ∧ u.aid.ctxs = s.aid.ctxs) ∧
    (h.done = 15 → h.slot < 2 → (s.aid.upd.slot (1 - h.slot)).state = 2 → Answers (.componentHandover t comp true) s fun u =>
      u.aid.upd.handover = none ∧ (u.aid.upd.slot h.slot).state = 2 ∧ (u.aid.upd.slot (1 - h.slot)).state = 1 ∧
      u.aon.bound = (s.aid.upd.slot h.slot).digest ∧
      ∀ r q c, h.cmd = some (r, q) → s.ctx r q = some c → Completed u c 0 []) ∧
    (∀ r q c, 0 < h.done → h.cmd = some (r, q) → s.ctx r q = some c → Answers (.componentHandover t comp false) s fun u =>
      Completed u c 0x0501 [] ∧ u.aid.upd.handover = some { h with back := true, cmd := none }))

/-! ### Steps, test faults, control cores, the management window -/

/-- A test fault of a part in service notes the injection and waits for its recovery, or for its time; its restore returns
the part and asks for capacity.  A step of a waiting command whose wait is over completes it; an unlisted opcode completes
with 0x0100.  A component that breaks its compartment restarts, and a second time within a second is disabled.  A failed
core leaves service with its rings moved, and rejoins after a good reload.  The window takes descriptor bytes while it is
free and issues a command once. -/
def Obligations.TestsStepsAndCores : Prop :=
  (∀ (s : State) (t : Nat) (cmd : CmdRef) (c : Ctx), Starts s cmd 0xF0 c →
    let part := c.p 16 1
    let i := c.p 18 2
    let b := Begun s t c
    ((c.p 20 1) = 0 → s.wouldBeFatal part i = false → s.partFailed part i = false → s.isInjected part (partIndex part i) = false →
      Answers (.testFault t cmd) s fun u => u.aid.tests = s.aid.tests ++ [⟨part, partIndex part i, b.time, none, false⟩] ∧
        WaitsFor u c wTestRecover (partIndex part i)) ∧
    ((c.p 20 1) = 1 → Answers (.testFault t cmd) s fun u => WaitsFor u c wTestInject (c.p 24 8) ∧ u.aid.tests = s.aid.tests)) ∧
  (∀ (s : State) (t : Nat) (c : Ctx), (s.at t).testDue (fun c => !isRestore c) = some c →
    let part := c.p 16 1
    let i := c.p 18 2
    s.wouldBeFatal part i = false → s.partFailed part i = false → s.isInjected part (partIndex part i) = false →
    Answers (.testFaultInjection t) s fun u => WaitsFor u c wTestRecover (partIndex part i) ∧
      u.aid.tests = s.aid.tests ++ [⟨part, partIndex part i, max s.time t, none, false⟩]) ∧
  (∀ (s : State) (t i : Nat) (c : Ctx), (s.at t).testDue isRestore = some c → c.p 16 1 = pTile → c.p 18 2 = i → i < 48 →
    s.isInjected pTile i = true → s.get (F.ST_STAT.STATE i) = 4 →
    Answers (.testFaultRestore t) s fun u => u.get (F.ST_STAT.STATE i) = 1 ∧ u.isInjected pTile i = false ∧
      u.aid.evals.head? = some .capacity ∧ Completed u c 0 (zeros 10)) ∧
  (∀ (s : State) (t core comp ring seq : Nat) (c : Ctx), s.stepAllowed core comp = true → s.ctx ring seq = some c →
    (c.steps ≠ 0 → c.waiting = wStreamClosed → s.streamState c.arg = 0 →
      Answers (.commandStep t core comp ⟨ring, seq, []⟩) s fun u => u.ctx ring seq = none ∧
        ∃ e, u.aid.done.getLast? = some e ∧ e.ring = c.ring ∧ e.seq = c.seq ∧ fieldAt e.entry 0 2 = 0) ∧
    (c.steps = 0 → opInfo c.opcode = none → s.mayStart c = true →
      Answers (.commandStep t core comp ⟨ring, seq, []⟩) s fun u => Completed u c 0x0100 [])) ∧
  (∀ (s : State) (t core addr len : Nat) (kind : AccessKind), core ∈ s.liveCores →
    let comp := (s.unit core).comp
    ((s.unit core).allows addr len kind = true → s.aid.traps.testBit core = false →
      Answers (.compartmentViolation t core ⟨addr, len, kind⟩) s fun u => u = s.at t) ∧
    ((s.unit core).allows addr len kind = false ∨ s.aid.traps.testBit core = true → 0 < comp → s.aid.disabled.testBit comp = false →
      (tabFind s.aid.violated comp = none → Answers (.compartmentViolation t core ⟨addr, len, kind⟩) s fun u =>
        u.reg R.RAS_CNT_RECOV = s.reg R.RAS_CNT_RECOV + 1 ∧ tabFind u.aid.violated comp = some (max s.time t) ∧
        u.aid.disabled = s.aid.disabled ∧ u.aid.traps.testBit core = false) ∧
      (∀ t0, tabFind s.aid.violated comp = some t0 → max s.time t < t0 + 1000000000 →
        Answers (.compartmentViolation t core ⟨addr, len, kind⟩) s fun u => u.aid.disabled.testBit comp = true ∧
          u.reg R.RAS_CNT_DEGR = s.reg R.RAS_CNT_DEGR + 1 ∧ u.aid.traps.testBit core = false))) ∧
  (∀ (s : State) (t core cond : Nat), core ∈ s.liveCores → 2 ≤ (s.liveCores.filter (fun k => k ≠ core)).length →
    (s.coreSt core).rejoined = none →
    Answers (.controlCoreFail t core cond) s fun u => u.liveCores = s.liveCores.filter (fun k => k ≠ core) ∧
      (∀ r y, u.ring r = some y → y.core ≠ core) ∧ u.reg R.RAS_CNT_RECOV = s.reg R.RAS_CNT_RECOV + 1) ∧
  (∀ (s : State) (t core : Nat), core < 8 → (s.get F.MBX_CORE_STAT.FAILED).testBit core = true → (s.coreSt core).out = false →
    s.isInjected pCore core = false →
    Answers (.coreRejoin t core true) s fun u => core ∈ u.liveCores ∧ (u.get F.MBX_CORE_STAT.FAILED).testBit core = false ∧
      u.coreSt core = ⟨some (max s.time t), false⟩) ∧
  (∀ (s : State) (t off val : Nat), s.fwReady = true → s.aid.mw.busy = false → 0x100 ≤ off → off < 0x140 → off % 8 = 0 →
    (MwFree s → Answers (.mwWrite t off 8 val) s fun u => u.aid.mw.desc = patchBytes s.aid.mw.desc (off - 0x100) (leBytes 8 val) ∧
      u.aid.mw.arrived = [] ∧ u.aid.ctxs = s.aid.ctxs ∧ u.regs = s.regs) ∧
    (s.aborts (s.home 13) ≠ [] → Answers (.mwWrite t off 8 val) s fun u =>
      u.aid.mw.arrived = s.aid.mw.arrived ++ [(off, 8, val)] ∧ u.aid.mw.desc = s.aid.mw.desc)) ∧
  (∀ (s : State) (t : Nat), let d := s.aid.mw.desc
    let seq := fieldAt d 8 4
    MwFree s → s.fwReady = true → s.get F.PWR_STOP.STATE = 0 → s.aid.mw.busy = false →
    (∀ c ∈ s.aid.ctxs, c.ring ≠ 0x2000) → (∀ q ∈ s.aid.repeats, q.ring ≠ 0x2000) → s.aid.ctxs.length < 4096 →
    1 ≤ idxSub seq (tabGet 0 s.aid.smax 0x2000) → idxSub seq (tabGet 0 s.aid.smax 0x2000) < 2 ^ 31 →
    Answers (.mwCmdGo t) s fun u => u.aid.ctxs = s.aid.ctxs ++ [⟨0x2000, seq, d, 0, 0, 0, 0, [], []⟩] ∧ u.aid.mw.busy = true ∧
      (s.workCore (fieldAt d 0 1) 0x2000 = s.ringCore 0x2000 → u.regs = s.regs ∧ u.out = s.out)) ∧
  ∀ (s : State) (t : Nat), MwFree s → s.fwReady = true → s.get F.PWR_STOP.STATE = 0 → s.aid.mw.busy = true →
    Answers (.mwCmdGo t) s fun u => u.aid.mw.refused = true ∧ u.aid.ctxs = s.aid.ctxs

/-! ### Power and buddy commands -/

/-- A cap whose point keeps the power floor, or one with FORCE, waits for the next measurement interval; another completes
with 0x0303.  STOP_ENTER of an idle device disables the blocks, completes and starts the entry.  A warm reset that does not
fail raises WARM_COUNT, ends with firmware ready and completes.  A pairing that meets its conditions is PAIRING and waits;
one that lasts a second completes with 0x0504, and neither device mirrors; unpairing ends the pair; the status names state
and peer. -/
def Obligations.PowerAndBuddyCommands : Prop :=
  (∀ (s : State) (t : Nat) (cmd : CmdRef) (c : Ctx), Starts s cmd 0x70 c →
    (((c.p 18 1).testBit 0 = true ∨ ∃ p, capPointOf (c.p 16 2) = some p ∧ p ≤ s.adm.floor) →
      Answers (.powerSet t cmd) s fun u => WaitsFor u c wCap (c.p 16 2) ∧ u.regs = s.regs) ∧
    ((c.p 18 1).testBit 0 = false → (∀ p, capPointOf (c.p 16 2) = some p → s.adm.floor < p) →
      Answers (.powerSet t cmd) s fun u => Completed u c 0x0303 [] ∧ u.regs = s.regs)) ∧
  (∀ (s : State) (t : Nat) (cmd : CmdRef) (c : Ctx), Starts s cmd 0x71 c → s.anyOpen = false → s.aid.ctxs.length = 1 →
    (∀ p ∈ s.hif.rings, p.2.fetched = []) →
    Answers (.stopEnter t cmd) s fun u => Completed u c 0 [] ∧ u.get F.PWR_STOP.STATE = 1 ∧ u.get F.PWR_STOP.STEP = 2 ∧
      (∀ f ∈ enableFields, u.flag f = false) ∧ u.aon.entered = max s.time t) ∧
  (∀ (s : State) (t : Nat) (cmd : CmdRef) (c : Ctx) (boot : Boot), Starts s cmd 0x72 c → s.get F.PWR_STOP.STATE < 2 →
    s.aon.enables = [] → s.warmFailure boot = none →
    Answers (.warmReset t cmd boot) s fun u => u.get F.HIF_STAT.WARM_COUNT = (s.get F.HIF_STAT.WARM_COUNT + 1) % 65536 ∧
      u.get F.HIF_STAT.FW_READY = 1 ∧ u.aon.phase = .up ∧ u.ctx c.ring c.seq = none) ∧
  (∀ (s : State) (t : Nat) (cmd : CmdRef) (c : Ctx) (peer : PairReply), Starts s cmd 0xA0 c → s.budState = 0 →
    c.p 16 2 < 1024 → (Begun s t c).pairCode (c.p 16 2) peer = none →
    Answers (.buddyPair t cmd peer) s fun u => u.get F.RAS_BUDDY.STATE = 1 ∧ u.get F.RAS_BUDDY.PEER = c.p 16 2 ∧
      WaitsFor u c wPair 0) ∧
  (∀ (s : State) (t : Nat) (cmd : CmdRef) (c : Ctx) (peer : PairReply), Starts s cmd 0xA0 c → s.budState ≠ 0 →
    Answers (.buddyPair t cmd peer) s fun u => Completed u c 0x0303 [] ∧ u.regs = s.regs) ∧
  (∀ (s : State) (t : Nat) (cmd : CmdRef) (c : Ctx), Starts s cmd 0xA1 c →
    Answers (.buddyUnpair t cmd) s fun u => Completed u c 0 [] ∧ u.get F.RAS_BUDDY.STATE = 0 ∧
      (s.budState ≠ 0 → u.get F.HG_CTL.MIRROR = 0 ∧ u.get F.RAS_BUDDY.FENCED = 0 ∧ u.bud = Bud.reset)) ∧
  (∀ (s : State) (t : Nat) (cmd : CmdRef) (c : Ctx), Starts s cmd 0xA2 c →
    Answers (.buddyStatus t cmd) s fun u => Completed u c 0 s.buddyData ∧ u.regs = s.regs) ∧
  ∀ (s : State) (r q t0 : Nat) (c : Ctx), s.bud.pairing = some (r, q, t0) → s.budState = 1 → s.ctx r q = some c →
    Answers .pairingTimeout s fun u => u.time = max s.time (t0 + 1000000000) ∧ u.get F.RAS_BUDDY.STATE = 0 ∧
      u.get F.HG_CTL.MIRROR = 0 ∧ u.bud = Bud.reset ∧
      ⟨c.ring, c.seq, descCrc c.desc, c.steps, completionEntry 0x0504 c.tag c.seq c.ring c.hAfter []⟩ ∈ u.aid.done

/-! ### Network and time -/

/-- On an enabled port in service a frame with a bad check sequence is only counted.  A good one is counted; one of the
device's datagrams on the runnel port goes to the Headgate; one that is not the device's leaves on the port that the table
names for its destination and VLAN, tagged as the VLAN orders, and is counted there. -/
def Obligations.EthernetFrames : Prop :=
  ∀ (s : State) (t p : Nat) (f : Frame), s.portExists p = true → s.flag (F.NET_PORT_CTL.ENABLE p) = true → s.portUp p = true →
    let e := readEth (s.get (F.NET_PORT_CTL.PVID p)) f.bytes
    (f.fcsOk = false → Answers (.ethernetFrame t p f) s fun u => u = (s.at t).bump (R.NET_PORT_CNT_RX_FCS p)) ∧
    (f.fcsOk = true → f.bytes.length + 4 ≤ 9216 → s.flag (F.NET_PORT_CTL.MACSEC p) = false → s.get (F.NET_PORT_CTL.PTP_ROLE p) = 0 →
      s.rapsRing p e = none → e.type ≠ 0x888E → s.ringBlocked p = false → s.flag F.NET_CTL.LEARN = false →
      (∀ src sport b, s.udpOf e = some (src, sport, s.get F.HG_CTL.UDP_PORT, b) → s.toDevice e = true → s.hears e.vid p = true →
        Answers (.ethernetFrame t p f) s fun u => u = ((s.at t).bump (R.NET_PORT_CNT_RX p)).runnel p src sport b) ∧
      (∀ i x, s.udpOf e = none → s.toDevice e = false → isGroup e.dst = false → s.flag F.NET_CTL.BRIDGE = true →
        s.isMember e.vid p = true → s.fdbFind e.dst e.vid = some (i, x) → x.port < 16 → s.mayLeave e p x.port = true →
        Answers (.ethernetFrame t p f) s fun u =>
          u.out = s.out ++ [.frame x.port (e.bytes (!(F.NET_VLAN_DATA.UNTAGGED.of (s.vlan e.vid)).testBit x.port))] ∧
          u.reg (R.NET_PORT_CNT_RX p) = s.reg (R.NET_PORT_CNT_RX p) + 1 ∧
          u.reg (R.NET_PORT_CNT_TX x.port) = s.reg (R.NET_PORT_CNT_TX x.port) + 1 ∧ u.net = s.net))

/-- A port that fails is marked, loses its link and what was learned on it, and is recorded as RECOVERED and DEGRADED; one
that returns, a second after its failure, or comes up for the first time, shows link and FEC lock.  At the end of wait-to-restore the RPL port is blocked
again; at the end of the guard timer R-APS messages are taken again.  A write to NET_FDB_DATA makes or removes the static
entry that NET_FDB_ADDR names; a learned entry goes when it was not seen for AGE_S. -/
def Obligations.PortsAndTables : Prop :=
  (∀ (s : State) (t p : Nat), s.portExists p = true → s.flag (F.NET_PORT_STAT.FAILED p) = false →
    Answers (.portFail t p) s fun u => u.flag (F.NET_PORT_STAT.FAILED p) = true ∧ u.flag (F.NET_PORT_STAT.LINK p) = false ∧
      u.get F.NET_ERR.PORT_FAIL = 1 ∧ u.reg R.RAS_CNT_RECOV = s.reg R.RAS_CNT_RECOV + 1 ∧
      u.reg R.RAS_CNT_DEGR = s.reg R.RAS_CNT_DEGR + 1 ∧ (∀ i e, tabFind u.net.fdb i = some e → e.static = true ∨ e.port ≠ p)) ∧
  (∀ (s : State) (t p : Nat), p < 16 → s.flag (F.NET_PORT_STAT.FAILED p) = true → s.net.testDown.testBit p = false →
    tabGet 0 s.net.downSince p + 1000000000 ≤ max s.time t → Answers (.portReturn t p) s fun u => u.flag (F.NET_PORT_STAT.FAILED p) = false ∧ u.flag (F.NET_PORT_STAT.LINK p) = true ∧
      u.flag (F.NET_PORT_STAT.FEC_LOCK p) = true) ∧
  (∀ (s : State) (t p : Nat), s.portExists p = true → s.flag (F.NET_PORT_CTL.ENABLE p) = true →
    s.flag (F.NET_PORT_STAT.FAILED p) = false →
    Answers (.portLinkUp t p) s fun u => u.flag (F.NET_PORT_STAT.LINK p) = true ∧ u.flag (F.NET_PORT_STAT.FEC_LOCK p) = true ∧
      (∀ a, a ≠ R.NET_PORT_STAT p → u.reg a = s.reg a) ∧ u.net = s.net ∧ u.out = s.out) ∧
  (∀ (s : State) (n t : Nat), n < 8 → (s.erp n).wtrAt = some t →
    Answers (.waitToRestore n) s fun u => u.time = max s.time t ∧ u.get (F.NET_ERP_k.STATE n) = 1 ∧
      u.erp n = { s.erp n with blocked := 2 ^ s.get (F.NET_ERP_k.RPL_PORT n), wtrAt := none }) ∧
  (∀ (s : State) (n t : Nat), (s.erp n).guardAt = some t →
    Answers (.guardTimer n) s fun u => u.time = max s.time t ∧ u.erp n = { s.erp n with guardAt := none } ∧ u.regs = s.regs ∧
      u.out = s.out) ∧
  (∀ (s : State) (t req val : Nat), let i := s.get F.NET_FDB_ADDR.INDEX
    s.reaches req R.NET_FDB_DATA = true → Answers (.netFdbData t req val) s fun u =>
      (∀ j, j ≠ i → tabFind u.net.fdb j = tabFind s.net.fdb j) ∧
      if val.testBit 63 then ∃ e, tabFind u.net.fdb i = some e ∧ e.static = true ∧ e.mac = val % 2 ^ 48 ∧
        e.port = val / 2 ^ 56 % 32 ∧ e.vid = s.get F.NET_FDB_VID.VID
      else tabFind u.net.fdb i = none) ∧
  ∀ (s : State) (t i : Nat) (e : FdbEntry), tabFind s.net.fdb i = some e → e.static = false →
    (e.seen + 1000000000 * s.get F.NET_CTL.AGE_S ≤ max s.time t →
      Answers (.fdbAgeing t i) s fun u => tabFind u.net.fdb i = none ∧ u.regs = s.regs ∧
        ∀ j, j ≠ i → tabFind u.net.fdb j = tabFind s.net.fdb j) ∧
    (max s.time t < e.seen + 1000000000 * s.get F.NET_CTL.AGE_S →
      Answers (.fdbAgeing t i) s fun u => u.net = s.net)

/-- The head frame of queue 7 leaves at its launch time, counted; one that is late on a port that drops late frames is only
counted, unless it must be sent.  A control core's read takes the oldest timestamp; another's answers 0.  A read of TIM_NOW
answers the nanoseconds and latches the fraction.  An edge on PPS_IN is stamped; as the source of an unlocked servo, far off,
it steps the time.  PPS_OUT rises at the whole second and falls after its width.  A silent source means HOLDOVER with the
mean ADDEND, and HOLDOVER past its limit FREE. -/
def Obligations.LaunchAndTime : Prop :=
  (∀ (s : State) (t p : Nat) (f : TxFrame) (r : List TxFrame), p < 16 → tabGet [] s.net.q7 p = f :: r → s.portUp p = true →
    f.what = .other none →
    (max s.time t ≤ f.launch + s.get (F.NET_PORT_CTL.LATE_TOL p) → Answers (.launch t p) s fun u =>
      u.time = max (max s.time t) f.launch + s.wireNs f.wire ∧ u.out = s.out ++ [.frame p f.payload] ∧ tabGet [] u.net.q7 p = r ∧
      u.reg (R.NET_PORT_CNT_TX p) = s.reg (R.NET_PORT_CNT_TX p) + 1) ∧
    (f.launch + s.get (F.NET_PORT_CTL.LATE_TOL p) < max s.time t → s.flag (F.NET_PORT_CTL.LATE_DROP p) = true →
      Answers (.launch t p) s fun u => u.out = s.out ∧ tabGet [] u.net.q7 p = r ∧
        u.reg (R.NET_PORT_CNT_LATE_DROP p) = s.reg (R.NET_PORT_CNT_LATE_DROP p) + 1)) ∧
  (∀ (s : State) (t req p id ns fr : Nat) (r : List (Nat × Nat × Nat)), p < 16 → tabGet [] s.net.txts p = (id, ns, fr) :: r →
    s.reaches req (R.NET_PORT_TXTS_ID p) = true →
    (isControlCore req = true → Answers (.netPortTxtsId t req p) s fun u => tabGet [] u.net.txts p = r ∧
      u.get (F.NET_PORT_TXTS_ID.VALID p) = 1 ∧ u.get (F.NET_PORT_TXTS_ID.FRAME_ID p) = id % 2 ^ 16 ∧
      u.get (F.NET_PORT_TXTS_TIME.NS p) = ns % 2 ^ 64 ∧
      u.out = s.out ++ [.readData req (R.NET_PORT_TXTS_ID p) (u.reg (R.NET_PORT_TXTS_ID p)).toNat]) ∧
    (isControlCore req = false → Answers (.netPortTxtsId t req p) s fun u => u.net = s.net ∧ u.regs = s.regs ∧
      u.out = s.out ++ [.readData req (R.NET_PORT_TXTS_ID p) 0])) ∧
  (∀ (s : State) (t req : Nat), s.reaches req R.TIM_NOW = true → s.frac < 2 ^ 32 →
    Answers (.timNow t req) s fun u => u.out = s.out ++ [.readData req R.TIM_NOW (max s.time t)] ∧
      u.get F.TIM_NOW_FRAC.FRAC = s.frac / 2 ^ 16 ∧ u.time = max s.time t ∧ u.frac = s.frac) ∧
  (∀ (s : State) (t : Nat), s.flag F.TIM_PPS.IN_EN = true → s.get F.TIM_SERVO.SOURCE ≠ 1 →
    Answers (.ppsIn t) s fun u => u.get F.TIM_PPS_IN.NS = max s.time t % 2 ^ 64 ∧ u.time = max s.time t ∧ u.net = s.net) ∧
  (∀ (s : State) (t : Nat), let r := max s.time t % 1000000000
    s.flag F.TIM_PPS.IN_EN = true → s.get F.TIM_SERVO.SOURCE = 1 → s.get F.TIM_SERVO.STATE = 0 → s.mayStep = true →
    10000 < r → r < 500000000 →
    Answers (.ppsIn t) s fun u => u.time = max s.time t - r ∧ u.get F.TIM_SERVO.STATE = 1 ∧ u.get F.TIM_OFFSET.NS = r) ∧
  (∀ (s : State), s.flag F.TIM_PPS.OUT_EN = true → let t := (s.time / 1000000000 + 1) * 1000000000
    Answers .ppsOut s fun u => u.time = t ∧ u.out = s.out ++ [.irq 1 1] ∧
      u.net.ppsDue = some (t + 1000000 * s.get F.TIM_PPS.WIDTH_MS)) ∧
  (∀ (s : State) (t : Nat), s.net.ppsDue = some t →
    Answers .ppsOutFall s fun u => u.time = max s.time t ∧ u.out = s.out ++ [.irq 1 0] ∧ u.net.ppsDue = none) ∧
  (∀ (s : State) (t : Nat), s.get F.TIM_SERVO.STATE = 2 → (s.at t).sourceSilent = true →
    Answers (.sourceTimeout t) s fun u => u.get F.TIM_SERVO.STATE = 3 ∧ u.net.servo.holdSince = some (max s.time t) ∧
      u.get F.TIM_ADDEND.ADDEND = meanOr (s.get F.TIM_ADDEND.ADDEND) (s.net.servo.means.map (fun m => m.2)) % 2 ^ 40) ∧
  ∀ (s : State) (t : Nat), s.get F.TIM_SERVO.HOLD_S ≠ 0 → s.get F.TIM_SERVO.STATE = 3 → s.net.servo.holdSince = some t →
    Answers .holdoverLimit s fun u => u.get F.TIM_SERVO.STATE = 0 ∧
      u.time = max s.time (t + 1000000000 * s.get F.TIM_SERVO.HOLD_S) ∧ u.net.servo.holdSince = none

/-- A reliable message with the next sequence is taken and acknowledged; one out of order is only acknowledged; a datagram of
another session is dropped with CULVERT_AUTH.  An unacknowledged message goes out again after 8 µs.  A heartbeat joins queue
7 of the peer's port at the device's instants.  A peer that was silent for a millisecond is LOST.  The lower device number
challenges an enabled peer with a fresh nonce of 16 bytes.  A dissent ends a second after its last finding. -/
def Obligations.CulvertMessages : Prop :=
  (∀ (s : State) (t port k : Nat) (m : Culvert), let d := m.bytes
    let chan := fieldAt d 18 1
    let c := (s.peer k).chan (chanKey chan port)
    s.portUp port = true → s.sender m.src d = some k → s.cvForm d = true → s.peerUp k = true →
    fieldAt d 3 1 = 0x03 → s.flag (F.NET_PEER_CTL.BUDDY k) = true →
    (fieldAt d 20 4 ≠ (s.peer k).ours → Answers (.culvertDatagram t port m) s fun u => u.get F.NET_ERR.CULVERT_AUTH = 1 ∧
      u.net = s.net ∧ u.bud = s.bud ∧ u.out = s.out) ∧
    (fieldAt d 20 4 = (s.peer k).ours → chan ≠ 0 → (fieldAt d 19 1).testBit 1 = false → c.unacked = [] →
      (fieldAt d 8 4 = (c.taken + 1) % 2 ^ 32 → Answers (.culvertDatagram t port m) s fun u =>
        ((u.peer k).chan (chanKey chan port)).taken = (c.taken + 1) % 2 ^ 32 ∧ u.bud = (s.dropMirrored (d.drop 32)).bud ∧
        ∃ a, u.out = s.out ++ [.culvert k port a] ∧ fieldAt a 3 1 = 0x06) ∧
      (fieldAt d 8 4 ≠ (c.taken + 1) % 2 ^ 32 → Answers (.culvertDatagram t port m) s fun u => u.net = s.net ∧ u.bud = s.bud ∧
        ∃ a, u.out = s.out ++ [.culvert k port a] ∧ fieldAt a 3 1 = 0x06))) ∧
  (∀ (s : State) (t k key : Nat) (m : CvMsg), let c := (s.peer k).chan key
    s.peerUp k = true → key / 16 ≠ 0 → c.unacked = [m] → m.tries = 0 → m.sentAt + 8000 ≤ max s.time t →
    Answers (.culvertRetransmit t k key) s fun u => u.out = s.out ++ [.culvert k (key % 16)
      (s.cvBytes k (key / 16) (key % 16) m.type m.seq 1 m.payload)] ∧
      (u.peer k).chan key = { c with unacked := [{ m with tries := 1, sentAt := max s.time t }] }) ∧
  (∀ (s : State) (t k : Nat), (s.at t).beatDue = true → s.ras.silent = false → k < 16 → (∀ j < 16, s.peerUp j = decide (j = k)) →
    s.flag (F.NET_PEER_CTL.ALT_EN k) = false →
    Answers (.heartbeat t) s fun u => let p := s.get (F.NET_PEER_CTL.PORT k)
      let b := s.beatBytes k
      tabGet [] u.net.q7 p = tabGet [] s.net.q7 p ++ [⟨max s.time t, b.length + 122, .heartbeat k false, b⟩] ∧ u.out = s.out ∧
      u.regs = s.regs) ∧
  (∀ (s : State) (t k : Nat), k < 16 → s.peerUp k = true → (s.peer k).lastRx + 1000000 ≤ max s.time t →
    Answers (.peerLost t k) s fun u => u.get (F.NET_PEER_STAT.STATE k) = 3 ∧
      (∀ x ∈ u.net.dissent, x.peer ≠ s.get (F.NET_PEER_CTL.DEVNUM k)) ∧
      (s.flag (F.NET_PEER_CTL.BUDDY k) = true → s.budState = 2 → s.flag F.RAS_BUDDY.FENCED = false →
        u.get F.RAS_BUDDY.STATE = 3 ∧ u.bud.lost = true ∧ u.get F.HG_CTL.MIRROR = 0)) ∧
  (∀ (s : State) (t k : Nat), k < 16 → s.flag (F.NET_PEER_CTL.ENABLE k) = true → s.peerUp k = false →
    s.devNum < s.get (F.NET_PEER_CTL.DEVNUM k) → s.peerKey.isSome = true → (s.peer k).retryAt ≤ max s.time t →
    (s.peer k).nonce = [] →
    Answers (.authChallenge t k) s fun u => (u.peer k).nonce.length = 16 ∧ u.fresh = s.fresh + 16 ∧
      ∃ port a, u.out = s.out ++ [.culvert k port a] ∧ fieldAt a 3 1 = 0x09 ∧ fieldAt a 32 1 = 1 ∧ sliceAt a 40 16 = (u.peer k).nonce) ∧
  ∀ (s : State) (dev epoch : Nat) (d : Dissent), s.net.dissent.find? (fun d => d.peer = dev && d.epoch = epoch) = some d →
    Answers (.dissentEnd dev epoch) s fun u => u.time = max s.time (d.last + 1000000000) ∧
      u.net.dissent = s.net.dissent.filter (fun x => !(x.peer = dev && x.epoch = epoch))

/-! ### Faults and the buddy -/

/-- A FATAL error in RUN is pending, ends every command in progress with a completion and is signalled over AER.  The
suspension of a spaced fault ends 10 ms after its detection.  Gathered CORRECTED errors of a part become one record with
MERGED and their count 1 ms after the first.  A lease cycle writes the own word and keeps what it read.  A paired device whose buddy is
silent and whose lease is unconfirmed for 900 µs is FENCED.  A takeover that is due writes the lease word TAKEN_OVER and
ends with the mirrored journal, slots and runs dropped. -/
def Obligations.FaultsAndLease : Prop :=
  (∀ (s : State) (t part index cond : Nat), s.running = true → part < 256 →
    Answers (.fatalError t part index cond) s fun u => u.get F.RAS_PEND.FATAL = 1 ∧ u.aid.ctxs = [] ∧
      (∀ c ∈ s.aid.ctxs, ∃ e ∈ u.aid.done, e.ring = c.ring ∧ e.seq = c.seq) ∧ Out.aer 0 true ∈ u.out ∧
      (s.get F.RAS_PEND.FATAL = 0 → u.get F.RAS_FATAL.PART = part)) ∧
  (∀ (s : State) (m t0 : Nat), s.ras.susp = [⟨cSpacing, m, t0, none⟩] → m ≠ 0 →
    Answers .faultSpacingEnd s fun u => u.time = max s.time (t0 + 10000000) ∧ u.ras.susp = []) ∧
  (∀ (s : State) (part index : Nat) (m : CeMerge), s.ras.merging.find? (fun x => x.part = part && x.index = index) = some m →
    m.count < 2 ^ 32 →
    Answers (.ceMergeWindow part index) s fun u => u.time = max s.time (m.since + 1000000) ∧
      (∀ x ∈ u.ras.merging, ¬ (x.part = part ∧ x.index = index)) ∧
      ∃ r, u.ras.log.getLast? = some r ∧ fieldAt r 1 1 = 0 ∧ fieldAt r 3 1 = 4 ∧ fieldAt r 28 4 = m.count) ∧
  (∀ (s : State) (t readBack peerWord : Nat), s.get F.RAS_LEASE.ADDR ≠ 0 → s.budState ≠ 0 → s.flag F.HIF_STAT.LINK_UP = true →
    s.flag F.RAS_BUDDY.FENCED = false →
    let w := (s.at t).leaseWord
    Answers (.leaseWrite t readBack peerWord true) s fun u =>
      u.out = s.out ++ [.hostWrite 0 none false s.leaseAddr (leBytes 8 w)] ∧ u.bud.ownWord = w ∧ u.bud.peerWord = peerWord ∧
      u.bud.confirmed = (if readBack = w then max s.time t else s.bud.confirmed) ∧
      u.bud.peerSince = (if peerWord = s.bud.peerWord then s.bud.peerSince else max s.time t) ∧ u.regs = s.regs) ∧
  (∀ (s : State) (t k : Nat), s.buddy = some k → s.budState = 2 → s.flag F.RAS_BUDDY.FENCED = false →
    (s.peer k).lastRx + 900000 ≤ max s.time t → s.bud.confirmed + 900000 ≤ max s.time t →
    Answers (.fenced t) s fun u => u.get F.RAS_BUDDY.FENCED = 1 ∧ u.budState = 2 ∧ u.bud = s.bud) ∧
  ∀ (s : State) (t : Nat) (host : List HostRead),
    s.bud.asked = true ∨ (s.bud.lost = true ∧ s.bud.peerSince + 1000000 ≤ max s.time t) →
    s.budState = 3 → s.flag F.RAS_BUDDY.FENCED = false →
    Answers (.takeover t host) s fun u =>
      Out.hostWrite 0 none false s.leaseAddr (leBytes 8 (2 * 2 ^ 56 + max s.time t / 1000 % 2 ^ 56)) ∈ u.out ∧
      u.bud.journal = [] ∧ u.bud.runs = [] ∧ u.bud.standby = [] ∧ u.bud.asked = false

/-! ### Power -/

/-- A raise requests the voltage of the floor's point first; a lower switches the divider to the target first.  A read within
5 mV of the request starts the hold of a raise and ends a lower; 20 µs later the divider switches to the raise's point.  A
raise not confirmed within 200 µs is a power emergency at point 3.  At the end of a millisecond a waiting cap applies and its command
completes; a block without a divider switch above the cap goes one point lower, or begins CAP_AT_FLOOR at the floor; one with room goes one point
higher. -/
def Obligations.OperatingPoints : Prop :=
  (∀ (s : State) (t : Nat), s.heldDown = false → (s.at t).spaced = true → s.floorGoal < s.point → s.pow.raiseAt = none →
    Answers (.dvfsRequest t) s fun u => u.out = s.out ++ [.avs 0 (opMv s.floorGoal)] ∧ u.get F.PWR_DVFS.STATE = 1 ∧
      u.point = s.point ∧ u.pow.mv = opMv s.floorGoal ∧ u.pow.goal = s.floorGoal ∧ u.pow.raiseAt = some (max s.time t) ∧
      u.pow.holdAt = none) ∧
  (∀ (s : State) (t : Nat), s.heldDown = false → (s.at t).spaced = true → s.point ≤ s.floorGoal → s.point < s.get F.PWR_DVFS.TARGET →
    s.adm.raising = none → s.adm.abandoned = none →
    Answers (.dvfsRequest t) s fun u => u.point = s.get F.PWR_DVFS.TARGET ∧ u.get F.PWR_DVFS.STATE = 4 ∧
      u.pow.mv = opMv (s.get F.PWR_DVFS.TARGET) ∧ u.pow.raiseAt = none ∧ u.pow.switched = true ∧
      Out.avs 0 (opMv (s.get F.PWR_DVFS.TARGET)) ∈ u.out ∧ u.reg R.PWR_CNT_DVFS = s.reg R.PWR_CNT_DVFS + 1) ∧
  (∀ (s : State) (t mv : Nat), mv ≤ s.pow.mv + 5 → s.pow.mv ≤ mv + 5 →
    (s.get F.PWR_DVFS.STATE = 1 → Answers (.avsVoltageRead t mv) s fun u => u.get F.PWR_DVFS.STATE = 2 ∧
      u.pow.holdAt = some (max s.time t) ∧ u.point = s.point) ∧
    (s.get F.PWR_DVFS.STATE = 4 → Answers (.avsVoltageRead t mv) s fun u => u.get F.PWR_DVFS.STATE = 0 ∧ u.point = s.point)) ∧
  (∀ (s : State) (t mv : Nat), s.pow.mv + 5 < mv ∨ mv + 5 < s.pow.mv →
    Answers (.avsVoltageRead t mv) s fun u => u = s.at t) ∧
  (∀ (s : State) (t h : Nat), s.pow.holdAt = some h → s.pow.goal < 4 → s.adm.raising = none → s.adm.abandoned = none →
    (h + 20000 ≤ max s.time t → Answers (.pgoodHold t) s fun u => u.point = s.pow.goal ∧ u.get F.PWR_DVFS.STATE = 0 ∧
      u.pow.confirmed = s.pow.mv ∧ u.pow.raiseAt = none ∧ u.pow.holdAt = none ∧
      u.reg R.PWR_CNT_DVFS = s.reg R.PWR_CNT_DVFS + 1) ∧
    (max s.time t < h + 20000 → Answers (.pgoodHold t) s fun u => u = s.at t)) ∧
  (∀ (s : State) (r : Nat), s.pow.raiseAt = some r →
    Answers .raiseTimeout s fun u => u.time = max s.time (r + 200000) ∧ u.get F.PWR_EMERG.POWER = 1 ∧ u.point = 3 ∧
      u.pow.raiseAt = none ∧ u.pow.warnEnd = some (max s.time (r + 200000) + 10000000)) ∧
  (∀ (s : State) (t mw : Nat) (c : Ctx), s.pow.switched = true → s.waiters wCap = [c] → c.arg < 1024 → s.aid.repeats = [] →
    Answers (.powerCapDecision t mw) s fun u => u.get F.PWR_CAP.CAP_W = c.arg ∧ u.pow.switched = false ∧ u.point = s.point ∧
      u.get F.PWR_DVFS.CAP_NONE = (if capPointOf c.arg = none then 1 else 0) ∧
      Completed u c 0 (leBytes 1 ((capPointOf c.arg).getD 4) ++ leBytes 1 s.adm.floor)) ∧
  (∀ (s : State) (t mw : Nat), s.pow.switched = false → s.waiters wCap = [] → 1000 * s.get F.PWR_CAP.CAP_W < mw →
    (s.point < s.adm.floor → s.adm.floor ≤ 3 → (s.at t).spaced = true → s.adm.raising = none → s.adm.abandoned = none →
      Answers (.powerCapDecision t mw) s fun u => u.point = s.point + 1 ∧ u.reg R.PWR_CNT_CAP = s.reg R.PWR_CNT_CAP + 1 ∧
        u.pow.mv = opMv (s.point + 1)) ∧
    (s.adm.floor ≤ s.point → s.pow.atFloor = false →
      Answers (.powerCapDecision t mw) s fun u => u.pow.atFloor = true ∧ u.point = s.point ∧ u.pow.mv = s.pow.mv)) ∧
  ∀ (s : State) (t mw : Nat), s.pow.switched = false → s.waiters wCap = [] → mw ≤ 1000 * s.get F.PWR_CAP.CAP_W →
    s.get F.PWR_DVFS.TARGET < s.point → s.pow.raiseAt = none → s.heldDown = false → (s.at t).spaced = true →
    100 * mw * opWatts (s.point - 1) < 95 * (1000 * s.get F.PWR_CAP.CAP_W) * opWatts s.point →
    Answers (.powerCapDecision t mw) s fun u => u.get F.PWR_DVFS.STATE = 1 ∧ u.pow.goal = s.point - 1 ∧
      u.pow.mv = opMv (s.point - 1) ∧ u.point = s.point ∧ u.pow.atFloor = false

/-- A sample keeps the hottest sensor; from THROTTLE on it throttles, from EMERGENCY on it drops to point 3, at TRIP it is
FATAL.  A due throttle step goes one point lower while the sensor is hot, and ends throttling once it is cool and the target is reached.  The
thermal emergency ends 10 ms after the sensor is cool, into throttling; the power emergency 10 ms after its last condition.  A lost PLL
or a lost rail in RUN is FATAL with its cause; a lost DRAM rail in STOP makes retention invalid. -/
def Obligations.ThermalAndLosses : Prop :=
  (∀ (s : State) (t : Nat) (temps : List Int), temps.length ≤ 64 →
    let r := hottest temps 0
    let hot : Int := if (s.calItem 0x0020).isNone then r.1 + 7 else r.1
    (hot < s.limits.1 → s.flag F.PWR_EMERG.THERMAL = false → Answers (.thermalSample t temps) s fun u => u.pow.hot = hot ∧
      (temps ≠ [] → u.get F.PWR_TEMP.SENSOR = r.2) ∧ u.get F.PWR_EMERG.THROTTLING = s.get F.PWR_EMERG.THROTTLING ∧
      u.point = s.point ∧ u.pow.mv = s.pow.mv) ∧
    (s.limits.1 ≤ hot → hot < s.limits.2.2 → Answers (.thermalSample t temps) s fun u =>
      u.get F.PWR_EMERG.THROTTLING = 1 ∧ u.pow.hot = hot) ∧
    (s.limits.2.1 ≤ hot → hot < s.limits.2.2 → s.flag F.PWR_EMERG.THERMAL = false → Answers (.thermalSample t temps) s fun u =>
      u.get F.PWR_EMERG.THERMAL = 1 ∧ u.point = 3 ∧ u.pow.therm = true) ∧
    (s.limits.2.2 ≤ hot → s.dead = false → Answers (.thermalSample t temps) s fun u => u.get F.RAS_PEND.FATAL = 1 ∧
      u.get F.PWR_STOP.LAST_CAUSE = 2 ∧ u.pow.cmpStopped = true ∧ u.pow.therm = true)) ∧
  (∀ (s : State) (d : Nat), s.pow.stepAt = some d → s.get F.PWR_EMERG.POWER = 0 → s.get F.PWR_EMERG.THERMAL = 0 →
    (s.limits.1 - 3 ≤ s.pow.hot → s.point < 3 → Answers .throttleStep s fun u => u.time = max s.time d ∧ u.point = s.point + 1 ∧
      u.pow.stepAt = some (d + 250000) ∧ u.reg R.PWR_CNT_THROTTLE = s.reg R.PWR_CNT_THROTTLE + 1) ∧
    (s.pow.hot < s.limits.1 - 3 → s.get F.PWR_DVFS.TARGET < s.point → s.pow.raiseAt = none → Answers .throttleStep s fun u =>
      u.get F.PWR_DVFS.STATE = 1 ∧ u.pow.goal = s.point - 1 ∧ u.pow.stepAt = some (d + 250000)) ∧
    (s.pow.hot < s.limits.1 - 3 → s.point ≤ s.get F.PWR_DVFS.TARGET → Answers .throttleStep s fun u =>
      u.get F.PWR_EMERG.THROTTLING = 0 ∧ u.pow.stepAt = none ∧ u.point = s.point)) ∧
  (∀ (s : State) (t c : Nat), s.pow.coolAt = some c → s.flag F.PWR_EMERG.THERMAL = true →
    (c + 10000000 ≤ max s.time t → Answers (.thermalEmergencyEnd t) s fun u => u.get F.PWR_EMERG.THERMAL = 0 ∧
      u.get F.PWR_EMERG.THROTTLING = 1 ∧ u.pow.therm = false ∧ u.pow.coolAt = none) ∧
    (max s.time t < c + 10000000 → Answers (.thermalEmergencyEnd t) s fun u => u = s.at t)) ∧
  (∀ (s : State) (t : Nat), Answers (.powerEmergency t) s fun u => u.get F.PWR_EMERG.POWER = 1 ∧ u.point = 3 ∧
    u.pow.warnEnd = some (max s.time t + 10000000)) ∧
  (∀ (s : State) (t e : Nat), s.pow.warnEnd = some e →
    (e ≤ max s.time t → Answers (.powerEmergencyEnd t) s fun u => u.get F.PWR_EMERG.POWER = 0 ∧ u.pow.warnEnd = none ∧
      u.get F.PWR_EMERG.THERMAL = s.get F.PWR_EMERG.THERMAL ∧ u.get F.PWR_EMERG.THROTTLING = s.get F.PWR_EMERG.THROTTLING) ∧
    (max s.time t < e → Answers (.powerEmergencyEnd t) s fun u => u = s.at t)) ∧
  (∀ (s : State) (t : Nat), s.running = true → Answers (.pllLockLoss t) s fun u => u.get F.CLK_STAT.ROOT_LOCK = 0 ∧
    u.get F.PWR_STOP.LAST_CAUSE = 1 ∧ u.pow.stopped = true ∧ u.get F.RAS_PEND.FATAL = 1) ∧
  (∀ (s : State) (t rail : Nat), rail < 8 →
    (s.running = true → (s.get F.PWR_RAIL.EN).testBit rail = true → Answers (.pgoodLoss t rail) s fun u =>
      (u.get F.PWR_RAIL.PGOOD).testBit rail = false ∧ u.get F.PWR_STOP.LAST_CAUSE = 3 ∧ u.get F.RAS_PEND.FATAL = 1) ∧
    (s.get F.PWR_STOP.STATE = 2 → rail = 1 ∨ rail = 2 → Answers (.pgoodLoss t rail) s fun u =>
      (u.get F.PWR_RAIL.PGOOD).testBit rail = false ∧ u.get F.PWR_RET_STAT.VALID = 0)) ∧
  ∀ (s : State) (t rail : Nat), rail < 8 → Answers (.pgoodReturn t rail) s fun u =>
    u.get F.PWR_RAIL.PGOOD = s.get F.PWR_RAIL.PGOOD ||| 2 ^ rail ∧ (∀ a, a ≠ R.PWR_RAIL → u.reg a = s.reg a)

/-! ### Stop and start -/

/-- A match during the entry abandons it at the next abort point: RUN goes on and ABORT names the point.  In STOP it begins a
wake: with retention as it was left, the state becomes WAKING at point 3.  A read of the status page is served in every state and
wakes nothing.  An aborted wake shows its cause and waits 10 ms for its repeat, or locks out when its attempts are
spent.  A domain that is ready is no longer isolated; with the last one firmware is ready and RUN goes on. -/
def Obligations.StopAndWake : Prop :=
  (∀ (s : State) (t addr : Nat) (x : BusXfer) (b : Boot) (ok : Bool), s.busAddr = some addr →
    (x.read = true → x.pointer = 0xF0 → Answers (.addressMatch t addr x b ok) s fun u => u = s.emit (.bus s.statusPage)) ∧
    (¬ (x.read = true ∧ x.pointer = 0xF0) → s.get F.PWR_STOP.STATE = 1 →
      (s.get F.PWR_STOP.STEP ≤ 2 → Answers (.addressMatch t addr x b ok) s fun u => u.get F.PWR_STOP.STATE = 0 ∧
        u.get F.PWR_STOP.ABORT = 1 ∧ u.aon.enables = [] ∧ u.time = max s.time t) ∧
      (3 ≤ s.get F.PWR_STOP.STEP → s.get F.PWR_STOP.STEP ≤ 4 → b.fail = none →
        Answers (.addressMatch t addr x b ok) s fun u => u.get F.PWR_STOP.STATE = 0 ∧ u.get F.PWR_STOP.ABORT = 2 ∧ u.aon.enables = []) ∧
      (5 ≤ s.get F.PWR_STOP.STEP → s.get F.PWR_STOP.STEP ≤ 6 → b.fail = none →
        Answers (.addressMatch t addr x b ok) s fun u => u.get F.PWR_STOP.STATE = 0 ∧ u.get F.PWR_STOP.ABORT = 3 ∧ u.aon.enables = [])) ∧
    (¬ (x.read = true ∧ x.pointer = 0xF0) → s.get F.PWR_STOP.STATE = 2 → s.flag F.PWR_WAKE_STAT.LOCKOUT = false →
      s.aon.waking = false → s.aon.retryAt = none →
      (b.fail = none → s.get F.PWR_RET_STAT.VALID = 0xFF → b.badBanks = 0 → Answers (.addressMatch t addr x b ok) s fun u =>
        u.get F.PWR_STOP.STATE = 3 ∧ u.aon.waking = true ∧ u.get F.PWR_WAKE_STAT.ATTEMPTS = 1 ∧ u.point = 3 ∧
        u.get F.PWR_DOM.READY = 0x41 ∧ u.get F.PWR_DOM.ISO = 0x3E) ∧
      (b.fail ≠ none → Answers (.addressMatch t addr x b ok) s fun u => u.get F.PWR_STOP.STATE = 2 ∧ u.aon.waking = true ∧
        u.get F.PWR_WAKE_STAT.ATTEMPTS = 1))) ∧
  (∀ (s : State) (t cause index : Nat), s.aon.waking = true → cause < 4 → index < 256 →
    let spent := s.get F.PWR_WAKE_CFG.WAKE_RETRY + 1 ≤ s.aon.attempts
    Answers (.wakeAbort t cause index) s fun u => u.get F.PWR_STOP.STATE = 2 ∧ u.aon.waking = false ∧
      u.get F.PWR_WAKE_STAT.CAUSE = cause ∧ u.get F.PWR_WAKE_STAT.INDEX = index ∧
      u.reg R.PWR_CNT_WAKE_FAIL = s.reg R.PWR_CNT_WAKE_FAIL + 1 ∧
      (spent → u.get F.PWR_WAKE_STAT.LOCKOUT = 1 ∧ u.aon.retryAt = none) ∧
      (¬ spent → u.aon.retryAt = some (max s.time t + 10000000) ∧ u.get F.PWR_WAKE_STAT.LOCKOUT = s.get F.PWR_WAKE_STAT.LOCKOUT)) ∧
  (∀ (s : State) (t r : Nat) (b : Boot) (ok : Bool), s.aon.retryAt = some r →
    (max s.time t < r → Answers (.wakeRetry t b ok) s fun u => u = s) ∧
    (r ≤ max s.time t → b.fail = none → s.get F.PWR_RET_STAT.VALID = 0xFF → b.badBanks = 0 →
      Answers (.wakeRetry t b ok) s fun u => u.get F.PWR_STOP.STATE = 3 ∧ u.aon.attempts = s.aon.attempts + 1 ∧
        u.aon.retryAt = none ∧ u.point = 3)) ∧
  ∀ (s : State) (t dom : Nat), 1 ≤ dom → dom ≤ 5 → s.get F.PWR_STOP.STATE = 3 → (s.get F.PWR_DOM.READY).testBit dom = false →
    (∀ x ∈ s.mbx.stalled, x.domain ≠ dom) → let ready := s.get F.PWR_DOM.READY ||| 2 ^ dom
    (ready ≠ 0x7F → Answers (.domainReady t dom) s fun u => u.get F.PWR_DOM.READY = ready ∧
      (u.get F.PWR_DOM.ISO).testBit dom = false ∧ u.mbx.wakeReq.testBit dom = false ∧ u.get F.PWR_STOP.STATE = 3) ∧
    (ready = 0x7F → Answers (.domainReady t dom) s fun u => u.get F.PWR_STOP.STATE = 0 ∧ u.get F.HIF_STAT.FW_READY = 1 ∧
      u.get F.SYS_STAT.FW_READY = 1 ∧ u.aon.waking = false)

/-- A cold start that nothing hinders waits for its address with every rail on, START_SRC saying why it began; one that fails
keeps its failing step and cause, and waits for its repeat 100 ms later, or is failsafe at the third failure.  One that is not ready after 3 s
fails at step 15.  A PERST_N without PERST_MODE in RUN is a warm reset: firmware is ready again and WARM_COUNT is one
higher.  Without VDD_AON only fuses and flash are left. -/
def Obligations.ColdAndWarmStarts : Prop :=
  (∀ (s : State) (t : Nat) (b : Boot), b.lostPcs = [] →
    let waits := fun (src : Nat) (u : State) => u.aon.phase = .starting ∧ u.get F.SYS_STAT.START_SRC = src ∧
      u.get F.PWR_RAIL.EN = 0xFF ∧ u.get F.HIF_STAT.FW_READY = 0 ∧ u.hif.rings = [] ∧ u.mem = []
    let failed := fun (n : Nat) (f : StartFail) (u : State) => u.aon.fails = n ∧ u.aon.failStep = f.step ∧
      u.aon.failCause = f.cause ∧ u.aon.failDetail = f.detail ∧ u.aon.phase = (if n = 3 then .failsafe else .retry) ∧
      u.get F.PWR_RAIL.EN = 1
    (b.fail = none → Answers (.powerOn t b) s (waits 0)) ∧
    (∀ f, b.fail = some f → Answers (.powerOn t b) s (failed 1 f)) ∧
    (s.aon.phase ≠ .off → b.fail = none → Answers (.rstN t b) s (waits 1)) ∧
    (s.aon.phase ≠ .off → ∀ f, b.fail = some f → Answers (.rstN t b) s (failed 1 f)) ∧
    (s.aon.phase = .up → s.flag F.SYS_STAT.PERST_MODE = true → b.fail = none → Answers (.perstN t b) s (waits 2)) ∧
    (s.aon.phase = .retry → s.aon.startAt + 100000000 ≤ max s.time t →
      (b.fail = none → Answers (.coldStartRetry t b) s (waits (s.get F.SYS_STAT.START_SRC))) ∧
      ∀ f, b.fail = some f → Answers (.coldStartRetry t b) s (failed (min 3 (s.aon.fails + 1)) f)) ∧
    (s.aon.phase = .retry → max s.time t < s.aon.startAt + 100000000 → Answers (.coldStartRetry t b) s fun u => u = s.at t)) ∧
  (∀ (s : State) (t : Nat), s.aon.phase = .starting →
    (s.aon.startAt + 3000000000 ≤ max s.time t → Answers (.readyTimeout t) s fun u => u.aon.failStep = 15 ∧
      u.aon.failCause = 9 ∧ u.aon.fails = min 3 (s.aon.fails + 1) ∧ u.get F.PWR_RAIL.EN = 1) ∧
    (max s.time t < s.aon.startAt + 3000000000 → Answers (.readyTimeout t) s fun u => u = s.at t)) ∧
  (∀ (s : State) (t : Nat) (b : Boot), s.aon.phase = .up → s.flag F.SYS_STAT.PERST_MODE = false → s.get F.PWR_STOP.STATE = 0 →
    s.aon.enables = [] → s.warmFailure b = none → b.host = [] →
    Answers (.perstN t b) s fun u => u.get F.HIF_STAT.WARM_COUNT = (s.get F.HIF_STAT.WARM_COUNT + 1) % 65536 ∧
      u.get F.HIF_STAT.FW_READY = 1 ∧ u.aon.phase = .up) ∧
  ∀ (s : State) (t : Nat), Answers (.vddAonLoss t) s fun u => u.aon = Aon.reset ∧ u.mem = [] ∧ u.hif = Hif.reset ∧
    u.cal = s.cal ∧ u.sec.fuses = s.sec.fuses ∧ u.sec.keys = s.sec.keys ∧ u.sec.sessions = []

/-- An unaddressed device drives its serial unless another drives a lower one, and then ignores the next SETPOS.  A SETPOS
with its own serial gives it its position and number, and ends a start.  A command on the bus with a new sequence number is in progress.
Bus sessions end 10 s after their last transfer.  The nonce is shifted out; a bad token counts, draws a new nonce and blocks at the third; a
good one adds its rights. -/
def Obligations.BusAndDebug : Prop :=
  (∀ (s : State) (t : Nat) (level : Bool), Answers (.enumInChange t level) s fun u =>
    u = { s.at t with aon := { s.aon with enumIn := level } }) ∧
  (∀ (s : State) (t addr : Nat) (others : List Nat), s.busAddr = some addr →
    (s.addressed = true → Answers (.arbitrationRead t addr others) s fun u =>
      u = (s.at t).emit (.bus (List.replicate 8 0xFF#8))) ∧
    (s.addressed = false → (∃ x ∈ others, x < s.get F.SEC_SERIAL.SERIAL) →
      Answers (.arbitrationRead t addr others) s fun u => u = { s.at t with aon := { s.aon with lostArb := true } }) ∧
    (s.addressed = false → (∀ x ∈ others, s.get F.SEC_SERIAL.SERIAL ≤ x) →
      Answers (.arbitrationRead t addr others) s fun u => u = (s.at t).emit (.bus s.serialBytes))) ∧
  (∀ (s : State) (t : Nat) (bs : List Byte), s.busAddr = some 0x3A → s.addressed = false →
    let p := fieldAt bs 0 1
    (s.aon.lostArb = true → Answers (.setpos t bs) s fun u => u = { s.at t with aon := { s.aon with lostArb := false } }) ∧
    (s.aon.lostArb = false → bs.length = 10 → p ≤ 63 → fieldAt bs 1 1 = 255 - p →
      beNat (sliceAt bs 2 8) = s.get F.SEC_SERIAL.SERIAL →
      Answers (.setpos t bs) s fun u => u.get F.SYS_STAT.POSITION = p ∧ u.get F.SYS_STAT.ADDRESSED = 1 ∧
        u.devNum = 64 * s.get F.SYS_STAT.CHAIN_ID + p ∧ u.aon.enumOut = true ∧ u.busAddr = some (addrOf p) ∧
        (s.aon.phase = .starting → u.aon.phase = .up ∧ u.get F.SYS_STAT.FW_READY = 1 ∧ u.get F.HIF_STAT.FW_READY = 1))) ∧
  (∀ (s : State) (t : Nat) (desc data : List Byte), s.fwReady = true → s.get F.PWR_STOP.STATE = 0 → s.aid.bus.busy = false →
    let d := (desc ++ zeros 64).take 64
    let dist := idxSub (fieldAt d 8 4) (tabGet 0 s.aid.smax 0x2001)
    1 ≤ dist → dist < 2 ^ 31 → Answers (.mbCommand t desc data) s fun u =>
      u.aid.ctxs = s.aid.ctxs ++ [⟨0x2001, fieldAt d 8 4, d, 0, 0, 0, 0, [], []⟩] ∧ u.aid.bus.busy = true ∧ u.aid.bus.desc = d ∧
      (s.workCore (fieldAt d 0 1) 0x2001 = s.ringCore 0x2001 → u.regs = s.regs ∧ u.out = s.out)) ∧
  (∀ (s : State) (x : Session), x ∈ s.sec.sessions → x.fn = 64 → (∀ y ∈ s.sec.sessions, y.fn = 64 → x.lastUse ≤ y.lastUse) →
    Answers .busSessionTimeout s fun u => u.time = max s.time (x.lastUse + 10000000000) ∧
      u.sec.sessions = s.sec.sessions.filter (fun y => !(y.fn = 64 && y.lastUse ≤ x.lastUse))) ∧
  (∀ (s : State) (t : Nat), s.aon.phase ≠ .off → s.get F.SEC_FUSE.DEBUG_STATE ≤ 1 → Answers (.dbgNonce t) s fun u =>
    u = (s.at t).emit (.jtag (leNat s.sec.nonce))) ∧
  ∀ (s : State) (t : Nat) (d : List Byte), s.tokensWork = true →
    let rights := fieldAt d 4 2
    let good := fieldAt d 0 4 = 0xDB610001 ∧ fieldAt d 6 2 = 0 ∧ rights < 16 ∧ fieldAt d 8 8 = s.get F.SEC_SERIAL.SERIAL ∧
      sliceAt d 16 16 = s.sec.nonce ∧
      s.signedBy (d.take 32) (sliceAt d 32 384) (sliceAt d 416 384) (sliceAt d 800 384) (sliceAt d 1184 384) true = true
    let n := min 3 (s.get F.SEC_DBG.FAILS + 1)
    (¬ good → Answers (.dbgToken t d) s fun u => u.get F.SEC_ERR.TOKEN_BAD = 1 ∧ u.get F.SEC_DBG.FAILS = n ∧
      u.get F.SEC_DBG.BLOCKED = (if n = 3 then 1 else 0) ∧ u.get F.SEC_DBG.RIGHTS = s.get F.SEC_DBG.RIGHTS ∧
      u.fresh = s.fresh + 16 ∧ u.sec.sessions = s.sec.sessions) ∧
    (good → Answers (.dbgToken t d) s fun u => u.get F.SEC_DBG.UNLOCKED = 1 ∧
      u.get F.SEC_DBG.RIGHTS = s.get F.SEC_DBG.RIGHTS ||| rights ∧ u.fresh = s.fresh + 16 ∧ u.sec.debugged = true ∧
      (4 ≤ rights → u.sec.zeroised = true ∧ u.sec.sessions = [] ∧ u.get F.SEC_DBG.ZEROISED = 1))

/-! ### Register accesses -/

/-- A register access that is turned away: its error and what SYS_ERR_INFO says of it, every other register, shadow copy,
claim and byte of memory as before. -/
def Sys2Proof.Refused (s u : State) (f : Fld) (req off : Nat) : Prop :=
  u.get f = 1 ∧ u.get F.SYS_ERR_INFO.REQUESTER = req % 256 ∧ u.get F.SYS_ERR_INFO.CAUSE = f.lo ∧
    u.get F.SYS_ERR_INFO.OFFSET = off % 2 ^ 24 ∧ (∀ a, a ≠ R.SYS_ERR → a ≠ R.SYS_ERR_INFO → u.reg a = s.reg a) ∧
    u.shadow = s.shadow ∧ u.groups = s.groups ∧ u.mem = s.mem

/-- A write of another size or alignment is refused with BAD_ACCESS, one to an offset without a register with UNMAPPED, one
to a group that another requester holds with GROUP_HELD.  A write that lands in a free or own group claims it and changes the shadow alone; one of
which no field lands claims nothing.  A write to SYS_SCRATCHk changes that register alone; one to SYS_ERR clears the bits written 1.
SETUP_LOCK stays once set, and keeps AUTO_LOCK.  A discard by the holder or a control core, and 10 ms after the
holder's last write, end a claim and drop its shadow. -/
def Obligations.RegisterWrites : Prop :=
  (∀ (s : State) (t fn req off size val : Nat), accessOk off size = false → (fn = 0 → s.reaches req off = true) →
    Answers (.registerWrite t fn req off size val) s fun u => Refused s u F.SYS_ERR.BAD_ACCESS req off) ∧
  (∀ (s : State) (t req off size val : Nat), accessOk off size = true → s.reaches req off = true → s.regHere (off / 8 * 8) = none →
    s.regHere (off / 8 * 8 + 4) = none →
    Answers (.registerWrite t 0 req off size val) s fun u => Refused s u F.SYS_ERR.UNMAPPED req off) ∧
  (∀ (s : State) (t fn req off size val : Nat), accessOk off size = true → fn ≠ 0 → 0x110 ≤ off → off < 0x140 ∨ 0x158 ≤ off →
    Answers (.registerWrite t fn req off size val) s fun u => Refused s u F.SYS_ERR.UNMAPPED req off) ∧
  (∀ (s : State) (t req off val : Nat) (r : RegSpec) (is : List Nat) (g : Nat × List Nat), off % 8 = 0 →
    s.reaches req off = true → s.regHere off = some (r, is) → s.regHere (off + 4) = none → membersAt off = [] → r.group = some g →
    let c := g.1 + dotStride g.2 is
    let m := maskOf (8 * r.size - 1) 0
    (s.landing req off r.fields &&& m ≠ 0 → (s.group c).holder ≠ 0 → (s.group c).holder ≠ req →
      Answers (.registerWrite t 0 req off 8 val) s fun u => Refused s u F.SYS_ERR.GROUP_HELD req off) ∧
    (s.landing req off r.fields &&& m ≠ 0 → (s.group c).holder = 0 ∨ (s.group c).holder = req →
      Answers (.registerWrite t 0 req off 8 val) s fun u =>
        u.group c = ⟨req, max s.time t, (s.group c).pending, (s.group c).since⟩ ∧
        u.shadowReg off = s.writeBits req off r.fields (s.shadowReg off) (BitVec.ofNat 64 val) m ∧
        (∀ a, a ≠ off → tabFind u.shadow a = tabFind s.shadow a) ∧
        (∀ a, a ≠ R.SYS_ERR → a ≠ R.SYS_ERR_INFO → u.reg a = s.reg a) ∧ u.mem = s.mem) ∧
    (s.landing req off r.fields &&& m = 0 →
      Answers (.registerWrite t 0 req off 8 val) s fun u => u.shadow = s.shadow ∧ u.groups = s.groups ∧ u.mem = s.mem ∧
        (∀ a, a ≠ R.SYS_ERR → a ≠ R.SYS_ERR_INFO → u.reg a = s.reg a))) ∧
  (∀ (s : State) (t req k val : Nat), k < 8 → s.reaches req (R.SYS_SCRATCHk k) = true →
    Answers (.registerWrite t 0 req (R.SYS_SCRATCHk k) 8 val) s fun u => u.reg (R.SYS_SCRATCHk k) = BitVec.ofNat 64 val ∧
      (∀ a, a ≠ R.SYS_SCRATCHk k → u.reg a = s.reg a) ∧ u.groups = s.groups ∧ u.mem = s.mem) ∧
  (∀ (s : State) (t req val : Nat), s.reaches req R.SYS_ERR = true →
    Answers (.registerWrite t 0 req R.SYS_ERR 8 val) s fun u =>
      u.reg R.SYS_ERR = s.reg R.SYS_ERR &&& ~~~(BitVec.ofNat 64 (val % 32)) ∧ (∀ a, a ≠ R.SYS_ERR → u.reg a = s.reg a)) ∧
  (∀ (s : State) (t req val : Nat), s.reaches req R.SYS_CTL = true →
    Answers (.setupLock t req val) s fun u =>
      u.get F.SYS_CTL.SETUP_LOCK = (if s.flag F.SYS_CTL.SETUP_LOCK ∨ val % 2 = 1 then 1 else 0) ∧
      u.get F.SYS_CTL.AUTO_LOCK = (if s.flag F.SYS_CTL.SETUP_LOCK then s.get F.SYS_CTL.AUTO_LOCK else val / 2 % 2) ∧
      (∀ a, a ≠ R.SYS_CTL → u.reg a = s.reg a) ∧ u.groups = s.groups ∧ u.shadow = s.shadow ∧ u.out = s.out ∧ u.mem = s.mem) ∧
  (∀ (s : State) (t req val : Nat), let c := val % 2 ^ 24
    s.reaches req R.SYS_SHADOW_DISCARD = true →
    ((s.group c).holder ≠ 0 → (s.group c).holder = req ∨ isControlCore req = true →
      Answers (.sysShadowDiscard t req val) s fun u => u.group c = { s.group c with holder := 0 } ∧
        (∀ a ∈ membersAt c, u.shadowReg a = s.reg a) ∧ (∀ a, a ∉ membersAt c → tabFind u.shadow a = tabFind s.shadow a) ∧
        u.regs = s.regs ∧ (∀ d, d ≠ c → u.group d = s.group d)) ∧
    ((s.group c).holder ≠ req → isControlCore req = false → Answers (.sysShadowDiscard t req val) s fun u => u = s.at t)) ∧
  ∀ (s : State) (c : Nat), (s.group c).holder ≠ 0 →
    Answers (.claimLapsed c) s fun u => u.time = max s.time ((s.group c).lastWrite + 10000000) ∧
      u.group c = { s.group c with holder := 0 } ∧ u.get F.SYS_ERR.CLAIM_LAPSED = 1 ∧
      u.get F.SYS_ERR_INFO.REQUESTER = (s.group c).holder % 256 ∧ u.get F.SYS_ERR_INFO.OFFSET = c % 2 ^ 24 ∧
      u.get F.SYS_ERR_INFO.SIZE = 0 ∧ (∀ a ∈ membersAt c, tabFind u.shadow a = none) ∧
      (∀ a, a ≠ R.SYS_ERR → a ≠ R.SYS_ERR_INFO → u.reg a = s.reg a)
end
end

