-- ==== Sys2Proof/Laws/Tables.lean ====
section
/-!
SUPPORT. Laws of sparse tables: what an insertion, an erasure and a default-aware write do to a lookup, and that all keep
the keys rising.
-/

namespace Sys2Proof

variable {α : Type}

/-! ### Lookups -/

theorem tabFind_insert (t : Tab α) (i j : Nat) (v : α) : tabFind (tabInsert t i v) j = if i = j then some v else tabFind t j := by
  induction t with
  | nil => simp [tabInsert, tabFind]
  | cons p r ih =>
    obtain ⟨k, w⟩ := p
    simp only [tabInsert]
    split
    · simp [tabFind]
    · split
      · subst_vars; simp only [tabFind]; split <;> simp_all
      · simp only [tabFind, ih]
        by_cases h : k = j
        · simp [h]; intro hij; omega
        · simp [h]

@[simp] theorem tabFind_insert_self (t : Tab α) (i : Nat) (v : α) : tabFind (tabInsert t i v) i = some v := by
  simp [tabFind_insert]

theorem tabFind_insert_ne (t : Tab α) {i j : Nat} (v : α) (h : i ≠ j) : tabFind (tabInsert t i v) j = tabFind t j := by
  simp [tabFind_insert, h]

theorem tabFind_erase (t : Tab α) (i j : Nat) : tabFind (tabErase t i) j = if i = j then none else tabFind t j := by
  induction t with
  | nil => simp [tabErase, tabFind]
  | cons p r ih =>
    obtain ⟨k, w⟩ := p
    by_cases h : k = i
    · subst h
      simp only [tabErase, if_true, ih, tabFind]
      by_cases hj : k = j <;> simp [hj]
    · simp only [tabErase, if_neg h, tabFind, ih]
      by_cases hk : k = j
      · subst hk; simp [Ne.symm h]
      · simp [hk]

theorem tabGet_set [DecidableEq α] (d : α) (t : Tab α) (i j : Nat) (v : α) :
    tabGet d (tabSet d t i v) j = if i = j then v else tabGet d t j := by
  unfold tabGet tabSet
  split
  · rw [tabFind_erase]; by_cases h : i = j <;> simp_all
  · rw [tabFind_insert]; by_cases h : i = j <;> simp [h]

/-! ### Rising keys -/

theorem tabRising_iff (b : Nat) (t : Tab α) :
    tabRising b t = true ↔ (∀ p ∈ t, b < p.1) ∧ t.Pairwise (fun p q => p.1 < q.1) := by
  induction t generalizing b with
  | nil => simp [tabRising]
  | cons p r ih =>
    obtain ⟨k, w⟩ := p
    simp only [tabRising, Bool.and_eq_true, decide_eq_true_eq, ih, List.mem_cons, List.pairwise_cons, forall_eq_or_imp]
    constructor
    · rintro ⟨h, hr, hp⟩
      exact ⟨⟨h, fun p hm => Nat.lt_trans h (hr p hm)⟩, hr, hp⟩
    · rintro ⟨⟨h, _⟩, hr, hp⟩
      exact ⟨h, hr, hp⟩

/-- The keys of a table rise: as a relation between its entries. -/
theorem tabSorted_iff (t : Tab α) : tabSorted t = true ↔ t.Pairwise (fun p q => p.1 < q.1) := by
  cases t with
  | nil => simp [tabSorted]
  | cons p r =>
    obtain ⟨k, w⟩ := p
    simp only [tabSorted, tabRising_iff, List.pairwise_cons]

theorem mem_tabInsert {t : Tab α} {i : Nat} {v : α} {p : Nat × α} (h : p ∈ tabInsert t i v) : p = (i, v) ∨ p ∈ t := by
  induction t with
  | nil => simpa [tabInsert] using h
  | cons q r ih =>
    obtain ⟨k, w⟩ := q
    simp only [tabInsert] at h
    split at h
    · simpa using h
    · split at h
      · rcases List.mem_cons.1 h with h | h
        · exact .inl h
        · exact .inr (List.mem_cons_of_mem _ h)
      · rcases List.mem_cons.1 h with h | h
        · exact .inr (h ▸ List.mem_cons_self)
        · exact (ih h).imp id (List.mem_cons_of_mem _)

theorem tabSorted_insert {t : Tab α} (h : tabSorted t = true) (i : Nat) (v : α) : tabSorted (tabInsert t i v) = true := by
  rw [tabSorted_iff] at h ⊢
  induction t with
  | nil => simp [tabInsert]
  | cons q r ih =>
    obtain ⟨k, w⟩ := q
    rw [List.pairwise_cons] at h
    simp only [tabInsert]
    split
    · rename_i hk
      rw [List.pairwise_cons, List.pairwise_cons]
      refine ⟨fun p hp => ?_, h⟩
      rcases List.mem_cons.1 hp with hp | hp
      · subst hp; exact hk
      · exact Nat.lt_trans hk (h.1 p hp)
    · split
      · subst_vars; exact List.pairwise_cons.2 h
      · rw [List.pairwise_cons]
        refine ⟨fun p hp => ?_, ih h.2⟩
        rcases mem_tabInsert hp with hp | hp
        · subst hp; show k < i; omega
        · exact h.1 p hp

theorem tabSorted_filter {t : Tab α} (h : tabSorted t = true) (f : Nat × α → Bool) : tabSorted (t.filter f) = true := by
  rw [tabSorted_iff] at h ⊢
  exact h.filter f

theorem tabErase_eq_filter (t : Tab α) (i : Nat) : tabErase t i = t.filter (fun p => p.1 ≠ i) := by
  induction t with
  | nil => rfl
  | cons p r ih =>
    obtain ⟨k, w⟩ := p
    by_cases h : k = i <;> simp [tabErase, h, ih]

theorem tabSorted_erase {t : Tab α} (h : tabSorted t = true) (i : Nat) : tabSorted (tabErase t i) = true := by
  rw [tabErase_eq_filter]; exact tabSorted_filter h _

theorem tabSorted_map {β : Type} {t : Tab α} (h : tabSorted t = true) {f : Nat × α → Nat × β} (hf : ∀ p, (f p).1 = p.1) :
    tabSorted (t.map f) = true := by
  rw [tabSorted_iff] at h ⊢
  exact List.Pairwise.map f (fun a b hab => by rw [hf, hf]; exact hab) h

end Sys2Proof
end

