-- ==== Sys2Proof/Laws/Memory.lean ====
section
/-!
SUPPORT. Laws of the bonded memory: a byte read after a write, and that every operation over memory keeps the canonical
form (`Memory.wf`).
-/

namespace Sys2Proof.Machine

/-! ### Read after write -/

theorem memByte_eq (m : List Host.Cell) (a : Nat) : memByte m a = tabGet 0 m a := by
  induction m with
  | nil => rfl
  | cons p r ih =>
    obtain ⟨k, w⟩ := p
    simp only [memByte, tabGet, tabFind] at ih ⊢
    split
    · rfl
    · exact ih

/-- A byte written is the byte read, and every other byte reads as before. -/
theorem memByte_put (m : List Host.Cell) (a b : Nat) (v : Byte) :
    memByte (memPut m a v) b = if a = b then v else memByte m b := by
  simp only [memByte_eq, memPut, tabGet_set]

/-- Bytes written at rising addresses: each is read back, and every byte outside reads as before. -/
theorem memByte_putAll (m : List Host.Cell) (a b : Nat) (vs : List Byte) :
    memByte (memPutAll m a vs) b = if a ≤ b ∧ b < a + vs.length then vs.getD (b - a) 0 else memByte m b := by
  induction vs generalizing m a with
  | nil =>
    have h : ¬(a ≤ b ∧ b < a + ([] : List Byte).length) := by simp only [List.length_nil]; omega
    rw [if_neg h, memPutAll]
  | cons v r ih =>
    rw [memPutAll, ih, memByte_put]
    by_cases h : a = b
    · subst h
      have h2 : ¬(a + 1 ≤ a ∧ a < a + 1 + r.length) := by omega
      have h3 : a ≤ a ∧ a < a + (v :: r).length := by simp only [List.length_cons]; omega
      rw [if_neg h2, if_pos h3, if_pos rfl]; simp
    · by_cases h2 : a + 1 ≤ b ∧ b < a + 1 + r.length
      · have e : b - a = (b - (a + 1)) + 1 := by omega
        have h3 : a ≤ b ∧ b < a + (v :: r).length := by simp only [List.length_cons]; omega
        rw [if_pos h2, if_pos h3, e]; simp
      · have h3 : ¬(a ≤ b ∧ b < a + (v :: r).length) := by simp only [List.length_cons]; omega
        rw [if_neg h2, if_neg h3, if_neg h]

/-! ### Canonical form -/

theorem Memory.wf_iff (m : List Host.Cell) : Memory.wf m = true ↔ tabSorted m = true ∧ ∀ c ∈ m, c.2 ≠ 0 := by
  simp only [Memory.wf, Bool.and_eq_true, List.all_eq_true, decide_eq_true_eq]

theorem Memory.wf_filter {m : List Host.Cell} (h : Memory.wf m = true) (f : Host.Cell → Bool) : Memory.wf (m.filter f) = true := by
  rw [Memory.wf_iff] at h ⊢
  exact ⟨tabSorted_filter h.1 f, fun c hc => h.2 c (List.mem_filter.1 hc).1⟩

/-- Writing one byte keeps the canonical form. -/
theorem Memory.wf_put {m : List Host.Cell} (h : Memory.wf m = true) (a : Nat) (v : Byte) : Memory.wf (memPut m a v) = true := by
  unfold memPut tabSet
  split
  · rw [tabErase_eq_filter]; exact Memory.wf_filter h _
  · rename_i hv
    rw [Memory.wf_iff] at h ⊢
    refine ⟨tabSorted_insert h.1 a v, fun c hc => ?_⟩
    rcases mem_tabInsert hc with hc | hc
    · subst hc; exact hv
    · exact h.2 c hc

/-- Writing bytes keeps the canonical form. -/
theorem Memory.wf_putAll {m : List Host.Cell} (h : Memory.wf m = true) (a : Nat) (vs : List Byte) :
    Memory.wf (memPutAll m a vs) = true := by
  induction vs generalizing m a with
  | nil => exact h
  | cons v r ih => exact ih (Memory.wf_put h a v) (a + 1)

/-- The memory after reset is in canonical form. -/
theorem Memory.wf_reset : Memory.wf State.reset.mem = true := rfl

end Sys2Proof.Machine
end

