-- ==== Sys2Proof/Laws/Keeps.lean ====
section
/-!
SUPPORT. The rules by which an operation is shown to keep what no command changes and to change only some parts of the
state (`Keeps`, Safety): reflexivity, composition, conditionals, folds, and updates of fields.
-/

namespace Sys2Proof.Machine

/-! ### Sets of parts -/

theorem sub_trans {a b c : Nat} (h : a ||| b = b) (k : b ||| c = c) : a ||| c = c := by rw [← k, ← Nat.or_assoc, h]

theorem sub_refl {a : Nat} : a ||| a = a := Nat.or_self a

/-! ### Composition -/

theorem keeps_refl {W : Nat} {s : State} : Keeps W s s :=
  ⟨rfl, List.prefix_refl _, Nat.le_refl _, id, fun p _ => by cases p <;> rfl⟩

theorem keeps_trans {W : Nat} {s t u : State} (h : Keeps W s t) (k : Keeps W t u) : Keeps W s u :=
  ⟨k.1.trans h.1, h.2.1.trans k.2.1, Nat.le_trans h.2.2.1 k.2.2.1, fun c => k.2.2.2.1 (h.2.2.2.1 c), fun p hp => by
    have h1 := h.2.2.2.2 p hp
    have h2 := k.2.2.2.2 p hp
    cases p <;> exact h2.trans h1⟩

theorem keeps_ite {W : Nat} {s a b : State} {c : Prop} [Decidable c] (ha : Keeps W s a) (hb : Keeps W s b) :
    Keeps W s (if c then a else b) := by split <;> assumption

theorem keeps_cut {W : Nat} {s t u : State} (h : Keeps W s t) (k : Keeps W s t → Keeps W s u) : Keeps W s u := k h

theorem keeps_each {α : Type} {W : Nat} {s t : State} {l : List α} {f : State → α → State} (h : Keeps W s t)
    (hf : ∀ u x, Keeps W s u → Keeps W s (f u x)) : Keeps W s (t.each l f) := by
  unfold State.each
  induction l generalizing t with
  | nil => exact h
  | cons x r ih => exact ih (hf _ _ h)

theorem keeps_foldl {α : Type} {W : Nat} {s t : State} {l : List α} {f : State → α → State} (h : Keeps W s t)
    (hf : ∀ u x, Keeps W s u → Keeps W s (f u x)) : Keeps W s (l.foldl f t) := keeps_each h hf

/-! ### Updates of fields -/

/-- An update of any fields but the queue: each is the one before or a part of the set, and the canonical form, the
outputs and the counter of free values go on. -/
theorem keeps_update {W : Nat} {s t : State} {time frac regs shadow groups mem out fresh hif ras mm hg frf fw sd img cp aid cal built mbx net bud sec adm pow
    aon} (h : Keeps W s t)
    (p_time : time = t.time ∨ parts [.time] ||| W = W)
    (p_frac : frac = t.frac ∨ parts [.frac] ||| W = W)
    (p_regs : regs = t.regs ∨ parts [.regs] ||| W = W)
    (p_shadow : shadow = t.shadow ∨ parts [.shadow] ||| W = W)
    (p_groups : groups = t.groups ∨ parts [.groups] ||| W = W)
    (p_mem : mem = t.mem ∨ parts [.mem] ||| W = W)
    (p_out : out = t.out ∨ parts [.out] ||| W = W)
    (p_fresh : fresh = t.fresh ∨ parts [.fresh] ||| W = W)
    (p_hif : hif = t.hif ∨ parts [.hif] ||| W = W)
    (p_ras : ras = t.ras ∨ parts [.ras] ||| W = W)
    (p_mm : mm = t.mm ∨ parts [.mm] ||| W = W)
    (p_hg : hg = t.hg ∨ parts [.hg] ||| W = W)
    (p_frf : frf = t.frf ∨ parts [.frf] ||| W = W)
    (p_fw : fw = t.fw ∨ parts [.fw] ||| W = W)
    (p_sd : sd = t.sd ∨ parts [.sd] ||| W = W)
    (p_img : img = t.img ∨ parts [.img] ||| W = W)
    (p_cp : cp = t.cp ∨ parts [.cp] ||| W = W)
    (p_aid : aid = t.aid ∨ parts [.aid] ||| W = W)
    (p_cal : cal = t.cal ∨ parts [.cal] ||| W = W)
    (p_built : built = t.built ∨ parts [.built] ||| W = W)
    (p_mbx : mbx = t.mbx ∨ parts [.mbx] ||| W = W)
    (p_net : net = t.net ∨ parts [.net] ||| W = W)
    (p_bud : bud = t.bud ∨ parts [.bud] ||| W = W)
    (p_sec : sec = t.sec ∨ parts [.sec] ||| W = W)
    (p_adm : adm = t.adm ∨ parts [.adm] ||| W = W)
    (p_pow : pow = t.pow ∨ parts [.pow] ||| W = W)
    (p_aon : aon = t.aon ∨ parts [.aon] ||| W = W)
    (ho : t.out <+: out) (hf : t.fresh ≤ fresh)
    (hc : Canonical t → Memory.wf mem = true ∧ tabSorted regs = true ∧ tabSorted shadow = true) :
    Keeps W s ⟨t.pending, time, frac, regs, shadow, groups, mem, out, fresh, hif, ras, mm, hg, frf, fw, sd, img, cp, aid, cal, built, mbx,
      net, bud, sec, adm, pow, aon⟩ := by
  refine keeps_trans h ⟨rfl, ho, hf, hc, fun p hp => ?_⟩
  cases p
  · exact p_time.resolve_right hp
  · exact p_frac.resolve_right hp
  · exact p_regs.resolve_right hp
  · exact p_shadow.resolve_right hp
  · exact p_groups.resolve_right hp
  · exact p_mem.resolve_right hp
  · exact p_out.resolve_right hp
  · exact p_fresh.resolve_right hp
  · exact p_hif.resolve_right hp
  · exact p_ras.resolve_right hp
  · exact p_mm.resolve_right hp
  · exact p_hg.resolve_right hp
  · exact p_frf.resolve_right hp
  · exact p_fw.resolve_right hp
  · exact p_sd.resolve_right hp
  · exact p_img.resolve_right hp
  · exact p_cp.resolve_right hp
  · exact p_aid.resolve_right hp
  · exact p_cal.resolve_right hp
  · exact p_built.resolve_right hp
  · exact p_mbx.resolve_right hp
  · exact p_net.resolve_right hp
  · exact p_bud.resolve_right hp
  · exact p_sec.resolve_right hp
  · exact p_adm.resolve_right hp
  · exact p_pow.resolve_right hp
  · exact p_aon.resolve_right hp

/-- Fields outside memory, registers, outputs and the counter of free values may change. -/
theorem keeps_mk {W : Nat} {s t : State} {time frac groups hif ras mm hg frf fw sd img cp aid cal built mbx net bud sec adm pow aon} (h : Keeps W s t)
    (p_time : time = t.time ∨ parts [.time] ||| W = W)
    (p_frac : frac = t.frac ∨ parts [.frac] ||| W = W)
    (p_groups : groups = t.groups ∨ parts [.groups] ||| W = W)
    (p_hif : hif = t.hif ∨ parts [.hif] ||| W = W)
    (p_ras : ras = t.ras ∨ parts [.ras] ||| W = W)
    (p_mm : mm = t.mm ∨ parts [.mm] ||| W = W)
    (p_hg : hg = t.hg ∨ parts [.hg] ||| W = W)
    (p_frf : frf = t.frf ∨ parts [.frf] ||| W = W)
    (p_fw : fw = t.fw ∨ parts [.fw] ||| W = W)
    (p_sd : sd = t.sd ∨ parts [.sd] ||| W = W)
    (p_img : img = t.img ∨ parts [.img] ||| W = W)
    (p_cp : cp = t.cp ∨ parts [.cp] ||| W = W)
    (p_aid : aid = t.aid ∨ parts [.aid] ||| W = W)
    (p_cal : cal = t.cal ∨ parts [.cal] ||| W = W)
    (p_built : built = t.built ∨ parts [.built] ||| W = W)
    (p_mbx : mbx = t.mbx ∨ parts [.mbx] ||| W = W)
    (p_net : net = t.net ∨ parts [.net] ||| W = W)
    (p_bud : bud = t.bud ∨ parts [.bud] ||| W = W)
    (p_sec : sec = t.sec ∨ parts [.sec] ||| W = W)
    (p_adm : adm = t.adm ∨ parts [.adm] ||| W = W)
    (p_pow : pow = t.pow ∨ parts [.pow] ||| W = W)
    (p_aon : aon = t.aon ∨ parts [.aon] ||| W = W) :
    Keeps W s ⟨t.pending, time, frac, t.regs, t.shadow, groups, t.mem, t.out, t.fresh, hif, ras, mm, hg, frf, fw, sd, img, cp, aid, cal,
      built, mbx, net, bud, sec, adm, pow, aon⟩ :=
  keeps_update h p_time p_frac (.inl rfl) (.inl rfl) p_groups (.inl rfl) (.inl rfl) (.inl rfl) p_hif p_ras p_mm p_hg p_frf p_fw
    p_sd p_img p_cp p_aid p_cal p_built p_mbx p_net p_bud p_sec p_adm p_pow p_aon
    (List.prefix_refl _) (Nat.le_refl _) id

/-- A memory that keeps its canonical form takes the place of another; other fields may change too. -/
theorem keeps_memOf {W : Nat} {s t : State} {time frac groups hif ras mm hg frf fw sd img cp aid cal built mbx net bud sec adm pow aon mem} (h : Keeps W s t)
    (hw : parts [.mem] ||| W = W) (hm : Memory.wf t.mem = true → Memory.wf mem = true)
    (p_time : time = t.time ∨ parts [.time] ||| W = W)
    (p_frac : frac = t.frac ∨ parts [.frac] ||| W = W)
    (p_groups : groups = t.groups ∨ parts [.groups] ||| W = W)
    (p_hif : hif = t.hif ∨ parts [.hif] ||| W = W)
    (p_ras : ras = t.ras ∨ parts [.ras] ||| W = W)
    (p_mm : mm = t.mm ∨ parts [.mm] ||| W = W)
    (p_hg : hg = t.hg ∨ parts [.hg] ||| W = W)
    (p_frf : frf = t.frf ∨ parts [.frf] ||| W = W)
    (p_fw : fw = t.fw ∨ parts [.fw] ||| W = W)
    (p_sd : sd = t.sd ∨ parts [.sd] ||| W = W)
    (p_img : img = t.img ∨ parts [.img] ||| W = W)
    (p_cp : cp = t.cp ∨ parts [.cp] ||| W = W)
    (p_aid : aid = t.aid ∨ parts [.aid] ||| W = W)
    (p_cal : cal = t.cal ∨ parts [.cal] ||| W = W)
    (p_built : built = t.built ∨ parts [.built] ||| W = W)
    (p_mbx : mbx = t.mbx ∨ parts [.mbx] ||| W = W)
    (p_net : net = t.net ∨ parts [.net] ||| W = W)
    (p_bud : bud = t.bud ∨ parts [.bud] ||| W = W)
    (p_sec : sec = t.sec ∨ parts [.sec] ||| W = W)
    (p_adm : adm = t.adm ∨ parts [.adm] ||| W = W)
    (p_pow : pow = t.pow ∨ parts [.pow] ||| W = W)
    (p_aon : aon = t.aon ∨ parts [.aon] ||| W = W) :
    Keeps W s ⟨t.pending, time, frac, t.regs, t.shadow, groups, mem, t.out, t.fresh, hif, ras, mm, hg, frf, fw, sd, img, cp, aid, cal,
      built, mbx, net, bud, sec, adm, pow, aon⟩ :=
  keeps_update h p_time p_frac (.inl rfl) (.inl rfl) p_groups (.inr hw) (.inl rfl) (.inl rfl) p_hif p_ras p_mm p_hg p_frf p_fw p_sd
    p_img p_cp p_aid p_cal p_built p_mbx p_net p_bud p_sec p_adm p_pow p_aon
    (List.prefix_refl _) (Nat.le_refl _) fun c => ⟨hm c.1, c.2⟩

/-- The register file changes. -/
theorem keeps_regs {W : Nat} {s t : State} {regs : Tab Word} (h : Keeps W s t) (hw : parts [.regs] ||| W = W) (k : tabSorted t.regs = true → tabSorted regs = true) :
    Keeps W s ⟨t.pending, t.time, t.frac, regs, t.shadow, t.groups, t.mem, t.out, t.fresh, t.hif, t.ras, t.mm, t.hg, t.frf, t.fw, t.sd,
      t.img, t.cp, t.aid, t.cal, t.built, t.mbx, t.net, t.bud, t.sec, t.adm, t.pow, t.aon⟩ :=
  keeps_update h (.inl rfl) (.inl rfl) (.inr hw) (.inl rfl) (.inl rfl) (.inl rfl) (.inl rfl) (.inl rfl) (.inl rfl) (.inl rfl)
    (.inl rfl) (.inl rfl) (.inl rfl) (.inl rfl) (.inl rfl) (.inl rfl) (.inl rfl) (.inl rfl) (.inl rfl) (.inl rfl)
    (.inl rfl) (.inl rfl) (.inl rfl) (.inl rfl) (.inl rfl) (.inl rfl) (.inl rfl)
    (List.prefix_refl _) (Nat.le_refl _) fun c => ⟨c.1, k c.2.1, c.2.2⟩

/-- The shadow copies change. -/
theorem keeps_shadow {W : Nat} {s t : State} {shadow : Tab Word} (h : Keeps W s t) (hw : parts [.shadow] ||| W = W) (k : tabSorted t.shadow = true → tabSorted shadow = true) :
    Keeps W s ⟨t.pending, t.time, t.frac, t.regs, shadow, t.groups, t.mem, t.out, t.fresh, t.hif, t.ras, t.mm, t.hg, t.frf, t.fw, t.sd,
      t.img, t.cp, t.aid, t.cal, t.built, t.mbx, t.net, t.bud, t.sec, t.adm, t.pow, t.aon⟩ :=
  keeps_update h (.inl rfl) (.inl rfl) (.inl rfl) (.inr hw) (.inl rfl) (.inl rfl) (.inl rfl) (.inl rfl) (.inl rfl) (.inl rfl)
    (.inl rfl) (.inl rfl) (.inl rfl) (.inl rfl) (.inl rfl) (.inl rfl) (.inl rfl) (.inl rfl) (.inl rfl) (.inl rfl)
    (.inl rfl) (.inl rfl) (.inl rfl) (.inl rfl) (.inl rfl) (.inl rfl) (.inl rfl)
    (List.prefix_refl _) (Nat.le_refl _) fun c => ⟨c.1, c.2.1, k c.2.2⟩

/-- Memory changes. -/
theorem keeps_memOnly {W : Nat} {s t : State} {mem : List Host.Cell} (h : Keeps W s t) (hw : parts [.mem] ||| W = W) (k : Memory.wf t.mem = true → Memory.wf mem = true) :
    Keeps W s ⟨t.pending, t.time, t.frac, t.regs, t.shadow, t.groups, mem, t.out, t.fresh, t.hif, t.ras, t.mm, t.hg, t.frf, t.fw, t.sd,
      t.img, t.cp, t.aid, t.cal, t.built, t.mbx, t.net, t.bud, t.sec, t.adm, t.pow, t.aon⟩ :=
  keeps_update h (.inl rfl) (.inl rfl) (.inl rfl) (.inl rfl) (.inl rfl) (.inr hw) (.inl rfl) (.inl rfl) (.inl rfl) (.inl rfl)
    (.inl rfl) (.inl rfl) (.inl rfl) (.inl rfl) (.inl rfl) (.inl rfl) (.inl rfl) (.inl rfl) (.inl rfl) (.inl rfl)
    (.inl rfl) (.inl rfl) (.inl rfl) (.inl rfl) (.inl rfl) (.inl rfl) (.inl rfl)
    (List.prefix_refl _) (Nat.le_refl _) fun c => ⟨k c.1, c.2⟩

/-- Outputs are added. -/
theorem keeps_out {W : Nat} {s t : State} {out : List Out} (h : Keeps W s t) (hw : parts [.out] ||| W = W) (k : t.out <+: out) :
    Keeps W s ⟨t.pending, t.time, t.frac, t.regs, t.shadow, t.groups, t.mem, out, t.fresh, t.hif, t.ras, t.mm, t.hg, t.frf, t.fw, t.sd,
      t.img, t.cp, t.aid, t.cal, t.built, t.mbx, t.net, t.bud, t.sec, t.adm, t.pow, t.aon⟩ :=
  keeps_update h (.inl rfl) (.inl rfl) (.inl rfl) (.inl rfl) (.inl rfl) (.inl rfl) (.inr hw) (.inl rfl) (.inl rfl) (.inl rfl)
    (.inl rfl) (.inl rfl) (.inl rfl) (.inl rfl) (.inl rfl) (.inl rfl) (.inl rfl) (.inl rfl) (.inl rfl) (.inl rfl)
    (.inl rfl) (.inl rfl) (.inl rfl) (.inl rfl) (.inl rfl) (.inl rfl) (.inl rfl)
    k (Nat.le_refl _) id

/-- The counter of free values moves on. -/
theorem keeps_fresh {W : Nat} {s t : State} {fresh : Nat} (h : Keeps W s t) (hw : parts [.fresh] ||| W = W) (k : t.fresh ≤ fresh) :
    Keeps W s ⟨t.pending, t.time, t.frac, t.regs, t.shadow, t.groups, t.mem, t.out, fresh, t.hif, t.ras, t.mm, t.hg, t.frf, t.fw, t.sd,
      t.img, t.cp, t.aid, t.cal, t.built, t.mbx, t.net, t.bud, t.sec, t.adm, t.pow, t.aon⟩ :=
  keeps_update h (.inl rfl) (.inl rfl) (.inl rfl) (.inl rfl) (.inl rfl) (.inl rfl) (.inl rfl) (.inr hw) (.inl rfl) (.inl rfl)
    (.inl rfl) (.inl rfl) (.inl rfl) (.inl rfl) (.inl rfl) (.inl rfl) (.inl rfl) (.inl rfl) (.inl rfl) (.inl rfl)
    (.inl rfl) (.inl rfl) (.inl rfl) (.inl rfl) (.inl rfl) (.inl rfl) (.inl rfl)
    (List.prefix_refl _) k id

/-- One operation that changes the parts of `V` alone. -/
theorem keeps_step {V W : Nat} {s t u : State} (hw : V ||| W = W) (h : Keeps W s t) (k : Keeps V t u) : Keeps W s u :=
  keeps_trans h ⟨k.1, k.2.1, k.2.2.1, k.2.2.2.1, fun p hp => k.2.2.2.2 p fun q => hp (sub_trans q hw)⟩

/-! ### Answers -/

theorem moves_next {W : Nat} {s t : State} (h : Keeps W s t) : Moves W s (.next t) := ⟨t, rfl, h⟩

theorem moves_ite {W : Nat} {s : State} {a b : Res} {c : Prop} [Decidable c] (ha : Moves W s a) (hb : Moves W s b) :
    Moves W s (if c then a else b) := by split <;> assumption

theorem moves_cut {W : Nat} {s t : State} {r : Res} (h : Keeps W s t) (k : Keeps W s t → Moves W s r) : Moves W s r := k h

end Sys2Proof.Machine
end

