-- ==== Sys2Proof/Laws/KeepsBase.lean ====
section
/-!
SUPPORT. Every operation of the shared operations, the records, the host interface, memory, the journal, the export queues and the mailboxes keeps what no command changes
and changes the named parts alone (`Keeps`, Safety): one lemma per operation, proved through those of the operations it calls.
-/

namespace Sys2Proof.Machine

/-! ### Machine/Ops.lean -/

theorem keeps_at {W : Nat} {s0 s : State} (t : Nat) (hw : parts [.time] ||| W = W) (hk : Keeps W s0 s) :
    Keeps W s0 (State.at s t) := by
  unfold State.at
  repeat' first
    | exact .inr (sub_trans rfl hw) | with_reducible exact .inl rfl | with_reducible assumption
    | with_reducible apply keeps_mk

theorem keeps_emit {W : Nat} {s0 s : State} (o : Out) (hw : parts [.out] ||| W = W)
    (hk : Keeps W s0 s) : Keeps W s0 (s.emit o) :=
  keeps_out hk hw (List.prefix_append _ _)

theorem keeps_emitAll {W : Nat} {s0 s : State} (os : List Out) (hw : parts [.out] ||| W = W) (hk : Keeps W s0 s) :
    Keeps W s0 (s.emitAll os) :=
  keeps_out hk hw (List.prefix_append _ _)

theorem keeps_tickFree {W : Nat} {s0 s : State} (hw : parts [.fresh] ||| W = W)
    (hk : Keeps W s0 s) : Keeps W s0 s.tickFree :=
  keeps_fresh hk hw (Nat.le_succ _)

theorem keeps_setReg {W : Nat} {s0 s : State} (a : Nat) (w : Word) (hw : parts [.regs] ||| W = W) (hk : Keeps W s0 s) :
    Keeps W s0 (s.setReg a w) :=
  keeps_regs hk hw fun c => tabSorted_insert c a w

theorem keeps_put {W : Nat} {s0 s : State} (f : Fld) (v : Nat) (hw : parts [.regs] ||| W = W) (hk : Keeps W s0 s) :
    Keeps W s0 (State.put s f v) := by
  unfold State.put
  repeat' first | with_reducible assumption | with_reducible apply keeps_setReg

theorem keeps_bumpBy {W : Nat} {s0 s : State} (a n : Nat) (hw : parts [.regs] ||| W = W) (hk : Keeps W s0 s) :
    Keeps W s0 (State.bumpBy s a n) := by
  unfold State.bumpBy
  repeat' first | with_reducible assumption | with_reducible apply keeps_setReg

theorem keeps_bump {W : Nat} {s0 s : State} (a : Nat) (hw : parts [.regs] ||| W = W) (hk : Keeps W s0 s) :
    Keeps W s0 (State.bump s a) := by
  unfold State.bump
  repeat' first | with_reducible assumption | with_reducible apply keeps_bumpBy

theorem keeps_sysErr {W : Nat} {s0 s : State} (f : Fld) (req size off : Nat) (hw : parts [.regs] ||| W = W)
    (hk : Keeps W s0 s) :
    Keeps W s0 (State.sysErr s f req size off) := by
  unfold State.sysErr
  repeat' first | with_reducible assumption | with_reducible apply keeps_put

theorem keeps_setGroup {W : Nat} {s0 s : State} (c : Nat) (g : GroupSt) (hw : parts [.groups] ||| W = W)
    (hk : Keeps W s0 s) :
    Keeps W s0 (State.setGroup s c g) := by
  unfold State.setGroup
  repeat' first
    | exact .inr (sub_trans rfl hw) | with_reducible exact .inl rfl | with_reducible assumption
    | with_reducible apply keeps_mk

theorem tabSorted_eraseAll {α : Type} {t : Tab α} (h : tabSorted t = true) (l : List Nat) : tabSorted (tabEraseAll t l) = true := by
  induction l generalizing t with
  | nil => exact h
  | cons k r ih => exact ih (tabSorted_erase h k)

theorem keeps_reloadShadow {W : Nat} {s0 s : State} (c : Nat) (hw : parts [.shadow] ||| W = W) (hk : Keeps W s0 s) :
    Keeps W s0 (s.reloadShadow c) :=
  keeps_shadow hk hw fun k => tabSorted_eraseAll k _

theorem keeps_endClaim {W : Nat} {s0 s : State} (c : Nat) (hw : parts [.groups] ||| W = W) (hk : Keeps W s0 s) :
    Keeps W s0 (State.endClaim s c) := by
  unfold State.endClaim
  repeat' first | with_reducible assumption | with_reducible apply keeps_setGroup

theorem keeps_groupWrite {W : Nat} {s0 s : State} (req size c a : Nat) (fs : List FieldSpec) (val m : Word)
    (hw : parts [.regs, .shadow, .groups] ||| W = W)
 (hk : Keeps W s0 s) : Keeps W s0 (s.groupWrite req size c a fs val m) := by
  unfold State.groupWrite
  dsimp only
  split
  · exact hk
  · split
    · exact keeps_sysErr _ _ _ _ (sub_trans rfl hw) hk
    · exact keeps_shadow (keeps_mk hk 
      (.inl rfl) (.inl rfl) (.inr (sub_trans rfl hw)) (.inl rfl) (.inl rfl) (.inl rfl) (.inl rfl) (.inl rfl)
      (.inl rfl) (.inl rfl) (.inl rfl) (.inl rfl) (.inl rfl) (.inl rfl) (.inl rfl) (.inl rfl) (.inl rfl) (.inl rfl)
      (.inl rfl) (.inl rfl) (.inl rfl) (.inl rfl)) (sub_trans rfl hw)
        fun k => tabSorted_insert k _ _

theorem keeps_applyStaged {W : Nat} {s0 s : State} (l : List (Nat × Word)) (hw : parts [.regs] ||| W = W)
    (hk : Keeps W s0 s) :
    Keeps W s0 (s.applyStaged l) := by
  induction l generalizing s with
  | nil => exact hk
  | cons p r ih => exact ih (keeps_setReg _ _ (sub_trans rfl hw) hk)

theorem keeps_commitSplit {W : Nat} {s0 s : State} (req c val code : Nat) (now later : List (Nat × Word))
    (hw : parts [.regs, .shadow, .groups] ||| W = W) (hk : Keeps W s0 s) :
    Keeps W s0 (State.commitSplit s req c val code now later) := by
  unfold State.commitSplit
  repeat' first
    | (extract_lets +onlyGivenNames sv; refine keeps_cut (t := sv) ?_ ?_; subst sv; rotate_left; clear_value sv; revert sv; intro _ _; rotate_left)
    | (extract_lets +onlyGivenNames dv; clear_value dv; revert dv; intro _) | with_reducible assumption
    | exact sub_trans rfl hw | with_reducible apply keeps_ite | with_reducible apply keeps_sysErr
    | with_reducible apply keeps_setReg | with_reducible apply keeps_reloadShadow | with_reducible apply keeps_endClaim
    | with_reducible apply keeps_applyStaged | with_reducible apply keeps_setGroup

theorem keeps_commitNow {W : Nat} {s0 s : State} (req c val code : Nat) (hw : parts [.regs, .shadow, .groups] ||| W = W)
    (hk : Keeps W s0 s) :
    Keeps W s0 (State.commitNow s req c val code) := by
  unfold State.commitNow
  repeat' first | with_reducible assumption | with_reducible apply keeps_commitSplit

theorem keeps_commitLater {W : Nat} {s0 s : State} (req c val code : Nat) (hw : parts [.regs, .shadow, .groups] ||| W = W)
    (hk : Keeps W s0 s) :
    Keeps W s0 (State.commitLater s req c val code) := by
  unfold State.commitLater
  repeat' first | with_reducible assumption | with_reducible apply keeps_commitSplit

theorem keeps_applyPending {W : Nat} {s0 s : State} (c : Nat) (hw : parts [.regs, .shadow, .groups] ||| W = W)
    (hk : Keeps W s0 s) :
    Keeps W s0 (State.applyPending s c) := by
  unfold State.applyPending
  repeat' first
    | (extract_lets +onlyGivenNames sv; refine keeps_cut (t := sv) ?_ ?_; subst sv; rotate_left; clear_value sv; revert sv; intro _ _; rotate_left)
    | (extract_lets +onlyGivenNames dv; clear_value dv; revert dv; intro _) | with_reducible assumption
    | exact sub_trans rfl hw | with_reducible apply keeps_ite | with_reducible apply keeps_applyStaged
    | with_reducible apply keeps_setGroup | with_reducible apply keeps_reloadShadow | split

theorem keeps_dramWrite {W : Nat} {s0 s : State} (a : Nat) (bs : List Byte) (hw : parts [.regs, .mem] ||| W = W)
    (hk : Keeps W s0 s) :
    Keeps W s0 (s.dramWrite a bs) := by
  unfold State.dramWrite
  split
  · exact keeps_memOnly hk (sub_trans rfl hw) fun k => Memory.wf_putAll k _ _
  · exact keeps_bump _ (sub_trans rfl hw) (keeps_put _ _ (sub_trans rfl hw) hk)

theorem keeps_stall {W : Nat} {s0 s : State} (d : Nat) (x : Stalled) (hw : parts [.mbx] ||| W = W) (hk : Keeps W s0 s) :
    Keeps W s0 (State.stall s d x) := by
  unfold State.stall
  repeat' first
    | exact .inr (sub_trans rfl hw) | with_reducible exact .inl rfl | with_reducible assumption
    | with_reducible apply keeps_ite | with_reducible apply keeps_mk

theorem keeps_gate {W : Nat} {s0 s : State} (c comp : Nat) (hw : parts [.aid] ||| W = W) (hk : Keeps W s0 s) :
    Keeps W s0 (State.gate s c comp) := by
  unfold State.gate
  repeat' first
    | exact .inr (sub_trans rfl hw) | with_reducible exact .inl rfl
    | (extract_lets +onlyGivenNames dv; clear_value dv; revert dv; intro _) | with_reducible assumption
    | with_reducible apply keeps_mk

theorem keeps_turnedAway {W : Nat} {s0 s : State} (req off : Nat) (x : Stalled) (hw : parts [.aid, .mbx] ||| W = W)
    (hk : Keeps W s0 s) :
    Keeps W s0 (State.turnedAway s req off x) := by
  unfold State.turnedAway
  repeat' first
    | exact .inr (sub_trans rfl hw) | with_reducible exact .inl rfl | with_reducible assumption | exact sub_trans rfl hw
    | with_reducible apply keeps_ite | with_reducible apply keeps_stall | with_reducible apply keeps_mk

theorem keeps_asReq {W : Nat} {s0 s : State} (req off size val : Nat) (f : State → State)
    (hw : parts [.aid, .mbx] ||| W = W) (hk : Keeps W s0 s)
    (hf : ∀ u, Keeps W s0 u → Keeps W s0 (f u)) : Keeps W s0 (s.asReq req off size val f) := by
  unfold State.asReq
  split
  · exact hf _ hk
  · exact keeps_turnedAway _ _ _ (sub_trans rfl hw) hk

theorem keeps_asReader {W : Nat} {s0 s : State} (req off size : Nat) (f : State → State)
    (hw : parts [.aid, .mbx] ||| W = W) (hk : Keeps W s0 s)
    (hf : ∀ u, Keeps W s0 u → Keeps W s0 (f u)) : Keeps W s0 (s.asReader req off size f) := by
  unfold State.asReader
  split
  · exact hf _ hk
  · exact keeps_turnedAway _ _ _ (sub_trans rfl hw) hk

/-! ### Machine/Records.lean -/

theorem keeps_setRing {W : Nat} {s0 s : State} (r : Nat) (x : Ring) (hw : parts [.hif] ||| W = W) (hk : Keeps W s0 s) :
    Keeps W s0 (State.setRing s r x) := by
  unfold State.setRing
  repeat' first
    | exact .inr (sub_trans rfl hw) | with_reducible exact .inl rfl | with_reducible assumption
    | with_reducible apply keeps_mk

theorem keeps_arm {W : Nat} {s0 s : State} (r : Nat) (hw : parts [.hif] ||| W = W) (hk : Keeps W s0 s) :
    Keeps W s0 (State.arm s r) := by
  unfold State.arm
  repeat' first
    | with_reducible assumption | with_reducible apply keeps_ite | with_reducible apply keeps_setRing | split

theorem keeps_pushRun {W : Nat} {s0 s : State} (r : Nat) (run : Run) (hw : parts [.hif] ||| W = W) (hk : Keeps W s0 s) :
    Keeps W s0 (State.pushRun s r run) := by
  unfold State.pushRun
  repeat' first
    | with_reducible assumption | with_reducible apply keeps_setRing | with_reducible apply keeps_arm | split

theorem keeps_emitRecord {W : Nat} {s0 s : State} (rec : List Byte) (hw : parts [.regs, .hif, .ras] ||| W = W)
    (hk : Keeps W s0 s) :
    Keeps W s0 (State.emitRecord s rec) := by
  unfold State.emitRecord
  repeat' first
    | exact .inr (sub_trans rfl hw) | with_reducible exact .inl rfl
    | (extract_lets +onlyGivenNames dv; clear_value dv; revert dv; intro _) | with_reducible assumption
    | exact sub_trans rfl hw | with_reducible apply keeps_ite | with_reducible apply keeps_bump
    | with_reducible apply keeps_put | with_reducible apply keeps_pushRun | split | with_reducible apply keeps_mk

theorem keeps_health {W : Nat} {s0 s : State} (kind cause streams a0 a1 a2 index : Nat)
    (hw : parts [.regs, .hif, .ras] ||| W = W) (hk : Keeps W s0 s) :
    Keeps W s0 (State.health s kind cause streams a0 a1 a2 index) := by
  unfold State.health
  repeat' first | with_reducible assumption | with_reducible apply keeps_emitRecord

theorem keeps_errRecordAt {W : Nat} {s0 s : State} (e : ErrInfo) (at' : Nat)
    (hw : parts [.regs, .out, .hif, .ras, .frf, .fw, .aid, .net, .sec] ||| W = W) (hk : Keeps W s0 s) :
    Keeps W s0 (State.errRecordAt s e at') := by
  unfold State.errRecordAt
  repeat' first
    | intro _
    | (extract_lets +onlyGivenNames sv; refine keeps_cut (t := sv) ?_ ?_; subst sv; rotate_left; clear_value sv; revert sv; intro _ _; rotate_left)
    | (extract_lets +onlyGivenNames dv; clear_value dv; revert dv; intro _) | with_reducible assumption
    | exact sub_trans rfl hw | with_reducible apply keeps_ite | with_reducible apply keeps_each
    | with_reducible apply keeps_emitRecord | with_reducible apply keeps_put | with_reducible apply keeps_bump
    | with_reducible apply keeps_emit | split

theorem keeps_errRecord {W : Nat} {s0 s : State} (e : ErrInfo)
    (hw : parts [.regs, .out, .hif, .ras, .frf, .fw, .aid, .net, .sec] ||| W = W) (hk : Keeps W s0 s) :
    Keeps W s0 (State.errRecord s e) := by
  unfold State.errRecord
  repeat' first | with_reducible assumption | with_reducible apply keeps_errRecordAt

theorem keeps_corrected {W : Nat} {s0 s : State} (part index cond streams addr : Nat)
    (hw : parts [.regs, .out, .hif, .ras, .frf, .fw, .aid, .net, .sec] ||| W = W) (hk : Keeps W s0 s) :
    Keeps W s0 (State.corrected s part index cond streams addr) := by
  unfold State.corrected
  repeat' first
    | exact .inr (sub_trans rfl hw) | with_reducible exact .inl rfl
    | (extract_lets +onlyGivenNames sv; refine keeps_cut (t := sv) ?_ ?_; subst sv; rotate_left; clear_value sv; revert sv; intro _ _; rotate_left)
    | (extract_lets +onlyGivenNames dv; clear_value dv; revert dv; intro _) | with_reducible assumption
    | exact sub_trans rfl hw | with_reducible apply keeps_ite | with_reducible apply keeps_bump
    | with_reducible apply keeps_errRecord | with_reducible apply keeps_mk

theorem keeps_mapSusp {W : Nat} {s0 s : State} (f : Susp → Susp) (hw : parts [.ras] ||| W = W) (hk : Keeps W s0 s) :
    Keeps W s0 (State.mapSusp s f) := by
  unfold State.mapSusp
  repeat' first
    | exact .inr (sub_trans rfl hw) | with_reducible exact .inl rfl | with_reducible assumption
    | with_reducible apply keeps_mk

theorem keeps_addSusp {W : Nat} {s0 s : State} (x : Susp) (hw : parts [.ras] ||| W = W) (hk : Keeps W s0 s) :
    Keeps W s0 (State.addSusp s x) := by
  unfold State.addSusp
  repeat' first
    | exact .inr (sub_trans rfl hw) | with_reducible exact .inl rfl | with_reducible assumption
    | with_reducible apply keeps_mk

theorem keeps_beginSusp {W : Nat} {s0 s : State} (cause streams arg0 : Nat) (hw : parts [.regs, .hif, .ras] ||| W = W)
    (hk : Keeps W s0 s) :
    Keeps W s0 (State.beginSusp s cause streams arg0) := by
  unfold State.beginSusp
  repeat' first
    | exact .inr (sub_trans rfl hw) | with_reducible exact .inl rfl
    | (extract_lets +onlyGivenNames sv; refine keeps_cut (t := sv) ?_ ?_; subst sv; rotate_left; clear_value sv; revert sv; intro _ _; rotate_left)
    | (extract_lets +onlyGivenNames dv; clear_value dv; revert dv; intro _) | with_reducible assumption
    | exact sub_trans rfl hw | with_reducible apply keeps_ite | with_reducible apply keeps_addSusp
    | with_reducible apply keeps_health | with_reducible apply keeps_mk

theorem keeps_endSusp {W : Nat} {s0 s : State} (cause streams arg0 : Nat) (hw : parts [.regs, .hif, .ras] ||| W = W)
    (hk : Keeps W s0 s) :
    Keeps W s0 (State.endSusp s cause streams arg0) := by
  unfold State.endSusp
  repeat' first
    | (extract_lets +onlyGivenNames dv; clear_value dv; revert dv; intro _) | with_reducible assumption
    | exact sub_trans rfl hw | with_reducible apply keeps_ite | with_reducible apply keeps_mapSusp
    | with_reducible apply keeps_health

theorem keeps_overSusp {W : Nat} {s0 s : State} (cause streams : Nat) (hw : parts [.ras] ||| W = W) (hk : Keeps W s0 s) :
    Keeps W s0 (State.overSusp s cause streams) := by
  unfold State.overSusp
  repeat' first
    | (extract_lets +onlyGivenNames dv; clear_value dv; revert dv; intro _) | with_reducible assumption
    | with_reducible apply keeps_ite | with_reducible apply keeps_mapSusp | with_reducible apply keeps_addSusp

theorem keeps_closeSusp {W : Nat} {s0 s : State} (i : Nat) (hw : parts [.regs, .hif, .ras] ||| W = W) (hk : Keeps W s0 s) :
    Keeps W s0 (State.closeSusp s i) := by
  unfold State.closeSusp
  repeat' first
    | intro _ | (extract_lets +onlyGivenNames dv; clear_value dv; revert dv; intro _) | with_reducible assumption
    | exact sub_trans rfl hw | with_reducible apply keeps_each | with_reducible apply keeps_mapSusp
    | with_reducible apply keeps_health

theorem keeps_dropSusp {W : Nat} {s0 s : State} (i : Nat) (p : Susp → Bool) (hw : parts [.regs, .hif, .ras] ||| W = W)
    (hk : Keeps W s0 s) :
    Keeps W s0 (State.dropSusp s i p) := by
  unfold State.dropSusp
  repeat' first
    | intro _ | (extract_lets +onlyGivenNames dv; clear_value dv; revert dv; intro _) | with_reducible assumption
    | exact sub_trans rfl hw | with_reducible apply keeps_each | with_reducible apply keeps_mapSusp
    | with_reducible apply keeps_health

theorem keeps_endStream {W : Nat} {s0 s : State} (i : Nat) (hw : parts [.regs, .hif, .ras] ||| W = W) (hk : Keeps W s0 s) :
    Keeps W s0 (State.endStream s i) := by
  unfold State.endStream
  repeat' first | with_reducible assumption | with_reducible apply keeps_dropSusp

theorem keeps_endLife {W : Nat} {s0 s : State} (i : Nat) (hw : parts [.regs, .hif, .ras] ||| W = W) (hk : Keeps W s0 s) :
    Keeps W s0 (State.endLife s i) := by
  unfold State.endLife
  repeat' first | with_reducible assumption | with_reducible apply keeps_dropSusp

theorem keeps_mapTest {W : Nat} {s0 s : State} (part index : Nat) (f : Injected → Injected) (hw : parts [.aid] ||| W = W)
    (hk : Keeps W s0 s) :
    Keeps W s0 (State.mapTest s part index f) := by
  unfold State.mapTest
  repeat' first
    | exact .inr (sub_trans rfl hw) | with_reducible exact .inl rfl | with_reducible assumption
    | with_reducible apply keeps_mk

theorem keeps_singlePartFault {W : Nat} {s0 s : State} (part index cond streams addr usable flags : Nat)
    (hw : parts [.regs, .out, .hif, .ras, .frf, .fw, .aid, .net, .sec] ||| W = W) (hk : Keeps W s0 s) :
    Keeps W s0 (State.singlePartFault s part index cond streams addr usable flags) := by
  unfold State.singlePartFault
  repeat' first
    | exact .inr (sub_trans rfl hw) | with_reducible exact .inl rfl
    | (extract_lets +onlyGivenNames sv; refine keeps_cut (t := sv) ?_ ?_; subst sv; rotate_left; clear_value sv; revert sv; intro _ _; rotate_left)
    | (extract_lets +onlyGivenNames dv; clear_value dv; revert dv; intro _) | with_reducible assumption
    | exact sub_trans rfl hw | with_reducible apply keeps_ite | with_reducible apply keeps_errRecord
    | with_reducible apply keeps_put | with_reducible apply keeps_mapTest | with_reducible apply keeps_bump
    | with_reducible apply keeps_beginSusp | with_reducible apply keeps_mapSusp | with_reducible apply keeps_addSusp
    | with_reducible apply keeps_mk

theorem keeps_degraded {W : Nat} {s0 s : State} (part index cond streams usable flags floor : Nat)
    (hw : parts [.regs, .out, .hif, .ras, .frf, .fw, .aid, .net, .sec] ||| W = W) (hk : Keeps W s0 s) :
    Keeps W s0 (State.degraded s part index cond streams usable flags floor) := by
  unfold State.degraded
  repeat' first
    | (extract_lets +onlyGivenNames sv; refine keeps_cut (t := sv) ?_ ?_; subst sv; rotate_left; clear_value sv; revert sv; intro _ _; rotate_left)
    | with_reducible assumption | exact sub_trans rfl hw | with_reducible apply keeps_errRecord
    | with_reducible apply keeps_mapTest | with_reducible apply keeps_health

theorem keeps_withdraw {W : Nat} {s0 s : State} (m : Nat) (hw : parts [.regs, .hif, .ras, .adm] ||| W = W)
    (hk : Keeps W s0 s) :
    Keeps W s0 (State.withdraw s m) := by
  unfold State.withdraw
  repeat' first
    | exact .inr (sub_trans rfl hw) | with_reducible exact .inl rfl
    | (extract_lets +onlyGivenNames dv; clear_value dv; revert dv; intro _) | with_reducible assumption
    | exact sub_trans rfl hw | with_reducible apply keeps_ite | with_reducible apply keeps_beginSusp
    | with_reducible apply keeps_mk

theorem keeps_askCapacity {W : Nat} {s0 s : State} (hw : parts [.aid] ||| W = W) (hk : Keeps W s0 s) :
    Keeps W s0 (State.askCapacity s) := by
  unfold State.askCapacity
  repeat' first
    | exact .inr (sub_trans rfl hw) | with_reducible exact .inl rfl | with_reducible assumption
    | with_reducible apply keeps_ite | with_reducible apply keeps_mk

theorem keeps_setSlot {W : Nat} {s0 s : State} (n : Nat) (x : ImgSlot) (hw : parts [.img] ||| W = W) (hk : Keeps W s0 s) :
    Keeps W s0 (State.setSlot s n x) := by
  unfold State.setSlot
  repeat' first
    | exact .inr (sub_trans rfl hw) | with_reducible exact .inl rfl | with_reducible assumption
    | with_reducible apply keeps_mk

/-! ### Machine/Culvert.lean -/

theorem keeps_setPeer {W : Nat} {s0 s : State} (k : Nat) (x : CvPeer) (hw : parts [.net] ||| W = W) (hk : Keeps W s0 s) :
    Keeps W s0 (State.setPeer s k x) := by
  unfold State.setPeer
  repeat' first
    | exact .inr (sub_trans rfl hw) | with_reducible exact .inl rfl | with_reducible assumption
    | with_reducible apply keeps_mk

theorem keeps_cvEmit {W : Nat} {s0 s : State} (k chan port type seq flags : Nat) (payload : List Byte)
    (hw : parts [.out] ||| W = W) (hk : Keeps W s0 s) :
    Keeps W s0 (State.cvEmit s k chan port type seq flags payload) := by
  unfold State.cvEmit
  repeat' first | with_reducible assumption | with_reducible apply keeps_emit

theorem keeps_cvSend {W : Nat} {s0 s : State} (k chan port type : Nat) (payload : List Byte)
    (hw : parts [.out, .frf, .net] ||| W = W) (hk : Keeps W s0 s) :
    Keeps W s0 (State.cvSend s k chan port type payload) := by
  unfold State.cvSend
  repeat' first
    | (extract_lets +onlyGivenNames dv; clear_value dv; revert dv; intro _) | with_reducible assumption
    | exact sub_trans rfl hw | with_reducible apply keeps_ite | with_reducible apply keeps_setPeer
    | with_reducible apply keeps_cvEmit

theorem keeps_toBuddy {W : Nat} {s0 s : State} (chan type stream : Nat) (payload : List Byte)
    (hw : parts [.out, .frf, .net] ||| W = W) (hk : Keeps W s0 s) :
    Keeps W s0 (State.toBuddy s chan type stream payload) := by
  unfold State.toBuddy
  repeat' first | with_reducible assumption | with_reducible apply keeps_ite | with_reducible apply keeps_cvSend | split

theorem keeps_cvBeat {W : Nat} {s0 s : State} (k port : Nat) (alt : Bool) (payload : List Byte)
    (hw : parts [.out, .frf, .net] ||| W = W) (hk : Keeps W s0 s) :
    Keeps W s0 (State.cvBeat s k port alt payload) := by
  unfold State.cvBeat
  repeat' first
    | (extract_lets +onlyGivenNames dv; clear_value dv; revert dv; intro _) | with_reducible assumption
    | exact sub_trans rfl hw | with_reducible apply keeps_cvEmit | with_reducible apply keeps_setPeer

theorem keeps_mirrorConfig {W : Nat} {s0 s : State} (hw : parts [.out, .frf, .net, .bud] ||| W = W) (hk : Keeps W s0 s) :
    Keeps W s0 (State.mirrorConfig s) := by
  unfold State.mirrorConfig
  repeat' first
    | exact .inr (sub_trans rfl hw) | with_reducible exact .inl rfl | intro _
    | (extract_lets +onlyGivenNames sv; refine keeps_cut (t := sv) ?_ ?_; subst sv; rotate_left; clear_value sv; revert sv; intro _ _; rotate_left)
    | (extract_lets +onlyGivenNames dv; clear_value dv; revert dv; intro _) | with_reducible assumption
    | exact sub_trans rfl hw | with_reducible apply keeps_ite | with_reducible apply keeps_each
    | with_reducible apply keeps_toBuddy | with_reducible apply keeps_mk

/-! ### Machine/Contexts.lean -/

theorem keeps_setCtx {W : Nat} {s0 s : State} (c : Ctx) (hw : parts [.aid] ||| W = W) (hk : Keeps W s0 s) :
    Keeps W s0 (State.setCtx s c) := by
  unfold State.setCtx
  repeat' first
    | exact .inr (sub_trans rfl hw) | with_reducible exact .inl rfl | with_reducible assumption
    | with_reducible apply keeps_mk

theorem keeps_postCompletion {W : Nat} {s0 s : State} (ring : Nat) (noIrq : Bool) (entry : List Byte)
    (hw : parts [.hif, .aid] ||| W = W) (hk : Keeps W s0 s) :
    Keeps W s0 (State.postCompletion s ring noIrq entry) := by
  unfold State.postCompletion
  repeat' first
    | exact .inr (sub_trans rfl hw) | with_reducible exact .inl rfl | with_reducible assumption | exact sub_trans rfl hw
    | with_reducible apply keeps_ite | with_reducible apply keeps_pushRun | split | with_reducible apply keeps_mk

theorem keeps_complete {W : Nat} {s0 s : State} (c : Ctx) (status : Nat) (data : List Byte)
    (hw : parts [.hif, .aid] ||| W = W) (hk : Keeps W s0 s) :
    Keeps W s0 (State.complete s c status data) := by
  unfold State.complete
  repeat' first
    | exact .inr (sub_trans rfl hw) | with_reducible exact .inl rfl | intro _
    | (extract_lets +onlyGivenNames sv; refine keeps_cut (t := sv) ?_ ?_; subst sv; rotate_left; clear_value sv; revert sv; intro _ _; rotate_left)
    | (extract_lets +onlyGivenNames dv; clear_value dv; revert dv; intro _) | with_reducible assumption
    | with_reducible apply keeps_each | with_reducible apply keeps_postCompletion | with_reducible apply keeps_mk

theorem keeps_fatal {W : Nat} {s0 s : State} (part index cond streams addr : Nat)
    (hw : parts [.regs, .out, .hif, .ras, .frf, .fw, .aid, .net, .sec] ||| W = W) (hk : Keeps W s0 s) :
    Keeps W s0 (State.fatal s part index cond streams addr) := by
  unfold State.fatal
  repeat' first
    | exact .inr (sub_trans rfl hw) | with_reducible exact .inl rfl | intro _
    | (extract_lets +onlyGivenNames sv; refine keeps_cut (t := sv) ?_ ?_; subst sv; rotate_left; clear_value sv; revert sv; intro _ _; rotate_left)
    | (extract_lets +onlyGivenNames dv; clear_value dv; revert dv; intro _) | with_reducible assumption
    | exact sub_trans rfl hw | with_reducible apply keeps_ite | with_reducible apply keeps_each
    | with_reducible apply keeps_put | with_reducible apply keeps_complete | with_reducible apply keeps_setRing
    | with_reducible apply keeps_postCompletion | with_reducible apply keeps_errRecord | with_reducible apply keeps_cvSend
    | split | with_reducible apply keeps_mk

/-! ### Machine/Memory.lean -/

theorem keeps_memAnswer {W : Nat} {s0 s : State} (reader : Option Nat) (a : Nat) (data : List Byte) (error : Bool)
    (hw : parts [.out] ||| W = W) (hk : Keeps W s0 s) :
    Keeps W s0 (State.memAnswer s reader a data error) := by
  unfold State.memAnswer
  repeat' first | with_reducible assumption | with_reducible apply keeps_emit | split

theorem keeps_refreshNext {W : Nat} {s0 s : State} (l : List Nat) (hw : parts [.sd] ||| W = W) (hk : Keeps W s0 s) :
    Keeps W s0 (State.refreshNext s l) := by
  unfold State.refreshNext
  repeat' first
    | exact .inr (sub_trans rfl hw) | with_reducible exact .inl rfl | with_reducible assumption
    | with_reducible apply keeps_mk

theorem keeps_zeroLine {W : Nat} {s0 s : State} (a : Nat) (hw : parts [.mem] ||| W = W) (hk : Keeps W s0 s) :
    Keeps W s0 (State.zeroLine s a) := by
  unfold State.zeroLine
  repeat' first
    | with_reducible exact .inl rfl | with_reducible assumption
    | with_reducible refine keeps_memOf ?_ (sub_trans rfl hw) (fun h => Memory.wf_filter h _) ?_ ?_ ?_ ?_ ?_ ?_ ?_ ?_ ?_ ?_ ?_ ?_ ?_ ?_ ?_ ?_ ?_ ?_ ?_ ?_ ?_ ?_

theorem keeps_replaceData {W : Nat} {s0 s : State} (k : PlainData) (a : Nat) (hw : parts [.mem, .sd] ||| W = W)
    (hk : Keeps W s0 s) :
    Keeps W s0 (State.replaceData s k a) := by
  unfold State.replaceData
  repeat' first
    | with_reducible assumption | exact sub_trans rfl hw | with_reducible apply keeps_refreshNext
    | with_reducible apply keeps_zeroLine | split

theorem keeps_plainUe {W : Nat} {s0 s : State} (reader : Option Nat) (a n : Nat)
    (hw : parts [.regs, .mem, .out, .sd] ||| W = W) (hk : Keeps W s0 s) :
    Keeps W s0 (State.plainUe s reader a n) := by
  unfold State.plainUe
  repeat' first
    | (extract_lets +onlyGivenNames sv; refine keeps_cut (t := sv) ?_ ?_; subst sv; rotate_left; clear_value sv; revert sv; intro _ _; rotate_left)
    | (extract_lets +onlyGivenNames dv; clear_value dv; revert dv; intro _) | with_reducible assumption
    | exact sub_trans rfl hw | with_reducible apply keeps_ite | with_reducible apply keeps_put
    | with_reducible apply keeps_bump | with_reducible apply keeps_memAnswer | with_reducible apply keeps_replaceData

theorem keeps_lineGood {W : Nat} {s0 s : State} (r : Region) (a : Nat) (hw : parts [.mm] ||| W = W) (hk : Keeps W s0 s) :
    Keeps W s0 (State.lineGood s r a) := by
  unfold State.lineGood
  repeat' first
    | exact .inr (sub_trans rfl hw) | with_reducible exact .inl rfl
    | (extract_lets +onlyGivenNames dv; clear_value dv; revert dv; intro _) | with_reducible assumption
    | with_reducible apply keeps_mk

theorem keeps_plainBad {W : Nat} {s0 s : State} (reader : Option Nat) (r : Region) (a n : Nat)
    (hw : parts [.regs, .mem, .out, .mm, .sd] ||| W = W) (hk : Keeps W s0 s) :
    Keeps W s0 (State.plainBad s reader r a n) := by
  unfold State.plainBad
  repeat' first
    | exact .inr (sub_trans rfl hw) | with_reducible exact .inl rfl
    | (extract_lets +onlyGivenNames dv; clear_value dv; revert dv; intro _) | with_reducible assumption
    | exact sub_trans rfl hw | with_reducible apply keeps_ite | with_reducible apply keeps_plainUe
    | with_reducible apply keeps_lineGood | with_reducible apply keeps_mk

theorem keeps_guardedUe {W : Nat} {s0 s : State} (reader : Option Nat) (a n : Nat)
    (hw : parts [.regs, .out, .hif, .ras, .frf, .fw, .aid, .net, .sec] ||| W = W) (hk : Keeps W s0 s) :
    Keeps W s0 (State.guardedUe s reader a n) := by
  unfold State.guardedUe
  repeat' first
    | with_reducible assumption | exact sub_trans rfl hw | with_reducible apply keeps_put
    | with_reducible apply keeps_bump | with_reducible apply keeps_memAnswer | with_reducible apply keeps_fatal

theorem keeps_memCorrected {W : Nat} {s0 s : State} (a cond : Nat)
    (hw : parts [.regs, .out, .hif, .ras, .frf, .fw, .aid, .net, .sec] ||| W = W) (hk : Keeps W s0 s) :
    Keeps W s0 (State.memCorrected s a cond) := by
  unfold State.memCorrected
  repeat' first
    | with_reducible assumption | exact sub_trans rfl hw | with_reducible apply keeps_put
    | with_reducible apply keeps_bump | with_reducible apply keeps_corrected

theorem keeps_dramServe {W : Nat} {s0 s : State} (reader : Option Nat) (r : Region) (a n : Nat) (ecc : Ecc)
    (hw : parts [.regs, .mem, .out, .hif, .ras, .mm, .frf, .fw, .sd, .aid, .net, .sec] ||| W = W) (hk : Keeps W s0 s) :
    Keeps W s0 (State.dramServe s reader r a n ecc) := by
  unfold State.dramServe
  repeat' first
    | (extract_lets +onlyGivenNames dv; clear_value dv; revert dv; intro _) | with_reducible assumption
    | exact sub_trans rfl hw | with_reducible apply keeps_ite | with_reducible apply keeps_guardedUe
    | with_reducible apply keeps_plainBad | with_reducible apply keeps_memAnswer | with_reducible apply keeps_memCorrected
    | with_reducible apply keeps_bump | split

theorem keeps_dramStore {W : Nat} {s0 s : State} (r : Region) (a : Nat) (data : List Byte)
    (hw : parts [.regs, .mem, .mm] ||| W = W) (hk : Keeps W s0 s) :
    Keeps W s0 (State.dramStore s r a data) := by
  unfold State.dramStore
  repeat' first
    | with_reducible assumption | exact sub_trans rfl hw | with_reducible apply keeps_dramWrite
    | with_reducible apply keeps_lineGood

theorem keeps_dramPut {W : Nat} {s0 s : State} (a : Nat) (bs : List Byte) (hw : parts [.regs, .mem, .mm] ||| W = W)
    (hk : Keeps W s0 s) :
    Keeps W s0 (State.dramPut s a bs) := by
  unfold State.dramPut
  repeat' first
    | intro _ | with_reducible assumption | exact sub_trans rfl hw | with_reducible apply keeps_each
    | with_reducible apply keeps_dramWrite | with_reducible apply keeps_lineGood | split

theorem keeps_unmapped {W : Nat} {s0 s : State} (agent a n : Nat) (write : Bool) (hw : parts [.regs, .out] ||| W = W)
    (hk : Keeps W s0 s) :
    Keeps W s0 (State.unmapped s agent a n write) := by
  unfold State.unmapped
  repeat' first
    | (extract_lets +onlyGivenNames sv; refine keeps_cut (t := sv) ?_ ?_; subst sv; rotate_left; clear_value sv; revert sv; intro _ _; rotate_left)
    | with_reducible assumption | exact sub_trans rfl hw | with_reducible apply keeps_ite | with_reducible apply keeps_put
    | with_reducible apply keeps_bump | with_reducible apply keeps_emit

theorem keeps_access {W : Nat} {s0 s : State} (agent a : Nat) (write : Bool) (data : List Byte) (n : Nat) (ecc : Ecc)
    (hw : parts [.regs, .mem, .out, .hif, .ras, .mm, .frf, .fw, .sd, .aid, .net, .sec] ||| W = W) (hk : Keeps W s0 s) :
    Keeps W s0 (State.access s agent a write data n ecc) := by
  unfold State.access
  repeat' first
    | exact .inr (sub_trans rfl hw) | with_reducible exact .inl rfl
    | (extract_lets +onlyGivenNames fv; have _ : Bool → Nat → Nat → Nat → State := fv; subst fv)
    | (extract_lets +onlyGivenNames dv; clear_value dv; revert dv; intro _) | with_reducible assumption
    | exact sub_trans rfl hw | with_reducible apply keeps_ite | with_reducible apply keeps_emit
    | with_reducible apply keeps_corrected | with_reducible apply keeps_dramStore | with_reducible apply keeps_dramServe
    | with_reducible apply keeps_unmapped | with_reducible apply keeps_put | split
    | with_reducible refine keeps_memOf ?_ (sub_trans rfl hw) (fun h => Memory.wf_putAll h _ _) ?_ ?_ ?_ ?_ ?_ ?_ ?_ ?_ ?_ ?_ ?_ ?_ ?_ ?_ ?_ ?_ ?_ ?_ ?_ ?_ ?_ ?_

theorem keeps_scrub {W : Nat} {s0 s : State} (a : Nat) (ecc : Ecc)
    (hw : parts [.regs, .mem, .out, .hif, .ras, .mm, .frf, .fw, .sd, .aid, .net, .sec] ||| W = W) (hk : Keeps W s0 s) :
    Keeps W s0 (State.scrub s a ecc) := by
  unfold State.scrub
  repeat' first
    | exact .inr (sub_trans rfl hw) | with_reducible exact .inl rfl
    | (extract_lets +onlyGivenNames sv; refine keeps_cut (t := sv) ?_ ?_; subst sv; rotate_left; clear_value sv; revert sv; intro _ _; rotate_left)
    | (extract_lets +onlyGivenNames dv; clear_value dv; revert dv; intro _) | with_reducible assumption
    | exact sub_trans rfl hw | with_reducible apply keeps_ite | with_reducible apply keeps_bump
    | with_reducible apply keeps_dramServe | split | with_reducible apply keeps_mk

theorem keeps_refresh {W : Nat} {s0 s : State} (temp : Int) (hw : parts [.regs, .mm] ||| W = W) (hk : Keeps W s0 s) :
    Keeps W s0 (State.refresh s temp) := by
  unfold State.refresh
  repeat' first
    | exact .inr (sub_trans rfl hw) | with_reducible exact .inl rfl
    | (extract_lets +onlyGivenNames sv; refine keeps_cut (t := sv) ?_ ?_; subst sv; rotate_left; clear_value sv; revert sv; intro _ _; rotate_left)
    | (extract_lets +onlyGivenNames dv; clear_value dv; revert dv; intro _) | with_reducible assumption
    | exact sub_trans rfl hw | with_reducible apply keeps_put | with_reducible apply keeps_mk

theorem keeps_replaceLost {W : Nat} {s0 s : State} (pc : Nat) (hw : parts [.mem, .sd] ||| W = W) (hk : Keeps W s0 s) :
    Keeps W s0 (State.replaceLost s pc) := by
  unfold State.replaceLost
  repeat' first
    | exact .inr (sub_trans rfl hw) | with_reducible exact .inl rfl
    | (extract_lets +onlyGivenNames sv; refine keeps_cut (t := sv) ?_ ?_; subst sv; rotate_left; clear_value sv; revert sv; intro _ _; rotate_left)
    | (extract_lets +onlyGivenNames dv; clear_value dv; revert dv; intro _) | with_reducible assumption
    | exact sub_trans rfl hw | with_reducible apply keeps_refreshNext
    | with_reducible refine keeps_memOf ?_ (sub_trans rfl hw) (fun h => Memory.wf_filter h _) ?_ ?_ ?_ ?_ ?_ ?_ ?_ ?_ ?_ ?_ ?_ ?_ ?_ ?_ ?_ ?_ ?_ ?_ ?_ ?_ ?_ ?_

theorem keeps_pcFail {W : Nat} {s0 s : State} (pc cond flags : Nat)
    (hw : parts [.regs, .mem, .out, .hif, .ras, .mm, .frf, .fw, .sd, .aid, .net, .sec] ||| W = W) (hk : Keeps W s0 s) :
    Keeps W s0 (State.pcFail s pc cond flags) := by
  unfold State.pcFail
  repeat' first
    | exact .inr (sub_trans rfl hw) | with_reducible exact .inl rfl
    | (extract_lets +onlyGivenNames sv; refine keeps_cut (t := sv) ?_ ?_; subst sv; rotate_left; clear_value sv; revert sv; intro _ _; rotate_left)
    | (extract_lets +onlyGivenNames dv; clear_value dv; revert dv; intro _) | with_reducible assumption
    | exact sub_trans rfl hw | with_reducible apply keeps_ite | with_reducible apply keeps_put
    | with_reducible apply keeps_fatal | with_reducible apply keeps_singlePartFault
    | with_reducible apply keeps_replaceLost | with_reducible apply keeps_degraded
    | with_reducible apply keeps_askCapacity | split | with_reducible apply keeps_mk

theorem keeps_memRgnCommit {W : Nat} {s0 s : State} (req r val : Nat) (hw : parts [.regs, .shadow, .groups] ||| W = W)
    (hk : Keeps W s0 s) :
    Keeps W s0 (State.memRgnCommit s req r val) := by
  unfold State.memRgnCommit
  repeat' first
    | (extract_lets +onlyGivenNames sv; refine keeps_cut (t := sv) ?_ ?_; subst sv; rotate_left; clear_value sv; revert sv; intro _ _; rotate_left)
    | with_reducible assumption | exact sub_trans rfl hw | with_reducible apply keeps_commitNow
    | with_reducible apply keeps_put

theorem keeps_linkDown {W : Nat} {s0 s : State} (link cond flags : Nat)
    (hw : parts [.regs, .out, .hif, .ras, .mm, .frf, .fw, .aid, .net, .sec] ||| W = W) (hk : Keeps W s0 s) :
    Keeps W s0 (State.linkDown s link cond flags) := by
  unfold State.linkDown
  repeat' first
    | exact .inr (sub_trans rfl hw) | with_reducible exact .inl rfl | intro _
    | (extract_lets +onlyGivenNames sv; refine keeps_cut (t := sv) ?_ ?_; subst sv; rotate_left; clear_value sv; revert sv; intro _ _; rotate_left)
    | (extract_lets +onlyGivenNames dv; clear_value dv; revert dv; intro _) | with_reducible assumption
    | exact sub_trans rfl hw | with_reducible apply keeps_ite | with_reducible apply keeps_each
    | with_reducible apply keeps_put | with_reducible apply keeps_fatal | with_reducible apply keeps_singlePartFault
    | with_reducible apply keeps_degraded | with_reducible apply keeps_askCapacity | with_reducible apply keeps_mk

theorem keeps_canalFlit {W : Nat} {s0 s : State} (link : Nat) (crcOk last : Bool)
    (hw : parts [.regs, .out, .hif, .ras, .mm, .frf, .fw, .aid, .net, .sec] ||| W = W) (hk : Keeps W s0 s) :
    Keeps W s0 (State.canalFlit s link crcOk last) := by
  unfold State.canalFlit
  repeat' first
    | exact .inr (sub_trans rfl hw) | with_reducible exact .inl rfl
    | (extract_lets +onlyGivenNames sv; refine keeps_cut (t := sv) ?_ ?_; subst sv; rotate_left; clear_value sv; revert sv; intro _ _; rotate_left)
    | (extract_lets +onlyGivenNames dv; clear_value dv; revert dv; intro _) | with_reducible assumption
    | exact sub_trans rfl hw | with_reducible apply keeps_ite | with_reducible apply keeps_bump
    | with_reducible apply keeps_setReg | with_reducible apply keeps_put | with_reducible apply keeps_corrected
    | with_reducible apply keeps_linkDown | with_reducible apply keeps_mk

theorem keeps_setQueue {W : Nat} {s0 s : State} (q : Nat) (x : SqQueue) (hw : parts [.mm] ||| W = W) (hk : Keeps W s0 s) :
    Keeps W s0 (State.setQueue s q x) := by
  unfold State.setQueue
  repeat' first
    | exact .inr (sub_trans rfl hw) | with_reducible exact .inl rfl | with_reducible assumption
    | with_reducible apply keeps_mk

theorem keeps_sqWrite {W : Nat} {s0 s : State} (q agent : Nat) (mark : Mark) (w : List Byte)
    (hw : parts [.regs, .out, .mm] ||| W = W) (hk : Keeps W s0 s) :
    Keeps W s0 (State.sqWrite s q agent mark w) := by
  unfold State.sqWrite
  repeat' first
    | (extract_lets +onlyGivenNames sv; refine keeps_cut (t := sv) ?_ ?_; subst sv; rotate_left; clear_value sv; revert sv; intro _ _; rotate_left)
    | (extract_lets +onlyGivenNames dv; clear_value dv; revert dv; intro _) | with_reducible assumption
    | exact sub_trans rfl hw | with_reducible apply keeps_ite | with_reducible apply keeps_put
    | with_reducible apply keeps_setQueue | with_reducible apply keeps_emit

theorem keeps_sqFeed {W : Nat} {s0 s : State} (q : Nat) (hw : parts [.out, .mm] ||| W = W) (hk : Keeps W s0 s) :
    Keeps W s0 (State.sqFeed s q) := by
  unfold State.sqFeed
  repeat' first
    | (extract_lets +onlyGivenNames sv; refine keeps_cut (t := sv) ?_ ?_; subst sv; rotate_left; clear_value sv; revert sv; intro _ _; rotate_left)
    | (extract_lets +onlyGivenNames dv; clear_value dv; revert dv; intro _) | with_reducible assumption
    | exact sub_trans rfl hw | with_reducible apply keeps_ite | with_reducible apply keeps_setQueue
    | with_reducible apply keeps_emit

theorem keeps_sqGive {W : Nat} {s0 s : State} (q : Nat) (p : List (List Byte)) (hw : parts [.out, .mm] ||| W = W)
    (hk : Keeps W s0 s) :
    Keeps W s0 (State.sqGive s q p) := by
  unfold State.sqGive
  repeat' first
    | with_reducible assumption | exact sub_trans rfl hw | with_reducible apply keeps_setQueue
    | with_reducible apply keeps_sqFeed

theorem keeps_sqTake {W : Nat} {s0 s : State} (q : Nat) (hw : parts [.out, .mm] ||| W = W) (hk : Keeps W s0 s) :
    Keeps W s0 (State.sqTake s q) := by
  unfold State.sqTake
  repeat' first
    | with_reducible assumption | exact sub_trans rfl hw | with_reducible apply keeps_setQueue
    | with_reducible apply keeps_sqFeed

theorem keeps_give {W : Nat} {s0 s : State} (t : Tab Nat) (i : Nat) (p : List (List Byte))
    (hw : parts [.out, .mm] ||| W = W) (hk : Keeps W s0 s) :
    Keeps W s0 (State.give s t i p) := by
  unfold State.give
  repeat' first | with_reducible assumption | with_reducible apply keeps_sqGive | split

theorem keeps_take {W : Nat} {s0 s : State} (t : Tab Nat) (i : Nat) (p : List (List Byte))
    (hw : parts [.out, .mm] ||| W = W) (hk : Keeps W s0 s) :
    Keeps W s0 (State.take s t i p) := by
  unfold State.take
  repeat' first | with_reducible assumption | with_reducible apply keeps_ite | with_reducible apply keeps_sqTake | split

theorem keeps_sqRead {W : Nat} {s0 s : State} (q agent : Nat) (hw : parts [.out, .mm] ||| W = W) (hk : Keeps W s0 s) :
    Keeps W s0 (State.sqRead s q agent) := by
  unfold State.sqRead
  repeat' first
    | (extract_lets +onlyGivenNames dv; clear_value dv; revert dv; intro _) | with_reducible assumption
    | exact sub_trans rfl hw | with_reducible apply keeps_ite | with_reducible apply keeps_emit
    | with_reducible apply keeps_setQueue | with_reducible apply keeps_sqFeed | split

theorem keeps_sqReset {W : Nat} {s0 s : State} (q : Nat) (cause : ResetCause) (flags : Nat)
    (hw : parts [.regs, .out, .hif, .ras, .mm, .frf, .fw, .aid, .net, .sec] ||| W = W) (hk : Keeps W s0 s) :
    Keeps W s0 (State.sqReset s q cause flags) := by
  unfold State.sqReset
  repeat' first
    | (extract_lets +onlyGivenNames sv; refine keeps_cut (t := sv) ?_ ?_; subst sv; rotate_left; clear_value sv; revert sv; intro _ _; rotate_left)
    | (extract_lets +onlyGivenNames dv; clear_value dv; revert dv; intro _) | with_reducible assumption
    | exact sub_trans rfl hw | with_reducible apply keeps_setQueue | with_reducible apply keeps_put
    | with_reducible apply keeps_bump | with_reducible apply keeps_emit | with_reducible apply keeps_sqFeed
    | with_reducible apply keeps_singlePartFault | split

theorem keeps_sqMirror {W : Nat} {s0 s : State} (hw : parts [.regs] ||| W = W) (hk : Keeps W s0 s) :
    Keeps W s0 (State.sqMirror s) := by
  unfold State.sqMirror
  repeat' first
    | (extract_lets +onlyGivenNames dv; clear_value dv; revert dv; intro _) | with_reducible assumption
    | with_reducible apply keeps_setReg

theorem keeps_sqQCommit {W : Nat} {s0 s : State} (req val : Nat) (hw : parts [.regs, .shadow, .groups, .mm] ||| W = W)
    (hk : Keeps W s0 s) :
    Keeps W s0 (State.sqQCommit s req val) := by
  unfold State.sqQCommit
  repeat' first
    | (extract_lets +onlyGivenNames sv; refine keeps_cut (t := sv) ?_ ?_; subst sv; rotate_left; clear_value sv; revert sv; intro _ _; rotate_left)
    | (extract_lets +onlyGivenNames dv; clear_value dv; revert dv; intro _) | with_reducible assumption
    | exact sub_trans rfl hw | with_reducible apply keeps_ite | with_reducible apply keeps_commitNow
    | with_reducible apply keeps_setQueue

theorem keeps_enableQueue {W : Nat} {s0 s : State} (i prod cons n : Nat) (hw : parts [.mm] ||| W = W) (hk : Keeps W s0 s) :
    Keeps W s0 (State.enableQueue s i prod cons n).1 := by
  unfold State.enableQueue
  repeat' first
    | (extract_lets +onlyGivenNames dv; clear_value dv; revert dv; intro _) | with_reducible assumption
    | with_reducible apply keeps_setQueue | split

theorem keeps_bindQueues {W : Nat} {s0 s : State} (i : Nat) (hw : parts [.mm] ||| W = W) (hk : Keeps W s0 s) :
    Keeps W s0 (State.bindQueues s i) := by
  unfold State.bindQueues
  repeat' first
    | exact .inr (sub_trans rfl hw) | with_reducible exact .inl rfl
    | (extract_lets +onlyGivenNames sv; refine keeps_cut (t := sv) ?_ ?_; subst sv; rotate_left; clear_value sv; revert sv; intro _ _; rotate_left)
    | (extract_lets +onlyGivenNames sv; refine keeps_cut (t := sv.1) ?_ ?_; subst sv; rotate_left; clear_value sv; revert sv; intro _ _; rotate_left)
    | (extract_lets +onlyGivenNames dv; clear_value dv; revert dv; intro _) | with_reducible assumption
    | with_reducible apply keeps_enableQueue | split | with_reducible apply keeps_mk

/-! ### Machine/Journal.lean -/

theorem keeps_setStream {W : Nat} {s0 s : State} (i : Nat) (x : StreamSt) (hw : parts [.hg] ||| W = W) (hk : Keeps W s0 s) :
    Keeps W s0 (State.setStream s i x) := by
  unfold State.setStream
  repeat' first
    | exact .inr (sub_trans rfl hw) | with_reducible exact .inl rfl | with_reducible assumption
    | with_reducible apply keeps_mk

theorem keeps_jrnShow {W : Nat} {s0 s : State} (hw : parts [.regs] ||| W = W) (hk : Keeps W s0 s) :
    Keeps W s0 (State.jrnShow s) := by
  unfold State.jrnShow
  repeat' first | with_reducible assumption | with_reducible apply keeps_put

theorem keeps_setRel {W : Nat} {s0 s : State} (g : Nat) (x : Rel) (hw : parts [.ras] ||| W = W) (hk : Keeps W s0 s) :
    Keeps W s0 (State.setRel s g x) := by
  unfold State.setRel
  repeat' first
    | exact .inr (sub_trans rfl hw) | with_reducible exact .inl rfl | with_reducible assumption
    | with_reducible apply keeps_mk

theorem keeps_releaseStream {W : Nat} {s0 s : State} (i : Nat) (hw : parts [.regs, .out, .hg, .frf, .net] ||| W = W)
    (hk : Keeps W s0 s) :
    Keeps W s0 (State.releaseStream s i) := by
  unfold State.releaseStream
  repeat' first
    | exact .inr (sub_trans rfl hw) | with_reducible exact .inl rfl
    | (extract_lets +onlyGivenNames sv; refine keeps_cut (t := sv) ?_ ?_; subst sv; rotate_left; clear_value sv; revert sv; intro _ _; rotate_left)
    | (extract_lets +onlyGivenNames dv; clear_value dv; revert dv; intro _) | with_reducible assumption
    | exact sub_trans rfl hw | with_reducible apply keeps_ite | with_reducible apply keeps_jrnShow
    | with_reducible apply keeps_toBuddy | with_reducible apply keeps_mk

theorem keeps_releaseGroup {W : Nat} {s0 s : State} (g : Nat) (hw : parts [.regs, .out, .hg, .frf, .net] ||| W = W)
    (hk : Keeps W s0 s) :
    Keeps W s0 (State.releaseGroup s g) := by
  unfold State.releaseGroup
  repeat' first
    | intro _ | with_reducible assumption | with_reducible apply keeps_each | with_reducible apply keeps_releaseStream

theorem keeps_dropRetained {W : Nat} {s0 s : State} (g : Nat) (hw : parts [.cp] ||| W = W) (hk : Keeps W s0 s) :
    Keeps W s0 (State.dropRetained s g) := by
  unfold State.dropRetained
  repeat' first
    | exact .inr (sub_trans rfl hw) | with_reducible exact .inl rfl | with_reducible assumption | split
    | with_reducible apply keeps_mk

theorem keeps_pushViews {W : Nat} {s0 s : State} (g : Nat) (hw : parts [.hif, .cp] ||| W = W) (hk : Keeps W s0 s) :
    Keeps W s0 (State.pushViews s g) := by
  unfold State.pushViews
  repeat' first
    | exact .inr (sub_trans rfl hw) | with_reducible exact .inl rfl | intro _
    | (extract_lets +onlyGivenNames sv; refine keeps_cut (t := sv) ?_ ?_; subst sv; rotate_left; clear_value sv; revert sv; intro _ _; rotate_left)
    | (extract_lets +onlyGivenNames dv; clear_value dv; revert dv; intro _) | with_reducible assumption
    | exact sub_trans rfl hw | with_reducible apply keeps_each | with_reducible apply keeps_pushRun
    | with_reducible apply keeps_mk

theorem keeps_delivered {W : Nat} {s0 s : State} (g k : Nat) (hw : parts [.hif, .ras, .cp] ||| W = W) (hk : Keeps W s0 s) :
    Keeps W s0 (State.delivered s g k) := by
  unfold State.delivered
  repeat' first
    | with_reducible assumption | exact sub_trans rfl hw | with_reducible apply keeps_setRel
    | with_reducible apply keeps_dropRetained | with_reducible apply keeps_pushViews

theorem keeps_consumed {W : Nat} {s0 s : State} (k : RunKind) (hw : parts [.regs, .out, .ras, .hg, .frf, .net] ||| W = W)
    (hk : Keeps W s0 s) :
    Keeps W s0 (State.consumed s k) := by
  unfold State.consumed
  repeat' first
    | with_reducible assumption | exact sub_trans rfl hw | with_reducible apply keeps_ite
    | with_reducible apply keeps_setRel | with_reducible apply keeps_releaseGroup | with_reducible apply keeps_setStream
    | split

/-! ### Machine/Hif.lean -/

theorem keeps_takeConsumer {W : Nat} {s0 s : State} (r c : Nat)
    (hw : parts [.regs, .out, .hif, .ras, .hg, .frf, .net] ||| W = W) (hk : Keeps W s0 s) :
    Keeps W s0 (State.takeConsumer s r c) := by
  unfold State.takeConsumer
  repeat' first
    | intro _
    | (extract_lets +onlyGivenNames sv; refine keeps_cut (t := sv) ?_ ?_; subst sv; rotate_left; clear_value sv; revert sv; intro _ _; rotate_left)
    | (extract_lets +onlyGivenNames dv; clear_value dv; revert dv; intro _) | with_reducible assumption
    | exact sub_trans rfl hw | with_reducible apply keeps_each | with_reducible apply keeps_setRing
    | with_reducible apply keeps_consumed | with_reducible apply keeps_arm | split

theorem keeps_recordAt {W : Nat} {s0 s : State} (issued : Ring → Nat) (r rec' : Nat)
    (hw : parts [.regs, .out, .hif, .ras, .hg, .frf, .net] ||| W = W) (hk : Keeps W s0 s) :
    Keeps W s0 (State.recordAt s issued r rec') := by
  unfold State.recordAt
  repeat' first
    | (extract_lets +onlyGivenNames sv; refine keeps_cut (t := sv) ?_ ?_; subst sv; rotate_left; clear_value sv; revert sv; intro _ _; rotate_left)
    | (extract_lets +onlyGivenNames dv; clear_value dv; revert dv; intro _) | with_reducible assumption
    | exact sub_trans rfl hw | with_reducible apply keeps_ite | with_reducible apply keeps_bump
    | with_reducible apply keeps_put | with_reducible apply keeps_health | with_reducible apply keeps_setRing
    | with_reducible apply keeps_takeConsumer | split

theorem keeps_doorbell {W : Nat} {s0 s : State} (r rec' : Nat)
    (hw : parts [.regs, .out, .hif, .ras, .hg, .frf, .net] ||| W = W) (hk : Keeps W s0 s) :
    Keeps W s0 (State.doorbell s r rec') := by
  unfold State.doorbell
  repeat' first | with_reducible assumption | with_reducible apply keeps_recordAt

theorem keeps_doorbellLine {W : Nat} {s0 s : State} (block : Nat) (l : List Nat) (i : Nat)
    (hw : parts [.regs, .out, .hif, .ras, .hg, .frf, .net] ||| W = W)
 (hk : Keeps W s0 s) : Keeps W s0 (s.doorbellLine block l i) := by
  induction l generalizing s i with
  | nil => exact hk
  | cons w r ih => exact ih _ (keeps_doorbell _ _ (sub_trans rfl hw) hk)

theorem keeps_xlateFault {W : Nat} {s0 s : State} (r : Nat)
    (hw : parts [.regs, .out, .hif, .ras, .frf, .fw, .aid, .net, .sec] ||| W = W) (hk : Keeps W s0 s) :
    Keeps W s0 (State.xlateFault s r) := by
  unfold State.xlateFault
  repeat' first
    | with_reducible assumption | exact sub_trans rfl hw | with_reducible apply keeps_put
    | with_reducible apply keeps_errRecord

theorem keeps_holdLine {W : Nat} {s0 s : State} (block : Nat) (recs : List Nat) (hw : parts [.hif] ||| W = W)
    (hk : Keeps W s0 s) :
    Keeps W s0 (State.holdLine s block recs) := by
  unfold State.holdLine
  repeat' first
    | exact .inr (sub_trans rfl hw) | with_reducible exact .inl rfl | with_reducible assumption
    | with_reducible apply keeps_ite | with_reducible apply keeps_mk

theorem keeps_readLine {W : Nat} {s0 s : State} (block : Nat) (recs : List Nat) (xlate : Bool)
    (hw : parts [.regs, .out, .hif, .ras, .hg, .frf, .fw, .aid, .net, .sec] ||| W = W) (hk : Keeps W s0 s) :
    Keeps W s0 (State.readLine s block recs xlate) := by
  unfold State.readLine
  repeat' first
    | with_reducible assumption | exact sub_trans rfl hw | with_reducible apply keeps_ite
    | with_reducible apply keeps_xlateFault | with_reducible apply keeps_holdLine
    | with_reducible apply keeps_doorbellLine

theorem keeps_nudgeWrite {W : Nat} {s0 s : State} (fn off : Nat) (recs : List Nat)
    (hw : parts [.regs, .out, .hif, .ras, .hg, .frf, .fw, .aid, .net, .sec] ||| W = W) (hk : Keeps W s0 s) :
    Keeps W s0 (State.nudgeWrite s fn off recs) := by
  unfold State.nudgeWrite
  repeat' first
    | (extract_lets +onlyGivenNames sv; refine keeps_cut (t := sv) ?_ ?_; subst sv; rotate_left; clear_value sv; revert sv; intro _ _; rotate_left)
    | (extract_lets +onlyGivenNames dv; clear_value dv; revert dv; intro _) | with_reducible assumption
    | exact sub_trans rfl hw | with_reducible apply keeps_ite | with_reducible apply keeps_bump
    | with_reducible apply keeps_readLine

theorem keeps_raiseVector {W : Nat} {s0 s : State} (fn vec : Nat) (hw : parts [.out, .hif] ||| W = W) (hk : Keeps W s0 s) :
    Keeps W s0 (State.raiseVector s fn vec) := by
  unfold State.raiseVector
  repeat' first
    | exact .inr (sub_trans rfl hw) | with_reducible exact .inl rfl | with_reducible assumption | exact sub_trans rfl hw
    | with_reducible apply keeps_ite | with_reducible apply keeps_emit | with_reducible apply keeps_mk

theorem keeps_ringInterrupt {W : Nat} {s0 s : State} (r : Nat) (hw : parts [.out, .hif] ||| W = W) (hk : Keeps W s0 s) :
    Keeps W s0 (State.ringInterrupt s r) := by
  unfold State.ringInterrupt
  repeat' first
    | with_reducible assumption | exact sub_trans rfl hw | with_reducible apply keeps_setRing
    | with_reducible apply keeps_raiseVector | split

theorem keeps_runShown {W : Nat} {s0 s : State} (r : Nat) (x : Ring) (run : Run) (rest : List Run)
    (hw : parts [.out, .hif, .ras, .cp] ||| W = W) (hk : Keeps W s0 s) :
    Keeps W s0 (State.runShown s r x run rest) := by
  unfold State.runShown
  repeat' first
    | (extract_lets +onlyGivenNames sv; refine keeps_cut (t := sv) ?_ ?_; subst sv; rotate_left; clear_value sv; revert sv; intro _ _; rotate_left)
    | (extract_lets +onlyGivenNames dv; clear_value dv; revert dv; intro _) | with_reducible assumption
    | exact sub_trans rfl hw | with_reducible apply keeps_ite | with_reducible apply keeps_setRing
    | with_reducible apply keeps_arm | with_reducible apply keeps_delivered | with_reducible apply keeps_ringInterrupt
    | split

theorem keeps_writeRun {W : Nat} {s0 s : State} (r : Nat) (x : Ring) (run : Run) (rest : List Run)
    (hw : parts [.out, .hif, .ras, .cp] ||| W = W) (hk : Keeps W s0 s) :
    Keeps W s0 (State.writeRun s r x run rest) := by
  unfold State.writeRun
  repeat' first
    | with_reducible assumption | exact sub_trans rfl hw | with_reducible apply keeps_emitAll
    | with_reducible apply keeps_runShown

theorem keeps_runWrite {W : Nat} {s0 s : State} (r : Nat) (xlate : Bool)
    (hw : parts [.regs, .out, .hif, .ras, .frf, .fw, .cp, .aid, .net, .sec] ||| W = W) (hk : Keeps W s0 s) :
    Keeps W s0 (State.runWrite s r xlate) := by
  unfold State.runWrite
  repeat' first
    | (extract_lets +onlyGivenNames fv; have _ : State → State := fv; subst fv) | with_reducible assumption
    | exact sub_trans rfl hw | with_reducible apply keeps_ite | with_reducible apply keeps_setRing
    | with_reducible apply keeps_beginSusp | with_reducible apply keeps_xlateFault | with_reducible apply keeps_writeRun
    | split

theorem keeps_coalesced {W : Nat} {s0 s : State} (r : Nat) (hw : parts [.time, .out, .hif] ||| W = W) (hk : Keeps W s0 s) :
    Keeps W s0 (State.coalesced s r) := by
  unfold State.coalesced
  repeat' first
    | with_reducible assumption | exact sub_trans rfl hw | with_reducible apply keeps_at
    | with_reducible apply keeps_ringInterrupt | split

theorem keeps_msixMask {W : Nat} {s0 s : State} (fn vec : Nat) (masked : Bool) (hw : parts [.out, .hif] ||| W = W)
    (hk : Keeps W s0 s) :
    Keeps W s0 (State.msixMask s fn vec masked) := by
  unfold State.msixMask
  repeat' first
    | exact .inr (sub_trans rfl hw) | with_reducible exact .inl rfl
    | (extract_lets +onlyGivenNames sv; refine keeps_cut (t := sv) ?_ ?_; subst sv; rotate_left; clear_value sv; revert sv; intro _ _; rotate_left)
    | (extract_lets +onlyGivenNames dv; clear_value dv; revert dv; intro _) | with_reducible assumption
    | exact sub_trans rfl hw | with_reducible apply keeps_ite | with_reducible apply keeps_emit
    | with_reducible apply keeps_mk

theorem keeps_linkTrained {W : Nat} {s0 s : State} (speed width before : Nat) (hw : parts [.regs, .aid] ||| W = W)
    (hk : Keeps W s0 s) :
    Keeps W s0 (State.linkTrained s speed width before) := by
  unfold State.linkTrained
  repeat' first
    | exact .inr (sub_trans rfl hw) | with_reducible exact .inl rfl
    | (extract_lets +onlyGivenNames sv; refine keeps_cut (t := sv) ?_ ?_; subst sv; rotate_left; clear_value sv; revert sv; intro _ _; rotate_left)
    | (extract_lets +onlyGivenNames dv; clear_value dv; revert dv; intro _) | with_reducible assumption
    | exact sub_trans rfl hw | with_reducible apply keeps_ite | with_reducible apply keeps_put
    | with_reducible apply keeps_mk

theorem keeps_hifFnCommit {W : Nat} {s0 s : State} (req f val : Nat) (hw : parts [.regs, .shadow, .groups] ||| W = W)
    (hk : Keeps W s0 s) :
    Keeps W s0 (State.hifFnCommit s req f val) := by
  unfold State.hifFnCommit
  repeat' first | with_reducible assumption | with_reducible apply keeps_commitNow

theorem keeps_advanceEpoch {W : Nat} {s0 s : State} (r : Nat) (hw : parts [.hif] ||| W = W) (hk : Keeps W s0 s) :
    Keeps W s0 (State.advanceEpoch s r) := by
  unfold State.advanceEpoch
  repeat' first
    | exact .inr (sub_trans rfl hw) | with_reducible exact .inl rfl | with_reducible assumption
    | with_reducible apply keeps_mk

theorem keeps_showHosted {W : Nat} {s0 s : State} (hw : parts [.regs] ||| W = W) (hk : Keeps W s0 s) :
    Keeps W s0 (State.showHosted s) := by
  unfold State.showHosted
  repeat' first | with_reducible assumption | with_reducible apply keeps_put

theorem keeps_hifAdmCommit {W : Nat} {s0 s : State} (req f val : Nat)
    (hw : parts [.regs, .shadow, .groups, .hif, .aid] ||| W = W) (hk : Keeps W s0 s) :
    Keeps W s0 (State.hifAdmCommit s req f val) := by
  unfold State.hifAdmCommit
  repeat' first
    | (extract_lets +onlyGivenNames sv; refine keeps_cut (t := sv) ?_ ?_; subst sv; rotate_left; clear_value sv; revert sv; intro _ _; rotate_left)
    | (extract_lets +onlyGivenNames dv; clear_value dv; revert dv; intro _) | with_reducible assumption
    | exact sub_trans rfl hw | with_reducible apply keeps_ite | with_reducible apply keeps_commitNow
    | with_reducible apply keeps_advanceEpoch | with_reducible apply keeps_setRing | with_reducible apply keeps_showHosted
    | with_reducible apply keeps_put

/-! ### Machine/Export.lean -/

theorem keeps_setExpq {W : Nat} {s0 s : State} (q : Nat) (x : ExpQ) (hw : parts [.net] ||| W = W) (hk : Keeps W s0 s) :
    Keeps W s0 (State.setExpq s q x) := by
  unfold State.setExpq
  repeat' first
    | exact .inr (sub_trans rfl hw) | with_reducible exact .inl rfl | with_reducible assumption
    | with_reducible apply keeps_mk

theorem keeps_queue7 {W : Nat} {s0 s : State} (p : Nat) (f : TxFrame) (hw : parts [.net] ||| W = W) (hk : Keeps W s0 s) :
    Keeps W s0 (State.queue7 s p f) := by
  unfold State.queue7
  repeat' first
    | exact .inr (sub_trans rfl hw) | with_reducible exact .inl rfl | with_reducible assumption
    | with_reducible apply keeps_mk

theorem keeps_placeRun {W : Nat} {s0 s : State} (q k : Nat) (entries : List (List Byte)) (hw : parts [.net] ||| W = W)
    (hk : Keeps W s0 s) :
    Keeps W s0 (State.placeRun s q k entries) := by
  unfold State.placeRun
  repeat' first
    | intro _
    | (extract_lets +onlyGivenNames sv; refine keeps_cut (t := sv) ?_ ?_; subst sv; rotate_left; clear_value sv; revert sv; intro _ _; rotate_left)
    | (extract_lets +onlyGivenNames dv; clear_value dv; revert dv; intro _) | with_reducible assumption
    | with_reducible apply keeps_each | with_reducible apply keeps_setExpq | with_reducible apply keeps_queue7

theorem keeps_ringSpace {W : Nat} {s0 s : State} (streams : Nat) (space : Bool) (hw : parts [.regs, .hif, .ras] ||| W = W)
    (hk : Keeps W s0 s) :
    Keeps W s0 (State.ringSpace s streams space) := by
  unfold State.ringSpace
  repeat' first
    | exact .inr (sub_trans rfl hw) | with_reducible exact .inl rfl
    | (extract_lets +onlyGivenNames sv; refine keeps_cut (t := sv) ?_ ?_; subst sv; rotate_left; clear_value sv; revert sv; intro _ _; rotate_left)
    | (extract_lets +onlyGivenNames dv; clear_value dv; revert dv; intro _) | with_reducible assumption
    | with_reducible apply keeps_ite | with_reducible apply keeps_endSusp | with_reducible apply keeps_beginSusp
    | with_reducible apply keeps_mk

theorem keeps_mirrorRun {W : Nat} {s0 s : State} (g k : Nat) (entries : List (List Byte))
    (hw : parts [.out, .frf, .net] ||| W = W) (hk : Keeps W s0 s) :
    Keeps W s0 (State.mirrorRun s g k entries) := by
  unfold State.mirrorRun
  repeat' first
    | intro _ | (extract_lets +onlyGivenNames dv; clear_value dv; revert dv; intro _) | with_reducible assumption
    | with_reducible apply keeps_ite | with_reducible apply keeps_each | with_reducible apply keeps_toBuddy

theorem keeps_deliver {W : Nat} {s0 s : State} (g k : Nat) (entries : List (List Byte))
    (hw : parts [.out, .hif, .frf, .net] ||| W = W) (hk : Keeps W s0 s) :
    Keeps W s0 (State.deliver s g k entries) := by
  unfold State.deliver
  repeat' first
    | (extract_lets +onlyGivenNames sv; refine keeps_cut (t := sv) ?_ ?_; subst sv; rotate_left; clear_value sv; revert sv; intro _ _; rotate_left)
    | (extract_lets +onlyGivenNames dv; clear_value dv; revert dv; intro _) | with_reducible assumption
    | exact sub_trans rfl hw | with_reducible apply keeps_ite | with_reducible apply keeps_mirrorRun
    | with_reducible apply keeps_placeRun | with_reducible apply keeps_setExpq | with_reducible apply keeps_pushRun
    | split

theorem keeps_placeWaiting {W : Nat} {s0 s : State} (q : Nat) (hw : parts [.net] ||| W = W) (hk : Keeps W s0 s) :
    Keeps W s0 (State.placeWaiting s q) := by
  unfold State.placeWaiting
  repeat' first
    | intro _ | (extract_lets +onlyGivenNames dv; clear_value dv; revert dv; intro _) | with_reducible assumption
    | with_reducible apply keeps_each | with_reducible apply keeps_setExpq | with_reducible apply keeps_placeRun

theorem keeps_gramSent {W : Nat} {s0 s : State} (q seq : Nat)
    (hw : parts [.regs, .out, .hif, .ras, .hg, .frf, .cp, .net] ||| W = W) (hk : Keeps W s0 s) :
    Keeps W s0 (State.gramSent s q seq) := by
  unfold State.gramSent
  repeat' first
    | (extract_lets +onlyGivenNames sv; refine keeps_cut (t := sv) ?_ ?_; subst sv; rotate_left; clear_value sv; revert sv; intro _ _; rotate_left)
    | (extract_lets +onlyGivenNames dv; clear_value dv; revert dv; intro _) | with_reducible assumption
    | exact sub_trans rfl hw | with_reducible apply keeps_ite | with_reducible apply keeps_setExpq
    | with_reducible apply keeps_put | with_reducible apply keeps_bump | with_reducible apply keeps_delivered
    | with_reducible apply keeps_consumed | split

theorem keeps_resend {W : Nat} {s0 s : State} (q : Nat) (hw : parts [.net] ||| W = W) (hk : Keeps W s0 s) :
    Keeps W s0 (State.resend s q) := by
  unfold State.resend
  repeat' first
    | exact .inr (sub_trans rfl hw) | with_reducible exact .inl rfl | intro _
    | (extract_lets +onlyGivenNames sv; refine keeps_cut (t := sv) ?_ ?_; subst sv; rotate_left; clear_value sv; revert sv; intro _ _; rotate_left)
    | (extract_lets +onlyGivenNames dv; clear_value dv; revert dv; intro _) | with_reducible assumption
    | with_reducible apply keeps_each | with_reducible apply keeps_setExpq | with_reducible apply keeps_queue7
    | with_reducible apply keeps_mk

theorem keeps_reroute {W : Nat} {s0 s : State} (q : Nat) (hw : parts [.regs, .hif, .ras, .net] ||| W = W)
    (hk : Keeps W s0 s) :
    Keeps W s0 (State.reroute s q) := by
  unfold State.reroute
  repeat' first
    | (extract_lets +onlyGivenNames sv; refine keeps_cut (t := sv) ?_ ?_; subst sv; rotate_left; clear_value sv; revert sv; intro _ _; rotate_left)
    | (extract_lets +onlyGivenNames dv; clear_value dv; revert dv; intro _) | with_reducible assumption
    | exact sub_trans rfl hw | with_reducible apply keeps_ite | with_reducible apply keeps_put
    | with_reducible apply keeps_ringSpace | with_reducible apply keeps_resend | with_reducible apply keeps_placeWaiting

/-! ### Machine/Mailbox.lean -/

theorem keeps_setBox {W : Nat} {s0 s : State} (m : Nat) (b : Mbx) (hw : parts [.mbx] ||| W = W) (hk : Keeps W s0 s) :
    Keeps W s0 (State.setBox s m b) := by
  unfold State.setBox
  repeat' first
    | exact .inr (sub_trans rfl hw) | with_reducible exact .inl rfl | with_reducible assumption
    | with_reducible apply keeps_mk

theorem keeps_mbxInterrupt {W : Nat} {s0 s : State} (m : Nat) (e : Bool) (hw : parts [.out, .hif] ||| W = W)
    (hk : Keeps W s0 s) :
    Keeps W s0 (State.mbxInterrupt s m e) := by
  unfold State.mbxInterrupt
  repeat' first
    | (extract_lets +onlyGivenNames dv; clear_value dv; revert dv; intro _) | with_reducible assumption
    | exact sub_trans rfl hw | with_reducible apply keeps_ite | with_reducible apply keeps_raiseVector
    | with_reducible apply keeps_emit

theorem keeps_foreign {W : Nat} {s0 s : State} (hw : parts [.regs] ||| W = W) (hk : Keeps W s0 s) :
    Keeps W s0 (State.foreign s) := by
  unfold State.foreign
  repeat' first | with_reducible assumption | with_reducible apply keeps_put

theorem keeps_resetBox {W : Nat} {s0 s : State} (m : Nat) (hw : parts [.mbx] ||| W = W) (hk : Keeps W s0 s) :
    Keeps W s0 (State.resetBox s m) := by
  unfold State.resetBox
  repeat' first
    | (extract_lets +onlyGivenNames dv; clear_value dv; revert dv; intro _) | with_reducible assumption
    | with_reducible apply keeps_setBox

theorem keeps_dropClaims {W : Nat} {s0 s : State} (req : Nat) (hw : parts [.shadow, .groups] ||| W = W)
    (hk : Keeps W s0 s) :
    Keeps W s0 (State.dropClaims s req) := by
  unfold State.dropClaims
  repeat' first
    | intro _ | with_reducible assumption | exact sub_trans rfl hw | with_reducible apply keeps_each
    | with_reducible apply keeps_reloadShadow | with_reducible apply keeps_endClaim

theorem keeps_endReset {W : Nat} {s0 s : State} (req : Nat)
    (hw : parts [.regs, .shadow, .groups, .out, .hif, .mbx] ||| W = W) (hk : Keeps W s0 s) :
    Keeps W s0 (State.endReset s req) := by
  unfold State.endReset
  repeat' first
    | intro _
    | (extract_lets +onlyGivenNames sv; refine keeps_cut (t := sv) ?_ ?_; subst sv; rotate_left; clear_value sv; revert sv; intro _ _; rotate_left)
    | with_reducible assumption | exact sub_trans rfl hw | with_reducible apply keeps_ite
    | with_reducible apply keeps_each | with_reducible apply keeps_dropClaims | with_reducible apply keeps_setBox
    | with_reducible apply keeps_mbxInterrupt | with_reducible apply keeps_put | split

theorem keeps_mbxCfg {W : Nat} {s0 s : State} (req m val : Nat) (hw : parts [.regs, .mbx] ||| W = W) (hk : Keeps W s0 s) :
    Keeps W s0 (State.mbxCfg s req m val) := by
  unfold State.mbxCfg
  repeat' first
    | (extract_lets +onlyGivenNames dv; clear_value dv; revert dv; intro _) | with_reducible assumption
    | exact sub_trans rfl hw | with_reducible apply keeps_ite | with_reducible apply keeps_sysErr
    | with_reducible apply keeps_put | with_reducible apply keeps_resetBox | with_reducible apply keeps_setReg

theorem keeps_withEnd {W : Nat} {s0 s : State} (req m : Nat) (f : Bool → State) (hw : parts [.regs] ||| W = W)
    (hk : Keeps W s0 s)
    (hf : ∀ e, Keeps W s0 (f e)) : Keeps W s0 (s.withEnd req m f) := by
  unfold State.withEnd
  split
  · exact keeps_ite (hf _) hk
  · exact keeps_foreign (sub_trans rfl hw) hk

theorem keeps_mbxSend {W : Nat} {s0 s : State} (req m val : Nat) (hw : parts [.regs, .mbx] ||| W = W) (hk : Keeps W s0 s) :
    Keeps W s0 (State.mbxSend s req m val) := by
  unfold State.mbxSend
  repeat' first
    | intro _ | (extract_lets +onlyGivenNames dv; clear_value dv; revert dv; intro _) | with_reducible assumption
    | exact sub_trans rfl hw | with_reducible apply keeps_ite | with_reducible apply keeps_withEnd
    | with_reducible apply keeps_setBox

theorem keeps_received {W : Nat} {s0 s : State} (m core w : Nat) (hw : parts [.aid] ||| W = W) (hk : Keeps W s0 s) :
    Keeps W s0 (State.received s m core w) := by
  unfold State.received
  repeat' first
    | exact .inr (sub_trans rfl hw) | with_reducible exact .inl rfl | with_reducible assumption | split
    | with_reducible apply keeps_mk

theorem keeps_mbxRecv {W : Nat} {s0 s : State} (req m : Nat) (hw : parts [.regs, .out, .aid, .mbx] ||| W = W)
    (hk : Keeps W s0 s) :
    Keeps W s0 (State.mbxRecv s req m) := by
  unfold State.mbxRecv
  repeat' first
    | (extract_lets +onlyGivenNames dv; clear_value dv; revert dv; intro _) | with_reducible assumption
    | exact sub_trans rfl hw | with_reducible apply keeps_ite | with_reducible apply keeps_foreign
    | with_reducible apply keeps_emit | with_reducible apply keeps_setBox | with_reducible apply keeps_received | split

theorem keeps_mbxRing {W : Nat} {s0 s : State} (req m val : Nat) (hw : parts [.regs, .out, .hif, .mbx] ||| W = W)
    (hk : Keeps W s0 s) :
    Keeps W s0 (State.mbxRing s req m val) := by
  unfold State.mbxRing
  repeat' first
    | exact .inr (sub_trans rfl hw) | with_reducible exact .inl rfl | intro _
    | (extract_lets +onlyGivenNames sv; refine keeps_cut (t := sv) ?_ ?_; subst sv; rotate_left; clear_value sv; revert sv; intro _ _; rotate_left)
    | (extract_lets +onlyGivenNames dv; clear_value dv; revert dv; intro _) | with_reducible assumption
    | exact sub_trans rfl hw | with_reducible apply keeps_ite | with_reducible apply keeps_withEnd
    | with_reducible apply keeps_setBox | with_reducible apply keeps_mbxInterrupt | with_reducible apply keeps_mk

theorem keeps_mbxWrite {W : Nat} {s0 s : State} (req m k val : Nat) (hw : parts [.regs, .out, .hif, .mbx] ||| W = W)
    (hk : Keeps W s0 s) :
    Keeps W s0 (State.mbxWrite s req m k val) := by
  unfold State.mbxWrite
  repeat' first
    | intro _
    | (extract_lets +onlyGivenNames sv; refine keeps_cut (t := sv) ?_ ?_; subst sv; rotate_left; clear_value sv; revert sv; intro _ _; rotate_left)
    | (extract_lets +onlyGivenNames dv; clear_value dv; revert dv; intro _) | with_reducible assumption
    | exact sub_trans rfl hw | with_reducible apply keeps_ite | with_reducible apply keeps_withEnd
    | with_reducible apply keeps_setBox | with_reducible apply keeps_mbxInterrupt

theorem keeps_sendNote {W : Nat} {s0 s : State} (n : Note) (source : Nat) (hw : parts [.regs, .mbx] ||| W = W)
    (hk : Keeps W s0 s) :
    Keeps W s0 (State.sendNote s n source) := by
  unfold State.sendNote
  repeat' first
    | (extract_lets +onlyGivenNames dv; clear_value dv; revert dv; intro _) | with_reducible assumption
    | with_reducible apply keeps_ite | with_reducible apply keeps_mbxSend | split

theorem keeps_pass {W : Nat} {s0 s : State} (ring seq source dest : Nat) (hw : parts [.regs, .aid, .mbx] ||| W = W)
    (hk : Keeps W s0 s) :
    Keeps W s0 (State.pass s ring seq source dest) := by
  unfold State.pass
  repeat' first
    | exact .inr (sub_trans rfl hw) | with_reducible exact .inl rfl
    | (extract_lets +onlyGivenNames dv; clear_value dv; revert dv; intro _) | with_reducible assumption
    | exact sub_trans rfl hw | with_reducible apply keeps_ite | with_reducible apply keeps_sendNote | split
    | with_reducible apply keeps_mk

theorem keeps_takeNote {W : Nat} {s0 s : State} (ring seq : Nat) (hw : parts [.aid, .mbx] ||| W = W) (hk : Keeps W s0 s) :
    Keeps W s0 (State.takeNote s ring seq) := by
  unfold State.takeNote
  repeat' first
    | exact .inr (sub_trans rfl hw) | with_reducible exact .inl rfl
    | (extract_lets +onlyGivenNames sv; refine keeps_cut (t := sv) ?_ ?_; subst sv; rotate_left; clear_value sv; revert sv; intro _ _; rotate_left)
    | (extract_lets +onlyGivenNames dv; clear_value dv; revert dv; intro _) | with_reducible assumption
    | exact sub_trans rfl hw | with_reducible apply keeps_setBox | split | with_reducible apply keeps_mk

theorem keeps_bindBoxes {W : Nat} {s0 s : State} (hw : parts [.regs] ||| W = W) (hk : Keeps W s0 s) :
    Keeps W s0 (State.bindBoxes s) := by
  unfold State.bindBoxes
  repeat' first | intro _ | with_reducible assumption | with_reducible apply keeps_each | with_reducible apply keeps_put

theorem keeps_readyEnds {W : Nat} {s0 s : State} (core : Nat) (hw : parts [.mbx] ||| W = W) (hk : Keeps W s0 s) :
    Keeps W s0 (State.readyEnds s core) := by
  unfold State.readyEnds
  repeat' first
    | intro _
    | (extract_lets +onlyGivenNames sv; refine keeps_cut (t := sv) ?_ ?_; subst sv; rotate_left; clear_value sv; revert sv; intro _ _; rotate_left)
    | (extract_lets +onlyGivenNames dv; clear_value dv; revert dv; intro _) | with_reducible assumption
    | with_reducible apply keeps_ite | with_reducible apply keeps_each | with_reducible apply keeps_setBox

theorem keeps_lockRead {W : Nat} {s0 s : State} (req l : Nat) (hw : parts [.regs, .out] ||| W = W) (hk : Keeps W s0 s) :
    Keeps W s0 (State.lockRead s req l) := by
  unfold State.lockRead
  repeat' first
    | (extract_lets +onlyGivenNames sv; refine keeps_cut (t := sv) ?_ ?_; subst sv; rotate_left; clear_value sv; revert sv; intro _ _; rotate_left)
    | (extract_lets +onlyGivenNames dv; clear_value dv; revert dv; intro _) | with_reducible assumption
    | exact sub_trans rfl hw | with_reducible apply keeps_ite | with_reducible apply keeps_put
    | with_reducible apply keeps_emit

theorem keeps_lockWrite {W : Nat} {s0 s : State} (req l val : Nat) (hw : parts [.regs] ||| W = W) (hk : Keeps W s0 s) :
    Keeps W s0 (State.lockWrite s req l val) := by
  unfold State.lockWrite
  repeat' first | with_reducible assumption | with_reducible apply keeps_ite | with_reducible apply keeps_put

theorem keeps_lockForce {W : Nat} {s0 s : State} (req val : Nat) (hw : parts [.regs] ||| W = W) (hk : Keeps W s0 s) :
    Keeps W s0 (State.lockForce s req val) := by
  unfold State.lockForce
  repeat' first
    | with_reducible assumption | with_reducible apply keeps_ite | with_reducible apply keeps_put
    | with_reducible apply keeps_sysErr

end Sys2Proof.Machine
end

