-- ==== Sys2Proof/Laws/KeepsUnits.lean ====
section
/-!
SUPPORT. Every operation of the frontend filter, the furrow, the headgate, the stand, the coppice, the network and the time base keeps what no command changes
and changes the named parts alone (`Keeps`, Safety): one lemma per operation, proved through those of the operations it calls.
-/

namespace Sys2Proof.Machine

/-! ### Machine/Frf.lean -/

theorem keeps_setChan {W : Nat} {s0 s : State} (c : Nat) (x : FrfChan) (hw : parts [.frf] ||| W = W) (hk : Keeps W s0 s) :
    Keeps W s0 (State.setChan s c x) := by
  unfold State.setChan
  repeat' first
    | exact .inr (sub_trans rfl hw) | with_reducible exact .inl rfl | with_reducible assumption
    | with_reducible apply keeps_mk

theorem keeps_setLane {W : Nat} {s0 s : State} (l : Nat) (x : FrfLane) (hw : parts [.frf] ||| W = W) (hk : Keeps W s0 s) :
    Keeps W s0 (State.setLane s l x) := by
  unfold State.setLane
  repeat' first
    | exact .inr (sub_trans rfl hw) | with_reducible exact .inl rfl | with_reducible assumption
    | with_reducible apply keeps_mk

theorem keeps_addBin {W : Nat} {s0 s : State} (c u : Nat) (d lo hi : Int) (hw : parts [.regs, .frf] ||| W = W)
    (hk : Keeps W s0 s) :
    Keeps W s0 (State.addBin s c u d lo hi) := by
  unfold State.addBin
  repeat' first
    | (extract_lets +onlyGivenNames sv; refine keeps_cut (t := sv) ?_ ?_; subst sv; rotate_left; clear_value sv; revert sv; intro _ _; rotate_left)
    | (extract_lets +onlyGivenNames dv; clear_value dv; revert dv; intro _) | with_reducible assumption
    | exact sub_trans rfl hw | with_reducible apply keeps_ite | with_reducible apply keeps_setChan
    | with_reducible apply keeps_put

theorem keeps_frfFeed {W : Nat} {s0 s : State} (stream x y : Nat) (on : Bool) (t : Nat)
    (hw : parts [.regs, .frf] ||| W = W) (hk : Keeps W s0 s) :
    Keeps W s0 (State.frfFeed s stream x y on t) := by
  unfold State.frfFeed
  repeat' first
    | (extract_lets +onlyGivenNames sv; refine keeps_cut (t := sv) ?_ ?_; subst sv; rotate_left; clear_value sv; revert sv; intro _ _; rotate_left)
    | (extract_lets +onlyGivenNames dv; clear_value dv; revert dv; intro _) | with_reducible assumption
    | exact sub_trans rfl hw | with_reducible apply keeps_ite | with_reducible apply keeps_put
    | with_reducible apply keeps_bump | with_reducible apply keeps_addBin

theorem keeps_stage4 {W : Nat} {s0 s : State} (l u : Nat) (coarse : Int) (hw : parts [.regs, .frf] ||| W = W)
    (hk : Keeps W s0 s) :
    Keeps W s0 (State.stage4 s l u coarse) := by
  unfold State.stage4
  repeat' first
    | (extract_lets +onlyGivenNames sv; refine keeps_cut (t := sv) ?_ ?_; subst sv; rotate_left; clear_value sv; revert sv; intro _ _; rotate_left)
    | (extract_lets +onlyGivenNames dv; clear_value dv; revert dv; intro _) | with_reducible assumption
    | exact sub_trans rfl hw | with_reducible apply keeps_setLane | with_reducible apply keeps_put

theorem keeps_foldSample {W : Nat} {s0 s : State} (l u : Nat) (y : Int) (hw : parts [.frf] ||| W = W) (hk : Keeps W s0 s) :
    Keeps W s0 (State.foldSample s l u y) := by
  unfold State.foldSample
  repeat' first
    | (extract_lets +onlyGivenNames dv; clear_value dv; revert dv; intro _) | with_reducible assumption
    | with_reducible apply keeps_ite | with_reducible apply keeps_setLane

theorem keeps_laneApplied {W : Nat} {s0 s : State} (l : Nat) (before : State) (hw : parts [.frf] ||| W = W)
    (hk : Keeps W s0 s) :
    Keeps W s0 (State.laneApplied s l before) := by
  unfold State.laneApplied
  repeat' first
    | (extract_lets +onlyGivenNames dv; clear_value dv; revert dv; intro _) | with_reducible assumption
    | with_reducible apply keeps_setLane

theorem keeps_laneFieldsApply {W : Nat} {s0 s : State} (l : Nat) (hw : parts [.regs, .shadow, .groups, .frf] ||| W = W)
    (hk : Keeps W s0 s) :
    Keeps W s0 (State.laneFieldsApply s l) := by
  unfold State.laneFieldsApply
  repeat' first
    | (extract_lets +onlyGivenNames dv; clear_value dv; revert dv; intro _) | with_reducible assumption
    | exact sub_trans rfl hw | with_reducible apply keeps_ite | with_reducible apply keeps_applyPending
    | with_reducible apply keeps_laneApplied | with_reducible apply keeps_applyStaged | split

theorem keeps_laneSwitchApply {W : Nat} {s0 s : State} (l : Nat) (hw : parts [.regs, .shadow, .groups, .frf] ||| W = W)
    (hk : Keeps W s0 s) :
    Keeps W s0 (State.laneSwitchApply s l) := by
  unfold State.laneSwitchApply
  repeat' first
    | with_reducible assumption | exact sub_trans rfl hw | with_reducible apply keeps_ite
    | with_reducible apply keeps_applyPending | with_reducible apply keeps_laneApplied

theorem keeps_lanePass {W : Nat} {s0 s : State} (l u : Nat) (hw : parts [.regs, .shadow, .groups, .frf] ||| W = W)
    (hk : Keeps W s0 s) :
    Keeps W s0 (State.lanePass s l u) := by
  unfold State.lanePass
  repeat' first
    | (extract_lets +onlyGivenNames sv; refine keeps_cut (t := sv) ?_ ?_; subst sv; rotate_left; clear_value sv; revert sv; intro _ _; rotate_left)
    | (extract_lets +onlyGivenNames dv; clear_value dv; revert dv; intro _) | with_reducible assumption
    | exact sub_trans rfl hw | with_reducible apply keeps_ite | with_reducible apply keeps_foldSample
    | with_reducible apply keeps_setLane | with_reducible apply keeps_laneFieldsApply | with_reducible apply keeps_stage4
    | split

theorem keeps_frfBinPass {W : Nat} {s0 s : State} (hw : parts [.time, .regs, .shadow, .groups, .frf] ||| W = W)
    (hk : Keeps W s0 s) :
    Keeps W s0 (State.frfBinPass s) := by
  unfold State.frfBinPass
  repeat' first
    | exact .inr (sub_trans rfl hw) | with_reducible exact .inl rfl | intro _
    | (extract_lets +onlyGivenNames sv; refine keeps_cut (t := sv) ?_ ?_; subst sv; rotate_left; clear_value sv; revert sv; intro _ _; rotate_left)
    | (extract_lets +onlyGivenNames dv; clear_value dv; revert dv; intro _) | with_reducible assumption
    | exact sub_trans rfl hw | with_reducible apply keeps_ite | with_reducible apply keeps_each
    | with_reducible apply keeps_at | with_reducible apply keeps_lanePass | with_reducible apply keeps_mk

theorem keeps_atBin {W : Nat} {s0 s : State} (w : Nat) (hw : parts [.time] ||| W = W) (hk : Keeps W s0 s) :
    Keeps W s0 (State.atBin s w) := by
  unfold State.atBin
  repeat' first | with_reducible assumption | with_reducible apply keeps_at

theorem keeps_settleBanks {W : Nat} {s0 s : State} (l : Nat) (hw : parts [.regs, .frf] ||| W = W) (hk : Keeps W s0 s) :
    Keeps W s0 (State.settleBanks s l) := by
  unfold State.settleBanks
  repeat' first
    | (extract_lets +onlyGivenNames sv; refine keeps_cut (t := sv) ?_ ?_; subst sv; rotate_left; clear_value sv; revert sv; intro _ _; rotate_left)
    | (extract_lets +onlyGivenNames dv; clear_value dv; revert dv; intro _) | with_reducible assumption
    | exact sub_trans rfl hw | with_reducible apply keeps_setLane | with_reducible apply keeps_put

theorem keeps_restartLane {W : Nat} {s0 s : State} (l w base : Nat) (c : Option Nat) (hw : parts [.regs, .frf] ||| W = W)
    (hk : Keeps W s0 s) :
    Keeps W s0 (State.restartLane s l w base c) := by
  unfold State.restartLane
  repeat' first
    | (extract_lets +onlyGivenNames sv; refine keeps_cut (t := sv) ?_ ?_; subst sv; rotate_left; clear_value sv; revert sv; intro _ _; rotate_left)
    | (extract_lets +onlyGivenNames dv; clear_value dv; revert dv; intro _) | with_reducible assumption
    | exact sub_trans rfl hw | with_reducible apply keeps_settleBanks | with_reducible apply keeps_setLane
    | with_reducible apply keeps_put

theorem keeps_switchLane {W : Nat} {s0 s : State} (l w : Nat) (hw : parts [.regs, .frf] ||| W = W) (hk : Keeps W s0 s) :
    Keeps W s0 (State.switchLane s l w) := by
  unfold State.switchLane
  repeat' first
    | with_reducible assumption | exact sub_trans rfl hw | with_reducible apply keeps_ite
    | with_reducible apply keeps_setLane | with_reducible apply keeps_restartLane | split

theorem keeps_syncReset {W : Nat} {s0 s : State} (scope target w : Nat) (hw : parts [.regs, .frf] ||| W = W)
    (hk : Keeps W s0 s) :
    Keeps W s0 (State.syncReset s scope target w) := by
  unfold State.syncReset
  repeat' first
    | exact .inr (sub_trans rfl hw) | with_reducible exact .inl rfl | intro _
    | (extract_lets +onlyGivenNames sv; refine keeps_cut (t := sv) ?_ ?_; subst sv; rotate_left; clear_value sv; revert sv; intro _ _; rotate_left)
    | (extract_lets +onlyGivenNames dv; clear_value dv; revert dv; intro _) | with_reducible assumption
    | with_reducible apply keeps_ite | with_reducible apply keeps_each | with_reducible apply keeps_restartLane | split
    | with_reducible apply keeps_mk

theorem keeps_frfSwitchInstant {W : Nat} {s0 s : State} (hw : parts [.time, .regs, .shadow, .groups, .frf] ||| W = W)
    (hk : Keeps W s0 s) :
    Keeps W s0 (State.frfSwitchInstant s) := by
  unfold State.frfSwitchInstant
  repeat' first
    | exact .inr (sub_trans rfl hw) | with_reducible exact .inl rfl | intro _
    | (extract_lets +onlyGivenNames sv; refine keeps_cut (t := sv) ?_ ?_; subst sv; rotate_left; clear_value sv; revert sv; intro _ _; rotate_left)
    | (extract_lets +onlyGivenNames dv; clear_value dv; revert dv; intro _) | with_reducible assumption
    | exact sub_trans rfl hw | with_reducible apply keeps_ite | with_reducible apply keeps_each
    | with_reducible apply keeps_atBin | with_reducible apply keeps_laneSwitchApply
    | with_reducible apply keeps_switchLane | with_reducible apply keeps_syncReset | with_reducible apply keeps_put
    | split | with_reducible apply keeps_mk

theorem keeps_rotate {W : Nat} {s0 s : State} (len cursor : Nat) (q0 : List Nat) (q1 : Nat)
    (hw : parts [.regs, .frf] ||| W = W) (hk : Keeps W s0 s) :
    Keeps W s0 (State.rotate s len cursor q0 q1) := by
  induction q0 generalizing s q1 with
  | nil =>
    unfold State.rotate
    repeat' first | with_reducible assumption
  | cons _ _ ih =>
    unfold State.rotate
    repeat' first
      | (extract_lets +onlyGivenNames sv; refine keeps_cut (t := sv) ?_ ?_; subst sv; rotate_left; clear_value sv; revert sv; intro _ _; rotate_left)
      | (extract_lets +onlyGivenNames dv; clear_value dv; revert dv; intro _) | with_reducible assumption
      | with_reducible apply ih | exact sub_trans rfl hw | with_reducible apply keeps_ite
      | with_reducible apply keeps_setLane | with_reducible apply keeps_put

theorem keeps_frfGlbApply {W : Nat} {s0 s : State} (hw : parts [.regs, .shadow, .groups, .frf] ||| W = W)
    (hk : Keeps W s0 s) :
    Keeps W s0 (State.frfGlbApply s) := by
  unfold State.frfGlbApply
  repeat' first
    | exact .inr (sub_trans rfl hw) | with_reducible exact .inl rfl
    | (extract_lets +onlyGivenNames sv; refine keeps_cut (t := sv) ?_ ?_; subst sv; rotate_left; clear_value sv; revert sv; intro _ _; rotate_left)
    | (extract_lets +onlyGivenNames dv; clear_value dv; revert dv; intro _) | with_reducible assumption
    | exact sub_trans rfl hw | with_reducible apply keeps_ite | with_reducible apply keeps_applyPending
    | with_reducible apply keeps_mk

theorem keeps_frfDwellBoundary {W : Nat} {s0 s : State} (hw : parts [.time, .regs, .shadow, .groups, .frf] ||| W = W)
    (hk : Keeps W s0 s) :
    Keeps W s0 (State.frfDwellBoundary s) := by
  unfold State.frfDwellBoundary
  repeat' first
    | exact .inr (sub_trans rfl hw) | with_reducible exact .inl rfl
    | (extract_lets +onlyGivenNames sv; refine keeps_cut (t := sv) ?_ ?_; subst sv; rotate_left; clear_value sv; revert sv; intro _ _; rotate_left)
    | (extract_lets +onlyGivenNames dv; clear_value dv; revert dv; intro _) | with_reducible assumption
    | exact sub_trans rfl hw | with_reducible apply keeps_ite | with_reducible apply keeps_atBin
    | with_reducible apply keeps_frfGlbApply | with_reducible apply keeps_rotate | with_reducible apply keeps_mk

theorem keeps_windowEnd {W : Nat} {s0 s : State} (l : Nat) (hw : parts [.time, .regs, .frf] ||| W = W) (hk : Keeps W s0 s) :
    Keeps W s0 (State.windowEnd s l) := by
  unfold State.windowEnd
  repeat' first
    | intro _
    | (extract_lets +onlyGivenNames sv; refine keeps_cut (t := sv) ?_ ?_; subst sv; rotate_left; clear_value sv; revert sv; intro _ _; rotate_left)
    | (extract_lets +onlyGivenNames dv; clear_value dv; revert dv; intro _) | with_reducible assumption
    | exact sub_trans rfl hw | with_reducible apply keeps_ite | with_reducible apply keeps_each
    | with_reducible apply keeps_atBin | with_reducible apply keeps_put | with_reducible apply keeps_setLane | split

theorem keeps_writeMask {W : Nat} {s0 s : State} (e : Nat) (m : Mask) (hw : parts [.frf] ||| W = W) (hk : Keeps W s0 s) :
    Keeps W s0 (State.writeMask s e m) := by
  unfold State.writeMask
  repeat' first
    | exact .inr (sub_trans rfl hw) | with_reducible exact .inl rfl
    | (extract_lets +onlyGivenNames dv; clear_value dv; revert dv; intro _) | with_reducible assumption
    | with_reducible apply keeps_mk

theorem keeps_flickerReport {W : Nat} {s0 s : State} (reason chan lane : Nat) (f : Option Fold) (active lock : Bool)
    (hw : parts [.regs, .hif, .frf] ||| W = W) (hk : Keeps W s0 s) :
    Keeps W s0 (State.flickerReport s reason chan lane f active lock) := by
  unfold State.flickerReport
  repeat' first
    | exact .inr (sub_trans rfl hw) | with_reducible exact .inl rfl
    | (extract_lets +onlyGivenNames dv; clear_value dv; revert dv; intro _) | with_reducible assumption
    | exact sub_trans rfl hw | with_reducible apply keeps_ite | with_reducible apply keeps_pushRun
    | with_reducible apply keeps_put | with_reducible apply keeps_bump | dsimp -zeta -zetaHave only
    | with_reducible apply keeps_mk

theorem keeps_maskReport {W : Nat} {s0 s : State} (reason e lane : Nat) (f : Option Fold) (before after : Mask)
    (hw : parts [.regs, .hif, .frf] ||| W = W) (hk : Keeps W s0 s) :
    Keeps W s0 (State.maskReport s reason e lane f before after) := by
  unfold State.maskReport
  repeat' first | with_reducible assumption | with_reducible apply keeps_ite | with_reducible apply keeps_flickerReport

theorem keeps_foldDecision {W : Nat} {s0 s : State} (l : Nat) (hw : parts [.time, .regs, .hif, .frf] ||| W = W)
    (hk : Keeps W s0 s) :
    Keeps W s0 (State.foldDecision s l) := by
  unfold State.foldDecision
  repeat' first
    | exact .inr (sub_trans rfl hw) | with_reducible exact .inl rfl
    | (extract_lets +onlyGivenNames sv; refine keeps_cut (t := sv) ?_ ?_; subst sv; rotate_left; clear_value sv; revert sv; intro _ _; rotate_left)
    | (extract_lets +onlyGivenNames dv; clear_value dv; revert dv; intro _) | with_reducible assumption
    | exact sub_trans rfl hw | with_reducible apply keeps_ite | with_reducible apply keeps_atBin
    | with_reducible apply keeps_setLane | with_reducible apply keeps_flickerReport | with_reducible apply keeps_mk

theorem keeps_frfMaskUpdate {W : Nat} {s0 s : State} (hw : parts [.time, .regs, .hif, .frf] ||| W = W) (hk : Keeps W s0 s) :
    Keeps W s0 (State.frfMaskUpdate s) := by
  unfold State.frfMaskUpdate
  repeat' first
    | exact .inr (sub_trans rfl hw) | with_reducible exact .inl rfl
    | (extract_lets +onlyGivenNames sv; refine keeps_cut (t := sv) ?_ ?_; subst sv; rotate_left; clear_value sv; revert sv; intro _ _; rotate_left)
    | (extract_lets +onlyGivenNames dv; clear_value dv; revert dv; intro _) | with_reducible assumption
    | exact sub_trans rfl hw | with_reducible apply keeps_ite | with_reducible apply keeps_atBin
    | with_reducible apply keeps_writeMask | with_reducible apply keeps_maskReport | split | with_reducible apply keeps_mk

theorem keeps_frfMaskTakeEffect {W : Nat} {s0 s : State} (e : Nat) (hw : parts [.time, .frf] ||| W = W)
    (hk : Keeps W s0 s) :
    Keeps W s0 (State.frfMaskTakeEffect s e) := by
  unfold State.frfMaskTakeEffect
  repeat' first
    | exact .inr (sub_trans rfl hw) | with_reducible exact .inl rfl
    | (extract_lets +onlyGivenNames sv; refine keeps_cut (t := sv) ?_ ?_; subst sv; rotate_left; clear_value sv; revert sv; intro _ _; rotate_left)
    | (extract_lets +onlyGivenNames dv; clear_value dv; revert dv; intro _) | with_reducible assumption
    | exact sub_trans rfl hw | with_reducible apply keeps_ite | with_reducible apply keeps_at
    | with_reducible apply keeps_mk

theorem keeps_frfMaskExpiry {W : Nat} {s0 s : State} (e : Nat) (hw : parts [.time, .regs, .hif, .frf] ||| W = W)
    (hk : Keeps W s0 s) :
    Keeps W s0 (State.frfMaskExpiry s e) := by
  unfold State.frfMaskExpiry
  repeat' first
    | (extract_lets +onlyGivenNames sv; refine keeps_cut (t := sv) ?_ ?_; subst sv; rotate_left; clear_value sv; revert sv; intro _ _; rotate_left)
    | (extract_lets +onlyGivenNames dv; clear_value dv; revert dv; intro _) | with_reducible assumption
    | exact sub_trans rfl hw | with_reducible apply keeps_ite | with_reducible apply keeps_at
    | with_reducible apply keeps_writeMask | with_reducible apply keeps_maskReport

theorem keeps_clearMasks {W : Nat} {s0 s : State} (stream : Nat) (hw : parts [.regs, .hif, .frf] ||| W = W)
    (hk : Keeps W s0 s) :
    Keeps W s0 (State.clearMasks s stream) := by
  unfold State.clearMasks
  repeat' first
    | exact .inr (sub_trans rfl hw) | with_reducible exact .inl rfl | intro _
    | (extract_lets +onlyGivenNames sv; refine keeps_cut (t := sv) ?_ ?_; subst sv; rotate_left; clear_value sv; revert sv; intro _ _; rotate_left)
    | (extract_lets +onlyGivenNames dv; clear_value dv; revert dv; intro _) | with_reducible assumption
    | with_reducible apply keeps_each | with_reducible apply keeps_maskReport | with_reducible apply keeps_mk

theorem keeps_frfMaskData1 {W : Nat} {s0 s : State} (val : Word) (hw : parts [.regs, .hif, .frf] ||| W = W)
    (hk : Keeps W s0 s) :
    Keeps W s0 (State.frfMaskData1 s val) := by
  unfold State.frfMaskData1
  repeat' first
    | (extract_lets +onlyGivenNames sv; refine keeps_cut (t := sv) ?_ ?_; subst sv; rotate_left; clear_value sv; revert sv; intro _ _; rotate_left)
    | (extract_lets +onlyGivenNames dv; clear_value dv; revert dv; intro _) | with_reducible assumption
    | exact sub_trans rfl hw | with_reducible apply keeps_ite | with_reducible apply keeps_setReg
    | with_reducible apply keeps_put | with_reducible apply keeps_writeMask | with_reducible apply keeps_maskReport

theorem keeps_frfCoefData {W : Nat} {s0 s : State} (val : Word) (hw : parts [.regs, .frf] ||| W = W) (hk : Keeps W s0 s) :
    Keeps W s0 (State.frfCoefData s val) := by
  unfold State.frfCoefData
  repeat' first
    | (extract_lets +onlyGivenNames sv; refine keeps_cut (t := sv) ?_ ?_; subst sv; rotate_left; clear_value sv; revert sv; intro _ _; rotate_left)
    | (extract_lets +onlyGivenNames dv; clear_value dv; revert dv; intro _) | with_reducible assumption
    | exact sub_trans rfl hw | with_reducible apply keeps_ite | with_reducible apply keeps_setReg
    | with_reducible apply keeps_put | with_reducible apply keeps_setLane

theorem keeps_frfLaneSwap {W : Nat} {s0 s : State} (l : Nat) (val : Word) (hw : parts [.regs, .frf] ||| W = W)
    (hk : Keeps W s0 s) :
    Keeps W s0 (State.frfLaneSwap s l val) := by
  unfold State.frfLaneSwap
  repeat' first
    | (extract_lets +onlyGivenNames dv; clear_value dv; revert dv; intro _) | with_reducible assumption
    | exact sub_trans rfl hw | with_reducible apply keeps_ite | with_reducible apply keeps_setLane
    | with_reducible apply keeps_put | split

theorem keeps_fadeEnd {W : Nat} {s0 s : State} (l : Nat) (hw : parts [.regs, .frf] ||| W = W) (hk : Keeps W s0 s) :
    Keeps W s0 (State.fadeEnd s l) := by
  unfold State.fadeEnd
  repeat' first
    | (extract_lets +onlyGivenNames sv; refine keeps_cut (t := sv) ?_ ?_; subst sv; rotate_left; clear_value sv; revert sv; intro _ _; rotate_left)
    | (extract_lets +onlyGivenNames dv; clear_value dv; revert dv; intro _) | with_reducible assumption
    | exact sub_trans rfl hw | with_reducible apply keeps_ite | with_reducible apply keeps_setLane
    | with_reducible apply keeps_put | split

theorem keeps_frfSync {W : Nat} {s0 s : State} (val : Word) (hw : parts [.regs, .frf] ||| W = W) (hk : Keeps W s0 s) :
    Keeps W s0 (State.frfSync s val) := by
  unfold State.frfSync
  repeat' first
    | exact .inr (sub_trans rfl hw) | with_reducible exact .inl rfl
    | (extract_lets +onlyGivenNames sv; refine keeps_cut (t := sv) ?_ ?_; subst sv; rotate_left; clear_value sv; revert sv; intro _ _; rotate_left)
    | (extract_lets +onlyGivenNames dv; clear_value dv; revert dv; intro _) | with_reducible assumption
    | exact sub_trans rfl hw | with_reducible apply keeps_ite | with_reducible apply keeps_put
    | with_reducible apply keeps_mk

theorem keeps_frfGlbCommit {W : Nat} {s0 s : State} (req val : Nat) (hw : parts [.regs, .shadow, .groups, .frf] ||| W = W)
    (hk : Keeps W s0 s) :
    Keeps W s0 (State.frfGlbCommit s req val) := by
  unfold State.frfGlbCommit
  repeat' first
    | exact .inr (sub_trans rfl hw) | with_reducible exact .inl rfl
    | (extract_lets +onlyGivenNames sv; refine keeps_cut (t := sv) ?_ ?_; subst sv; rotate_left; clear_value sv; revert sv; intro _ _; rotate_left)
    | (extract_lets +onlyGivenNames dv; clear_value dv; revert dv; intro _) | with_reducible assumption
    | exact sub_trans rfl hw | with_reducible apply keeps_ite | with_reducible apply keeps_commitSplit
    | with_reducible apply keeps_commitNow | with_reducible apply keeps_mk

theorem keeps_frfLaneCommit {W : Nat} {s0 s : State} (req l val : Nat)
    (hw : parts [.regs, .shadow, .groups, .frf] ||| W = W) (hk : Keeps W s0 s) :
    Keeps W s0 (State.frfLaneCommit s req l val) := by
  unfold State.frfLaneCommit
  repeat' first
    | (extract_lets +onlyGivenNames sv; refine keeps_cut (t := sv) ?_ ?_; subst sv; rotate_left; clear_value sv; revert sv; intro _ _; rotate_left)
    | (extract_lets +onlyGivenNames dv; clear_value dv; revert dv; intro _) | with_reducible assumption
    | exact sub_trans rfl hw | with_reducible apply keeps_ite | with_reducible apply keeps_commitNow
    | with_reducible apply keeps_laneApplied | with_reducible apply keeps_commitLater

/-! ### Machine/Furrow.lean -/

theorem keeps_setFcore {W : Nat} {s0 s : State} (c : Nat) (x : FwCore) (hw : parts [.regs, .fw] ||| W = W)
    (hk : Keeps W s0 s) :
    Keeps W s0 (State.setFcore s c x) := by
  unfold State.setFcore
  repeat' first
    | exact .inr (sub_trans rfl hw) | with_reducible exact .inl rfl
    | (extract_lets +onlyGivenNames sv; refine keeps_cut (t := sv) ?_ ?_; subst sv; rotate_left; clear_value sv; revert sv; intro _ _; rotate_left)
    | (extract_lets +onlyGivenNames dv; clear_value dv; revert dv; intro _) | with_reducible assumption
    | exact sub_trans rfl hw | with_reducible apply keeps_put | with_reducible apply keeps_mk

theorem keeps_deferAs {W : Nat} {s0 s : State} (c : Nat) (p : FwPkt) (counted : Bool)
    (hw : parts [.regs, .mem, .mm, .fw] ||| W = W) (hk : Keeps W s0 s) :
    Keeps W s0 (State.deferAs s c p counted) := by
  unfold State.deferAs
  repeat' first
    | (extract_lets +onlyGivenNames sv; refine keeps_cut (t := sv) ?_ ?_; subst sv; rotate_left; clear_value sv; revert sv; intro _ _; rotate_left)
    | (extract_lets +onlyGivenNames dv; clear_value dv; revert dv; intro _) | with_reducible assumption
    | exact sub_trans rfl hw | with_reducible apply keeps_ite | with_reducible apply keeps_setFcore
    | with_reducible apply keeps_dramPut | with_reducible apply keeps_bump | with_reducible apply keeps_put

theorem keeps_carried {W : Nat} {s0 s : State} (hw : parts [.regs] ||| W = W) (hk : Keeps W s0 s) :
    Keeps W s0 (State.carried s) := by
  unfold State.carried
  repeat' first | with_reducible assumption | with_reducible apply keeps_put | with_reducible apply keeps_bump

theorem keeps_intake {W : Nat} {s0 s : State} (c : Nat) (p : FwPkt) (held : Bool)
    (hw : parts [.regs, .mem, .mm, .fw] ||| W = W) (hk : Keeps W s0 s) :
    Keeps W s0 (State.intake s c p held) := by
  unfold State.intake
  repeat' first
    | (extract_lets +onlyGivenNames sv; refine keeps_cut (t := sv) ?_ ?_; subst sv; rotate_left; clear_value sv; revert sv; intro _ _; rotate_left)
    | (extract_lets +onlyGivenNames dv; clear_value dv; revert dv; intro _) | with_reducible assumption
    | exact sub_trans rfl hw | with_reducible apply keeps_ite | with_reducible apply keeps_setFcore
    | with_reducible apply keeps_carried | with_reducible apply keeps_deferAs

theorem keeps_lateInto {W : Nat} {s0 s : State} (c : Nat) (p : FwPkt) (held : Bool)
    (hw : parts [.regs, .mem, .mm, .fw] ||| W = W) (hk : Keeps W s0 s) :
    Keeps W s0 (State.lateInto s c p held) := by
  unfold State.lateInto
  repeat' first
    | (extract_lets +onlyGivenNames sv; refine keeps_cut (t := sv) ?_ ?_; subst sv; rotate_left; clear_value sv; revert sv; intro _ _; rotate_left)
    | with_reducible assumption | exact sub_trans rfl hw | with_reducible apply keeps_ite | with_reducible apply keeps_put
    | with_reducible apply keeps_bump | with_reducible apply keeps_intake

theorem keeps_takeIn {W : Nat} {s0 s : State} (c : Nat) (p : FwPkt) (held : Bool)
    (hw : parts [.regs, .mem, .mm, .fw] ||| W = W) (hk : Keeps W s0 s) :
    Keeps W s0 (State.takeIn s c p held) := by
  unfold State.takeIn
  repeat' first
    | with_reducible assumption | with_reducible apply keeps_ite | with_reducible apply keeps_lateInto
    | with_reducible apply keeps_intake

theorem keeps_markerIn {W : Nat} {s0 s : State} (c src step : Nat) (hw : parts [.regs, .fw] ||| W = W) (hk : Keeps W s0 s) :
    Keeps W s0 (State.markerIn s c src step) := by
  unfold State.markerIn
  repeat' first
    | (extract_lets +onlyGivenNames dv; clear_value dv; revert dv; intro _) | with_reducible assumption
    | with_reducible apply keeps_setFcore

theorem keeps_packetIn {W : Nat} {s0 s : State} (packet : Nat) (mark : Bool)
    (hw : parts [.regs, .mem, .mm, .fw] ||| W = W) (hk : Keeps W s0 s) :
    Keeps W s0 (State.packetIn s packet mark) := by
  unfold State.packetIn
  repeat' first
    | exact .inr (sub_trans rfl hw) | with_reducible exact .inl rfl
    | (extract_lets +onlyGivenNames sv; refine keeps_cut (t := sv) ?_ ?_; subst sv; rotate_left; clear_value sv; revert sv; intro _ _; rotate_left)
    | (extract_lets +onlyGivenNames dv; clear_value dv; revert dv; intro _) | with_reducible assumption
    | exact sub_trans rfl hw | with_reducible apply keeps_ite | with_reducible apply keeps_markerIn
    | with_reducible apply keeps_takeIn | split | with_reducible apply keeps_mk

theorem keeps_inject {W : Nat} {s0 s : State} (src : Nat) (l : List Nat) (hw : parts [.fw] ||| W = W) (hk : Keeps W s0 s) :
    Keeps W s0 (State.inject s src l) := by
  unfold State.inject
  repeat' first
    | exact .inr (sub_trans rfl hw) | with_reducible exact .inl rfl | with_reducible assumption
    | with_reducible apply keeps_mk

theorem keeps_furrowFeed {W : Nat} {s0 s : State} (i x y : Nat) (on : Bool) (t : Nat) (hw : parts [.fw] ||| W = W)
    (hk : Keeps W s0 s) :
    Keeps W s0 (State.furrowFeed s i x y on t) := by
  unfold State.furrowFeed
  repeat' first
    | (extract_lets +onlyGivenNames dv; clear_value dv; revert dv; intro _) | with_reducible assumption
    | with_reducible apply keeps_ite | with_reducible apply keeps_inject

theorem keeps_gatewayMark {W : Nat} {s0 s : State} (g i step : Nat) (hw : parts [.fw] ||| W = W) (hk : Keeps W s0 s) :
    Keeps W s0 (State.gatewayMark s g i step) := by
  unfold State.gatewayMark
  repeat' first
    | exact .inr (sub_trans rfl hw) | with_reducible exact .inl rfl
    | (extract_lets +onlyGivenNames sv; refine keeps_cut (t := sv) ?_ ?_; subst sv; rotate_left; clear_value sv; revert sv; intro _ _; rotate_left)
    | (extract_lets +onlyGivenNames dv; clear_value dv; revert dv; intro _) | with_reducible assumption
    | with_reducible apply keeps_ite | with_reducible apply keeps_inject | with_reducible apply keeps_mk

theorem keeps_popStep {W : Nat} {s0 s : State} (c l step : Nat) (fired : List Nat) (a : FwAcc) (stretched : Bool) (p : Nat)
    (hw : parts [.regs, .fw] ||| W = W) (hk : Keeps W s0 s) :
    Keeps W s0 (State.popStep s c l step fired a stretched p) := by
  unfold State.popStep
  repeat' first
    | exact .inr (sub_trans rfl hw) | with_reducible exact .inl rfl
    | (extract_lets +onlyGivenNames sv; refine keeps_cut (t := sv) ?_ ?_; subst sv; rotate_left; clear_value sv; revert sv; intro _ _; rotate_left)
    | (extract_lets +onlyGivenNames dv; clear_value dv; revert dv; intro _) | with_reducible assumption
    | with_reducible apply keeps_ite | with_reducible apply keeps_setFcore | with_reducible apply keeps_mk

theorem keeps_checkpointCore {W : Nat} {s0 s : State} (c l o : Nat) (hw : parts [.regs, .mem, .mm, .fw] ||| W = W)
    (hk : Keeps W s0 s) :
    Keeps W s0 (State.checkpointCore s c l o) := by
  unfold State.checkpointCore
  repeat' first
    | (extract_lets +onlyGivenNames sv; refine keeps_cut (t := sv) ?_ ?_; subst sv; rotate_left; clear_value sv; revert sv; intro _ _; rotate_left)
    | (extract_lets +onlyGivenNames dv; clear_value dv; revert dv; intro _) | with_reducible assumption
    | exact sub_trans rfl hw | with_reducible apply keeps_setFcore | with_reducible apply keeps_dramPut

theorem keeps_endStep {W : Nat} {s0 s : State} (c : Nat) (stretched : Bool) (hw : parts [.regs, .mem, .mm, .fw] ||| W = W)
    (hk : Keeps W s0 s) :
    Keeps W s0 (State.endStep s c stretched) := by
  unfold State.endStep
  repeat' first
    | intro _
    | (extract_lets +onlyGivenNames sv; refine keeps_cut (t := sv) ?_ ?_; subst sv; rotate_left; clear_value sv; revert sv; intro _ _; rotate_left)
    | (extract_lets +onlyGivenNames dv; clear_value dv; revert dv; intro _) | with_reducible assumption
    | exact sub_trans rfl hw | with_reducible apply keeps_ite | with_reducible apply keeps_each
    | with_reducible apply keeps_setFcore | with_reducible apply keeps_intake | with_reducible apply keeps_inject
    | with_reducible apply keeps_popStep | with_reducible apply keeps_checkpointCore | with_reducible apply keeps_takeIn
    | with_reducible apply keeps_put

theorem keeps_startStretch {W : Nat} {s0 s : State} (c : Nat) (hw : parts [.time, .regs, .mem, .mm, .fw] ||| W = W)
    (hk : Keeps W s0 s) :
    Keeps W s0 (State.startStretch s c) := by
  unfold State.startStretch
  repeat' first
    | (extract_lets +onlyGivenNames sv; refine keeps_cut (t := sv) ?_ ?_; subst sv; rotate_left; clear_value sv; revert sv; intro _ _; rotate_left)
    | (extract_lets +onlyGivenNames dv; clear_value dv; revert dv; intro _) | with_reducible assumption
    | exact sub_trans rfl hw | with_reducible apply keeps_ite | with_reducible apply keeps_at
    | with_reducible apply keeps_endStep | with_reducible apply keeps_setFcore | with_reducible apply keeps_put
    | with_reducible apply keeps_bump

theorem keeps_endStretch {W : Nat} {s0 s : State} (c : Nat) (hw : parts [.time, .regs, .mem, .mm, .fw] ||| W = W)
    (hk : Keeps W s0 s) :
    Keeps W s0 (State.endStretch s c) := by
  unfold State.endStretch
  repeat' first
    | (extract_lets +onlyGivenNames sv; refine keeps_cut (t := sv) ?_ ?_; subst sv; rotate_left; clear_value sv; revert sv; intro _ _; rotate_left)
    | with_reducible assumption | exact sub_trans rfl hw | with_reducible apply keeps_ite | with_reducible apply keeps_at
    | with_reducible apply keeps_endStep

theorem keeps_hostFrame {W : Nat} {s0 s : State} (p : Nat) (f : FwFrame)
    (hw : parts [.regs, .mem, .out, .hif, .ras, .mm, .frf, .fw, .sd, .aid, .net, .sec] ||| W = W) (hk : Keeps W s0 s) :
    Keeps W s0 (State.hostFrame s p f) := by
  unfold State.hostFrame
  repeat' first
    | (extract_lets +onlyGivenNames sv; refine keeps_cut (t := sv) ?_ ?_; subst sv; rotate_left; clear_value sv; revert sv; intro _ _; rotate_left)
    | (extract_lets +onlyGivenNames dv; clear_value dv; revert dv; intro _) | with_reducible assumption
    | exact sub_trans rfl hw | with_reducible apply keeps_ite | with_reducible apply keeps_access
    | with_reducible apply keeps_pushRun | with_reducible apply keeps_put | with_reducible apply keeps_bump | split

theorem keeps_countFrame {W : Nat} {s0 s : State} (p : Nat)
    (hw : parts [.regs, .mem, .out, .hif, .ras, .mm, .frf, .fw, .sd, .aid, .net, .sec] ||| W = W) (hk : Keeps W s0 s) :
    Keeps W s0 (State.countFrame s p) := by
  unfold State.countFrame
  repeat' first
    | exact .inr (sub_trans rfl hw) | with_reducible exact .inl rfl
    | (extract_lets +onlyGivenNames sv; refine keeps_cut (t := sv) ?_ ?_; subst sv; rotate_left; clear_value sv; revert sv; intro _ _; rotate_left)
    | (extract_lets +onlyGivenNames dv; clear_value dv; revert dv; intro _) | with_reducible assumption
    | exact sub_trans rfl hw | with_reducible apply keeps_ite | with_reducible apply keeps_put
    | with_reducible apply keeps_sqGive | with_reducible apply keeps_hostFrame | split | with_reducible apply keeps_mk

theorem keeps_takeFront {W : Nat} {s0 s : State} (q p t : Nat) (q0 : Nat) (hw : parts [.out, .mm] ||| W = W)
    (hk : Keeps W s0 s) :
    Keeps W s0 (State.takeFront s q p t q0) := by
  induction q0 generalizing s with
  | zero =>
    unfold State.takeFront
    repeat' first | with_reducible assumption
  | succ _ ih =>
    unfold State.takeFront
    repeat' first
      | (extract_lets +onlyGivenNames dv; clear_value dv; revert dv; intro _) | with_reducible assumption
      | with_reducible apply ih | with_reducible apply keeps_ite | with_reducible apply keeps_sqTake | split

theorem keeps_takeFrames {W : Nat} {s0 s : State} (i t : Nat) (hw : parts [.out, .mm] ||| W = W) (hk : Keeps W s0 s) :
    Keeps W s0 (State.takeFrames s i t) := by
  unfold State.takeFrames
  repeat' first
    | intro _ | (extract_lets +onlyGivenNames dv; clear_value dv; revert dv; intro _) | with_reducible assumption
    | with_reducible apply keeps_each | with_reducible apply keeps_takeFront

theorem keeps_coreBack {W : Nat} {s0 s : State} (c l : Nat) (x : FwCore)
    (hw : parts [.regs, .mem, .fresh, .mm, .fw] ||| W = W) (hk : Keeps W s0 s) :
    Keeps W s0 (State.coreBack s c l x) := by
  unfold State.coreBack
  repeat' first
    | intro _
    | (extract_lets +onlyGivenNames sv; refine keeps_cut (t := sv) ?_ ?_; subst sv; rotate_left; clear_value sv; revert sv; intro _ _; rotate_left)
    | (extract_lets +onlyGivenNames dv; clear_value dv; revert dv; intro _) | with_reducible assumption
    | exact sub_trans rfl hw | with_reducible apply keeps_each | with_reducible apply keeps_tickFree
    | with_reducible apply keeps_setFcore | with_reducible apply keeps_intake | with_reducible apply keeps_bumpBy

theorem keeps_moveProducer {W : Nat} {s0 s : State} (c d l : Nat) (hw : parts [.mm] ||| W = W) (hk : Keeps W s0 s) :
    Keeps W s0 (State.moveProducer s c d l) := by
  unfold State.moveProducer
  repeat' first
    | intro _ | (extract_lets +onlyGivenNames dv; clear_value dv; revert dv; intro _) | with_reducible assumption
    | with_reducible apply keeps_ite | with_reducible apply keeps_each | with_reducible apply keeps_setQueue

theorem wf_foldPut {m : List Host.Cell} (h : Memory.wf m = true) (l : List Host.Cell) (f : Host.Cell → Nat) :
    Memory.wf (l.foldl (fun m x => memPut m (f x) x.2) m) = true := by
  induction l generalizing m with
  | nil => exact h
  | cons x r ih => exact ih (Memory.wf_put h _ _)

theorem wf_copySynapses {m : List Host.Cell} (h : Memory.wf m = true) (c d : Nat) : Memory.wf (copySynapses m c d) = true :=
  wf_foldPut (Memory.wf_filter h _) _ _

theorem keeps_coreMove {W : Nat} {s0 s : State} (c d l : Nat) (hw : parts [.regs, .mem, .fresh, .mm, .fw] ||| W = W)
    (hk : Keeps W s0 s) :
    Keeps W s0 (State.coreMove s c d l) := by
  unfold State.coreMove
  repeat' first
    | exact .inr (sub_trans rfl hw) | with_reducible exact .inl rfl
    | with_reducible refine keeps_memOf ?_ (sub_trans rfl hw) (fun h => wf_copySynapses h _ _) ?_ ?_ ?_ ?_ ?_ ?_ ?_ ?_ ?_ ?_ ?_ ?_ ?_ ?_ ?_ ?_ ?_ ?_ ?_ ?_ ?_ ?_
    | (extract_lets +onlyGivenNames sv; refine keeps_cut (t := sv) ?_ ?_; subst sv; rotate_left; clear_value sv; revert sv; intro _ _; rotate_left)
    | (extract_lets +onlyGivenNames dv; clear_value dv; revert dv; intro _) | with_reducible assumption
    | exact sub_trans rfl hw | with_reducible apply keeps_setReg | with_reducible apply keeps_put
    | with_reducible apply keeps_coreBack | with_reducible apply keeps_moveProducer | with_reducible apply keeps_setFcore

theorem keeps_coreFail {W : Nat} {s0 s : State} (c cond flags : Nat)
    (hw : parts [.regs, .mem, .out, .fresh, .hif, .ras, .mm, .frf, .fw, .aid, .net, .sec, .adm] ||| W = W)
    (hk : Keeps W s0 s) :
    Keeps W s0 (State.coreFail s c cond flags) := by
  unfold State.coreFail
  repeat' first
    | (extract_lets +onlyGivenNames sv; refine keeps_cut (t := sv) ?_ ?_; subst sv; rotate_left; clear_value sv; revert sv; intro _ _; rotate_left)
    | (extract_lets +onlyGivenNames dv; clear_value dv; revert dv; intro _) | with_reducible assumption
    | exact sub_trans rfl hw | with_reducible apply keeps_ite | with_reducible apply keeps_put
    | with_reducible apply keeps_singlePartFault | with_reducible apply keeps_coreMove
    | with_reducible apply keeps_withdraw | with_reducible apply keeps_degraded | with_reducible apply keeps_askCapacity
    | split

theorem keeps_coreStart {W : Nat} {s0 s : State} (c : Nat) (hw : parts [.regs, .fw] ||| W = W) (hk : Keeps W s0 s) :
    Keeps W s0 (State.coreStart s c) := by
  unfold State.coreStart
  repeat' first
    | (extract_lets +onlyGivenNames sv; refine keeps_cut (t := sv) ?_ ?_; subst sv; rotate_left; clear_value sv; revert sv; intro _ _; rotate_left)
    | (extract_lets +onlyGivenNames dv; clear_value dv; revert dv; intro _) | with_reducible assumption
    | exact sub_trans rfl hw | with_reducible apply keeps_setFcore | with_reducible apply keeps_put

theorem keeps_fwGlbCommit {W : Nat} {s0 s : State} (req val : Nat) (hw : parts [.regs, .shadow, .groups, .fw] ||| W = W)
    (hk : Keeps W s0 s) :
    Keeps W s0 (State.fwGlbCommit s req val) := by
  unfold State.fwGlbCommit
  repeat' first
    | intro _
    | (extract_lets +onlyGivenNames sv; refine keeps_cut (t := sv) ?_ ?_; subst sv; rotate_left; clear_value sv; revert sv; intro _ _; rotate_left)
    | (extract_lets +onlyGivenNames dv; clear_value dv; revert dv; intro _) | with_reducible assumption
    | exact sub_trans rfl hw | with_reducible apply keeps_ite | with_reducible apply keeps_each
    | with_reducible apply keeps_commitNow | with_reducible apply keeps_setFcore

theorem keeps_fwCoreCommit {W : Nat} {s0 s : State} (req c val : Nat)
    (hw : parts [.regs, .shadow, .groups, .fw] ||| W = W) (hk : Keeps W s0 s) :
    Keeps W s0 (State.fwCoreCommit s req c val) := by
  unfold State.fwCoreCommit
  repeat' first
    | (extract_lets +onlyGivenNames sv; refine keeps_cut (t := sv) ?_ ?_; subst sv; rotate_left; clear_value sv; revert sv; intro _ _; rotate_left)
    | (extract_lets +onlyGivenNames dv; clear_value dv; revert dv; intro _) | with_reducible assumption
    | exact sub_trans rfl hw | with_reducible apply keeps_ite | with_reducible apply keeps_commitNow
    | with_reducible apply keeps_coreStart | with_reducible apply keeps_put

theorem keeps_fwMapCommit {W : Nat} {s0 s : State} (req i val : Nat) (hw : parts [.regs, .shadow, .groups] ||| W = W)
    (hk : Keeps W s0 s) :
    Keeps W s0 (State.fwMapCommit s req i val) := by
  unfold State.fwMapCommit
  repeat' first | with_reducible assumption | with_reducible apply keeps_commitLater

theorem keeps_fwPopCommit {W : Nat} {s0 s : State} (req p val : Nat) (hw : parts [.regs, .shadow, .groups] ||| W = W)
    (hk : Keeps W s0 s) :
    Keeps W s0 (State.fwPopCommit s req p val) := by
  unfold State.fwPopCommit
  repeat' first | with_reducible assumption | with_reducible apply keeps_commitLater

theorem keeps_tblNext {W : Nat} {s0 s : State} (hw : parts [.regs] ||| W = W) (hk : Keeps W s0 s) :
    Keeps W s0 (State.tblNext s) := by
  unfold State.tblNext
  repeat' first | with_reducible assumption | with_reducible apply keeps_ite | with_reducible apply keeps_put

theorem keeps_fwTblWrite {W : Nat} {s0 s : State} (val : Nat) (hw : parts [.regs, .fw] ||| W = W) (hk : Keeps W s0 s) :
    Keeps W s0 (State.fwTblWrite s val) := by
  unfold State.fwTblWrite
  repeat' first
    | exact .inr (sub_trans rfl hw) | with_reducible exact .inl rfl
    | (extract_lets +onlyGivenNames sv; refine keeps_cut (t := sv) ?_ ?_; subst sv; rotate_left; clear_value sv; revert sv; intro _ _; rotate_left)
    | (extract_lets +onlyGivenNames dv; clear_value dv; revert dv; intro _) | with_reducible assumption
    | exact sub_trans rfl hw | with_reducible apply keeps_ite | with_reducible apply keeps_setReg
    | with_reducible apply keeps_put | with_reducible apply keeps_tblNext | with_reducible apply keeps_mk

/-! ### Machine/Headgate.lean -/

theorem keeps_setTokens {W : Nat} {s0 s : State} (i tok : Nat) (hw : parts [.regs, .hg] ||| W = W) (hk : Keeps W s0 s) :
    Keeps W s0 (State.setTokens s i tok) := by
  unfold State.setTokens
  repeat' first
    | with_reducible assumption | exact sub_trans rfl hw | with_reducible apply keeps_setStream
    | with_reducible apply keeps_put

theorem keeps_refill {W : Nat} {s0 s : State} (i : Nat) (hw : parts [.regs, .hg] ||| W = W) (hk : Keeps W s0 s) :
    Keeps W s0 (State.refill s i) := by
  unfold State.refill
  repeat' first | with_reducible assumption | with_reducible apply keeps_setTokens

theorem keeps_sendRunnel {W : Nat} {s0 s : State} (src sport port : Nat) (p : List Byte) (hw : parts [.out] ||| W = W)
    (hk : Keeps W s0 s) :
    Keeps W s0 (State.sendRunnel s src sport port p) := by
  unfold State.sendRunnel
  repeat' first | with_reducible assumption | with_reducible apply keeps_emit

theorem keeps_sendAck {W : Nat} {s0 s : State} (i cum at' : Nat) (gap : Bool) (dest : Nat × Nat × Nat)
    (hw : parts [.out, .hg] ||| W = W) (hk : Keeps W s0 s) :
    Keeps W s0 (State.sendAck s i cum at' gap dest) := by
  unfold State.sendAck
  repeat' first
    | (extract_lets +onlyGivenNames sv; refine keeps_cut (t := sv) ?_ ?_; subst sv; rotate_left; clear_value sv; revert sv; intro _ _; rotate_left)
    | (extract_lets +onlyGivenNames dv; clear_value dv; revert dv; intro _) | with_reducible assumption
    | exact sub_trans rfl hw | with_reducible apply keeps_ite | with_reducible apply keeps_setStream
    | with_reducible apply keeps_sendRunnel

theorem keeps_sendNak {W : Nat} {s0 s : State} (i : Nat) (b : Batch) (reason retry : Nat)
    (hw : parts [.regs, .out] ||| W = W) (hk : Keeps W s0 s) :
    Keeps W s0 (State.sendNak s i b reason retry) := by
  unfold State.sendNak
  repeat' first
    | (extract_lets +onlyGivenNames sv; refine keeps_cut (t := sv) ?_ ?_; subst sv; rotate_left; clear_value sv; revert sv; intro _ _; rotate_left)
    | with_reducible assumption | exact sub_trans rfl hw | with_reducible apply keeps_ite
    | with_reducible apply keeps_bump | with_reducible apply keeps_sendRunnel

theorem keeps_trackedFit {W : Nat} {s0 s : State} (i : Nat) (hw : parts [.hg] ||| W = W) (hk : Keeps W s0 s) :
    Keeps W s0 (State.trackedFit s i) := by
  unfold State.trackedFit
  repeat' first
    | (extract_lets +onlyGivenNames dv; clear_value dv; revert dv; intro _) | with_reducible assumption
    | with_reducible apply keeps_ite | with_reducible apply keeps_setStream | split

theorem keeps_filterEvent {W : Nat} {s0 s : State} (i x y : Nat) (on : Bool) (t : Nat)
    (hw : parts [.regs, .hg, .frf] ||| W = W) (hk : Keeps W s0 s) :
    Keeps W s0 (State.filterEvent s i x y on t).1 := by
  unfold State.filterEvent
  repeat' first
    | (extract_lets +onlyGivenNames sv; refine keeps_cut (t := sv) ?_ ?_; subst sv; rotate_left; clear_value sv; revert sv; intro _ _; rotate_left)
    | (extract_lets +onlyGivenNames dv; clear_value dv; revert dv; intro _) | with_reducible assumption
    | exact sub_trans rfl hw | with_reducible apply keeps_frfFeed | with_reducible apply keeps_setStream | split

theorem keeps_takeMarker {W : Nat} {s0 s : State} (i a k w off : Nat) (clamp late : Bool)
    (hw : parts [.regs, .hg] ||| W = W) (hk : Keeps W s0 s) :
    Keeps W s0 (State.takeMarker s i a k w off clamp late) := by
  unfold State.takeMarker
  repeat' first
    | (extract_lets +onlyGivenNames sv; refine keeps_cut (t := sv) ?_ ?_; subst sv; rotate_left; clear_value sv; revert sv; intro _ _; rotate_left)
    | (extract_lets +onlyGivenNames dv; clear_value dv; revert dv; intro _) | with_reducible assumption
    | exact sub_trans rfl hw | with_reducible apply keeps_ite | with_reducible apply keeps_setStream
    | with_reducible apply keeps_bump

theorem keeps_takePixel {W : Nat} {s0 s : State} (i a k w off stamp : Nat) (clamp late : Bool) (v : Verdict)
    (hw : parts [.regs, .hg, .fw] ||| W = W) (hk : Keeps W s0 s) :
    Keeps W s0 (State.takePixel s i a k w off stamp clamp late v) := by
  unfold State.takePixel
  repeat' first
    | (extract_lets +onlyGivenNames sv; refine keeps_cut (t := sv) ?_ ?_; subst sv; rotate_left; clear_value sv; revert sv; intro _ _; rotate_left)
    | (extract_lets +onlyGivenNames dv; clear_value dv; revert dv; intro _) | with_reducible assumption
    | exact sub_trans rfl hw | with_reducible apply keeps_ite | with_reducible apply keeps_bump
    | with_reducible apply keeps_setStream | with_reducible apply keeps_furrowFeed | split

theorem keeps_takeWord {W : Nat} {s0 s : State} (i : Nat) (conv : Int × Int × Nat) (a period k0 : Nat) (src w : Nat)
    (hw : parts [.regs, .hg, .frf, .fw] ||| W = W) (hk : Keeps W s0 s) :
    Keeps W s0 (State.takeWord s i conv a period k0 src w).1 := by
  unfold State.takeWord
  repeat' first
    | (extract_lets +onlyGivenNames sv; refine keeps_cut (t := sv) ?_ ?_; subst sv; rotate_left; clear_value sv; revert sv; intro _ _; rotate_left)
    | (extract_lets +onlyGivenNames sv; refine keeps_cut (t := sv.1) ?_ ?_; subst sv; rotate_left; clear_value sv; revert sv; intro _ _; rotate_left)
    | (extract_lets +onlyGivenNames dv; clear_value dv; revert dv; intro _) | with_reducible assumption
    | exact sub_trans rfl hw | with_reducible apply keeps_ite | with_reducible apply keeps_bump
    | with_reducible apply keeps_takeMarker | with_reducible apply keeps_filterEvent
    | with_reducible apply keeps_takePixel | split

theorem keeps_takeWords {W : Nat} {s0 s : State} (i : Nat) (conv : Int × Int × Nat) (a period k0 : Nat) (q0 : List (Nat × Nat)) (q1 : List Nat)
    (hw : parts [.regs, .hg, .frf, .fw] ||| W = W) (hk : Keeps W s0 s) :
    Keeps W s0 (State.takeWords s i conv a period k0 q0 q1).1 := by
  induction q0 generalizing s q1 with
  | nil =>
    unfold State.takeWords
    repeat' first | with_reducible assumption
  | cons _ _ ih =>
    unfold State.takeWords
    repeat' first
      | (extract_lets +onlyGivenNames sv; refine keeps_cut (t := sv.1) ?_ ?_; subst sv; rotate_left; clear_value sv; revert sv; intro _ _; rotate_left)
      | with_reducible assumption | with_reducible apply ih | with_reducible apply keeps_takeWord

theorem keeps_recoverCount {W : Nat} {s0 s : State} (i k : Nat) (hw : parts [.regs, .hg] ||| W = W) (hk : Keeps W s0 s) :
    Keeps W s0 (State.recoverCount s i k) := by
  unfold State.recoverCount
  repeat' first
    | (extract_lets +onlyGivenNames sv; refine keeps_cut (t := sv) ?_ ?_; subst sv; rotate_left; clear_value sv; revert sv; intro _ _; rotate_left)
    | (extract_lets +onlyGivenNames dv; clear_value dv; revert dv; intro _) | with_reducible assumption
    | exact sub_trans rfl hw | with_reducible apply keeps_ite | with_reducible apply keeps_setStream
    | with_reducible apply keeps_put

theorem keeps_closeIn {W : Nat} {s0 s : State} (i g k : Nat) (guard replayed : Bool)
    (hw : parts [.regs, .out, .fresh, .hif, .ras, .mm, .hg, .sd] ||| W = W) (hk : Keeps W s0 s) :
    Keeps W s0 (State.closeIn s i g k guard replayed) := by
  unfold State.closeIn
  repeat' first
    | exact .inr (sub_trans rfl hw) | with_reducible exact .inl rfl
    | (extract_lets +onlyGivenNames sv; refine keeps_cut (t := sv) ?_ ?_; subst sv; rotate_left; clear_value sv; revert sv; intro _ _; rotate_left)
    | (extract_lets +onlyGivenNames dv; clear_value dv; revert dv; intro _) | with_reducible assumption
    | exact sub_trans rfl hw | with_reducible apply keeps_ite | with_reducible apply keeps_tickFree
    | with_reducible apply keeps_setStream | with_reducible apply keeps_give | with_reducible apply keeps_closeSusp
    | with_reducible apply keeps_recoverCount | with_reducible apply keeps_put | with_reducible apply keeps_mk

theorem keeps_closeSlice {W : Nat} {s0 s : State} (i k : Nat) (guard replayed : Bool)
    (hw : parts [.regs, .out, .fresh, .hif, .ras, .mm, .hg, .sd] ||| W = W) (hk : Keeps W s0 s) :
    Keeps W s0 (State.closeSlice s i k guard replayed) := by
  unfold State.closeSlice
  repeat' first | with_reducible assumption | with_reducible apply keeps_closeIn

theorem keeps_closeUpto {W : Nat} {s0 s : State} (i : Nat) (upto : Nat) (q0 : Nat)
    (hw : parts [.regs, .out, .fresh, .hif, .ras, .mm, .hg, .sd] ||| W = W) (hk : Keeps W s0 s) :
    Keeps W s0 (State.closeUpto s i upto q0) := by
  induction q0 generalizing s with
  | zero =>
    unfold State.closeUpto
    repeat' first | with_reducible assumption
  | succ _ ih =>
    unfold State.closeUpto
    repeat' first
      | with_reducible assumption | with_reducible apply ih | with_reducible apply keeps_ite
      | with_reducible apply keeps_closeSlice | split

theorem keeps_residual {W : Nat} {s0 s : State} (i k : Nat) (arrival : Nat) (tEnd : Int)
    (hw : parts [.regs, .hg] ||| W = W) (hk : Keeps W s0 s) :
    Keeps W s0 (State.residual s i k arrival tEnd).1 := by
  unfold State.residual
  repeat' first
    | (extract_lets +onlyGivenNames sv; refine keeps_cut (t := sv) ?_ ?_; subst sv; rotate_left; clear_value sv; revert sv; intro _ _; rotate_left)
    | (extract_lets +onlyGivenNames dv; clear_value dv; revert dv; intro _) | with_reducible assumption
    | exact sub_trans rfl hw | with_reducible apply keeps_ite | with_reducible apply keeps_put
    | with_reducible apply keeps_setStream

theorem keeps_setEntry {W : Nat} {s0 s : State} (i seq : Nat) (f : JEntry → JEntry) (hw : parts [.hg] ||| W = W)
    (hk : Keeps W s0 s) :
    Keeps W s0 (State.setEntry s i seq f) := by
  unfold State.setEntry
  repeat' first
    | exact .inr (sub_trans rfl hw) | with_reducible exact .inl rfl | with_reducible assumption
    | with_reducible apply keeps_mk

theorem keeps_process {W : Nat} {s0 s : State} (i : Nat) (e : JEntry) (a : Nat)
    (hw : parts [.regs, .out, .fresh, .hif, .ras, .mm, .hg, .frf, .fw, .sd] ||| W = W) (hk : Keeps W s0 s) :
    Keeps W s0 (State.process s i e a) := by
  unfold State.process
  repeat' first
    | (extract_lets +onlyGivenNames sv; refine keeps_cut (t := sv) ?_ ?_; subst sv; rotate_left; clear_value sv; revert sv; intro _ _; rotate_left)
    | (extract_lets +onlyGivenNames sv; refine keeps_cut (t := sv.1) ?_ ?_; subst sv; rotate_left; clear_value sv; revert sv; intro _ _; rotate_left)
    | (extract_lets +onlyGivenNames dv; clear_value dv; revert dv; intro _) | with_reducible assumption
    | exact sub_trans rfl hw | with_reducible apply keeps_bump | with_reducible apply keeps_put
    | with_reducible apply keeps_residual | with_reducible apply keeps_setStream | with_reducible apply keeps_takeWords
    | with_reducible apply keeps_setEntry | with_reducible apply keeps_closeUpto

theorem keeps_accept {W : Nat} {s0 s : State} (i : Nat) (e : JEntry)
    (hw : parts [.regs, .out, .fresh, .hif, .ras, .mm, .hg, .frf, .fw, .sd] ||| W = W) (hk : Keeps W s0 s) :
    Keeps W s0 (State.accept s i e) := by
  unfold State.accept
  repeat' first
    | (extract_lets +onlyGivenNames sv; refine keeps_cut (t := sv) ?_ ?_; subst sv; rotate_left; clear_value sv; revert sv; intro _ _; rotate_left)
    | (extract_lets +onlyGivenNames dv; clear_value dv; revert dv; intro _) | with_reducible assumption
    | exact sub_trans rfl hw | with_reducible apply keeps_setStream | with_reducible apply keeps_setEntry
    | with_reducible apply keeps_put | with_reducible apply keeps_process

theorem keeps_pushInjection {W : Nat} {s0 s : State} (i seq r cs : Nat) (hw : parts [.hif, .aid] ||| W = W)
    (hk : Keeps W s0 s) :
    Keeps W s0 (State.pushInjection s i seq r cs) := by
  unfold State.pushInjection
  repeat' first | with_reducible assumption | exact sub_trans rfl hw | with_reducible apply keeps_pushRun | split

theorem keeps_ackReady {W : Nat} {s0 s : State} (i : Nat) (recovery : Bool) (q0 : Nat)
    (hw : parts [.regs, .out, .fresh, .hif, .ras, .mm, .hg, .frf, .fw, .sd, .aid] ||| W = W) (hk : Keeps W s0 s) :
    Keeps W s0 (State.ackReady s i recovery q0) := by
  induction q0 generalizing s with
  | zero =>
    unfold State.ackReady
    repeat' first | with_reducible assumption
  | succ _ ih =>
    unfold State.ackReady
    repeat' first
      | (extract_lets +onlyGivenNames sv; refine keeps_cut (t := sv) ?_ ?_; subst sv; rotate_left; clear_value sv; revert sv; intro _ _; rotate_left)
      | with_reducible assumption | with_reducible apply ih | exact sub_trans rfl hw | with_reducible apply keeps_ite
      | with_reducible apply keeps_setEntry | with_reducible apply keeps_pushInjection | with_reducible apply keeps_accept
      | with_reducible apply keeps_sendAck | split

theorem keeps_ackAll {W : Nat} {s0 s : State} (i : Nat) (recovery : Bool)
    (hw : parts [.regs, .out, .fresh, .hif, .ras, .mm, .hg, .frf, .fw, .sd, .aid] ||| W = W) (hk : Keeps W s0 s) :
    Keeps W s0 (State.ackAll s i recovery) := by
  unfold State.ackAll
  repeat' first | with_reducible assumption | with_reducible apply keeps_ackReady

theorem keeps_journalled {W : Nat} {s0 s : State} (i seq : Nat)
    (hw : parts [.regs, .out, .fresh, .hif, .ras, .mm, .hg, .frf, .fw, .sd, .aid] ||| W = W) (hk : Keeps W s0 s) :
    Keeps W s0 (State.journalled s i seq) := by
  unfold State.journalled
  repeat' first
    | (extract_lets +onlyGivenNames sv; refine keeps_cut (t := sv) ?_ ?_; subst sv; rotate_left; clear_value sv; revert sv; intro _ _; rotate_left)
    | with_reducible assumption | exact sub_trans rfl hw | with_reducible apply keeps_setEntry
    | with_reducible apply keeps_ackAll

theorem keeps_mirrorLate {W : Nat} {s0 s : State} (i seq : Nat) (hw : parts [.time, .regs] ||| W = W) (hk : Keeps W s0 s) :
    Keeps W s0 (State.mirrorLate s i seq) := by
  unfold State.mirrorLate
  repeat' first
    | with_reducible assumption | exact sub_trans rfl hw | with_reducible apply keeps_ite | with_reducible apply keeps_at
    | with_reducible apply keeps_put | split

theorem keeps_beginJournal {W : Nat} {s0 s : State} (i : Nat) (b : Batch)
    (hw : parts [.regs, .out, .hg, .frf, .net] ||| W = W) (hk : Keeps W s0 s) :
    Keeps W s0 (State.beginJournal s i b) := by
  unfold State.beginJournal
  repeat' first
    | exact .inr (sub_trans rfl hw) | with_reducible exact .inl rfl
    | (extract_lets +onlyGivenNames sv; refine keeps_cut (t := sv) ?_ ?_; subst sv; rotate_left; clear_value sv; revert sv; intro _ _; rotate_left)
    | (extract_lets +onlyGivenNames dv; clear_value dv; revert dv; intro _) | with_reducible assumption
    | exact sub_trans rfl hw | with_reducible apply keeps_ite | with_reducible apply keeps_setStream
    | with_reducible apply keeps_put | with_reducible apply keeps_jrnShow | with_reducible apply keeps_toBuddy
    | with_reducible apply keeps_mk

theorem keeps_admitNext {W : Nat} {s0 s : State} (i : Nat) (b : Batch)
    (hw : parts [.regs, .out, .hg, .frf, .net] ||| W = W) (hk : Keeps W s0 s) :
    Keeps W s0 (State.admitNext s i b).1 := by
  unfold State.admitNext
  repeat' first
    | (extract_lets +onlyGivenNames sv; refine keeps_cut (t := sv) ?_ ?_; subst sv; rotate_left; clear_value sv; revert sv; intro _ _; rotate_left)
    | (extract_lets +onlyGivenNames dv; clear_value dv; revert dv; intro _) | with_reducible assumption
    | exact sub_trans rfl hw | with_reducible apply keeps_ite | with_reducible apply keeps_put
    | with_reducible apply keeps_refill | with_reducible apply keeps_beginJournal | split

theorem keeps_takeHeld {W : Nat} {s0 s : State} (i : Nat) (q0 : Nat) (hw : parts [.regs, .out, .hg, .frf, .net] ||| W = W)
    (hk : Keeps W s0 s) :
    Keeps W s0 (State.takeHeld s i q0) := by
  induction q0 generalizing s with
  | zero =>
    unfold State.takeHeld
    repeat' first | with_reducible assumption
  | succ _ ih =>
    unfold State.takeHeld
    repeat' first
      | (extract_lets +onlyGivenNames sv; refine keeps_cut (t := sv) ?_ ?_; subst sv; rotate_left; clear_value sv; revert sv; intro _ _; rotate_left)
      | (extract_lets +onlyGivenNames sv; refine keeps_cut (t := sv.1) ?_ ?_; subst sv; rotate_left; clear_value sv; revert sv; intro _ _; rotate_left)
      | (extract_lets +onlyGivenNames dv; clear_value dv; revert dv; intro _) | with_reducible assumption
      | with_reducible apply ih | exact sub_trans rfl hw | with_reducible apply keeps_setStream
      | with_reducible apply keeps_admitNext | with_reducible apply keeps_bump | with_reducible apply keeps_sendNak
      | split

theorem keeps_showHeld {W : Nat} {s0 s : State} (i : Nat) (hw : parts [.regs, .hg] ||| W = W) (hk : Keeps W s0 s) :
    Keeps W s0 (State.showHeld s i) := by
  unfold State.showHeld
  repeat' first
    | (extract_lets +onlyGivenNames dv; clear_value dv; revert dv; intro _) | with_reducible assumption
    | exact sub_trans rfl hw | with_reducible apply keeps_setStream | with_reducible apply keeps_put

theorem keeps_takeBatch {W : Nat} {s0 s : State} (i : Nat) (b : Batch)
    (hw : parts [.regs, .out, .hg, .frf, .net] ||| W = W) (hk : Keeps W s0 s) :
    Keeps W s0 (State.takeBatch s i b) := by
  unfold State.takeBatch
  repeat' first
    | (extract_lets +onlyGivenNames sv; refine keeps_cut (t := sv.1) ?_ ?_; subst sv; rotate_left; clear_value sv; revert sv; intro _ _; rotate_left)
    | (extract_lets +onlyGivenNames dv; clear_value dv; revert dv; intro _) | with_reducible assumption
    | exact sub_trans rfl hw | with_reducible apply keeps_ite | with_reducible apply keeps_sendNak
    | with_reducible apply keeps_setStream | with_reducible apply keeps_showHeld | with_reducible apply keeps_put
    | with_reducible apply keeps_bump | with_reducible apply keeps_sendAck | with_reducible apply keeps_admitNext
    | with_reducible apply keeps_takeHeld | split

theorem keeps_runnel {W : Nat} {s0 s : State} (port src sport : Nat) (p : List Byte)
    (hw : parts [.regs, .out, .hg, .frf, .net] ||| W = W) (hk : Keeps W s0 s) :
    Keeps W s0 (State.runnel s port src sport p) := by
  unfold State.runnel
  repeat' first
    | with_reducible assumption | exact sub_trans rfl hw | with_reducible apply keeps_ite | with_reducible apply keeps_put
    | with_reducible apply keeps_setStream | with_reducible apply keeps_takeBatch | split

theorem keeps_gapRepeat {W : Nat} {s0 s : State} (i : Nat) (hw : parts [.time, .out, .hg] ||| W = W) (hk : Keeps W s0 s) :
    Keeps W s0 (State.gapRepeat s i) := by
  unfold State.gapRepeat
  repeat' first
    | (extract_lets +onlyGivenNames sv; refine keeps_cut (t := sv) ?_ ?_; subst sv; rotate_left; clear_value sv; revert sv; intro _ _; rotate_left)
    | (extract_lets +onlyGivenNames dv; clear_value dv; revert dv; intro _) | with_reducible assumption
    | exact sub_trans rfl hw | with_reducible apply keeps_at | with_reducible apply keeps_setStream
    | with_reducible apply keeps_sendAck | split

theorem keeps_dropHeld {W : Nat} {s0 s : State} (i seq : Nat) (hw : parts [.time, .regs, .hg] ||| W = W)
    (hk : Keeps W s0 s) :
    Keeps W s0 (State.dropHeld s i seq) := by
  unfold State.dropHeld
  repeat' first
    | (extract_lets +onlyGivenNames sv; refine keeps_cut (t := sv) ?_ ?_; subst sv; rotate_left; clear_value sv; revert sv; intro _ _; rotate_left)
    | (extract_lets +onlyGivenNames dv; clear_value dv; revert dv; intro _) | with_reducible assumption
    | exact sub_trans rfl hw | with_reducible apply keeps_at | with_reducible apply keeps_setStream
    | with_reducible apply keeps_bump | with_reducible apply keeps_showHeld | split

theorem keeps_guardExpiry {W : Nat} {s0 s : State} (i : Nat)
    (hw : parts [.time, .regs, .out, .fresh, .hif, .ras, .mm, .hg, .sd] ||| W = W) (hk : Keeps W s0 s) :
    Keeps W s0 (State.guardExpiry s i) := by
  unfold State.guardExpiry
  repeat' first
    | with_reducible assumption | exact sub_trans rfl hw | with_reducible apply keeps_at
    | with_reducible apply keeps_closeSlice | split

theorem keeps_hgGlbCommit {W : Nat} {s0 s : State} (req val : Nat) (hw : parts [.regs, .shadow, .groups] ||| W = W)
    (hk : Keeps W s0 s) :
    Keeps W s0 (State.hgGlbCommit s req val) := by
  unfold State.hgGlbCommit
  repeat' first
    | with_reducible assumption | exact sub_trans rfl hw | with_reducible apply keeps_commitNow
    | with_reducible apply keeps_jrnShow

theorem keeps_openStream {W : Nat} {s0 s : State} (i : Nat) (hw : parts [.regs, .hif, .ras, .hg, .frf, .sd] ||| W = W)
    (hk : Keeps W s0 s) :
    Keeps W s0 (State.openStream s i) := by
  unfold State.openStream
  repeat' first
    | exact .inr (sub_trans rfl hw) | with_reducible exact .inl rfl
    | (extract_lets +onlyGivenNames dv; clear_value dv; revert dv; intro _) | with_reducible assumption
    | exact sub_trans rfl hw | with_reducible apply keeps_endLife | with_reducible apply keeps_setStream
    | with_reducible apply keeps_put | with_reducible apply keeps_clearMasks | with_reducible apply keeps_mk

theorem keeps_drainStream {W : Nat} {s0 s : State} (i : Nat) (hw : parts [.regs, .hg] ||| W = W) (hk : Keeps W s0 s) :
    Keeps W s0 (State.drainStream s i) := by
  unfold State.drainStream
  repeat' first
    | (extract_lets +onlyGivenNames sv; refine keeps_cut (t := sv) ?_ ?_; subst sv; rotate_left; clear_value sv; revert sv; intro _ _; rotate_left)
    | (extract_lets +onlyGivenNames dv; clear_value dv; revert dv; intro _) | with_reducible assumption
    | exact sub_trans rfl hw | with_reducible apply keeps_bumpBy | with_reducible apply keeps_setStream
    | with_reducible apply keeps_put

theorem keeps_hgStreamCommit {W : Nat} {s0 s : State} (req i val : Nat)
    (hw : parts [.regs, .shadow, .groups, .hif, .ras, .hg, .frf, .sd] ||| W = W) (hk : Keeps W s0 s) :
    Keeps W s0 (State.hgStreamCommit s req i val) := by
  unfold State.hgStreamCommit
  repeat' first
    | (extract_lets +onlyGivenNames sv; refine keeps_cut (t := sv) ?_ ?_; subst sv; rotate_left; clear_value sv; revert sv; intro _ _; rotate_left)
    | (extract_lets +onlyGivenNames dv; clear_value dv; revert dv; intro _) | with_reducible assumption
    | exact sub_trans rfl hw | with_reducible apply keeps_ite | with_reducible apply keeps_commitNow
    | with_reducible apply keeps_openStream | with_reducible apply keeps_commitLater
    | with_reducible apply keeps_commitSplit | with_reducible apply keeps_drainStream

theorem keeps_streamApplied {W : Nat} {s0 s : State} (i : Nat) (before : State) (hw : parts [.time, .regs, .hg] ||| W = W)
    (hk : Keeps W s0 s) :
    Keeps W s0 (State.streamApplied s i before) := by
  unfold State.streamApplied
  repeat' first
    | (extract_lets +onlyGivenNames dv; clear_value dv; revert dv; intro _) | with_reducible assumption
    | exact sub_trans rfl hw | with_reducible apply keeps_setStream | with_reducible apply keeps_setTokens

/-! ### Machine/Stand.lean -/

theorem keeps_enrol {W : Nat} {s0 s : State} (t : Nat) (isIn : Bool) (hw : parts [.regs] ||| W = W) (hk : Keeps W s0 s) :
    Keeps W s0 (State.enrol s t isIn) := by
  unfold State.enrol
  repeat' first
    | (extract_lets +onlyGivenNames dv; clear_value dv; revert dv; intro _) | with_reducible assumption
    | with_reducible apply keeps_put

theorem keeps_admitRun {W : Nat} {s0 s : State} (g t : Nat) (r : SliceRun) (hw : parts [.regs, .out, .mm, .sd] ||| W = W)
    (hk : Keeps W s0 s) :
    Keeps W s0 (State.admitRun s g t r) := by
  unfold State.admitRun
  repeat' first
    | exact .inr (sub_trans rfl hw) | with_reducible exact .inl rfl
    | (extract_lets +onlyGivenNames sv; refine keeps_cut (t := sv) ?_ ?_; subst sv; rotate_left; clear_value sv; revert sv; intro _ _; rotate_left)
    | (extract_lets +onlyGivenNames dv; clear_value dv; revert dv; intro _) | with_reducible assumption
    | exact sub_trans rfl hw | with_reducible apply keeps_ite | with_reducible apply keeps_take
    | with_reducible apply keeps_takeFrames | with_reducible apply keeps_bump | with_reducible apply keeps_mk

theorem keeps_dispatch {W : Nat} {s0 s : State} (g t : Nat) (hw : parts [.regs, .out, .mm, .sd] ||| W = W)
    (hk : Keeps W s0 s) :
    Keeps W s0 (State.dispatch s g t) := by
  unfold State.dispatch
  repeat' first
    | exact .inr (sub_trans rfl hw) | with_reducible exact .inl rfl
    | (extract_lets +onlyGivenNames sv; refine keeps_cut (t := sv) ?_ ?_; subst sv; rotate_left; clear_value sv; revert sv; intro _ _; rotate_left)
    | (extract_lets +onlyGivenNames dv; clear_value dv; revert dv; intro _) | with_reducible assumption
    | exact sub_trans rfl hw | with_reducible apply keeps_ite | with_reducible apply keeps_put
    | with_reducible apply keeps_admitRun | with_reducible apply keeps_setReg | split | with_reducible apply keeps_mk

theorem keeps_sramCorrected {W : Nat} {s0 s : State} (t : Nat)
    (hw : parts [.regs, .out, .hif, .ras, .frf, .fw, .aid, .net, .sec] ||| W = W) (hk : Keeps W s0 s) :
    Keeps W s0 (State.sramCorrected s t) := by
  unfold State.sramCorrected
  repeat' first
    | with_reducible assumption | exact sub_trans rfl hw | with_reducible apply keeps_corrected
    | with_reducible apply keeps_put

theorem keeps_haloPublish {W : Nat} {s0 s : State} (t c j i k : Nat) (hw : parts [.regs, .sd] ||| W = W)
    (hk : Keeps W s0 s) :
    Keeps W s0 (State.haloPublish s t c j i k) := by
  unfold State.haloPublish
  repeat' first
    | exact .inr (sub_trans rfl hw) | with_reducible exact .inl rfl
    | (extract_lets +onlyGivenNames sv; refine keeps_cut (t := sv) ?_ ?_; subst sv; rotate_left; clear_value sv; revert sv; intro _ _; rotate_left)
    | (extract_lets +onlyGivenNames dv; clear_value dv; revert dv; intro _) | with_reducible assumption
    | exact sub_trans rfl hw | with_reducible apply keeps_ite | with_reducible apply keeps_bumpBy
    | with_reducible apply keeps_put | split | with_reducible apply keeps_mk

theorem keeps_haloRestart {W : Nat} {s0 s : State} (g : Nat) (hw : parts [.sd] ||| W = W) (hk : Keeps W s0 s) :
    Keeps W s0 (State.haloRestart s g) := by
  unfold State.haloRestart
  repeat' first
    | exact .inr (sub_trans rfl hw) | with_reducible exact .inl rfl | with_reducible assumption
    | with_reducible apply keeps_mk

theorem keeps_restartGroup {W : Nat} {s0 s : State} (g : Nat) (held : Bool) (hw : parts [.sd] ||| W = W)
    (hk : Keeps W s0 s) :
    Keeps W s0 (State.restartGroup s g held) := by
  unfold State.restartGroup
  repeat' first
    | exact .inr (sub_trans rfl hw) | with_reducible exact .inl rfl
    | (extract_lets +onlyGivenNames dv; clear_value dv; revert dv; intro _) | with_reducible assumption
    | with_reducible apply keeps_mk

theorem keeps_shelve {W : Nat} {s0 s : State} (g : Nat) (hw : parts [.sd] ||| W = W) (hk : Keeps W s0 s) :
    Keeps W s0 (State.shelve s g) := by
  unfold State.shelve
  repeat' first
    | exact .inr (sub_trans rfl hw) | with_reducible exact .inl rfl
    | (extract_lets +onlyGivenNames dv; clear_value dv; revert dv; intro _) | with_reducible assumption
    | with_reducible apply keeps_mk

theorem keeps_tileFail {W : Nat} {s0 s : State} (t cond flags : Nat)
    (hw : parts [.regs, .shadow, .groups, .out, .hif, .ras, .frf, .fw, .sd, .aid, .mbx, .net, .sec, .adm] ||| W = W)
    (hk : Keeps W s0 s) :
    Keeps W s0 (State.tileFail s t cond flags) := by
  unfold State.tileFail
  repeat' first
    | intro _
    | (extract_lets +onlyGivenNames sv; refine keeps_cut (t := sv) ?_ ?_; subst sv; rotate_left; clear_value sv; revert sv; intro _ _; rotate_left)
    | (extract_lets +onlyGivenNames dv; clear_value dv; revert dv; intro _) | with_reducible assumption
    | exact sub_trans rfl hw | with_reducible apply keeps_ite | with_reducible apply keeps_each
    | with_reducible apply keeps_put | with_reducible apply keeps_endReset | with_reducible apply keeps_singlePartFault
    | with_reducible apply keeps_degraded | with_reducible apply keeps_askCapacity
    | with_reducible apply keeps_haloRestart | with_reducible apply keeps_restartGroup | with_reducible apply keeps_enrol
    | with_reducible apply keeps_shelve | with_reducible apply keeps_withdraw | with_reducible apply keeps_beginSusp
    | split

theorem keeps_release {W : Nat} {s0 s : State} (g : Nat) (hw : parts [.sd] ||| W = W) (hk : Keeps W s0 s) :
    Keeps W s0 (State.release s g) := by
  unfold State.release
  repeat' first
    | exact .inr (sub_trans rfl hw) | with_reducible exact .inl rfl | with_reducible assumption
    | with_reducible apply keeps_mk

theorem keeps_absorbDone {W : Nat} {s0 s : State} (g : Nat) (hw : parts [.regs, .sd] ||| W = W) (hk : Keeps W s0 s) :
    Keeps W s0 (State.absorbDone s g) := by
  unfold State.absorbDone
  repeat' first
    | intro _
    | (extract_lets +onlyGivenNames sv; refine keeps_cut (t := sv) ?_ ?_; subst sv; rotate_left; clear_value sv; revert sv; intro _ _; rotate_left)
    | with_reducible assumption | exact sub_trans rfl hw | with_reducible apply keeps_ite
    | with_reducible apply keeps_each | with_reducible apply keeps_put | with_reducible apply keeps_release

theorem keeps_remapDone {W : Nat} {s0 s : State} (g : Nat) (hw : parts [.regs, .hif, .ras, .sd] ||| W = W)
    (hk : Keeps W s0 s) :
    Keeps W s0 (State.remapDone s g) := by
  unfold State.remapDone
  repeat' first
    | intro _
    | (extract_lets +onlyGivenNames sv; refine keeps_cut (t := sv) ?_ ?_; subst sv; rotate_left; clear_value sv; revert sv; intro _ _; rotate_left)
    | with_reducible assumption | exact sub_trans rfl hw | with_reducible apply keeps_ite
    | with_reducible apply keeps_each | with_reducible apply keeps_put | with_reducible apply keeps_release
    | with_reducible apply keeps_endSusp

theorem keeps_layerComplete {W : Nat} {s0 s : State} (t j : Nat) (ls : List Layer) (l : Layer) (r : SliceRun)
    (hw : parts [.regs, .mem, .fresh, .sd] ||| W = W) (hk : Keeps W s0 s) :
    Keeps W s0 (State.layerComplete s t j ls l r).1 := by
  unfold State.layerComplete
  repeat' first
    | exact .inr (sub_trans rfl hw) | with_reducible exact .inl rfl
    | (extract_lets +onlyGivenNames sv; refine keeps_cut (t := sv) ?_ ?_; subst sv; rotate_left; clear_value sv; revert sv; intro _ _; rotate_left)
    | (extract_lets +onlyGivenNames dv; clear_value dv; revert dv; intro _) | with_reducible assumption
    | exact sub_trans rfl hw | with_reducible apply keeps_ite | with_reducible apply keeps_tickFree
    | with_reducible apply keeps_bumpBy | with_reducible apply keeps_put | split
    | with_reducible refine keeps_memOf ?_ (sub_trans rfl hw) (fun h => Memory.wf_putAll h _ _) ?_ ?_ ?_ ?_ ?_ ?_ ?_ ?_ ?_ ?_ ?_ ?_ ?_ ?_ ?_ ?_ ?_ ?_ ?_ ?_ ?_ ?_
    | with_reducible apply keeps_mk

theorem keeps_handOver {W : Nat} {s0 s : State} (r : SliceRun) (hw : parts [.out, .mm, .sd] ||| W = W) (hk : Keeps W s0 s) :
    Keeps W s0 (State.handOver s r) := by
  unfold State.handOver
  repeat' first
    | exact .inr (sub_trans rfl hw) | with_reducible exact .inl rfl
    | (extract_lets +onlyGivenNames sv; refine keeps_cut (t := sv) ?_ ?_; subst sv; rotate_left; clear_value sv; revert sv; intro _ _; rotate_left)
    | (extract_lets +onlyGivenNames dv; clear_value dv; revert dv; intro _) | with_reducible assumption
    | exact sub_trans rfl hw | with_reducible apply keeps_ite | with_reducible apply keeps_give | split
    | with_reducible apply keeps_mk

theorem keeps_countRun {W : Nat} {s0 s : State} (t : Nat) (o : LayerOut) (corrected : Bool)
    (hw : parts [.regs, .out, .hif, .ras, .frf, .fw, .aid, .net, .sec] ||| W = W) (hk : Keeps W s0 s) :
    Keeps W s0 (State.countRun s t o corrected) := by
  unfold State.countRun
  repeat' first
    | (extract_lets +onlyGivenNames sv; refine keeps_cut (t := sv) ?_ ?_; subst sv; rotate_left; clear_value sv; revert sv; intro _ _; rotate_left)
    | with_reducible assumption | exact sub_trans rfl hw | with_reducible apply keeps_ite
    | with_reducible apply keeps_bump | with_reducible apply keeps_bumpBy | with_reducible apply keeps_put
    | with_reducible apply keeps_sramCorrected

theorem keeps_finishLayer {W : Nat} {s0 s : State} (g t : Nat) (j : TileJob) (run : LayerRun)
    (hw : parts [.regs, .shadow, .groups, .mem, .out, .fresh, .hif, .ras, .mm, .frf, .fw, .sd, .aid, .mbx, .net, .sec, .adm] ||| W = W)
    (hk : Keeps W s0 s) :
    Keeps W s0 (State.finishLayer s g t j run) := by
  unfold State.finishLayer
  repeat' first
    | exact .inr (sub_trans rfl hw) | with_reducible exact .inl rfl
    | (extract_lets +onlyGivenNames sv; refine keeps_cut (t := sv) ?_ ?_; subst sv; rotate_left; clear_value sv; revert sv; intro _ _; rotate_left)
    | (extract_lets +onlyGivenNames sv; refine keeps_cut (t := sv.1) ?_ ?_; subst sv; rotate_left; clear_value sv; revert sv; intro _ _; rotate_left)
    | (extract_lets +onlyGivenNames dv; clear_value dv; revert dv; intro _) | with_reducible assumption
    | exact sub_trans rfl hw | with_reducible apply keeps_ite | with_reducible apply keeps_put
    | with_reducible apply keeps_tileFail | with_reducible apply keeps_bumpBy | with_reducible apply keeps_countRun
    | with_reducible apply keeps_layerComplete | with_reducible apply keeps_handOver | split
    | with_reducible apply keeps_mk

theorem keeps_layerBoundary {W : Nat} {s0 s : State} (t : Nat) (run : LayerRun)
    (hw : parts [.regs, .shadow, .groups, .mem, .out, .fresh, .hif, .ras, .mm, .frf, .fw, .sd, .aid, .mbx, .net, .sec, .adm] ||| W = W)
    (hk : Keeps W s0 s) :
    Keeps W s0 (State.layerBoundary s t run) := by
  unfold State.layerBoundary
  repeat' first
    | (extract_lets +onlyGivenNames sv; refine keeps_cut (t := sv) ?_ ?_; subst sv; rotate_left; clear_value sv; revert sv; intro _ _; rotate_left)
    | with_reducible assumption | exact sub_trans rfl hw | with_reducible apply keeps_ite
    | with_reducible apply keeps_absorbDone | with_reducible apply keeps_finishLayer | with_reducible apply keeps_dispatch
    | split

theorem keeps_stCommit {W : Nat} {s0 s : State} (req t val : Nat) (hw : parts [.regs, .shadow, .groups] ||| W = W)
    (hk : Keeps W s0 s) :
    Keeps W s0 (State.stCommit s req t val) := by
  unfold State.stCommit
  repeat' first
    | (extract_lets +onlyGivenNames sv; refine keeps_cut (t := sv) ?_ ?_; subst sv; rotate_left; clear_value sv; revert sv; intro _ _; rotate_left)
    | (extract_lets +onlyGivenNames dv; clear_value dv; revert dv; intro _) | with_reducible assumption
    | exact sub_trans rfl hw | with_reducible apply keeps_ite | with_reducible apply keeps_commitNow
    | with_reducible apply keeps_enrol | with_reducible apply keeps_put

/-! ### Machine/Tracks.lean -/

theorem keeps_setTrack {W : Nat} {s0 s : State} (i : Nat) (x : Slot) (hw : parts [.cp] ||| W = W) (hk : Keeps W s0 s) :
    Keeps W s0 (State.setTrack s i x) := by
  unfold State.setTrack
  repeat' first
    | exact .inr (sub_trans rfl hw) | with_reducible exact .inl rfl | with_reducible assumption
    | with_reducible apply keeps_mk

/-! ### Machine/Fusion.lean -/

theorem keeps_setCpg {W : Nat} {s0 s : State} (g : Nat) (x : CpGroup) (hw : parts [.cp] ||| W = W) (hk : Keeps W s0 s) :
    Keeps W s0 (State.setCpg s g x) := by
  unfold State.setCpg
  repeat' first
    | exact .inr (sub_trans rfl hw) | with_reducible exact .inl rfl | with_reducible assumption
    | with_reducible apply keeps_mk

theorem keeps_setReason {W : Nat} {s0 s : State} (i n : Nat) (on : Bool) (hw : parts [.regs] ||| W = W)
    (hk : Keeps W s0 s) :
    Keeps W s0 (State.setReason s i n on) := by
  unfold State.setReason
  repeat' first | with_reducible assumption | with_reducible apply keeps_put

/-! ### Machine/Coppice.lean -/

theorem keeps_showGroup {W : Nat} {s0 s : State} (g : Nat) (hw : parts [.regs] ||| W = W) (hk : Keeps W s0 s) :
    Keeps W s0 (State.showGroup s g) := by
  unfold State.showGroup
  repeat' first
    | (extract_lets +onlyGivenNames dv; clear_value dv; revert dv; intro _) | with_reducible assumption
    | with_reducible apply keeps_put

theorem keeps_openInstant {W : Nat} {s0 s : State} (g k : Nat) (hw : parts [.regs, .shadow, .groups, .cp] ||| W = W)
    (hk : Keeps W s0 s) :
    Keeps W s0 (State.openInstant s g k) := by
  unfold State.openInstant
  repeat' first
    | (extract_lets +onlyGivenNames sv; refine keeps_cut (t := sv) ?_ ?_; subst sv; rotate_left; clear_value sv; revert sv; intro _ _; rotate_left)
    | (extract_lets +onlyGivenNames dv; clear_value dv; revert dv; intro _) | with_reducible assumption
    | exact sub_trans rfl hw | with_reducible apply keeps_ite | with_reducible apply keeps_applyPending
    | with_reducible apply keeps_setCpg

theorem keeps_dropout {W : Nat} {s0 s : State} (g i : Nat) (timedOut arrived : Bool) (hw : parts [.regs] ||| W = W)
    (hk : Keeps W s0 s) :
    Keeps W s0 (State.dropout s g i timedOut arrived) := by
  unfold State.dropout
  repeat' first
    | (extract_lets +onlyGivenNames dv; clear_value dv; revert dv; intro _) | with_reducible assumption
    | with_reducible apply keeps_ite | with_reducible apply keeps_put | with_reducible apply keeps_setReason

theorem keeps_releaseInstant {W : Nat} {s0 s : State} (g : Nat) (o : Instant) (hw : parts [.regs, .hg, .cp] ||| W = W)
    (hk : Keeps W s0 s) :
    Keeps W s0 (State.releaseInstant s g o) := by
  unfold State.releaseInstant
  repeat' first
    | intro _
    | (extract_lets +onlyGivenNames sv; refine keeps_cut (t := sv) ?_ ?_; subst sv; rotate_left; clear_value sv; revert sv; intro _ _; rotate_left)
    | (extract_lets +onlyGivenNames dv; clear_value dv; revert dv; intro _) | with_reducible assumption
    | exact sub_trans rfl hw | with_reducible apply keeps_each | with_reducible apply keeps_setCpg
    | with_reducible apply keeps_setStream | with_reducible apply keeps_setReason | with_reducible apply keeps_dropout
    | with_reducible apply keeps_put | with_reducible apply keeps_setReg | with_reducible apply keeps_bump
    | with_reducible apply keeps_bumpBy

theorem keeps_tryRelease {W : Nat} {s0 s : State} (g now : Nat) (q0 : Nat) (hw : parts [.regs, .hg, .cp] ||| W = W)
    (hk : Keeps W s0 s) :
    Keeps W s0 (State.tryRelease s g now q0) := by
  induction q0 generalizing s with
  | zero =>
    unfold State.tryRelease
    repeat' first | with_reducible assumption | exact sub_trans rfl hw | with_reducible apply keeps_showGroup
  | succ _ ih =>
    unfold State.tryRelease
    repeat' first
      | (extract_lets +onlyGivenNames dv; clear_value dv; revert dv; intro _) | with_reducible assumption
      | with_reducible apply ih | exact sub_trans rfl hw | with_reducible apply keeps_ite
      | with_reducible apply keeps_showGroup | with_reducible apply keeps_releaseInstant | split

theorem keeps_releaseDue {W : Nat} {s0 s : State} (g : Nat) (hw : parts [.regs, .hg, .cp] ||| W = W) (hk : Keeps W s0 s) :
    Keeps W s0 (State.releaseDue s g) := by
  unfold State.releaseDue
  repeat' first | with_reducible assumption | with_reducible apply keeps_tryRelease

theorem keeps_releaseOverdue {W : Nat} {s0 s : State} (g : Nat) (hw : parts [.regs, .hg, .cp] ||| W = W)
    (hk : Keeps W s0 s) :
    Keeps W s0 (State.releaseOverdue s g) := by
  unfold State.releaseOverdue
  repeat' first | with_reducible assumption | with_reducible apply keeps_tryRelease

theorem keeps_addPresent {W : Nat} {s0 s : State} (g : Nat) (f : Feat) (hw : parts [.cp] ||| W = W) (hk : Keeps W s0 s) :
    Keeps W s0 (State.addPresent s g f) := by
  unfold State.addPresent
  repeat' first
    | (extract_lets +onlyGivenNames dv; clear_value dv; revert dv; intro _) | with_reducible assumption
    | with_reducible apply keeps_setCpg

theorem keeps_syncReason {W : Nat} {s0 s : State} (g i k : Nat) (unsynced : Bool) (hw : parts [.regs] ||| W = W)
    (hk : Keeps W s0 s) :
    Keeps W s0 (State.syncReason s g i k unsynced) := by
  unfold State.syncReason
  repeat' first | with_reducible assumption | with_reducible apply keeps_ite | with_reducible apply keeps_setReason

theorem keeps_featureArrival {W : Nat} {s0 s : State} (word0 word1 : List Byte)
    (hw : parts [.regs, .shadow, .groups, .out, .mm, .hg, .sd, .cp] ||| W = W) (hk : Keeps W s0 s) :
    Keeps W s0 (State.featureArrival s word0 word1) := by
  unfold State.featureArrival
  repeat' first
    | exact .inr (sub_trans rfl hw) | with_reducible exact .inl rfl
    | (extract_lets +onlyGivenNames sv; refine keeps_cut (t := sv) ?_ ?_; subst sv; rotate_left; clear_value sv; revert sv; intro _ _; rotate_left)
    | (extract_lets +onlyGivenNames dv; clear_value dv; revert dv; intro _) | with_reducible assumption
    | exact sub_trans rfl hw | with_reducible apply keeps_ite | with_reducible apply keeps_take
    | with_reducible apply keeps_releaseOverdue | with_reducible apply keeps_syncReason
    | with_reducible apply keeps_openInstant | with_reducible apply keeps_setCpg | with_reducible apply keeps_addPresent
    | with_reducible apply keeps_releaseDue | with_reducible apply keeps_mk

theorem keeps_openTimeout {W : Nat} {s0 s : State} (g : Nat)
    (hw : parts [.time, .regs, .shadow, .groups, .hg, .cp] ||| W = W) (hk : Keeps W s0 s) :
    Keeps W s0 (State.openTimeout s g) := by
  unfold State.openTimeout
  repeat' first
    | (extract_lets +onlyGivenNames sv; refine keeps_cut (t := sv) ?_ ?_; subst sv; rotate_left; clear_value sv; revert sv; intro _ _; rotate_left)
    | with_reducible assumption | exact sub_trans rfl hw | with_reducible apply keeps_ite | with_reducible apply keeps_at
    | with_reducible apply keeps_releaseOverdue | with_reducible apply keeps_openInstant
    | with_reducible apply keeps_releaseDue | split

theorem keeps_instantExpiry {W : Nat} {s0 s : State} (g : Nat) (hw : parts [.time, .regs, .hg, .cp] ||| W = W)
    (hk : Keeps W s0 s) :
    Keeps W s0 (State.instantExpiry s g) := by
  unfold State.instantExpiry
  repeat' first
    | with_reducible assumption | exact sub_trans rfl hw | with_reducible apply keeps_ite | with_reducible apply keeps_at
    | with_reducible apply keeps_releaseDue | split

theorem keeps_agree {W : Nat} {s0 s : State} (g i : Nat) (a : Option Nat) (hw : parts [.regs] ||| W = W)
    (hk : Keeps W s0 s) :
    Keeps W s0 (State.agree s g i a) := by
  unfold State.agree
  repeat' first
    | (extract_lets +onlyGivenNames sv; refine keeps_cut (t := sv) ?_ ?_; subst sv; rotate_left; clear_value sv; revert sv; intro _ _; rotate_left)
    | (extract_lets +onlyGivenNames dv; clear_value dv; revert dv; intro _) | with_reducible assumption
    | with_reducible apply keeps_ite | with_reducible apply keeps_put | with_reducible apply keeps_setReason | split

theorem keeps_zeroGrid {W : Nat} {s0 s : State} (g : Nat) (hw : parts [.mem] ||| W = W)
    (hk : Keeps W s0 s) : Keeps W s0 (s.zeroGrid g) :=
  keeps_memOnly hk hw fun c => Memory.wf_filter c _

theorem keeps_cacheSlot {W : Nat} {s0 s : State} (u i : Nat) (hw : parts [.regs, .mem, .fresh, .mm, .cp] ||| W = W)
    (hk : Keeps W s0 s) :
    Keeps W s0 (State.cacheSlot s u i) := by
  unfold State.cacheSlot
  repeat' first
    | exact .inr (sub_trans rfl hw) | with_reducible exact .inl rfl
    | (extract_lets +onlyGivenNames sv; refine keeps_cut (t := sv) ?_ ?_; subst sv; rotate_left; clear_value sv; revert sv; intro _ _; rotate_left)
    | (extract_lets +onlyGivenNames dv; clear_value dv; revert dv; intro _) | with_reducible assumption
    | exact sub_trans rfl hw | with_reducible apply keeps_ite | with_reducible apply keeps_bump
    | with_reducible apply keeps_tickFree | with_reducible apply keeps_dramPut | with_reducible apply keeps_mk

theorem keeps_showCache {W : Nat} {s0 s : State} (u : Nat) (hw : parts [.regs] ||| W = W) (hk : Keeps W s0 s) :
    Keeps W s0 (State.showCache s u) := by
  unfold State.showCache
  repeat' first | with_reducible assumption | with_reducible apply keeps_put

theorem keeps_runPass {W : Nat} {s0 s : State} (g k : Nat) (dets : List Det)
    (hw : parts [.regs, .mem, .fresh, .mm, .cp] ||| W = W) (hk : Keeps W s0 s) :
    Keeps W s0 (State.runPass s g k dets).1 := by
  unfold State.runPass
  repeat' first
    | intro _
    | (extract_lets +onlyGivenNames sv; refine keeps_cut (t := sv) ?_ ?_; subst sv; rotate_left; clear_value sv; revert sv; intro _ _; rotate_left)
    | (extract_lets +onlyGivenNames dv; clear_value dv; revert dv; intro _) | with_reducible assumption
    | exact sub_trans rfl hw | with_reducible apply keeps_ite | with_reducible apply keeps_each
    | with_reducible apply keeps_cacheSlot | with_reducible apply keeps_showCache | with_reducible apply keeps_setTrack
    | with_reducible apply keeps_setCpg | with_reducible apply keeps_bumpBy | with_reducible apply keeps_put
    | with_reducible apply keeps_tickFree

theorem keeps_scoreMembers {W : Nat} {s0 s : State} (g : Nat) (r : Released) (im : Image) (hw : parts [.regs] ||| W = W)
    (hk : Keeps W s0 s) :
    Keeps W s0 (State.scoreMembers s g r im) := by
  unfold State.scoreMembers
  repeat' first
    | intro _ | (extract_lets +onlyGivenNames dv; clear_value dv; revert dv; intro _) | with_reducible assumption
    | with_reducible apply keeps_each | with_reducible apply keeps_agree

theorem keeps_ringFull {W : Nat} {s0 s : State} (g n : Nat) (views : List Feat) (hw : parts [.regs, .hif, .ras] ||| W = W)
    (hk : Keeps W s0 s) :
    Keeps W s0 (State.ringFull s g n views) := by
  unfold State.ringFull
  repeat' first
    | (extract_lets +onlyGivenNames dv; clear_value dv; revert dv; intro _) | with_reducible assumption
    | with_reducible apply keeps_ringSpace

theorem keeps_views {W : Nat} {s0 s : State} (g : Nat) (r : Released) (hw : parts [.hif, .hg, .cp] ||| W = W)
    (hk : Keeps W s0 s) :
    Keeps W s0 (State.views s g r) := by
  unfold State.views
  repeat' first
    | exact .inr (sub_trans rfl hw) | with_reducible exact .inl rfl | intro _
    | (extract_lets +onlyGivenNames sv; refine keeps_cut (t := sv) ?_ ?_; subst sv; rotate_left; clear_value sv; revert sv; intro _ _; rotate_left)
    | (extract_lets +onlyGivenNames dv; clear_value dv; revert dv; intro _) | with_reducible assumption
    | exact sub_trans rfl hw | with_reducible apply keeps_each | with_reducible apply keeps_setStream
    | with_reducible apply keeps_pushViews | with_reducible apply keeps_mk

theorem keeps_readOut {W : Nat} {s0 s : State} (g : Nat) (r : Released) (gridReset exhausted : Bool)
    (hw : parts [.regs, .out, .fresh, .hif, .ras, .hg, .frf, .cp, .net] ||| W = W) (hk : Keeps W s0 s) :
    Keeps W s0 (State.readOut s g r gridReset exhausted) := by
  unfold State.readOut
  repeat' first
    | exact .inr (sub_trans rfl hw) | with_reducible exact .inl rfl | intro _
    | (extract_lets +onlyGivenNames sv; refine keeps_cut (t := sv) ?_ ?_; subst sv; rotate_left; clear_value sv; revert sv; intro _ _; rotate_left)
    | (extract_lets +onlyGivenNames dv; clear_value dv; revert dv; intro _) | with_reducible assumption
    | exact sub_trans rfl hw | with_reducible apply keeps_ite | with_reducible apply keeps_each
    | with_reducible apply keeps_tickFree | with_reducible apply keeps_setTrack | with_reducible apply keeps_bumpBy
    | with_reducible apply keeps_put | with_reducible apply keeps_ringFull | with_reducible apply keeps_deliver
    | with_reducible apply keeps_views | with_reducible apply keeps_setCpg | with_reducible apply keeps_mk

theorem keeps_gridReset {W : Nat} {s0 s : State} (g k n : Nat) (hw : parts [.regs, .mem, .mm] ||| W = W)
    (hk : Keeps W s0 s) :
    Keeps W s0 (State.gridReset s g k n) := by
  unfold State.gridReset
  repeat' first
    | exact .inr (sub_trans rfl hw) | with_reducible exact .inl rfl
    | (extract_lets +onlyGivenNames sv; refine keeps_cut (t := sv) ?_ ?_; subst sv; rotate_left; clear_value sv; revert sv; intro _ _; rotate_left)
    | (extract_lets +onlyGivenNames dv; clear_value dv; revert dv; intro _) | with_reducible assumption
    | exact sub_trans rfl hw | with_reducible apply keeps_put | with_reducible apply keeps_bump
    | with_reducible apply keeps_lineGood | split
    | with_reducible refine keeps_memOf ?_ (sub_trans rfl hw) (fun h => Memory.wf_filter h _) ?_ ?_ ?_ ?_ ?_ ?_ ?_ ?_ ?_ ?_ ?_ ?_ ?_ ?_ ?_ ?_ ?_ ?_ ?_ ?_ ?_ ?_

theorem keeps_gridReady {W : Nat} {s0 s : State} (g k : Nat) (lost : List Nat)
    (hw : parts [.regs, .mem, .mm, .img] ||| W = W) (hk : Keeps W s0 s) :
    Keeps W s0 (State.gridReady s g k lost).1 := by
  unfold State.gridReady
  repeat' first
    | exact .inr (sub_trans rfl hw) | with_reducible exact .inl rfl | intro _
    | (extract_lets +onlyGivenNames sv; refine keeps_cut (t := sv) ?_ ?_; subst sv; rotate_left; clear_value sv; revert sv; intro _ _; rotate_left)
    | (extract_lets +onlyGivenNames dv; clear_value dv; revert dv; intro _) | with_reducible assumption
    | exact sub_trans rfl hw | with_reducible apply keeps_ite | with_reducible apply keeps_each
    | with_reducible apply keeps_zeroGrid | with_reducible apply keeps_gridReset | with_reducible apply keeps_put
    | with_reducible apply keeps_bumpBy | with_reducible apply keeps_mk

theorem keeps_fuse {W : Nat} {s0 s : State} (g : Nat) (fu : Fused)
    (hw : parts [.regs, .mem, .out, .fresh, .hif, .ras, .mm, .hg, .frf, .img, .cp, .net] ||| W = W) (hk : Keeps W s0 s) :
    Keeps W s0 (State.fuse s g fu) := by
  unfold State.fuse
  repeat' first
    | (extract_lets +onlyGivenNames sv; refine keeps_cut (t := sv) ?_ ?_; subst sv; rotate_left; clear_value sv; revert sv; intro _ _; rotate_left)
    | (extract_lets +onlyGivenNames sv; refine keeps_cut (t := sv.1) ?_ ?_; subst sv; rotate_left; clear_value sv; revert sv; intro _ _; rotate_left)
    | (extract_lets +onlyGivenNames dv; clear_value dv; revert dv; intro _) | with_reducible assumption
    | exact sub_trans rfl hw | with_reducible apply keeps_ite | with_reducible apply keeps_put
    | with_reducible apply keeps_gridReady | with_reducible apply keeps_dramPut | with_reducible apply keeps_bumpBy
    | with_reducible apply keeps_scoreMembers | with_reducible apply keeps_runPass | with_reducible apply keeps_setCpg
    | with_reducible apply keeps_readOut | with_reducible apply keeps_showGroup | split

theorem keeps_writeCkpt {W : Nat} {s0 s : State} (g k : Nat) (hw : parts [.regs, .mem, .mm, .cp] ||| W = W)
    (hk : Keeps W s0 s) :
    Keeps W s0 (State.writeCkpt s g k) := by
  unfold State.writeCkpt
  repeat' first
    | intro _
    | (extract_lets +onlyGivenNames sv; refine keeps_cut (t := sv) ?_ ?_; subst sv; rotate_left; clear_value sv; revert sv; intro _ _; rotate_left)
    | (extract_lets +onlyGivenNames dv; clear_value dv; revert dv; intro _) | with_reducible assumption
    | exact sub_trans rfl hw | with_reducible apply keeps_each | with_reducible apply keeps_dramPut
    | with_reducible apply keeps_setCpg

theorem keeps_checkpointDone {W : Nat} {s0 s : State} (g k : Nat)
    (hw : parts [.regs, .out, .ras, .hg, .frf, .cp, .net] ||| W = W) (hk : Keeps W s0 s) :
    Keeps W s0 (State.checkpointDone s g k) := by
  unfold State.checkpointDone
  repeat' first
    | (extract_lets +onlyGivenNames sv; refine keeps_cut (t := sv) ?_ ?_; subst sv; rotate_left; clear_value sv; revert sv; intro _ _; rotate_left)
    | (extract_lets +onlyGivenNames dv; clear_value dv; revert dv; intro _) | with_reducible assumption
    | exact sub_trans rfl hw | with_reducible apply keeps_ite | with_reducible apply keeps_setCpg
    | with_reducible apply keeps_setReg | with_reducible apply keeps_setRel | with_reducible apply keeps_dropRetained
    | with_reducible apply keeps_releaseGroup

theorem keeps_mirrorSlots {W : Nat} {s0 s : State} (g k : Nat) (l : List Nat) (hw : parts [.out, .frf, .net] ||| W = W)
    (hk : Keeps W s0 s) :
    Keeps W s0 (State.mirrorSlots s g k l) := by
  unfold State.mirrorSlots
  repeat' first
    | intro _ | with_reducible assumption | with_reducible apply keeps_each | with_reducible apply keeps_toBuddy

theorem keeps_checkpoint {W : Nat} {s0 s : State} (g : Nat)
    (hw : parts [.regs, .mem, .out, .ras, .mm, .hg, .frf, .cp, .net] ||| W = W) (hk : Keeps W s0 s) :
    Keeps W s0 (State.checkpoint s g) := by
  unfold State.checkpoint
  repeat' first
    | (extract_lets +onlyGivenNames sv; refine keeps_cut (t := sv) ?_ ?_; subst sv; rotate_left; clear_value sv; revert sv; intro _ _; rotate_left)
    | (extract_lets +onlyGivenNames dv; clear_value dv; revert dv; intro _) | with_reducible assumption
    | exact sub_trans rfl hw | with_reducible apply keeps_ite | with_reducible apply keeps_mirrorSlots
    | with_reducible apply keeps_writeCkpt | with_reducible apply keeps_toBuddy | with_reducible apply keeps_setCpg
    | with_reducible apply keeps_checkpointDone | split

theorem keeps_loadSlots {W : Nat} {s0 s : State} (g : Nat) (k : Option Nat) (hw : parts [.cp] ||| W = W)
    (hk : Keeps W s0 s) :
    Keeps W s0 (State.loadSlots s g k) := by
  unfold State.loadSlots
  repeat' first
    | exact .inr (sub_trans rfl hw) | with_reducible exact .inl rfl
    | (extract_lets +onlyGivenNames dv; clear_value dv; revert dv; intro _) | with_reducible assumption
    | with_reducible apply keeps_mk

theorem keeps_reexecute {W : Nat} {s0 s : State} (g : Nat) (hw : parts [.cp] ||| W = W) (hk : Keeps W s0 s) :
    Keeps W s0 (State.reexecute s g) := by
  unfold State.reexecute
  repeat' first
    | (extract_lets +onlyGivenNames sv; refine keeps_cut (t := sv) ?_ ?_; subst sv; rotate_left; clear_value sv; revert sv; intro _ _; rotate_left)
    | (extract_lets +onlyGivenNames dv; clear_value dv; revert dv; intro _) | with_reducible assumption
    | with_reducible apply keeps_loadSlots | with_reducible apply keeps_setCpg

theorem keeps_cpGlbCommit {W : Nat} {s0 s : State} (req val : Nat) (hw : parts [.regs, .shadow, .groups] ||| W = W)
    (hk : Keeps W s0 s) :
    Keeps W s0 (State.cpGlbCommit s req val) := by
  unfold State.cpGlbCommit
  repeat' first
    | intro _
    | (extract_lets +onlyGivenNames sv; refine keeps_cut (t := sv) ?_ ?_; subst sv; rotate_left; clear_value sv; revert sv; intro _ _; rotate_left)
    | (extract_lets +onlyGivenNames dv; clear_value dv; revert dv; intro _) | with_reducible assumption
    | exact sub_trans rfl hw | with_reducible apply keeps_ite | with_reducible apply keeps_each
    | with_reducible apply keeps_commitNow | with_reducible apply keeps_put

theorem keeps_newSlices {W : Nat} {s0 s : State} (g : Nat) (hw : parts [.regs, .mem, .ras, .mm, .cp] ||| W = W)
    (hk : Keeps W s0 s) :
    Keeps W s0 (State.newSlices s g) := by
  unfold State.newSlices
  repeat' first
    | intro _
    | (extract_lets +onlyGivenNames sv; refine keeps_cut (t := sv) ?_ ?_; subst sv; rotate_left; clear_value sv; revert sv; intro _ _; rotate_left)
    | (extract_lets +onlyGivenNames dv; clear_value dv; revert dv; intro _) | with_reducible assumption
    | exact sub_trans rfl hw | with_reducible apply keeps_each | with_reducible apply keeps_setCpg
    | with_reducible apply keeps_setRel | with_reducible apply keeps_dramPut

theorem keeps_cpGrpApplied {W : Nat} {s0 s : State} (g : Nat) (before : State)
    (hw : parts [.regs, .mem, .ras, .mm, .cp] ||| W = W) (hk : Keeps W s0 s) :
    Keeps W s0 (State.cpGrpApplied s g before) := by
  unfold State.cpGrpApplied
  repeat' first
    | (extract_lets +onlyGivenNames sv; refine keeps_cut (t := sv) ?_ ?_; subst sv; rotate_left; clear_value sv; revert sv; intro _ _; rotate_left)
    | (extract_lets +onlyGivenNames dv; clear_value dv; revert dv; intro _) | with_reducible assumption
    | exact sub_trans rfl hw | with_reducible apply keeps_ite | with_reducible apply keeps_put
    | with_reducible apply keeps_newSlices | with_reducible apply keeps_setCpg | with_reducible apply keeps_showGroup

theorem keeps_cpGrpCommit {W : Nat} {s0 s : State} (req g val : Nat)
    (hw : parts [.regs, .shadow, .groups, .mem, .ras, .mm, .cp] ||| W = W) (hk : Keeps W s0 s) :
    Keeps W s0 (State.cpGrpCommit s req g val) := by
  unfold State.cpGrpCommit
  repeat' first
    | (extract_lets +onlyGivenNames sv; refine keeps_cut (t := sv) ?_ ?_; subst sv; rotate_left; clear_value sv; revert sv; intro _ _; rotate_left)
    | (extract_lets +onlyGivenNames dv; clear_value dv; revert dv; intro _) | with_reducible assumption
    | exact sub_trans rfl hw | with_reducible apply keeps_ite | with_reducible apply keeps_commitLater
    | with_reducible apply keeps_commitNow | with_reducible apply keeps_cpGrpApplied

theorem keeps_cpMbrCommit {W : Nat} {s0 s : State} (req i val : Nat) (hw : parts [.regs, .shadow, .groups] ||| W = W)
    (hk : Keeps W s0 s) :
    Keeps W s0 (State.cpMbrCommit s req i val) := by
  unfold State.cpMbrCommit
  repeat' first
    | (extract_lets +onlyGivenNames sv; refine keeps_cut (t := sv) ?_ ?_; subst sv; rotate_left; clear_value sv; revert sv; intro _ _; rotate_left)
    | with_reducible assumption | exact sub_trans rfl hw | with_reducible apply keeps_commitNow
    | with_reducible apply keeps_setReason

/-! ### Machine/NetTime.lean -/

theorem keeps_setErp {W : Nat} {s0 s : State} (n : Nat) (x : Erp) (hw : parts [.net] ||| W = W) (hk : Keeps W s0 s) :
    Keeps W s0 (State.setErp s n x) := by
  unfold State.setErp
  repeat' first
    | exact .inr (sub_trans rfl hw) | with_reducible exact .inl rfl | with_reducible assumption
    | with_reducible apply keeps_mk

theorem keeps_raps {W : Nat} {s0 s : State} (n request status : Nat) (hw : parts [.out] ||| W = W) (hk : Keeps W s0 s) :
    Keeps W s0 (State.raps s n request status) := by
  unfold State.raps
  repeat' first
    | intro _ | (extract_lets +onlyGivenNames dv; clear_value dv; revert dv; intro _) | with_reducible assumption
    | with_reducible apply keeps_ite | with_reducible apply keeps_each | with_reducible apply keeps_emit

theorem keeps_erpFail {W : Nat} {s0 s : State} (p : Nat) (hw : parts [.regs, .out, .net] ||| W = W) (hk : Keeps W s0 s) :
    Keeps W s0 (State.erpFail s p) := by
  unfold State.erpFail
  repeat' first
    | intro _
    | (extract_lets +onlyGivenNames sv; refine keeps_cut (t := sv) ?_ ?_; subst sv; rotate_left; clear_value sv; revert sv; intro _ _; rotate_left)
    | (extract_lets +onlyGivenNames dv; clear_value dv; revert dv; intro _) | with_reducible assumption
    | exact sub_trans rfl hw | with_reducible apply keeps_each | with_reducible apply keeps_setErp
    | with_reducible apply keeps_put | with_reducible apply keeps_raps | split

theorem keeps_erpClear {W : Nat} {s0 s : State} (p : Nat) (hw : parts [.regs, .out, .net] ||| W = W) (hk : Keeps W s0 s) :
    Keeps W s0 (State.erpClear s p) := by
  unfold State.erpClear
  repeat' first
    | intro _
    | (extract_lets +onlyGivenNames sv; refine keeps_cut (t := sv) ?_ ?_; subst sv; rotate_left; clear_value sv; revert sv; intro _ _; rotate_left)
    | (extract_lets +onlyGivenNames dv; clear_value dv; revert dv; intro _) | with_reducible assumption
    | exact sub_trans rfl hw | with_reducible apply keeps_each | with_reducible apply keeps_setErp
    | with_reducible apply keeps_put | with_reducible apply keeps_raps | split

theorem keeps_waitToRestore {W : Nat} {s0 s : State} (n : Nat) (hw : parts [.time, .regs, .out, .net] ||| W = W)
    (hk : Keeps W s0 s) :
    Keeps W s0 (State.waitToRestore s n) := by
  unfold State.waitToRestore
  repeat' first
    | (extract_lets +onlyGivenNames sv; refine keeps_cut (t := sv) ?_ ?_; subst sv; rotate_left; clear_value sv; revert sv; intro _ _; rotate_left)
    | (extract_lets +onlyGivenNames dv; clear_value dv; revert dv; intro _) | with_reducible assumption
    | exact sub_trans rfl hw | with_reducible apply keeps_at | with_reducible apply keeps_setErp
    | with_reducible apply keeps_put | with_reducible apply keeps_raps | split

theorem keeps_guardEnd {W : Nat} {s0 s : State} (n : Nat) (hw : parts [.time, .net] ||| W = W) (hk : Keeps W s0 s) :
    Keeps W s0 (State.guardEnd s n) := by
  unfold State.guardEnd
  repeat' first
    | with_reducible assumption | exact sub_trans rfl hw | with_reducible apply keeps_at
    | with_reducible apply keeps_setErp | split

theorem keeps_rapsIn {W : Nat} {s0 s : State} (n side request status : Nat) (hw : parts [.regs, .net] ||| W = W)
    (hk : Keeps W s0 s) :
    Keeps W s0 (State.rapsIn s n side request status) := by
  unfold State.rapsIn
  repeat' first
    | (extract_lets +onlyGivenNames sv; refine keeps_cut (t := sv) ?_ ?_; subst sv; rotate_left; clear_value sv; revert sv; intro _ _; rotate_left)
    | (extract_lets +onlyGivenNames dv; clear_value dv; revert dv; intro _) | with_reducible assumption
    | exact sub_trans rfl hw | with_reducible apply keeps_ite | with_reducible apply keeps_setErp
    | with_reducible apply keeps_put

theorem keeps_cvMove {W : Nat} {s0 s : State} (p : Nat) (hw : parts [.out, .frf, .net] ||| W = W) (hk : Keeps W s0 s) :
    Keeps W s0 (State.cvMove s p) := by
  unfold State.cvMove
  repeat' first
    | intro _
    | (extract_lets +onlyGivenNames sv; refine keeps_cut (t := sv) ?_ ?_; subst sv; rotate_left; clear_value sv; revert sv; intro _ _; rotate_left)
    | (extract_lets +onlyGivenNames dv; clear_value dv; revert dv; intro _) | with_reducible assumption
    | exact sub_trans rfl hw | with_reducible apply keeps_ite | with_reducible apply keeps_each
    | with_reducible apply keeps_setPeer | with_reducible apply keeps_cvSend

theorem keeps_portFail {W : Nat} {s0 s : State} (p flags : Nat)
    (hw : parts [.regs, .out, .hif, .ras, .frf, .fw, .aid, .net, .sec] ||| W = W) (hk : Keeps W s0 s) :
    Keeps W s0 (State.portFail s p flags) := by
  unfold State.portFail
  repeat' first
    | exact .inr (sub_trans rfl hw) | with_reducible exact .inl rfl | intro _
    | (extract_lets +onlyGivenNames sv; refine keeps_cut (t := sv) ?_ ?_; subst sv; rotate_left; clear_value sv; revert sv; intro _ _; rotate_left)
    | (extract_lets +onlyGivenNames dv; clear_value dv; revert dv; intro _) | with_reducible assumption
    | exact sub_trans rfl hw | with_reducible apply keeps_ite | with_reducible apply keeps_each
    | with_reducible apply keeps_put | with_reducible apply keeps_singlePartFault | with_reducible apply keeps_erpFail
    | with_reducible apply keeps_reroute | with_reducible apply keeps_cvMove | with_reducible apply keeps_degraded
    | with_reducible apply keeps_mk

theorem keeps_portReturn {W : Nat} {s0 s : State} (p : Nat) (hw : parts [.regs, .out, .hif, .ras, .net] ||| W = W)
    (hk : Keeps W s0 s) :
    Keeps W s0 (State.portReturn s p) := by
  unfold State.portReturn
  repeat' first
    | intro _
    | (extract_lets +onlyGivenNames sv; refine keeps_cut (t := sv) ?_ ?_; subst sv; rotate_left; clear_value sv; revert sv; intro _ _; rotate_left)
    | with_reducible assumption | exact sub_trans rfl hw | with_reducible apply keeps_ite
    | with_reducible apply keeps_each | with_reducible apply keeps_put | with_reducible apply keeps_erpClear
    | with_reducible apply keeps_reroute

theorem keeps_portLinkUp {W : Nat} {s0 s : State} (p : Nat) (hw : parts [.regs] ||| W = W) (hk : Keeps W s0 s) :
    Keeps W s0 (State.portLinkUp s p) := by
  unfold State.portLinkUp
  repeat' first | with_reducible assumption | with_reducible apply keeps_ite | with_reducible apply keeps_put

theorem keeps_stampTx {W : Nat} {s0 s : State} (p id t : Nat) (hw : parts [.regs, .net] ||| W = W) (hk : Keeps W s0 s) :
    Keeps W s0 (State.stampTx s p id t) := by
  unfold State.stampTx
  repeat' first
    | exact .inr (sub_trans rfl hw) | with_reducible exact .inl rfl
    | (extract_lets +onlyGivenNames sv; refine keeps_cut (t := sv) ?_ ?_; subst sv; rotate_left; clear_value sv; revert sv; intro _ _; rotate_left)
    | (extract_lets +onlyGivenNames dv; clear_value dv; revert dv; intro _) | with_reducible assumption
    | exact sub_trans rfl hw | with_reducible apply keeps_ite | with_reducible apply keeps_put
    | with_reducible apply keeps_bump | with_reducible apply keeps_mk

theorem keeps_popEntry {W : Nat} {s0 s : State} (p : Nat) (hw : parts [.regs, .net] ||| W = W) (hk : Keeps W s0 s) :
    Keeps W s0 (State.popEntry s p) := by
  unfold State.popEntry
  repeat' first
    | exact .inr (sub_trans rfl hw) | with_reducible exact .inl rfl
    | (extract_lets +onlyGivenNames sv; refine keeps_cut (t := sv) ?_ ?_; subst sv; rotate_left; clear_value sv; revert sv; intro _ _; rotate_left)
    | (extract_lets +onlyGivenNames dv; clear_value dv; revert dv; intro _) | with_reducible assumption
    | exact sub_trans rfl hw | with_reducible apply keeps_setReg | with_reducible apply keeps_put | split
    | with_reducible apply keeps_mk

theorem keeps_popTxts {W : Nat} {s0 s : State} (req p : Nat) (hw : parts [.regs, .out, .net] ||| W = W)
    (hk : Keeps W s0 s) :
    Keeps W s0 (State.popTxts s req p) := by
  unfold State.popTxts
  repeat' first
    | (extract_lets +onlyGivenNames sv; refine keeps_cut (t := sv) ?_ ?_; subst sv; rotate_left; clear_value sv; revert sv; intro _ _; rotate_left)
    | (extract_lets +onlyGivenNames dv; clear_value dv; revert dv; intro _) | with_reducible assumption
    | exact sub_trans rfl hw | with_reducible apply keeps_ite | with_reducible apply keeps_emit
    | with_reducible apply keeps_popEntry

theorem keeps_sendLaunch {W : Nat} {s0 s : State} (p start : Nat) (f : TxFrame)
    (hw : parts [.time, .regs, .out, .hif, .ras, .hg, .frf, .cp, .net] ||| W = W) (hk : Keeps W s0 s) :
    Keeps W s0 (State.sendLaunch s p start f) := by
  unfold State.sendLaunch
  repeat' first
    | (extract_lets +onlyGivenNames sv; refine keeps_cut (t := sv) ?_ ?_; subst sv; rotate_left; clear_value sv; revert sv; intro _ _; rotate_left)
    | (extract_lets +onlyGivenNames dv; clear_value dv; revert dv; intro _) | with_reducible assumption
    | exact sub_trans rfl hw | with_reducible apply keeps_bump | with_reducible apply keeps_emit
    | with_reducible apply keeps_at | with_reducible apply keeps_gramSent | with_reducible apply keeps_cvBeat
    | with_reducible apply keeps_stampTx | split

theorem keeps_launch {W : Nat} {s0 s : State} (p : Nat)
    (hw : parts [.time, .regs, .out, .hif, .ras, .hg, .frf, .cp, .net] ||| W = W) (hk : Keeps W s0 s) :
    Keeps W s0 (State.launch s p) := by
  unfold State.launch
  repeat' first
    | exact .inr (sub_trans rfl hw) | with_reducible exact .inl rfl
    | (extract_lets +onlyGivenNames sv; refine keeps_cut (t := sv) ?_ ?_; subst sv; rotate_left; clear_value sv; revert sv; intro _ _; rotate_left)
    | (extract_lets +onlyGivenNames dv; clear_value dv; revert dv; intro _) | with_reducible assumption
    | exact sub_trans rfl hw | with_reducible apply keeps_ite | with_reducible apply keeps_at
    | with_reducible apply keeps_bump | with_reducible apply keeps_sendLaunch | split | with_reducible apply keeps_mk

theorem keeps_latchTime {W : Nat} {s0 s : State} (hw : parts [.regs] ||| W = W) (hk : Keeps W s0 s) :
    Keeps W s0 (State.latchTime s) := by
  unfold State.latchTime
  repeat' first | with_reducible assumption | with_reducible apply keeps_put

theorem keeps_readTime {W : Nat} {s0 s : State} (req : Nat) (hw : parts [.regs, .out] ||| W = W) (hk : Keeps W s0 s) :
    Keeps W s0 (State.readTime s req) := by
  unfold State.readTime
  repeat' first
    | with_reducible assumption | exact sub_trans rfl hw | with_reducible apply keeps_latchTime
    | with_reducible apply keeps_emit

theorem keeps_steer {W : Nat} {s0 s : State} (hw : parts [.regs, .fresh, .net] ||| W = W) (hk : Keeps W s0 s) :
    Keeps W s0 (State.steer s) := by
  unfold State.steer
  repeat' first
    | exact .inr (sub_trans rfl hw) | with_reducible exact .inl rfl
    | (extract_lets +onlyGivenNames sv; refine keeps_cut (t := sv) ?_ ?_; subst sv; rotate_left; clear_value sv; revert sv; intro _ _; rotate_left)
    | (extract_lets +onlyGivenNames dv; clear_value dv; revert dv; intro _) | with_reducible assumption
    | exact sub_trans rfl hw | with_reducible apply keeps_ite | with_reducible apply keeps_tickFree
    | with_reducible apply keeps_put | with_reducible apply keeps_mk

theorem keeps_offsetSample {W : Nat} {s0 s : State} (off : Int) (hw : parts [.time, .regs, .fresh, .net] ||| W = W)
    (hk : Keeps W s0 s) :
    Keeps W s0 (State.offsetSample s off) := by
  unfold State.offsetSample
  repeat' first
    | exact .inr (sub_trans rfl hw) | with_reducible exact .inl rfl
    | (extract_lets +onlyGivenNames sv; refine keeps_cut (t := sv) ?_ ?_; subst sv; rotate_left; clear_value sv; revert sv; intro _ _; rotate_left)
    | (extract_lets +onlyGivenNames dv; clear_value dv; revert dv; intro _) | with_reducible assumption
    | exact sub_trans rfl hw | with_reducible apply keeps_ite | with_reducible apply keeps_setReg
    | with_reducible apply keeps_steer | with_reducible apply keeps_put | with_reducible apply keeps_mk

theorem keeps_sourceValid {W : Nat} {s0 s : State} (hw : parts [.regs, .net] ||| W = W) (hk : Keeps W s0 s) :
    Keeps W s0 (State.sourceValid s) := by
  unfold State.sourceValid
  repeat' first
    | exact .inr (sub_trans rfl hw) | with_reducible exact .inl rfl
    | (extract_lets +onlyGivenNames sv; refine keeps_cut (t := sv) ?_ ?_; subst sv; rotate_left; clear_value sv; revert sv; intro _ _; rotate_left)
    | (extract_lets +onlyGivenNames dv; clear_value dv; revert dv; intro _) | with_reducible assumption
    | exact sub_trans rfl hw | with_reducible apply keeps_ite | with_reducible apply keeps_put
    | with_reducible apply keeps_mk

theorem keeps_sourceLost {W : Nat} {s0 s : State} (hw : parts [.regs, .net] ||| W = W) (hk : Keeps W s0 s) :
    Keeps W s0 (State.sourceLost s) := by
  unfold State.sourceLost
  repeat' first
    | exact .inr (sub_trans rfl hw) | with_reducible exact .inl rfl
    | (extract_lets +onlyGivenNames sv; refine keeps_cut (t := sv) ?_ ?_; subst sv; rotate_left; clear_value sv; revert sv; intro _ _; rotate_left)
    | (extract_lets +onlyGivenNames dv; clear_value dv; revert dv; intro _) | with_reducible assumption
    | exact sub_trans rfl hw | with_reducible apply keeps_ite | with_reducible apply keeps_put
    | with_reducible apply keeps_mk

theorem keeps_holdoverLimit {W : Nat} {s0 s : State} (hw : parts [.time, .regs, .net] ||| W = W) (hk : Keeps W s0 s) :
    Keeps W s0 (State.holdoverLimit s) := by
  unfold State.holdoverLimit
  repeat' first
    | exact .inr (sub_trans rfl hw) | with_reducible exact .inl rfl
    | (extract_lets +onlyGivenNames sv; refine keeps_cut (t := sv) ?_ ?_; subst sv; rotate_left; clear_value sv; revert sv; intro _ _; rotate_left)
    | (extract_lets +onlyGivenNames dv; clear_value dv; revert dv; intro _) | with_reducible assumption
    | exact sub_trans rfl hw | with_reducible apply keeps_ite | with_reducible apply keeps_at
    | with_reducible apply keeps_put | split | with_reducible apply keeps_mk

theorem keeps_ppsIn {W : Nat} {s0 s : State} (hw : parts [.time, .regs, .fresh, .net] ||| W = W) (hk : Keeps W s0 s) :
    Keeps W s0 (State.ppsIn s) := by
  unfold State.ppsIn
  repeat' first
    | exact .inr (sub_trans rfl hw) | with_reducible exact .inl rfl
    | (extract_lets +onlyGivenNames sv; refine keeps_cut (t := sv) ?_ ?_; subst sv; rotate_left; clear_value sv; revert sv; intro _ _; rotate_left)
    | (extract_lets +onlyGivenNames dv; clear_value dv; revert dv; intro _) | with_reducible assumption
    | exact sub_trans rfl hw | with_reducible apply keeps_ite | with_reducible apply keeps_put
    | with_reducible apply keeps_sourceValid | with_reducible apply keeps_offsetSample | with_reducible apply keeps_mk

theorem keeps_ppsOut {W : Nat} {s0 s : State} (hw : parts [.time, .out, .net] ||| W = W) (hk : Keeps W s0 s) :
    Keeps W s0 (State.ppsOut s) := by
  unfold State.ppsOut
  repeat' first
    | exact .inr (sub_trans rfl hw) | with_reducible exact .inl rfl
    | (extract_lets +onlyGivenNames sv; refine keeps_cut (t := sv) ?_ ?_; subst sv; rotate_left; clear_value sv; revert sv; intro _ _; rotate_left)
    | (extract_lets +onlyGivenNames dv; clear_value dv; revert dv; intro _) | with_reducible assumption
    | exact sub_trans rfl hw | with_reducible apply keeps_ite | with_reducible apply keeps_at
    | with_reducible apply keeps_emit | with_reducible apply keeps_mk

theorem keeps_ppsOutFall {W : Nat} {s0 s : State} (hw : parts [.time, .out, .net] ||| W = W) (hk : Keeps W s0 s) :
    Keeps W s0 (State.ppsOutFall s) := by
  unfold State.ppsOutFall
  repeat' first
    | exact .inr (sub_trans rfl hw) | with_reducible exact .inl rfl
    | (extract_lets +onlyGivenNames sv; refine keeps_cut (t := sv) ?_ ?_; subst sv; rotate_left; clear_value sv; revert sv; intro _ _; rotate_left)
    | with_reducible assumption | exact sub_trans rfl hw | with_reducible apply keeps_at | with_reducible apply keeps_emit
    | split | with_reducible apply keeps_mk

theorem keeps_fdbData {W : Nat} {s0 s : State} (val : Word) (hw : parts [.regs, .net] ||| W = W) (hk : Keeps W s0 s) :
    Keeps W s0 (State.fdbData s val) := by
  unfold State.fdbData
  repeat' first
    | exact .inr (sub_trans rfl hw) | with_reducible exact .inl rfl
    | (extract_lets +onlyGivenNames sv; refine keeps_cut (t := sv) ?_ ?_; subst sv; rotate_left; clear_value sv; revert sv; intro _ _; rotate_left)
    | (extract_lets +onlyGivenNames dv; clear_value dv; revert dv; intro _) | with_reducible assumption
    | exact sub_trans rfl hw | with_reducible apply keeps_ite | with_reducible apply keeps_setReg
    | with_reducible apply keeps_mk

theorem keeps_fdbAge {W : Nat} {s0 s : State} (i : Nat) (hw : parts [.net] ||| W = W) (hk : Keeps W s0 s) :
    Keeps W s0 (State.fdbAge s i) := by
  unfold State.fdbAge
  repeat' first
    | exact .inr (sub_trans rfl hw) | with_reducible exact .inl rfl | with_reducible assumption
    | with_reducible apply keeps_ite | split | with_reducible apply keeps_mk

theorem keeps_netGlbCommit {W : Nat} {s0 s : State} (req val : Nat) (hw : parts [.regs, .shadow, .groups] ||| W = W)
    (hk : Keeps W s0 s) :
    Keeps W s0 (State.netGlbCommit s req val) := by
  unfold State.netGlbCommit
  repeat' first | with_reducible assumption | with_reducible apply keeps_commitNow

theorem keeps_netPortCommit {W : Nat} {s0 s : State} (req p val : Nat) (hw : parts [.regs, .shadow, .groups] ||| W = W)
    (hk : Keeps W s0 s) :
    Keeps W s0 (State.netPortCommit s req p val) := by
  unfold State.netPortCommit
  repeat' first
    | (extract_lets +onlyGivenNames sv; refine keeps_cut (t := sv) ?_ ?_; subst sv; rotate_left; clear_value sv; revert sv; intro _ _; rotate_left)
    | with_reducible assumption | exact sub_trans rfl hw | with_reducible apply keeps_ite
    | with_reducible apply keeps_commitNow | with_reducible apply keeps_put

theorem keeps_netExpCommit {W : Nat} {s0 s : State} (req q val : Nat)
    (hw : parts [.regs, .shadow, .groups, .hif, .ras, .aid, .net] ||| W = W) (hk : Keeps W s0 s) :
    Keeps W s0 (State.netExpCommit s req q val) := by
  unfold State.netExpCommit
  repeat' first
    | exact .inr (sub_trans rfl hw) | with_reducible exact .inl rfl
    | (extract_lets +onlyGivenNames sv; refine keeps_cut (t := sv) ?_ ?_; subst sv; rotate_left; clear_value sv; revert sv; intro _ _; rotate_left)
    | (extract_lets +onlyGivenNames dv; clear_value dv; revert dv; intro _) | with_reducible assumption
    | exact sub_trans rfl hw | with_reducible apply keeps_ite | with_reducible apply keeps_commitNow
    | with_reducible apply keeps_put | with_reducible apply keeps_reroute | with_reducible apply keeps_mk

theorem keeps_countPeers {W : Nat} {s0 s : State} (hw : parts [.regs] ||| W = W) (hk : Keeps W s0 s) :
    Keeps W s0 (State.countPeers s) := by
  unfold State.countPeers
  repeat' first | with_reducible assumption | with_reducible apply keeps_put

theorem keeps_netPeerCommit {W : Nat} {s0 s : State} (req k val : Nat) (hw : parts [.regs, .shadow, .groups] ||| W = W)
    (hk : Keeps W s0 s) :
    Keeps W s0 (State.netPeerCommit s req k val) := by
  unfold State.netPeerCommit
  repeat' first
    | (extract_lets +onlyGivenNames sv; refine keeps_cut (t := sv) ?_ ?_; subst sv; rotate_left; clear_value sv; revert sv; intro _ _; rotate_left)
    | (extract_lets +onlyGivenNames dv; clear_value dv; revert dv; intro _) | with_reducible assumption
    | exact sub_trans rfl hw | with_reducible apply keeps_ite | with_reducible apply keeps_commitNow
    | with_reducible apply keeps_put | with_reducible apply keeps_countPeers

theorem keeps_timCommit {W : Nat} {s0 s : State} (req val : Nat) (hw : parts [.regs, .shadow, .groups] ||| W = W)
    (hk : Keeps W s0 s) :
    Keeps W s0 (State.timCommit s req val) := by
  unfold State.timCommit
  repeat' first | with_reducible assumption | with_reducible apply keeps_commitNow

end Sys2Proof.Machine
end

