-- ==== Sys2Proof/Laws/KeepsCommands.lean ====
section
/-!
SUPPORT. Every operation of admission and the control firmware: commands, models, streams, rings, sessions, registers, power, firmware and services keeps what no command changes
and changes the named parts alone (`Keeps`, Safety): one lemma per operation, proved through those of the operations it calls.
-/

namespace Sys2Proof.Machine

/-! ### Machine/Admission.lean -/

theorem keeps_belowFloor {W : Nat} {s0 s : State} (hw : parts [.regs, .hif, .ras] ||| W = W) (hk : Keeps W s0 s) :
    Keeps W s0 (State.belowFloor s) := by
  unfold State.belowFloor
  repeat' first
    | with_reducible assumption | exact sub_trans rfl hw | with_reducible apply keeps_ite
    | with_reducible apply keeps_beginSusp | with_reducible apply keeps_overSusp

theorem keeps_showFloor {W : Nat} {s0 s : State} (hw : parts [.regs, .hif, .ras] ||| W = W) (hk : Keeps W s0 s) :
    Keeps W s0 (State.showFloor s) := by
  unfold State.showFloor
  repeat' first
    | with_reducible assumption | exact sub_trans rfl hw | with_reducible apply keeps_put
    | with_reducible apply keeps_belowFloor

theorem keeps_reserve {W : Nat} {s0 s : State} (ls : List Load) (hw : parts [.regs, .fresh, .aid] ||| W = W)
    (hk : Keeps W s0 s) :
    Keeps W s0 (State.reserve s ls) := by
  unfold State.reserve
  repeat' first
    | exact .inr (sub_trans rfl hw) | with_reducible exact .inl rfl | intro _
    | (extract_lets +onlyGivenNames sv; refine keeps_cut (t := sv) ?_ ?_; subst sv; rotate_left; clear_value sv; revert sv; intro _ _; rotate_left)
    | (extract_lets +onlyGivenNames dv; clear_value dv; revert dv; intro _) | with_reducible assumption
    | exact sub_trans rfl hw | with_reducible apply keeps_each | with_reducible apply keeps_setReg
    | with_reducible apply keeps_tickFree | with_reducible apply keeps_mk

theorem keeps_showAdm {W : Nat} {s0 s : State} (ls : List Load) (hw : parts [.regs] ||| W = W) (hk : Keeps W s0 s) :
    Keeps W s0 (State.showAdm s ls) := by
  unfold State.showAdm
  repeat' first
    | intro _
    | (extract_lets +onlyGivenNames sv; refine keeps_cut (t := sv) ?_ ?_; subst sv; rotate_left; clear_value sv; revert sv; intro _ _; rotate_left)
    | (extract_lets +onlyGivenNames dv; clear_value dv; revert dv; intro _) | with_reducible assumption
    | with_reducible apply keeps_each | with_reducible apply keeps_put

theorem keeps_settleAdm {W : Nat} {s0 s : State} (reserve : Bool) (hw : parts [.regs, .fresh, .aid, .adm] ||| W = W)
    (hk : Keeps W s0 s) :
    Keeps W s0 (State.settleAdm s reserve) := by
  unfold State.settleAdm
  repeat' first
    | exact .inr (sub_trans rfl hw) | with_reducible exact .inl rfl
    | (extract_lets +onlyGivenNames sv; refine keeps_cut (t := sv) ?_ ?_; subst sv; rotate_left; clear_value sv; revert sv; intro _ _; rotate_left)
    | (extract_lets +onlyGivenNames dv; clear_value dv; revert dv; intro _) | with_reducible assumption
    | exact sub_trans rfl hw | with_reducible apply keeps_reserve | with_reducible apply keeps_showAdm
    | with_reducible apply keeps_mk

theorem keeps_moveFloor {W : Nat} {s0 s : State} (p : Nat) (hw : parts [.regs, .hif, .ras, .adm] ||| W = W)
    (hk : Keeps W s0 s) :
    Keeps W s0 (State.moveFloor s p) := by
  unfold State.moveFloor
  repeat' first
    | exact .inr (sub_trans rfl hw) | with_reducible exact .inl rfl
    | (extract_lets +onlyGivenNames dv; clear_value dv; revert dv; intro _) | with_reducible assumption
    | exact sub_trans rfl hw | with_reducible apply keeps_ite | with_reducible apply keeps_showFloor
    | with_reducible apply keeps_mk

theorem keeps_floorLower {W : Nat} {s0 s : State} (hw : parts [.regs, .fresh, .hif, .ras, .aid, .adm] ||| W = W)
    (hk : Keeps W s0 s) :
    Keeps W s0 (State.floorLower s) := by
  unfold State.floorLower
  repeat' first
    | exact .inr (sub_trans rfl hw) | with_reducible exact .inl rfl | with_reducible assumption | exact sub_trans rfl hw
    | with_reducible apply keeps_ite | with_reducible apply keeps_showFloor | with_reducible apply keeps_settleAdm | split
    | with_reducible apply keeps_mk

theorem keeps_readmit {W : Nat} {s0 s : State} (reserve : Bool) (cap : Nat) (q0 : List Nat)
    (hw : parts [.regs, .hif, .ras, .adm] ||| W = W) (hk : Keeps W s0 s) :
    Keeps W s0 (State.readmit s reserve cap q0) := by
  induction q0 generalizing s with
  | nil =>
    unfold State.readmit
    repeat' first | with_reducible assumption
  | cons _ _ ih =>
    unfold State.readmit
    repeat' first
      | exact .inr (sub_trans rfl hw) | with_reducible exact .inl rfl
      | (extract_lets +onlyGivenNames sv; refine keeps_cut (t := sv) ?_ ?_; subst sv; rotate_left; clear_value sv; revert sv; intro _ _; rotate_left)
      | (extract_lets +onlyGivenNames dv; clear_value dv; revert dv; intro _) | with_reducible assumption
      | with_reducible apply ih | exact sub_trans rfl hw | with_reducible apply keeps_overSusp
      | with_reducible apply keeps_moveFloor | with_reducible apply keeps_belowFloor | split
      | with_reducible apply keeps_mk

theorem keeps_recompute {W : Nat} {s0 s : State} (hw : parts [.regs, .fresh, .hif, .ras, .aid, .adm] ||| W = W)
    (hk : Keeps W s0 s) :
    Keeps W s0 (State.recompute s) := by
  unfold State.recompute
  repeat' first
    | (extract_lets +onlyGivenNames sv; refine keeps_cut (t := sv) ?_ ?_; subst sv; rotate_left; clear_value sv; revert sv; intro _ _; rotate_left)
    | (extract_lets +onlyGivenNames dv; clear_value dv; revert dv; intro _) | with_reducible assumption
    | exact sub_trans rfl hw | with_reducible apply keeps_withdraw | with_reducible apply keeps_moveFloor
    | with_reducible apply keeps_readmit | with_reducible apply keeps_settleAdm | split

theorem keeps_capacityRelease {W : Nat} {s0 s : State} (i : Nat)
    (hw : parts [.regs, .hif, .ras, .sd, .aid, .adm] ||| W = W) (hk : Keeps W s0 s) :
    Keeps W s0 (State.capacityRelease s i) := by
  unfold State.capacityRelease
  repeat' first
    | exact .inr (sub_trans rfl hw) | with_reducible exact .inl rfl
    | (extract_lets +onlyGivenNames sv; refine keeps_cut (t := sv) ?_ ?_; subst sv; rotate_left; clear_value sv; revert sv; intro _ _; rotate_left)
    | (extract_lets +onlyGivenNames fv; have _ : State → State := fv; subst fv)
    | (extract_lets +onlyGivenNames dv; clear_value dv; revert dv; intro _) | with_reducible assumption
    | exact sub_trans rfl hw | with_reducible apply keeps_ite | with_reducible apply keeps_endStream | split
    | dsimp -zeta -zetaHave only | with_reducible apply keeps_mk

theorem keeps_moveGroup {W : Nat} {s0 s : State} (g v : Nat) (hw : parts [.regs, .cp] ||| W = W) (hk : Keeps W s0 s) :
    Keeps W s0 (State.moveGroup s g v) := by
  unfold State.moveGroup
  repeat' first
    | (extract_lets +onlyGivenNames sv; refine keeps_cut (t := sv) ?_ ?_; subst sv; rotate_left; clear_value sv; revert sv; intro _ _; rotate_left)
    | with_reducible assumption | exact sub_trans rfl hw | with_reducible apply keeps_put
    | with_reducible apply keeps_reexecute

theorem keeps_unitFail {W : Nat} {s0 s : State} (u cond flags : Nat)
    (hw : parts [.regs, .out, .hif, .ras, .frf, .fw, .cp, .aid, .net, .sec, .adm] ||| W = W) (hk : Keeps W s0 s) :
    Keeps W s0 (State.unitFail s u cond flags) := by
  unfold State.unitFail
  repeat' first
    | intro _
    | (extract_lets +onlyGivenNames sv; refine keeps_cut (t := sv) ?_ ?_; subst sv; rotate_left; clear_value sv; revert sv; intro _ _; rotate_left)
    | (extract_lets +onlyGivenNames dv; clear_value dv; revert dv; intro _) | with_reducible assumption
    | exact sub_trans rfl hw | with_reducible apply keeps_ite | with_reducible apply keeps_each
    | with_reducible apply keeps_put | with_reducible apply keeps_singlePartFault | with_reducible apply keeps_moveGroup
    | with_reducible apply keeps_withdraw | with_reducible apply keeps_degraded | with_reducible apply keeps_askCapacity
    | split

/-! ### Machine/Commands.lean -/

theorem keeps_sgWrite {W : Nat} {s0 s : State} (fn : Nat) (q0 : List (Nat × Nat × Nat)) (q1 : List Byte)
    (hw : parts [.out] ||| W = W) (hk : Keeps W s0 s) :
    Keeps W s0 (State.sgWrite s fn q0 q1) := by
  induction q0 generalizing s q1 with
  | nil =>
    unfold State.sgWrite
    repeat' first | with_reducible assumption
  | cons _ _ ih =>
    unfold State.sgWrite
    repeat' first
      | with_reducible assumption | with_reducible apply ih | with_reducible apply keeps_ite
      | with_reducible apply keeps_emit

theorem keeps_outData {W : Nat} {s0 s : State} (c : Ctx) (out : List Byte) (hw : parts [.out, .aid] ||| W = W)
    (hk : Keeps W s0 s) :
    Keeps W s0 (State.outData s c out) := by
  unfold State.outData
  repeat' first
    | exact .inr (sub_trans rfl hw) | with_reducible exact .inl rfl | with_reducible assumption | exact sub_trans rfl hw
    | with_reducible apply keeps_ite | with_reducible apply keeps_sgWrite | with_reducible apply keeps_mk

theorem keeps_completeOut {W : Nat} {s0 s : State} (c : Ctx) (out data : List Byte)
    (hw : parts [.out, .hif, .aid] ||| W = W) (hk : Keeps W s0 s) :
    Keeps W s0 (State.completeOut s c out data) := by
  unfold State.completeOut
  repeat' first
    | with_reducible assumption | exact sub_trans rfl hw | with_reducible apply keeps_outData
    | with_reducible apply keeps_complete

theorem keeps_completeVar {W : Nat} {s0 s : State} (c : Ctx) (out data : List Byte)
    (hw : parts [.out, .hif, .aid] ||| W = W) (hk : Keeps W s0 s) :
    Keeps W s0 (State.completeVar s c out data) := by
  unfold State.completeVar
  repeat' first
    | (extract_lets +onlyGivenNames dv; clear_value dv; revert dv; intro _) | with_reducible assumption
    | exact sub_trans rfl hw | with_reducible apply keeps_ite | with_reducible apply keeps_completeOut
    | with_reducible apply keeps_sgWrite | with_reducible apply keeps_complete

theorem keeps_command {W : Nat} {s0 s : State} (cmd : CmdRef) (op : Nat) (form : Ctx → Bool) (run : State → Ctx → State)
    (hw : parts [.out, .hif, .frf, .aid, .mbx, .net, .bud] ||| W = W) (hk : Keeps W s0 s) (hr : ∀ c u, Keeps W s0 u → Keeps W s0 (run u c)) :
    Keeps W s0 (s.command cmd op form run) := by
  unfold State.command
  split
  · exact hk
  · split
    · exact hk
    · have hg : ∀ c n, Keeps W s0 ((s.takeNote c.ring c.seq).gate (s.coreOf c) n) := fun c n =>
        keeps_gate _ _ (sub_trans rfl hw) (keeps_takeNote _ _ (sub_trans rfl hw) hk)
      refine keeps_mirrorConfig (sub_trans rfl hw) ?_
      split
      · exact keeps_complete _ _ _ (sub_trans rfl hw) (keeps_setCtx _ (sub_trans rfl hw) (hg _ _))
      · exact hr _ _ (keeps_setCtx _ (sub_trans rfl hw) (hg _ _))

theorem keeps_await {W : Nat} {s0 s : State} (c : Ctx) (what arg : Nat) (hw : parts [.aid] ||| W = W) (hk : Keeps W s0 s) :
    Keeps W s0 (State.await s c what arg) := by
  unfold State.await
  repeat' first | with_reducible assumption | with_reducible apply keeps_setCtx

theorem keeps_askEval {W : Nat} {s0 s : State} (e : Eval) (hw : parts [.aid] ||| W = W) (hk : Keeps W s0 s) :
    Keeps W s0 (State.askEval s e) := by
  unfold State.askEval
  repeat' first
    | exact .inr (sub_trans rfl hw) | with_reducible exact .inl rfl | with_reducible assumption
    | with_reducible apply keeps_mk

/-! ### Machine/Models.lean -/

theorem keeps_loadCore {W : Nat} {s0 s : State} (m : ImgCore) (c : Nat) (hw : parts [.regs, .mem, .fw] ||| W = W)
    (hk : Keeps W s0 s) :
    Keeps W s0 (s.loadCore m c) := by
  unfold State.loadCore
  dsimp only
  have hr := sub_trans (a := parts [.regs]) rfl hw
  refine keeps_setReg _ _ hr (keeps_setReg _ _ hr (keeps_setReg _ _ hr (keeps_setReg _ _ hr
    (keeps_put _ _ hr (keeps_put _ _ hr (keeps_put _ _ hr ?_))))))
  exact keeps_memOf hk (sub_trans rfl hw) (fun h => Memory.wf_putAll (Memory.wf_filter h _) _ _) 
      (.inl rfl) (.inl rfl) (.inl rfl) (.inl rfl) (.inl rfl) (.inl rfl) (.inl rfl) (.inl rfl)
      (.inr (sub_trans rfl hw)) (.inl rfl) (.inl rfl) (.inl rfl) (.inl rfl) (.inl rfl) (.inl rfl) (.inl rfl)
      (.inl rfl) (.inl rfl) (.inl rfl) (.inl rfl) (.inl rfl) (.inl rfl)

theorem keeps_loadCores {W : Nat} {s0 s : State} (m : Image) (hw : parts [.regs, .mem, .fw] ||| W = W) (hk : Keeps W s0 s) :
    Keeps W s0 (State.loadCores s m) := by
  unfold State.loadCores
  repeat' first
    | intro _ | with_reducible assumption | with_reducible apply keeps_each | with_reducible apply keeps_loadCore

theorem keeps_joinTile {W : Nat} {s0 s : State} (n : Nat) (compact : Bool) (p t : Nat) (hw : parts [.regs] ||| W = W)
    (hk : Keeps W s0 s) :
    Keeps W s0 (State.joinTile s n compact p t) := by
  unfold State.joinTile
  repeat' first
    | (extract_lets +onlyGivenNames sv; refine keeps_cut (t := sv) ?_ ?_; subst sv; rotate_left; clear_value sv; revert sv; intro _ _; rotate_left)
    | with_reducible assumption | with_reducible apply keeps_put | split

theorem keeps_putMaster {W : Nat} {s0 s : State} (bs : List Byte) (hw : parts [.regs, .mem, .fresh, .mm] ||| W = W)
    (hk : Keeps W s0 s) :
    Keeps W s0 (State.putMaster s bs) := by
  unfold State.putMaster
  repeat' first
    | with_reducible assumption | exact sub_trans rfl hw | with_reducible apply keeps_tickFree
    | with_reducible apply keeps_dramPut | split

theorem keeps_install {W : Nat} {s0 s : State} (n : Nat) (m : Image) (epoch : Nat) (digest : List Byte) (replaces : Option Nat) (ts : List Nat)
    (hw : parts [.regs, .mem, .fresh, .mm, .fw, .img] ||| W = W) (hk : Keeps W s0 s) :
    Keeps W s0 (State.install s n m epoch digest replaces ts) := by
  unfold State.install
  repeat' first
    | intro _
    | (extract_lets +onlyGivenNames sv; refine keeps_cut (t := sv) ?_ ?_; subst sv; rotate_left; clear_value sv; revert sv; intro _ _; rotate_left)
    | with_reducible assumption | exact sub_trans rfl hw | with_reducible apply keeps_each
    | with_reducible apply keeps_putMaster | with_reducible apply keeps_loadCores | with_reducible apply keeps_joinTile
    | with_reducible apply keeps_put | with_reducible apply keeps_setReg | with_reducible apply keeps_setSlot

theorem keeps_freeCore {W : Nat} {s0 s : State} (c : Nat) (hw : parts [.regs] ||| W = W) (hk : Keeps W s0 s) :
    Keeps W s0 (State.freeCore s c) := by
  unfold State.freeCore
  repeat' first | with_reducible assumption | with_reducible apply keeps_put

theorem keeps_freeTile {W : Nat} {s0 s : State} (t : Nat) (hw : parts [.regs] ||| W = W) (hk : Keeps W s0 s) :
    Keeps W s0 (State.freeTile s t) := by
  unfold State.freeTile
  repeat' first
    | (extract_lets +onlyGivenNames sv; refine keeps_cut (t := sv) ?_ ?_; subst sv; rotate_left; clear_value sv; revert sv; intro _ _; rotate_left)
    | with_reducible assumption | with_reducible apply keeps_ite | with_reducible apply keeps_put

theorem keeps_uninstall {W : Nat} {s0 s : State} (n : Nat) (hw : parts [.regs, .img] ||| W = W) (hk : Keeps W s0 s) :
    Keeps W s0 (State.uninstall s n) := by
  unfold State.uninstall
  repeat' first
    | exact .inr (sub_trans rfl hw) | with_reducible exact .inl rfl | intro _
    | (extract_lets +onlyGivenNames sv; refine keeps_cut (t := sv) ?_ ?_; subst sv; rotate_left; clear_value sv; revert sv; intro _ _; rotate_left)
    | (extract_lets +onlyGivenNames dv; clear_value dv; revert dv; intro _) | with_reducible assumption
    | exact sub_trans rfl hw | with_reducible apply keeps_ite | with_reducible apply keeps_each
    | with_reducible apply keeps_freeCore | with_reducible apply keeps_put | with_reducible apply keeps_freeTile
    | with_reducible apply keeps_setReg | split | with_reducible apply keeps_mk

theorem keeps_asReplaced {W : Nat} {s0 s : State} (old n : Nat) (hw : parts [.img] ||| W = W) (hk : Keeps W s0 s) :
    Keeps W s0 (State.asReplaced s old n) := by
  unfold State.asReplaced
  repeat' first
    | exact .inr (sub_trans rfl hw) | with_reducible exact .inl rfl | with_reducible assumption
    | with_reducible apply keeps_mk

theorem keeps_loadDone {W : Nat} {s0 s : State} (c : Ctx) (hw : parts [.hif, .aid] ||| W = W) (hk : Keeps W s0 s) :
    Keeps W s0 (State.loadDone s c) := by
  unfold State.loadDone
  repeat' first | with_reducible assumption | with_reducible apply keeps_complete | split

theorem keeps_modelLoad {W : Nat} {s0 s : State} (m : Image) (c : Ctx)
    (hw : parts [.regs, .mem, .fresh, .hif, .mm, .fw, .img, .aid] ||| W = W) (hk : Keeps W s0 s) :
    Keeps W s0 (State.modelLoad m s c) := by
  unfold State.modelLoad
  repeat' first
    | (extract_lets +onlyGivenNames sv; refine keeps_cut (t := sv) ?_ ?_; subst sv; rotate_left; clear_value sv; revert sv; intro _ _; rotate_left)
    | (extract_lets +onlyGivenNames dv; clear_value dv; revert dv; intro _) | with_reducible assumption
    | exact sub_trans rfl hw | with_reducible apply keeps_ite | with_reducible apply keeps_complete
    | with_reducible apply keeps_install | with_reducible apply keeps_await | with_reducible apply keeps_askEval
    | with_reducible apply keeps_loadDone | split

theorem keeps_modelActivate {W : Nat} {s0 s : State} (c : Ctx) (hw : parts [.hif, .img, .aid] ||| W = W)
    (hk : Keeps W s0 s) :
    Keeps W s0 (State.modelActivate s c) := by
  unfold State.modelActivate
  repeat' first
    | (extract_lets +onlyGivenNames dv; clear_value dv; revert dv; intro _) | with_reducible assumption
    | exact sub_trans rfl hw | with_reducible apply keeps_ite | with_reducible apply keeps_complete
    | with_reducible apply keeps_setSlot | with_reducible apply keeps_await | split

theorem keeps_modelCancel {W : Nat} {s0 s : State} (c : Ctx) (hw : parts [.hif, .img, .aid] ||| W = W) (hk : Keeps W s0 s) :
    Keeps W s0 (State.modelCancel s c) := by
  unfold State.modelCancel
  repeat' first
    | (extract_lets +onlyGivenNames sv; refine keeps_cut (t := sv) ?_ ?_; subst sv; rotate_left; clear_value sv; revert sv; intro _ _; rotate_left)
    | (extract_lets +onlyGivenNames dv; clear_value dv; revert dv; intro _) | with_reducible assumption
    | exact sub_trans rfl hw | with_reducible apply keeps_complete | with_reducible apply keeps_setSlot | split

theorem keeps_setPop {W : Nat} {s0 s : State} (p : ImgPop) (hw : parts [.regs] ||| W = W) (hk : Keeps W s0 s) :
    Keeps W s0 (State.setPop s p) := by
  unfold State.setPop
  repeat' first
    | (extract_lets +onlyGivenNames sv; refine keeps_cut (t := sv) ?_ ?_; subst sv; rotate_left; clear_value sv; revert sv; intro _ _; rotate_left)
    | with_reducible assumption | with_reducible apply keeps_setReg

theorem keeps_startNetlist {W : Nat} {s0 s : State} (m : Image) (step : Nat) (hw : parts [.regs, .fw] ||| W = W)
    (hk : Keeps W s0 s) :
    Keeps W s0 (State.startNetlist s m step) := by
  unfold State.startNetlist
  repeat' first
    | intro _
    | (extract_lets +onlyGivenNames sv; refine keeps_cut (t := sv) ?_ ?_; subst sv; rotate_left; clear_value sv; revert sv; intro _ _; rotate_left)
    | (extract_lets +onlyGivenNames dv; clear_value dv; revert dv; intro _) | with_reducible assumption
    | exact sub_trans rfl hw | with_reducible apply keeps_each | with_reducible apply keeps_put
    | with_reducible apply keeps_coreStart | with_reducible apply keeps_setFcore | with_reducible apply keeps_setPop

theorem keeps_activationSwitch {W : Nat} {s0 s : State} (n : Nat)
    (hw : parts [.time, .regs, .hif, .fw, .sd, .img, .aid, .built] ||| W = W) (hk : Keeps W s0 s) :
    Keeps W s0 (State.activationSwitch s n) := by
  unfold State.activationSwitch
  repeat' first
    | exact .inr (sub_trans rfl hw) | with_reducible exact .inl rfl | intro _
    | (extract_lets +onlyGivenNames sv; refine keeps_cut (t := sv) ?_ ?_; subst sv; rotate_left; clear_value sv; revert sv; intro _ _; rotate_left)
    | (extract_lets +onlyGivenNames dv; clear_value dv; revert dv; intro _) | with_reducible assumption
    | exact sub_trans rfl hw | with_reducible apply keeps_ite | with_reducible apply keeps_each
    | with_reducible apply keeps_at | with_reducible apply keeps_setSlot | with_reducible apply keeps_startNetlist
    | with_reducible apply keeps_haloRestart | with_reducible apply keeps_askCapacity
    | with_reducible apply keeps_complete | with_reducible apply keeps_await | split | with_reducible apply keeps_mk

theorem keeps_modelUnload {W : Nat} {s0 s : State} (c : Ctx) (hw : parts [.regs, .hif, .img, .aid] ||| W = W)
    (hk : Keeps W s0 s) :
    Keeps W s0 (State.modelUnload s c) := by
  unfold State.modelUnload
  repeat' first
    | (extract_lets +onlyGivenNames dv; clear_value dv; revert dv; intro _) | with_reducible assumption
    | exact sub_trans rfl hw | with_reducible apply keeps_ite | with_reducible apply keeps_complete
    | with_reducible apply keeps_uninstall

/-! ### Machine/Streams.lean -/

theorem keeps_aidWrites {W : Nat} {s0 s : State} (req c : Nat) (q0 : List (Nat × Nat))
    (hw : parts [.regs, .shadow, .groups] ||| W = W) (hk : Keeps W s0 s) :
    Keeps W s0 (State.aidWrites s req c q0) := by
  induction q0 generalizing s with
  | nil =>
    unfold State.aidWrites
    repeat' first | with_reducible assumption
  | cons _ _ ih =>
    unfold State.aidWrites
    repeat' first | with_reducible assumption | with_reducible apply ih | with_reducible apply keeps_groupWrite | split

theorem keeps_tryCommit {W : Nat} {s0 s : State} (req c : Nat) (vals : List (Nat × Nat)) (commit : State → State)
    (hw : parts [.regs, .shadow, .groups] ||| W = W) (hk : Keeps W s0 s) (hc : ∀ u, Keeps W s0 u → Keeps W s0 (commit u)) :
    Keeps W s0 (s.tryCommit req c vals commit).1 := by
  unfold State.tryCommit
  dsimp only
  split
  · exact keeps_sysErr _ _ _ _ (sub_trans rfl hw) hk
  · exact hc _ (keeps_aidWrites _ _ _ (sub_trans rfl hw) hk)

theorem keeps_commitFailed {W : Nat} {s0 s : State} (c : Ctx) (index off code : Nat)
    (hw : parts [.regs, .hif, .aid] ||| W = W) (hk : Keeps W s0 s) :
    Keeps W s0 (State.commitFailed s c index off code) := by
  unfold State.commitFailed
  repeat' first
    | with_reducible assumption | exact sub_trans rfl hw | with_reducible apply keeps_setReg
    | with_reducible apply keeps_complete

theorem keeps_build {W : Nat} {s0 s : State} (i k a : Nat) (bs : List Byte) (hw : parts [.fresh, .built] ||| W = W)
    (hk : Keeps W s0 s) :
    Keeps W s0 (s.build i k a bs) :=
  keeps_update hk (.inl rfl) (.inl rfl) (.inl rfl) (.inl rfl) (.inl rfl) (.inl rfl) (.inl rfl) (.inr (sub_trans rfl hw)) (.inl rfl)
    (.inl rfl) (.inl rfl) (.inl rfl) (.inl rfl) (.inl rfl) (.inl rfl) (.inl rfl) (.inl rfl) (.inl rfl) (.inl rfl) (.inr (sub_trans rfl hw)) (.inl rfl) (.inl rfl) (.inl rfl) (.inl rfl) (.inl rfl) (.inl rfl) (.inl rfl)
    (List.prefix_refl _) (Nat.le_trans (Nat.le_add_right _ 1) (Nat.le_add_right _ _)) id

theorem keeps_unbuild {W : Nat} {s0 s : State} (i k : Nat) (hw : parts [.built] ||| W = W) (hk : Keeps W s0 s) :
    Keeps W s0 (State.unbuild s i k) := by
  unfold State.unbuild
  repeat' first
    | exact .inr (sub_trans rfl hw) | with_reducible exact .inl rfl | with_reducible assumption
    | with_reducible apply keeps_mk

theorem keeps_openMaps {W : Nat} {s0 s : State} (c : Ctx) (hw : parts [.fresh, .built] ||| W = W) (hk : Keeps W s0 s) :
    Keeps W s0 (State.openMaps s c).1 := by
  unfold State.openMaps
  repeat' first
    | (extract_lets +onlyGivenNames sv; refine keeps_cut (t := sv) ?_ ?_; subst sv; rotate_left; clear_value sv; revert sv; intro _ _; rotate_left)
    | (extract_lets +onlyGivenNames dv; clear_value dv; revert dv; intro _) | with_reducible assumption
    | exact sub_trans rfl hw | with_reducible apply keeps_ite | with_reducible apply keeps_build
    | with_reducible apply keeps_unbuild

theorem keeps_openLinks {W : Nat} {s0 s : State} (c : Ctx) (hw : parts [.hif, .hg, .img] ||| W = W) (hk : Keeps W s0 s) :
    Keeps W s0 (State.openLinks s c) := by
  unfold State.openLinks
  repeat' first
    | exact .inr (sub_trans rfl hw) | with_reducible exact .inl rfl
    | (extract_lets +onlyGivenNames sv; refine keeps_cut (t := sv) ?_ ?_; subst sv; rotate_left; clear_value sv; revert sv; intro _ _; rotate_left)
    | (extract_lets +onlyGivenNames dv; clear_value dv; revert dv; intro _) | with_reducible assumption
    | exact sub_trans rfl hw | with_reducible apply keeps_setStream | with_reducible apply keeps_setRing | split
    | with_reducible apply keeps_mk

theorem keeps_openFinish {W : Nat} {s0 s : State} (c : Ctx) (admitting : Bool)
    (hw : parts [.regs, .shadow, .groups, .fresh, .hif, .ras, .mm, .hg, .frf, .sd, .img, .aid, .built, .adm] ||| W = W)
    (hk : Keeps W s0 s) :
    Keeps W s0 (State.openFinish s c admitting) := by
  unfold State.openFinish
  repeat' first
    | exact .inr (sub_trans rfl hw) | with_reducible exact .inl rfl | intro _
    | (extract_lets +onlyGivenNames sv; refine keeps_cut (t := sv) ?_ ?_; subst sv; rotate_left; clear_value sv; revert sv; intro _ _; rotate_left)
    | (extract_lets +onlyGivenNames sv; refine keeps_cut (t := sv.1) ?_ ?_; subst sv; rotate_left; clear_value sv; revert sv; intro _ _; rotate_left)
    | (extract_lets +onlyGivenNames dv; clear_value dv; revert dv; intro _) | with_reducible assumption
    | exact sub_trans rfl hw | with_reducible apply keeps_ite | with_reducible apply keeps_complete
    | with_reducible apply keeps_openMaps | with_reducible apply keeps_openLinks | with_reducible apply keeps_aidWrites
    | with_reducible apply keeps_tryCommit | with_reducible apply keeps_commitLater
    | with_reducible apply keeps_commitFailed | with_reducible apply keeps_cpMbrCommit
    | with_reducible apply keeps_hgStreamCommit | with_reducible apply keeps_settleAdm
    | with_reducible apply keeps_belowFloor | with_reducible apply keeps_bindQueues | split
    | with_reducible apply keeps_mk

theorem keeps_streamOpen {W : Nat} {s0 s : State} (c : Ctx)
    (hw : parts [.regs, .shadow, .groups, .fresh, .hif, .ras, .mm, .hg, .frf, .fw, .sd, .img, .aid, .built, .adm] ||| W = W)
    (hk : Keeps W s0 s) :
    Keeps W s0 (State.streamOpen s c) := by
  unfold State.streamOpen
  repeat' first
    | (extract_lets +onlyGivenNames dv; clear_value dv; revert dv; intro _) | with_reducible assumption
    | exact sub_trans rfl hw | with_reducible apply keeps_ite | with_reducible apply keeps_complete
    | with_reducible apply keeps_openFinish | with_reducible apply keeps_await | with_reducible apply keeps_askEval

theorem keeps_modifyFinish {W : Nat} {s0 s : State} (c : Ctx) (admitting : Bool)
    (hw : parts [.regs, .shadow, .groups, .fresh, .hif, .ras, .hg, .frf, .sd, .aid, .built, .adm] ||| W = W)
    (hk : Keeps W s0 s) :
    Keeps W s0 (State.modifyFinish s c admitting) := by
  unfold State.modifyFinish
  repeat' first
    | exact .inr (sub_trans rfl hw) | with_reducible exact .inl rfl | intro _
    | (extract_lets +onlyGivenNames sv; refine keeps_cut (t := sv) ?_ ?_; subst sv; rotate_left; clear_value sv; revert sv; intro _ _; rotate_left)
    | (extract_lets +onlyGivenNames sv; refine keeps_cut (t := sv.1) ?_ ?_; subst sv; rotate_left; clear_value sv; revert sv; intro _ _; rotate_left)
    | (extract_lets +onlyGivenNames dv; clear_value dv; revert dv; intro _) | with_reducible assumption
    | exact sub_trans rfl hw | with_reducible apply keeps_ite | with_reducible apply keeps_unbuild
    | with_reducible apply keeps_tryCommit | with_reducible apply keeps_hgStreamCommit
    | with_reducible apply keeps_commitFailed | with_reducible apply keeps_setGroup | with_reducible apply keeps_overSusp
    | with_reducible apply keeps_settleAdm | with_reducible apply keeps_belowFloor | with_reducible apply keeps_complete
    | split | with_reducible apply keeps_mk

theorem keeps_streamModify {W : Nat} {s0 s : State} (c : Ctx)
    (hw : parts [.regs, .shadow, .groups, .fresh, .hif, .ras, .hg, .frf, .sd, .aid, .built, .adm] ||| W = W)
    (hk : Keeps W s0 s) :
    Keeps W s0 (State.streamModify s c) := by
  unfold State.streamModify
  repeat' first
    | (extract_lets +onlyGivenNames dv; clear_value dv; revert dv; intro _) | with_reducible assumption
    | exact sub_trans rfl hw | with_reducible apply keeps_ite | with_reducible apply keeps_complete
    | with_reducible apply keeps_await | with_reducible apply keeps_askEval | with_reducible apply keeps_modifyFinish

theorem keeps_closeDone {W : Nat} {s0 s : State} (c : Ctx) (hw : parts [.hif, .aid] ||| W = W) (hk : Keeps W s0 s) :
    Keeps W s0 (State.closeDone s c) := by
  unfold State.closeDone
  repeat' first
    | (extract_lets +onlyGivenNames dv; clear_value dv; revert dv; intro _) | with_reducible assumption
    | with_reducible apply keeps_complete

theorem keeps_streamClose {W : Nat} {s0 s : State} (c : Ctx)
    (hw : parts [.regs, .shadow, .groups, .hif, .ras, .hg, .frf, .sd, .aid] ||| W = W) (hk : Keeps W s0 s) :
    Keeps W s0 (State.streamClose s c) := by
  unfold State.streamClose
  repeat' first
    | intro _
    | (extract_lets +onlyGivenNames sv; refine keeps_cut (t := sv.1) ?_ ?_; subst sv; rotate_left; clear_value sv; revert sv; intro _ _; rotate_left)
    | (extract_lets +onlyGivenNames dv; clear_value dv; revert dv; intro _) | with_reducible assumption
    | exact sub_trans rfl hw | with_reducible apply keeps_ite | with_reducible apply keeps_complete
    | with_reducible apply keeps_await | with_reducible apply keeps_tryCommit | with_reducible apply keeps_hgStreamCommit
    | with_reducible apply keeps_commitFailed | with_reducible apply keeps_closeDone | split

theorem keeps_asGroup {W : Nat} {s0 s : State} (c : Ctx) (hw : parts [.regs] ||| W = W) (hk : Keeps W s0 s) :
    Keeps W s0 (State.asGroup s c) := by
  unfold State.asGroup
  repeat' first | with_reducible assumption | with_reducible apply keeps_applyStaged

theorem keeps_setFusion {W : Nat} {s0 s : State} (g n : Nat) (hw : parts [.img, .cp] ||| W = W) (hk : Keeps W s0 s) :
    Keeps W s0 (State.setFusion s g n) := by
  unfold State.setFusion
  repeat' first
    | exact .inr (sub_trans rfl hw) | with_reducible exact .inl rfl
    | (extract_lets +onlyGivenNames dv; clear_value dv; revert dv; intro _) | with_reducible assumption
    | exact sub_trans rfl hw | with_reducible apply keeps_ite | with_reducible apply keeps_setCpg
    | with_reducible apply keeps_mk

theorem keeps_groupFinish {W : Nat} {s0 s : State} (c : Ctx)
    (hw : parts [.regs, .shadow, .groups, .mem, .hif, .ras, .mm, .img, .cp, .aid] ||| W = W) (hk : Keeps W s0 s) :
    Keeps W s0 (State.groupFinish s c) := by
  unfold State.groupFinish
  repeat' first
    | intro _
    | (extract_lets +onlyGivenNames sv; refine keeps_cut (t := sv.1) ?_ ?_; subst sv; rotate_left; clear_value sv; revert sv; intro _ _; rotate_left)
    | (extract_lets +onlyGivenNames dv; clear_value dv; revert dv; intro _) | with_reducible assumption
    | exact sub_trans rfl hw | with_reducible apply keeps_tryCommit | with_reducible apply keeps_cpGrpCommit
    | with_reducible apply keeps_commitFailed | with_reducible apply keeps_setFusion | with_reducible apply keeps_complete
    | split

theorem keeps_groupSet {W : Nat} {s0 s : State} (c : Ctx)
    (hw : parts [.regs, .shadow, .groups, .mem, .hif, .ras, .mm, .img, .cp, .aid] ||| W = W) (hk : Keeps W s0 s) :
    Keeps W s0 (State.groupSet s c) := by
  unfold State.groupSet
  repeat' first
    | (extract_lets +onlyGivenNames dv; clear_value dv; revert dv; intro _) | with_reducible assumption
    | exact sub_trans rfl hw | with_reducible apply keeps_ite | with_reducible apply keeps_complete
    | with_reducible apply keeps_await | with_reducible apply keeps_askEval | with_reducible apply keeps_groupFinish

theorem keeps_setClass {W : Nat} {s0 s : State} (n : Nat) (r : ClassRow) (hw : parts [.ras, .adm] ||| W = W)
    (hk : Keeps W s0 s) :
    Keeps W s0 (State.setClass s n r) := by
  unfold State.setClass
  repeat' first
    | exact .inr (sub_trans rfl hw) | with_reducible exact .inl rfl
    | (extract_lets +onlyGivenNames sv; refine keeps_cut (t := sv) ?_ ?_; subst sv; rotate_left; clear_value sv; revert sv; intro _ _; rotate_left)
    | (extract_lets +onlyGivenNames dv; clear_value dv; revert dv; intro _) | with_reducible assumption
    | exact sub_trans rfl hw | with_reducible apply keeps_ite | with_reducible apply keeps_overSusp
    | with_reducible apply keeps_mk

theorem keeps_classDone {W : Nat} {s0 s : State} (c : Ctx) (before : Nat) (hw : parts [.hif, .aid] ||| W = W)
    (hk : Keeps W s0 s) :
    Keeps W s0 (State.classDone s c before) := by
  unfold State.classDone
  repeat' first | with_reducible assumption | with_reducible apply keeps_complete

theorem keeps_classSet {W : Nat} {s0 s : State} (c : Ctx) (hw : parts [.hif, .ras, .aid, .adm] ||| W = W)
    (hk : Keeps W s0 s) :
    Keeps W s0 (State.classSet s c) := by
  unfold State.classSet
  repeat' first
    | (extract_lets +onlyGivenNames dv; clear_value dv; revert dv; intro _) | with_reducible assumption
    | exact sub_trans rfl hw | with_reducible apply keeps_ite | with_reducible apply keeps_await
    | with_reducible apply keeps_askEval | with_reducible apply keeps_setClass | with_reducible apply keeps_classDone

theorem keeps_evalDone {W : Nat} {s0 s : State} (e : Eval)
    (hw : parts [.regs, .shadow, .groups, .mem, .fresh, .hif, .ras, .mm, .hg, .frf, .sd, .img, .cp, .aid, .built, .adm] ||| W = W)
    (hk : Keeps W s0 s) :
    Keeps W s0 (State.evalDone s e) := by
  unfold State.evalDone
  repeat' first
    | with_reducible assumption | exact sub_trans rfl hw | with_reducible apply keeps_openFinish
    | with_reducible apply keeps_modifyFinish | with_reducible apply keeps_groupFinish
    | with_reducible apply keeps_settleAdm | with_reducible apply keeps_loadDone | split

theorem keeps_passed {W : Nat} {s0 s : State} (e : Eval) (c : Ctx) (p : Nat)
    (hw : parts [.regs, .shadow, .groups, .mem, .fresh, .hif, .ras, .mm, .hg, .frf, .sd, .img, .cp, .aid, .built, .adm] ||| W = W)
    (hk : Keeps W s0 s) :
    Keeps W s0 (State.passed s e c p) := by
  unfold State.passed
  repeat' first
    | exact .inr (sub_trans rfl hw) | with_reducible exact .inl rfl
    | (extract_lets +onlyGivenNames sv; refine keeps_cut (t := sv) ?_ ?_; subst sv; rotate_left; clear_value sv; revert sv; intro _ _; rotate_left)
    | with_reducible assumption | exact sub_trans rfl hw | with_reducible apply keeps_ite
    | with_reducible apply keeps_await | with_reducible apply keeps_showFloor | with_reducible apply keeps_moveFloor
    | with_reducible apply keeps_evalDone | with_reducible apply keeps_mk

theorem keeps_evalRequest {W : Nat} {s0 s : State} (e : Eval) (r q : Nat) (loads : Ctx → State × List Load)
    (fail : State → Ctx → State) (hw : parts [.regs, .shadow, .groups, .mem, .fresh, .hif, .ras, .mm, .hg, .frf, .sd, .img, .cp, .aid, .built, .adm] ||| W = W) (hk : Keeps W s0 s)
    (hf : ∀ c u, Keeps W s0 u → Keeps W s0 (fail u c)) : Keeps W s0 (s.evalRequest e r q loads fail) := by
  unfold State.evalRequest
  split
  · exact hk
  · dsimp only
    split
    · exact keeps_passed _ _ _ (sub_trans rfl hw) hk
    · exact keeps_complete _ _ _ (sub_trans rfl hw) (hf _ _ hk)

theorem keeps_evaluate {W : Nat} {s0 s : State} (e : Eval)
    (hw : parts [.regs, .shadow, .groups, .mem, .fresh, .hif, .ras, .mm, .hg, .frf, .sd, .img, .cp, .aid, .built, .adm] ||| W = W)
    (hk : Keeps W s0 s) :
    Keeps W s0 (State.evaluate s e) := by
  unfold State.evaluate
  repeat' first
    | intro _ | (extract_lets +onlyGivenNames fv; have _ : State → Ctx → State := fv; subst fv)
    | with_reducible assumption | exact sub_trans rfl hw | with_reducible apply keeps_evalRequest
    | with_reducible apply keeps_uninstall | with_reducible apply keeps_setClass | with_reducible apply keeps_recompute
    | with_reducible apply keeps_classDone | split

theorem keeps_admissionEvaluation {W : Nat} {s0 s : State}
    (hw : parts [.regs, .shadow, .groups, .mem, .fresh, .hif, .ras, .mm, .hg, .frf, .sd, .img, .cp, .aid, .built, .adm] ||| W = W)
    (hk : Keeps W s0 s) :
    Keeps W s0 (State.admissionEvaluation s) := by
  unfold State.admissionEvaluation
  repeat' first
    | exact .inr (sub_trans rfl hw) | with_reducible exact .inl rfl | with_reducible assumption
    | with_reducible apply keeps_ite | with_reducible apply keeps_evaluate | split | with_reducible apply keeps_mk

theorem keeps_raiseReached {W : Nat} {s0 s : State}
    (hw : parts [.regs, .shadow, .groups, .mem, .fresh, .hif, .ras, .mm, .hg, .frf, .sd, .img, .cp, .aid, .built, .adm] ||| W = W)
    (hk : Keeps W s0 s) :
    Keeps W s0 (State.raiseReached s) := by
  unfold State.raiseReached
  repeat' first
    | exact .inr (sub_trans rfl hw) | with_reducible exact .inl rfl | with_reducible assumption | exact sub_trans rfl hw
    | with_reducible apply keeps_ite | with_reducible apply keeps_showFloor | with_reducible apply keeps_evalDone | split
    | with_reducible apply keeps_mk

theorem keeps_abandonRaise {W : Nat} {s0 s : State} (hw : parts [.regs, .hif, .ras, .adm] ||| W = W) (hk : Keeps W s0 s) :
    Keeps W s0 (State.abandonRaise s) := by
  unfold State.abandonRaise
  repeat' first
    | exact .inr (sub_trans rfl hw) | with_reducible exact .inl rfl | with_reducible assumption | exact sub_trans rfl hw
    | with_reducible apply keeps_showFloor | split | with_reducible apply keeps_mk

theorem keeps_resumeRaise {W : Nat} {s0 s : State} (hw : parts [.aid, .adm] ||| W = W) (hk : Keeps W s0 s) :
    Keeps W s0 (State.resumeRaise s) := by
  unfold State.resumeRaise
  repeat' first
    | exact .inr (sub_trans rfl hw) | with_reducible exact .inl rfl | with_reducible assumption | exact sub_trans rfl hw
    | with_reducible apply keeps_ite | with_reducible apply keeps_askEval | split | with_reducible apply keeps_mk

/-! ### Machine/Rings.lean -/

theorem keeps_takeDescriptor {W : Nat} {s0 s : State} (r h : Nat) (inject : Bool) (d : List Byte)
    (hw : parts [.regs, .hif, .aid, .mbx] ||| W = W) (hk : Keeps W s0 s) :
    Keeps W s0 (State.takeDescriptor s r h inject d) := by
  unfold State.takeDescriptor
  repeat' first
    | exact .inr (sub_trans rfl hw) | with_reducible exact .inl rfl
    | (extract_lets +onlyGivenNames sv; refine keeps_cut (t := sv) ?_ ?_; subst sv; rotate_left; clear_value sv; revert sv; intro _ _; rotate_left)
    | (extract_lets +onlyGivenNames dv; clear_value dv; revert dv; intro _) | with_reducible assumption
    | exact sub_trans rfl hw | with_reducible apply keeps_ite | with_reducible apply keeps_setRing
    | with_reducible apply keeps_pass | with_reducible apply keeps_postCompletion | split | with_reducible apply keeps_mk

theorem keeps_releaseDone {W : Nat} {s0 s : State} (r : Nat) (x : Ring) (hw : parts [.hif, .aid] ||| W = W)
    (hk : Keeps W s0 s) :
    Keeps W s0 (State.releaseDone s r x) := by
  unfold State.releaseDone
  repeat' first
    | exact .inr (sub_trans rfl hw) | with_reducible exact .inl rfl
    | (extract_lets +onlyGivenNames dv; clear_value dv; revert dv; intro _) | with_reducible assumption
    | with_reducible apply keeps_ite | with_reducible apply keeps_mk

theorem keeps_fetch {W : Nat} {s0 s : State} (r : Nat) (descs : List (List Byte)) (xlate : Bool)
    (hw : parts [.regs, .out, .hif, .ras, .frf, .fw, .aid, .mbx, .net, .sec] ||| W = W) (hk : Keeps W s0 s) :
    Keeps W s0 (State.fetch s r descs xlate) := by
  unfold State.fetch
  repeat' first
    | exact .inr (sub_trans rfl hw) | with_reducible exact .inl rfl | intro _
    | (extract_lets +onlyGivenNames sv; refine keeps_cut (t := sv) ?_ ?_; subst sv; rotate_left; clear_value sv; revert sv; intro _ _; rotate_left)
    | (extract_lets +onlyGivenNames dv; clear_value dv; revert dv; intro _) | with_reducible assumption
    | exact sub_trans rfl hw | with_reducible apply keeps_ite | with_reducible apply keeps_each
    | with_reducible apply keeps_setRing | with_reducible apply keeps_xlateFault
    | with_reducible apply keeps_takeDescriptor | with_reducible apply keeps_releaseDone | split
    | with_reducible apply keeps_mk

theorem keeps_injectionDone {W : Nat} {s0 s : State} (r : Nat) (d : InjDesc) (entry : List Byte)
    (hw : parts [.hif, .aid] ||| W = W) (hk : Keeps W s0 s) :
    Keeps W s0 (State.injectionDone s r d entry) := by
  unfold State.injectionDone
  repeat' first
    | exact .inr (sub_trans rfl hw) | with_reducible exact .inl rfl | intro _
    | (extract_lets +onlyGivenNames sv; refine keeps_cut (t := sv) ?_ ?_; subst sv; rotate_left; clear_value sv; revert sv; intro _ _; rotate_left)
    | (extract_lets +onlyGivenNames dv; clear_value dv; revert dv; intro _) | with_reducible assumption
    | exact sub_trans rfl hw | with_reducible apply keeps_each | with_reducible apply keeps_setRing
    | with_reducible apply keeps_postCompletion | split | with_reducible apply keeps_mk

theorem keeps_endInjection {W : Nat} {s0 s : State} (r : Nat) (d : InjDesc) (status : Nat) (data : List Byte)
    (hw : parts [.hif, .aid] ||| W = W) (hk : Keeps W s0 s) :
    Keeps W s0 (State.endInjection s r d status data) := by
  unfold State.endInjection
  repeat' first
    | (extract_lets +onlyGivenNames dv; clear_value dv; revert dv; intro _) | with_reducible assumption
    | with_reducible apply keeps_postCompletion | with_reducible apply keeps_injectionDone

theorem keeps_setStage {W : Nat} {s0 s : State} (r : Nat) (d : InjDesc) (stage dup : Nat) (hw : parts [.hif] ||| W = W)
    (hk : Keeps W s0 s) :
    Keeps W s0 (State.setStage s r d stage dup) := by
  unfold State.setStage
  repeat' first | with_reducible assumption | with_reducible apply keeps_setRing | split

theorem keeps_refuseInjection {W : Nat} {s0 s : State} (r i : Nat) (d : InjDesc) (reason retry : Nat)
    (hw : parts [.regs, .hif, .aid] ||| W = W) (hk : Keeps W s0 s) :
    Keeps W s0 (State.refuseInjection s r i d reason retry) := by
  unfold State.refuseInjection
  repeat' first
    | with_reducible assumption | exact sub_trans rfl hw | with_reducible apply keeps_bump
    | with_reducible apply keeps_endInjection

theorem keeps_takeInjected {W : Nat} {s0 s : State} (r i : Nat) (d : InjDesc) (b : Batch)
    (hw : parts [.regs, .out, .hif, .hg, .frf, .aid, .net] ||| W = W) (hk : Keeps W s0 s) :
    Keeps W s0 (State.takeInjected s r i d b) := by
  unfold State.takeInjected
  repeat' first
    | (extract_lets +onlyGivenNames sv; refine keeps_cut (t := sv.1) ?_ ?_; subst sv; rotate_left; clear_value sv; revert sv; intro _ _; rotate_left)
    | with_reducible assumption | exact sub_trans rfl hw | with_reducible apply keeps_ite
    | with_reducible apply keeps_refuseInjection | with_reducible apply keeps_setStage | with_reducible apply keeps_bump
    | with_reducible apply keeps_endInjection | with_reducible apply keeps_admitNext | split

theorem keeps_readInjection {W : Nat} {s0 s : State} (r : Nat) (buffer : List Byte)
    (hw : parts [.regs, .out, .hif, .hg, .frf, .aid, .net] ||| W = W) (hk : Keeps W s0 s) :
    Keeps W s0 (State.readInjection s r buffer) := by
  unfold State.readInjection
  repeat' first
    | (extract_lets +onlyGivenNames dv; clear_value dv; revert dv; intro _) | with_reducible assumption
    | exact sub_trans rfl hw | with_reducible apply keeps_ite | with_reducible apply keeps_endInjection
    | with_reducible apply keeps_takeInjected | split

theorem keeps_injectionWritten {W : Nat} {s0 s : State} (i seq : Nat) (entry : List Byte)
    (hw : parts [.regs, .out, .fresh, .hif, .ras, .mm, .hg, .frf, .fw, .sd, .aid] ||| W = W) (hk : Keeps W s0 s) :
    Keeps W s0 (State.injectionWritten s i seq entry) := by
  unfold State.injectionWritten
  repeat' first
    | intro _
    | (extract_lets +onlyGivenNames sv; refine keeps_cut (t := sv) ?_ ?_; subst sv; rotate_left; clear_value sv; revert sv; intro _ _; rotate_left)
    | (extract_lets +onlyGivenNames dv; clear_value dv; revert dv; intro _) | with_reducible assumption
    | exact sub_trans rfl hw | with_reducible apply keeps_each | with_reducible apply keeps_injectionDone
    | with_reducible apply keeps_accept | with_reducible apply keeps_endInjection | with_reducible apply keeps_ackAll
    | split

theorem keeps_afterShown {W : Nat} {s0 s : State} (run : Run)
    (hw : parts [.regs, .out, .fresh, .hif, .ras, .mm, .hg, .frf, .fw, .sd, .aid] ||| W = W) (hk : Keeps W s0 s) :
    Keeps W s0 (State.afterShown s run) := by
  unfold State.afterShown
  repeat' first | with_reducible assumption | with_reducible apply keeps_injectionWritten | split

theorem keeps_runWritten {W : Nat} {s0 s : State} (r : Nat) (xlate : Bool)
    (hw : parts [.regs, .out, .fresh, .hif, .ras, .mm, .hg, .frf, .fw, .sd, .cp, .aid, .net, .sec] ||| W = W)
    (hk : Keeps W s0 s) :
    Keeps W s0 (State.runWritten s r xlate) := by
  unfold State.runWritten
  repeat' first
    | (extract_lets +onlyGivenNames sv; refine keeps_cut (t := sv) ?_ ?_; subst sv; rotate_left; clear_value sv; revert sv; intro _ _; rotate_left)
    | with_reducible assumption | exact sub_trans rfl hw | with_reducible apply keeps_ite
    | with_reducible apply keeps_runWrite | with_reducible apply keeps_afterShown | split

theorem keeps_readBack {W : Nat} {s0 s : State} (h : HostRead)
    (hw : parts [.regs, .out, .fresh, .hif, .ras, .mm, .hg, .frf, .fw, .sd, .cp, .aid, .net] ||| W = W)
    (hk : Keeps W s0 s) :
    Keeps W s0 (State.readBack s h) := by
  unfold State.readBack
  repeat' first
    | (extract_lets +onlyGivenNames sv; refine keeps_cut (t := sv) ?_ ?_; subst sv; rotate_left; clear_value sv; revert sv; intro _ _; rotate_left)
    | with_reducible assumption | exact sub_trans rfl hw | with_reducible apply keeps_ite
    | with_reducible apply keeps_recordAt | with_reducible apply keeps_runShown | with_reducible apply keeps_afterShown
    | with_reducible apply keeps_takeConsumer | with_reducible apply keeps_put | split

theorem keeps_ringCreate {W : Nat} {s0 s : State} (c : Ctx) (hw : parts [.regs, .hif, .aid] ||| W = W) (hk : Keeps W s0 s) :
    Keeps W s0 (State.ringCreate s c) := by
  unfold State.ringCreate
  repeat' first
    | exact .inr (sub_trans rfl hw) | with_reducible exact .inl rfl
    | (extract_lets +onlyGivenNames sv; refine keeps_cut (t := sv) ?_ ?_; subst sv; rotate_left; clear_value sv; revert sv; intro _ _; rotate_left)
    | (extract_lets +onlyGivenNames dv; clear_value dv; revert dv; intro _) | with_reducible assumption
    | exact sub_trans rfl hw | with_reducible apply keeps_ite | with_reducible apply keeps_complete
    | with_reducible apply keeps_advanceEpoch | with_reducible apply keeps_setRing | with_reducible apply keeps_showHosted
    | split | with_reducible apply keeps_mk

theorem keeps_ringGone {W : Nat} {s0 s : State} (c : Ctx) (r : Nat) (hw : parts [.regs, .hif, .aid] ||| W = W)
    (hk : Keeps W s0 s) :
    Keeps W s0 (State.ringGone s c r) := by
  unfold State.ringGone
  repeat' first
    | exact .inr (sub_trans rfl hw) | with_reducible exact .inl rfl
    | (extract_lets +onlyGivenNames sv; refine keeps_cut (t := sv) ?_ ?_; subst sv; rotate_left; clear_value sv; revert sv; intro _ _; rotate_left)
    | (extract_lets +onlyGivenNames dv; clear_value dv; revert dv; intro _) | with_reducible assumption
    | exact sub_trans rfl hw | with_reducible apply keeps_complete | with_reducible apply keeps_showHosted
    | with_reducible apply keeps_mk

theorem keeps_ringDestroy {W : Nat} {s0 s : State} (c : Ctx) (hw : parts [.regs, .hif, .aid] ||| W = W)
    (hk : Keeps W s0 s) :
    Keeps W s0 (State.ringDestroy s c) := by
  unfold State.ringDestroy
  repeat' first
    | (extract_lets +onlyGivenNames dv; clear_value dv; revert dv; intro _) | with_reducible assumption
    | exact sub_trans rfl hw | with_reducible apply keeps_ite | with_reducible apply keeps_complete
    | with_reducible apply keeps_ringGone | with_reducible apply keeps_await | split

theorem keeps_ringAttach {W : Nat} {s0 s : State} (c : Ctx) (hw : parts [.hif, .aid] ||| W = W) (hk : Keeps W s0 s) :
    Keeps W s0 (State.ringAttach s c) := by
  unfold State.ringAttach
  repeat' first
    | (extract_lets +onlyGivenNames sv; refine keeps_cut (t := sv) ?_ ?_; subst sv; rotate_left; clear_value sv; revert sv; intro _ _; rotate_left)
    | (extract_lets +onlyGivenNames dv; clear_value dv; revert dv; intro _) | with_reducible assumption
    | exact sub_trans rfl hw | with_reducible apply keeps_ite | with_reducible apply keeps_complete
    | with_reducible apply keeps_advanceEpoch | with_reducible apply keeps_setRing | split

theorem keeps_showSessions {W : Nat} {s0 s : State} (hw : parts [.regs] ||| W = W) (hk : Keeps W s0 s) :
    Keeps W s0 (State.showSessions s) := by
  unfold State.showSessions
  repeat' first | with_reducible assumption | with_reducible apply keeps_put

theorem keeps_closeSessions {W : Nat} {s0 s : State} (p : Session → Bool) (hw : parts [.regs, .sec] ||| W = W)
    (hk : Keeps W s0 s) :
    Keeps W s0 (State.closeSessions s p) := by
  unfold State.closeSessions
  repeat' first
    | exact .inr (sub_trans rfl hw) | with_reducible exact .inl rfl | with_reducible assumption | exact sub_trans rfl hw
    | with_reducible apply keeps_showSessions | with_reducible apply keeps_mk

theorem keeps_stopRings {W : Nat} {s0 s : State} (f : Nat)
    (hw : parts [.regs, .out, .hif, .ras, .hg, .frf, .net] ||| W = W) (hk : Keeps W s0 s) :
    Keeps W s0 (State.stopRings s f) := by
  unfold State.stopRings
  repeat' first
    | intro _
    | (extract_lets +onlyGivenNames sv; refine keeps_cut (t := sv) ?_ ?_; subst sv; rotate_left; clear_value sv; revert sv; intro _ _; rotate_left)
    | with_reducible assumption | exact sub_trans rfl hw | with_reducible apply keeps_ite
    | with_reducible apply keeps_each | with_reducible apply keeps_put | with_reducible apply keeps_takeConsumer
    | with_reducible apply keeps_setRing | split

theorem keeps_flr {W : Nat} {s0 s : State} (f : Nat)
    (hw : parts [.regs, .shadow, .groups, .out, .hif, .ras, .hg, .frf, .mbx, .net, .sec] ||| W = W) (hk : Keeps W s0 s) :
    Keeps W s0 (State.flr s f) := by
  unfold State.flr
  repeat' first
    | exact .inr (sub_trans rfl hw) | with_reducible exact .inl rfl | intro _
    | (extract_lets +onlyGivenNames sv; refine keeps_cut (t := sv) ?_ ?_; subst sv; rotate_left; clear_value sv; revert sv; intro _ _; rotate_left)
    | (extract_lets +onlyGivenNames dv; clear_value dv; revert dv; intro _) | with_reducible assumption
    | exact sub_trans rfl hw | with_reducible apply keeps_ite | with_reducible apply keeps_each
    | with_reducible apply keeps_stopRings | with_reducible apply keeps_closeSessions
    | with_reducible apply keeps_endReset | with_reducible apply keeps_mk

/-! ### Machine/Sessions.lean -/

theorem keeps_tickBy {W : Nat} {s0 s : State} (n : Nat) (hw : parts [.fresh] ||| W = W)
    (hk : Keeps W s0 s) : Keeps W s0 (s.tickBy n) :=
  keeps_fresh hk hw (Nat.le_add_right _ _)

theorem keeps_sessionChallenge {W : Nat} {s0 s : State} (c : Ctx) (hw : parts [.out, .fresh, .hif, .aid, .sec] ||| W = W)
    (hk : Keeps W s0 s) :
    Keeps W s0 (State.sessionChallenge s c) := by
  unfold State.sessionChallenge
  repeat' first
    | exact .inr (sub_trans rfl hw) | with_reducible exact .inl rfl
    | (extract_lets +onlyGivenNames sv; refine keeps_cut (t := sv) ?_ ?_; subst sv; rotate_left; clear_value sv; revert sv; intro _ _; rotate_left)
    | (extract_lets +onlyGivenNames dv; clear_value dv; revert dv; intro _) | with_reducible assumption
    | exact sub_trans rfl hw | with_reducible apply keeps_tickBy | with_reducible apply keeps_tickFree
    | with_reducible apply keeps_completeOut | with_reducible apply keeps_mk

theorem keeps_proofFailed {W : Nat} {s0 s : State} (fn : Nat) (hw : parts [.regs, .sec] ||| W = W) (hk : Keeps W s0 s) :
    Keeps W s0 (State.proofFailed s fn) := by
  unfold State.proofFailed
  repeat' first
    | exact .inr (sub_trans rfl hw) | with_reducible exact .inl rfl
    | (extract_lets +onlyGivenNames sv; refine keeps_cut (t := sv) ?_ ?_; subst sv; rotate_left; clear_value sv; revert sv; intro _ _; rotate_left)
    | (extract_lets +onlyGivenNames dv; clear_value dv; revert dv; intro _) | with_reducible assumption
    | exact sub_trans rfl hw | with_reducible apply keeps_put | with_reducible apply keeps_bump
    | with_reducible apply keeps_mk

theorem keeps_sessionOpen {W : Nat} {s0 s : State} (c : Ctx)
    (hw : parts [.regs, .out, .fresh, .hif, .aid, .sec] ||| W = W) (hk : Keeps W s0 s) :
    Keeps W s0 (State.sessionOpen s c) := by
  unfold State.sessionOpen
  repeat' first
    | exact .inr (sub_trans rfl hw) | with_reducible exact .inl rfl
    | (extract_lets +onlyGivenNames sv; refine keeps_cut (t := sv) ?_ ?_; subst sv; rotate_left; clear_value sv; revert sv; intro _ _; rotate_left)
    | (extract_lets +onlyGivenNames dv; clear_value dv; revert dv; intro _) | with_reducible assumption
    | exact sub_trans rfl hw | with_reducible apply keeps_ite | with_reducible apply keeps_complete
    | with_reducible apply keeps_proofFailed | with_reducible apply keeps_tickFree
    | with_reducible apply keeps_showSessions | with_reducible apply keeps_bump | with_reducible apply keeps_completeOut
    | split | with_reducible apply keeps_mk

theorem keeps_mapSessions {W : Nat} {s0 s : State} (f : Session → Session) (hw : parts [.sec] ||| W = W)
    (hk : Keeps W s0 s) :
    Keeps W s0 (State.mapSessions s f) := by
  unfold State.mapSessions
  repeat' first
    | exact .inr (sub_trans rfl hw) | with_reducible exact .inl rfl | with_reducible assumption
    | with_reducible apply keeps_mk

theorem keeps_closeFinish {W : Nat} {s0 s : State} (c : Ctx) (id : Nat) (hw : parts [.regs, .hif, .aid, .sec] ||| W = W)
    (hk : Keeps W s0 s) :
    Keeps W s0 (State.closeFinish s c id) := by
  unfold State.closeFinish
  repeat' first
    | (extract_lets +onlyGivenNames dv; clear_value dv; revert dv; intro _) | with_reducible assumption
    | exact sub_trans rfl hw | with_reducible apply keeps_closeSessions | with_reducible apply keeps_complete

theorem keeps_sessionClose {W : Nat} {s0 s : State} (c : Ctx) (hw : parts [.regs, .hif, .aid, .sec] ||| W = W)
    (hk : Keeps W s0 s) :
    Keeps W s0 (State.sessionClose s c) := by
  unfold State.sessionClose
  repeat' first
    | (extract_lets +onlyGivenNames sv; refine keeps_cut (t := sv) ?_ ?_; subst sv; rotate_left; clear_value sv; revert sv; intro _ _; rotate_left)
    | (extract_lets +onlyGivenNames dv; clear_value dv; revert dv; intro _) | with_reducible assumption
    | exact sub_trans rfl hw | with_reducible apply keeps_ite | with_reducible apply keeps_complete
    | with_reducible apply keeps_mapSessions | with_reducible apply keeps_closeFinish | with_reducible apply keeps_await
    | split

theorem keeps_showKeys {W : Nat} {s0 s : State} (hw : parts [.regs] ||| W = W) (hk : Keeps W s0 s) :
    Keeps W s0 (State.showKeys s) := by
  unfold State.showKeys
  repeat' first | with_reducible assumption | with_reducible apply keeps_put

theorem keeps_twoCopies {W : Nat} {s0 s : State} (hw : parts [.sec] ||| W = W) (hk : Keeps W s0 s) :
    Keeps W s0 (State.twoCopies s) := by
  unfold State.twoCopies
  repeat' first
    | exact .inr (sub_trans rfl hw) | with_reducible exact .inl rfl | with_reducible assumption
    | with_reducible apply keeps_mk

theorem keeps_keyProvision {W : Nat} {s0 s : State} (c : Ctx) (hw : parts [.regs, .hif, .aid, .sec] ||| W = W)
    (hk : Keeps W s0 s) :
    Keeps W s0 (State.keyProvision s c) := by
  unfold State.keyProvision
  repeat' first
    | exact .inr (sub_trans rfl hw) | with_reducible exact .inl rfl
    | (extract_lets +onlyGivenNames sv; refine keeps_cut (t := sv) ?_ ?_; subst sv; rotate_left; clear_value sv; revert sv; intro _ _; rotate_left)
    | (extract_lets +onlyGivenNames dv; clear_value dv; revert dv; intro _) | with_reducible assumption
    | exact sub_trans rfl hw | with_reducible apply keeps_ite | with_reducible apply keeps_complete
    | with_reducible apply keeps_mapSessions | with_reducible apply keeps_twoCopies | with_reducible apply keeps_showKeys
    | with_reducible apply keeps_closeSessions | split | with_reducible apply keeps_mk

/-! ### Machine/Registers.lean -/

theorem keeps_commitWrite {W : Nat} {s0 s : State} (req c base i val : Nat)
    (hw : parts [.regs, .shadow, .groups, .mem, .hif, .ras, .mm, .hg, .frf, .fw, .sd, .cp, .aid, .net] ||| W = W)
    (hk : Keeps W s0 s) :
    Keeps W s0 (State.commitWrite s req c base i val) := by
  unfold State.commitWrite
  repeat' first
    | with_reducible assumption | exact sub_trans rfl hw | with_reducible apply keeps_ite
    | with_reducible apply keeps_hgGlbCommit | with_reducible apply keeps_hgStreamCommit
    | with_reducible apply keeps_frfGlbCommit | with_reducible apply keeps_frfLaneCommit
    | with_reducible apply keeps_fwGlbCommit | with_reducible apply keeps_fwCoreCommit
    | with_reducible apply keeps_fwMapCommit | with_reducible apply keeps_fwPopCommit
    | with_reducible apply keeps_stCommit | with_reducible apply keeps_cpGlbCommit
    | with_reducible apply keeps_cpGrpCommit | with_reducible apply keeps_cpMbrCommit
    | with_reducible apply keeps_memRgnCommit | with_reducible apply keeps_sqQCommit
    | with_reducible apply keeps_hifFnCommit | with_reducible apply keeps_hifAdmCommit
    | with_reducible apply keeps_netGlbCommit | with_reducible apply keeps_netPortCommit
    | with_reducible apply keeps_netExpCommit | with_reducible apply keeps_netPeerCommit
    | with_reducible apply keeps_timCommit | with_reducible apply keeps_commitNow

theorem keeps_pendingApply {W : Nat} {s0 s : State} (c : Nat)
    (hw : parts [.time, .regs, .shadow, .groups, .mem, .ras, .mm, .hg, .frf, .cp] ||| W = W) (hk : Keeps W s0 s) :
    Keeps W s0 (State.pendingApply s c) := by
  unfold State.pendingApply
  repeat' first
    | (extract_lets +onlyGivenNames sv; refine keeps_cut (t := sv) ?_ ?_; subst sv; rotate_left; clear_value sv; revert sv; intro _ _; rotate_left)
    | (extract_lets +onlyGivenNames dv; clear_value dv; revert dv; intro _) | with_reducible assumption
    | exact sub_trans rfl hw | with_reducible apply keeps_ite | with_reducible apply keeps_applyPending
    | with_reducible apply keeps_streamApplied | with_reducible apply keeps_laneApplied
    | with_reducible apply keeps_cpGrpApplied | split

theorem keeps_claimLapse {W : Nat} {s0 s : State} (c : Nat) (hw : parts [.time, .regs, .shadow, .groups] ||| W = W)
    (hk : Keeps W s0 s) :
    Keeps W s0 (State.claimLapse s c) := by
  unfold State.claimLapse
  repeat' first
    | (extract_lets +onlyGivenNames dv; clear_value dv; revert dv; intro _) | with_reducible assumption
    | exact sub_trans rfl hw | with_reducible apply keeps_ite | with_reducible apply keeps_at
    | with_reducible apply keeps_sysErr | with_reducible apply keeps_reloadShadow | with_reducible apply keeps_endClaim

theorem keeps_discard {W : Nat} {s0 s : State} (req c : Nat) (hw : parts [.shadow, .groups] ||| W = W) (hk : Keeps W s0 s) :
    Keeps W s0 (State.discard s req c) := by
  unfold State.discard
  repeat' first
    | (extract_lets +onlyGivenNames dv; clear_value dv; revert dv; intro _) | with_reducible assumption
    | exact sub_trans rfl hw | with_reducible apply keeps_ite | with_reducible apply keeps_reloadShadow
    | with_reducible apply keeps_endClaim

theorem keeps_showWatch {W : Nat} {s0 s : State} (hw : parts [.regs, .hif] ||| W = W) (hk : Keeps W s0 s) :
    Keeps W s0 (State.showWatch s) := by
  unfold State.showWatch
  repeat' first
    | exact .inr (sub_trans rfl hw) | with_reducible exact .inl rfl
    | (extract_lets +onlyGivenNames sv; refine keeps_cut (t := sv) ?_ ?_; subst sv; rotate_left; clear_value sv; revert sv; intro _ _; rotate_left)
    | (extract_lets +onlyGivenNames dv; clear_value dv; revert dv; intro _) | with_reducible assumption
    | exact sub_trans rfl hw | with_reducible apply keeps_ite | with_reducible apply keeps_put
    | with_reducible apply keeps_mk

theorem keeps_sqClear {W : Nat} {s0 s : State} (val : Word) (hw : parts [.mm] ||| W = W) (hk : Keeps W s0 s) :
    Keeps W s0 (State.sqClear s val) := by
  unfold State.sqClear
  repeat' first
    | (extract_lets +onlyGivenNames dv; clear_value dv; revert dv; intro _) | with_reducible assumption
    | with_reducible apply keeps_setQueue

theorem keeps_erpConfigured {W : Nat} {s0 s : State} (n : Nat) (was : Bool) (hw : parts [.regs, .net] ||| W = W)
    (hk : Keeps W s0 s) :
    Keeps W s0 (State.erpConfigured s n was) := by
  unfold State.erpConfigured
  repeat' first
    | (extract_lets +onlyGivenNames sv; refine keeps_cut (t := sv) ?_ ?_; subst sv; rotate_left; clear_value sv; revert sv; intro _ _; rotate_left)
    | (extract_lets +onlyGivenNames dv; clear_value dv; revert dv; intro _) | with_reducible assumption
    | exact sub_trans rfl hw | with_reducible apply keeps_ite | with_reducible apply keeps_setErp
    | with_reducible apply keeps_put

theorem keeps_plainWrite {W : Nat} {s0 s : State} (req a : Nat) (fs : List FieldSpec) (val m : Word)
    (hw : parts [.regs] ||| W = W) (hk : Keeps W s0 s) :
    Keeps W s0 (State.plainWrite s req a fs val m) := by
  unfold State.plainWrite
  repeat' first | with_reducible assumption | with_reducible apply keeps_setReg

theorem keeps_freeWrite {W : Nat} {s0 s : State} (req a base i : Nat) (fs : List FieldSpec) (val m : Word)
    (hw : parts [.regs, .shadow, .groups, .out, .hif, .ras, .mm, .frf, .fw, .aid, .mbx, .net, .sec] ||| W = W)
    (hk : Keeps W s0 s) :
    Keeps W s0 (State.freeWrite s req a base i fs val m) := by
  unfold State.freeWrite
  repeat' first
    | exact .inr (sub_trans rfl hw) | with_reducible exact .inl rfl
    | (extract_lets +onlyGivenNames sv; refine keeps_cut (t := sv) ?_ ?_; subst sv; rotate_left; clear_value sv; revert sv; intro _ _; rotate_left)
    | (extract_lets +onlyGivenNames dv; clear_value dv; revert dv; intro _) | with_reducible assumption
    | exact sub_trans rfl hw | with_reducible apply keeps_ite | with_reducible apply keeps_discard
    | with_reducible apply keeps_plainWrite | with_reducible apply keeps_showWatch | with_reducible apply keeps_frfSync
    | with_reducible apply keeps_frfMaskData1 | with_reducible apply keeps_frfCoefData
    | with_reducible apply keeps_frfLaneSwap | with_reducible apply keeps_fwTblWrite | with_reducible apply keeps_sqMirror
    | with_reducible apply keeps_sqReset | with_reducible apply keeps_sqClear | with_reducible apply keeps_fdbData
    | with_reducible apply keeps_erpConfigured | with_reducible apply keeps_put | with_reducible apply keeps_mbxCfg
    | with_reducible apply keeps_mbxSend | with_reducible apply keeps_mbxRing | with_reducible apply keeps_mbxWrite
    | with_reducible apply keeps_lockWrite | with_reducible apply keeps_lockForce | with_reducible apply keeps_mk

theorem keeps_writeOne {W : Nat} {s0 s : State} (req size a : Nat) (r : RegSpec) (is : List Nat) (val m : Word)
    (hw : parts [.regs, .shadow, .groups, .mem, .out, .hif, .ras, .mm, .hg, .frf, .fw, .sd, .cp, .aid, .mbx, .net, .sec] ||| W = W)
    (hk : Keeps W s0 s) :
    Keeps W s0 (State.writeOne s req size a r is val m) := by
  unfold State.writeOne
  repeat' first
    | (extract_lets +onlyGivenNames sv; refine keeps_cut (t := sv) ?_ ?_; subst sv; rotate_left; clear_value sv; revert sv; intro _ _; rotate_left)
    | (extract_lets +onlyGivenNames dv; clear_value dv; revert dv; intro _) | with_reducible assumption
    | exact sub_trans rfl hw | with_reducible apply keeps_ite | with_reducible apply keeps_sysErr
    | with_reducible apply keeps_groupWrite | with_reducible apply keeps_freeWrite
    | with_reducible apply keeps_commitWrite | split

theorem keeps_writeReg {W : Nat} {s0 s : State} (req off size val : Nat)
    (hw : parts [.regs, .shadow, .groups, .mem, .out, .hif, .ras, .mm, .hg, .frf, .fw, .sd, .cp, .aid, .mbx, .net, .sec] ||| W = W)
    (hk : Keeps W s0 s) :
    Keeps W s0 (State.writeReg s req off size val) := by
  unfold State.writeReg
  repeat' first
    | (extract_lets +onlyGivenNames sv; refine keeps_cut (t := sv) ?_ ?_; subst sv; rotate_left; clear_value sv; revert sv; intro _ _; rotate_left)
    | (extract_lets +onlyGivenNames dv; clear_value dv; revert dv; intro _) | with_reducible assumption
    | exact sub_trans rfl hw | with_reducible apply keeps_ite | with_reducible apply keeps_sysErr
    | with_reducible apply keeps_writeOne | split

theorem keeps_vfWrite {W : Nat} {s0 s : State} (n req off size val : Nat)
    (hw : parts [.regs, .shadow, .groups, .mem, .out, .hif, .ras, .mm, .hg, .frf, .fw, .sd, .cp, .aid, .mbx, .net, .sec] ||| W = W)
    (hk : Keeps W s0 s) :
    Keeps W s0 (State.vfWrite s n req off size val) := by
  unfold State.vfWrite
  repeat' first
    | exact .inr (sub_trans rfl hw) | with_reducible exact .inl rfl | with_reducible assumption | exact sub_trans rfl hw
    | with_reducible apply keeps_ite | with_reducible apply keeps_sysErr | with_reducible apply keeps_writeReg
    | with_reducible apply keeps_mk

/-! ### Machine/Power.lean -/

theorem keeps_setPow {W : Nat} {s0 s : State} (p : Pow) (hw : parts [.pow] ||| W = W) (hk : Keeps W s0 s) :
    Keeps W s0 (State.setPow s p) := by
  unfold State.setPow
  repeat' first
    | exact .inr (sub_trans rfl hw) | with_reducible exact .inl rfl | with_reducible assumption
    | with_reducible apply keeps_mk

theorem keeps_divide {W : Nat} {s0 s : State} (p : Nat)
    (hw : parts [.regs, .shadow, .groups, .mem, .fresh, .hif, .ras, .mm, .hg, .frf, .sd, .img, .cp, .aid, .built, .adm, .pow] ||| W = W)
    (hk : Keeps W s0 s) :
    Keeps W s0 (State.divide s p) := by
  unfold State.divide
  repeat' first
    | (extract_lets +onlyGivenNames sv; refine keeps_cut (t := sv) ?_ ?_; subst sv; rotate_left; clear_value sv; revert sv; intro _ _; rotate_left)
    | (extract_lets +onlyGivenNames dv; clear_value dv; revert dv; intro _) | with_reducible assumption
    | exact sub_trans rfl hw | with_reducible apply keeps_put | with_reducible apply keeps_bump
    | with_reducible apply keeps_setPow | with_reducible apply keeps_belowFloor | with_reducible apply keeps_raiseReached
    | with_reducible apply keeps_resumeRaise

theorem keeps_askVoltage {W : Nat} {s0 s : State} (mv : Nat) (hw : parts [.out, .pow] ||| W = W) (hk : Keeps W s0 s) :
    Keeps W s0 (State.askVoltage s mv) := by
  unfold State.askVoltage
  repeat' first
    | with_reducible assumption | exact sub_trans rfl hw | with_reducible apply keeps_setPow
    | with_reducible apply keeps_emit

theorem keeps_raiseTo {W : Nat} {s0 s : State} (p : Nat) (hw : parts [.regs, .out, .pow] ||| W = W) (hk : Keeps W s0 s) :
    Keeps W s0 (State.raiseTo s p) := by
  unfold State.raiseTo
  repeat' first
    | (extract_lets +onlyGivenNames sv; refine keeps_cut (t := sv) ?_ ?_; subst sv; rotate_left; clear_value sv; revert sv; intro _ _; rotate_left)
    | (extract_lets +onlyGivenNames dv; clear_value dv; revert dv; intro _) | with_reducible assumption
    | exact sub_trans rfl hw | with_reducible apply keeps_askVoltage | with_reducible apply keeps_put
    | with_reducible apply keeps_setPow

theorem keeps_lowerTo {W : Nat} {s0 s : State} (p : Nat)
    (hw : parts [.regs, .shadow, .groups, .mem, .out, .fresh, .hif, .ras, .mm, .hg, .frf, .sd, .img, .cp, .aid, .built, .adm, .pow] ||| W = W)
    (hk : Keeps W s0 s) :
    Keeps W s0 (State.lowerTo s p) := by
  unfold State.lowerTo
  repeat' first
    | (extract_lets +onlyGivenNames sv; refine keeps_cut (t := sv) ?_ ?_; subst sv; rotate_left; clear_value sv; revert sv; intro _ _; rotate_left)
    | (extract_lets +onlyGivenNames dv; clear_value dv; revert dv; intro _) | with_reducible assumption
    | exact sub_trans rfl hw | with_reducible apply keeps_divide | with_reducible apply keeps_askVoltage
    | with_reducible apply keeps_put | with_reducible apply keeps_setPow

theorem keeps_dropTo {W : Nat} {s0 s : State} (p : Nat)
    (hw : parts [.regs, .shadow, .groups, .mem, .out, .fresh, .hif, .ras, .mm, .hg, .frf, .sd, .img, .cp, .aid, .built, .adm, .pow] ||| W = W)
    (hk : Keeps W s0 s) :
    Keeps W s0 (State.dropTo s p) := by
  unfold State.dropTo
  repeat' first
    | (extract_lets +onlyGivenNames sv; refine keeps_cut (t := sv) ?_ ?_; subst sv; rotate_left; clear_value sv; revert sv; intro _ _; rotate_left)
    | with_reducible assumption | exact sub_trans rfl hw | with_reducible apply keeps_ite
    | with_reducible apply keeps_abandonRaise | with_reducible apply keeps_lowerTo

theorem keeps_powChange {W : Nat} {s0 s : State} (hw : parts [.pow] ||| W = W) (hk : Keeps W s0 s) :
    Keeps W s0 (State.powChange s) := by
  unfold State.powChange
  repeat' first | with_reducible assumption | with_reducible apply keeps_setPow

theorem keeps_dvfsRequest {W : Nat} {s0 s : State}
    (hw : parts [.regs, .shadow, .groups, .mem, .out, .fresh, .hif, .ras, .mm, .hg, .frf, .sd, .img, .cp, .aid, .built, .adm, .pow] ||| W = W)
    (hk : Keeps W s0 s) :
    Keeps W s0 (State.dvfsRequest s) := by
  unfold State.dvfsRequest
  repeat' first
    | with_reducible assumption | exact sub_trans rfl hw | with_reducible apply keeps_ite
    | with_reducible apply keeps_powChange | with_reducible apply keeps_raiseTo | with_reducible apply keeps_lowerTo

theorem keeps_voltageRead {W : Nat} {s0 s : State} (mv : Nat) (hw : parts [.regs, .pow] ||| W = W) (hk : Keeps W s0 s) :
    Keeps W s0 (State.voltageRead s mv) := by
  unfold State.voltageRead
  repeat' first
    | (extract_lets +onlyGivenNames dv; clear_value dv; revert dv; intro _) | with_reducible assumption
    | exact sub_trans rfl hw | with_reducible apply keeps_ite | with_reducible apply keeps_put
    | with_reducible apply keeps_setPow

theorem keeps_holdEnd {W : Nat} {s0 s : State}
    (hw : parts [.regs, .shadow, .groups, .mem, .fresh, .hif, .ras, .mm, .hg, .frf, .sd, .img, .cp, .aid, .built, .adm, .pow] ||| W = W)
    (hk : Keeps W s0 s) :
    Keeps W s0 (State.holdEnd s) := by
  unfold State.holdEnd
  repeat' first
    | (extract_lets +onlyGivenNames sv; refine keeps_cut (t := sv) ?_ ?_; subst sv; rotate_left; clear_value sv; revert sv; intro _ _; rotate_left)
    | (extract_lets +onlyGivenNames dv; clear_value dv; revert dv; intro _) | with_reducible assumption
    | exact sub_trans rfl hw | with_reducible apply keeps_ite | with_reducible apply keeps_setPow
    | with_reducible apply keeps_put | with_reducible apply keeps_divide | split

theorem keeps_powerEmergency {W : Nat} {s0 s : State}
    (hw : parts [.regs, .shadow, .groups, .mem, .out, .fresh, .hif, .ras, .mm, .hg, .frf, .sd, .img, .cp, .aid, .built, .adm, .pow] ||| W = W)
    (hk : Keeps W s0 s) :
    Keeps W s0 (State.powerEmergency s) := by
  unfold State.powerEmergency
  repeat' first
    | (extract_lets +onlyGivenNames sv; refine keeps_cut (t := sv) ?_ ?_; subst sv; rotate_left; clear_value sv; revert sv; intro _ _; rotate_left)
    | (extract_lets +onlyGivenNames dv; clear_value dv; revert dv; intro _) | with_reducible assumption
    | exact sub_trans rfl hw | with_reducible apply keeps_put | with_reducible apply keeps_setPow
    | with_reducible apply keeps_dropTo

theorem keeps_raiseTimeout {W : Nat} {s0 s : State}
    (hw : parts [.time, .regs, .shadow, .groups, .mem, .out, .fresh, .hif, .ras, .mm, .hg, .frf, .sd, .img, .cp, .aid, .built, .adm, .pow] ||| W = W)
    (hk : Keeps W s0 s) :
    Keeps W s0 (State.raiseTimeout s) := by
  unfold State.raiseTimeout
  repeat' first
    | (extract_lets +onlyGivenNames sv; refine keeps_cut (t := sv) ?_ ?_; subst sv; rotate_left; clear_value sv; revert sv; intro _ _; rotate_left)
    | (extract_lets +onlyGivenNames dv; clear_value dv; revert dv; intro _) | with_reducible assumption
    | exact sub_trans rfl hw | with_reducible apply keeps_at | with_reducible apply keeps_askVoltage
    | with_reducible apply keeps_put | with_reducible apply keeps_setPow | with_reducible apply keeps_powerEmergency
    | split

theorem keeps_powerEmergencyEnd {W : Nat} {s0 s : State} (hw : parts [.regs, .pow] ||| W = W) (hk : Keeps W s0 s) :
    Keeps W s0 (State.powerEmergencyEnd s) := by
  unfold State.powerEmergencyEnd
  repeat' first
    | with_reducible assumption | exact sub_trans rfl hw | with_reducible apply keeps_ite | with_reducible apply keeps_put
    | with_reducible apply keeps_setPow | split

theorem keeps_powerSet {W : Nat} {s0 s : State} (c : Ctx) (hw : parts [.hif, .aid] ||| W = W) (hk : Keeps W s0 s) :
    Keeps W s0 (State.powerSet s c) := by
  unfold State.powerSet
  repeat' first
    | (extract_lets +onlyGivenNames dv; clear_value dv; revert dv; intro _) | with_reducible assumption
    | exact sub_trans rfl hw | with_reducible apply keeps_ite | with_reducible apply keeps_await
    | with_reducible apply keeps_complete

theorem keeps_applyCap {W : Nat} {s0 s : State} (c : Ctx) (hw : parts [.regs, .hif, .aid] ||| W = W) (hk : Keeps W s0 s) :
    Keeps W s0 (State.applyCap s c) := by
  unfold State.applyCap
  repeat' first
    | (extract_lets +onlyGivenNames sv; refine keeps_cut (t := sv) ?_ ?_; subst sv; rotate_left; clear_value sv; revert sv; intro _ _; rotate_left)
    | (extract_lets +onlyGivenNames dv; clear_value dv; revert dv; intro _) | with_reducible assumption
    | exact sub_trans rfl hw | with_reducible apply keeps_put | with_reducible apply keeps_complete

theorem keeps_capAtFloor {W : Nat} {s0 s : State} (on : Bool) (mw : Nat) (hw : parts [.regs, .hif, .ras, .pow] ||| W = W)
    (hk : Keeps W s0 s) :
    Keeps W s0 (State.capAtFloor s on mw) := by
  unfold State.capAtFloor
  repeat' first
    | with_reducible assumption | exact sub_trans rfl hw | with_reducible apply keeps_ite
    | with_reducible apply keeps_setPow | with_reducible apply keeps_health

theorem keeps_capStep {W : Nat} {s0 s : State} (mw : Nat)
    (hw : parts [.regs, .shadow, .groups, .mem, .out, .fresh, .hif, .ras, .mm, .hg, .frf, .sd, .img, .cp, .aid, .built, .adm, .pow] ||| W = W)
    (hk : Keeps W s0 s) :
    Keeps W s0 (State.capStep s mw) := by
  unfold State.capStep
  repeat' first
    | (extract_lets +onlyGivenNames sv; refine keeps_cut (t := sv) ?_ ?_; subst sv; rotate_left; clear_value sv; revert sv; intro _ _; rotate_left)
    | (extract_lets +onlyGivenNames dv; clear_value dv; revert dv; intro _) | with_reducible assumption
    | exact sub_trans rfl hw | with_reducible apply keeps_ite | with_reducible apply keeps_powChange
    | with_reducible apply keeps_bump | with_reducible apply keeps_lowerTo | with_reducible apply keeps_capAtFloor
    | with_reducible apply keeps_raiseTo

theorem keeps_capDecision {W : Nat} {s0 s : State} (mw : Nat)
    (hw : parts [.regs, .shadow, .groups, .mem, .out, .fresh, .hif, .ras, .mm, .hg, .frf, .sd, .img, .cp, .aid, .built, .adm, .pow] ||| W = W)
    (hk : Keeps W s0 s) :
    Keeps W s0 (State.capDecision s mw) := by
  unfold State.capDecision
  repeat' first
    | intro _
    | (extract_lets +onlyGivenNames sv; refine keeps_cut (t := sv) ?_ ?_; subst sv; rotate_left; clear_value sv; revert sv; intro _ _; rotate_left)
    | (extract_lets +onlyGivenNames dv; clear_value dv; revert dv; intro _) | with_reducible assumption
    | exact sub_trans rfl hw | with_reducible apply keeps_ite | with_reducible apply keeps_each
    | with_reducible apply keeps_put | with_reducible apply keeps_applyCap | with_reducible apply keeps_setPow
    | with_reducible apply keeps_capStep

theorem keeps_throttle {W : Nat} {s0 s : State} (hw : parts [.regs, .hif, .ras, .adm, .pow] ||| W = W) (hk : Keeps W s0 s) :
    Keeps W s0 (State.throttle s) := by
  unfold State.throttle
  repeat' first
    | with_reducible assumption | exact sub_trans rfl hw | with_reducible apply keeps_ite | with_reducible apply keeps_put
    | with_reducible apply keeps_setPow | with_reducible apply keeps_abandonRaise

theorem keeps_thermalAct {W : Nat} {s0 s : State} (hot : Int)
    (hw : parts [.regs, .shadow, .groups, .mem, .out, .fresh, .hif, .ras, .mm, .hg, .frf, .fw, .sd, .img, .cp, .aid, .built, .net, .sec, .adm, .pow] ||| W = W)
    (hk : Keeps W s0 s) :
    Keeps W s0 (State.thermalAct s hot) := by
  unfold State.thermalAct
  repeat' first
    | (extract_lets +onlyGivenNames sv; refine keeps_cut (t := sv) ?_ ?_; subst sv; rotate_left; clear_value sv; revert sv; intro _ _; rotate_left)
    | (extract_lets +onlyGivenNames dv; clear_value dv; revert dv; intro _) | with_reducible assumption
    | exact sub_trans rfl hw | with_reducible apply keeps_ite | with_reducible apply keeps_setPow
    | with_reducible apply keeps_put | with_reducible apply keeps_fatal | with_reducible apply keeps_bump
    | with_reducible apply keeps_dropTo | with_reducible apply keeps_throttle

theorem keeps_thermalSample {W : Nat} {s0 s : State} (temps : List Int)
    (hw : parts [.regs, .shadow, .groups, .mem, .out, .fresh, .hif, .ras, .mm, .hg, .frf, .fw, .sd, .img, .cp, .aid, .built, .net, .sec, .adm, .pow] ||| W = W)
    (hk : Keeps W s0 s) :
    Keeps W s0 (State.thermalSample s temps) := by
  unfold State.thermalSample
  repeat' first
    | (extract_lets +onlyGivenNames dv; clear_value dv; revert dv; intro _) | with_reducible assumption
    | exact sub_trans rfl hw | with_reducible apply keeps_put | with_reducible apply keeps_thermalAct

theorem keeps_throttleStep {W : Nat} {s0 s : State}
    (hw : parts [.time, .regs, .shadow, .groups, .mem, .out, .fresh, .hif, .ras, .mm, .hg, .frf, .sd, .img, .cp, .aid, .built, .adm, .pow] ||| W = W)
    (hk : Keeps W s0 s) :
    Keeps W s0 (State.throttleStep s) := by
  unfold State.throttleStep
  repeat' first
    | (extract_lets +onlyGivenNames sv; refine keeps_cut (t := sv) ?_ ?_; subst sv; rotate_left; clear_value sv; revert sv; intro _ _; rotate_left)
    | (extract_lets +onlyGivenNames dv; clear_value dv; revert dv; intro _) | with_reducible assumption
    | exact sub_trans rfl hw | with_reducible apply keeps_ite | with_reducible apply keeps_at
    | with_reducible apply keeps_setPow | with_reducible apply keeps_bump | with_reducible apply keeps_dropTo
    | with_reducible apply keeps_raiseTo | with_reducible apply keeps_put | split

theorem keeps_thermalEnd {W : Nat} {s0 s : State} (hw : parts [.regs, .hif, .ras, .adm, .pow] ||| W = W)
    (hk : Keeps W s0 s) :
    Keeps W s0 (State.thermalEnd s) := by
  unfold State.thermalEnd
  repeat' first
    | with_reducible assumption | exact sub_trans rfl hw | with_reducible apply keeps_ite | with_reducible apply keeps_put
    | with_reducible apply keeps_setPow | with_reducible apply keeps_throttle | split

theorem keeps_pllLost {W : Nat} {s0 s : State}
    (hw : parts [.regs, .out, .hif, .ras, .frf, .fw, .aid, .net, .sec, .pow] ||| W = W) (hk : Keeps W s0 s) :
    Keeps W s0 (State.pllLost s) := by
  unfold State.pllLost
  repeat' first
    | (extract_lets +onlyGivenNames sv; refine keeps_cut (t := sv) ?_ ?_; subst sv; rotate_left; clear_value sv; revert sv; intro _ _; rotate_left)
    | (extract_lets +onlyGivenNames dv; clear_value dv; revert dv; intro _) | with_reducible assumption
    | exact sub_trans rfl hw | with_reducible apply keeps_ite | with_reducible apply keeps_put
    | with_reducible apply keeps_setPow | with_reducible apply keeps_fatal

theorem keeps_pgoodLost {W : Nat} {s0 s : State} (rail : Nat)
    (hw : parts [.regs, .out, .hif, .ras, .frf, .fw, .aid, .net, .sec] ||| W = W) (hk : Keeps W s0 s) :
    Keeps W s0 (State.pgoodLost s rail) := by
  unfold State.pgoodLost
  repeat' first
    | (extract_lets +onlyGivenNames sv; refine keeps_cut (t := sv) ?_ ?_; subst sv; rotate_left; clear_value sv; revert sv; intro _ _; rotate_left)
    | (extract_lets +onlyGivenNames dv; clear_value dv; revert dv; intro _) | with_reducible assumption
    | exact sub_trans rfl hw | with_reducible apply keeps_ite | with_reducible apply keeps_put
    | with_reducible apply keeps_fatal

/-! ### Machine/Firmware.lean -/

theorem keeps_logTo {W : Nat} {s0 s : State} (r comp level code seq a0 a1 a2 core : Nat)
    (hw : parts [.hif, .aid] ||| W = W) (hk : Keeps W s0 s) :
    Keeps W s0 (State.logTo s r comp level code seq a0 a1 a2 core) := by
  unfold State.logTo
  repeat' first
    | exact .inr (sub_trans rfl hw) | with_reducible exact .inl rfl
    | (extract_lets +onlyGivenNames sv; refine keeps_cut (t := sv) ?_ ?_; subst sv; rotate_left; clear_value sv; revert sv; intro _ _; rotate_left)
    | (extract_lets +onlyGivenNames dv; clear_value dv; revert dv; intro _) | with_reducible assumption
    | exact sub_trans rfl hw | with_reducible apply keeps_ite | with_reducible apply keeps_pushRun
    | with_reducible apply keeps_mk

theorem keeps_logWork {W : Nat} {s0 s : State} (core comp : Nat) (w : LogWork) (hw : parts [.hif, .aid] ||| W = W)
    (hk : Keeps W s0 s) :
    Keeps W s0 (State.logWork s core comp w) := by
  unfold State.logWork
  repeat' first
    | exact .inr (sub_trans rfl hw) | with_reducible exact .inl rfl | intro _
    | (extract_lets +onlyGivenNames sv; refine keeps_cut (t := sv) ?_ ?_; subst sv; rotate_left; clear_value sv; revert sv; intro _ _; rotate_left)
    | (extract_lets +onlyGivenNames dv; clear_value dv; revert dv; intro _) | with_reducible assumption
    | with_reducible apply keeps_ite | with_reducible apply keeps_each | with_reducible apply keeps_logTo
    | with_reducible apply keeps_mk

theorem keeps_resume {W : Nat} {s0 s : State} (c : Ctx) (hw : parts [.regs, .hif, .aid, .sec] ||| W = W)
    (hk : Keeps W s0 s) :
    Keeps W s0 (State.resume s c) := by
  unfold State.resume
  repeat' first
    | exact .inr (sub_trans rfl hw) | with_reducible exact .inl rfl
    | (extract_lets +onlyGivenNames sv; refine keeps_cut (t := sv) ?_ ?_; subst sv; rotate_left; clear_value sv; revert sv; intro _ _; rotate_left)
    | (extract_lets +onlyGivenNames dv; clear_value dv; revert dv; intro _) | with_reducible assumption
    | exact sub_trans rfl hw | with_reducible apply keeps_ite | with_reducible apply keeps_closeFinish
    | with_reducible apply keeps_ringGone | with_reducible apply keeps_closeDone | with_reducible apply keeps_complete
    | split | with_reducible apply keeps_mk

theorem keeps_commandStep {W : Nat} {s0 s : State} (core comp : Nat) (w : StepWork)
    (hw : parts [.regs, .hif, .aid, .sec] ||| W = W) (hk : Keeps W s0 s) :
    Keeps W s0 (State.commandStep s core comp w) := by
  unfold State.commandStep
  repeat' first
    | intro _
    | (extract_lets +onlyGivenNames sv; refine keeps_cut (t := sv) ?_ ?_; subst sv; rotate_left; clear_value sv; revert sv; intro _ _; rotate_left)
    | (extract_lets +onlyGivenNames dv; clear_value dv; revert dv; intro _) | with_reducible assumption
    | exact sub_trans rfl hw | with_reducible apply keeps_ite | with_reducible apply keeps_each
    | with_reducible apply keeps_gate | with_reducible apply keeps_logWork | with_reducible apply keeps_complete
    | with_reducible apply keeps_setCtx | with_reducible apply keeps_resume | split

theorem keeps_mwTake {W : Nat} {s0 s : State} (hw : parts [.regs, .hif, .aid, .mbx] ||| W = W) (hk : Keeps W s0 s) :
    Keeps W s0 (State.mwTake s) := by
  unfold State.mwTake
  repeat' first | with_reducible assumption | with_reducible apply keeps_ite | with_reducible apply keeps_takeDescriptor

theorem keeps_moveRings {W : Nat} {s0 s : State} (c : Nat) (hw : parts [.regs, .hif] ||| W = W) (hk : Keeps W s0 s) :
    Keeps W s0 (State.moveRings s c) := by
  unfold State.moveRings
  repeat' first
    | intro _ | with_reducible assumption | exact sub_trans rfl hw | with_reducible apply keeps_each
    | with_reducible apply keeps_setRing | with_reducible apply keeps_showHosted

theorem keeps_moveSingletons {W : Nat} {s0 s : State} (c : Nat) (hw : parts [.aid] ||| W = W) (hk : Keeps W s0 s) :
    Keeps W s0 (State.moveSingletons s c) := by
  unfold State.moveSingletons
  repeat' first
    | exact .inr (sub_trans rfl hw) | with_reducible exact .inl rfl
    | (extract_lets +onlyGivenNames dv; clear_value dv; revert dv; intro _) | with_reducible assumption
    | with_reducible apply keeps_mk

theorem keeps_rebind {W : Nat} {s0 s : State} (c d : Nat) (hw : parts [.regs, .mbx] ||| W = W) (hk : Keeps W s0 s) :
    Keeps W s0 (State.rebind s c d) := by
  unfold State.rebind
  repeat' first
    | intro _
    | (extract_lets +onlyGivenNames sv; refine keeps_cut (t := sv) ?_ ?_; subst sv; rotate_left; clear_value sv; revert sv; intro _ _; rotate_left)
    | with_reducible assumption | exact sub_trans rfl hw | with_reducible apply keeps_ite
    | with_reducible apply keeps_each | with_reducible apply keeps_put | with_reducible apply keeps_readyEnds

theorem keeps_resendNote {W : Nat} {s0 s : State} (n : Note) (hw : parts [.regs, .aid, .mbx] ||| W = W)
    (hk : Keeps W s0 s) :
    Keeps W s0 (State.resendNote s n) := by
  unfold State.resendNote
  repeat' first
    | with_reducible assumption | exact sub_trans rfl hw | with_reducible apply keeps_ite
    | with_reducible apply keeps_takeNote | with_reducible apply keeps_pass | split

theorem keeps_resendNotes {W : Nat} {s0 s : State} (hw : parts [.regs, .aid, .mbx] ||| W = W) (hk : Keeps W s0 s) :
    Keeps W s0 (State.resendNotes s) := by
  unfold State.resendNotes
  repeat' first
    | intro _ | with_reducible assumption | with_reducible apply keeps_each | with_reducible apply keeps_resendNote

theorem keeps_setCore {W : Nat} {s0 s : State} (c : Nat) (x : CoreSt) (hw : parts [.aid] ||| W = W) (hk : Keeps W s0 s) :
    Keeps W s0 (State.setCore s c x) := by
  unfold State.setCore
  repeat' first
    | exact .inr (sub_trans rfl hw) | with_reducible exact .inl rfl | with_reducible assumption
    | with_reducible apply keeps_mk

theorem keeps_coreOut {W : Nat} {s0 s : State} (c cond flags : Nat)
    (hw : parts [.regs, .out, .hif, .ras, .frf, .fw, .aid, .net, .sec] ||| W = W) (hk : Keeps W s0 s) :
    Keeps W s0 (State.coreOut s c cond flags) := by
  unfold State.coreOut
  repeat' first
    | (extract_lets +onlyGivenNames sv; refine keeps_cut (t := sv) ?_ ?_; subst sv; rotate_left; clear_value sv; revert sv; intro _ _; rotate_left)
    | (extract_lets +onlyGivenNames dv; clear_value dv; revert dv; intro _) | with_reducible assumption
    | exact sub_trans rfl hw | with_reducible apply keeps_setCore | with_reducible apply keeps_degraded

theorem keeps_ctlFail {W : Nat} {s0 s : State} (c cond flags : Nat)
    (hw : parts [.regs, .shadow, .groups, .out, .hif, .ras, .frf, .fw, .aid, .mbx, .net, .sec] ||| W = W)
    (hk : Keeps W s0 s) :
    Keeps W s0 (State.ctlFail s c cond flags) := by
  unfold State.ctlFail
  repeat' first
    | exact .inr (sub_trans rfl hw) | with_reducible exact .inl rfl
    | (extract_lets +onlyGivenNames sv; refine keeps_cut (t := sv) ?_ ?_; subst sv; rotate_left; clear_value sv; revert sv; intro _ _; rotate_left)
    | (extract_lets +onlyGivenNames dv; clear_value dv; revert dv; intro _) | with_reducible assumption
    | exact sub_trans rfl hw | with_reducible apply keeps_ite | with_reducible apply keeps_put
    | with_reducible apply keeps_endReset | with_reducible apply keeps_fatal | with_reducible apply keeps_singlePartFault
    | with_reducible apply keeps_moveSingletons | with_reducible apply keeps_moveRings | with_reducible apply keeps_rebind
    | with_reducible apply keeps_resendNotes | with_reducible apply keeps_coreOut | with_reducible apply keeps_mk

theorem keeps_rejoin {W : Nat} {s0 s : State} (c : Nat) (hw : parts [.regs, .aid] ||| W = W) (hk : Keeps W s0 s) :
    Keeps W s0 (State.rejoin s c) := by
  unfold State.rejoin
  repeat' first
    | (extract_lets +onlyGivenNames sv; refine keeps_cut (t := sv) ?_ ?_; subst sv; rotate_left; clear_value sv; revert sv; intro _ _; rotate_left)
    | with_reducible assumption | exact sub_trans rfl hw | with_reducible apply keeps_put
    | with_reducible apply keeps_setCore | with_reducible apply keeps_gate

theorem keeps_coreReload {W : Nat} {s0 s : State} (c : Nat) (ok : Bool)
    (hw : parts [.regs, .out, .hif, .ras, .frf, .fw, .aid, .net, .sec] ||| W = W) (hk : Keeps W s0 s) :
    Keeps W s0 (State.coreReload s c ok) := by
  unfold State.coreReload
  repeat' first
    | with_reducible assumption | exact sub_trans rfl hw | with_reducible apply keeps_ite
    | with_reducible apply keeps_rejoin | with_reducible apply keeps_coreOut

theorem keeps_violation {W : Nat} {s0 s : State} (core comp : Nat)
    (hw : parts [.regs, .shadow, .groups, .out, .hif, .ras, .frf, .fw, .aid, .mbx, .net, .sec] ||| W = W)
    (hk : Keeps W s0 s) :
    Keeps W s0 (State.violation s core comp) := by
  unfold State.violation
  repeat' first
    | exact .inr (sub_trans rfl hw) | with_reducible exact .inl rfl | intro _
    | (extract_lets +onlyGivenNames sv; refine keeps_cut (t := sv) ?_ ?_; subst sv; rotate_left; clear_value sv; revert sv; intro _ _; rotate_left)
    | (extract_lets +onlyGivenNames dv; clear_value dv; revert dv; intro _) | with_reducible assumption
    | exact sub_trans rfl hw | with_reducible apply keeps_ite | with_reducible apply keeps_each
    | with_reducible apply keeps_ctlFail | with_reducible apply keeps_errRecord | with_reducible apply keeps_degraded
    | with_reducible apply keeps_complete | with_reducible apply keeps_mk

theorem keeps_checkAccess {W : Nat} {s0 s : State} (core addr len : Nat) (kind : AccessKind)
    (hw : parts [.regs, .shadow, .groups, .out, .hif, .ras, .frf, .fw, .aid, .mbx, .net, .sec] ||| W = W)
    (hk : Keeps W s0 s) :
    Keeps W s0 (State.checkAccess s core addr len kind) := by
  unfold State.checkAccess
  repeat' first
    | exact .inr (sub_trans rfl hw) | with_reducible exact .inl rfl
    | (extract_lets +onlyGivenNames sv; refine keeps_cut (t := sv) ?_ ?_; subst sv; rotate_left; clear_value sv; revert sv; intro _ _; rotate_left)
    | (extract_lets +onlyGivenNames dv; clear_value dv; revert dv; intro _) | with_reducible assumption
    | exact sub_trans rfl hw | with_reducible apply keeps_ite | with_reducible apply keeps_violation
    | with_reducible apply keeps_resendNotes | with_reducible apply keeps_mk

theorem keeps_mwGo {W : Nat} {s0 s : State} (hw : parts [.regs, .hif, .aid, .mbx] ||| W = W) (hk : Keeps W s0 s) :
    Keeps W s0 (State.mwGo s) := by
  unfold State.mwGo
  repeat' first
    | exact .inr (sub_trans rfl hw) | with_reducible exact .inl rfl | with_reducible assumption
    | with_reducible apply keeps_ite | with_reducible apply keeps_mwTake | with_reducible apply keeps_mk

theorem keeps_mwWrite {W : Nat} {s0 s : State} (off size val : Nat) (hw : parts [.regs, .hif, .aid, .mbx] ||| W = W)
    (hk : Keeps W s0 s) :
    Keeps W s0 (State.mwWrite s off size val) := by
  unfold State.mwWrite
  repeat' first
    | exact .inr (sub_trans rfl hw) | with_reducible exact .inl rfl | with_reducible assumption
    | with_reducible apply keeps_ite | with_reducible apply keeps_mwGo | with_reducible apply keeps_mk

theorem keeps_mwDrain {W : Nat} {s0 s : State} (hw : parts [.regs, .hif, .aid, .mbx] ||| W = W) (hk : Keeps W s0 s) :
    Keeps W s0 (State.mwDrain s) := by
  unfold State.mwDrain
  repeat' first
    | exact .inr (sub_trans rfl hw) | with_reducible exact .inl rfl | intro _
    | (extract_lets +onlyGivenNames dv; clear_value dv; revert dv; intro _) | with_reducible assumption
    | with_reducible apply keeps_ite | with_reducible apply keeps_each | with_reducible apply keeps_mwWrite
    | with_reducible apply keeps_mk

theorem keeps_mwArrive {W : Nat} {s0 s : State} (off size val : Nat) (hw : parts [.regs, .hif, .aid, .mbx] ||| W = W)
    (hk : Keeps W s0 s) :
    Keeps W s0 (State.mwArrive s off size val) := by
  unfold State.mwArrive
  repeat' first
    | exact .inr (sub_trans rfl hw) | with_reducible exact .inl rfl | with_reducible assumption
    | with_reducible apply keeps_mwDrain | with_reducible apply keeps_mk

theorem keeps_setUpd {W : Nat} {s0 s : State} (u : Upd) (hw : parts [.aid] ||| W = W) (hk : Keeps W s0 s) :
    Keeps W s0 (State.setUpd s u) := by
  unfold State.setUpd
  repeat' first
    | exact .inr (sub_trans rfl hw) | with_reducible exact .inl rfl | with_reducible assumption
    | with_reducible apply keeps_mk

theorem keeps_fwVersion {W : Nat} {s0 s : State} (c : Ctx) (hw : parts [.out, .fresh, .hif, .aid] ||| W = W)
    (hk : Keeps W s0 s) :
    Keeps W s0 (State.fwVersion s c) := by
  unfold State.fwVersion
  repeat' first
    | (extract_lets +onlyGivenNames dv; clear_value dv; revert dv; intro _) | with_reducible assumption
    | exact sub_trans rfl hw | with_reducible apply keeps_tickFree | with_reducible apply keeps_completeOut

theorem keeps_loadSlot {W : Nat} {s0 s : State} (n : Nat) (d : List Byte) (hw : parts [.mem] ||| W = W)
    (hk : Keeps W s0 s) :
    Keeps W s0 (State.loadSlot s n d) := by
  unfold State.loadSlot
  repeat' first
    | with_reducible exact .inl rfl | with_reducible assumption
    | with_reducible refine keeps_memOf ?_ (sub_trans rfl hw) (fun h => Memory.wf_putAll h _ _) ?_ ?_ ?_ ?_ ?_ ?_ ?_ ?_ ?_ ?_ ?_ ?_ ?_ ?_ ?_ ?_ ?_ ?_ ?_ ?_ ?_ ?_

theorem keeps_fwStage {W : Nat} {s0 s : State} (c : Ctx) (hw : parts [.regs, .mem, .hif, .aid] ||| W = W)
    (hk : Keeps W s0 s) :
    Keeps W s0 (State.fwStage s c) := by
  unfold State.fwStage
  repeat' first
    | (extract_lets +onlyGivenNames dv; clear_value dv; revert dv; intro _) | with_reducible assumption
    | exact sub_trans rfl hw | with_reducible apply keeps_ite | with_reducible apply keeps_complete
    | with_reducible apply keeps_bump | with_reducible apply keeps_put | with_reducible apply keeps_setUpd
    | with_reducible apply keeps_loadSlot

theorem keeps_activationRecord {W : Nat} {s0 s : State} (what version : Nat) (hw : parts [.regs, .hif, .ras] ||| W = W)
    (hk : Keeps W s0 s) :
    Keeps W s0 (State.activationRecord s what version) := by
  unfold State.activationRecord
  repeat' first | with_reducible assumption | with_reducible apply keeps_health

theorem keeps_activationBegin {W : Nat} {s0 s : State} (c : Ctx) (hw : parts [.regs, .hif, .ras, .aid] ||| W = W)
    (hk : Keeps W s0 s) :
    Keeps W s0 (State.activationBegin s c) := by
  unfold State.activationBegin
  repeat' first
    | with_reducible assumption | exact sub_trans rfl hw | with_reducible apply keeps_ite
    | with_reducible apply keeps_complete | with_reducible apply keeps_setUpd
    | with_reducible apply keeps_activationRecord | with_reducible apply keeps_await | split

theorem keeps_fwActivate {W : Nat} {s0 s : State} (c : Ctx) (hw : parts [.regs, .hif, .ras, .aid] ||| W = W)
    (hk : Keeps W s0 s) :
    Keeps W s0 (State.fwActivate s c) := by
  unfold State.fwActivate
  repeat' first
    | with_reducible assumption | exact sub_trans rfl hw | with_reducible apply keeps_ite
    | with_reducible apply keeps_complete | with_reducible apply keeps_await | with_reducible apply keeps_activationBegin

theorem keeps_fwCancel {W : Nat} {s0 s : State} (c : Ctx) (hw : parts [.regs, .hif, .ras, .aid] ||| W = W)
    (hk : Keeps W s0 s) :
    Keeps W s0 (State.fwCancel s c) := by
  unfold State.fwCancel
  repeat' first
    | with_reducible assumption | exact sub_trans rfl hw | with_reducible apply keeps_complete
    | with_reducible apply keeps_setUpd | with_reducible apply keeps_activationRecord | split

theorem keeps_fwTimed {W : Nat} {s0 s : State} (hw : parts [.time, .regs, .hif, .ras, .aid] ||| W = W) (hk : Keeps W s0 s) :
    Keeps W s0 (State.fwTimed s) := by
  unfold State.fwTimed
  repeat' first
    | with_reducible assumption | exact sub_trans rfl hw | with_reducible apply keeps_at
    | with_reducible apply keeps_activationBegin | split

theorem keeps_deferredBegin {W : Nat} {s0 s : State} (hw : parts [.regs, .hif, .ras, .aid] ||| W = W) (hk : Keeps W s0 s) :
    Keeps W s0 (State.deferredBegin s) := by
  unfold State.deferredBegin
  repeat' first
    | with_reducible assumption | exact sub_trans rfl hw | with_reducible apply keeps_ite
    | with_reducible apply keeps_setUpd | with_reducible apply keeps_activationRecord | split

theorem keeps_handoverDone {W : Nat} {s0 s : State} (h : Handover) (hw : parts [.hif, .aid, .aon] ||| W = W)
    (hk : Keeps W s0 s) :
    Keeps W s0 (State.handoverDone s h) := by
  unfold State.handoverDone
  repeat' first
    | exact .inr (sub_trans rfl hw) | with_reducible exact .inl rfl
    | (extract_lets +onlyGivenNames sv; refine keeps_cut (t := sv) ?_ ?_; subst sv; rotate_left; clear_value sv; revert sv; intro _ _; rotate_left)
    | (extract_lets +onlyGivenNames dv; clear_value dv; revert dv; intro _) | with_reducible assumption
    | exact sub_trans rfl hw | with_reducible apply keeps_setUpd | with_reducible apply keeps_complete | split
    | with_reducible apply keeps_mk

theorem keeps_handoverStep {W : Nat} {s0 s : State} (comp : Nat) (ok : Bool)
    (hw : parts [.regs, .hif, .ras, .aid, .aon] ||| W = W) (hk : Keeps W s0 s) :
    Keeps W s0 (State.handoverStep s comp ok) := by
  unfold State.handoverStep
  repeat' first
    | (extract_lets +onlyGivenNames sv; refine keeps_cut (t := sv) ?_ ?_; subst sv; rotate_left; clear_value sv; revert sv; intro _ _; rotate_left)
    | (extract_lets +onlyGivenNames dv; clear_value dv; revert dv; intro _) | with_reducible assumption
    | exact sub_trans rfl hw | with_reducible apply keeps_ite | with_reducible apply keeps_setUpd
    | with_reducible apply keeps_handoverDone | with_reducible apply keeps_complete
    | with_reducible apply keeps_activationRecord | split

/-! ### Machine/Services.lean -/

theorem keeps_calRead {W : Nat} {s0 s : State} (c : Ctx) (hw : parts [.out, .hif, .aid] ||| W = W) (hk : Keeps W s0 s) :
    Keeps W s0 (State.calRead s c) := by
  unfold State.calRead
  repeat' first
    | (extract_lets +onlyGivenNames dv; clear_value dv; revert dv; intro _) | with_reducible assumption
    | exact sub_trans rfl hw | with_reducible apply keeps_complete | with_reducible apply keeps_completeVar | split

theorem keeps_setCal {W : Nat} {s0 s : State} (items : Tab CalItem) (hw : parts [.cal] ||| W = W) (hk : Keeps W s0 s) :
    Keeps W s0 (State.setCal s items) := by
  unfold State.setCal
  repeat' first
    | exact .inr (sub_trans rfl hw) | with_reducible exact .inl rfl | with_reducible assumption
    | with_reducible apply keeps_mk

theorem keeps_calDone {W : Nat} {s0 s : State} (c : Ctx) (items : Tab CalItem) (flashOk : Bool)
    (hw : parts [.hif, .aid, .cal] ||| W = W) (hk : Keeps W s0 s) :
    Keeps W s0 (State.calDone s c items flashOk) := by
  unfold State.calDone
  repeat' first
    | (extract_lets +onlyGivenNames sv; refine keeps_cut (t := sv) ?_ ?_; subst sv; rotate_left; clear_value sv; revert sv; intro _ _; rotate_left)
    | with_reducible assumption | exact sub_trans rfl hw | with_reducible apply keeps_ite
    | with_reducible apply keeps_complete | with_reducible apply keeps_setCal

theorem keeps_calWrite {W : Nat} {s0 s : State} (flashOk : Bool) (c : Ctx)
    (hw : parts [.fresh, .hif, .aid, .cal] ||| W = W) (hk : Keeps W s0 s) :
    Keeps W s0 (State.calWrite s flashOk c) := by
  unfold State.calWrite
  repeat' first
    | (extract_lets +onlyGivenNames dv; clear_value dv; revert dv; intro _) | with_reducible assumption
    | exact sub_trans rfl hw | with_reducible apply keeps_ite | with_reducible apply keeps_calDone
    | with_reducible apply keeps_complete | with_reducible apply keeps_tickFree

theorem keeps_timeGet {W : Nat} {s0 s : State} (c : Ctx) (hw : parts [.hif, .aid] ||| W = W) (hk : Keeps W s0 s) :
    Keeps W s0 (State.timeGet s c) := by
  unfold State.timeGet
  repeat' first | with_reducible assumption | with_reducible apply keeps_complete

theorem keeps_timeSet {W : Nat} {s0 s : State} (c : Ctx) (hw : parts [.time, .frac, .hif, .aid] ||| W = W)
    (hk : Keeps W s0 s) :
    Keeps W s0 (State.timeSet s c) := by
  unfold State.timeSet
  repeat' first
    | exact .inr (sub_trans rfl hw) | with_reducible exact .inl rfl
    | (extract_lets +onlyGivenNames dv; clear_value dv; revert dv; intro _) | with_reducible assumption
    | exact sub_trans rfl hw | with_reducible apply keeps_ite | with_reducible apply keeps_complete
    | with_reducible apply keeps_mk

theorem keeps_statsRead {W : Nat} {s0 s : State} (c : Ctx) (hw : parts [.out, .hif, .aid] ||| W = W) (hk : Keeps W s0 s) :
    Keeps W s0 (State.statsRead s c) := by
  unfold State.statsRead
  repeat' first
    | (extract_lets +onlyGivenNames dv; clear_value dv; revert dv; intro _) | with_reducible assumption
    | exact sub_trans rfl hw | with_reducible apply keeps_ite | with_reducible apply keeps_completeVar
    | with_reducible apply keeps_complete

theorem keeps_logConfig {W : Nat} {s0 s : State} (c : Ctx) (hw : parts [.hif, .aid] ||| W = W) (hk : Keeps W s0 s) :
    Keeps W s0 (State.logConfig s c) := by
  unfold State.logConfig
  repeat' first
    | exact .inr (sub_trans rfl hw) | with_reducible exact .inl rfl
    | (extract_lets +onlyGivenNames sv; refine keeps_cut (t := sv) ?_ ?_; subst sv; rotate_left; clear_value sv; revert sv; intro _ _; rotate_left)
    | (extract_lets +onlyGivenNames dv; clear_value dv; revert dv; intro _) | with_reducible assumption
    | with_reducible apply keeps_complete | with_reducible apply keeps_mk

theorem keeps_attest {W : Nat} {s0 s : State} (c : Ctx) (hw : parts [.out, .fresh, .hif, .aid] ||| W = W)
    (hk : Keeps W s0 s) :
    Keeps W s0 (State.attest s c) := by
  unfold State.attest
  repeat' first
    | (extract_lets +onlyGivenNames dv; clear_value dv; revert dv; intro _) | with_reducible assumption
    | exact sub_trans rfl hw | with_reducible apply keeps_tickBy | with_reducible apply keeps_completeVar

theorem keeps_cfgApply {W : Nat} {s0 s : State} (c : Ctx) (q0 : Nat) (q1 : List CfgEntry)
    (hw : parts [.regs, .shadow, .groups, .mem, .out, .hif, .ras, .mm, .hg, .frf, .fw, .sd, .cp, .aid, .mbx, .net, .sec] ||| W = W)
    (hk : Keeps W s0 s) :
    Keeps W s0 (State.cfgApply s c q0 q1) := by
  induction q1 generalizing s q0 with
  | nil =>
    unfold State.cfgApply
    repeat' first | with_reducible assumption | exact sub_trans rfl hw | with_reducible apply keeps_complete
  | cons _ _ ih =>
    unfold State.cfgApply
    repeat' first
      | intro _
      | (extract_lets +onlyGivenNames sv; refine keeps_cut (t := sv.1) ?_ ?_; subst sv; rotate_left; clear_value sv; revert sv; intro _ _; rotate_left)
      | (extract_lets +onlyGivenNames dv; clear_value dv; revert dv; intro _) | with_reducible assumption
      | with_reducible apply ih | exact sub_trans rfl hw | with_reducible apply keeps_ite
      | with_reducible apply keeps_each | with_reducible apply keeps_complete | with_reducible apply keeps_writeReg
      | with_reducible apply keeps_tryCommit | with_reducible apply keeps_commitWrite | split

theorem keeps_configCommit {W : Nat} {s0 s : State} (c : Ctx)
    (hw : parts [.regs, .shadow, .groups, .mem, .out, .hif, .ras, .mm, .hg, .frf, .fw, .sd, .cp, .aid, .mbx, .net, .sec] ||| W = W)
    (hk : Keeps W s0 s) :
    Keeps W s0 (State.configCommit s c) := by
  unfold State.configCommit
  repeat' first
    | (extract_lets +onlyGivenNames dv; clear_value dv; revert dv; intro _) | with_reducible assumption
    | exact sub_trans rfl hw | with_reducible apply keeps_ite | with_reducible apply keeps_complete
    | with_reducible apply keeps_await | with_reducible apply keeps_cfgApply | split

theorem keeps_timedConfig {W : Nat} {s0 s : State}
    (hw : parts [.time, .regs, .shadow, .groups, .mem, .out, .hif, .ras, .mm, .hg, .frf, .fw, .sd, .cp, .aid, .mbx, .net, .sec] ||| W = W)
    (hk : Keeps W s0 s) :
    Keeps W s0 (State.timedConfig s) := by
  unfold State.timedConfig
  repeat' first
    | with_reducible assumption | exact sub_trans rfl hw | with_reducible apply keeps_at
    | with_reducible apply keeps_cfgApply | split

theorem keeps_inject' {W : Nat} {s0 s : State} (c : Ctx) (hw : parts [.hif, .aid, .net] ||| W = W) (hk : Keeps W s0 s) :
    Keeps W s0 (State.inject' s c) := by
  unfold State.inject'
  repeat' first
    | exact .inr (sub_trans rfl hw) | with_reducible exact .inl rfl
    | (extract_lets +onlyGivenNames sv; refine keeps_cut (t := sv) ?_ ?_; subst sv; rotate_left; clear_value sv; revert sv; intro _ _; rotate_left)
    | (extract_lets +onlyGivenNames dv; clear_value dv; revert dv; intro _) | with_reducible assumption
    | exact sub_trans rfl hw | with_reducible apply keeps_ite | with_reducible apply keeps_complete
    | with_reducible apply keeps_await | with_reducible apply keeps_mk

theorem keeps_coreAgain {W : Nat} {s0 s : State} (c : Nat) (hw : parts [.regs, .mem, .fresh, .mm, .fw] ||| W = W)
    (hk : Keeps W s0 s) :
    Keeps W s0 (State.coreAgain s c) := by
  unfold State.coreAgain
  repeat' first
    | with_reducible assumption | exact sub_trans rfl hw | with_reducible apply keeps_put
    | with_reducible apply keeps_coreBack

theorem keeps_restorePart {W : Nat} {s0 s : State} (part i : Nat)
    (hw : parts [.regs, .mem, .fresh, .mm, .fw, .aid, .net] ||| W = W) (hk : Keeps W s0 s) :
    Keeps W s0 (State.restorePart s part i) := by
  unfold State.restorePart
  repeat' first
    | exact .inr (sub_trans rfl hw) | with_reducible exact .inl rfl
    | (extract_lets +onlyGivenNames fv; have _ : State → State := fv; subst fv)
    | (extract_lets +onlyGivenNames dv; clear_value dv; revert dv; intro _) | with_reducible assumption
    | exact sub_trans rfl hw | with_reducible apply keeps_ite | with_reducible apply keeps_put
    | with_reducible apply keeps_coreAgain | with_reducible apply keeps_coreMove | with_reducible apply keeps_rejoin
    | split | with_reducible apply keeps_mk

theorem keeps_restoreTest {W : Nat} {s0 s : State} (c : Ctx)
    (hw : parts [.regs, .mem, .fresh, .hif, .ras, .mm, .fw, .aid, .net] ||| W = W) (hk : Keeps W s0 s) :
    Keeps W s0 (State.restoreTest s c) := by
  unfold State.restoreTest
  repeat' first
    | exact .inr (sub_trans rfl hw) | with_reducible exact .inl rfl
    | (extract_lets +onlyGivenNames sv; refine keeps_cut (t := sv) ?_ ?_; subst sv; rotate_left; clear_value sv; revert sv; intro _ _; rotate_left)
    | (extract_lets +onlyGivenNames dv; clear_value dv; revert dv; intro _) | with_reducible assumption
    | exact sub_trans rfl hw | with_reducible apply keeps_ite | with_reducible apply keeps_complete
    | with_reducible apply keeps_restorePart | with_reducible apply keeps_health | with_reducible apply keeps_askCapacity
    | with_reducible apply keeps_mk

theorem keeps_testFault {W : Nat} {s0 s : State} (c : Ctx) (hw : parts [.hif, .aid, .net] ||| W = W) (hk : Keeps W s0 s) :
    Keeps W s0 (State.testFault s c) := by
  unfold State.testFault
  repeat' first
    | (extract_lets +onlyGivenNames dv; clear_value dv; revert dv; intro _) | with_reducible assumption
    | exact sub_trans rfl hw | with_reducible apply keeps_ite | with_reducible apply keeps_await
    | with_reducible apply keeps_inject'

theorem keeps_testInjection {W : Nat} {s0 s : State} (hw : parts [.hif, .aid, .net] ||| W = W) (hk : Keeps W s0 s) :
    Keeps W s0 (State.testInjection s) := by
  unfold State.testInjection
  repeat' first | with_reducible assumption | with_reducible apply keeps_inject' | split

theorem keeps_testRestore {W : Nat} {s0 s : State}
    (hw : parts [.regs, .mem, .fresh, .hif, .ras, .mm, .fw, .aid, .net] ||| W = W) (hk : Keeps W s0 s) :
    Keeps W s0 (State.testRestore s) := by
  unfold State.testRestore
  repeat' first | with_reducible assumption | with_reducible apply keeps_restoreTest | split

theorem keeps_mirrorRead {W : Nat} {s0 s : State} (req off n : Nat) (hw : parts [.regs, .out, .aid, .mbx, .net] ||| W = W)
    (hk : Keeps W s0 s) :
    Keeps W s0 (State.mirrorRead s req off n) := by
  unfold State.mirrorRead
  repeat' first
    | (extract_lets +onlyGivenNames sv; refine keeps_cut (t := sv) ?_ ?_; subst sv; rotate_left; clear_value sv; revert sv; intro _ _; rotate_left)
    | (extract_lets +onlyGivenNames dv; clear_value dv; revert dv; intro _) | with_reducible assumption
    | exact sub_trans rfl hw | with_reducible apply keeps_ite | with_reducible apply keeps_sysErr
    | with_reducible apply keeps_emit | with_reducible apply keeps_lockRead | with_reducible apply keeps_foreign
    | with_reducible apply keeps_mbxRecv | with_reducible apply keeps_latchTime | with_reducible apply keeps_popEntry
    | with_reducible apply keeps_tblNext

theorem keeps_regAccess {W : Nat} {s0 s : State} (agent off : Nat) (write : Bool) (data : List Byte) (n : Nat)
    (hw : parts [.regs, .shadow, .groups, .mem, .out, .hif, .ras, .mm, .hg, .frf, .fw, .sd, .cp, .aid, .mbx, .net, .sec] ||| W = W)
    (hk : Keeps W s0 s) :
    Keeps W s0 (State.regAccess s agent off write data n) := by
  unfold State.regAccess
  repeat' first
    | intro _ | (extract_lets +onlyGivenNames dv; clear_value dv; revert dv; intro _) | with_reducible assumption
    | exact sub_trans rfl hw | with_reducible apply keeps_ite | with_reducible apply keeps_asReq
    | with_reducible apply keeps_writeReg | with_reducible apply keeps_asReader | with_reducible apply keeps_mirrorRead

theorem keeps_sramFault {W : Nat} {s0 s : State} (a : Nat)
    (hw : parts [.regs, .shadow, .groups, .mem, .out, .fresh, .hif, .ras, .mm, .frf, .fw, .sd, .cp, .aid, .mbx, .net, .sec, .adm] ||| W = W)
    (hk : Keeps W s0 s) :
    Keeps W s0 (State.sramFault s a) := by
  unfold State.sramFault
  repeat' first
    | (extract_lets +onlyGivenNames dv; clear_value dv; revert dv; intro _) | with_reducible assumption
    | exact sub_trans rfl hw | with_reducible apply keeps_tileFail | with_reducible apply keeps_coreFail
    | with_reducible apply keeps_unitFail | split

theorem keeps_memServe {W : Nat} {s0 s : State} (agent a : Nat) (write : Bool) (data : List Byte) (n : Nat) (ecc : Ecc)
    (hw : parts [.regs, .shadow, .groups, .mem, .out, .fresh, .hif, .ras, .mm, .hg, .frf, .fw, .sd, .cp, .aid, .mbx, .net, .sec, .adm] ||| W = W)
    (hk : Keeps W s0 s) :
    Keeps W s0 (State.memServe s agent a write data n ecc) := by
  unfold State.memServe
  repeat' first
    | (extract_lets +onlyGivenNames sv; refine keeps_cut (t := sv) ?_ ?_; subst sv; rotate_left; clear_value sv; revert sv; intro _ _; rotate_left)
    | with_reducible assumption | exact sub_trans rfl hw | with_reducible apply keeps_ite
    | with_reducible apply keeps_regAccess | with_reducible apply keeps_access | with_reducible apply keeps_sramFault
    | split

theorem keeps_memAccess {W : Nat} {s0 s : State} (agent a : Nat) (write : Bool) (data : List Byte) (n : Nat) (ecc : Ecc)
    (hw : parts [.regs, .shadow, .groups, .mem, .out, .fresh, .hif, .ras, .mm, .hg, .frf, .fw, .sd, .cp, .aid, .mbx, .net, .sec, .adm] ||| W = W)
    (hk : Keeps W s0 s) :
    Keeps W s0 (State.memAccess s agent a write data n ecc) := by
  unfold State.memAccess
  repeat' first
    | exact .inr (sub_trans rfl hw) | with_reducible exact .inl rfl
    | (extract_lets +onlyGivenNames dv; clear_value dv; revert dv; intro _) | with_reducible assumption
    | exact sub_trans rfl hw | with_reducible apply keeps_ite | with_reducible apply keeps_stall
    | with_reducible apply keeps_memServe | with_reducible apply keeps_mk

end Sys2Proof.Machine
end

