-- ==== Sys2Proof/Laws/KeepsLife.lean ====
section
/-!
SUPPORT. Every operation of the starts, the stop mode, the warm reset, buddies, peers, the bridge and the fault unit keeps what no command changes
and changes the named parts alone (`Keeps`, Safety): one lemma per operation, proved through those of the operations it calls.
-/

namespace Sys2Proof.Machine

/-! ### Machine/Start.lean -/

theorem keeps_coldBase {W : Nat} {s0 s : State}
    (hw : parts [.time, .frac, .regs, .shadow, .groups, .mem, .hif, .ras, .mm, .hg, .frf, .fw, .sd, .img, .cp, .aid, .built, .mbx, .net, .bud, .sec, .adm, .pow, .aon] ||| W = W)
    (hk : Keeps W s0 s) :
    Keeps W s0 s.coldBase :=
  keeps_update hk (.inr (sub_trans rfl hw)) (.inr (sub_trans rfl hw)) (.inr (sub_trans rfl hw)) (.inr (sub_trans rfl hw))
    (.inr (sub_trans rfl hw)) (.inr (sub_trans rfl hw)) (.inl rfl) (.inl rfl) (.inr (sub_trans rfl hw))
    (.inr (sub_trans rfl hw)) (.inr (sub_trans rfl hw)) (.inr (sub_trans rfl hw)) (.inr (sub_trans rfl hw))
    (.inr (sub_trans rfl hw)) (.inr (sub_trans rfl hw)) (.inr (sub_trans rfl hw)) (.inr (sub_trans rfl hw))
    (.inr (sub_trans rfl hw)) (.inl rfl) (.inr (sub_trans rfl hw)) (.inr (sub_trans rfl hw)) (.inr (sub_trans rfl hw))
    (.inr (sub_trans rfl hw)) (.inr (sub_trans rfl hw)) (.inr (sub_trans rfl hw)) (.inr (sub_trans rfl hw))
    (.inr (sub_trans rfl hw))
    (List.prefix_refl _) (Nat.le_refl _) fun _ => ⟨rfl, rfl, rfl⟩

theorem keeps_senseFuses {W : Nat} {s0 s : State} (f : FuseImage) (hw : parts [.regs, .sec] ||| W = W) (hk : Keeps W s0 s) :
    Keeps W s0 (State.senseFuses s f) := by
  unfold State.senseFuses
  repeat' first
    | exact .inr (sub_trans rfl hw) | with_reducible exact .inl rfl
    | (extract_lets +onlyGivenNames sv; refine keeps_cut (t := sv) ?_ ?_; subst sv; rotate_left; clear_value sv; revert sv; intro _ _; rotate_left)
    | (extract_lets +onlyGivenNames dv; clear_value dv; revert dv; intro _) | with_reducible assumption
    | exact sub_trans rfl hw | with_reducible apply keeps_put | with_reducible apply keeps_mk

theorem keeps_readFlash {W : Nat} {s0 s : State} (f : FlashImage) (hw : parts [.aid, .cal, .sec] ||| W = W)
    (hk : Keeps W s0 s) :
    Keeps W s0 (State.readFlash s f) := by
  unfold State.readFlash
  repeat' first
    | exact .inr (sub_trans rfl hw) | with_reducible exact .inl rfl
    | (extract_lets +onlyGivenNames sv; refine keeps_cut (t := sv) ?_ ?_; subst sv; rotate_left; clear_value sv; revert sv; intro _ _; rotate_left)
    | (extract_lets +onlyGivenNames dv; clear_value dv; revert dv; intro _) | with_reducible assumption
    | exact sub_trans rfl hw | with_reducible apply keeps_setUpd | with_reducible apply keeps_twoCopies
    | with_reducible apply keeps_mk

theorem keeps_sampleStraps {W : Nat} {s0 s : State} (b : Boot) (hw : parts [.regs] ||| W = W) (hk : Keeps W s0 s) :
    Keeps W s0 (State.sampleStraps s b) := by
  unfold State.sampleStraps
  repeat' first | with_reducible assumption | with_reducible apply keeps_put

theorem keeps_keepStraps {W : Nat} {s0 s : State} (before : State) (hw : parts [.regs] ||| W = W) (hk : Keeps W s0 s) :
    Keeps W s0 (s.keepStraps before) :=
  keeps_put _ _ hw (keeps_put _ _ hw (keeps_put _ _ hw hk))

theorem keeps_powerUp {W : Nat} {s0 s : State} (hw : parts [.regs, .pow] ||| W = W) (hk : Keeps W s0 s) :
    Keeps W s0 (State.powerUp s) := by
  unfold State.powerUp
  repeat' first
    | (extract_lets +onlyGivenNames sv; refine keeps_cut (t := sv) ?_ ?_; subst sv; rotate_left; clear_value sv; revert sv; intro _ _; rotate_left)
    | (extract_lets +onlyGivenNames dv; clear_value dv; revert dv; intro _) | with_reducible assumption
    | exact sub_trans rfl hw | with_reducible apply keeps_put | with_reducible apply keeps_setPow

theorem keeps_linkStart {W : Nat} {s0 s : State} (b : Boot) (hw : parts [.regs, .hif] ||| W = W) (hk : Keeps W s0 s) :
    Keeps W s0 (State.linkStart s b) := by
  unfold State.linkStart
  repeat' first
    | exact .inr (sub_trans rfl hw) | with_reducible exact .inl rfl
    | (extract_lets +onlyGivenNames sv; refine keeps_cut (t := sv) ?_ ?_; subst sv; rotate_left; clear_value sv; revert sv; intro _ _; rotate_left)
    | (extract_lets +onlyGivenNames dv; clear_value dv; revert dv; intro _) | with_reducible assumption
    | exact sub_trans rfl hw | with_reducible apply keeps_ite | with_reducible apply keeps_put
    | with_reducible apply keeps_showWatch | with_reducible apply keeps_mk

theorem keeps_linkLost {W : Nat} {s0 s : State} (hw : parts [.regs, .hif] ||| W = W) (hk : Keeps W s0 s) :
    Keeps W s0 (State.linkLost s) := by
  unfold State.linkLost
  repeat' first
    | exact .inr (sub_trans rfl hw) | with_reducible exact .inl rfl
    | (extract_lets +onlyGivenNames sv; refine keeps_cut (t := sv) ?_ ?_; subst sv; rotate_left; clear_value sv; revert sv; intro _ _; rotate_left)
    | (extract_lets +onlyGivenNames dv; clear_value dv; revert dv; intro _) | with_reducible assumption
    | exact sub_trans rfl hw | with_reducible apply keeps_put | with_reducible apply keeps_mk

theorem keeps_startCores {W : Nat} {s0 s : State} (hw : parts [.regs, .aid, .mbx] ||| W = W) (hk : Keeps W s0 s) :
    Keeps W s0 (State.startCores s) := by
  unfold State.startCores
  repeat' first
    | exact .inr (sub_trans rfl hw) | with_reducible exact .inl rfl | intro _
    | (extract_lets +onlyGivenNames sv; refine keeps_cut (t := sv) ?_ ?_; subst sv; rotate_left; clear_value sv; revert sv; intro _ _; rotate_left)
    | (extract_lets +onlyGivenNames dv; clear_value dv; revert dv; intro _) | with_reducible assumption
    | exact sub_trans rfl hw | with_reducible apply keeps_each | with_reducible apply keeps_put
    | with_reducible apply keeps_bindBoxes | with_reducible apply keeps_readyEnds | with_reducible apply keeps_gate
    | with_reducible apply keeps_mk

theorem keeps_otherRecord {W : Nat} {s0 s : State} (addr at' : Nat)
    (hw : parts [.regs, .out, .hif, .ras, .frf, .fw, .aid, .net, .sec] ||| W = W) (hk : Keeps W s0 s) :
    Keeps W s0 (State.otherRecord s addr at') := by
  unfold State.otherRecord
  repeat' first | with_reducible assumption | with_reducible apply keeps_errRecordAt

theorem keeps_loadCal {W : Nat} {s0 s : State} (b : Boot)
    (hw : parts [.regs, .out, .hif, .ras, .frf, .fw, .aid, .cal, .net, .sec] ||| W = W) (hk : Keeps W s0 s) :
    Keeps W s0 (State.loadCal s b) := by
  unfold State.loadCal
  repeat' first
    | exact .inr (sub_trans rfl hw) | with_reducible exact .inl rfl
    | (extract_lets +onlyGivenNames sv; refine keeps_cut (t := sv) ?_ ?_; subst sv; rotate_left; clear_value sv; revert sv; intro _ _; rotate_left)
    | (extract_lets +onlyGivenNames dv; clear_value dv; revert dv; intro _) | with_reducible assumption
    | exact sub_trans rfl hw | with_reducible apply keeps_ite | with_reducible apply keeps_otherRecord
    | with_reducible apply keeps_mk

theorem keeps_applyCal {W : Nat} {s0 s : State} (hw : parts [.regs, .fresh] ||| W = W) (hk : Keeps W s0 s) :
    Keeps W s0 (State.applyCal s) := by
  unfold State.applyCal
  repeat' first
    | intro _
    | (extract_lets +onlyGivenNames sv; refine keeps_cut (t := sv) ?_ ?_; subst sv; rotate_left; clear_value sv; revert sv; intro _ _; rotate_left)
    | (extract_lets +onlyGivenNames dv; clear_value dv; revert dv; intro _) | with_reducible assumption
    | exact sub_trans rfl hw | with_reducible apply keeps_ite | with_reducible apply keeps_each
    | with_reducible apply keeps_put | with_reducible apply keeps_setReg | with_reducible apply keeps_tickFree

theorem keeps_loadKeys {W : Nat} {s0 s : State} (b : Boot)
    (hw : parts [.regs, .out, .hif, .ras, .frf, .fw, .aid, .net, .sec] ||| W = W) (hk : Keeps W s0 s) :
    Keeps W s0 (State.loadKeys s b) := by
  unfold State.loadKeys
  repeat' first
    | exact .inr (sub_trans rfl hw) | with_reducible exact .inl rfl
    | (extract_lets +onlyGivenNames sv; refine keeps_cut (t := sv) ?_ ?_; subst sv; rotate_left; clear_value sv; revert sv; intro _ _; rotate_left)
    | (extract_lets +onlyGivenNames dv; clear_value dv; revert dv; intro _) | with_reducible assumption
    | exact sub_trans rfl hw | with_reducible apply keeps_ite | with_reducible apply keeps_put
    | with_reducible apply keeps_errRecord | with_reducible apply keeps_showKeys | with_reducible apply keeps_mk

theorem keeps_countRefused {W : Nat} {s0 s : State} (x : PatchSlot) (hw : parts [.regs] ||| W = W) (hk : Keeps W s0 s) :
    Keeps W s0 (State.countRefused s x) := by
  unfold State.countRefused
  repeat' first
    | with_reducible assumption | with_reducible apply keeps_ite | with_reducible apply keeps_bump
    | with_reducible apply keeps_put

theorem keeps_loadPatches {W : Nat} {s0 s : State} (hw : parts [.regs, .mem, .img, .aid, .aon] ||| W = W)
    (hk : Keeps W s0 s) :
    Keeps W s0 (State.loadPatches s) := by
  unfold State.loadPatches
  repeat' first
    | exact .inr (sub_trans rfl hw) | with_reducible exact .inl rfl
    | (extract_lets +onlyGivenNames sv; refine keeps_cut (t := sv) ?_ ?_; subst sv; rotate_left; clear_value sv; revert sv; intro _ _; rotate_left)
    | (extract_lets +onlyGivenNames dv; clear_value dv; revert dv; intro _) | with_reducible assumption
    | exact sub_trans rfl hw | with_reducible apply keeps_ite | with_reducible apply keeps_countRefused
    | with_reducible apply keeps_put | with_reducible apply keeps_setUpd | with_reducible apply keeps_loadSlot
    | with_reducible apply keeps_mk

theorem keeps_drawNonce {W : Nat} {s0 s : State} (hw : parts [.fresh, .sec] ||| W = W) (hk : Keeps W s0 s) :
    Keeps W s0 (State.drawNonce s) := by
  unfold State.drawNonce
  repeat' first
    | exact .inr (sub_trans rfl hw) | with_reducible exact .inl rfl | with_reducible assumption | exact sub_trans rfl hw
    | with_reducible apply keeps_tickBy | with_reducible apply keeps_mk

theorem keeps_coldFail {W : Nat} {s0 s : State} (f : StartFail)
    (hw : parts [.time, .frac, .regs, .shadow, .groups, .mem, .hif, .ras, .mm, .hg, .frf, .fw, .sd, .img, .cp, .aid, .built, .mbx, .net, .bud, .sec, .adm, .pow, .aon] ||| W = W)
    (hk : Keeps W s0 s) :
    Keeps W s0 (State.coldFail s f) := by
  unfold State.coldFail
  repeat' first
    | exact .inr (sub_trans rfl hw) | with_reducible exact .inl rfl
    | (extract_lets +onlyGivenNames sv; refine keeps_cut (t := sv) ?_ ?_; subst sv; rotate_left; clear_value sv; revert sv; intro _ _; rotate_left)
    | (extract_lets +onlyGivenNames dv; clear_value dv; revert dv; intro _) | with_reducible assumption
    | exact sub_trans rfl hw | with_reducible apply keeps_coldBase | with_reducible apply keeps_keepStraps
    | with_reducible apply keeps_put | with_reducible apply keeps_at | with_reducible apply keeps_mk

theorem keeps_coldSteps {W : Nat} {s0 s : State} (b : Boot)
    (hw : parts [.time, .frac, .regs, .shadow, .groups, .mem, .out, .fresh, .hif, .ras, .mm, .hg, .frf, .fw, .sd, .img, .cp, .aid, .cal, .built, .mbx, .net, .bud, .sec, .adm, .pow, .aon] ||| W = W)
    (hk : Keeps W s0 s) :
    Keeps W s0 (State.coldSteps s b) := by
  unfold State.coldSteps
  repeat' first
    | intro _
    | (extract_lets +onlyGivenNames sv; refine keeps_cut (t := sv) ?_ ?_; subst sv; rotate_left; clear_value sv; revert sv; intro _ _; rotate_left)
    | with_reducible assumption | exact sub_trans rfl hw | with_reducible apply keeps_ite
    | with_reducible apply keeps_each | with_reducible apply keeps_coldFail | with_reducible apply keeps_powerUp
    | with_reducible apply keeps_loadKeys | with_reducible apply keeps_linkStart | with_reducible apply keeps_startCores
    | with_reducible apply keeps_pcFail | with_reducible apply keeps_loadCal | with_reducible apply keeps_applyCal
    | with_reducible apply keeps_loadPatches | with_reducible apply keeps_drawNonce | split

theorem keeps_coldStart {W : Nat} {s0 s : State} (src : Nat) (sample : Bool) (lost : Option Nat) (b : Boot)
    (hw : parts [.time, .frac, .regs, .shadow, .groups, .mem, .out, .fresh, .hif, .ras, .mm, .hg, .frf, .fw, .sd, .img, .cp, .aid, .cal, .built, .mbx, .net, .bud, .sec, .adm, .pow, .aon] ||| W = W)
    (hk : Keeps W s0 s) :
    Keeps W s0 (State.coldStart s src sample lost b) := by
  unfold State.coldStart
  repeat' first
    | exact .inr (sub_trans rfl hw)
    | (extract_lets +onlyGivenNames sv; refine keeps_cut (t := sv) ?_ ?_; subst sv; rotate_left; clear_value sv; revert sv; intro _ _; rotate_left)
    | (extract_lets +onlyGivenNames dv; clear_value dv; revert dv; intro _) | with_reducible assumption
    | exact sub_trans rfl hw | with_reducible apply keeps_ite | with_reducible apply keeps_coldBase
    | with_reducible apply keeps_sampleStraps | with_reducible apply keeps_keepStraps
    | with_reducible apply keeps_senseFuses | with_reducible apply keeps_readFlash | with_reducible apply keeps_put
    | with_reducible apply keeps_health | with_reducible apply keeps_coldSteps | split | with_reducible apply keeps_mk

theorem keeps_rstRelease {W : Nat} {s0 s : State} (b : Boot)
    (hw : parts [.time, .frac, .regs, .shadow, .groups, .mem, .out, .fresh, .hif, .ras, .mm, .hg, .frf, .fw, .sd, .img, .cp, .aid, .cal, .built, .mbx, .net, .bud, .sec, .adm, .pow, .aon] ||| W = W)
    (hk : Keeps W s0 s) :
    Keeps W s0 (State.rstRelease s b) := by
  unfold State.rstRelease
  repeat' first
    | exact .inr (sub_trans rfl hw) | with_reducible assumption | with_reducible apply keeps_ite
    | with_reducible apply keeps_coldStart | with_reducible apply keeps_mk

theorem keeps_coldRetry {W : Nat} {s0 s : State} (b : Boot)
    (hw : parts [.time, .frac, .regs, .shadow, .groups, .mem, .out, .fresh, .hif, .ras, .mm, .hg, .frf, .fw, .sd, .img, .cp, .aid, .cal, .built, .mbx, .net, .bud, .sec, .adm, .pow, .aon] ||| W = W)
    (hk : Keeps W s0 s) :
    Keeps W s0 (State.coldRetry s b) := by
  unfold State.coldRetry
  repeat' first | with_reducible assumption | with_reducible apply keeps_ite | with_reducible apply keeps_coldStart

theorem keeps_readyLate {W : Nat} {s0 s : State}
    (hw : parts [.time, .frac, .regs, .shadow, .groups, .mem, .hif, .ras, .mm, .hg, .frf, .fw, .sd, .img, .cp, .aid, .built, .mbx, .net, .bud, .sec, .adm, .pow, .aon] ||| W = W)
    (hk : Keeps W s0 s) :
    Keeps W s0 (State.readyLate s) := by
  unfold State.readyLate
  repeat' first | with_reducible assumption | with_reducible apply keeps_ite | with_reducible apply keeps_coldFail

theorem keeps_aonLost {W : Nat} {s0 s : State}
    (hw : parts [.time, .frac, .regs, .shadow, .groups, .mem, .hif, .ras, .mm, .hg, .frf, .fw, .sd, .img, .cp, .aid, .built, .mbx, .net, .bud, .sec, .adm, .pow, .aon] ||| W = W)
    (hk : Keeps W s0 s) :
    Keeps W s0 (State.aonLost s) := by
  unfold State.aonLost
  repeat' first
    | exact .inr (sub_trans rfl hw) | with_reducible exact .inl rfl
    | (extract_lets +onlyGivenNames sv; refine keeps_cut (t := sv) ?_ ?_; subst sv; rotate_left; clear_value sv; revert sv; intro _ _; rotate_left)
    | with_reducible assumption | with_reducible apply keeps_coldBase | with_reducible apply keeps_mk

theorem keeps_setReady {W : Nat} {s0 s : State} (hw : parts [.regs, .aon] ||| W = W) (hk : Keeps W s0 s) :
    Keeps W s0 (State.setReady s) := by
  unfold State.setReady
  repeat' first
    | exact .inr (sub_trans rfl hw) | with_reducible exact .inl rfl
    | (extract_lets +onlyGivenNames sv; refine keeps_cut (t := sv) ?_ ?_; subst sv; rotate_left; clear_value sv; revert sv; intro _ _; rotate_left)
    | (extract_lets +onlyGivenNames dv; clear_value dv; revert dv; intro _) | with_reducible assumption
    | exact sub_trans rfl hw | with_reducible apply keeps_put | with_reducible apply keeps_mk

theorem keeps_arbitrate {W : Nat} {s0 s : State} (addr : Nat) (others : List Nat) (hw : parts [.out, .aon] ||| W = W)
    (hk : Keeps W s0 s) :
    Keeps W s0 (State.arbitrate s addr others) := by
  unfold State.arbitrate
  repeat' first
    | exact .inr (sub_trans rfl hw) | with_reducible exact .inl rfl
    | (extract_lets +onlyGivenNames dv; clear_value dv; revert dv; intro _) | with_reducible assumption
    | exact sub_trans rfl hw | with_reducible apply keeps_ite | with_reducible apply keeps_emit
    | with_reducible apply keeps_mk

theorem keeps_setPosition {W : Nat} {s0 s : State} (bs : List Byte) (hw : parts [.regs, .aon] ||| W = W)
    (hk : Keeps W s0 s) :
    Keeps W s0 (s.setPosition bs) := by
  unfold State.setPosition
  have hr := sub_trans (a := parts [.regs]) rfl hw
  split
  · exact hk
  · extract_lets p lost src s1 s2 s3 src2 s4
    have h1 : Keeps W s0 s1 := keeps_mk hk 
      (.inl rfl) (.inl rfl) (.inl rfl) (.inl rfl) (.inl rfl) (.inl rfl) (.inl rfl) (.inl rfl) (.inl rfl) (.inl rfl)
      (.inl rfl) (.inl rfl) (.inl rfl) (.inl rfl) (.inl rfl) (.inl rfl) (.inl rfl) (.inl rfl) (.inl rfl) (.inl rfl)
      (.inl rfl) (.inr (sub_trans rfl hw))
    have h3 : Keeps W s0 s3 := keeps_put _ _ hr (keeps_put _ _ hr (keeps_put _ _ hr h1))
    have h4 : Keeps W s0 s4 := keeps_mk h3 
      (.inl rfl) (.inl rfl) (.inl rfl) (.inl rfl) (.inl rfl) (.inl rfl) (.inl rfl) (.inl rfl) (.inl rfl) (.inl rfl)
      (.inl rfl) (.inl rfl) (.inl rfl) (.inl rfl) (.inl rfl) (.inl rfl) (.inl rfl) (.inl rfl) (.inl rfl) (.inl rfl)
      (.inl rfl) (.inr (sub_trans rfl hw))
    exact keeps_ite h1 (keeps_ite (keeps_setReady (sub_trans rfl hw) h4) h4)

theorem keeps_closePeers {W : Nat} {s0 s : State} (hw : parts [.regs] ||| W = W) (hk : Keeps W s0 s) :
    Keeps W s0 (State.closePeers s) := by
  unfold State.closePeers
  repeat' first
    | intro _
    | (extract_lets +onlyGivenNames sv; refine keeps_cut (t := sv) ?_ ?_; subst sv; rotate_left; clear_value sv; revert sv; intro _ _; rotate_left)
    | with_reducible assumption | with_reducible apply keeps_ite | with_reducible apply keeps_each
    | with_reducible apply keeps_put

theorem keeps_token {W : Nat} {s0 s : State} (d : List Byte) (hw : parts [.regs, .fresh, .sec] ||| W = W)
    (hk : Keeps W s0 s) :
    Keeps W s0 (State.token s d) := by
  unfold State.token
  repeat' first
    | exact .inr (sub_trans rfl hw) | with_reducible exact .inl rfl
    | (extract_lets +onlyGivenNames sv; refine keeps_cut (t := sv) ?_ ?_; subst sv; rotate_left; clear_value sv; revert sv; intro _ _; rotate_left)
    | (extract_lets +onlyGivenNames dv; clear_value dv; revert dv; intro _) | with_reducible assumption
    | exact sub_trans rfl hw | with_reducible apply keeps_ite | with_reducible apply keeps_drawNonce
    | with_reducible apply keeps_put | with_reducible apply keeps_bump | with_reducible apply keeps_closeSessions
    | with_reducible apply keeps_closePeers | with_reducible apply keeps_mk

/-! ### Machine/Stop.lean -/

theorem keeps_disableBlocks {W : Nat} {s0 s : State} (hw : parts [.regs, .aon] ||| W = W) (hk : Keeps W s0 s) :
    Keeps W s0 (State.disableBlocks s) := by
  unfold State.disableBlocks
  repeat' first
    | exact .inr (sub_trans rfl hw) | with_reducible exact .inl rfl | intro _
    | (extract_lets +onlyGivenNames sv; refine keeps_cut (t := sv) ?_ ?_; subst sv; rotate_left; clear_value sv; revert sv; intro _ _; rotate_left)
    | (extract_lets +onlyGivenNames dv; clear_value dv; revert dv; intro _) | with_reducible assumption
    | exact sub_trans rfl hw | with_reducible apply keeps_ite | with_reducible apply keeps_each
    | with_reducible apply keeps_put | with_reducible apply keeps_mk

theorem keeps_enableBlocks {W : Nat} {s0 s : State} (hw : parts [.regs, .aon] ||| W = W) (hk : Keeps W s0 s) :
    Keeps W s0 (State.enableBlocks s) := by
  unfold State.enableBlocks
  repeat' first
    | exact .inr (sub_trans rfl hw) | with_reducible exact .inl rfl | intro _
    | (extract_lets +onlyGivenNames sv; refine keeps_cut (t := sv) ?_ ?_; subst sv; rotate_left; clear_value sv; revert sv; intro _ _; rotate_left)
    | (extract_lets +onlyGivenNames dv; clear_value dv; revert dv; intro _) | with_reducible assumption
    | exact sub_trans rfl hw | with_reducible apply keeps_each | with_reducible apply keeps_setReg
    | with_reducible apply keeps_mk

theorem keeps_stopEnter {W : Nat} {s0 s : State} (c : Ctx) (hw : parts [.regs, .hif, .aid, .aon] ||| W = W)
    (hk : Keeps W s0 s) :
    Keeps W s0 (State.stopEnter s c) := by
  unfold State.stopEnter
  repeat' first
    | exact .inr (sub_trans rfl hw) | with_reducible exact .inl rfl
    | (extract_lets +onlyGivenNames sv; refine keeps_cut (t := sv) ?_ ?_; subst sv; rotate_left; clear_value sv; revert sv; intro _ _; rotate_left)
    | (extract_lets +onlyGivenNames dv; clear_value dv; revert dv; intro _) | with_reducible assumption
    | exact sub_trans rfl hw | with_reducible apply keeps_ite | with_reducible apply keeps_complete
    | with_reducible apply keeps_closePeers | with_reducible apply keeps_disableBlocks | with_reducible apply keeps_put
    | with_reducible apply keeps_mk

theorem keeps_writeRetention {W : Nat} {s0 s : State} (hw : parts [.regs, .aon] ||| W = W) (hk : Keeps W s0 s) :
    Keeps W s0 (State.writeRetention s) := by
  unfold State.writeRetention
  repeat' first
    | exact .inr (sub_trans rfl hw) | with_reducible exact .inl rfl
    | (extract_lets +onlyGivenNames sv; refine keeps_cut (t := sv) ?_ ?_; subst sv; rotate_left; clear_value sv; revert sv; intro _ _; rotate_left)
    | with_reducible assumption | exact sub_trans rfl hw | with_reducible apply keeps_put | with_reducible apply keeps_mk

theorem keeps_restoreBanks {W : Nat} {s0 s : State} (bad : Nat) (hw : parts [.regs] ||| W = W) (hk : Keeps W s0 s) :
    Keeps W s0 (State.restoreBanks s bad) := by
  unfold State.restoreBanks
  repeat' first
    | intro _ | with_reducible assumption | with_reducible apply keeps_ite | with_reducible apply keeps_each
    | with_reducible apply keeps_setReg

theorem keeps_portsDown {W : Nat} {s0 s : State} (hw : parts [.regs] ||| W = W) (hk : Keeps W s0 s) :
    Keeps W s0 (State.portsDown s) := by
  unfold State.portsDown
  repeat' first
    | intro _ | with_reducible assumption | with_reducible apply keeps_ite | with_reducible apply keeps_each
    | with_reducible apply keeps_put

theorem keeps_isolate {W : Nat} {s0 s : State} (hw : parts [.regs, .hif] ||| W = W) (hk : Keeps W s0 s) :
    Keeps W s0 (State.isolate s) := by
  unfold State.isolate
  repeat' first
    | (extract_lets +onlyGivenNames sv; refine keeps_cut (t := sv) ?_ ?_; subst sv; rotate_left; clear_value sv; revert sv; intro _ _; rotate_left)
    | with_reducible assumption | exact sub_trans rfl hw | with_reducible apply keeps_put
    | with_reducible apply keeps_linkLost | with_reducible apply keeps_portsDown

theorem keeps_railsDown {W : Nat} {s0 s : State} (hw : parts [.regs] ||| W = W) (hk : Keeps W s0 s) :
    Keeps W s0 (State.railsDown s) := by
  unfold State.railsDown
  repeat' first | with_reducible assumption | with_reducible apply keeps_put

theorem keeps_stopReached {W : Nat} {s0 s : State} (hw : parts [.regs] ||| W = W) (hk : Keeps W s0 s) :
    Keeps W s0 (State.stopReached s) := by
  unfold State.stopReached
  repeat' first | with_reducible assumption | with_reducible apply keeps_bump | with_reducible apply keeps_put

theorem keeps_entryStep {W : Nat} {s0 s : State} (n : Nat) (hw : parts [.regs, .hif, .aon] ||| W = W) (hk : Keeps W s0 s) :
    Keeps W s0 (State.entryStep s n) := by
  unfold State.entryStep
  repeat' first
    | (extract_lets +onlyGivenNames sv; refine keeps_cut (t := sv) ?_ ?_; subst sv; rotate_left; clear_value sv; revert sv; intro _ _; rotate_left)
    | with_reducible assumption | exact sub_trans rfl hw | with_reducible apply keeps_ite | with_reducible apply keeps_put
    | with_reducible apply keeps_writeRetention | with_reducible apply keeps_isolate
    | with_reducible apply keeps_railsDown | with_reducible apply keeps_stopReached

theorem keeps_entryNext {W : Nat} {s0 s : State} (hw : parts [.regs, .hif, .aon] ||| W = W) (hk : Keeps W s0 s) :
    Keeps W s0 (State.entryNext s) := by
  unfold State.entryNext
  repeat' first | with_reducible assumption | with_reducible apply keeps_ite | with_reducible apply keeps_entryStep

theorem keeps_entryTo {W : Nat} {s0 s : State} (n : Nat) (hw : parts [.regs, .hif, .aon] ||| W = W) (hk : Keeps W s0 s) :
    Keeps W s0 (State.entryTo s n) := by
  unfold State.entryTo
  repeat' first
    | intro _ | with_reducible assumption | with_reducible apply keeps_ite | with_reducible apply keeps_foldl
    | with_reducible apply keeps_entryStep

theorem keeps_unwind1 {W : Nat} {s0 s : State} (hw : parts [.regs, .aon] ||| W = W) (hk : Keeps W s0 s) :
    Keeps W s0 (State.unwind1 s) := by
  unfold State.unwind1
  repeat' first | with_reducible assumption | with_reducible apply keeps_enableBlocks

theorem keeps_unwind2 {W : Nat} {s0 s : State} (hw : parts [.regs, .aon] ||| W = W) (hk : Keeps W s0 s) :
    Keeps W s0 (State.unwind2 s) := by
  unfold State.unwind2
  repeat' first
    | with_reducible assumption | exact sub_trans rfl hw | with_reducible apply keeps_put
    | with_reducible apply keeps_unwind1

theorem keeps_unwind3 {W : Nat} {s0 s : State} (hw : parts [.regs, .aon] ||| W = W) (hk : Keeps W s0 s) :
    Keeps W s0 (State.unwind3 s) := by
  unfold State.unwind3
  repeat' first
    | (extract_lets +onlyGivenNames sv; refine keeps_cut (t := sv) ?_ ?_; subst sv; rotate_left; clear_value sv; revert sv; intro _ _; rotate_left)
    | with_reducible assumption | exact sub_trans rfl hw | with_reducible apply keeps_put
    | with_reducible apply keeps_unwind2

theorem keeps_setAttempts {W : Nat} {s0 s : State} (n : Nat) (hw : parts [.regs, .aon] ||| W = W) (hk : Keeps W s0 s) :
    Keeps W s0 (State.setAttempts s n) := by
  unfold State.setAttempts
  repeat' first
    | exact .inr (sub_trans rfl hw) | with_reducible exact .inl rfl
    | (extract_lets +onlyGivenNames sv; refine keeps_cut (t := sv) ?_ ?_; subst sv; rotate_left; clear_value sv; revert sv; intro _ _; rotate_left)
    | with_reducible assumption | exact sub_trans rfl hw | with_reducible apply keeps_put | with_reducible apply keeps_mk

theorem keeps_wakeFails {W : Nat} {s0 s : State} (cause index : Nat) (hw : parts [.regs, .hif, .aon] ||| W = W)
    (hk : Keeps W s0 s) :
    Keeps W s0 (State.wakeFails s cause index) := by
  unfold State.wakeFails
  repeat' first
    | exact .inr (sub_trans rfl hw) | with_reducible exact .inl rfl
    | (extract_lets +onlyGivenNames sv; refine keeps_cut (t := sv) ?_ ?_; subst sv; rotate_left; clear_value sv; revert sv; intro _ _; rotate_left)
    | (extract_lets +onlyGivenNames dv; clear_value dv; revert dv; intro _) | with_reducible assumption
    | exact sub_trans rfl hw | with_reducible apply keeps_ite | with_reducible apply keeps_isolate
    | with_reducible apply keeps_put | with_reducible apply keeps_railsDown | with_reducible apply keeps_bump
    | with_reducible apply keeps_mk

theorem keeps_abandon {W : Nat} {s0 s : State} (a : Nat) (b : Boot) (hw : parts [.regs, .hif, .ras, .aon] ||| W = W)
    (hk : Keeps W s0 s) :
    Keeps W s0 (State.abandon s a b) := by
  unfold State.abandon
  repeat' first
    | (extract_lets +onlyGivenNames sv; refine keeps_cut (t := sv) ?_ ?_; subst sv; rotate_left; clear_value sv; revert sv; intro _ _; rotate_left)
    | with_reducible assumption | exact sub_trans rfl hw | with_reducible apply keeps_ite
    | with_reducible apply keeps_entryTo | with_reducible apply keeps_setAttempts | with_reducible apply keeps_wakeFails
    | with_reducible apply keeps_unwind1 | with_reducible apply keeps_unwind2 | with_reducible apply keeps_unwind3
    | with_reducible apply keeps_put | with_reducible apply keeps_bump | with_reducible apply keeps_health | split

theorem keeps_coldRange {W : Nat} {s0 s : State} (lo hi : Nat) (hw : parts [.regs] ||| W = W) (hk : Keeps W s0 s) :
    Keeps W s0 (s.coldRange lo hi) :=
  keeps_regs hk (sub_trans rfl hw) fun c => tabSorted_filter c _

theorem keeps_wakeTime {W : Nat} {s0 s : State} (t : Nat) (ok : Bool) (hw : parts [.time, .frac, .regs] ||| W = W)
    (hk : Keeps W s0 s) :
    Keeps W s0 (State.wakeTime s t ok) := by
  unfold State.wakeTime
  repeat' first
    | exact .inr (sub_trans rfl hw) | with_reducible exact .inl rfl
    | (extract_lets +onlyGivenNames sv; refine keeps_cut (t := sv) ?_ ?_; subst sv; rotate_left; clear_value sv; revert sv; intro _ _; rotate_left)
    | (extract_lets +onlyGivenNames dv; clear_value dv; revert dv; intro _) | with_reducible assumption
    | exact sub_trans rfl hw | with_reducible apply keeps_put | with_reducible apply keeps_mk

theorem keeps_ringsDetached {W : Nat} {s0 s : State} (hw : parts [.hif] ||| W = W) (hk : Keeps W s0 s) :
    Keeps W s0 (State.ringsDetached s) := by
  unfold State.ringsDetached
  repeat' first
    | intro _ | with_reducible assumption | with_reducible apply keeps_each | with_reducible apply keeps_setRing

theorem keeps_loseBanks {W : Nat} {s0 s : State} (bad : Nat) (dead : List Nat)
    (hw : parts [.time, .frac, .regs, .out, .hif, .ras, .mm, .frf, .fw, .aid, .net, .sec, .adm] ||| W = W)
    (hk : Keeps W s0 s) :
    Keeps W s0 (State.loseBanks s bad dead) := by
  unfold State.loseBanks
  repeat' first
    | exact .inr (sub_trans rfl hw) | with_reducible exact .inl rfl | intro _
    | (extract_lets +onlyGivenNames sv; refine keeps_cut (t := sv) ?_ ?_; subst sv; rotate_left; clear_value sv; revert sv; intro _ _; rotate_left)
    | (extract_lets +onlyGivenNames dv; clear_value dv; revert dv; intro _) | with_reducible assumption
    | exact sub_trans rfl hw | with_reducible apply keeps_ite | with_reducible apply keeps_each
    | with_reducible apply keeps_put | with_reducible apply keeps_corrected | with_reducible apply keeps_coldRange
    | with_reducible apply keeps_linkDown | with_reducible apply keeps_ringsDetached
    | with_reducible apply keeps_askCapacity | with_reducible apply keeps_errRecord | with_reducible apply keeps_mk

theorem keeps_wake {W : Nat} {s0 s : State} (t : Nat) (b : Boot) (aclkOk : Bool)
    (hw : parts [.time, .frac, .regs, .shadow, .groups, .mem, .out, .fresh, .hif, .ras, .mm, .hg, .frf, .fw, .sd, .img, .cp, .aid, .cal, .built, .mbx, .net, .bud, .sec, .adm, .pow, .aon] ||| W = W)
    (hk : Keeps W s0 s) :
    Keeps W s0 (State.wake s t b aclkOk) := by
  unfold State.wake
  repeat' first
    | exact .inr (sub_trans rfl hw) | intro _
    | (extract_lets +onlyGivenNames sv; refine keeps_cut (t := sv) ?_ ?_; subst sv; rotate_left; clear_value sv; revert sv; intro _ _; rotate_left)
    | (extract_lets +onlyGivenNames dv; clear_value dv; revert dv; intro _) | with_reducible assumption
    | exact sub_trans rfl hw | with_reducible apply keeps_ite | with_reducible apply keeps_each
    | with_reducible apply keeps_at | with_reducible apply keeps_setAttempts | with_reducible apply keeps_coldStart
    | with_reducible apply keeps_put | with_reducible apply keeps_restoreBanks | with_reducible apply keeps_wakeTime
    | with_reducible apply keeps_loseBanks | with_reducible apply keeps_readyEnds | with_reducible apply keeps_gate
    | with_reducible apply keeps_setPow | with_reducible apply keeps_mk

theorem keeps_takeBuffered {W : Nat} {s0 s : State} (pointer : Nat) (hw : parts [.aid, .aon] ||| W = W)
    (hk : Keeps W s0 s) :
    Keeps W s0 (State.takeBuffered s pointer) := by
  unfold State.takeBuffered
  repeat' first
    | exact .inr (sub_trans rfl hw) | with_reducible exact .inl rfl
    | (extract_lets +onlyGivenNames sv; refine keeps_cut (t := sv) ?_ ?_; subst sv; rotate_left; clear_value sv; revert sv; intro _ _; rotate_left)
    | (extract_lets +onlyGivenNames dv; clear_value dv; revert dv; intro _) | with_reducible assumption
    | with_reducible apply keeps_ite | with_reducible apply keeps_mk

theorem keeps_addressMatch {W : Nat} {s0 s : State} (t addr : Nat) (x : BusXfer) (b : Boot) (aclkOk : Bool)
    (hw : parts [.time, .frac, .regs, .shadow, .groups, .mem, .out, .fresh, .hif, .ras, .mm, .hg, .frf, .fw, .sd, .img, .cp, .aid, .cal, .built, .mbx, .net, .bud, .sec, .adm, .pow, .aon] ||| W = W)
    (hk : Keeps W s0 s) :
    Keeps W s0 (State.addressMatch s t addr x b aclkOk) := by
  unfold State.addressMatch
  repeat' first
    | exact .inr (sub_trans rfl hw)
    | (extract_lets +onlyGivenNames sv; refine keeps_cut (t := sv) ?_ ?_; subst sv; rotate_left; clear_value sv; revert sv; intro _ _; rotate_left)
    | (extract_lets +onlyGivenNames dv; clear_value dv; revert dv; intro _) | with_reducible assumption
    | exact sub_trans rfl hw | with_reducible apply keeps_ite | with_reducible apply keeps_emit
    | with_reducible apply keeps_at | with_reducible apply keeps_abandon | with_reducible apply keeps_entryTo
    | with_reducible apply keeps_setAttempts | with_reducible apply keeps_wake | with_reducible apply keeps_takeBuffered
    | with_reducible apply keeps_mk

theorem keeps_wakeAbort {W : Nat} {s0 s : State} (cause index : Nat) (hw : parts [.regs, .hif, .aon] ||| W = W)
    (hk : Keeps W s0 s) :
    Keeps W s0 (State.wakeAbort s cause index) := by
  unfold State.wakeAbort
  repeat' first | with_reducible assumption | with_reducible apply keeps_ite | with_reducible apply keeps_wakeFails

theorem keeps_wakeRetry {W : Nat} {s0 s : State} (t : Nat) (b : Boot) (aclkOk : Bool)
    (hw : parts [.time, .frac, .regs, .shadow, .groups, .mem, .out, .fresh, .hif, .ras, .mm, .hg, .frf, .fw, .sd, .img, .cp, .aid, .cal, .built, .mbx, .net, .bud, .sec, .adm, .pow, .aon] ||| W = W)
    (hk : Keeps W s0 s) :
    Keeps W s0 (State.wakeRetry s t b aclkOk) := by
  unfold State.wakeRetry
  repeat' first | with_reducible assumption | with_reducible apply keeps_ite | with_reducible apply keeps_wake | split

theorem keeps_awake {W : Nat} {s0 s : State} (hw : parts [.regs, .mm, .aon] ||| W = W) (hk : Keeps W s0 s) :
    Keeps W s0 (State.awake s) := by
  unfold State.awake
  repeat' first
    | exact .inr (sub_trans rfl hw) | with_reducible exact .inl rfl
    | (extract_lets +onlyGivenNames sv; refine keeps_cut (t := sv) ?_ ?_; subst sv; rotate_left; clear_value sv; revert sv; intro _ _; rotate_left)
    | (extract_lets +onlyGivenNames dv; clear_value dv; revert dv; intro _) | with_reducible assumption
    | exact sub_trans rfl hw | with_reducible apply keeps_enableBlocks | with_reducible apply keeps_put
    | with_reducible apply keeps_mk

theorem keeps_resumeStalled {W : Nat} {s0 s : State} (dom : Nat)
    (hw : parts [.regs, .shadow, .groups, .mem, .out, .fresh, .hif, .ras, .mm, .hg, .frf, .fw, .sd, .cp, .aid, .mbx, .net, .sec, .adm] ||| W = W)
    (hk : Keeps W s0 s) :
    Keeps W s0 (State.resumeStalled s dom) := by
  unfold State.resumeStalled
  repeat' first
    | exact .inr (sub_trans rfl hw) | with_reducible exact .inl rfl | intro _
    | (extract_lets +onlyGivenNames dv; clear_value dv; revert dv; intro _) | with_reducible assumption
    | exact sub_trans rfl hw | with_reducible apply keeps_each | with_reducible apply keeps_writeReg
    | with_reducible apply keeps_mirrorRead | with_reducible apply keeps_memServe | split | with_reducible apply keeps_mk

theorem keeps_domainReady {W : Nat} {s0 s : State} (dom : Nat)
    (hw : parts [.regs, .shadow, .groups, .mem, .out, .fresh, .hif, .ras, .mm, .hg, .frf, .fw, .sd, .cp, .aid, .mbx, .net, .sec, .adm, .aon] ||| W = W)
    (hk : Keeps W s0 s) :
    Keeps W s0 (State.domainReady s dom) := by
  unfold State.domainReady
  repeat' first
    | exact .inr (sub_trans rfl hw) | with_reducible exact .inl rfl
    | (extract_lets +onlyGivenNames dv; clear_value dv; revert dv; intro _) | with_reducible assumption
    | exact sub_trans rfl hw | with_reducible apply keeps_ite | with_reducible apply keeps_put
    | with_reducible apply keeps_resumeStalled | with_reducible apply keeps_awake | with_reducible apply keeps_mk

/-! ### Machine/Warm.lean -/

theorem keeps_warmRegs {W : Nat} {s0 s : State} (hw : parts [.regs, .shadow, .groups] ||| W = W)
    (hk : Keeps W s0 s) : Keeps W s0 s.warmRegs := by
  refine keeps_update hk (.inl rfl) (.inl rfl) (.inr (sub_trans rfl hw)) (.inr (sub_trans rfl hw)) (.inr (sub_trans rfl hw)) (.inl rfl)
    (.inl rfl) (.inl rfl) (.inl rfl) (.inl rfl) (.inl rfl) (.inl rfl) (.inl rfl) (.inl rfl) (.inl rfl) (.inl rfl)
    (.inl rfl) (.inl rfl) (.inl rfl) (.inl rfl) (.inl rfl) (.inl rfl) (.inl rfl) (.inl rfl) (.inl rfl) (.inl rfl)
    (.inl rfl)
    (List.prefix_refl _) (Nat.le_refl _) fun c => ⟨c.1, tabSorted_map c.2.1 fun p => ?_, rfl⟩
  split
  · rfl
  · split <;> rfl

theorem keeps_restoreSetUp {W : Nat} {s0 s : State} (o : State) (hw : parts [.regs] ||| W = W) (hk : Keeps W s0 s) :
    Keeps W s0 (o.restoreSetUp s) := by
  unfold State.restoreSetUp
  refine keeps_each hk (fun u x h => keeps_ite ?_ h)
  split
  · exact keeps_setReg _ _ hw h
  · exact h

theorem keeps_warmStates {W : Nat} {s0 s : State} (o : State) (hw : parts [.regs] ||| W = W) (hk : Keeps W s0 s) :
    Keeps W s0 (o.warmStates s) := by
  unfold State.warmStates
  refine keeps_each (keeps_each (keeps_each (keeps_each hk ?_) ?_) ?_) ?_
  · intro u x h; exact keeps_ite h (keeps_put _ _ hw h)
  · intro u x h; exact keeps_put _ _ hw h
  · intro u x h; exact keeps_put _ _ hw (keeps_put _ _ hw h)
  · intro u x h; exact keeps_put _ _ hw h

theorem keeps_warmCores {W : Nat} {s0 s : State} (hw : parts [.regs, .hif, .aid, .mbx] ||| W = W) (hk : Keeps W s0 s) :
    Keeps W s0 (State.warmCores s) := by
  unfold State.warmCores
  repeat' first
    | exact .inr (sub_trans rfl hw) | with_reducible exact .inl rfl | intro _
    | (extract_lets +onlyGivenNames sv; refine keeps_cut (t := sv) ?_ ?_; subst sv; rotate_left; clear_value sv; revert sv; intro _ _; rotate_left)
    | (extract_lets +onlyGivenNames dv; clear_value dv; revert dv; intro _) | with_reducible assumption
    | exact sub_trans rfl hw | with_reducible apply keeps_each | with_reducible apply keeps_put
    | with_reducible apply keeps_moveSingletons | with_reducible apply keeps_moveRings | with_reducible apply keeps_rebind
    | with_reducible apply keeps_readyEnds | with_reducible apply keeps_gate | with_reducible apply keeps_resendNotes
    | with_reducible apply keeps_showHosted | with_reducible apply keeps_mk

theorem keeps_warmRings {W : Nat} {s0 s : State} (hw : parts [.regs, .hif] ||| W = W) (hk : Keeps W s0 s) :
    Keeps W s0 (State.warmRings s) := by
  unfold State.warmRings
  repeat' first
    | intro _
    | (extract_lets +onlyGivenNames sv; refine keeps_cut (t := sv) ?_ ?_; subst sv; rotate_left; clear_value sv; revert sv; intro _ _; rotate_left)
    | (extract_lets +onlyGivenNames dv; clear_value dv; revert dv; intro _) | with_reducible assumption
    | exact sub_trans rfl hw | with_reducible apply keeps_ite | with_reducible apply keeps_each
    | with_reducible apply keeps_advanceEpoch | with_reducible apply keeps_setRing | with_reducible apply keeps_put

theorem keeps_warmUpdate {W : Nat} {s0 s : State} (hw : parts [.regs, .hif, .ras, .aid] ||| W = W) (hk : Keeps W s0 s) :
    Keeps W s0 (State.warmUpdate s) := by
  unfold State.warmUpdate
  repeat' first
    | (extract_lets +onlyGivenNames sv; refine keeps_cut (t := sv) ?_ ?_; subst sv; rotate_left; clear_value sv; revert sv; intro _ _; rotate_left)
    | (extract_lets +onlyGivenNames dv; clear_value dv; revert dv; intro _) | with_reducible assumption
    | exact sub_trans rfl hw | with_reducible apply keeps_setUpd | with_reducible apply keeps_activationRecord
    | with_reducible apply keeps_complete | split

theorem keeps_warmFrf {W : Nat} {s0 s : State} (hw : parts [.frf] ||| W = W) (hk : Keeps W s0 s) :
    Keeps W s0 (State.warmFrf s) := by
  unfold State.warmFrf
  repeat' first
    | exact .inr (sub_trans rfl hw) | with_reducible exact .inl rfl | with_reducible assumption
    | with_reducible apply keeps_mk

theorem keeps_warmFurrow {W : Nat} {s0 s : State} (hw : parts [.regs, .fw] ||| W = W) (hk : Keeps W s0 s) :
    Keeps W s0 (State.warmFurrow s) := by
  unfold State.warmFurrow
  repeat' first
    | exact .inr (sub_trans rfl hw) | with_reducible exact .inl rfl | intro _
    | (extract_lets +onlyGivenNames sv; refine keeps_cut (t := sv) ?_ ?_; subst sv; rotate_left; clear_value sv; revert sv; intro _ _; rotate_left)
    | (extract_lets +onlyGivenNames dv; clear_value dv; revert dv; intro _) | with_reducible assumption
    | with_reducible apply keeps_each | with_reducible apply keeps_coreStart | with_reducible apply keeps_mk

theorem keeps_warmStand {W : Nat} {s0 s : State} (hw : parts [.sd] ||| W = W) (hk : Keeps W s0 s) :
    Keeps W s0 (State.warmStand s) := by
  unfold State.warmStand
  repeat' first
    | exact .inr (sub_trans rfl hw) | with_reducible exact .inl rfl | with_reducible assumption
    | with_reducible apply keeps_mk

theorem keeps_warmQueues {W : Nat} {s0 s : State}
    (hw : parts [.regs, .out, .hif, .ras, .mm, .frf, .fw, .aid, .net, .sec] ||| W = W) (hk : Keeps W s0 s) :
    Keeps W s0 (State.warmQueues s) := by
  unfold State.warmQueues
  repeat' first
    | intro _ | with_reducible assumption | exact sub_trans rfl hw | with_reducible apply keeps_each
    | with_reducible apply keeps_setQueue | with_reducible apply keeps_sqReset

theorem keeps_warmLinks {W : Nat} {s0 s : State} (hw : parts [.regs, .mm] ||| W = W) (hk : Keeps W s0 s) :
    Keeps W s0 (State.warmLinks s) := by
  unfold State.warmLinks
  repeat' first
    | exact .inr (sub_trans rfl hw) | with_reducible exact .inl rfl | intro _
    | (extract_lets +onlyGivenNames sv; refine keeps_cut (t := sv) ?_ ?_; subst sv; rotate_left; clear_value sv; revert sv; intro _ _; rotate_left)
    | (extract_lets +onlyGivenNames dv; clear_value dv; revert dv; intro _) | with_reducible assumption
    | exact sub_trans rfl hw | with_reducible apply keeps_each | with_reducible apply keeps_put
    | with_reducible apply keeps_mk

theorem keeps_peersDown {W : Nat} {s0 s : State} (hw : parts [.regs, .net] ||| W = W) (hk : Keeps W s0 s) :
    Keeps W s0 (State.peersDown s) := by
  unfold State.peersDown
  repeat' first
    | exact .inr (sub_trans rfl hw) | with_reducible exact .inl rfl
    | (extract_lets +onlyGivenNames sv; refine keeps_cut (t := sv) ?_ ?_; subst sv; rotate_left; clear_value sv; revert sv; intro _ _; rotate_left)
    | with_reducible assumption | exact sub_trans rfl hw | with_reducible apply keeps_closePeers
    | with_reducible apply keeps_mk

theorem keeps_warmNet {W : Nat} {s0 s : State} (hw : parts [.regs, .net] ||| W = W) (hk : Keeps W s0 s) :
    Keeps W s0 (State.warmNet s) := by
  unfold State.warmNet
  repeat' first
    | exact .inr (sub_trans rfl hw) | with_reducible exact .inl rfl
    | (extract_lets +onlyGivenNames sv; refine keeps_cut (t := sv) ?_ ?_; subst sv; rotate_left; clear_value sv; revert sv; intro _ _; rotate_left)
    | (extract_lets +onlyGivenNames dv; clear_value dv; revert dv; intro _) | with_reducible assumption
    | exact sub_trans rfl hw | with_reducible apply keeps_portsDown | with_reducible apply keeps_peersDown
    | with_reducible apply keeps_mk

theorem keeps_warmExports {W : Nat} {s0 s : State} (hw : parts [.net] ||| W = W) (hk : Keeps W s0 s) :
    Keeps W s0 (State.warmExports s) := by
  unfold State.warmExports
  repeat' first
    | intro _ | with_reducible assumption | with_reducible apply keeps_each | with_reducible apply keeps_resend

theorem keeps_replayWords {W : Nat} {s0 s : State} (i : Nat) (conv : Int × Int × Nat) (a period first : Nat) (kc : Option Nat) (q0 : List (Nat × Nat))
    (hw : parts [.regs, .hg, .frf, .fw] ||| W = W) (hk : Keeps W s0 s) :
    Keeps W s0 (State.replayWords s i conv a period first kc q0) := by
  induction q0 generalizing s with
  | nil =>
    unfold State.replayWords
    repeat' first | with_reducible assumption
  | cons _ _ ih =>
    unfold State.replayWords
    repeat' first
      | (extract_lets +onlyGivenNames sv; refine keeps_cut (t := sv) ?_ ?_; subst sv; rotate_left; clear_value sv; revert sv; intro _ _; rotate_left)
      | (extract_lets +onlyGivenNames dv; clear_value dv; revert dv; intro _) | with_reducible assumption
      | with_reducible apply ih | exact sub_trans rfl hw | with_reducible apply keeps_ite
      | with_reducible apply keeps_takeWord | with_reducible apply keeps_setStream

theorem keeps_replayEntry {W : Nat} {s0 s : State} (i : Nat) (e : JEntry) (hw : parts [.regs, .hg, .frf, .fw] ||| W = W)
    (hk : Keeps W s0 s) :
    Keeps W s0 (State.replayEntry s i e) := by
  unfold State.replayEntry
  repeat' first
    | (extract_lets +onlyGivenNames sv; refine keeps_cut (t := sv) ?_ ?_; subst sv; rotate_left; clear_value sv; revert sv; intro _ _; rotate_left)
    | (extract_lets +onlyGivenNames dv; clear_value dv; revert dv; intro _) | with_reducible assumption
    | exact sub_trans rfl hw | with_reducible apply keeps_replayWords | with_reducible apply keeps_setStream | split

theorem keeps_replayPart {W : Nat} {s0 s : State} (i g : Nat) (old : List SliceDesc)
    (hw : parts [.regs, .out, .fresh, .hif, .ras, .mm, .hg, .frf, .fw, .sd] ||| W = W) (hk : Keeps W s0 s) :
    Keeps W s0 (State.replayPart s i g old) := by
  unfold State.replayPart
  repeat' first
    | intro _
    | (extract_lets +onlyGivenNames sv; refine keeps_cut (t := sv) ?_ ?_; subst sv; rotate_left; clear_value sv; revert sv; intro _ _; rotate_left)
    | with_reducible assumption | exact sub_trans rfl hw | with_reducible apply keeps_each
    | with_reducible apply keeps_replayEntry | with_reducible apply keeps_put | with_reducible apply keeps_closeIn

theorem keeps_replayStream {W : Nat} {s0 s : State} (i : Nat)
    (hw : parts [.regs, .out, .fresh, .hif, .ras, .mm, .hg, .frf, .fw, .sd, .aid] ||| W = W) (hk : Keeps W s0 s) :
    Keeps W s0 (State.replayStream s i) := by
  unfold State.replayStream
  repeat' first
    | exact .inr (sub_trans rfl hw) | with_reducible exact .inl rfl | intro _
    | (extract_lets +onlyGivenNames sv; refine keeps_cut (t := sv) ?_ ?_; subst sv; rotate_left; clear_value sv; revert sv; intro _ _; rotate_left)
    | (extract_lets +onlyGivenNames dv; clear_value dv; revert dv; intro _) | with_reducible assumption
    | exact sub_trans rfl hw | with_reducible apply keeps_each | with_reducible apply keeps_setStream
    | with_reducible apply keeps_put | with_reducible apply keeps_replayPart | with_reducible apply keeps_setReg
    | with_reducible apply keeps_applyStaged | with_reducible apply keeps_ackAll | with_reducible apply keeps_mk

theorem keeps_settleJournal {W : Nat} {s0 s : State}
    (hw : parts [.regs, .out, .fresh, .hif, .ras, .mm, .hg, .frf, .fw, .sd, .aid] ||| W = W) (hk : Keeps W s0 s) :
    Keeps W s0 (State.settleJournal s) := by
  unfold State.settleJournal
  repeat' first
    | exact .inr (sub_trans rfl hw) | with_reducible exact .inl rfl | with_reducible assumption
    | with_reducible apply keeps_mk

theorem keeps_replayGroup {W : Nat} {s0 s : State} (g : Nat) (hw : parts [.regs, .mem, .ras, .cp] ||| W = W)
    (hk : Keeps W s0 s) :
    Keeps W s0 (State.replayGroup s g) := by
  unfold State.replayGroup
  repeat' first
    | exact .inr (sub_trans rfl hw) | with_reducible exact .inl rfl
    | (extract_lets +onlyGivenNames sv; refine keeps_cut (t := sv) ?_ ?_; subst sv; rotate_left; clear_value sv; revert sv; intro _ _; rotate_left)
    | (extract_lets +onlyGivenNames dv; clear_value dv; revert dv; intro _) | with_reducible assumption
    | exact sub_trans rfl hw | with_reducible apply keeps_setCpg | with_reducible apply keeps_loadSlots
    | with_reducible apply keeps_setReg | with_reducible apply keeps_setRel | with_reducible apply keeps_zeroGrid | split
    | with_reducible apply keeps_mk

theorem keeps_replayAll {W : Nat} {s0 s : State}
    (hw : parts [.regs, .mem, .out, .fresh, .hif, .ras, .mm, .hg, .frf, .fw, .sd, .cp, .aid] ||| W = W)
    (hk : Keeps W s0 s) :
    Keeps W s0 (State.replayAll s) := by
  unfold State.replayAll
  repeat' first
    | intro _
    | (extract_lets +onlyGivenNames sv; refine keeps_cut (t := sv) ?_ ?_; subst sv; rotate_left; clear_value sv; revert sv; intro _ _; rotate_left)
    | (extract_lets +onlyGivenNames dv; clear_value dv; revert dv; intro _) | with_reducible assumption
    | exact sub_trans rfl hw | with_reducible apply keeps_ite | with_reducible apply keeps_each
    | with_reducible apply keeps_put | with_reducible apply keeps_replayGroup | with_reducible apply keeps_replayStream
    | with_reducible apply keeps_setReg

theorem keeps_fencedStart {W : Nat} {s0 s : State} (hw : parts [.regs, .hif, .ras, .hg] ||| W = W) (hk : Keeps W s0 s) :
    Keeps W s0 (State.fencedStart s) := by
  unfold State.fencedStart
  repeat' first
    | exact .inr (sub_trans rfl hw) | with_reducible exact .inl rfl | intro _
    | (extract_lets +onlyGivenNames sv; refine keeps_cut (t := sv) ?_ ?_; subst sv; rotate_left; clear_value sv; revert sv; intro _ _; rotate_left)
    | (extract_lets +onlyGivenNames dv; clear_value dv; revert dv; intro _) | with_reducible assumption
    | exact sub_trans rfl hw | with_reducible apply keeps_ite | with_reducible apply keeps_each
    | with_reducible apply keeps_put | with_reducible apply keeps_health | with_reducible apply keeps_setStream
    | with_reducible apply keeps_jrnShow | with_reducible apply keeps_mk

theorem keeps_escalate {W : Nat} {s0 s : State} (cause step : Nat) (b : Boot)
    (hw : parts [.time, .frac, .regs, .shadow, .groups, .mem, .out, .fresh, .hif, .ras, .mm, .hg, .frf, .fw, .sd, .img, .cp, .aid, .cal, .built, .mbx, .net, .bud, .sec, .adm, .pow, .aon] ||| W = W)
    (hk : Keeps W s0 s) :
    Keeps W s0 (State.escalate s cause step b) := by
  unfold State.escalate
  repeat' first
    | exact .inr (sub_trans rfl hw) | with_reducible assumption | with_reducible apply keeps_coldStart
    | with_reducible apply keeps_mk

theorem keeps_warmCommands {W : Nat} {s0 s : State} (hw : parts [.hif, .aid] ||| W = W) (hk : Keeps W s0 s) :
    Keeps W s0 (State.warmCommands s) := by
  unfold State.warmCommands
  repeat' first
    | intro _ | with_reducible assumption | with_reducible apply keeps_each | with_reducible apply keeps_complete

theorem keeps_warmBase {W : Nat} {s0 s : State}
    (hw : parts [.regs, .shadow, .groups, .out, .fresh, .hif, .ras, .mm, .hg, .frf, .fw, .sd, .aid, .mbx, .sec, .pow, .aon] ||| W = W)
    (hk : Keeps W s0 s) :
    Keeps W s0 (State.warmBase s) := by
  unfold State.warmBase
  repeat' first
    | exact .inr (sub_trans rfl hw) | with_reducible exact .inl rfl | intro _
    | (extract_lets +onlyGivenNames sv; refine keeps_cut (t := sv) ?_ ?_; subst sv; rotate_left; clear_value sv; revert sv; intro _ _; rotate_left)
    | (extract_lets +onlyGivenNames dv; clear_value dv; revert dv; intro _) | with_reducible assumption
    | exact sub_trans rfl hw | with_reducible apply keeps_each | with_reducible apply keeps_restoreSetUp
    | with_reducible apply keeps_warmStates | with_reducible apply keeps_settleJournal
    | with_reducible apply keeps_warmRegs | with_reducible apply keeps_put | with_reducible apply keeps_setPow
    | with_reducible apply keeps_mk

theorem keeps_warmSteps {W : Nat} {s0 s : State} (b : Boot)
    (hw : parts [.time, .frac, .regs, .shadow, .groups, .mem, .out, .fresh, .hif, .ras, .mm, .hg, .frf, .fw, .sd, .cp, .aid, .mbx, .net, .sec, .adm, .pow, .aon] ||| W = W)
    (hk : Keeps W s0 s) :
    Keeps W s0 (State.warmSteps s b) := by
  unfold State.warmSteps
  repeat' first
    | intro _
    | (extract_lets +onlyGivenNames sv; refine keeps_cut (t := sv) ?_ ?_; subst sv; rotate_left; clear_value sv; revert sv; intro _ _; rotate_left)
    | (extract_lets +onlyGivenNames dv; clear_value dv; revert dv; intro _) | with_reducible assumption
    | exact sub_trans rfl hw | with_reducible apply keeps_ite | with_reducible apply keeps_each
    | with_reducible apply keeps_warmBase | with_reducible apply keeps_loseBanks | with_reducible apply keeps_warmLinks
    | with_reducible apply keeps_linkLost | with_reducible apply keeps_linkStart | with_reducible apply keeps_warmCores
    | with_reducible apply keeps_warmRings | with_reducible apply keeps_warmUpdate | with_reducible apply keeps_warmFrf
    | with_reducible apply keeps_warmStand | with_reducible apply keeps_warmQueues | with_reducible apply keeps_warmNet
    | with_reducible apply keeps_warmFurrow | with_reducible apply keeps_otherRecord
    | with_reducible apply keeps_fencedStart | with_reducible apply keeps_replayAll
    | with_reducible apply keeps_warmExports | with_reducible apply keeps_put | with_reducible apply keeps_setReady
    | with_reducible apply keeps_readBack | with_reducible apply keeps_warmCommands

theorem keeps_warmReset {W : Nat} {s0 s : State} (src : Nat) (b : Boot)
    (hw : parts [.time, .frac, .regs, .shadow, .groups, .mem, .out, .fresh, .hif, .ras, .mm, .hg, .frf, .fw, .sd, .img, .cp, .aid, .cal, .built, .mbx, .net, .bud, .sec, .adm, .pow, .aon] ||| W = W)
    (hk : Keeps W s0 s) :
    Keeps W s0 (State.warmReset s src b) := by
  unfold State.warmReset
  repeat' first
    | exact .inr (sub_trans rfl hw)
    | (extract_lets +onlyGivenNames sv; refine keeps_cut (t := sv) ?_ ?_; subst sv; rotate_left; clear_value sv; revert sv; intro _ _; rotate_left)
    | (extract_lets +onlyGivenNames dv; clear_value dv; revert dv; intro _) | with_reducible assumption
    | exact sub_trans rfl hw | with_reducible apply keeps_ite | with_reducible apply keeps_wakeTime
    | with_reducible apply keeps_put | with_reducible apply keeps_enableBlocks | with_reducible apply keeps_escalate
    | with_reducible apply keeps_warmSteps | split | with_reducible apply keeps_mk

theorem keeps_warmCommand {W : Nat} {s0 s : State} (b : Boot) (c : Ctx)
    (hw : parts [.time, .frac, .regs, .shadow, .groups, .mem, .out, .fresh, .hif, .ras, .mm, .hg, .frf, .fw, .sd, .img, .cp, .aid, .cal, .built, .mbx, .net, .bud, .sec, .adm, .pow, .aon] ||| W = W)
    (hk : Keeps W s0 s) :
    Keeps W s0 (State.warmCommand b s c) := by
  unfold State.warmCommand
  repeat' first
    | with_reducible assumption | exact sub_trans rfl hw | with_reducible apply keeps_await
    | with_reducible apply keeps_warmReset

theorem keeps_perst {W : Nat} {s0 s : State} (b : Boot)
    (hw : parts [.time, .frac, .regs, .shadow, .groups, .mem, .out, .fresh, .hif, .ras, .mm, .hg, .frf, .fw, .sd, .img, .cp, .aid, .cal, .built, .mbx, .net, .bud, .sec, .adm, .pow, .aon] ||| W = W)
    (hk : Keeps W s0 s) :
    Keeps W s0 (State.perst s b) := by
  unfold State.perst
  repeat' first
    | with_reducible assumption | exact sub_trans rfl hw | with_reducible apply keeps_ite
    | with_reducible apply keeps_coldStart | with_reducible apply keeps_linkLost | with_reducible apply keeps_linkStart
    | with_reducible apply keeps_warmReset | split

/-! ### Machine/Buddy.lean -/

theorem keeps_setBud {W : Nat} {s0 s : State} (b : Bud) (hw : parts [.bud] ||| W = W) (hk : Keeps W s0 s) :
    Keeps W s0 (State.setBud s b) := by
  unfold State.setBud
  repeat' first
    | exact .inr (sub_trans rfl hw) | with_reducible exact .inl rfl | with_reducible assumption
    | with_reducible apply keeps_mk

theorem keeps_budHealth {W : Nat} {s0 s : State} (what : Nat) (hw : parts [.regs, .hif, .ras] ||| W = W)
    (hk : Keeps W s0 s) :
    Keeps W s0 (State.budHealth s what) := by
  unfold State.budHealth
  repeat' first | with_reducible assumption | with_reducible apply keeps_health

theorem keeps_tellPair {W : Nat} {s0 s : State} (op : Nat) (hw : parts [.out, .frf, .net] ||| W = W) (hk : Keeps W s0 s) :
    Keeps W s0 (State.tellPair s op) := by
  unfold State.tellPair
  repeat' first | with_reducible assumption | with_reducible apply keeps_toBuddy

theorem keeps_stopMirror {W : Nat} {s0 s : State}
    (hw : parts [.regs, .out, .fresh, .hif, .ras, .mm, .hg, .frf, .fw, .sd, .cp, .aid, .net, .bud] ||| W = W)
    (hk : Keeps W s0 s) :
    Keeps W s0 (State.stopMirror s) := by
  unfold State.stopMirror
  repeat' first
    | exact .inr (sub_trans rfl hw) | with_reducible exact .inl rfl | intro _
    | (extract_lets +onlyGivenNames sv; refine keeps_cut (t := sv) ?_ ?_; subst sv; rotate_left; clear_value sv; revert sv; intro _ _; rotate_left)
    | (extract_lets +onlyGivenNames dv; clear_value dv; revert dv; intro _) | with_reducible assumption
    | exact sub_trans rfl hw | with_reducible apply keeps_ite | with_reducible apply keeps_each
    | with_reducible apply keeps_put | with_reducible apply keeps_ackAll | with_reducible apply keeps_checkpointDone
    | split | with_reducible apply keeps_mk

theorem keeps_endPair {W : Nat} {s0 s : State}
    (hw : parts [.regs, .out, .fresh, .hif, .ras, .mm, .hg, .frf, .fw, .sd, .cp, .aid, .net, .bud] ||| W = W)
    (hk : Keeps W s0 s) :
    Keeps W s0 (State.endPair s) := by
  unfold State.endPair
  repeat' first
    | intro _
    | (extract_lets +onlyGivenNames sv; refine keeps_cut (t := sv) ?_ ?_; subst sv; rotate_left; clear_value sv; revert sv; intro _ _; rotate_left)
    | with_reducible assumption | exact sub_trans rfl hw | with_reducible apply keeps_ite
    | with_reducible apply keeps_each | with_reducible apply keeps_put | with_reducible apply keeps_stopMirror
    | with_reducible apply keeps_setBud

theorem keeps_pairStatus {W : Nat} {s0 s : State} (status : Nat) (hw : parts [.hif, .aid] ||| W = W) (hk : Keeps W s0 s) :
    Keeps W s0 (State.pairStatus s status) := by
  unfold State.pairStatus
  repeat' first | with_reducible assumption | with_reducible apply keeps_complete | split

theorem keeps_unpair {W : Nat} {s0 s : State}
    (hw : parts [.regs, .out, .fresh, .hif, .ras, .mm, .hg, .frf, .fw, .sd, .cp, .aid, .net, .bud] ||| W = W)
    (hk : Keeps W s0 s) :
    Keeps W s0 (State.unpair s) := by
  unfold State.unpair
  repeat' first
    | (extract_lets +onlyGivenNames sv; refine keeps_cut (t := sv) ?_ ?_; subst sv; rotate_left; clear_value sv; revert sv; intro _ _; rotate_left)
    | with_reducible assumption | exact sub_trans rfl hw | with_reducible apply keeps_ite
    | with_reducible apply keeps_pairStatus | with_reducible apply keeps_budHealth | with_reducible apply keeps_endPair

theorem keeps_withPeer {W : Nat} {s0 s : State} (dev : Nat) (r : PairReply) (cmd : Nat × Nat)
    (hw : parts [.regs, .bud] ||| W = W) (hk : Keeps W s0 s) :
    Keeps W s0 (State.withPeer s dev r cmd) := by
  unfold State.withPeer
  repeat' first
    | (extract_lets +onlyGivenNames sv; refine keeps_cut (t := sv) ?_ ?_; subst sv; rotate_left; clear_value sv; revert sv; intro _ _; rotate_left)
    | (extract_lets +onlyGivenNames dv; clear_value dv; revert dv; intro _) | with_reducible assumption
    | exact sub_trans rfl hw | with_reducible apply keeps_put | with_reducible apply keeps_setBud | split

theorem keeps_beginPair {W : Nat} {s0 s : State} (dev : Nat) (r : PairReply) (cmd : Nat × Nat)
    (hw : parts [.regs, .fresh, .hif, .ras, .aid, .bud, .adm] ||| W = W) (hk : Keeps W s0 s) :
    Keeps W s0 (State.beginPair s dev r cmd) := by
  unfold State.beginPair
  repeat' first
    | (extract_lets +onlyGivenNames sv; refine keeps_cut (t := sv) ?_ ?_; subst sv; rotate_left; clear_value sv; revert sv; intro _ _; rotate_left)
    | with_reducible assumption | exact sub_trans rfl hw | with_reducible apply keeps_ite
    | with_reducible apply keeps_withPeer | with_reducible apply keeps_moveFloor | with_reducible apply keeps_settleAdm
    | split

theorem keeps_mirrorCkpt {W : Nat} {s0 s : State} (g : Nat) (hw : parts [.out, .frf, .cp, .net] ||| W = W)
    (hk : Keeps W s0 s) :
    Keeps W s0 (State.mirrorCkpt s g) := by
  unfold State.mirrorCkpt
  repeat' first
    | intro _
    | (extract_lets +onlyGivenNames sv; refine keeps_cut (t := sv) ?_ ?_; subst sv; rotate_left; clear_value sv; revert sv; intro _ _; rotate_left)
    | (extract_lets +onlyGivenNames dv; clear_value dv; revert dv; intro _) | with_reducible assumption
    | exact sub_trans rfl hw | with_reducible apply keeps_each | with_reducible apply keeps_setCpg
    | with_reducible apply keeps_toBuddy | split

theorem keeps_mirrorWaiting {W : Nat} {s0 s : State} (g : Nat) (hw : parts [.out, .frf, .net] ||| W = W)
    (hk : Keeps W s0 s) :
    Keeps W s0 (State.mirrorWaiting s g) := by
  unfold State.mirrorWaiting
  repeat' first
    | intro _ | (extract_lets +onlyGivenNames dv; clear_value dv; revert dv; intro _) | with_reducible assumption
    | with_reducible apply keeps_ite | with_reducible apply keeps_each | with_reducible apply keeps_mirrorRun | split

theorem keeps_startMirror {W : Nat} {s0 s : State} (hw : parts [.regs, .out, .hg, .frf, .cp, .net, .bud] ||| W = W)
    (hk : Keeps W s0 s) :
    Keeps W s0 (State.startMirror s) := by
  unfold State.startMirror
  repeat' first
    | exact .inr (sub_trans rfl hw) | with_reducible exact .inl rfl | intro _
    | (extract_lets +onlyGivenNames sv; refine keeps_cut (t := sv) ?_ ?_; subst sv; rotate_left; clear_value sv; revert sv; intro _ _; rotate_left)
    | (extract_lets +onlyGivenNames dv; clear_value dv; revert dv; intro _) | with_reducible assumption
    | exact sub_trans rfl hw | with_reducible apply keeps_each | with_reducible apply keeps_put
    | with_reducible apply keeps_toBuddy | with_reducible apply keeps_mirrorCkpt
    | with_reducible apply keeps_mirrorWaiting | with_reducible apply keeps_mirrorConfig | with_reducible apply keeps_mk

theorem keeps_pairDone {W : Nat} {s0 s : State} (hw : parts [.regs, .hif, .ras, .aid, .bud] ||| W = W) (hk : Keeps W s0 s) :
    Keeps W s0 (State.pairDone s) := by
  unfold State.pairDone
  repeat' first
    | (extract_lets +onlyGivenNames sv; refine keeps_cut (t := sv) ?_ ?_; subst sv; rotate_left; clear_value sv; revert sv; intro _ _; rotate_left)
    | (extract_lets +onlyGivenNames dv; clear_value dv; revert dv; intro _) | with_reducible assumption
    | exact sub_trans rfl hw | with_reducible apply keeps_ite | with_reducible apply keeps_pairStatus
    | with_reducible apply keeps_put | with_reducible apply keeps_setBud | with_reducible apply keeps_budHealth

theorem keeps_pairReady {W : Nat} {s0 s : State} (hw : parts [.regs, .out, .hif, .ras, .frf, .aid, .net, .bud] ||| W = W)
    (hk : Keeps W s0 s) :
    Keeps W s0 (State.pairReady s) := by
  unfold State.pairReady
  repeat' first
    | with_reducible assumption | exact sub_trans rfl hw | with_reducible apply keeps_ite
    | with_reducible apply keeps_tellPair | with_reducible apply keeps_setBud | with_reducible apply keeps_pairDone
    | split

theorem keeps_buddyPair {W : Nat} {s0 s : State} (r : PairReply) (c : Ctx)
    (hw : parts [.regs, .out, .fresh, .hif, .ras, .frf, .aid, .net, .bud, .adm] ||| W = W) (hk : Keeps W s0 s) :
    Keeps W s0 (State.buddyPair r s c) := by
  unfold State.buddyPair
  repeat' first
    | (extract_lets +onlyGivenNames sv; refine keeps_cut (t := sv) ?_ ?_; subst sv; rotate_left; clear_value sv; revert sv; intro _ _; rotate_left)
    | (extract_lets +onlyGivenNames dv; clear_value dv; revert dv; intro _) | with_reducible assumption
    | exact sub_trans rfl hw | with_reducible apply keeps_ite | with_reducible apply keeps_complete
    | with_reducible apply keeps_await | with_reducible apply keeps_beginPair | with_reducible apply keeps_tellPair
    | split

theorem keeps_buddyUnpair {W : Nat} {s0 s : State} (c : Ctx)
    (hw : parts [.regs, .out, .fresh, .hif, .ras, .mm, .hg, .frf, .fw, .sd, .cp, .aid, .net, .bud] ||| W = W)
    (hk : Keeps W s0 s) :
    Keeps W s0 (State.buddyUnpair s c) := by
  unfold State.buddyUnpair
  repeat' first
    | with_reducible assumption | exact sub_trans rfl hw | with_reducible apply keeps_tellPair
    | with_reducible apply keeps_unpair | with_reducible apply keeps_complete

theorem keeps_buddyStatus {W : Nat} {s0 s : State} (c : Ctx) (hw : parts [.hif, .aid] ||| W = W) (hk : Keeps W s0 s) :
    Keeps W s0 (State.buddyStatus s c) := by
  unfold State.buddyStatus
  repeat' first | with_reducible assumption | with_reducible apply keeps_complete

theorem keeps_pairTimeout {W : Nat} {s0 s : State}
    (hw : parts [.time, .regs, .out, .fresh, .hif, .ras, .mm, .hg, .frf, .fw, .sd, .cp, .aid, .net, .bud] ||| W = W)
    (hk : Keeps W s0 s) :
    Keeps W s0 (State.pairTimeout s) := by
  unfold State.pairTimeout
  repeat' first
    | with_reducible assumption | exact sub_trans rfl hw | with_reducible apply keeps_ite | with_reducible apply keeps_at
    | with_reducible apply keeps_pairStatus | with_reducible apply keeps_tellPair | with_reducible apply keeps_endPair
    | split

theorem keeps_pairMessage {W : Nat} {s0 s : State} (dev : Nat) (p : List Byte) (r : PairReply)
    (hw : parts [.regs, .out, .fresh, .hif, .ras, .mm, .hg, .frf, .fw, .sd, .cp, .aid, .net, .bud, .adm] ||| W = W)
    (hk : Keeps W s0 s) :
    Keeps W s0 (State.pairMessage s dev p r) := by
  unfold State.pairMessage
  repeat' first
    | (extract_lets +onlyGivenNames sv; refine keeps_cut (t := sv) ?_ ?_; subst sv; rotate_left; clear_value sv; revert sv; intro _ _; rotate_left)
    | (extract_lets +onlyGivenNames dv; clear_value dv; revert dv; intro _) | with_reducible assumption
    | exact sub_trans rfl hw | with_reducible apply keeps_ite | with_reducible apply keeps_setBud
    | with_reducible apply keeps_beginPair | with_reducible apply keeps_tellPair | with_reducible apply keeps_startMirror
    | with_reducible apply keeps_pairDone | with_reducible apply keeps_stopMirror | with_reducible apply keeps_unpair
    | split

theorem keeps_holdEntry {W : Nat} {s0 s : State} (p : List Byte) (port : Nat) (hw : parts [.bud] ||| W = W)
    (hk : Keeps W s0 s) :
    Keeps W s0 (State.holdEntry s p port) := by
  unfold State.holdEntry
  repeat' first
    | (extract_lets +onlyGivenNames dv; clear_value dv; revert dv; intro _) | with_reducible assumption
    | with_reducible apply keeps_setBud | split

theorem keeps_dropMirrored {W : Nat} {s0 s : State} (p : List Byte) (hw : parts [.bud] ||| W = W) (hk : Keeps W s0 s) :
    Keeps W s0 (State.dropMirrored s p) := by
  unfold State.dropMirrored
  repeat' first
    | intro _ | (extract_lets +onlyGivenNames dv; clear_value dv; revert dv; intro _) | with_reducible assumption
    | with_reducible apply keeps_each | with_reducible apply keeps_setBud

theorem keeps_holdCkpt {W : Nat} {s0 s : State} (p : List Byte) (hw : parts [.bud] ||| W = W) (hk : Keeps W s0 s) :
    Keeps W s0 (State.holdCkpt s p) := by
  unfold State.holdCkpt
  repeat' first
    | (extract_lets +onlyGivenNames dv; clear_value dv; revert dv; intro _) | with_reducible assumption
    | with_reducible apply keeps_ite | with_reducible apply keeps_setBud

theorem keeps_holdCommit {W : Nat} {s0 s : State} (p : List Byte) (hw : parts [.bud] ||| W = W) (hk : Keeps W s0 s) :
    Keeps W s0 (State.holdCommit s p) := by
  unfold State.holdCommit
  repeat' first
    | (extract_lets +onlyGivenNames dv; clear_value dv; revert dv; intro _) | with_reducible assumption
    | with_reducible apply keeps_setBud

theorem keeps_declareLost {W : Nat} {s0 s : State}
    (hw : parts [.regs, .out, .fresh, .hif, .ras, .mm, .hg, .frf, .fw, .sd, .cp, .aid, .net, .bud] ||| W = W)
    (hk : Keeps W s0 s) :
    Keeps W s0 (State.declareLost s) := by
  unfold State.declareLost
  repeat' first
    | (extract_lets +onlyGivenNames sv; refine keeps_cut (t := sv) ?_ ?_; subst sv; rotate_left; clear_value sv; revert sv; intro _ _; rotate_left)
    | (extract_lets +onlyGivenNames dv; clear_value dv; revert dv; intro _) | with_reducible assumption
    | exact sub_trans rfl hw | with_reducible apply keeps_ite | with_reducible apply keeps_put
    | with_reducible apply keeps_stopMirror | with_reducible apply keeps_setBud

theorem keeps_putLease {W : Nat} {s0 s : State} (hw : parts [.out, .bud] ||| W = W) (hk : Keeps W s0 s) :
    Keeps W s0 (State.putLease s) := by
  unfold State.putLease
  repeat' first
    | with_reducible assumption | exact sub_trans rfl hw | with_reducible apply keeps_emit
    | with_reducible apply keeps_setBud

theorem keeps_leaseCycle {W : Nat} {s0 s : State} (readBack peerWord : Nat) (pathOk : Bool)
    (hw : parts [.regs, .out, .fresh, .hif, .ras, .mm, .hg, .frf, .fw, .sd, .cp, .aid, .net, .bud] ||| W = W)
    (hk : Keeps W s0 s) :
    Keeps W s0 (State.leaseCycle s readBack peerWord pathOk) := by
  unfold State.leaseCycle
  repeat' first
    | (extract_lets +onlyGivenNames sv; refine keeps_cut (t := sv) ?_ ?_; subst sv; rotate_left; clear_value sv; revert sv; intro _ _; rotate_left)
    | (extract_lets +onlyGivenNames dv; clear_value dv; revert dv; intro _) | with_reducible assumption
    | exact sub_trans rfl hw | with_reducible apply keeps_ite | with_reducible apply keeps_putLease
    | with_reducible apply keeps_setBud | with_reducible apply keeps_put | with_reducible apply keeps_budHealth
    | with_reducible apply keeps_declareLost

theorem keeps_fence {W : Nat} {s0 s : State} (hw : parts [.regs, .hif, .ras] ||| W = W) (hk : Keeps W s0 s) :
    Keeps W s0 (State.fence s) := by
  unfold State.fence
  repeat' first
    | with_reducible assumption | exact sub_trans rfl hw | with_reducible apply keeps_ite | with_reducible apply keeps_put
    | with_reducible apply keeps_budHealth | split

theorem keeps_adoptConfig {W : Nat} {s0 s : State} (hw : parts [.regs] ||| W = W) (hk : Keeps W s0 s) :
    Keeps W s0 (State.adoptConfig s) := by
  unfold State.adoptConfig
  repeat' first
    | intro _ | (extract_lets +onlyGivenNames dv; clear_value dv; revert dv; intro _) | with_reducible assumption
    | with_reducible apply keeps_each | with_reducible apply keeps_setReg

theorem keeps_adoptCkpt {W : Nat} {s0 s : State} (g k : Nat) (t : Tab (List Byte))
    (hw : parts [.regs, .mem, .mm] ||| W = W) (hk : Keeps W s0 s) :
    Keeps W s0 (State.adoptCkpt s g k t) := by
  unfold State.adoptCkpt
  repeat' first
    | intro _
    | (extract_lets +onlyGivenNames sv; refine keeps_cut (t := sv) ?_ ?_; subst sv; rotate_left; clear_value sv; revert sv; intro _ _; rotate_left)
    | (extract_lets +onlyGivenNames dv; clear_value dv; revert dv; intro _) | with_reducible assumption
    | with_reducible apply keeps_ite | with_reducible apply keeps_each | with_reducible apply keeps_dramPut

theorem keeps_adoptGroup {W : Nat} {s0 s : State} (g : Nat) (hw : parts [.regs, .mem, .ras, .mm, .img, .cp] ||| W = W)
    (hk : Keeps W s0 s) :
    Keeps W s0 (State.adoptGroup s g) := by
  unfold State.adoptGroup
  repeat' first
    | exact .inr (sub_trans rfl hw) | with_reducible exact .inl rfl
    | (extract_lets +onlyGivenNames sv; refine keeps_cut (t := sv) ?_ ?_; subst sv; rotate_left; clear_value sv; revert sv; intro _ _; rotate_left)
    | (extract_lets +onlyGivenNames dv; clear_value dv; revert dv; intro _) | with_reducible assumption
    | exact sub_trans rfl hw | with_reducible apply keeps_put | with_reducible apply keeps_setCpg
    | with_reducible apply keeps_zeroGrid | with_reducible apply keeps_adoptCkpt | with_reducible apply keeps_loadSlots
    | with_reducible apply keeps_setRel | with_reducible apply keeps_setReg | split | with_reducible apply keeps_mk

theorem keeps_adoptStream {W : Nat} {s0 s : State} (i : Nat)
    (hw : parts [.regs, .out, .fresh, .hif, .ras, .mm, .hg, .frf, .fw, .sd, .img] ||| W = W) (hk : Keeps W s0 s) :
    Keeps W s0 (State.adoptStream s i) := by
  unfold State.adoptStream
  repeat' first
    | exact .inr (sub_trans rfl hw) | with_reducible exact .inl rfl | intro _
    | (extract_lets +onlyGivenNames sv; refine keeps_cut (t := sv) ?_ ?_; subst sv; rotate_left; clear_value sv; revert sv; intro _ _; rotate_left)
    | (extract_lets +onlyGivenNames dv; clear_value dv; revert dv; intro _) | with_reducible assumption
    | exact sub_trans rfl hw | with_reducible apply keeps_each | with_reducible apply keeps_put
    | with_reducible apply keeps_setStream | with_reducible apply keeps_bindQueues
    | with_reducible apply keeps_replayEntry | with_reducible apply keeps_closeUpto | with_reducible apply keeps_sendAck
    | split | with_reducible apply keeps_mk

theorem keeps_adoptRing {W : Nat} {s0 s : State} (r v : Nat) (f : Fld) (hw : parts [.regs, .hif] ||| W = W)
    (hk : Keeps W s0 s) :
    Keeps W s0 (State.adoptRing s r v f) := by
  unfold State.adoptRing
  repeat' first
    | exact .inr (sub_trans rfl hw) | with_reducible exact .inl rfl
    | (extract_lets +onlyGivenNames sv; refine keeps_cut (t := sv) ?_ ?_; subst sv; rotate_left; clear_value sv; revert sv; intro _ _; rotate_left)
    | (extract_lets +onlyGivenNames dv; clear_value dv; revert dv; intro _) | with_reducible assumption
    | exact sub_trans rfl hw | with_reducible apply keeps_ite | with_reducible apply keeps_setRing
    | with_reducible apply keeps_put | with_reducible apply keeps_showHosted | split | with_reducible apply keeps_mk

theorem keeps_adoptRings {W : Nat} {s0 s : State} (g : Nat) (hw : parts [.regs, .fresh, .hif] ||| W = W)
    (hk : Keeps W s0 s) :
    Keeps W s0 (State.adoptRings s g) := by
  unfold State.adoptRings
  repeat' first
    | (extract_lets +onlyGivenNames sv; refine keeps_cut (t := sv) ?_ ?_; subst sv; rotate_left; clear_value sv; revert sv; intro _ _; rotate_left)
    | (extract_lets +onlyGivenNames dv; clear_value dv; revert dv; intro _) | with_reducible assumption
    | exact sub_trans rfl hw | with_reducible apply keeps_ite | with_reducible apply keeps_adoptRing
    | with_reducible apply keeps_tickFree

theorem keeps_adoptExport {W : Nat} {s0 s : State} (q : Nat) (hw : parts [.regs, .hif, .ras, .net] ||| W = W)
    (hk : Keeps W s0 s) :
    Keeps W s0 (State.adoptExport s q) := by
  unfold State.adoptExport
  repeat' first
    | intro _
    | (extract_lets +onlyGivenNames sv; refine keeps_cut (t := sv) ?_ ?_; subst sv; rotate_left; clear_value sv; revert sv; intro _ _; rotate_left)
    | (extract_lets +onlyGivenNames dv; clear_value dv; revert dv; intro _) | with_reducible assumption
    | exact sub_trans rfl hw | with_reducible apply keeps_ite | with_reducible apply keeps_each
    | with_reducible apply keeps_setReg | with_reducible apply keeps_put | with_reducible apply keeps_setExpq
    | with_reducible apply keeps_reroute | split

theorem keeps_adoptRuns {W : Nat} {s0 s : State} (hw : parts [.out, .hif, .frf, .aid, .net] ||| W = W) (hk : Keeps W s0 s) :
    Keeps W s0 (State.adoptRuns s) := by
  unfold State.adoptRuns
  repeat' first
    | intro _ | with_reducible assumption | exact sub_trans rfl hw | with_reducible apply keeps_each
    | with_reducible apply keeps_deliver

theorem keeps_takeover {W : Nat} {s0 s : State} (host : List HostRead)
    (hw : parts [.regs, .mem, .out, .fresh, .hif, .ras, .mm, .hg, .frf, .fw, .sd, .img, .cp, .aid, .net, .bud, .adm] ||| W = W)
    (hk : Keeps W s0 s) :
    Keeps W s0 (State.takeover s host) := by
  unfold State.takeover
  repeat' first
    | exact .inr (sub_trans rfl hw) | with_reducible exact .inl rfl | intro _
    | (extract_lets +onlyGivenNames sv; refine keeps_cut (t := sv) ?_ ?_; subst sv; rotate_left; clear_value sv; revert sv; intro _ _; rotate_left)
    | (extract_lets +onlyGivenNames dv; clear_value dv; revert dv; intro _) | with_reducible assumption
    | exact sub_trans rfl hw | with_reducible apply keeps_ite | with_reducible apply keeps_each
    | with_reducible apply keeps_declareLost | with_reducible apply keeps_put | with_reducible apply keeps_putLease
    | with_reducible apply keeps_beginSusp | with_reducible apply keeps_bump | with_reducible apply keeps_adoptConfig
    | with_reducible apply keeps_adoptGroup | with_reducible apply keeps_adoptStream | with_reducible apply keeps_jrnShow
    | with_reducible apply keeps_adoptRings | with_reducible apply keeps_readBack | with_reducible apply keeps_adoptExport
    | with_reducible apply keeps_adoptRuns | with_reducible apply keeps_setBud | with_reducible apply keeps_settleAdm
    | with_reducible apply keeps_endSusp | with_reducible apply keeps_mk

/-! ### Machine/Peers.lean -/

theorem keeps_cvFlush {W : Nat} {s0 s : State} (k chan port : Nat) (hw : parts [.out, .frf, .net] ||| W = W)
    (hk : Keeps W s0 s) :
    Keeps W s0 (State.cvFlush s k chan port) := by
  unfold State.cvFlush
  repeat' first
    | intro _ | (extract_lets +onlyGivenNames dv; clear_value dv; revert dv; intro _) | with_reducible assumption
    | exact sub_trans rfl hw | with_reducible apply keeps_ite | with_reducible apply keeps_each
    | with_reducible apply keeps_setPeer | with_reducible apply keeps_cvSend

theorem keeps_confirmed {W : Nat} {s0 s : State} (m : CvMsg)
    (hw : parts [.regs, .out, .fresh, .hif, .ras, .mm, .hg, .frf, .fw, .sd, .cp, .aid, .net] ||| W = W)
    (hk : Keeps W s0 s) :
    Keeps W s0 (State.confirmed s m) := by
  unfold State.confirmed
  repeat' first
    | with_reducible assumption | exact sub_trans rfl hw | with_reducible apply keeps_ite
    | with_reducible apply keeps_setEntry | with_reducible apply keeps_ackAll | with_reducible apply keeps_checkpointDone

theorem keeps_cvAck {W : Nat} {s0 s : State} (k chan port ack : Nat)
    (hw : parts [.regs, .out, .fresh, .hif, .ras, .mm, .hg, .frf, .fw, .sd, .cp, .aid, .net, .bud] ||| W = W)
    (hk : Keeps W s0 s) :
    Keeps W s0 (State.cvAck s k chan port ack) := by
  unfold State.cvAck
  repeat' first
    | intro _
    | (extract_lets +onlyGivenNames sv; refine keeps_cut (t := sv) ?_ ?_; subst sv; rotate_left; clear_value sv; revert sv; intro _ _; rotate_left)
    | (extract_lets +onlyGivenNames dv; clear_value dv; revert dv; intro _) | with_reducible assumption
    | exact sub_trans rfl hw | with_reducible apply keeps_ite | with_reducible apply keeps_each
    | with_reducible apply keeps_setPeer | with_reducible apply keeps_confirmed | with_reducible apply keeps_cvFlush
    | with_reducible apply keeps_pairReady

theorem keeps_cvRetransmit {W : Nat} {s0 s : State} (k key : Nat) (hw : parts [.out, .frf, .net] ||| W = W)
    (hk : Keeps W s0 s) :
    Keeps W s0 (State.cvRetransmit s k key) := by
  unfold State.cvRetransmit
  repeat' first
    | intro _
    | (extract_lets +onlyGivenNames sv; refine keeps_cut (t := sv) ?_ ?_; subst sv; rotate_left; clear_value sv; revert sv; intro _ _; rotate_left)
    | (extract_lets +onlyGivenNames dv; clear_value dv; revert dv; intro _) | with_reducible assumption
    | exact sub_trans rfl hw | with_reducible apply keeps_ite | with_reducible apply keeps_each
    | with_reducible apply keeps_cvEmit | with_reducible apply keeps_emit | with_reducible apply keeps_setPeer | split

theorem keeps_heartbeats {W : Nat} {s0 s : State} (hw : parts [.net] ||| W = W) (hk : Keeps W s0 s) :
    Keeps W s0 (State.heartbeats s) := by
  unfold State.heartbeats
  repeat' first
    | intro _
    | (extract_lets +onlyGivenNames sv; refine keeps_cut (t := sv) ?_ ?_; subst sv; rotate_left; clear_value sv; revert sv; intro _ _; rotate_left)
    | (extract_lets +onlyGivenNames dv; clear_value dv; revert dv; intro _) | with_reducible assumption
    | with_reducible apply keeps_ite | with_reducible apply keeps_each | with_reducible apply keeps_queue7

theorem keeps_compareSlot {W : Nat} {s0 s : State} (dev epoch theirs : Nat)
    (hw : parts [.regs, .hif, .ras, .net] ||| W = W) (hk : Keeps W s0 s) :
    Keeps W s0 (State.compareSlot s dev epoch theirs) := by
  unfold State.compareSlot
  repeat' first
    | exact .inr (sub_trans rfl hw) | with_reducible exact .inl rfl
    | (extract_lets +onlyGivenNames sv; refine keeps_cut (t := sv) ?_ ?_; subst sv; rotate_left; clear_value sv; revert sv; intro _ _; rotate_left)
    | (extract_lets +onlyGivenNames dv; clear_value dv; revert dv; intro _) | with_reducible assumption
    | exact sub_trans rfl hw | with_reducible apply keeps_ite | with_reducible apply keeps_bump
    | with_reducible apply keeps_health | split | with_reducible apply keeps_mk

theorem keeps_takeBeat {W : Nat} {s0 s : State} (k port : Nat) (p : List Byte)
    (hw : parts [.regs, .hif, .ras, .net] ||| W = W) (hk : Keeps W s0 s) :
    Keeps W s0 (State.takeBeat s k port p) := by
  unfold State.takeBeat
  repeat' first
    | intro _
    | (extract_lets +onlyGivenNames sv; refine keeps_cut (t := sv) ?_ ?_; subst sv; rotate_left; clear_value sv; revert sv; intro _ _; rotate_left)
    | (extract_lets +onlyGivenNames dv; clear_value dv; revert dv; intro _) | with_reducible assumption
    | exact sub_trans rfl hw | with_reducible apply keeps_each | with_reducible apply keeps_setPeer
    | with_reducible apply keeps_put | with_reducible apply keeps_compareSlot

theorem keeps_endDissents {W : Nat} {s0 s : State} (c : Dissent → Bool) (hw : parts [.regs, .hif, .ras, .net] ||| W = W)
    (hk : Keeps W s0 s) :
    Keeps W s0 (State.endDissents s c) := by
  unfold State.endDissents
  repeat' first
    | exact .inr (sub_trans rfl hw) | with_reducible exact .inl rfl | intro _
    | (extract_lets +onlyGivenNames dv; clear_value dv; revert dv; intro _) | with_reducible assumption
    | exact sub_trans rfl hw | with_reducible apply keeps_each | with_reducible apply keeps_health
    | with_reducible apply keeps_mk

theorem keeps_dissentEnd {W : Nat} {s0 s : State} (dev epoch : Nat)
    (hw : parts [.time, .regs, .hif, .ras, .net] ||| W = W) (hk : Keeps W s0 s) :
    Keeps W s0 (State.dissentEnd s dev epoch) := by
  unfold State.dissentEnd
  repeat' first
    | with_reducible assumption | exact sub_trans rfl hw | with_reducible apply keeps_at
    | with_reducible apply keeps_endDissents | split

theorem keeps_peerLost {W : Nat} {s0 s : State} (k : Nat)
    (hw : parts [.regs, .out, .fresh, .hif, .ras, .mm, .hg, .frf, .fw, .sd, .cp, .aid, .net, .bud] ||| W = W)
    (hk : Keeps W s0 s) :
    Keeps W s0 (State.peerLost s k) := by
  unfold State.peerLost
  repeat' first
    | (extract_lets +onlyGivenNames sv; refine keeps_cut (t := sv) ?_ ?_; subst sv; rotate_left; clear_value sv; revert sv; intro _ _; rotate_left)
    | (extract_lets +onlyGivenNames dv; clear_value dv; revert dv; intro _) | with_reducible assumption
    | exact sub_trans rfl hw | with_reducible apply keeps_ite | with_reducible apply keeps_put
    | with_reducible apply keeps_countPeers | with_reducible apply keeps_health | with_reducible apply keeps_endDissents
    | with_reducible apply keeps_declareLost

theorem keeps_cvAuth {W : Nat} {s0 s : State} (k op : Nat) (nonce proof : List Byte) (hw : parts [.out] ||| W = W)
    (hk : Keeps W s0 s) :
    Keeps W s0 (State.cvAuth s k op nonce proof) := by
  unfold State.cvAuth
  repeat' first | with_reducible assumption | with_reducible apply keeps_cvEmit

theorem keeps_drawPeer {W : Nat} {s0 s : State} (k : Nat) (hw : parts [.fresh, .net] ||| W = W) (hk : Keeps W s0 s) :
    Keeps W s0 (State.drawPeer s k) := by
  unfold State.drawPeer
  repeat' first
    | (extract_lets +onlyGivenNames dv; clear_value dv; revert dv; intro _) | with_reducible assumption
    | exact sub_trans rfl hw | with_reducible apply keeps_setPeer | with_reducible apply keeps_tickBy

theorem keeps_challengePeer {W : Nat} {s0 s : State} (k : Nat) (hw : parts [.regs, .out, .fresh, .net] ||| W = W)
    (hk : Keeps W s0 s) :
    Keeps W s0 (State.challengePeer s k) := by
  unfold State.challengePeer
  repeat' first
    | (extract_lets +onlyGivenNames sv; refine keeps_cut (t := sv) ?_ ?_; subst sv; rotate_left; clear_value sv; revert sv; intro _ _; rotate_left)
    | with_reducible assumption | exact sub_trans rfl hw | with_reducible apply keeps_ite | with_reducible apply keeps_put
    | with_reducible apply keeps_drawPeer | with_reducible apply keeps_cvAuth

theorem keeps_authRetry {W : Nat} {s0 s : State} (k : Nat) (hw : parts [.net] ||| W = W) (hk : Keeps W s0 s) :
    Keeps W s0 (State.authRetry s k) := by
  unfold State.authRetry
  repeat' first | with_reducible assumption | with_reducible apply keeps_setPeer

theorem keeps_authReject {W : Nat} {s0 s : State} (k : Nat) (hw : parts [.regs, .out, .net, .sec] ||| W = W)
    (hk : Keeps W s0 s) :
    Keeps W s0 (State.authReject s k) := by
  unfold State.authReject
  repeat' first
    | with_reducible assumption | exact sub_trans rfl hw | with_reducible apply keeps_cvAuth
    | with_reducible apply keeps_proofFailed | with_reducible apply keeps_authRetry

theorem keeps_peerUpNow {W : Nat} {s0 s : State} (k theirs : Nat) (hw : parts [.regs, .hif, .ras, .net] ||| W = W)
    (hk : Keeps W s0 s) :
    Keeps W s0 (State.peerUpNow s k theirs) := by
  unfold State.peerUpNow
  repeat' first
    | (extract_lets +onlyGivenNames sv; refine keeps_cut (t := sv) ?_ ?_; subst sv; rotate_left; clear_value sv; revert sv; intro _ _; rotate_left)
    | (extract_lets +onlyGivenNames dv; clear_value dv; revert dv; intro _) | with_reducible assumption
    | exact sub_trans rfl hw | with_reducible apply keeps_setPeer | with_reducible apply keeps_put
    | with_reducible apply keeps_countPeers | with_reducible apply keeps_health

theorem keeps_authMessage {W : Nat} {s0 s : State} (k : Nat) (p : List Byte)
    (hw : parts [.regs, .out, .fresh, .hif, .ras, .net, .sec] ||| W = W) (hk : Keeps W s0 s) :
    Keeps W s0 (State.authMessage s k p) := by
  unfold State.authMessage
  repeat' first
    | (extract_lets +onlyGivenNames sv; refine keeps_cut (t := sv) ?_ ?_; subst sv; rotate_left; clear_value sv; revert sv; intro _ _; rotate_left)
    | (extract_lets +onlyGivenNames dv; clear_value dv; revert dv; intro _) | with_reducible assumption
    | exact sub_trans rfl hw | with_reducible apply keeps_ite | with_reducible apply keeps_drawPeer
    | with_reducible apply keeps_setPeer | with_reducible apply keeps_cvAuth | with_reducible apply keeps_peerUpNow
    | with_reducible apply keeps_authReject | with_reducible apply keeps_authRetry | split

theorem keeps_cvDrop {W : Nat} {s0 s : State} (hw : parts [.regs] ||| W = W) (hk : Keeps W s0 s) :
    Keeps W s0 (State.cvDrop s) := by
  unfold State.cvDrop
  repeat' first | with_reducible assumption | with_reducible apply keeps_put

theorem keeps_cvTake {W : Nat} {s0 s : State} (k port type : Nat) (p : List Byte) (r : PairReply)
    (hw : parts [.regs, .out, .fresh, .hif, .ras, .mm, .hg, .frf, .fw, .sd, .cp, .aid, .net, .bud, .adm] ||| W = W)
    (hk : Keeps W s0 s) :
    Keeps W s0 (State.cvTake s k port type p r) := by
  unfold State.cvTake
  repeat' first
    | (extract_lets +onlyGivenNames dv; clear_value dv; revert dv; intro _) | with_reducible assumption
    | exact sub_trans rfl hw | with_reducible apply keeps_ite | with_reducible apply keeps_holdEntry
    | with_reducible apply keeps_dropMirrored | with_reducible apply keeps_holdCkpt
    | with_reducible apply keeps_holdCommit | with_reducible apply keeps_pairMessage | with_reducible apply keeps_setBud
    | with_reducible apply keeps_declareLost | split

theorem keeps_culvertIn {W : Nat} {s0 s : State} (port : Nat) (m : Culvert)
    (hw : parts [.regs, .out, .fresh, .hif, .ras, .mm, .hg, .frf, .fw, .sd, .cp, .aid, .net, .bud, .sec, .adm] ||| W = W)
    (hk : Keeps W s0 s) :
    Keeps W s0 (State.culvertIn s port m) := by
  unfold State.culvertIn
  repeat' first
    | (extract_lets +onlyGivenNames sv; refine keeps_cut (t := sv) ?_ ?_; subst sv; rotate_left; clear_value sv; revert sv; intro _ _; rotate_left)
    | (extract_lets +onlyGivenNames dv; clear_value dv; revert dv; intro _) | with_reducible assumption
    | exact sub_trans rfl hw | with_reducible apply keeps_ite | with_reducible apply keeps_cvDrop
    | with_reducible apply keeps_authMessage | with_reducible apply keeps_takeBeat | with_reducible apply keeps_cvAck
    | with_reducible apply keeps_setPeer | with_reducible apply keeps_cvTake | with_reducible apply keeps_emit | split

/-! ### Machine/Bridge.lean -/

theorem keeps_learn {W : Nat} {s0 s : State} (p : Nat) (e : Eth) (hw : parts [.net] ||| W = W) (hk : Keeps W s0 s) :
    Keeps W s0 (State.learn s p e) := by
  unfold State.learn
  repeat' first
    | exact .inr (sub_trans rfl hw) | with_reducible exact .inl rfl
    | (extract_lets +onlyGivenNames dv; clear_value dv; revert dv; intro _) | with_reducible assumption
    | with_reducible apply keeps_ite | split | with_reducible apply keeps_mk

theorem keeps_sendOn {W : Nat} {s0 s : State} (e : Eth) (p : Nat) (hw : parts [.regs, .out] ||| W = W) (hk : Keeps W s0 s) :
    Keeps W s0 (State.sendOn s e p) := by
  unfold State.sendOn
  repeat' first
    | (extract_lets +onlyGivenNames dv; clear_value dv; revert dv; intro _) | with_reducible assumption
    | exact sub_trans rfl hw | with_reducible apply keeps_emit | with_reducible apply keeps_bump

theorem keeps_forward {W : Nat} {s0 s : State} (from' : Nat) (e : Eth) (hw : parts [.regs, .out] ||| W = W)
    (hk : Keeps W s0 s) :
    Keeps W s0 (State.forward s from' e) := by
  unfold State.forward
  repeat' first
    | intro _ | (extract_lets +onlyGivenNames fv; have _ : State → State := fv; subst fv) | with_reducible assumption
    | exact sub_trans rfl hw | with_reducible apply keeps_ite | with_reducible apply keeps_each
    | with_reducible apply keeps_bump | with_reducible apply keeps_sendOn | split

theorem keeps_ptpAnswer {W : Nat} {s0 s : State} (p : Nat) (b : List Byte) (hw : parts [.regs, .out, .net] ||| W = W)
    (hk : Keeps W s0 s) :
    Keeps W s0 (State.ptpAnswer s p b) := by
  unfold State.ptpAnswer
  repeat' first
    | (extract_lets +onlyGivenNames sv; refine keeps_cut (t := sv) ?_ ?_; subst sv; rotate_left; clear_value sv; revert sv; intro _ _; rotate_left)
    | (extract_lets +onlyGivenNames dv; clear_value dv; revert dv; intro _) | with_reducible assumption
    | exact sub_trans rfl hw | with_reducible apply keeps_ite | with_reducible apply keeps_emit
    | with_reducible apply keeps_bump | with_reducible apply keeps_stampTx

theorem keeps_announced {W : Nat} {s0 s : State} (hw : parts [.regs, .net] ||| W = W) (hk : Keeps W s0 s) :
    Keeps W s0 (State.announced s) := by
  unfold State.announced
  repeat' first
    | exact .inr (sub_trans rfl hw) | with_reducible exact .inl rfl
    | (extract_lets +onlyGivenNames sv; refine keeps_cut (t := sv) ?_ ?_; subst sv; rotate_left; clear_value sv; revert sv; intro _ _; rotate_left)
    | (extract_lets +onlyGivenNames dv; clear_value dv; revert dv; intro _) | with_reducible assumption
    | with_reducible apply keeps_sourceValid | with_reducible apply keeps_mk

theorem keeps_synced {W : Nat} {s0 s : State} (p : Nat) (off : Int) (hw : parts [.time, .regs, .fresh, .net] ||| W = W)
    (hk : Keeps W s0 s) :
    Keeps W s0 (State.synced s p off) := by
  unfold State.synced
  repeat' first
    | exact .inr (sub_trans rfl hw) | with_reducible exact .inl rfl
    | (extract_lets +onlyGivenNames sv; refine keeps_cut (t := sv) ?_ ?_; subst sv; rotate_left; clear_value sv; revert sv; intro _ _; rotate_left)
    | (extract_lets +onlyGivenNames dv; clear_value dv; revert dv; intro _) | with_reducible assumption
    | exact sub_trans rfl hw | with_reducible apply keeps_sourceValid | with_reducible apply keeps_put
    | with_reducible apply keeps_offsetSample | with_reducible apply keeps_mk

theorem keeps_ptpServo {W : Nat} {s0 s : State} (p : Nat) (w : PtpWork)
    (hw : parts [.time, .regs, .fresh, .net] ||| W = W) (hk : Keeps W s0 s) :
    Keeps W s0 (State.ptpServo s p w) := by
  unfold State.ptpServo
  repeat' first
    | (extract_lets +onlyGivenNames sv; refine keeps_cut (t := sv) ?_ ?_; subst sv; rotate_left; clear_value sv; revert sv; intro _ _; rotate_left)
    | with_reducible assumption | exact sub_trans rfl hw | with_reducible apply keeps_ite
    | with_reducible apply keeps_announced | with_reducible apply keeps_synced | split

theorem keeps_ptpIn {W : Nat} {s0 s : State} (p : Nat) (w : PtpWork)
    (hw : parts [.time, .regs, .out, .fresh, .net] ||| W = W) (hk : Keeps W s0 s) :
    Keeps W s0 (State.ptpIn s p w) := by
  unfold State.ptpIn
  repeat' first
    | (extract_lets +onlyGivenNames sv; refine keeps_cut (t := sv) ?_ ?_; subst sv; rotate_left; clear_value sv; revert sv; intro _ _; rotate_left)
    | with_reducible assumption | exact sub_trans rfl hw | with_reducible apply keeps_put
    | with_reducible apply keeps_ptpServo | with_reducible apply keeps_ptpAnswer | split

theorem keeps_mkaIn {W : Nat} {s0 s : State} (p : Nat) (w : MkaWork) (hw : parts [.regs, .out] ||| W = W)
    (hk : Keeps W s0 s) :
    Keeps W s0 (State.mkaIn s p w) := by
  unfold State.mkaIn
  repeat' first
    | (extract_lets +onlyGivenNames sv; refine keeps_cut (t := sv) ?_ ?_; subst sv; rotate_left; clear_value sv; revert sv; intro _ _; rotate_left)
    | with_reducible assumption | exact sub_trans rfl hw | with_reducible apply keeps_ite | with_reducible apply keeps_put
    | with_reducible apply keeps_emit | with_reducible apply keeps_bump

theorem keeps_rapsFrame {W : Nat} {s0 s : State} (p n side : Nat) (e : Eth) (hw : parts [.regs, .out, .net] ||| W = W)
    (hk : Keeps W s0 s) :
    Keeps W s0 (State.rapsFrame s p n side e) := by
  unfold State.rapsFrame
  repeat' first
    | (extract_lets +onlyGivenNames sv; refine keeps_cut (t := sv) ?_ ?_; subst sv; rotate_left; clear_value sv; revert sv; intro _ _; rotate_left)
    | (extract_lets +onlyGivenNames dv; clear_value dv; revert dv; intro _) | with_reducible assumption
    | exact sub_trans rfl hw | with_reducible apply keeps_ite | with_reducible apply keeps_rapsIn
    | with_reducible apply keeps_sendOn

theorem keeps_deliverFrame {W : Nat} {s0 s : State} (p : Nat) (e : Eth) (f : Frame)
    (hw : parts [.time, .regs, .out, .fresh, .hif, .ras, .mm, .hg, .frf, .fw, .sd, .cp, .aid, .net, .bud, .sec, .adm] ||| W = W)
    (hk : Keeps W s0 s) :
    Keeps W s0 (State.deliverFrame s p e f) := by
  unfold State.deliverFrame
  repeat' first
    | (extract_lets +onlyGivenNames sv; refine keeps_cut (t := sv) ?_ ?_; subst sv; rotate_left; clear_value sv; revert sv; intro _ _; rotate_left)
    | (extract_lets +onlyGivenNames dv; clear_value dv; revert dv; intro _) | with_reducible assumption
    | exact sub_trans rfl hw | with_reducible apply keeps_ite | with_reducible apply keeps_ptpIn
    | with_reducible apply keeps_rapsFrame | with_reducible apply keeps_mkaIn | with_reducible apply keeps_learn
    | with_reducible apply keeps_forward | with_reducible apply keeps_runnel | with_reducible apply keeps_culvertIn
    | with_reducible apply keeps_put | with_reducible apply keeps_emit | with_reducible apply keeps_bump | split

theorem keeps_frameIn {W : Nat} {s0 s : State} (p : Nat) (f : Frame)
    (hw : parts [.time, .regs, .out, .fresh, .hif, .ras, .mm, .hg, .frf, .fw, .sd, .cp, .aid, .net, .bud, .sec, .adm] ||| W = W)
    (hk : Keeps W s0 s) :
    Keeps W s0 (State.frameIn s p f) := by
  unfold State.frameIn
  repeat' first
    | (extract_lets +onlyGivenNames sv; refine keeps_cut (t := sv) ?_ ?_; subst sv; rotate_left; clear_value sv; revert sv; intro _ _; rotate_left)
    | (extract_lets +onlyGivenNames dv; clear_value dv; revert dv; intro _) | with_reducible assumption
    | exact sub_trans rfl hw | with_reducible apply keeps_ite | with_reducible apply keeps_bump
    | with_reducible apply keeps_deliverFrame

/-! ### Machine/Reliability.lean -/

theorem keeps_fatalError {W : Nat} {s0 s : State} (part index cond : Nat)
    (hw : parts [.regs, .out, .hif, .ras, .frf, .fw, .aid, .net, .sec] ||| W = W) (hk : Keeps W s0 s) :
    Keeps W s0 (State.fatalError s part index cond) := by
  unfold State.fatalError
  repeat' first | with_reducible assumption | with_reducible apply keeps_ite | with_reducible apply keeps_fatal

theorem keeps_spacingEnd {W : Nat} {s0 s : State} (hw : parts [.time, .regs, .hif, .ras] ||| W = W) (hk : Keeps W s0 s) :
    Keeps W s0 (State.spacingEnd s) := by
  unfold State.spacingEnd
  repeat' first
    | (extract_lets +onlyGivenNames dv; clear_value dv; revert dv; intro _) | with_reducible assumption
    | exact sub_trans rfl hw | with_reducible apply keeps_at | with_reducible apply keeps_endSusp | split

theorem keeps_mergeEnd {W : Nat} {s0 s : State} (part index : Nat)
    (hw : parts [.time, .regs, .out, .hif, .ras, .frf, .fw, .aid, .net, .sec] ||| W = W) (hk : Keeps W s0 s) :
    Keeps W s0 (State.mergeEnd s part index) := by
  unfold State.mergeEnd
  repeat' first
    | exact .inr (sub_trans rfl hw) | with_reducible exact .inl rfl
    | (extract_lets +onlyGivenNames sv; refine keeps_cut (t := sv) ?_ ?_; subst sv; rotate_left; clear_value sv; revert sv; intro _ _; rotate_left)
    | (extract_lets +onlyGivenNames dv; clear_value dv; revert dv; intro _) | with_reducible assumption
    | exact sub_trans rfl hw | with_reducible apply keeps_at | with_reducible apply keeps_errRecordAt | split
    | with_reducible apply keeps_mk

theorem keeps_busCommand {W : Nat} {s0 s : State} (desc data : List Byte)
    (hw : parts [.regs, .hif, .aid, .mbx, .sec] ||| W = W) (hk : Keeps W s0 s) :
    Keeps W s0 (State.busCommand s desc data) := by
  unfold State.busCommand
  repeat' first
    | exact .inr (sub_trans rfl hw) | with_reducible exact .inl rfl
    | (extract_lets +onlyGivenNames sv; refine keeps_cut (t := sv) ?_ ?_; subst sv; rotate_left; clear_value sv; revert sv; intro _ _; rotate_left)
    | (extract_lets +onlyGivenNames dv; clear_value dv; revert dv; intro _) | with_reducible assumption
    | exact sub_trans rfl hw | with_reducible apply keeps_ite | with_reducible apply keeps_takeDescriptor
    | with_reducible apply keeps_mk

theorem keeps_busTimeout {W : Nat} {s0 s : State} (hw : parts [.time, .regs, .sec] ||| W = W) (hk : Keeps W s0 s) :
    Keeps W s0 (State.busTimeout s) := by
  unfold State.busTimeout
  repeat' first
    | with_reducible assumption | exact sub_trans rfl hw | with_reducible apply keeps_at
    | with_reducible apply keeps_closeSessions | split

/-! ### Machine/Idle.lean -/

theorem keeps_tick {W : Nat} {s0 s : State} (hw : parts [.time, .frac] ||| W = W) (hk : Keeps W s0 s) :
    Keeps W s0 (State.tick s) := by
  unfold State.tick
  repeat' first
    | exact .inr (sub_trans rfl hw) | with_reducible exact .inl rfl
    | (extract_lets +onlyGivenNames dv; clear_value dv; revert dv; intro _) | with_reducible assumption
    | with_reducible apply keeps_ite | with_reducible apply keeps_mk

theorem keeps_idle {W : Nat} {s0 s : State} (hw : parts [.time, .frac, .regs, .hif, .aon] ||| W = W) (hk : Keeps W s0 s) :
    Keeps W s0 (State.idle s) := by
  unfold State.idle
  repeat' first
    | with_reducible assumption | exact sub_trans rfl hw | with_reducible apply keeps_tick
    | with_reducible apply keeps_entryNext

end Sys2Proof.Machine
end

