-- ==== Sys2Proof/Laws/Moves.lean ====
section
/-!
SUPPORT. Every meaning answers a next state that keeps what no command changes and changes the named parts alone
(`Moves`, Safety): one lemma per meaning.
-/

namespace Sys2Proof.Machine

/-! ### Machine/Memory.lean -/

theorem moves_execPatrolScrub (t addr : Nat) (ecc : Ecc) (s : State) :
    Moves (parts [.time, .regs, .mem, .out, .hif, .ras, .mm, .frf, .fw, .sd, .aid, .net, .sec]) s (execPatrolScrub t addr ecc s) := by
  unfold execPatrolScrub
  repeat' first
    | rfl | with_reducible apply moves_next | with_reducible apply keeps_ite | with_reducible apply keeps_at
    | with_reducible apply keeps_scrub | with_reducible exact keeps_refl

theorem moves_execDramRefresh (t : Nat) (temp : Int) (s : State) :
    Moves (parts [.time, .regs, .mm]) s (execDramRefresh t temp s) := by
  unfold execDramRefresh
  repeat' first
    | rfl | with_reducible apply moves_next | with_reducible apply keeps_at | with_reducible apply keeps_refresh
    | with_reducible exact keeps_refl

theorem moves_execPseudoChannelFail (t pc cond : Nat) (s : State) :
    Moves (parts [.time, .regs, .mem, .out, .hif, .ras, .mm, .frf, .fw, .sd, .aid, .net, .sec]) s (execPseudoChannelFail t pc cond s) := by
  unfold execPseudoChannelFail
  repeat' first
    | rfl | with_reducible apply moves_next | with_reducible apply keeps_at | with_reducible apply keeps_pcFail
    | with_reducible exact keeps_refl

theorem moves_execMemRgnCommit (t req region val : Nat) (s : State) :
    Moves (parts [.time, .regs, .shadow, .groups, .aid, .mbx]) s (execMemRgnCommit t req region val s) := by
  unfold execMemRgnCommit
  repeat' first
    | intro _ | with_reducible assumption | rfl | with_reducible apply moves_next | with_reducible apply keeps_at
    | with_reducible apply keeps_asReq | with_reducible apply keeps_memRgnCommit | with_reducible exact keeps_refl

theorem moves_execLinkFail (t link : Nat) (s : State) :
    Moves (parts [.time, .regs, .out, .hif, .ras, .mm, .frf, .fw, .aid, .net, .sec]) s (execLinkFail t link s) := by
  unfold execLinkFail
  repeat' first
    | rfl | with_reducible apply moves_next | with_reducible apply keeps_at | with_reducible apply keeps_linkDown
    | with_reducible exact keeps_refl

theorem moves_execCanalFlit (t link : Nat) (flit : Flit) (s : State) :
    Moves (parts [.time, .regs, .out, .hif, .ras, .mm, .frf, .fw, .aid, .net, .sec]) s (execCanalFlit t link flit s) := by
  unfold execCanalFlit
  repeat' first
    | rfl | with_reducible apply moves_next | with_reducible apply keeps_ite | with_reducible apply keeps_at
    | with_reducible apply keeps_canalFlit | with_reducible exact keeps_refl

theorem moves_execSqWrite (t queue agent : Nat) (mark : Mark) (word : List Byte) (s : State) :
    Moves (parts [.time, .regs, .out, .mm]) s (execSqWrite t queue agent mark word s) := by
  unfold execSqWrite
  repeat' first
    | rfl | with_reducible apply moves_next | with_reducible apply keeps_ite | with_reducible apply keeps_at
    | with_reducible apply keeps_sqWrite | with_reducible exact keeps_refl

theorem moves_execSqRead (t queue agent : Nat) (s : State) :
    Moves (parts [.time, .out, .mm]) s (execSqRead t queue agent s) := by
  unfold execSqRead
  repeat' first
    | rfl | with_reducible apply moves_next | with_reducible apply keeps_ite | with_reducible apply keeps_at
    | with_reducible apply keeps_sqRead | with_reducible exact keeps_refl

theorem moves_execQueueReset (t queue : Nat) (cause : ResetCause) (s : State) :
    Moves (parts [.time, .regs, .out, .hif, .ras, .mm, .frf, .fw, .aid, .net, .sec]) s (execQueueReset t queue cause s) := by
  unfold execQueueReset
  repeat' first
    | rfl | with_reducible apply moves_next | with_reducible apply keeps_at | with_reducible apply keeps_sqReset
    | with_reducible exact keeps_refl

theorem moves_execSqQCommit (t req val : Nat) (s : State) :
    Moves (parts [.time, .regs, .shadow, .groups, .mm, .aid, .mbx]) s (execSqQCommit t req val s) := by
  unfold execSqQCommit
  repeat' first
    | intro _ | with_reducible assumption | rfl | with_reducible apply moves_next | with_reducible apply keeps_at
    | with_reducible apply keeps_asReq | with_reducible apply keeps_sqQCommit | with_reducible exact keeps_refl

/-! ### Machine/Hif.lean -/

theorem moves_execDoorbellSnoop (t block : Nat) (recs : List Nat) (xlate : Bool) (s : State) :
    Moves (parts [.time, .regs, .out, .hif, .ras, .hg, .frf, .fw, .aid, .net, .sec]) s (execDoorbellSnoop t block recs xlate s) := by
  unfold execDoorbellSnoop
  repeat' first
    | rfl | with_reducible apply moves_next | with_reducible apply keeps_ite | with_reducible apply keeps_at
    | with_reducible apply keeps_readLine | with_reducible exact keeps_refl

theorem moves_execDoorbellPoll (t block : Nat) (recs : List Nat) (xlate : Bool) (s : State) :
    Moves (parts [.time, .regs, .out, .hif, .ras, .hg, .frf, .fw, .aid, .net, .sec]) s (execDoorbellPoll t block recs xlate s) := by
  unfold execDoorbellPoll
  repeat' first
    | rfl | with_reducible apply moves_next | with_reducible apply keeps_ite | with_reducible apply keeps_at
    | with_reducible apply keeps_readLine | with_reducible exact keeps_refl

theorem moves_execWatchReread (t block : Nat) (recs : List Nat) (s : State) :
    Moves (parts [.time, .regs, .out, .hif, .ras, .hg, .frf, .fw, .aid, .net, .sec]) s (execWatchReread t block recs s) := by
  unfold execWatchReread
  repeat' first
    | rfl | with_reducible apply moves_next | with_reducible apply keeps_ite | with_reducible apply keeps_at
    | with_reducible apply keeps_readLine | with_reducible exact keeps_refl

theorem moves_execNudge (t fn off : Nat) (recs : List Nat) (s : State) :
    Moves (parts [.time, .regs, .out, .hif, .ras, .hg, .frf, .fw, .aid, .net, .sec]) s (execNudge t fn off recs s) := by
  unfold execNudge
  repeat' first
    | rfl | with_reducible apply moves_next | with_reducible apply keeps_at | with_reducible apply keeps_nudgeWrite
    | with_reducible exact keeps_refl

theorem moves_execCoalescingTime (ring : Nat) (s : State) :
    Moves (parts [.time, .out, .hif]) s (execCoalescingTime ring s) := by
  unfold execCoalescingTime
  repeat' first
    | rfl | with_reducible apply moves_next | with_reducible apply keeps_coalesced | with_reducible exact keeps_refl

theorem moves_execMsixUnmask (t fn vec : Nat) (masked : Bool) (s : State) :
    Moves (parts [.time, .out, .hif]) s (execMsixUnmask t fn vec masked s) := by
  unfold execMsixUnmask
  repeat' first
    | rfl | with_reducible apply moves_next | with_reducible apply keeps_at | with_reducible apply keeps_msixMask
    | with_reducible exact keeps_refl

theorem moves_execLinkDown (t : Nat) (s : State) :
    Moves (parts [.time, .regs, .hif]) s (execLinkDown t s) := by
  unfold execLinkDown
  repeat' first
    | exact .inr rfl | with_reducible exact .inl rfl
    | (extract_lets +onlyGivenNames sv; refine moves_cut (t := sv) ?_ ?_; subst sv; rotate_left; clear_value sv; revert sv; intro _ _; rotate_left)
    | (extract_lets +onlyGivenNames dv; clear_value dv; revert dv; intro _) | with_reducible assumption | rfl
    | with_reducible apply moves_next | with_reducible apply keeps_at | with_reducible apply keeps_put
    | with_reducible exact keeps_refl | with_reducible apply keeps_mk

theorem moves_execLinkRetrain (t speed width : Nat) (s : State) :
    Moves (parts [.time, .regs, .aid]) s (execLinkRetrain t speed width s) := by
  unfold execLinkRetrain
  repeat' first
    | rfl | with_reducible apply moves_next | with_reducible apply keeps_ite | with_reducible apply keeps_at
    | with_reducible apply keeps_linkTrained | with_reducible exact keeps_refl

theorem moves_execHifFnCommit (t req fn val : Nat) (s : State) :
    Moves (parts [.time, .regs, .shadow, .groups, .aid, .mbx]) s (execHifFnCommit t req fn val s) := by
  unfold execHifFnCommit
  repeat' first
    | intro _ | with_reducible assumption | rfl | with_reducible apply moves_next | with_reducible apply keeps_at
    | with_reducible apply keeps_asReq | with_reducible apply keeps_hifFnCommit | with_reducible exact keeps_refl

theorem moves_execHifFnAdmCommit (t req fn val : Nat) (s : State) :
    Moves (parts [.time, .regs, .shadow, .groups, .out, .hif, .frf, .aid, .mbx, .net, .bud]) s (execHifFnAdmCommit t req fn val s) := by
  unfold execHifFnAdmCommit
  repeat' first
    | intro _ | with_reducible assumption | rfl | with_reducible apply moves_next | with_reducible apply keeps_at
    | with_reducible apply keeps_asReq | with_reducible apply keeps_hifAdmCommit | with_reducible apply keeps_mirrorConfig
    | with_reducible exact keeps_refl

/-! ### Machine/Mailbox.lean -/

theorem moves_execMbxCfg (t req mbx val : Nat) (s : State) :
    Moves (parts [.time, .regs, .aid, .mbx]) s (execMbxCfg t req mbx val s) := by
  unfold execMbxCfg
  repeat' first
    | intro _ | with_reducible assumption | rfl | with_reducible apply moves_next | with_reducible apply keeps_at
    | with_reducible apply keeps_asReq | with_reducible apply keeps_mbxCfg | with_reducible exact keeps_refl

theorem moves_execMbxSend (t req mbx val : Nat) (s : State) :
    Moves (parts [.time, .regs, .aid, .mbx]) s (execMbxSend t req mbx val s) := by
  unfold execMbxSend
  repeat' first
    | intro _ | with_reducible assumption | rfl | with_reducible apply moves_next | with_reducible apply keeps_at
    | with_reducible apply keeps_asReq | with_reducible apply keeps_mbxSend | with_reducible exact keeps_refl

theorem moves_execMbxRecv (t req mbx : Nat) (s : State) :
    Moves (parts [.time, .regs, .out, .aid, .mbx]) s (execMbxRecv t req mbx s) := by
  unfold execMbxRecv
  repeat' first
    | intro _ | with_reducible assumption | rfl | with_reducible apply moves_next | with_reducible apply keeps_at
    | with_reducible apply keeps_asReader | with_reducible apply keeps_mbxRecv | with_reducible exact keeps_refl

theorem moves_execMbxDbRing (t req mbx val : Nat) (s : State) :
    Moves (parts [.time, .regs, .out, .hif, .aid, .mbx]) s (execMbxDbRing t req mbx val s) := by
  unfold execMbxDbRing
  repeat' first
    | intro _ | with_reducible assumption | rfl | with_reducible apply moves_next | with_reducible apply keeps_at
    | with_reducible apply keeps_asReq | with_reducible apply keeps_mbxRing | with_reducible exact keeps_refl

theorem moves_execLckAcquireRead (t req lock : Nat) (s : State) :
    Moves (parts [.time, .regs, .out, .aid, .mbx]) s (execLckAcquireRead t req lock s) := by
  unfold execLckAcquireRead
  repeat' first
    | intro _ | with_reducible assumption | rfl | with_reducible apply moves_next | with_reducible apply keeps_at
    | with_reducible apply keeps_asReader | with_reducible apply keeps_lockRead | with_reducible exact keeps_refl

theorem moves_execLckReleaseWrite (t req lock val : Nat) (s : State) :
    Moves (parts [.time, .regs, .aid, .mbx]) s (execLckReleaseWrite t req lock val s) := by
  unfold execLckReleaseWrite
  repeat' first
    | intro _ | with_reducible assumption | rfl | with_reducible apply moves_next | with_reducible apply keeps_at
    | with_reducible apply keeps_asReq | with_reducible apply keeps_lockWrite | with_reducible exact keeps_refl

theorem moves_execLckForce (t req val : Nat) (s : State) :
    Moves (parts [.time, .regs, .aid, .mbx]) s (execLckForce t req val s) := by
  unfold execLckForce
  repeat' first
    | intro _ | with_reducible assumption | rfl | with_reducible apply moves_next | with_reducible apply keeps_at
    | with_reducible apply keeps_asReq | with_reducible apply keeps_lockForce | with_reducible exact keeps_refl

/-! ### Machine/Frf.lean -/

theorem moves_execFrfBinPass (s : State) :
    Moves (parts [.time, .regs, .shadow, .groups, .frf]) s (execFrfBinPass s) := by
  unfold execFrfBinPass
  repeat' first
    | rfl | with_reducible apply moves_next | with_reducible apply keeps_frfBinPass | with_reducible exact keeps_refl

theorem moves_execFrfSwitchInstant (s : State) :
    Moves (parts [.time, .regs, .shadow, .groups, .frf]) s (execFrfSwitchInstant s) := by
  unfold execFrfSwitchInstant
  repeat' first
    | rfl | with_reducible apply moves_next | with_reducible apply keeps_frfSwitchInstant
    | with_reducible exact keeps_refl

theorem moves_execFrfDwellBoundary (s : State) :
    Moves (parts [.time, .regs, .shadow, .groups, .frf]) s (execFrfDwellBoundary s) := by
  unfold execFrfDwellBoundary
  repeat' first
    | rfl | with_reducible apply moves_next | with_reducible apply keeps_frfDwellBoundary
    | with_reducible exact keeps_refl

theorem moves_execFrfDetectorWindowEnd (lane : Nat) (s : State) :
    Moves (parts [.time, .regs, .frf]) s (execFrfDetectorWindowEnd lane s) := by
  unfold execFrfDetectorWindowEnd
  repeat' first
    | rfl | with_reducible apply moves_next | with_reducible apply keeps_windowEnd | with_reducible exact keeps_refl

theorem moves_execFrfFoldDecision (lane : Nat) (s : State) :
    Moves (parts [.time, .regs, .hif, .frf]) s (execFrfFoldDecision lane s) := by
  unfold execFrfFoldDecision
  repeat' first
    | rfl | with_reducible apply moves_next | with_reducible apply keeps_foldDecision | with_reducible exact keeps_refl

theorem moves_execFrfMaskUpdate (s : State) :
    Moves (parts [.time, .regs, .hif, .frf]) s (execFrfMaskUpdate s) := by
  unfold execFrfMaskUpdate
  repeat' first
    | rfl | with_reducible apply moves_next | with_reducible apply keeps_frfMaskUpdate | with_reducible exact keeps_refl

theorem moves_execFrfMaskTakeEffect (entry : Nat) (s : State) :
    Moves (parts [.time, .frf]) s (execFrfMaskTakeEffect entry s) := by
  unfold execFrfMaskTakeEffect
  repeat' first
    | rfl | with_reducible apply moves_next | with_reducible apply keeps_frfMaskTakeEffect
    | with_reducible exact keeps_refl

theorem moves_execFrfMaskExpiry (entry : Nat) (s : State) :
    Moves (parts [.time, .regs, .hif, .frf]) s (execFrfMaskExpiry entry s) := by
  unfold execFrfMaskExpiry
  repeat' first
    | rfl | with_reducible apply moves_next | with_reducible apply keeps_frfMaskExpiry | with_reducible exact keeps_refl

theorem moves_execFrfMaskData1 (t req val : Nat) (s : State) :
    Moves (parts [.time, .regs, .hif, .frf, .aid, .mbx]) s (execFrfMaskData1 t req val s) := by
  unfold execFrfMaskData1
  repeat' first
    | intro _ | with_reducible assumption | rfl | with_reducible apply moves_next | with_reducible apply keeps_at
    | with_reducible apply keeps_asReq | with_reducible apply keeps_frfMaskData1 | with_reducible exact keeps_refl

theorem moves_execFrfCoefData (t req val : Nat) (s : State) :
    Moves (parts [.time, .regs, .frf, .aid, .mbx]) s (execFrfCoefData t req val s) := by
  unfold execFrfCoefData
  repeat' first
    | intro _ | with_reducible assumption | rfl | with_reducible apply moves_next | with_reducible apply keeps_at
    | with_reducible apply keeps_asReq | with_reducible apply keeps_frfCoefData | with_reducible exact keeps_refl

theorem moves_execFrfLaneSwap (t req lane val : Nat) (s : State) :
    Moves (parts [.time, .regs, .frf, .aid, .mbx]) s (execFrfLaneSwap t req lane val s) := by
  unfold execFrfLaneSwap
  repeat' first
    | intro _ | with_reducible assumption | rfl | with_reducible apply moves_next | with_reducible apply keeps_at
    | with_reducible apply keeps_asReq | with_reducible apply keeps_frfLaneSwap | with_reducible exact keeps_refl

theorem moves_execFadeEnd (lane : Nat) (s : State) :
    Moves (parts [.regs, .frf]) s (execFadeEnd lane s) := by
  unfold execFadeEnd
  repeat' first
    | rfl | with_reducible apply moves_next | with_reducible apply keeps_fadeEnd | with_reducible exact keeps_refl

theorem moves_execFrfSync (t req val : Nat) (s : State) :
    Moves (parts [.time, .regs, .frf, .aid, .mbx]) s (execFrfSync t req val s) := by
  unfold execFrfSync
  repeat' first
    | intro _ | with_reducible assumption | rfl | with_reducible apply moves_next | with_reducible apply keeps_at
    | with_reducible apply keeps_asReq | with_reducible apply keeps_frfSync | with_reducible exact keeps_refl

theorem moves_execFrfGlbCommit (t req val : Nat) (s : State) :
    Moves (parts [.time, .regs, .shadow, .groups, .frf, .aid, .mbx]) s (execFrfGlbCommit t req val s) := by
  unfold execFrfGlbCommit
  repeat' first
    | intro _ | with_reducible assumption | rfl | with_reducible apply moves_next | with_reducible apply keeps_at
    | with_reducible apply keeps_asReq | with_reducible apply keeps_frfGlbCommit | with_reducible exact keeps_refl

theorem moves_execFrfLaneCommit (t req lane val : Nat) (s : State) :
    Moves (parts [.time, .regs, .shadow, .groups, .frf, .aid, .mbx]) s (execFrfLaneCommit t req lane val s) := by
  unfold execFrfLaneCommit
  repeat' first
    | intro _ | with_reducible assumption | rfl | with_reducible apply moves_next | with_reducible apply keeps_at
    | with_reducible apply keeps_asReq | with_reducible apply keeps_frfLaneCommit | with_reducible exact keeps_refl

/-! ### Machine/Furrow.lean -/

theorem moves_execSpikePacket (t packet : Nat) (s : State) :
    Moves (parts [.time, .regs, .mem, .mm, .fw]) s (execSpikePacket t packet s) := by
  unfold execSpikePacket
  repeat' first
    | rfl | with_reducible apply moves_next | with_reducible apply keeps_at | with_reducible apply keeps_packetIn
    | with_reducible exact keeps_refl

theorem moves_execStepMarker (t packet : Nat) (s : State) :
    Moves (parts [.time, .regs, .mem, .mm, .fw]) s (execStepMarker t packet s) := by
  unfold execStepMarker
  repeat' first
    | rfl | with_reducible apply moves_next | with_reducible apply keeps_at | with_reducible apply keeps_packetIn
    | with_reducible exact keeps_refl

theorem moves_execGatewayMarker (t gateway stream step : Nat) (s : State) :
    Moves (parts [.time, .fw]) s (execGatewayMarker t gateway stream step s) := by
  unfold execGatewayMarker
  repeat' first
    | rfl | with_reducible apply moves_next | with_reducible apply keeps_at | with_reducible apply keeps_gatewayMark
    | with_reducible exact keeps_refl

theorem moves_execStepEnd (t core : Nat) (s : State) :
    Moves (parts [.time, .regs, .mem, .mm, .fw]) s (execStepEnd t core s) := by
  unfold execStepEnd
  repeat' first
    | (extract_lets +onlyGivenNames sv; refine moves_cut (t := sv) ?_ ?_; subst sv; rotate_left; clear_value sv; revert sv; intro _ _; rotate_left)
    | with_reducible assumption | rfl | with_reducible apply moves_next | with_reducible apply keeps_ite
    | with_reducible apply keeps_at | with_reducible apply keeps_endStep | with_reducible exact keeps_refl

theorem moves_execStepDeadline (core : Nat) (s : State) :
    Moves (parts [.time, .regs, .mem, .mm, .fw]) s (execStepDeadline core s) := by
  unfold execStepDeadline
  repeat' first
    | rfl | with_reducible apply moves_next | with_reducible apply keeps_startStretch | with_reducible exact keeps_refl

theorem moves_execStretchExpiry (core : Nat) (s : State) :
    Moves (parts [.time, .regs, .mem, .mm, .fw]) s (execStretchExpiry core s) := by
  unfold execStretchExpiry
  repeat' first
    | rfl | with_reducible apply moves_next | with_reducible apply keeps_endStretch | with_reducible exact keeps_refl

theorem moves_execCountFrame (t pop : Nat) (s : State) :
    Moves (parts [.time, .regs, .mem, .out, .hif, .ras, .mm, .frf, .fw, .sd, .aid, .net, .sec]) s (execCountFrame t pop s) := by
  unfold execCountFrame
  repeat' first
    | rfl | with_reducible apply moves_next | with_reducible apply keeps_at | with_reducible apply keeps_countFrame
    | with_reducible exact keeps_refl

theorem moves_execFurrowCoreFault (t core cond : Nat) (s : State) :
    Moves (parts [.time, .regs, .mem, .out, .fresh, .hif, .ras, .mm, .frf, .fw, .aid, .net, .sec, .adm]) s (execFurrowCoreFault t core cond s) := by
  unfold execFurrowCoreFault
  repeat' first
    | rfl | with_reducible apply moves_next | with_reducible apply keeps_at | with_reducible apply keeps_coreFail
    | with_reducible exact keeps_refl

theorem moves_execFwGlbCommit (t req val : Nat) (s : State) :
    Moves (parts [.time, .regs, .shadow, .groups, .fw, .aid, .mbx]) s (execFwGlbCommit t req val s) := by
  unfold execFwGlbCommit
  repeat' first
    | intro _ | with_reducible assumption | rfl | with_reducible apply moves_next | with_reducible apply keeps_at
    | with_reducible apply keeps_asReq | with_reducible apply keeps_fwGlbCommit | with_reducible exact keeps_refl

theorem moves_execFwCoreCommit (t req core val : Nat) (s : State) :
    Moves (parts [.time, .regs, .shadow, .groups, .fw, .aid, .mbx]) s (execFwCoreCommit t req core val s) := by
  unfold execFwCoreCommit
  repeat' first
    | intro _ | with_reducible assumption | rfl | with_reducible apply moves_next | with_reducible apply keeps_at
    | with_reducible apply keeps_asReq | with_reducible apply keeps_fwCoreCommit | with_reducible exact keeps_refl

theorem moves_execFwMapCommit (t req stream val : Nat) (s : State) :
    Moves (parts [.time, .regs, .shadow, .groups, .out, .frf, .aid, .mbx, .net, .bud]) s (execFwMapCommit t req stream val s) := by
  unfold execFwMapCommit
  repeat' first
    | intro _ | with_reducible assumption | rfl | with_reducible apply moves_next | with_reducible apply keeps_at
    | with_reducible apply keeps_asReq | with_reducible apply keeps_fwMapCommit | with_reducible apply keeps_mirrorConfig
    | with_reducible exact keeps_refl

theorem moves_execFwPopCommit (t req pop val : Nat) (s : State) :
    Moves (parts [.time, .regs, .shadow, .groups, .aid, .mbx]) s (execFwPopCommit t req pop val s) := by
  unfold execFwPopCommit
  repeat' first
    | intro _ | with_reducible assumption | rfl | with_reducible apply moves_next | with_reducible apply keeps_at
    | with_reducible apply keeps_asReq | with_reducible apply keeps_fwPopCommit | with_reducible exact keeps_refl

theorem moves_execFwTblData (t req val : Nat) (s : State) :
    Moves (parts [.time, .regs, .fw, .aid, .mbx]) s (execFwTblData t req val s) := by
  unfold execFwTblData
  repeat' first
    | intro _ | with_reducible assumption | rfl | with_reducible apply moves_next | with_reducible apply keeps_at
    | with_reducible apply keeps_asReq | with_reducible apply keeps_fwTblWrite | with_reducible exact keeps_refl

/-! ### Machine/Headgate.lean -/

theorem moves_execTrackedFit (stream : Nat) (s : State) :
    Moves (parts [.hg]) s (execTrackedFit stream s) := by
  unfold execTrackedFit
  repeat' first
    | rfl | with_reducible apply moves_next | with_reducible apply keeps_trackedFit | with_reducible exact keeps_refl

theorem moves_execJournalWriteComplete (t stream seq : Nat) (s : State) :
    Moves (parts [.time, .regs, .out, .fresh, .hif, .ras, .mm, .hg, .frf, .fw, .sd, .aid]) s (execJournalWriteComplete t stream seq s) := by
  unfold execJournalWriteComplete
  repeat' first
    | rfl | with_reducible apply moves_next | with_reducible apply keeps_at | with_reducible apply keeps_journalled
    | with_reducible exact keeps_refl

theorem moves_execMirrorConfirmation (t stream seq : Nat) (s : State) :
    Moves (parts [.time, .regs, .out, .fresh, .hif, .ras, .mm, .hg, .frf, .fw, .sd, .aid]) s (execMirrorConfirmation t stream seq s) := by
  unfold execMirrorConfirmation
  repeat' first
    | rfl | with_reducible apply moves_next | with_reducible apply keeps_at | with_reducible apply keeps_setEntry
    | with_reducible apply keeps_ackAll | with_reducible exact keeps_refl

theorem moves_execMirrorTmo (stream seq : Nat) (s : State) :
    Moves (parts [.time, .regs]) s (execMirrorTmo stream seq s) := by
  unfold execMirrorTmo
  repeat' first
    | rfl | with_reducible apply moves_next | with_reducible apply keeps_mirrorLate | with_reducible exact keeps_refl

theorem moves_execRunnelBatch (t port src sport : Nat) (payload : List Byte) (s : State) :
    Moves (parts [.time, .regs, .out, .hg, .frf, .net]) s (execRunnelBatch t port src sport payload s) := by
  unfold execRunnelBatch
  repeat' first
    | rfl | with_reducible apply moves_next | with_reducible apply keeps_at | with_reducible apply keeps_runnel
    | with_reducible exact keeps_refl

theorem moves_execGapAckRepeat (stream : Nat) (s : State) :
    Moves (parts [.time, .out, .hg]) s (execGapAckRepeat stream s) := by
  unfold execGapAckRepeat
  repeat' first
    | rfl | with_reducible apply moves_next | with_reducible apply keeps_gapRepeat | with_reducible exact keeps_refl

theorem moves_execHeldBatchDrop (stream seq : Nat) (s : State) :
    Moves (parts [.time, .regs, .hg]) s (execHeldBatchDrop stream seq s) := by
  unfold execHeldBatchDrop
  repeat' first
    | rfl | with_reducible apply moves_next | with_reducible apply keeps_dropHeld | with_reducible exact keeps_refl

theorem moves_execSliceGuardExpiry (stream : Nat) (s : State) :
    Moves (parts [.time, .regs, .out, .fresh, .hif, .ras, .mm, .hg, .sd]) s (execSliceGuardExpiry stream s) := by
  unfold execSliceGuardExpiry
  repeat' first
    | rfl | with_reducible apply moves_next | with_reducible apply keeps_guardExpiry | with_reducible exact keeps_refl

theorem moves_execHgGlbCommit (t req val : Nat) (s : State) :
    Moves (parts [.time, .regs, .shadow, .groups, .aid, .mbx]) s (execHgGlbCommit t req val s) := by
  unfold execHgGlbCommit
  repeat' first
    | intro _ | with_reducible assumption | rfl | with_reducible apply moves_next | with_reducible apply keeps_at
    | with_reducible apply keeps_asReq | with_reducible apply keeps_hgGlbCommit | with_reducible exact keeps_refl

theorem moves_execHgStreamCommit (t req stream val : Nat) (s : State) :
    Moves (parts [.time, .regs, .shadow, .groups, .out, .hif, .ras, .hg, .frf, .sd, .aid, .mbx, .net, .bud]) s (execHgStreamCommit t req stream val s) := by
  unfold execHgStreamCommit
  repeat' first
    | intro _ | with_reducible assumption | rfl | with_reducible apply moves_next | with_reducible apply keeps_at
    | with_reducible apply keeps_asReq | with_reducible apply keeps_hgStreamCommit
    | with_reducible apply keeps_mirrorConfig | with_reducible exact keeps_refl

/-! ### Machine/Stand.lean -/

/-- Publishing changes registers and halos; an SRAM error that it corrects is reported as well. -/
theorem moves_execHaloPublish (t tile consumer layer stream k : Nat) (corrected : Bool) (s : State) :
    Moves (parts [.time, .regs, .out, .hif, .ras, .frf, .fw, .sd, .aid, .net, .sec]) s
      (execHaloPublish t tile consumer layer stream k corrected s) := by
  unfold execHaloPublish
  repeat' first
    | rfl | with_reducible apply moves_next | with_reducible apply keeps_haloPublish | with_reducible apply keeps_ite
    | with_reducible apply keeps_sramCorrected | with_reducible apply keeps_at | with_reducible exact keeps_refl

theorem moves_execHaloPublish_clean (t tile consumer layer stream k : Nat) (s : State) :
    Moves (parts [.time, .regs, .sd]) s (execHaloPublish t tile consumer layer stream k false s) := by
  have e : execHaloPublish t tile consumer layer stream k false s =
      .next ((s.at t).haloPublish tile consumer layer stream k) := rfl
  rw [e]
  repeat' first
    | rfl | with_reducible apply moves_next | with_reducible apply keeps_at | with_reducible apply keeps_haloPublish
    | with_reducible exact keeps_refl

theorem moves_execTileFault (t tile cond : Nat) (s : State) :
    Moves (parts [.time, .regs, .shadow, .groups, .out, .hif, .ras, .frf, .fw, .sd, .aid, .mbx, .net, .sec, .adm]) s (execTileFault t tile cond s) := by
  unfold execTileFault
  repeat' first
    | rfl | with_reducible apply moves_next | with_reducible apply keeps_at | with_reducible apply keeps_tileFail
    | with_reducible exact keeps_refl

theorem moves_execGroupRemapComplete (t group : Nat) (s : State) :
    Moves (parts [.time, .regs, .hif, .ras, .sd]) s (execGroupRemapComplete t group s) := by
  unfold execGroupRemapComplete
  repeat' first
    | rfl | with_reducible apply moves_next | with_reducible apply keeps_at | with_reducible apply keeps_remapDone
    | with_reducible exact keeps_refl

theorem moves_execLayerBoundary (t tile : Nat) (run : LayerRun) (s : State) :
    Moves (parts [.time, .regs, .shadow, .groups, .mem, .out, .fresh, .hif, .ras, .mm, .frf, .fw, .sd, .aid, .mbx, .net, .sec, .adm]) s (execLayerBoundary t tile run s) := by
  unfold execLayerBoundary
  repeat' first
    | rfl | with_reducible apply moves_next | with_reducible apply keeps_at | with_reducible apply keeps_layerBoundary
    | with_reducible exact keeps_refl

theorem moves_execStCommit (t req tile val : Nat) (s : State) :
    Moves (parts [.time, .regs, .shadow, .groups, .aid, .mbx]) s (execStCommit t req tile val s) := by
  unfold execStCommit
  repeat' first
    | intro _ | with_reducible assumption | rfl | with_reducible apply moves_next | with_reducible apply keeps_at
    | with_reducible apply keeps_asReq | with_reducible apply keeps_stCommit | with_reducible exact keeps_refl

/-! ### Machine/Coppice.lean -/

theorem moves_execFeatureArrival (t : Nat) (word0 word1 : List Byte) (s : State) :
    Moves (parts [.time, .regs, .shadow, .groups, .out, .mm, .hg, .sd, .cp]) s (execFeatureArrival t word0 word1 s) := by
  unfold execFeatureArrival
  repeat' first
    | rfl | with_reducible apply moves_next | with_reducible apply keeps_at | with_reducible apply keeps_featureArrival
    | with_reducible exact keeps_refl

theorem moves_execInstantOpenTimeout (group : Nat) (s : State) :
    Moves (parts [.time, .regs, .shadow, .groups, .hg, .cp]) s (execInstantOpenTimeout group s) := by
  unfold execInstantOpenTimeout
  repeat' first
    | rfl | with_reducible apply moves_next | with_reducible apply keeps_openTimeout | with_reducible exact keeps_refl

theorem moves_execInstantExpiry (group : Nat) (s : State) :
    Moves (parts [.time, .regs, .hg, .cp]) s (execInstantExpiry group s) := by
  unfold execInstantExpiry
  repeat' first
    | rfl | with_reducible apply moves_next | with_reducible apply keeps_instantExpiry | with_reducible exact keeps_refl

theorem moves_execFusionComplete (t group : Nat) (fused : Fused) (s : State) :
    Moves (parts [.time, .regs, .mem, .out, .fresh, .hif, .ras, .mm, .hg, .frf, .img, .cp, .net]) s (execFusionComplete t group fused s) := by
  unfold execFusionComplete
  repeat' first
    | rfl | with_reducible apply moves_next | with_reducible apply keeps_at | with_reducible apply keeps_fuse
    | with_reducible exact keeps_refl

theorem moves_execSlotCheckpointComplete (t group : Nat) (s : State) :
    Moves (parts [.time, .regs, .mem, .out, .ras, .mm, .hg, .frf, .cp, .net]) s (execSlotCheckpointComplete t group s) := by
  unfold execSlotCheckpointComplete
  repeat' first
    | rfl | with_reducible apply moves_next | with_reducible apply keeps_at | with_reducible apply keeps_checkpoint
    | with_reducible exact keeps_refl

theorem moves_execCpGlbCommit (t req val : Nat) (s : State) :
    Moves (parts [.time, .regs, .shadow, .groups, .aid, .mbx]) s (execCpGlbCommit t req val s) := by
  unfold execCpGlbCommit
  repeat' first
    | intro _ | with_reducible assumption | rfl | with_reducible apply moves_next | with_reducible apply keeps_at
    | with_reducible apply keeps_asReq | with_reducible apply keeps_cpGlbCommit | with_reducible exact keeps_refl

theorem moves_execCpGrpCommit (t req group val : Nat) (s : State) :
    Moves (parts [.time, .regs, .shadow, .groups, .mem, .out, .ras, .mm, .frf, .cp, .aid, .mbx, .net, .bud]) s (execCpGrpCommit t req group val s) := by
  unfold execCpGrpCommit
  repeat' first
    | intro _ | with_reducible assumption | rfl | with_reducible apply moves_next | with_reducible apply keeps_at
    | with_reducible apply keeps_asReq | with_reducible apply keeps_cpGrpCommit | with_reducible apply keeps_mirrorConfig
    | with_reducible exact keeps_refl

theorem moves_execCpMbrCommit (t req stream val : Nat) (s : State) :
    Moves (parts [.time, .regs, .shadow, .groups, .out, .frf, .aid, .mbx, .net, .bud]) s (execCpMbrCommit t req stream val s) := by
  unfold execCpMbrCommit
  repeat' first
    | intro _ | with_reducible assumption | rfl | with_reducible apply moves_next | with_reducible apply keeps_at
    | with_reducible apply keeps_asReq | with_reducible apply keeps_cpMbrCommit | with_reducible apply keeps_mirrorConfig
    | with_reducible exact keeps_refl

/-! ### Machine/NetTime.lean -/

theorem moves_execWaitToRestore (inst : Nat) (s : State) :
    Moves (parts [.time, .regs, .out, .net]) s (execWaitToRestore inst s) := by
  unfold execWaitToRestore
  repeat' first
    | rfl | with_reducible apply moves_next | with_reducible apply keeps_waitToRestore | with_reducible exact keeps_refl

theorem moves_execGuardTimer (inst : Nat) (s : State) :
    Moves (parts [.time, .net]) s (execGuardTimer inst s) := by
  unfold execGuardTimer
  repeat' first
    | rfl | with_reducible apply moves_next | with_reducible apply keeps_guardEnd | with_reducible exact keeps_refl

theorem moves_execPortFail (t port : Nat) (s : State) :
    Moves (parts [.time, .regs, .out, .hif, .ras, .frf, .fw, .aid, .net, .sec]) s (execPortFail t port s) := by
  unfold execPortFail
  repeat' first
    | rfl | with_reducible apply moves_next | with_reducible apply keeps_at | with_reducible apply keeps_portFail
    | with_reducible exact keeps_refl

theorem moves_execPortReturn (t port : Nat) (s : State) :
    Moves (parts [.time, .regs, .out, .hif, .ras, .net]) s (execPortReturn t port s) := by
  unfold execPortReturn
  repeat' first
    | rfl | with_reducible apply moves_next | with_reducible apply keeps_at | with_reducible apply keeps_portReturn
    | with_reducible exact keeps_refl

theorem moves_execPortLinkUp (t port : Nat) (s : State) :
    Moves (parts [.time, .regs]) s (execPortLinkUp t port s) := by
  unfold execPortLinkUp
  repeat' first
    | rfl | with_reducible apply moves_next | with_reducible apply keeps_at | with_reducible apply keeps_portLinkUp
    | with_reducible exact keeps_refl

theorem moves_execNetPortTxtsId (t req port : Nat) (s : State) :
    Moves (parts [.time, .regs, .out, .aid, .mbx, .net]) s (execNetPortTxtsId t req port s) := by
  unfold execNetPortTxtsId
  repeat' first
    | intro _ | with_reducible assumption | rfl | with_reducible apply moves_next | with_reducible apply keeps_at
    | with_reducible apply keeps_asReader | with_reducible apply keeps_popTxts | with_reducible exact keeps_refl

theorem moves_execLaunch (t port : Nat) (s : State) :
    Moves (parts [.time, .regs, .out, .hif, .ras, .hg, .frf, .cp, .net]) s (execLaunch t port s) := by
  unfold execLaunch
  repeat' first
    | rfl | with_reducible apply moves_next | with_reducible apply keeps_at | with_reducible apply keeps_launch
    | with_reducible exact keeps_refl

theorem moves_execTimNow (t req : Nat) (s : State) :
    Moves (parts [.time, .regs, .out, .aid, .mbx]) s (execTimNow t req s) := by
  unfold execTimNow
  repeat' first
    | intro _ | with_reducible assumption | rfl | with_reducible apply moves_next | with_reducible apply keeps_at
    | with_reducible apply keeps_asReader | with_reducible apply keeps_readTime | with_reducible exact keeps_refl

theorem moves_execSourceTimeout (t : Nat) (s : State) :
    Moves (parts [.time, .regs, .net]) s (execSourceTimeout t s) := by
  unfold execSourceTimeout
  repeat' first
    | rfl | with_reducible apply moves_next | with_reducible apply keeps_ite | with_reducible apply keeps_at
    | with_reducible apply keeps_sourceLost | with_reducible exact keeps_refl

theorem moves_execHoldoverLimit (s : State) :
    Moves (parts [.time, .regs, .net]) s (execHoldoverLimit s) := by
  unfold execHoldoverLimit
  repeat' first
    | rfl | with_reducible apply moves_next | with_reducible apply keeps_holdoverLimit | with_reducible exact keeps_refl

theorem moves_execPpsIn (t : Nat) (s : State) :
    Moves (parts [.time, .regs, .fresh, .net]) s (execPpsIn t s) := by
  unfold execPpsIn
  repeat' first
    | rfl | with_reducible apply moves_next | with_reducible apply keeps_at | with_reducible apply keeps_ppsIn
    | with_reducible exact keeps_refl

theorem moves_execPpsOut (s : State) :
    Moves (parts [.time, .out, .net]) s (execPpsOut s) := by
  unfold execPpsOut
  repeat' first
    | rfl | with_reducible apply moves_next | with_reducible apply keeps_ppsOut | with_reducible exact keeps_refl

theorem moves_execPpsOutFall (s : State) :
    Moves (parts [.time, .out, .net]) s (execPpsOutFall s) := by
  unfold execPpsOutFall
  repeat' first
    | rfl | with_reducible apply moves_next | with_reducible apply keeps_ppsOutFall | with_reducible exact keeps_refl

theorem moves_execNetFdbData (t req val : Nat) (s : State) :
    Moves (parts [.time, .regs, .aid, .mbx, .net]) s (execNetFdbData t req val s) := by
  unfold execNetFdbData
  repeat' first
    | intro _ | with_reducible assumption | rfl | with_reducible apply moves_next | with_reducible apply keeps_at
    | with_reducible apply keeps_asReq | with_reducible apply keeps_fdbData | with_reducible exact keeps_refl

theorem moves_execFdbAgeing (t index : Nat) (s : State) :
    Moves (parts [.time, .net]) s (execFdbAgeing t index s) := by
  unfold execFdbAgeing
  repeat' first
    | rfl | with_reducible apply moves_next | with_reducible apply keeps_at | with_reducible apply keeps_fdbAge
    | with_reducible exact keeps_refl

theorem moves_execNetGlbCommit (t req val : Nat) (s : State) :
    Moves (parts [.time, .regs, .shadow, .groups, .aid, .mbx]) s (execNetGlbCommit t req val s) := by
  unfold execNetGlbCommit
  repeat' first
    | intro _ | with_reducible assumption | rfl | with_reducible apply moves_next | with_reducible apply keeps_at
    | with_reducible apply keeps_asReq | with_reducible apply keeps_netGlbCommit | with_reducible exact keeps_refl

theorem moves_execNetPortCommit (t req port val : Nat) (s : State) :
    Moves (parts [.time, .regs, .shadow, .groups, .aid, .mbx]) s (execNetPortCommit t req port val s) := by
  unfold execNetPortCommit
  repeat' first
    | intro _ | with_reducible assumption | rfl | with_reducible apply moves_next | with_reducible apply keeps_at
    | with_reducible apply keeps_asReq | with_reducible apply keeps_netPortCommit | with_reducible exact keeps_refl

theorem moves_execNetExpCommit (t req queue val : Nat) (s : State) :
    Moves (parts [.time, .regs, .shadow, .groups, .out, .hif, .ras, .frf, .aid, .mbx, .net, .bud]) s (execNetExpCommit t req queue val s) := by
  unfold execNetExpCommit
  repeat' first
    | intro _ | with_reducible assumption | rfl | with_reducible apply moves_next | with_reducible apply keeps_at
    | with_reducible apply keeps_asReq | with_reducible apply keeps_netExpCommit | with_reducible apply keeps_mirrorConfig
    | with_reducible exact keeps_refl

theorem moves_execNetPeerCommit (t req peer val : Nat) (s : State) :
    Moves (parts [.time, .regs, .shadow, .groups, .aid, .mbx]) s (execNetPeerCommit t req peer val s) := by
  unfold execNetPeerCommit
  repeat' first
    | intro _ | with_reducible assumption | rfl | with_reducible apply moves_next | with_reducible apply keeps_at
    | with_reducible apply keeps_asReq | with_reducible apply keeps_netPeerCommit | with_reducible exact keeps_refl

theorem moves_execTimCommit (t req val : Nat) (s : State) :
    Moves (parts [.time, .regs, .shadow, .groups, .aid, .mbx]) s (execTimCommit t req val s) := by
  unfold execTimCommit
  repeat' first
    | intro _ | with_reducible assumption | rfl | with_reducible apply moves_next | with_reducible apply keeps_at
    | with_reducible apply keeps_asReq | with_reducible apply keeps_timCommit | with_reducible exact keeps_refl

/-! ### Machine/Admission.lean -/

theorem moves_execFloorLower (t : Nat) (s : State) :
    Moves (parts [.time, .regs, .fresh, .hif, .ras, .aid, .adm]) s (execFloorLower t s) := by
  unfold execFloorLower
  repeat' first
    | rfl | with_reducible apply moves_next | with_reducible apply keeps_at | with_reducible apply keeps_floorLower
    | with_reducible exact keeps_refl

theorem moves_execReadmission (t : Nat) (s : State) :
    Moves (parts [.time, .regs, .fresh, .hif, .ras, .aid, .adm]) s (execReadmission t s) := by
  unfold execReadmission
  repeat' first
    | rfl | with_reducible apply moves_next | with_reducible apply keeps_at | with_reducible apply keeps_recompute
    | with_reducible exact keeps_refl

theorem moves_execCapacityRelease (t stream : Nat) (s : State) :
    Moves (parts [.time, .regs, .hif, .ras, .sd, .aid, .adm]) s (execCapacityRelease t stream s) := by
  unfold execCapacityRelease
  repeat' first
    | rfl | with_reducible apply moves_next | with_reducible apply keeps_at | with_reducible apply keeps_capacityRelease
    | with_reducible exact keeps_refl

theorem moves_execCoppiceUnitFault (t unit cond : Nat) (s : State) :
    Moves (parts [.time, .regs, .out, .hif, .ras, .frf, .fw, .cp, .aid, .net, .sec, .adm]) s (execCoppiceUnitFault t unit cond s) := by
  unfold execCoppiceUnitFault
  repeat' first
    | rfl | with_reducible apply moves_next | with_reducible apply keeps_at | with_reducible apply keeps_unitFail
    | with_reducible exact keeps_refl

/-! ### Machine/Models.lean -/

theorem moves_execModelLoad (t : Nat) (cmd : CmdRef) (image : Image) (s : State) :
    Moves (parts [.time, .regs, .mem, .out, .fresh, .hif, .mm, .frf, .fw, .img, .aid, .mbx, .net, .bud]) s (execModelLoad t cmd image s) := by
  unfold execModelLoad
  repeat' first
    | intro _ | with_reducible assumption | rfl | with_reducible apply moves_next | with_reducible apply keeps_at
    | with_reducible apply keeps_command | with_reducible apply keeps_modelLoad | with_reducible exact keeps_refl

theorem moves_execModelActivate (t : Nat) (cmd : CmdRef) (s : State) :
    Moves (parts [.time, .out, .hif, .frf, .img, .aid, .mbx, .net, .bud]) s (execModelActivate t cmd s) := by
  unfold execModelActivate
  repeat' first
    | intro _ | with_reducible assumption | rfl | with_reducible apply moves_next | with_reducible apply keeps_at
    | with_reducible apply keeps_command | with_reducible apply keeps_modelActivate | with_reducible exact keeps_refl

theorem moves_execModelActivateCancel (t : Nat) (cmd : CmdRef) (s : State) :
    Moves (parts [.time, .out, .hif, .frf, .img, .aid, .mbx, .net, .bud]) s (execModelActivateCancel t cmd s) := by
  unfold execModelActivateCancel
  repeat' first
    | intro _ | with_reducible assumption | rfl | with_reducible apply moves_next | with_reducible apply keeps_at
    | with_reducible apply keeps_command | with_reducible apply keeps_modelCancel | with_reducible exact keeps_refl

theorem moves_execActivationSwitch (t slot : Nat) (s : State) :
    Moves (parts [.time, .regs, .hif, .fw, .sd, .img, .aid, .built]) s (execActivationSwitch t slot s) := by
  unfold execActivationSwitch
  repeat' first
    | (extract_lets +onlyGivenNames sv; refine moves_cut (t := sv) ?_ ?_; subst sv; rotate_left; clear_value sv; revert sv; intro _ _; rotate_left)
    | with_reducible assumption | rfl | with_reducible apply moves_next | with_reducible apply keeps_ite
    | with_reducible apply keeps_at | with_reducible apply keeps_activationSwitch | split
    | with_reducible exact keeps_refl

theorem moves_execModelUnload (t : Nat) (cmd : CmdRef) (s : State) :
    Moves (parts [.time, .regs, .out, .hif, .frf, .img, .aid, .mbx, .net, .bud]) s (execModelUnload t cmd s) := by
  unfold execModelUnload
  repeat' first
    | intro _ | with_reducible assumption | rfl | with_reducible apply moves_next | with_reducible apply keeps_at
    | with_reducible apply keeps_command | with_reducible apply keeps_modelUnload | with_reducible exact keeps_refl

theorem moves_execModelQuery (t : Nat) (cmd : CmdRef) (s : State) :
    Moves (parts [.time, .out, .hif, .frf, .aid, .mbx, .net, .bud]) s (execModelQuery t cmd s) := by
  unfold execModelQuery
  repeat' first
    | intro _ | with_reducible assumption | rfl | with_reducible apply moves_next | with_reducible apply keeps_at
    | with_reducible apply keeps_command | with_reducible apply keeps_completeOut | with_reducible exact keeps_refl

/-! ### Machine/Streams.lean -/

theorem moves_execStreamOpen (t : Nat) (cmd : CmdRef) (s : State) :
    Moves (parts [.time, .regs, .shadow, .groups, .out, .fresh, .hif, .ras, .mm, .hg, .frf, .fw, .sd, .img, .aid, .built, .mbx, .net, .bud, .adm]) s (execStreamOpen t cmd s) := by
  unfold execStreamOpen
  repeat' first
    | intro _ | with_reducible assumption | rfl | with_reducible apply moves_next | with_reducible apply keeps_at
    | with_reducible apply keeps_command | with_reducible apply keeps_streamOpen | with_reducible exact keeps_refl

theorem moves_execStreamModify (t : Nat) (cmd : CmdRef) (s : State) :
    Moves (parts [.time, .regs, .shadow, .groups, .out, .fresh, .hif, .ras, .hg, .frf, .sd, .aid, .built, .mbx, .net, .bud, .adm]) s (execStreamModify t cmd s) := by
  unfold execStreamModify
  repeat' first
    | intro _ | with_reducible assumption | rfl | with_reducible apply moves_next | with_reducible apply keeps_at
    | with_reducible apply keeps_command | with_reducible apply keeps_streamModify | with_reducible exact keeps_refl

theorem moves_execStreamClose (t : Nat) (cmd : CmdRef) (s : State) :
    Moves (parts [.time, .regs, .shadow, .groups, .out, .hif, .ras, .hg, .frf, .sd, .aid, .mbx, .net, .bud]) s (execStreamClose t cmd s) := by
  unfold execStreamClose
  repeat' first
    | intro _ | with_reducible assumption | rfl | with_reducible apply moves_next | with_reducible apply keeps_at
    | with_reducible apply keeps_command | with_reducible apply keeps_streamClose | with_reducible exact keeps_refl

theorem moves_execGroupSet (t : Nat) (cmd : CmdRef) (s : State) :
    Moves (parts [.time, .regs, .shadow, .groups, .mem, .out, .hif, .ras, .mm, .frf, .img, .cp, .aid, .mbx, .net, .bud]) s (execGroupSet t cmd s) := by
  unfold execGroupSet
  repeat' first
    | intro _ | with_reducible assumption | rfl | with_reducible apply moves_next | with_reducible apply keeps_at
    | with_reducible apply keeps_command | with_reducible apply keeps_groupSet | with_reducible exact keeps_refl

theorem moves_execClassSet (t : Nat) (cmd : CmdRef) (s : State) :
    Moves (parts [.time, .out, .hif, .ras, .frf, .aid, .mbx, .net, .bud, .adm]) s (execClassSet t cmd s) := by
  unfold execClassSet
  repeat' first
    | intro _ | with_reducible assumption | rfl | with_reducible apply moves_next | with_reducible apply keeps_at
    | with_reducible apply keeps_command | with_reducible apply keeps_classSet | with_reducible exact keeps_refl

/-! ### Machine/Rings.lean -/

theorem moves_execDescriptorFetch (t ring : Nat) (descs : List (List Byte)) (xlate : Bool) (s : State) :
    Moves (parts [.time, .regs, .out, .hif, .ras, .frf, .fw, .aid, .mbx, .net, .sec]) s (execDescriptorFetch t ring descs xlate s) := by
  unfold execDescriptorFetch
  repeat' first
    | rfl | with_reducible apply moves_next | with_reducible apply keeps_at | with_reducible apply keeps_fetch
    | with_reducible exact keeps_refl

theorem moves_execInjectionDescriptor (t ring : Nat) (buffer : List Byte) (s : State) :
    Moves (parts [.time, .regs, .out, .hif, .hg, .frf, .aid, .net]) s (execInjectionDescriptor t ring buffer s) := by
  unfold execInjectionDescriptor
  repeat' first
    | rfl | with_reducible apply moves_next | with_reducible apply keeps_at | with_reducible apply keeps_readInjection
    | with_reducible exact keeps_refl

theorem moves_execRunWrite (t ring : Nat) (xlate : Bool) (s : State) :
    Moves (parts [.time, .regs, .out, .fresh, .hif, .ras, .mm, .hg, .frf, .fw, .sd, .cp, .aid, .net, .sec]) s (execRunWrite t ring xlate s) := by
  unfold execRunWrite
  repeat' first
    | rfl | with_reducible apply moves_next | with_reducible apply keeps_at | with_reducible apply keeps_runWritten
    | with_reducible exact keeps_refl

theorem moves_execLinkUp (t speed width : Nat) (cxl : Bool) (host : List HostRead) (s : State) :
    Moves (parts [.time, .regs, .out, .fresh, .hif, .ras, .mm, .hg, .frf, .fw, .sd, .cp, .aid, .net]) s (execLinkUp t speed width cxl host s) := by
  unfold execLinkUp
  repeat' first
    | exact .inr rfl | with_reducible exact .inl rfl | intro _
    | (extract_lets +onlyGivenNames sv; refine moves_cut (t := sv) ?_ ?_; subst sv; rotate_left; clear_value sv; revert sv; intro _ _; rotate_left)
    | (extract_lets +onlyGivenNames dv; clear_value dv; revert dv; intro _) | with_reducible assumption | rfl
    | with_reducible apply moves_next | with_reducible apply keeps_each | with_reducible apply keeps_at
    | with_reducible apply keeps_put | with_reducible apply keeps_linkTrained | with_reducible apply keeps_readBack
    | with_reducible exact keeps_refl | with_reducible apply keeps_mk

theorem moves_execRingCreate (t : Nat) (cmd : CmdRef) (s : State) :
    Moves (parts [.time, .regs, .out, .hif, .frf, .aid, .mbx, .net, .bud]) s (execRingCreate t cmd s) := by
  unfold execRingCreate
  repeat' first
    | intro _ | with_reducible assumption | rfl | with_reducible apply moves_next | with_reducible apply keeps_at
    | with_reducible apply keeps_command | with_reducible apply keeps_ringCreate | with_reducible exact keeps_refl

theorem moves_execRingDestroy (t : Nat) (cmd : CmdRef) (s : State) :
    Moves (parts [.time, .regs, .out, .hif, .frf, .aid, .mbx, .net, .bud]) s (execRingDestroy t cmd s) := by
  unfold execRingDestroy
  repeat' first
    | intro _ | with_reducible assumption | rfl | with_reducible apply moves_next | with_reducible apply keeps_at
    | with_reducible apply keeps_command | with_reducible apply keeps_ringDestroy | with_reducible exact keeps_refl

theorem moves_execRingAttach (t : Nat) (cmd : CmdRef) (s : State) :
    Moves (parts [.time, .out, .hif, .frf, .aid, .mbx, .net, .bud]) s (execRingAttach t cmd s) := by
  unfold execRingAttach
  repeat' first
    | intro _ | with_reducible assumption | rfl | with_reducible apply moves_next | with_reducible apply keeps_at
    | with_reducible apply keeps_command | with_reducible apply keeps_ringAttach | with_reducible exact keeps_refl

theorem moves_execFlr (t fn : Nat) (s : State) :
    Moves (parts [.time, .regs, .shadow, .groups, .out, .hif, .ras, .hg, .frf, .mbx, .net, .sec]) s (execFlr t fn s) := by
  unfold execFlr
  repeat' first
    | rfl | with_reducible apply moves_next | with_reducible apply keeps_ite | with_reducible apply keeps_at
    | with_reducible apply keeps_flr | with_reducible exact keeps_refl

/-! ### Machine/Sessions.lean -/

theorem moves_execSessionChallenge (t : Nat) (cmd : CmdRef) (s : State) :
    Moves (parts [.time, .out, .fresh, .hif, .frf, .aid, .mbx, .net, .bud, .sec]) s (execSessionChallenge t cmd s) := by
  unfold execSessionChallenge
  repeat' first
    | intro _ | with_reducible assumption | rfl | with_reducible apply moves_next | with_reducible apply keeps_at
    | with_reducible apply keeps_command | with_reducible apply keeps_sessionChallenge | with_reducible exact keeps_refl

theorem moves_execSessionOpen (t : Nat) (cmd : CmdRef) (s : State) :
    Moves (parts [.time, .regs, .out, .fresh, .hif, .frf, .aid, .mbx, .net, .bud, .sec]) s (execSessionOpen t cmd s) := by
  unfold execSessionOpen
  repeat' first
    | intro _ | with_reducible assumption | rfl | with_reducible apply moves_next | with_reducible apply keeps_at
    | with_reducible apply keeps_command | with_reducible apply keeps_sessionOpen | with_reducible exact keeps_refl

theorem moves_execSessionClose (t : Nat) (cmd : CmdRef) (s : State) :
    Moves (parts [.time, .regs, .out, .hif, .frf, .aid, .mbx, .net, .bud, .sec]) s (execSessionClose t cmd s) := by
  unfold execSessionClose
  repeat' first
    | intro _ | with_reducible assumption | rfl | with_reducible apply moves_next | with_reducible apply keeps_at
    | with_reducible apply keeps_command | with_reducible apply keeps_sessionClose | with_reducible exact keeps_refl

theorem moves_execKeyProvision (t : Nat) (cmd : CmdRef) (s : State) :
    Moves (parts [.time, .regs, .out, .hif, .frf, .aid, .mbx, .net, .bud, .sec]) s (execKeyProvision t cmd s) := by
  unfold execKeyProvision
  repeat' first
    | intro _ | with_reducible assumption | rfl | with_reducible apply moves_next | with_reducible apply keeps_at
    | with_reducible apply keeps_command | with_reducible apply keeps_keyProvision | with_reducible exact keeps_refl

/-! ### Machine/Registers.lean -/

theorem moves_execPendingCommitApply (t commit : Nat) (s : State) :
    Moves (parts [.time, .regs, .shadow, .groups, .mem, .out, .ras, .mm, .hg, .frf, .cp, .net, .bud]) s (execPendingCommitApply t commit s) := by
  unfold execPendingCommitApply
  repeat' first
    | rfl | with_reducible apply moves_next | with_reducible apply keeps_at | with_reducible apply keeps_pendingApply
    | with_reducible apply keeps_mirrorConfig | with_reducible exact keeps_refl

theorem moves_execClaimLapsed (commit : Nat) (s : State) :
    Moves (parts [.time, .regs, .shadow, .groups]) s (execClaimLapsed commit s) := by
  unfold execClaimLapsed
  repeat' first
    | rfl | with_reducible apply moves_next | with_reducible apply keeps_claimLapse | with_reducible exact keeps_refl

theorem moves_execRegisterWrite (t fn req off size val : Nat) (s : State) :
    Moves (parts [.time, .regs, .shadow, .groups, .mem, .out, .hif, .ras, .mm, .hg, .frf, .fw, .sd, .cp, .aid, .mbx, .net, .bud, .sec]) s (execRegisterWrite t fn req off size val s) := by
  unfold execRegisterWrite
  repeat' first
    | intro _ | with_reducible assumption | rfl | with_reducible apply moves_next | with_reducible apply keeps_ite
    | with_reducible apply keeps_at | with_reducible apply keeps_asReq | with_reducible apply keeps_writeReg
    | with_reducible apply keeps_vfWrite | with_reducible apply keeps_mirrorConfig | with_reducible exact keeps_refl

theorem moves_execSetupLock (t req val : Nat) (s : State) :
    Moves (parts [.time, .regs, .shadow, .groups, .mem, .out, .hif, .ras, .mm, .hg, .frf, .fw, .sd, .cp, .aid, .mbx, .net, .sec]) s (execSetupLock t req val s) := by
  unfold execSetupLock
  repeat' first
    | intro _ | with_reducible assumption | rfl | with_reducible apply moves_next | with_reducible apply keeps_at
    | with_reducible apply keeps_asReq | with_reducible apply keeps_writeReg | with_reducible exact keeps_refl

theorem moves_execSysShadowDiscard (t req val : Nat) (s : State) :
    Moves (parts [.time, .regs, .shadow, .groups, .mem, .out, .hif, .ras, .mm, .hg, .frf, .fw, .sd, .cp, .aid, .mbx, .net, .sec]) s (execSysShadowDiscard t req val s) := by
  unfold execSysShadowDiscard
  repeat' first
    | intro _ | with_reducible assumption | rfl | with_reducible apply moves_next | with_reducible apply keeps_at
    | with_reducible apply keeps_asReq | with_reducible apply keeps_writeReg | with_reducible exact keeps_refl

/-! ### Machine/Power.lean -/

theorem moves_execDvfsRequest (t : Nat) (s : State) :
    Moves (parts [.time, .regs, .shadow, .groups, .mem, .out, .fresh, .hif, .ras, .mm, .hg, .frf, .sd, .img, .cp, .aid, .built, .adm, .pow]) s (execDvfsRequest t s) := by
  unfold execDvfsRequest
  repeat' first
    | rfl | with_reducible apply moves_next | with_reducible apply keeps_at | with_reducible apply keeps_dvfsRequest
    | with_reducible exact keeps_refl

theorem moves_execAvsVoltageRead (t mv : Nat) (s : State) :
    Moves (parts [.time, .regs, .pow]) s (execAvsVoltageRead t mv s) := by
  unfold execAvsVoltageRead
  repeat' first
    | rfl | with_reducible apply moves_next | with_reducible apply keeps_at | with_reducible apply keeps_voltageRead
    | with_reducible exact keeps_refl

theorem moves_execPgoodHold (t : Nat) (s : State) :
    Moves (parts [.time, .regs, .shadow, .groups, .mem, .fresh, .hif, .ras, .mm, .hg, .frf, .sd, .img, .cp, .aid, .built, .adm, .pow]) s (execPgoodHold t s) := by
  unfold execPgoodHold
  repeat' first
    | rfl | with_reducible apply moves_next | with_reducible apply keeps_at | with_reducible apply keeps_holdEnd
    | with_reducible exact keeps_refl

theorem moves_execRaiseTimeout (s : State) :
    Moves (parts [.time, .regs, .shadow, .groups, .mem, .out, .fresh, .hif, .ras, .mm, .hg, .frf, .sd, .img, .cp, .aid, .built, .adm, .pow]) s (execRaiseTimeout s) := by
  unfold execRaiseTimeout
  repeat' first
    | rfl | with_reducible apply moves_next | with_reducible apply keeps_raiseTimeout | with_reducible exact keeps_refl

theorem moves_execPowerEmergency (t : Nat) (s : State) :
    Moves (parts [.time, .regs, .shadow, .groups, .mem, .out, .fresh, .hif, .ras, .mm, .hg, .frf, .sd, .img, .cp, .aid, .built, .adm, .pow]) s (execPowerEmergency t s) := by
  unfold execPowerEmergency
  repeat' first
    | rfl | with_reducible apply moves_next | with_reducible apply keeps_at | with_reducible apply keeps_powerEmergency
    | with_reducible exact keeps_refl

theorem moves_execPowerEmergencyEnd (t : Nat) (s : State) :
    Moves (parts [.time, .regs, .pow]) s (execPowerEmergencyEnd t s) := by
  unfold execPowerEmergencyEnd
  repeat' first
    | rfl | with_reducible apply moves_next | with_reducible apply keeps_at | with_reducible apply keeps_powerEmergencyEnd
    | with_reducible exact keeps_refl

theorem moves_execPowerSet (t : Nat) (cmd : CmdRef) (s : State) :
    Moves (parts [.time, .out, .hif, .frf, .aid, .mbx, .net, .bud]) s (execPowerSet t cmd s) := by
  unfold execPowerSet
  repeat' first
    | intro _ | with_reducible assumption | rfl | with_reducible apply moves_next | with_reducible apply keeps_at
    | with_reducible apply keeps_command | with_reducible apply keeps_powerSet | with_reducible exact keeps_refl

theorem moves_execPowerCapDecision (t mw : Nat) (s : State) :
    Moves (parts [.time, .regs, .shadow, .groups, .mem, .out, .fresh, .hif, .ras, .mm, .hg, .frf, .sd, .img, .cp, .aid, .built, .adm, .pow]) s (execPowerCapDecision t mw s) := by
  unfold execPowerCapDecision
  repeat' first
    | rfl | with_reducible apply moves_next | with_reducible apply keeps_at | with_reducible apply keeps_capDecision
    | with_reducible exact keeps_refl

theorem moves_execThermalSample (t : Nat) (temps : List Int) (s : State) :
    Moves (parts [.time, .regs, .shadow, .groups, .mem, .out, .fresh, .hif, .ras, .mm, .hg, .frf, .fw, .sd, .img, .cp, .aid, .built, .net, .sec, .adm, .pow]) s (execThermalSample t temps s) := by
  unfold execThermalSample
  repeat' first
    | rfl | with_reducible apply moves_next | with_reducible apply keeps_at | with_reducible apply keeps_thermalSample
    | with_reducible exact keeps_refl

theorem moves_execThrottleStep (s : State) :
    Moves (parts [.time, .regs, .shadow, .groups, .mem, .out, .fresh, .hif, .ras, .mm, .hg, .frf, .sd, .img, .cp, .aid, .built, .adm, .pow]) s (execThrottleStep s) := by
  unfold execThrottleStep
  repeat' first
    | rfl | with_reducible apply moves_next | with_reducible apply keeps_throttleStep | with_reducible exact keeps_refl

theorem moves_execThermalEmergencyEnd (t : Nat) (s : State) :
    Moves (parts [.time, .regs, .hif, .ras, .adm, .pow]) s (execThermalEmergencyEnd t s) := by
  unfold execThermalEmergencyEnd
  repeat' first
    | rfl | with_reducible apply moves_next | with_reducible apply keeps_at | with_reducible apply keeps_thermalEnd
    | with_reducible exact keeps_refl

theorem moves_execPllLockLoss (t : Nat) (s : State) :
    Moves (parts [.time, .regs, .out, .hif, .ras, .frf, .fw, .aid, .net, .sec, .pow]) s (execPllLockLoss t s) := by
  unfold execPllLockLoss
  repeat' first
    | rfl | with_reducible apply moves_next | with_reducible apply keeps_at | with_reducible apply keeps_pllLost
    | with_reducible exact keeps_refl

theorem moves_execPgoodLoss (t rail : Nat) (s : State) :
    Moves (parts [.time, .regs, .out, .hif, .ras, .frf, .fw, .aid, .net, .sec]) s (execPgoodLoss t rail s) := by
  unfold execPgoodLoss
  repeat' first
    | rfl | with_reducible apply moves_next | with_reducible apply keeps_ite | with_reducible apply keeps_at
    | with_reducible apply keeps_pgoodLost | with_reducible exact keeps_refl

theorem moves_execPgoodReturn (t rail : Nat) (s : State) :
    Moves (parts [.time, .regs]) s (execPgoodReturn t rail s) := by
  unfold execPgoodReturn
  repeat' first
    | (extract_lets +onlyGivenNames sv; refine moves_cut (t := sv) ?_ ?_; subst sv; rotate_left; clear_value sv; revert sv; intro _ _; rotate_left)
    | with_reducible assumption | rfl | with_reducible apply moves_next | with_reducible apply keeps_ite
    | with_reducible apply keeps_at | with_reducible apply keeps_put | with_reducible exact keeps_refl

/-! ### Machine/Firmware.lean -/

theorem moves_execCommandStep (t core comp : Nat) (work : StepWork) (s : State) :
    Moves (parts [.time, .regs, .hif, .aid, .mbx, .sec]) s (execCommandStep t core comp work s) := by
  unfold execCommandStep
  repeat' first
    | rfl | with_reducible apply moves_next | with_reducible apply keeps_at | with_reducible apply keeps_commandStep
    | with_reducible apply keeps_mwTake | with_reducible exact keeps_refl

theorem moves_execCoreRejoin (t core : Nat) (checkOk : Bool) (s : State) :
    Moves (parts [.time, .regs, .out, .hif, .ras, .frf, .fw, .aid, .net, .sec]) s (execCoreRejoin t core checkOk s) := by
  unfold execCoreRejoin
  repeat' first
    | rfl | with_reducible apply moves_next | with_reducible apply keeps_at | with_reducible apply keeps_coreReload
    | with_reducible exact keeps_refl

theorem moves_execCompartmentViolation (t core : Nat) (access : CoreAccess) (s : State) :
    Moves (parts [.time, .regs, .shadow, .groups, .out, .hif, .ras, .frf, .fw, .aid, .mbx, .net, .sec]) s (execCompartmentViolation t core access s) := by
  unfold execCompartmentViolation
  repeat' first
    | rfl | with_reducible apply moves_next | with_reducible apply keeps_at | with_reducible apply keeps_checkAccess
    | with_reducible exact keeps_refl

theorem moves_execMwWrite (t off size val : Nat) (s : State) :
    Moves (parts [.time, .regs, .hif, .aid, .mbx]) s (execMwWrite t off size val s) := by
  unfold execMwWrite
  repeat' first
    | rfl | with_reducible apply moves_next | with_reducible apply keeps_at | with_reducible apply keeps_mwArrive
    | with_reducible exact keeps_refl

theorem moves_execMwCmdGo (t : Nat) (s : State) :
    Moves (parts [.time, .regs, .hif, .aid, .mbx]) s (execMwCmdGo t s) := by
  unfold execMwCmdGo
  repeat' first
    | rfl | with_reducible apply moves_next | with_reducible apply keeps_at | with_reducible apply keeps_mwArrive
    | with_reducible exact keeps_refl

theorem moves_execControlCoreFail (t core cond : Nat) (s : State) :
    Moves (parts [.time, .regs, .shadow, .groups, .out, .hif, .ras, .frf, .fw, .aid, .mbx, .net, .sec]) s (execControlCoreFail t core cond s) := by
  unfold execControlCoreFail
  repeat' first
    | (extract_lets +onlyGivenNames sv; refine moves_cut (t := sv) ?_ ?_; subst sv; rotate_left; clear_value sv; revert sv; intro _ _; rotate_left)
    | with_reducible assumption | rfl | with_reducible apply moves_next | with_reducible apply keeps_at
    | with_reducible apply keeps_ctlFail | with_reducible apply keeps_mwDrain | with_reducible exact keeps_refl

theorem moves_execAdmissionEvaluation (t : Nat) (s : State) :
    Moves (parts [.time, .regs, .shadow, .groups, .mem, .out, .fresh, .hif, .ras, .mm, .hg, .frf, .sd, .img, .cp, .aid, .built, .mbx, .net, .bud, .adm]) s (execAdmissionEvaluation t s) := by
  unfold execAdmissionEvaluation
  repeat' first
    | rfl | with_reducible apply moves_next | with_reducible apply keeps_at
    | with_reducible apply keeps_admissionEvaluation | with_reducible apply keeps_mwDrain
    | with_reducible apply keeps_mirrorConfig | with_reducible exact keeps_refl

theorem moves_execFwVersion (t : Nat) (cmd : CmdRef) (s : State) :
    Moves (parts [.time, .out, .fresh, .hif, .frf, .aid, .mbx, .net, .bud]) s (execFwVersion t cmd s) := by
  unfold execFwVersion
  repeat' first
    | intro _ | with_reducible assumption | rfl | with_reducible apply moves_next | with_reducible apply keeps_at
    | with_reducible apply keeps_command | with_reducible apply keeps_fwVersion | with_reducible exact keeps_refl

theorem moves_execFwStage (t : Nat) (cmd : CmdRef) (s : State) :
    Moves (parts [.time, .regs, .mem, .out, .hif, .frf, .aid, .mbx, .net, .bud]) s (execFwStage t cmd s) := by
  unfold execFwStage
  repeat' first
    | intro _ | with_reducible assumption | rfl | with_reducible apply moves_next | with_reducible apply keeps_at
    | with_reducible apply keeps_command | with_reducible apply keeps_fwStage | with_reducible exact keeps_refl

theorem moves_execFwActivate (t : Nat) (cmd : CmdRef) (s : State) :
    Moves (parts [.time, .regs, .out, .hif, .ras, .frf, .aid, .mbx, .net, .bud]) s (execFwActivate t cmd s) := by
  unfold execFwActivate
  repeat' first
    | intro _ | with_reducible assumption | rfl | with_reducible apply moves_next | with_reducible apply keeps_at
    | with_reducible apply keeps_command | with_reducible apply keeps_fwActivate | with_reducible exact keeps_refl

theorem moves_execFwActivateCancel (t : Nat) (cmd : CmdRef) (s : State) :
    Moves (parts [.time, .regs, .out, .hif, .ras, .frf, .aid, .mbx, .net, .bud]) s (execFwActivateCancel t cmd s) := by
  unfold execFwActivateCancel
  repeat' first
    | intro _ | with_reducible assumption | rfl | with_reducible apply moves_next | with_reducible apply keeps_at
    | with_reducible apply keeps_command | with_reducible apply keeps_fwCancel | with_reducible exact keeps_refl

theorem moves_execFwActivateTime (s : State) :
    Moves (parts [.time, .regs, .hif, .ras, .aid]) s (execFwActivateTime s) := by
  unfold execFwActivateTime
  repeat' first
    | rfl | with_reducible apply moves_next | with_reducible apply keeps_fwTimed | with_reducible exact keeps_refl

theorem moves_execDeferredActivationBegin (t : Nat) (s : State) :
    Moves (parts [.time, .regs, .hif, .ras, .aid]) s (execDeferredActivationBegin t s) := by
  unfold execDeferredActivationBegin
  repeat' first
    | rfl | with_reducible apply moves_next | with_reducible apply keeps_at | with_reducible apply keeps_deferredBegin
    | with_reducible exact keeps_refl

theorem moves_execComponentHandover (t comp : Nat) (handoverOk : Bool) (s : State) :
    Moves (parts [.time, .regs, .hif, .ras, .aid, .aon]) s (execComponentHandover t comp handoverOk s) := by
  unfold execComponentHandover
  repeat' first
    | rfl | with_reducible apply moves_next | with_reducible apply keeps_at | with_reducible apply keeps_handoverStep
    | with_reducible exact keeps_refl

/-! ### Machine/Services.lean -/

theorem moves_execCalRead (t : Nat) (cmd : CmdRef) (s : State) :
    Moves (parts [.time, .out, .hif, .frf, .aid, .mbx, .net, .bud]) s (execCalRead t cmd s) := by
  unfold execCalRead
  repeat' first
    | intro _ | with_reducible assumption | rfl | with_reducible apply moves_next | with_reducible apply keeps_at
    | with_reducible apply keeps_command | with_reducible apply keeps_calRead | with_reducible exact keeps_refl

theorem moves_execCalWrite (t : Nat) (cmd : CmdRef) (flashOk : Bool) (s : State) :
    Moves (parts [.time, .out, .fresh, .hif, .frf, .aid, .cal, .mbx, .net, .bud]) s (execCalWrite t cmd flashOk s) := by
  unfold execCalWrite
  repeat' first
    | intro _ | with_reducible assumption | rfl | with_reducible apply moves_next | with_reducible apply keeps_at
    | with_reducible apply keeps_command | with_reducible apply keeps_calWrite | with_reducible exact keeps_refl

theorem moves_execTimeGet (t : Nat) (cmd : CmdRef) (s : State) :
    Moves (parts [.time, .out, .hif, .frf, .aid, .mbx, .net, .bud]) s (execTimeGet t cmd s) := by
  unfold execTimeGet
  repeat' first
    | intro _ | with_reducible assumption | rfl | with_reducible apply moves_next | with_reducible apply keeps_at
    | with_reducible apply keeps_command | with_reducible apply keeps_timeGet | with_reducible exact keeps_refl

theorem moves_execTimeSet (t : Nat) (cmd : CmdRef) (s : State) :
    Moves (parts [.time, .frac, .out, .hif, .frf, .aid, .mbx, .net, .bud]) s (execTimeSet t cmd s) := by
  unfold execTimeSet
  repeat' first
    | intro _ | with_reducible assumption | rfl | with_reducible apply moves_next | with_reducible apply keeps_at
    | with_reducible apply keeps_command | with_reducible apply keeps_timeSet | with_reducible exact keeps_refl

theorem moves_execStatsRead (t : Nat) (cmd : CmdRef) (s : State) :
    Moves (parts [.time, .out, .hif, .frf, .aid, .mbx, .net, .bud]) s (execStatsRead t cmd s) := by
  unfold execStatsRead
  repeat' first
    | intro _ | with_reducible assumption | rfl | with_reducible apply moves_next | with_reducible apply keeps_at
    | with_reducible apply keeps_command | with_reducible apply keeps_statsRead | with_reducible exact keeps_refl

theorem moves_execLogConfig (t : Nat) (cmd : CmdRef) (s : State) :
    Moves (parts [.time, .out, .hif, .frf, .aid, .mbx, .net, .bud]) s (execLogConfig t cmd s) := by
  unfold execLogConfig
  repeat' first
    | intro _ | with_reducible assumption | rfl | with_reducible apply moves_next | with_reducible apply keeps_at
    | with_reducible apply keeps_command | with_reducible apply keeps_logConfig | with_reducible exact keeps_refl

theorem moves_execAttest (t : Nat) (cmd : CmdRef) (s : State) :
    Moves (parts [.time, .out, .fresh, .hif, .frf, .aid, .mbx, .net, .bud]) s (execAttest t cmd s) := by
  unfold execAttest
  repeat' first
    | intro _ | with_reducible assumption | rfl | with_reducible apply moves_next | with_reducible apply keeps_at
    | with_reducible apply keeps_command | with_reducible apply keeps_attest | with_reducible exact keeps_refl

theorem moves_execConfigCommit (t : Nat) (cmd : CmdRef) (s : State) :
    Moves (parts [.time, .regs, .shadow, .groups, .mem, .out, .hif, .ras, .mm, .hg, .frf, .fw, .sd, .cp, .aid, .mbx, .net, .bud, .sec]) s (execConfigCommit t cmd s) := by
  unfold execConfigCommit
  repeat' first
    | intro _ | with_reducible assumption | rfl | with_reducible apply moves_next | with_reducible apply keeps_at
    | with_reducible apply keeps_command | with_reducible apply keeps_configCommit | with_reducible exact keeps_refl

theorem moves_execTimedConfigCommit (s : State) :
    Moves (parts [.time, .regs, .shadow, .groups, .mem, .out, .hif, .ras, .mm, .hg, .frf, .fw, .sd, .cp, .aid, .mbx, .net, .bud, .sec]) s (execTimedConfigCommit s) := by
  unfold execTimedConfigCommit
  repeat' first
    | rfl | with_reducible apply moves_next | with_reducible apply keeps_timedConfig
    | with_reducible apply keeps_mirrorConfig | with_reducible exact keeps_refl

theorem moves_execTestFault (t : Nat) (cmd : CmdRef) (s : State) :
    Moves (parts [.time, .out, .hif, .frf, .aid, .mbx, .net, .bud]) s (execTestFault t cmd s) := by
  unfold execTestFault
  repeat' first
    | intro _ | with_reducible assumption | rfl | with_reducible apply moves_next | with_reducible apply keeps_at
    | with_reducible apply keeps_command | with_reducible apply keeps_testFault | with_reducible exact keeps_refl

theorem moves_execTestFaultInjection (t : Nat) (s : State) :
    Moves (parts [.time, .hif, .aid, .net]) s (execTestFaultInjection t s) := by
  unfold execTestFaultInjection
  repeat' first
    | rfl | with_reducible apply moves_next | with_reducible apply keeps_at | with_reducible apply keeps_testInjection
    | with_reducible exact keeps_refl

theorem moves_execTestFaultRestore (t : Nat) (s : State) :
    Moves (parts [.time, .regs, .mem, .fresh, .hif, .ras, .mm, .fw, .aid, .net]) s (execTestFaultRestore t s) := by
  unfold execTestFaultRestore
  repeat' first
    | rfl | with_reducible apply moves_next | with_reducible apply keeps_at | with_reducible apply keeps_testRestore
    | with_reducible exact keeps_refl

theorem moves_execDramAccess (t agent addr : Nat) (write : Bool) (data : List Byte) (len : Nat) (ecc : Ecc) (s : State) :
    Moves (parts [.time, .regs, .shadow, .groups, .mem, .out, .fresh, .hif, .ras, .mm, .hg, .frf, .fw, .sd, .cp, .aid, .mbx, .net, .sec, .adm]) s (execDramAccess t agent addr write data len ecc s) := by
  unfold execDramAccess
  repeat' first
    | rfl | with_reducible apply moves_next | with_reducible apply keeps_at | with_reducible apply keeps_memAccess
    | with_reducible exact keeps_refl

/-! ### Machine/Start.lean -/

theorem moves_execPowerOn (t : Nat) (boot : Boot) (s : State) :
    Moves (parts [.time, .frac, .regs, .shadow, .groups, .mem, .out, .fresh, .hif, .ras, .mm, .hg, .frf, .fw, .sd, .img, .cp, .aid, .cal, .built, .mbx, .net, .bud, .sec, .adm, .pow, .aon]) s (execPowerOn t boot s) := by
  unfold execPowerOn
  repeat' first
    | exact .inr rfl
    | (extract_lets +onlyGivenNames sv; refine moves_cut (t := sv) ?_ ?_; subst sv; rotate_left; clear_value sv; revert sv; intro _ _; rotate_left)
    | with_reducible assumption | rfl | with_reducible apply moves_next | with_reducible apply keeps_at
    | with_reducible apply keeps_coldStart | with_reducible exact keeps_refl | with_reducible apply keeps_mk

theorem moves_execRstN (t : Nat) (boot : Boot) (s : State) :
    Moves (parts [.time, .frac, .regs, .shadow, .groups, .mem, .out, .fresh, .hif, .ras, .mm, .hg, .frf, .fw, .sd, .img, .cp, .aid, .cal, .built, .mbx, .net, .bud, .sec, .adm, .pow, .aon]) s (execRstN t boot s) := by
  unfold execRstN
  repeat' first
    | rfl | with_reducible apply moves_next | with_reducible apply keeps_at | with_reducible apply keeps_rstRelease
    | with_reducible exact keeps_refl

theorem moves_execColdStartRetry (t : Nat) (boot : Boot) (s : State) :
    Moves (parts [.time, .frac, .regs, .shadow, .groups, .mem, .out, .fresh, .hif, .ras, .mm, .hg, .frf, .fw, .sd, .img, .cp, .aid, .cal, .built, .mbx, .net, .bud, .sec, .adm, .pow, .aon]) s (execColdStartRetry t boot s) := by
  unfold execColdStartRetry
  repeat' first
    | rfl | with_reducible apply moves_next | with_reducible apply keeps_at | with_reducible apply keeps_coldRetry
    | with_reducible exact keeps_refl

theorem moves_execReadyTimeout (t : Nat) (s : State) :
    Moves (parts [.time, .frac, .regs, .shadow, .groups, .mem, .hif, .ras, .mm, .hg, .frf, .fw, .sd, .img, .cp, .aid, .built, .mbx, .net, .bud, .sec, .adm, .pow, .aon]) s (execReadyTimeout t s) := by
  unfold execReadyTimeout
  repeat' first
    | rfl | with_reducible apply moves_next | with_reducible apply keeps_at | with_reducible apply keeps_readyLate
    | with_reducible exact keeps_refl

theorem moves_execVddAonLoss (t : Nat) (s : State) :
    Moves (parts [.time, .frac, .regs, .shadow, .groups, .mem, .hif, .ras, .mm, .hg, .frf, .fw, .sd, .img, .cp, .aid, .built, .mbx, .net, .bud, .sec, .adm, .pow, .aon]) s (execVddAonLoss t s) := by
  unfold execVddAonLoss
  repeat' first
    | rfl | with_reducible apply moves_next | with_reducible apply keeps_at | with_reducible apply keeps_aonLost
    | with_reducible exact keeps_refl

theorem moves_execEnumInChange (t : Nat) (level : Bool) (s : State) :
    Moves (parts [.time, .aon]) s (execEnumInChange t level s) := by
  unfold execEnumInChange
  repeat' first
    | exact .inr rfl | with_reducible exact .inl rfl
    | (extract_lets +onlyGivenNames sv; refine moves_cut (t := sv) ?_ ?_; subst sv; rotate_left; clear_value sv; revert sv; intro _ _; rotate_left)
    | (extract_lets +onlyGivenNames dv; clear_value dv; revert dv; intro _) | with_reducible assumption | rfl
    | with_reducible apply moves_next | with_reducible apply keeps_at | with_reducible exact keeps_refl
    | with_reducible apply keeps_mk

theorem moves_execArbitrationRead (t addr : Nat) (others : List Nat) (s : State) :
    Moves (parts [.time, .out, .aon]) s (execArbitrationRead t addr others s) := by
  unfold execArbitrationRead
  repeat' first
    | rfl | with_reducible apply moves_next | with_reducible apply keeps_at | with_reducible apply keeps_arbitrate
    | with_reducible exact keeps_refl

theorem moves_execSetpos (t : Nat) (bytes : List Byte) (s : State) :
    Moves (parts [.time, .regs, .aon]) s (execSetpos t bytes s) := by
  unfold execSetpos
  repeat' first
    | rfl | with_reducible apply moves_next | with_reducible apply keeps_at | with_reducible apply keeps_setPosition
    | with_reducible exact keeps_refl

theorem moves_execDbgNonce (t : Nat) (s : State) :
    Moves (parts [.time, .out]) s (execDbgNonce t s) := by
  unfold execDbgNonce
  repeat' first
    | (extract_lets +onlyGivenNames sv; refine moves_cut (t := sv) ?_ ?_; subst sv; rotate_left; clear_value sv; revert sv; intro _ _; rotate_left)
    | with_reducible assumption | rfl | with_reducible apply moves_next | with_reducible apply keeps_ite
    | with_reducible apply keeps_at | with_reducible apply keeps_emit | with_reducible exact keeps_refl

theorem moves_execDbgToken (t : Nat) (token : List Byte) (s : State) :
    Moves (parts [.time, .regs, .fresh, .sec]) s (execDbgToken t token s) := by
  unfold execDbgToken
  repeat' first
    | rfl | with_reducible apply moves_next | with_reducible apply keeps_at | with_reducible apply keeps_token
    | with_reducible exact keeps_refl

/-! ### Machine/Stop.lean -/

theorem moves_execStopEnter (t : Nat) (cmd : CmdRef) (s : State) :
    Moves (parts [.time, .regs, .out, .hif, .frf, .aid, .mbx, .net, .bud, .aon]) s (execStopEnter t cmd s) := by
  unfold execStopEnter
  repeat' first
    | intro _ | with_reducible assumption | rfl | with_reducible apply moves_next | with_reducible apply keeps_at
    | with_reducible apply keeps_command | with_reducible apply keeps_stopEnter | with_reducible exact keeps_refl

theorem moves_execAddressMatch (t addr : Nat) (xfer : BusXfer) (boot : Boot) (aclkOk : Bool) (s : State) :
    Moves (parts [.time, .frac, .regs, .shadow, .groups, .mem, .out, .fresh, .hif, .ras, .mm, .hg, .frf, .fw, .sd, .img, .cp, .aid, .cal, .built, .mbx, .net, .bud, .sec, .adm, .pow, .aon]) s (execAddressMatch t addr xfer boot aclkOk s) := by
  unfold execAddressMatch
  repeat' first
    | rfl | with_reducible apply moves_next | with_reducible apply keeps_addressMatch | with_reducible exact keeps_refl

theorem moves_execWakeAbort (t cause index : Nat) (s : State) :
    Moves (parts [.time, .regs, .hif, .aon]) s (execWakeAbort t cause index s) := by
  unfold execWakeAbort
  repeat' first
    | rfl | with_reducible apply moves_next | with_reducible apply keeps_at | with_reducible apply keeps_wakeAbort
    | with_reducible exact keeps_refl

theorem moves_execWakeRetry (t : Nat) (boot : Boot) (aclkOk : Bool) (s : State) :
    Moves (parts [.time, .frac, .regs, .shadow, .groups, .mem, .out, .fresh, .hif, .ras, .mm, .hg, .frf, .fw, .sd, .img, .cp, .aid, .cal, .built, .mbx, .net, .bud, .sec, .adm, .pow, .aon]) s (execWakeRetry t boot aclkOk s) := by
  unfold execWakeRetry
  repeat' first
    | rfl | with_reducible apply moves_next | with_reducible apply keeps_wakeRetry | with_reducible exact keeps_refl

theorem moves_execDomainReady (t dom : Nat) (s : State) :
    Moves (parts [.time, .regs, .shadow, .groups, .mem, .out, .fresh, .hif, .ras, .mm, .hg, .frf, .fw, .sd, .cp, .aid, .mbx, .net, .sec, .adm, .aon]) s (execDomainReady t dom s) := by
  unfold execDomainReady
  repeat' first
    | rfl | with_reducible apply moves_next | with_reducible apply keeps_at | with_reducible apply keeps_domainReady
    | with_reducible exact keeps_refl

/-! ### Machine/Warm.lean -/

theorem moves_execWarmReset (t : Nat) (cmd : CmdRef) (boot : Boot) (s : State) :
    Moves (parts [.time, .frac, .regs, .shadow, .groups, .mem, .out, .fresh, .hif, .ras, .mm, .hg, .frf, .fw, .sd, .img, .cp, .aid, .cal, .built, .mbx, .net, .bud, .sec, .adm, .pow, .aon]) s (execWarmReset t cmd boot s) := by
  unfold execWarmReset
  repeat' first
    | intro _ | with_reducible assumption | rfl | with_reducible apply moves_next | with_reducible apply keeps_at
    | with_reducible apply keeps_command | with_reducible apply keeps_warmCommand | with_reducible exact keeps_refl

theorem moves_execPerstN (t : Nat) (boot : Boot) (s : State) :
    Moves (parts [.time, .frac, .regs, .shadow, .groups, .mem, .out, .fresh, .hif, .ras, .mm, .hg, .frf, .fw, .sd, .img, .cp, .aid, .cal, .built, .mbx, .net, .bud, .sec, .adm, .pow, .aon]) s (execPerstN t boot s) := by
  unfold execPerstN
  repeat' first
    | rfl | with_reducible apply moves_next | with_reducible apply keeps_at | with_reducible apply keeps_perst
    | with_reducible exact keeps_refl

/-! ### Machine/Buddy.lean -/

theorem moves_execBuddyPair (t : Nat) (cmd : CmdRef) (peer : PairReply) (s : State) :
    Moves (parts [.time, .regs, .out, .fresh, .hif, .ras, .frf, .aid, .mbx, .net, .bud, .adm]) s (execBuddyPair t cmd peer s) := by
  unfold execBuddyPair
  repeat' first
    | intro _ | with_reducible assumption | rfl | with_reducible apply moves_next | with_reducible apply keeps_at
    | with_reducible apply keeps_command | with_reducible apply keeps_buddyPair | with_reducible exact keeps_refl

theorem moves_execBuddyUnpair (t : Nat) (cmd : CmdRef) (s : State) :
    Moves (parts [.time, .regs, .out, .fresh, .hif, .ras, .mm, .hg, .frf, .fw, .sd, .cp, .aid, .mbx, .net, .bud]) s (execBuddyUnpair t cmd s) := by
  unfold execBuddyUnpair
  repeat' first
    | intro _ | with_reducible assumption | rfl | with_reducible apply moves_next | with_reducible apply keeps_at
    | with_reducible apply keeps_command | with_reducible apply keeps_buddyUnpair | with_reducible exact keeps_refl

theorem moves_execBuddyStatus (t : Nat) (cmd : CmdRef) (s : State) :
    Moves (parts [.time, .out, .hif, .frf, .aid, .mbx, .net, .bud]) s (execBuddyStatus t cmd s) := by
  unfold execBuddyStatus
  repeat' first
    | intro _ | with_reducible assumption | rfl | with_reducible apply moves_next | with_reducible apply keeps_at
    | with_reducible apply keeps_command | with_reducible apply keeps_buddyStatus | with_reducible exact keeps_refl

theorem moves_execPairingTimeout (s : State) :
    Moves (parts [.time, .regs, .out, .fresh, .hif, .ras, .mm, .hg, .frf, .fw, .sd, .cp, .aid, .net, .bud]) s (execPairingTimeout s) := by
  unfold execPairingTimeout
  repeat' first
    | rfl | with_reducible apply moves_next | with_reducible apply keeps_pairTimeout | with_reducible exact keeps_refl

theorem moves_execLeaseWrite (t readBack peerWord : Nat) (pathOk : Bool) (s : State) :
    Moves (parts [.time, .regs, .out, .fresh, .hif, .ras, .mm, .hg, .frf, .fw, .sd, .cp, .aid, .net, .bud]) s (execLeaseWrite t readBack peerWord pathOk s) := by
  unfold execLeaseWrite
  repeat' first
    | rfl | with_reducible apply moves_next | with_reducible apply keeps_at | with_reducible apply keeps_leaseCycle
    | with_reducible exact keeps_refl

theorem moves_execFenced (t : Nat) (s : State) :
    Moves (parts [.time, .regs, .hif, .ras]) s (execFenced t s) := by
  unfold execFenced
  repeat' first
    | rfl | with_reducible apply moves_next | with_reducible apply keeps_at | with_reducible apply keeps_fence
    | with_reducible exact keeps_refl

theorem moves_execTakeover (t : Nat) (host : List HostRead) (s : State) :
    Moves (parts [.time, .regs, .mem, .out, .fresh, .hif, .ras, .mm, .hg, .frf, .fw, .sd, .img, .cp, .aid, .net, .bud, .adm]) s (execTakeover t host s) := by
  unfold execTakeover
  repeat' first
    | rfl | with_reducible apply moves_next | with_reducible apply keeps_at | with_reducible apply keeps_takeover
    | with_reducible exact keeps_refl

/-! ### Machine/Peers.lean -/

theorem moves_execCulvertRetransmit (t peer chan : Nat) (s : State) :
    Moves (parts [.time, .out, .frf, .net]) s (execCulvertRetransmit t peer chan s) := by
  unfold execCulvertRetransmit
  repeat' first
    | rfl | with_reducible apply moves_next | with_reducible apply keeps_at | with_reducible apply keeps_cvRetransmit
    | with_reducible exact keeps_refl

theorem moves_execHeartbeat (t : Nat) (s : State) :
    Moves (parts [.time, .net]) s (execHeartbeat t s) := by
  unfold execHeartbeat
  repeat' first
    | rfl | with_reducible apply moves_next | with_reducible apply keeps_at | with_reducible apply keeps_heartbeats
    | with_reducible exact keeps_refl

theorem moves_execDissentEnd (peer epoch : Nat) (s : State) :
    Moves (parts [.time, .regs, .hif, .ras, .net]) s (execDissentEnd peer epoch s) := by
  unfold execDissentEnd
  repeat' first
    | rfl | with_reducible apply moves_next | with_reducible apply keeps_dissentEnd | with_reducible exact keeps_refl

theorem moves_execPeerLost (t peer : Nat) (s : State) :
    Moves (parts [.time, .regs, .out, .fresh, .hif, .ras, .mm, .hg, .frf, .fw, .sd, .cp, .aid, .net, .bud]) s (execPeerLost t peer s) := by
  unfold execPeerLost
  repeat' first
    | rfl | with_reducible apply moves_next | with_reducible apply keeps_at | with_reducible apply keeps_peerLost
    | with_reducible exact keeps_refl

theorem moves_execAuthChallenge (t peer : Nat) (s : State) :
    Moves (parts [.time, .regs, .out, .fresh, .net]) s (execAuthChallenge t peer s) := by
  unfold execAuthChallenge
  repeat' first
    | rfl | with_reducible apply moves_next | with_reducible apply keeps_at | with_reducible apply keeps_challengePeer
    | with_reducible exact keeps_refl

theorem moves_execCulvertDatagram (t port : Nat) (msg : Culvert) (s : State) :
    Moves (parts [.time, .regs, .out, .fresh, .hif, .ras, .mm, .hg, .frf, .fw, .sd, .cp, .aid, .net, .bud, .sec, .adm]) s (execCulvertDatagram t port msg s) := by
  unfold execCulvertDatagram
  repeat' first
    | rfl | with_reducible apply moves_next | with_reducible apply keeps_ite | with_reducible apply keeps_at
    | with_reducible apply keeps_culvertIn | with_reducible exact keeps_refl

/-! ### Machine/Bridge.lean -/

theorem moves_execEthernetFrame (t port : Nat) (frame : Frame) (s : State) :
    Moves (parts [.time, .regs, .out, .fresh, .hif, .ras, .mm, .hg, .frf, .fw, .sd, .cp, .aid, .net, .bud, .sec, .adm]) s (execEthernetFrame t port frame s) := by
  unfold execEthernetFrame
  repeat' first
    | rfl | with_reducible apply moves_next | with_reducible apply keeps_at | with_reducible apply keeps_frameIn
    | with_reducible exact keeps_refl

/-! ### Machine/Reliability.lean -/

theorem moves_execFatalError (t part index cond : Nat) (s : State) :
    Moves (parts [.time, .regs, .out, .hif, .ras, .frf, .fw, .aid, .net, .sec]) s (execFatalError t part index cond s) := by
  unfold execFatalError
  repeat' first
    | rfl | with_reducible apply moves_next | with_reducible apply keeps_at | with_reducible apply keeps_fatalError
    | with_reducible exact keeps_refl

theorem moves_execFaultSpacingEnd (s : State) :
    Moves (parts [.time, .regs, .hif, .ras]) s (execFaultSpacingEnd s) := by
  unfold execFaultSpacingEnd
  repeat' first
    | rfl | with_reducible apply moves_next | with_reducible apply keeps_spacingEnd | with_reducible exact keeps_refl

theorem moves_execCeMergeWindow (part index : Nat) (s : State) :
    Moves (parts [.time, .regs, .out, .hif, .ras, .frf, .fw, .aid, .net, .sec]) s (execCeMergeWindow part index s) := by
  unfold execCeMergeWindow
  repeat' first
    | rfl | with_reducible apply moves_next | with_reducible apply keeps_mergeEnd | with_reducible exact keeps_refl

theorem moves_execMbCommand (t : Nat) (desc data : List Byte) (s : State) :
    Moves (parts [.time, .regs, .hif, .aid, .mbx, .sec]) s (execMbCommand t desc data s) := by
  unfold execMbCommand
  repeat' first
    | rfl | with_reducible apply moves_next | with_reducible apply keeps_at | with_reducible apply keeps_busCommand
    | with_reducible exact keeps_refl

theorem moves_execBusSessionTimeout (s : State) :
    Moves (parts [.time, .regs, .sec]) s (execBusSessionTimeout s) := by
  unfold execBusSessionTimeout
  repeat' first
    | rfl | with_reducible apply moves_next | with_reducible apply keeps_busTimeout | with_reducible exact keeps_refl

end Sys2Proof.Machine
end

