-- ==== Sys2Proof/Laws/Reads.lean ====
section
/-!
SUPPORT. What is read back from the tables of the state after one of their entries is replaced.
-/

namespace Sys2Proof.Machine

@[simp] theorem State.stream_setStream (s : State) (i : Nat) (x : StreamSt) : (s.setStream i x).stream i = x := by
  simp [State.stream, State.setStream, tabGet]

theorem State.stream_setStream_ne (s : State) {i j : Nat} (x : StreamSt) (h : i ≠ j) : (s.setStream i x).stream j = s.stream j := by
  simp [State.stream, State.setStream, tabGet, tabFind_insert_ne _ _ h]

@[simp] theorem State.ring_setRing (s : State) (r : Nat) (x : Ring) : (s.setRing r x).ring r = some x := by
  simp [State.ring, State.setRing]

theorem State.ring_setRing_ne (s : State) {r j : Nat} (x : Ring) (h : r ≠ j) : (s.setRing r x).ring j = s.ring j := by
  simp [State.ring, State.setRing, tabFind_insert_ne _ _ h]

@[simp] theorem State.rel_setRel (s : State) (g : Nat) (x : Rel) : (s.setRel g x).rel g = x := by
  simp [State.rel, State.setRel, tabGet]

theorem State.rel_setRel_ne (s : State) {g j : Nat} (x : Rel) (h : g ≠ j) : (s.setRel g x).rel j = s.rel j := by
  simp [State.rel, State.setRel, tabGet, tabFind_insert_ne _ _ h]

@[simp] theorem State.slot_setSlot (s : State) (n : Nat) (x : ImgSlot) : (s.setSlot n x).slot n = some x := by
  simp [State.slot, State.setSlot]

theorem State.slot_setSlot_ne (s : State) {n j : Nat} (x : ImgSlot) (h : n ≠ j) : (s.setSlot n x).slot j = s.slot j := by
  simp [State.slot, State.setSlot, tabFind_insert_ne _ _ h]

@[simp] theorem State.peer_setPeer (s : State) (k : Nat) (x : CvPeer) : (s.setPeer k x).peer k = x := by
  simp [State.peer, State.setPeer, tabGet]

theorem State.peer_setPeer_ne (s : State) {k j : Nat} (x : CvPeer) (h : k ≠ j) : (s.setPeer k x).peer j = s.peer j := by
  simp [State.peer, State.setPeer, tabGet, tabFind_insert_ne _ _ h]

@[simp] theorem State.queue_setQueue (s : State) (q : Nat) (x : SqQueue) : (s.setQueue q x).queue q = x := by
  simp [State.queue, State.setQueue, tabGet]

theorem State.queue_setQueue_ne (s : State) {q j : Nat} (x : SqQueue) (h : q ≠ j) : (s.setQueue q x).queue j = s.queue j := by
  simp [State.queue, State.setQueue, tabGet, tabFind_insert_ne _ _ h]

@[simp] theorem State.expq_setExpq (s : State) (q : Nat) (x : ExpQ) : (s.setExpq q x).expq q = x := by
  simp [State.expq, State.setExpq, tabGet]

theorem State.expq_setExpq_ne (s : State) {q j : Nat} (x : ExpQ) (h : q ≠ j) : (s.setExpq q x).expq j = s.expq j := by
  simp [State.expq, State.setExpq, tabGet, tabFind_insert_ne _ _ h]

@[simp] theorem State.box_setBox (s : State) (m : Nat) (x : Mbx) : (s.setBox m x).box m = x := by
  simp [State.box, State.setBox, tabGet]

theorem State.box_setBox_ne (s : State) {m j : Nat} (x : Mbx) (h : m ≠ j) : (s.setBox m x).box j = s.box j := by
  simp [State.box, State.setBox, tabGet, tabFind_insert_ne _ _ h]

@[simp] theorem State.chan_setChan (s : State) (c : Nat) (x : FrfChan) : (s.setChan c x).chan c = x := by
  simp [State.chan, State.setChan, tabGet]

theorem State.chan_setChan_ne (s : State) {c j : Nat} (x : FrfChan) (h : c ≠ j) : (s.setChan c x).chan j = s.chan j := by
  simp [State.chan, State.setChan, tabGet, tabFind_insert_ne _ _ h]

@[simp] theorem State.lane_setLane (s : State) (l : Nat) (x : FrfLane) : (s.setLane l x).lane l = x := by
  simp [State.lane, State.setLane, tabGet]

theorem State.lane_setLane_ne (s : State) {l j : Nat} (x : FrfLane) (h : l ≠ j) : (s.setLane l x).lane j = s.lane j := by
  simp [State.lane, State.setLane, tabGet, tabFind_insert_ne _ _ h]

@[simp] theorem State.fcore_setFcore (s : State) (c : Nat) (x : FwCore) : (s.setFcore c x).fcore c = x := by
  show tabGet _ (tabInsert s.fw.cores c x) c = x
  simp [tabGet]

theorem State.fcore_setFcore_ne (s : State) {c j : Nat} (x : FwCore) (h : c ≠ j) : (s.setFcore c x).fcore j = s.fcore j := by
  show tabGet _ (tabInsert s.fw.cores c x) j = tabGet _ s.fw.cores j
  simp [tabGet, tabFind_insert_ne _ _ h]

@[simp] theorem State.cpg_setCpg (s : State) (g : Nat) (x : CpGroup) : (s.setCpg g x).cpg g = x := by
  simp [State.cpg, State.setCpg, tabGet]

theorem State.cpg_setCpg_ne (s : State) {g j : Nat} (x : CpGroup) (h : g ≠ j) : (s.setCpg g x).cpg j = s.cpg j := by
  simp [State.cpg, State.setCpg, tabGet, tabFind_insert_ne _ _ h]

@[simp] theorem State.erp_setErp (s : State) (n : Nat) (x : Erp) : (s.setErp n x).erp n = x := by
  simp [State.erp, State.setErp, tabGet]

theorem State.erp_setErp_ne (s : State) {n j : Nat} (x : Erp) (h : n ≠ j) : (s.setErp n x).erp j = s.erp j := by
  simp [State.erp, State.setErp, tabGet, tabFind_insert_ne _ _ h]

@[simp] theorem State.coreSt_setCore (s : State) (c : Nat) (x : CoreSt) : (s.setCore c x).coreSt c = x := by
  simp [State.coreSt, State.setCore, tabGet]

theorem State.coreSt_setCore_ne (s : State) {c j : Nat} (x : CoreSt) (h : c ≠ j) : (s.setCore c x).coreSt j = s.coreSt j := by
  simp [State.coreSt, State.setCore, tabGet, tabFind_insert_ne _ _ h]

theorem State.group_setGroup (s : State) (c d : Nat) (g : GroupSt) :
    (s.setGroup c g).group d = if c = d then g else s.group d := tabGet_set _ _ _ _ _

end Sys2Proof.Machine
end

