-- ==== Sys2Proof/Laws/Registers.lean ====
section
/-!
SUPPORT. Register fields: what a write of one field leaves in every field (R15), for registers of the state.
-/

namespace Sys2Proof

theorem testBit_ones (n i : Nat) : (2 ^ n - 1).testBit i = decide (i < n) := Nat.testBit_two_pow_sub_one n i

/-- A bit of a bit range read out. -/
theorem testBit_getBits (w : Word) {hi lo : Nat} (h : hi < 64) (i : Nat) :
    (getBits w hi lo).testBit i = (decide (i < hi - lo + 1) && w.getLsbD (lo + i)) := by
  unfold getBits onesMask
  simp only [BitVec.toNat_and, BitVec.toNat_ushiftRight, BitVec.toNat_ofNat, Nat.testBit_and, Nat.testBit_shiftRight,
    Nat.testBit_mod_two_pow, testBit_ones, BitVec.getLsbD]
  by_cases hi' : i < hi - lo + 1
  · have : i < 64 := by omega
    simp [hi', this]
  · simp [hi']

/-- A bit of a word in which a bit range was replaced. -/
theorem getLsbD_setBits (w : Word) (hi lo v i : Nat) (_h : hi < 64) :
    (setBits w hi lo v).getLsbD i =
      if lo ≤ i ∧ i - lo < hi - lo + 1 then decide (i < 64) && v.testBit (i - lo) else w.getLsbD i := by
  unfold setBits onesMask
  simp only [BitVec.getLsbD_or, BitVec.getLsbD_and, BitVec.getLsbD_not, BitVec.getLsbD_shiftLeft, BitVec.getLsbD_ofNat,
    testBit_ones]
  by_cases h1 : i < 64
  · by_cases h2 : i < lo
    · have : ¬ (lo ≤ i) := by omega
      simp [h1, h2, this]
    · have h3 : lo ≤ i := by omega
      by_cases h4 : i - lo < hi - lo + 1
      · have h5 : i - lo < 64 := by omega
        simp [h1, h2, h3, h4, h5]
      · simp [h1, h2, h3, h4]
  · simp [h1, BitVec.getLsbD_of_ge w i (by omega)]

theorem getBits_setBits_same (w : Word) {hi lo : Nat} (v : Nat) (hl : lo ≤ hi) (h : hi < 64) :
    getBits (setBits w hi lo v) hi lo = v % 2 ^ (hi - lo + 1) := by
  refine Nat.eq_of_testBit_eq fun i => ?_
  rw [testBit_getBits _ h, getLsbD_setBits _ _ _ _ _ h, Nat.testBit_mod_two_pow]
  by_cases hi' : i < hi - lo + 1
  · have h1 : lo + i < 64 := by omega
    have h2 : lo + i - lo = i := by omega
    simp [hi', h1, h2]
  · simp [hi']

theorem getBits_setBits_apart (w : Word) {hi lo hi' lo' : Nat} (v : Nat) (hl : lo ≤ hi) (h : hi < 64) (hl' : lo' ≤ hi')
    (h' : hi' < 64) (ha : hi < lo' ∨ hi' < lo) : getBits (setBits w hi lo v) hi' lo' = getBits w hi' lo' := by
  refine Nat.eq_of_testBit_eq fun i => ?_
  rw [testBit_getBits _ h', testBit_getBits _ h', getLsbD_setBits _ _ _ _ _ h]
  by_cases hi2 : i < hi' - lo' + 1
  · congr 1
    exact if_neg (by omega)
  · rw [decide_eq_false hi2, Bool.false_and, Bool.false_and]

namespace Machine

/-! ### Registers of a state -/

theorem State.reg_setReg (s : State) (a b : Nat) (w : Word) : (s.setReg a w).reg b = if a = b then w else s.reg b := by
  unfold State.reg State.setReg
  simp only [tabFind_insert]
  split <;> rfl

@[simp] theorem State.reg_setReg_self (s : State) (a : Nat) (w : Word) : (s.setReg a w).reg a = w := by
  simp [State.reg_setReg]

theorem State.reg_setReg_ne (s : State) {a b : Nat} (w : Word) (h : a ≠ b) : (s.setReg a w).reg b = s.reg b := by
  simp [State.reg_setReg, h]

theorem State.reg_put (s : State) (f : Fld) (v b : Nat) :
    (s.put f v).reg b = if f.addr = b then setBits (s.reg f.addr) f.hi f.lo v else s.reg b := State.reg_setReg _ _ _ _

/-- A field just written reads as the written value's low bits. -/
theorem State.get_put (s : State) (f : Fld) (v : Nat) (hl : f.lo ≤ f.hi) (h : f.hi < 64) :
    (s.put f v).get f = v % 2 ^ (f.hi - f.lo + 1) := by
  unfold State.get
  rw [State.reg_put, if_pos rfl]
  exact getBits_setBits_same _ v hl h

/-- A write of a field leaves the fields of other registers. -/
theorem State.get_put_ne (s : State) (f g : Fld) (v : Nat) (h : f.addr ≠ g.addr) : (s.put f v).get g = s.get g := by
  unfold State.get
  rw [State.reg_put, if_neg h]

/-- A write of a field leaves the other fields of its register. -/
theorem State.get_put_apart (s : State) (f g : Fld) (v : Nat) (hl : f.lo ≤ f.hi) (h : f.hi < 64) (hl' : g.lo ≤ g.hi)
    (h' : g.hi < 64) (ha : f.hi < g.lo ∨ g.hi < f.lo) : (s.put f v).get g = s.get g := by
  unfold State.get
  rw [State.reg_put]
  split
  · next e => rw [getBits_setBits_apart _ v hl h hl' h' ha, e]
  · rfl

theorem State.reg_bump (s : State) (a b : Nat) : (s.bump a).reg b = if a = b then s.reg a + 1 else s.reg b :=
  State.reg_setReg _ _ _ _

theorem State.get_bump_ne (s : State) (a : Nat) (g : Fld) (h : a ≠ g.addr) : (s.bump a).get g = s.get g := by
  unfold State.get
  rw [State.reg_bump, if_neg h]

@[simp] theorem State.reaches_at (s : State) (t req off : Nat) : (s.at t).reaches req off = s.reaches req off := rfl

/-- A write by a requester that reaches the register is its effect. -/
theorem State.asReq_of_reaches {s : State} {req off : Nat} (h : s.reaches req off = true) (size val : Nat) (f : State → State) :
    s.asReq req off size val f = f s := if_pos h

/-- A read by a requester that reaches the register is its effect. -/
theorem State.asReader_of_reaches {s : State} {req off : Nat} (h : s.reaches req off = true) (size : Nat) (f : State → State) :
    s.asReader req off size f = f s := if_pos h

theorem State.get_of_regs {s t : State} (h : t.regs = s.regs) (f : Fld) : t.get f = s.get f := by
  unfold State.get State.reg
  rw [h]

end Machine

end Sys2Proof
end

