-- ==== Sys2Proof/Laws/State.lean ====
section
/-!
SUPPORT. What each basic update of a state leaves in every field that it does not write: one lemma per field per update,
true by computation, so that no proof unfolds a record update.
-/

namespace Sys2Proof.Machine

/-! `State.at` -/

@[simp] theorem State.at_pending (s : State) (t : Nat) : (s.at t).pending = s.pending := rfl
@[simp] theorem State.at_frac (s : State) (t : Nat) : (s.at t).frac = s.frac := rfl
@[simp] theorem State.at_regs (s : State) (t : Nat) : (s.at t).regs = s.regs := rfl
@[simp] theorem State.at_shadow (s : State) (t : Nat) : (s.at t).shadow = s.shadow := rfl
@[simp] theorem State.at_groups (s : State) (t : Nat) : (s.at t).groups = s.groups := rfl
@[simp] theorem State.at_mem (s : State) (t : Nat) : (s.at t).mem = s.mem := rfl
@[simp] theorem State.at_out (s : State) (t : Nat) : (s.at t).out = s.out := rfl
@[simp] theorem State.at_fresh (s : State) (t : Nat) : (s.at t).fresh = s.fresh := rfl
@[simp] theorem State.at_hif (s : State) (t : Nat) : (s.at t).hif = s.hif := rfl
@[simp] theorem State.at_ras (s : State) (t : Nat) : (s.at t).ras = s.ras := rfl
@[simp] theorem State.at_mm (s : State) (t : Nat) : (s.at t).mm = s.mm := rfl
@[simp] theorem State.at_hg (s : State) (t : Nat) : (s.at t).hg = s.hg := rfl
@[simp] theorem State.at_frf (s : State) (t : Nat) : (s.at t).frf = s.frf := rfl
@[simp] theorem State.at_fw (s : State) (t : Nat) : (s.at t).fw = s.fw := rfl
@[simp] theorem State.at_sd (s : State) (t : Nat) : (s.at t).sd = s.sd := rfl
@[simp] theorem State.at_img (s : State) (t : Nat) : (s.at t).img = s.img := rfl
@[simp] theorem State.at_cp (s : State) (t : Nat) : (s.at t).cp = s.cp := rfl
@[simp] theorem State.at_aid (s : State) (t : Nat) : (s.at t).aid = s.aid := rfl
@[simp] theorem State.at_cal (s : State) (t : Nat) : (s.at t).cal = s.cal := rfl
@[simp] theorem State.at_built (s : State) (t : Nat) : (s.at t).built = s.built := rfl
@[simp] theorem State.at_mbx (s : State) (t : Nat) : (s.at t).mbx = s.mbx := rfl
@[simp] theorem State.at_net (s : State) (t : Nat) : (s.at t).net = s.net := rfl
@[simp] theorem State.at_bud (s : State) (t : Nat) : (s.at t).bud = s.bud := rfl
@[simp] theorem State.at_sec (s : State) (t : Nat) : (s.at t).sec = s.sec := rfl
@[simp] theorem State.at_adm (s : State) (t : Nat) : (s.at t).adm = s.adm := rfl
@[simp] theorem State.at_pow (s : State) (t : Nat) : (s.at t).pow = s.pow := rfl
@[simp] theorem State.at_aon (s : State) (t : Nat) : (s.at t).aon = s.aon := rfl

/-! `State.emit` -/

@[simp] theorem State.emit_pending (s : State) (o : Out) : (s.emit o).pending = s.pending := rfl
@[simp] theorem State.emit_time (s : State) (o : Out) : (s.emit o).time = s.time := rfl
@[simp] theorem State.emit_frac (s : State) (o : Out) : (s.emit o).frac = s.frac := rfl
@[simp] theorem State.emit_regs (s : State) (o : Out) : (s.emit o).regs = s.regs := rfl
@[simp] theorem State.emit_shadow (s : State) (o : Out) : (s.emit o).shadow = s.shadow := rfl
@[simp] theorem State.emit_groups (s : State) (o : Out) : (s.emit o).groups = s.groups := rfl
@[simp] theorem State.emit_mem (s : State) (o : Out) : (s.emit o).mem = s.mem := rfl
@[simp] theorem State.emit_fresh (s : State) (o : Out) : (s.emit o).fresh = s.fresh := rfl
@[simp] theorem State.emit_hif (s : State) (o : Out) : (s.emit o).hif = s.hif := rfl
@[simp] theorem State.emit_ras (s : State) (o : Out) : (s.emit o).ras = s.ras := rfl
@[simp] theorem State.emit_mm (s : State) (o : Out) : (s.emit o).mm = s.mm := rfl
@[simp] theorem State.emit_hg (s : State) (o : Out) : (s.emit o).hg = s.hg := rfl
@[simp] theorem State.emit_frf (s : State) (o : Out) : (s.emit o).frf = s.frf := rfl
@[simp] theorem State.emit_fw (s : State) (o : Out) : (s.emit o).fw = s.fw := rfl
@[simp] theorem State.emit_sd (s : State) (o : Out) : (s.emit o).sd = s.sd := rfl
@[simp] theorem State.emit_img (s : State) (o : Out) : (s.emit o).img = s.img := rfl
@[simp] theorem State.emit_cp (s : State) (o : Out) : (s.emit o).cp = s.cp := rfl
@[simp] theorem State.emit_aid (s : State) (o : Out) : (s.emit o).aid = s.aid := rfl
@[simp] theorem State.emit_cal (s : State) (o : Out) : (s.emit o).cal = s.cal := rfl
@[simp] theorem State.emit_built (s : State) (o : Out) : (s.emit o).built = s.built := rfl
@[simp] theorem State.emit_mbx (s : State) (o : Out) : (s.emit o).mbx = s.mbx := rfl
@[simp] theorem State.emit_net (s : State) (o : Out) : (s.emit o).net = s.net := rfl
@[simp] theorem State.emit_bud (s : State) (o : Out) : (s.emit o).bud = s.bud := rfl
@[simp] theorem State.emit_sec (s : State) (o : Out) : (s.emit o).sec = s.sec := rfl
@[simp] theorem State.emit_adm (s : State) (o : Out) : (s.emit o).adm = s.adm := rfl
@[simp] theorem State.emit_pow (s : State) (o : Out) : (s.emit o).pow = s.pow := rfl
@[simp] theorem State.emit_aon (s : State) (o : Out) : (s.emit o).aon = s.aon := rfl

/-! `State.emitAll` -/

@[simp] theorem State.emitAll_pending (s : State) (os : List Out) : (s.emitAll os).pending = s.pending := rfl
@[simp] theorem State.emitAll_time (s : State) (os : List Out) : (s.emitAll os).time = s.time := rfl
@[simp] theorem State.emitAll_frac (s : State) (os : List Out) : (s.emitAll os).frac = s.frac := rfl
@[simp] theorem State.emitAll_regs (s : State) (os : List Out) : (s.emitAll os).regs = s.regs := rfl
@[simp] theorem State.emitAll_shadow (s : State) (os : List Out) : (s.emitAll os).shadow = s.shadow := rfl
@[simp] theorem State.emitAll_groups (s : State) (os : List Out) : (s.emitAll os).groups = s.groups := rfl
@[simp] theorem State.emitAll_mem (s : State) (os : List Out) : (s.emitAll os).mem = s.mem := rfl
@[simp] theorem State.emitAll_fresh (s : State) (os : List Out) : (s.emitAll os).fresh = s.fresh := rfl
@[simp] theorem State.emitAll_hif (s : State) (os : List Out) : (s.emitAll os).hif = s.hif := rfl
@[simp] theorem State.emitAll_ras (s : State) (os : List Out) : (s.emitAll os).ras = s.ras := rfl
@[simp] theorem State.emitAll_mm (s : State) (os : List Out) : (s.emitAll os).mm = s.mm := rfl
@[simp] theorem State.emitAll_hg (s : State) (os : List Out) : (s.emitAll os).hg = s.hg := rfl
@[simp] theorem State.emitAll_frf (s : State) (os : List Out) : (s.emitAll os).frf = s.frf := rfl
@[simp] theorem State.emitAll_fw (s : State) (os : List Out) : (s.emitAll os).fw = s.fw := rfl
@[simp] theorem State.emitAll_sd (s : State) (os : List Out) : (s.emitAll os).sd = s.sd := rfl
@[simp] theorem State.emitAll_img (s : State) (os : List Out) : (s.emitAll os).img = s.img := rfl
@[simp] theorem State.emitAll_cp (s : State) (os : List Out) : (s.emitAll os).cp = s.cp := rfl
@[simp] theorem State.emitAll_aid (s : State) (os : List Out) : (s.emitAll os).aid = s.aid := rfl
@[simp] theorem State.emitAll_cal (s : State) (os : List Out) : (s.emitAll os).cal = s.cal := rfl
@[simp] theorem State.emitAll_built (s : State) (os : List Out) : (s.emitAll os).built = s.built := rfl
@[simp] theorem State.emitAll_mbx (s : State) (os : List Out) : (s.emitAll os).mbx = s.mbx := rfl
@[simp] theorem State.emitAll_net (s : State) (os : List Out) : (s.emitAll os).net = s.net := rfl
@[simp] theorem State.emitAll_bud (s : State) (os : List Out) : (s.emitAll os).bud = s.bud := rfl
@[simp] theorem State.emitAll_sec (s : State) (os : List Out) : (s.emitAll os).sec = s.sec := rfl
@[simp] theorem State.emitAll_adm (s : State) (os : List Out) : (s.emitAll os).adm = s.adm := rfl
@[simp] theorem State.emitAll_pow (s : State) (os : List Out) : (s.emitAll os).pow = s.pow := rfl
@[simp] theorem State.emitAll_aon (s : State) (os : List Out) : (s.emitAll os).aon = s.aon := rfl

/-! `State.tickFree` -/

@[simp] theorem State.tickFree_pending (s : State) : (s.tickFree).pending = s.pending := rfl
@[simp] theorem State.tickFree_time (s : State) : (s.tickFree).time = s.time := rfl
@[simp] theorem State.tickFree_frac (s : State) : (s.tickFree).frac = s.frac := rfl
@[simp] theorem State.tickFree_regs (s : State) : (s.tickFree).regs = s.regs := rfl
@[simp] theorem State.tickFree_shadow (s : State) : (s.tickFree).shadow = s.shadow := rfl
@[simp] theorem State.tickFree_groups (s : State) : (s.tickFree).groups = s.groups := rfl
@[simp] theorem State.tickFree_mem (s : State) : (s.tickFree).mem = s.mem := rfl
@[simp] theorem State.tickFree_out (s : State) : (s.tickFree).out = s.out := rfl
@[simp] theorem State.tickFree_hif (s : State) : (s.tickFree).hif = s.hif := rfl
@[simp] theorem State.tickFree_ras (s : State) : (s.tickFree).ras = s.ras := rfl
@[simp] theorem State.tickFree_mm (s : State) : (s.tickFree).mm = s.mm := rfl
@[simp] theorem State.tickFree_hg (s : State) : (s.tickFree).hg = s.hg := rfl
@[simp] theorem State.tickFree_frf (s : State) : (s.tickFree).frf = s.frf := rfl
@[simp] theorem State.tickFree_fw (s : State) : (s.tickFree).fw = s.fw := rfl
@[simp] theorem State.tickFree_sd (s : State) : (s.tickFree).sd = s.sd := rfl
@[simp] theorem State.tickFree_img (s : State) : (s.tickFree).img = s.img := rfl
@[simp] theorem State.tickFree_cp (s : State) : (s.tickFree).cp = s.cp := rfl
@[simp] theorem State.tickFree_aid (s : State) : (s.tickFree).aid = s.aid := rfl
@[simp] theorem State.tickFree_cal (s : State) : (s.tickFree).cal = s.cal := rfl
@[simp] theorem State.tickFree_built (s : State) : (s.tickFree).built = s.built := rfl
@[simp] theorem State.tickFree_mbx (s : State) : (s.tickFree).mbx = s.mbx := rfl
@[simp] theorem State.tickFree_net (s : State) : (s.tickFree).net = s.net := rfl
@[simp] theorem State.tickFree_bud (s : State) : (s.tickFree).bud = s.bud := rfl
@[simp] theorem State.tickFree_sec (s : State) : (s.tickFree).sec = s.sec := rfl
@[simp] theorem State.tickFree_adm (s : State) : (s.tickFree).adm = s.adm := rfl
@[simp] theorem State.tickFree_pow (s : State) : (s.tickFree).pow = s.pow := rfl
@[simp] theorem State.tickFree_aon (s : State) : (s.tickFree).aon = s.aon := rfl

/-! `State.setReg` -/

@[simp] theorem State.setReg_pending (s : State) (a : Nat) (w : Word) : (s.setReg a w).pending = s.pending := rfl
@[simp] theorem State.setReg_time (s : State) (a : Nat) (w : Word) : (s.setReg a w).time = s.time := rfl
@[simp] theorem State.setReg_frac (s : State) (a : Nat) (w : Word) : (s.setReg a w).frac = s.frac := rfl
@[simp] theorem State.setReg_shadow (s : State) (a : Nat) (w : Word) : (s.setReg a w).shadow = s.shadow := rfl
@[simp] theorem State.setReg_groups (s : State) (a : Nat) (w : Word) : (s.setReg a w).groups = s.groups := rfl
@[simp] theorem State.setReg_mem (s : State) (a : Nat) (w : Word) : (s.setReg a w).mem = s.mem := rfl
@[simp] theorem State.setReg_out (s : State) (a : Nat) (w : Word) : (s.setReg a w).out = s.out := rfl
@[simp] theorem State.setReg_fresh (s : State) (a : Nat) (w : Word) : (s.setReg a w).fresh = s.fresh := rfl
@[simp] theorem State.setReg_hif (s : State) (a : Nat) (w : Word) : (s.setReg a w).hif = s.hif := rfl
@[simp] theorem State.setReg_ras (s : State) (a : Nat) (w : Word) : (s.setReg a w).ras = s.ras := rfl
@[simp] theorem State.setReg_mm (s : State) (a : Nat) (w : Word) : (s.setReg a w).mm = s.mm := rfl
@[simp] theorem State.setReg_hg (s : State) (a : Nat) (w : Word) : (s.setReg a w).hg = s.hg := rfl
@[simp] theorem State.setReg_frf (s : State) (a : Nat) (w : Word) : (s.setReg a w).frf = s.frf := rfl
@[simp] theorem State.setReg_fw (s : State) (a : Nat) (w : Word) : (s.setReg a w).fw = s.fw := rfl
@[simp] theorem State.setReg_sd (s : State) (a : Nat) (w : Word) : (s.setReg a w).sd = s.sd := rfl
@[simp] theorem State.setReg_img (s : State) (a : Nat) (w : Word) : (s.setReg a w).img = s.img := rfl
@[simp] theorem State.setReg_cp (s : State) (a : Nat) (w : Word) : (s.setReg a w).cp = s.cp := rfl
@[simp] theorem State.setReg_aid (s : State) (a : Nat) (w : Word) : (s.setReg a w).aid = s.aid := rfl
@[simp] theorem State.setReg_cal (s : State) (a : Nat) (w : Word) : (s.setReg a w).cal = s.cal := rfl
@[simp] theorem State.setReg_built (s : State) (a : Nat) (w : Word) : (s.setReg a w).built = s.built := rfl
@[simp] theorem State.setReg_mbx (s : State) (a : Nat) (w : Word) : (s.setReg a w).mbx = s.mbx := rfl
@[simp] theorem State.setReg_net (s : State) (a : Nat) (w : Word) : (s.setReg a w).net = s.net := rfl
@[simp] theorem State.setReg_bud (s : State) (a : Nat) (w : Word) : (s.setReg a w).bud = s.bud := rfl
@[simp] theorem State.setReg_sec (s : State) (a : Nat) (w : Word) : (s.setReg a w).sec = s.sec := rfl
@[simp] theorem State.setReg_adm (s : State) (a : Nat) (w : Word) : (s.setReg a w).adm = s.adm := rfl
@[simp] theorem State.setReg_pow (s : State) (a : Nat) (w : Word) : (s.setReg a w).pow = s.pow := rfl
@[simp] theorem State.setReg_aon (s : State) (a : Nat) (w : Word) : (s.setReg a w).aon = s.aon := rfl

/-! `State.put` -/

@[simp] theorem State.put_pending (s : State) (f : Fld) (v : Nat) : (s.put f v).pending = s.pending := rfl
@[simp] theorem State.put_time (s : State) (f : Fld) (v : Nat) : (s.put f v).time = s.time := rfl
@[simp] theorem State.put_frac (s : State) (f : Fld) (v : Nat) : (s.put f v).frac = s.frac := rfl
@[simp] theorem State.put_shadow (s : State) (f : Fld) (v : Nat) : (s.put f v).shadow = s.shadow := rfl
@[simp] theorem State.put_groups (s : State) (f : Fld) (v : Nat) : (s.put f v).groups = s.groups := rfl
@[simp] theorem State.put_mem (s : State) (f : Fld) (v : Nat) : (s.put f v).mem = s.mem := rfl
@[simp] theorem State.put_out (s : State) (f : Fld) (v : Nat) : (s.put f v).out = s.out := rfl
@[simp] theorem State.put_fresh (s : State) (f : Fld) (v : Nat) : (s.put f v).fresh = s.fresh := rfl
@[simp] theorem State.put_hif (s : State) (f : Fld) (v : Nat) : (s.put f v).hif = s.hif := rfl
@[simp] theorem State.put_ras (s : State) (f : Fld) (v : Nat) : (s.put f v).ras = s.ras := rfl
@[simp] theorem State.put_mm (s : State) (f : Fld) (v : Nat) : (s.put f v).mm = s.mm := rfl
@[simp] theorem State.put_hg (s : State) (f : Fld) (v : Nat) : (s.put f v).hg = s.hg := rfl
@[simp] theorem State.put_frf (s : State) (f : Fld) (v : Nat) : (s.put f v).frf = s.frf := rfl
@[simp] theorem State.put_fw (s : State) (f : Fld) (v : Nat) : (s.put f v).fw = s.fw := rfl
@[simp] theorem State.put_sd (s : State) (f : Fld) (v : Nat) : (s.put f v).sd = s.sd := rfl
@[simp] theorem State.put_img (s : State) (f : Fld) (v : Nat) : (s.put f v).img = s.img := rfl
@[simp] theorem State.put_cp (s : State) (f : Fld) (v : Nat) : (s.put f v).cp = s.cp := rfl
@[simp] theorem State.put_aid (s : State) (f : Fld) (v : Nat) : (s.put f v).aid = s.aid := rfl
@[simp] theorem State.put_cal (s : State) (f : Fld) (v : Nat) : (s.put f v).cal = s.cal := rfl
@[simp] theorem State.put_built (s : State) (f : Fld) (v : Nat) : (s.put f v).built = s.built := rfl
@[simp] theorem State.put_mbx (s : State) (f : Fld) (v : Nat) : (s.put f v).mbx = s.mbx := rfl
@[simp] theorem State.put_net (s : State) (f : Fld) (v : Nat) : (s.put f v).net = s.net := rfl
@[simp] theorem State.put_bud (s : State) (f : Fld) (v : Nat) : (s.put f v).bud = s.bud := rfl
@[simp] theorem State.put_sec (s : State) (f : Fld) (v : Nat) : (s.put f v).sec = s.sec := rfl
@[simp] theorem State.put_adm (s : State) (f : Fld) (v : Nat) : (s.put f v).adm = s.adm := rfl
@[simp] theorem State.put_pow (s : State) (f : Fld) (v : Nat) : (s.put f v).pow = s.pow := rfl
@[simp] theorem State.put_aon (s : State) (f : Fld) (v : Nat) : (s.put f v).aon = s.aon := rfl

/-! `State.bumpBy` -/

@[simp] theorem State.bumpBy_pending (s : State) (a n : Nat) : (s.bumpBy a n).pending = s.pending := rfl
@[simp] theorem State.bumpBy_time (s : State) (a n : Nat) : (s.bumpBy a n).time = s.time := rfl
@[simp] theorem State.bumpBy_frac (s : State) (a n : Nat) : (s.bumpBy a n).frac = s.frac := rfl
@[simp] theorem State.bumpBy_shadow (s : State) (a n : Nat) : (s.bumpBy a n).shadow = s.shadow := rfl
@[simp] theorem State.bumpBy_groups (s : State) (a n : Nat) : (s.bumpBy a n).groups = s.groups := rfl
@[simp] theorem State.bumpBy_mem (s : State) (a n : Nat) : (s.bumpBy a n).mem = s.mem := rfl
@[simp] theorem State.bumpBy_out (s : State) (a n : Nat) : (s.bumpBy a n).out = s.out := rfl
@[simp] theorem State.bumpBy_fresh (s : State) (a n : Nat) : (s.bumpBy a n).fresh = s.fresh := rfl
@[simp] theorem State.bumpBy_hif (s : State) (a n : Nat) : (s.bumpBy a n).hif = s.hif := rfl
@[simp] theorem State.bumpBy_ras (s : State) (a n : Nat) : (s.bumpBy a n).ras = s.ras := rfl
@[simp] theorem State.bumpBy_mm (s : State) (a n : Nat) : (s.bumpBy a n).mm = s.mm := rfl
@[simp] theorem State.bumpBy_hg (s : State) (a n : Nat) : (s.bumpBy a n).hg = s.hg := rfl
@[simp] theorem State.bumpBy_frf (s : State) (a n : Nat) : (s.bumpBy a n).frf = s.frf := rfl
@[simp] theorem State.bumpBy_fw (s : State) (a n : Nat) : (s.bumpBy a n).fw = s.fw := rfl
@[simp] theorem State.bumpBy_sd (s : State) (a n : Nat) : (s.bumpBy a n).sd = s.sd := rfl
@[simp] theorem State.bumpBy_img (s : State) (a n : Nat) : (s.bumpBy a n).img = s.img := rfl
@[simp] theorem State.bumpBy_cp (s : State) (a n : Nat) : (s.bumpBy a n).cp = s.cp := rfl
@[simp] theorem State.bumpBy_aid (s : State) (a n : Nat) : (s.bumpBy a n).aid = s.aid := rfl
@[simp] theorem State.bumpBy_cal (s : State) (a n : Nat) : (s.bumpBy a n).cal = s.cal := rfl
@[simp] theorem State.bumpBy_built (s : State) (a n : Nat) : (s.bumpBy a n).built = s.built := rfl
@[simp] theorem State.bumpBy_mbx (s : State) (a n : Nat) : (s.bumpBy a n).mbx = s.mbx := rfl
@[simp] theorem State.bumpBy_net (s : State) (a n : Nat) : (s.bumpBy a n).net = s.net := rfl
@[simp] theorem State.bumpBy_bud (s : State) (a n : Nat) : (s.bumpBy a n).bud = s.bud := rfl
@[simp] theorem State.bumpBy_sec (s : State) (a n : Nat) : (s.bumpBy a n).sec = s.sec := rfl
@[simp] theorem State.bumpBy_adm (s : State) (a n : Nat) : (s.bumpBy a n).adm = s.adm := rfl
@[simp] theorem State.bumpBy_pow (s : State) (a n : Nat) : (s.bumpBy a n).pow = s.pow := rfl
@[simp] theorem State.bumpBy_aon (s : State) (a n : Nat) : (s.bumpBy a n).aon = s.aon := rfl

/-! `State.bump` -/

@[simp] theorem State.bump_pending (s : State) (a : Nat) : (s.bump a).pending = s.pending := rfl
@[simp] theorem State.bump_time (s : State) (a : Nat) : (s.bump a).time = s.time := rfl
@[simp] theorem State.bump_frac (s : State) (a : Nat) : (s.bump a).frac = s.frac := rfl
@[simp] theorem State.bump_shadow (s : State) (a : Nat) : (s.bump a).shadow = s.shadow := rfl
@[simp] theorem State.bump_groups (s : State) (a : Nat) : (s.bump a).groups = s.groups := rfl
@[simp] theorem State.bump_mem (s : State) (a : Nat) : (s.bump a).mem = s.mem := rfl
@[simp] theorem State.bump_out (s : State) (a : Nat) : (s.bump a).out = s.out := rfl
@[simp] theorem State.bump_fresh (s : State) (a : Nat) : (s.bump a).fresh = s.fresh := rfl
@[simp] theorem State.bump_hif (s : State) (a : Nat) : (s.bump a).hif = s.hif := rfl
@[simp] theorem State.bump_ras (s : State) (a : Nat) : (s.bump a).ras = s.ras := rfl
@[simp] theorem State.bump_mm (s : State) (a : Nat) : (s.bump a).mm = s.mm := rfl
@[simp] theorem State.bump_hg (s : State) (a : Nat) : (s.bump a).hg = s.hg := rfl
@[simp] theorem State.bump_frf (s : State) (a : Nat) : (s.bump a).frf = s.frf := rfl
@[simp] theorem State.bump_fw (s : State) (a : Nat) : (s.bump a).fw = s.fw := rfl
@[simp] theorem State.bump_sd (s : State) (a : Nat) : (s.bump a).sd = s.sd := rfl
@[simp] theorem State.bump_img (s : State) (a : Nat) : (s.bump a).img = s.img := rfl
@[simp] theorem State.bump_cp (s : State) (a : Nat) : (s.bump a).cp = s.cp := rfl
@[simp] theorem State.bump_aid (s : State) (a : Nat) : (s.bump a).aid = s.aid := rfl
@[simp] theorem State.bump_cal (s : State) (a : Nat) : (s.bump a).cal = s.cal := rfl
@[simp] theorem State.bump_built (s : State) (a : Nat) : (s.bump a).built = s.built := rfl
@[simp] theorem State.bump_mbx (s : State) (a : Nat) : (s.bump a).mbx = s.mbx := rfl
@[simp] theorem State.bump_net (s : State) (a : Nat) : (s.bump a).net = s.net := rfl
@[simp] theorem State.bump_bud (s : State) (a : Nat) : (s.bump a).bud = s.bud := rfl
@[simp] theorem State.bump_sec (s : State) (a : Nat) : (s.bump a).sec = s.sec := rfl
@[simp] theorem State.bump_adm (s : State) (a : Nat) : (s.bump a).adm = s.adm := rfl
@[simp] theorem State.bump_pow (s : State) (a : Nat) : (s.bump a).pow = s.pow := rfl
@[simp] theorem State.bump_aon (s : State) (a : Nat) : (s.bump a).aon = s.aon := rfl

/-! `State.setGroup` -/

@[simp] theorem State.setGroup_pending (s : State) (c : Nat) (g : GroupSt) : (s.setGroup c g).pending = s.pending := rfl
@[simp] theorem State.setGroup_time (s : State) (c : Nat) (g : GroupSt) : (s.setGroup c g).time = s.time := rfl
@[simp] theorem State.setGroup_frac (s : State) (c : Nat) (g : GroupSt) : (s.setGroup c g).frac = s.frac := rfl
@[simp] theorem State.setGroup_regs (s : State) (c : Nat) (g : GroupSt) : (s.setGroup c g).regs = s.regs := rfl
@[simp] theorem State.setGroup_shadow (s : State) (c : Nat) (g : GroupSt) : (s.setGroup c g).shadow = s.shadow := rfl
@[simp] theorem State.setGroup_mem (s : State) (c : Nat) (g : GroupSt) : (s.setGroup c g).mem = s.mem := rfl
@[simp] theorem State.setGroup_out (s : State) (c : Nat) (g : GroupSt) : (s.setGroup c g).out = s.out := rfl
@[simp] theorem State.setGroup_fresh (s : State) (c : Nat) (g : GroupSt) : (s.setGroup c g).fresh = s.fresh := rfl
@[simp] theorem State.setGroup_hif (s : State) (c : Nat) (g : GroupSt) : (s.setGroup c g).hif = s.hif := rfl
@[simp] theorem State.setGroup_ras (s : State) (c : Nat) (g : GroupSt) : (s.setGroup c g).ras = s.ras := rfl
@[simp] theorem State.setGroup_mm (s : State) (c : Nat) (g : GroupSt) : (s.setGroup c g).mm = s.mm := rfl
@[simp] theorem State.setGroup_hg (s : State) (c : Nat) (g : GroupSt) : (s.setGroup c g).hg = s.hg := rfl
@[simp] theorem State.setGroup_frf (s : State) (c : Nat) (g : GroupSt) : (s.setGroup c g).frf = s.frf := rfl
@[simp] theorem State.setGroup_fw (s : State) (c : Nat) (g : GroupSt) : (s.setGroup c g).fw = s.fw := rfl
@[simp] theorem State.setGroup_sd (s : State) (c : Nat) (g : GroupSt) : (s.setGroup c g).sd = s.sd := rfl
@[simp] theorem State.setGroup_img (s : State) (c : Nat) (g : GroupSt) : (s.setGroup c g).img = s.img := rfl
@[simp] theorem State.setGroup_cp (s : State) (c : Nat) (g : GroupSt) : (s.setGroup c g).cp = s.cp := rfl
@[simp] theorem State.setGroup_aid (s : State) (c : Nat) (g : GroupSt) : (s.setGroup c g).aid = s.aid := rfl
@[simp] theorem State.setGroup_cal (s : State) (c : Nat) (g : GroupSt) : (s.setGroup c g).cal = s.cal := rfl
@[simp] theorem State.setGroup_built (s : State) (c : Nat) (g : GroupSt) : (s.setGroup c g).built = s.built := rfl
@[simp] theorem State.setGroup_mbx (s : State) (c : Nat) (g : GroupSt) : (s.setGroup c g).mbx = s.mbx := rfl
@[simp] theorem State.setGroup_net (s : State) (c : Nat) (g : GroupSt) : (s.setGroup c g).net = s.net := rfl
@[simp] theorem State.setGroup_bud (s : State) (c : Nat) (g : GroupSt) : (s.setGroup c g).bud = s.bud := rfl
@[simp] theorem State.setGroup_sec (s : State) (c : Nat) (g : GroupSt) : (s.setGroup c g).sec = s.sec := rfl
@[simp] theorem State.setGroup_adm (s : State) (c : Nat) (g : GroupSt) : (s.setGroup c g).adm = s.adm := rfl
@[simp] theorem State.setGroup_pow (s : State) (c : Nat) (g : GroupSt) : (s.setGroup c g).pow = s.pow := rfl
@[simp] theorem State.setGroup_aon (s : State) (c : Nat) (g : GroupSt) : (s.setGroup c g).aon = s.aon := rfl

/-! `State.reloadShadow` -/

@[simp] theorem State.reloadShadow_pending (s : State) (c : Nat) : (s.reloadShadow c).pending = s.pending := rfl
@[simp] theorem State.reloadShadow_time (s : State) (c : Nat) : (s.reloadShadow c).time = s.time := rfl
@[simp] theorem State.reloadShadow_frac (s : State) (c : Nat) : (s.reloadShadow c).frac = s.frac := rfl
@[simp] theorem State.reloadShadow_regs (s : State) (c : Nat) : (s.reloadShadow c).regs = s.regs := rfl
@[simp] theorem State.reloadShadow_groups (s : State) (c : Nat) : (s.reloadShadow c).groups = s.groups := rfl
@[simp] theorem State.reloadShadow_mem (s : State) (c : Nat) : (s.reloadShadow c).mem = s.mem := rfl
@[simp] theorem State.reloadShadow_out (s : State) (c : Nat) : (s.reloadShadow c).out = s.out := rfl
@[simp] theorem State.reloadShadow_fresh (s : State) (c : Nat) : (s.reloadShadow c).fresh = s.fresh := rfl
@[simp] theorem State.reloadShadow_hif (s : State) (c : Nat) : (s.reloadShadow c).hif = s.hif := rfl
@[simp] theorem State.reloadShadow_ras (s : State) (c : Nat) : (s.reloadShadow c).ras = s.ras := rfl
@[simp] theorem State.reloadShadow_mm (s : State) (c : Nat) : (s.reloadShadow c).mm = s.mm := rfl
@[simp] theorem State.reloadShadow_hg (s : State) (c : Nat) : (s.reloadShadow c).hg = s.hg := rfl
@[simp] theorem State.reloadShadow_frf (s : State) (c : Nat) : (s.reloadShadow c).frf = s.frf := rfl
@[simp] theorem State.reloadShadow_fw (s : State) (c : Nat) : (s.reloadShadow c).fw = s.fw := rfl
@[simp] theorem State.reloadShadow_sd (s : State) (c : Nat) : (s.reloadShadow c).sd = s.sd := rfl
@[simp] theorem State.reloadShadow_img (s : State) (c : Nat) : (s.reloadShadow c).img = s.img := rfl
@[simp] theorem State.reloadShadow_cp (s : State) (c : Nat) : (s.reloadShadow c).cp = s.cp := rfl
@[simp] theorem State.reloadShadow_aid (s : State) (c : Nat) : (s.reloadShadow c).aid = s.aid := rfl
@[simp] theorem State.reloadShadow_cal (s : State) (c : Nat) : (s.reloadShadow c).cal = s.cal := rfl
@[simp] theorem State.reloadShadow_built (s : State) (c : Nat) : (s.reloadShadow c).built = s.built := rfl
@[simp] theorem State.reloadShadow_mbx (s : State) (c : Nat) : (s.reloadShadow c).mbx = s.mbx := rfl
@[simp] theorem State.reloadShadow_net (s : State) (c : Nat) : (s.reloadShadow c).net = s.net := rfl
@[simp] theorem State.reloadShadow_bud (s : State) (c : Nat) : (s.reloadShadow c).bud = s.bud := rfl
@[simp] theorem State.reloadShadow_sec (s : State) (c : Nat) : (s.reloadShadow c).sec = s.sec := rfl
@[simp] theorem State.reloadShadow_adm (s : State) (c : Nat) : (s.reloadShadow c).adm = s.adm := rfl
@[simp] theorem State.reloadShadow_pow (s : State) (c : Nat) : (s.reloadShadow c).pow = s.pow := rfl
@[simp] theorem State.reloadShadow_aon (s : State) (c : Nat) : (s.reloadShadow c).aon = s.aon := rfl

/-! `State.endClaim` -/

@[simp] theorem State.endClaim_pending (s : State) (c : Nat) : (s.endClaim c).pending = s.pending := rfl
@[simp] theorem State.endClaim_time (s : State) (c : Nat) : (s.endClaim c).time = s.time := rfl
@[simp] theorem State.endClaim_frac (s : State) (c : Nat) : (s.endClaim c).frac = s.frac := rfl
@[simp] theorem State.endClaim_regs (s : State) (c : Nat) : (s.endClaim c).regs = s.regs := rfl
@[simp] theorem State.endClaim_shadow (s : State) (c : Nat) : (s.endClaim c).shadow = s.shadow := rfl
@[simp] theorem State.endClaim_mem (s : State) (c : Nat) : (s.endClaim c).mem = s.mem := rfl
@[simp] theorem State.endClaim_out (s : State) (c : Nat) : (s.endClaim c).out = s.out := rfl
@[simp] theorem State.endClaim_fresh (s : State) (c : Nat) : (s.endClaim c).fresh = s.fresh := rfl
@[simp] theorem State.endClaim_hif (s : State) (c : Nat) : (s.endClaim c).hif = s.hif := rfl
@[simp] theorem State.endClaim_ras (s : State) (c : Nat) : (s.endClaim c).ras = s.ras := rfl
@[simp] theorem State.endClaim_mm (s : State) (c : Nat) : (s.endClaim c).mm = s.mm := rfl
@[simp] theorem State.endClaim_hg (s : State) (c : Nat) : (s.endClaim c).hg = s.hg := rfl
@[simp] theorem State.endClaim_frf (s : State) (c : Nat) : (s.endClaim c).frf = s.frf := rfl
@[simp] theorem State.endClaim_fw (s : State) (c : Nat) : (s.endClaim c).fw = s.fw := rfl
@[simp] theorem State.endClaim_sd (s : State) (c : Nat) : (s.endClaim c).sd = s.sd := rfl
@[simp] theorem State.endClaim_img (s : State) (c : Nat) : (s.endClaim c).img = s.img := rfl
@[simp] theorem State.endClaim_cp (s : State) (c : Nat) : (s.endClaim c).cp = s.cp := rfl
@[simp] theorem State.endClaim_aid (s : State) (c : Nat) : (s.endClaim c).aid = s.aid := rfl
@[simp] theorem State.endClaim_cal (s : State) (c : Nat) : (s.endClaim c).cal = s.cal := rfl
@[simp] theorem State.endClaim_built (s : State) (c : Nat) : (s.endClaim c).built = s.built := rfl
@[simp] theorem State.endClaim_mbx (s : State) (c : Nat) : (s.endClaim c).mbx = s.mbx := rfl
@[simp] theorem State.endClaim_net (s : State) (c : Nat) : (s.endClaim c).net = s.net := rfl
@[simp] theorem State.endClaim_bud (s : State) (c : Nat) : (s.endClaim c).bud = s.bud := rfl
@[simp] theorem State.endClaim_sec (s : State) (c : Nat) : (s.endClaim c).sec = s.sec := rfl
@[simp] theorem State.endClaim_adm (s : State) (c : Nat) : (s.endClaim c).adm = s.adm := rfl
@[simp] theorem State.endClaim_pow (s : State) (c : Nat) : (s.endClaim c).pow = s.pow := rfl
@[simp] theorem State.endClaim_aon (s : State) (c : Nat) : (s.endClaim c).aon = s.aon := rfl

/-! `State.setRing` -/

@[simp] theorem State.setRing_pending (s : State) (r : Nat) (x : Ring) : (s.setRing r x).pending = s.pending := rfl
@[simp] theorem State.setRing_time (s : State) (r : Nat) (x : Ring) : (s.setRing r x).time = s.time := rfl
@[simp] theorem State.setRing_frac (s : State) (r : Nat) (x : Ring) : (s.setRing r x).frac = s.frac := rfl
@[simp] theorem State.setRing_regs (s : State) (r : Nat) (x : Ring) : (s.setRing r x).regs = s.regs := rfl
@[simp] theorem State.setRing_shadow (s : State) (r : Nat) (x : Ring) : (s.setRing r x).shadow = s.shadow := rfl
@[simp] theorem State.setRing_groups (s : State) (r : Nat) (x : Ring) : (s.setRing r x).groups = s.groups := rfl
@[simp] theorem State.setRing_mem (s : State) (r : Nat) (x : Ring) : (s.setRing r x).mem = s.mem := rfl
@[simp] theorem State.setRing_out (s : State) (r : Nat) (x : Ring) : (s.setRing r x).out = s.out := rfl
@[simp] theorem State.setRing_fresh (s : State) (r : Nat) (x : Ring) : (s.setRing r x).fresh = s.fresh := rfl
@[simp] theorem State.setRing_ras (s : State) (r : Nat) (x : Ring) : (s.setRing r x).ras = s.ras := rfl
@[simp] theorem State.setRing_mm (s : State) (r : Nat) (x : Ring) : (s.setRing r x).mm = s.mm := rfl
@[simp] theorem State.setRing_hg (s : State) (r : Nat) (x : Ring) : (s.setRing r x).hg = s.hg := rfl
@[simp] theorem State.setRing_frf (s : State) (r : Nat) (x : Ring) : (s.setRing r x).frf = s.frf := rfl
@[simp] theorem State.setRing_fw (s : State) (r : Nat) (x : Ring) : (s.setRing r x).fw = s.fw := rfl
@[simp] theorem State.setRing_sd (s : State) (r : Nat) (x : Ring) : (s.setRing r x).sd = s.sd := rfl
@[simp] theorem State.setRing_img (s : State) (r : Nat) (x : Ring) : (s.setRing r x).img = s.img := rfl
@[simp] theorem State.setRing_cp (s : State) (r : Nat) (x : Ring) : (s.setRing r x).cp = s.cp := rfl
@[simp] theorem State.setRing_aid (s : State) (r : Nat) (x : Ring) : (s.setRing r x).aid = s.aid := rfl
@[simp] theorem State.setRing_cal (s : State) (r : Nat) (x : Ring) : (s.setRing r x).cal = s.cal := rfl
@[simp] theorem State.setRing_built (s : State) (r : Nat) (x : Ring) : (s.setRing r x).built = s.built := rfl
@[simp] theorem State.setRing_mbx (s : State) (r : Nat) (x : Ring) : (s.setRing r x).mbx = s.mbx := rfl
@[simp] theorem State.setRing_net (s : State) (r : Nat) (x : Ring) : (s.setRing r x).net = s.net := rfl
@[simp] theorem State.setRing_bud (s : State) (r : Nat) (x : Ring) : (s.setRing r x).bud = s.bud := rfl
@[simp] theorem State.setRing_sec (s : State) (r : Nat) (x : Ring) : (s.setRing r x).sec = s.sec := rfl
@[simp] theorem State.setRing_adm (s : State) (r : Nat) (x : Ring) : (s.setRing r x).adm = s.adm := rfl
@[simp] theorem State.setRing_pow (s : State) (r : Nat) (x : Ring) : (s.setRing r x).pow = s.pow := rfl
@[simp] theorem State.setRing_aon (s : State) (r : Nat) (x : Ring) : (s.setRing r x).aon = s.aon := rfl

/-! `State.setRel` -/

@[simp] theorem State.setRel_pending (s : State) (g : Nat) (x : Rel) : (s.setRel g x).pending = s.pending := rfl
@[simp] theorem State.setRel_time (s : State) (g : Nat) (x : Rel) : (s.setRel g x).time = s.time := rfl
@[simp] theorem State.setRel_frac (s : State) (g : Nat) (x : Rel) : (s.setRel g x).frac = s.frac := rfl
@[simp] theorem State.setRel_regs (s : State) (g : Nat) (x : Rel) : (s.setRel g x).regs = s.regs := rfl
@[simp] theorem State.setRel_shadow (s : State) (g : Nat) (x : Rel) : (s.setRel g x).shadow = s.shadow := rfl
@[simp] theorem State.setRel_groups (s : State) (g : Nat) (x : Rel) : (s.setRel g x).groups = s.groups := rfl
@[simp] theorem State.setRel_mem (s : State) (g : Nat) (x : Rel) : (s.setRel g x).mem = s.mem := rfl
@[simp] theorem State.setRel_out (s : State) (g : Nat) (x : Rel) : (s.setRel g x).out = s.out := rfl
@[simp] theorem State.setRel_fresh (s : State) (g : Nat) (x : Rel) : (s.setRel g x).fresh = s.fresh := rfl
@[simp] theorem State.setRel_hif (s : State) (g : Nat) (x : Rel) : (s.setRel g x).hif = s.hif := rfl
@[simp] theorem State.setRel_mm (s : State) (g : Nat) (x : Rel) : (s.setRel g x).mm = s.mm := rfl
@[simp] theorem State.setRel_hg (s : State) (g : Nat) (x : Rel) : (s.setRel g x).hg = s.hg := rfl
@[simp] theorem State.setRel_frf (s : State) (g : Nat) (x : Rel) : (s.setRel g x).frf = s.frf := rfl
@[simp] theorem State.setRel_fw (s : State) (g : Nat) (x : Rel) : (s.setRel g x).fw = s.fw := rfl
@[simp] theorem State.setRel_sd (s : State) (g : Nat) (x : Rel) : (s.setRel g x).sd = s.sd := rfl
@[simp] theorem State.setRel_img (s : State) (g : Nat) (x : Rel) : (s.setRel g x).img = s.img := rfl
@[simp] theorem State.setRel_cp (s : State) (g : Nat) (x : Rel) : (s.setRel g x).cp = s.cp := rfl
@[simp] theorem State.setRel_aid (s : State) (g : Nat) (x : Rel) : (s.setRel g x).aid = s.aid := rfl
@[simp] theorem State.setRel_cal (s : State) (g : Nat) (x : Rel) : (s.setRel g x).cal = s.cal := rfl
@[simp] theorem State.setRel_built (s : State) (g : Nat) (x : Rel) : (s.setRel g x).built = s.built := rfl
@[simp] theorem State.setRel_mbx (s : State) (g : Nat) (x : Rel) : (s.setRel g x).mbx = s.mbx := rfl
@[simp] theorem State.setRel_net (s : State) (g : Nat) (x : Rel) : (s.setRel g x).net = s.net := rfl
@[simp] theorem State.setRel_bud (s : State) (g : Nat) (x : Rel) : (s.setRel g x).bud = s.bud := rfl
@[simp] theorem State.setRel_sec (s : State) (g : Nat) (x : Rel) : (s.setRel g x).sec = s.sec := rfl
@[simp] theorem State.setRel_adm (s : State) (g : Nat) (x : Rel) : (s.setRel g x).adm = s.adm := rfl
@[simp] theorem State.setRel_pow (s : State) (g : Nat) (x : Rel) : (s.setRel g x).pow = s.pow := rfl
@[simp] theorem State.setRel_aon (s : State) (g : Nat) (x : Rel) : (s.setRel g x).aon = s.aon := rfl

/-! `State.setSlot` -/

@[simp] theorem State.setSlot_pending (s : State) (n : Nat) (x : ImgSlot) : (s.setSlot n x).pending = s.pending := rfl
@[simp] theorem State.setSlot_time (s : State) (n : Nat) (x : ImgSlot) : (s.setSlot n x).time = s.time := rfl
@[simp] theorem State.setSlot_frac (s : State) (n : Nat) (x : ImgSlot) : (s.setSlot n x).frac = s.frac := rfl
@[simp] theorem State.setSlot_regs (s : State) (n : Nat) (x : ImgSlot) : (s.setSlot n x).regs = s.regs := rfl
@[simp] theorem State.setSlot_shadow (s : State) (n : Nat) (x : ImgSlot) : (s.setSlot n x).shadow = s.shadow := rfl
@[simp] theorem State.setSlot_groups (s : State) (n : Nat) (x : ImgSlot) : (s.setSlot n x).groups = s.groups := rfl
@[simp] theorem State.setSlot_mem (s : State) (n : Nat) (x : ImgSlot) : (s.setSlot n x).mem = s.mem := rfl
@[simp] theorem State.setSlot_out (s : State) (n : Nat) (x : ImgSlot) : (s.setSlot n x).out = s.out := rfl
@[simp] theorem State.setSlot_fresh (s : State) (n : Nat) (x : ImgSlot) : (s.setSlot n x).fresh = s.fresh := rfl
@[simp] theorem State.setSlot_hif (s : State) (n : Nat) (x : ImgSlot) : (s.setSlot n x).hif = s.hif := rfl
@[simp] theorem State.setSlot_ras (s : State) (n : Nat) (x : ImgSlot) : (s.setSlot n x).ras = s.ras := rfl
@[simp] theorem State.setSlot_mm (s : State) (n : Nat) (x : ImgSlot) : (s.setSlot n x).mm = s.mm := rfl
@[simp] theorem State.setSlot_hg (s : State) (n : Nat) (x : ImgSlot) : (s.setSlot n x).hg = s.hg := rfl
@[simp] theorem State.setSlot_frf (s : State) (n : Nat) (x : ImgSlot) : (s.setSlot n x).frf = s.frf := rfl
@[simp] theorem State.setSlot_fw (s : State) (n : Nat) (x : ImgSlot) : (s.setSlot n x).fw = s.fw := rfl
@[simp] theorem State.setSlot_sd (s : State) (n : Nat) (x : ImgSlot) : (s.setSlot n x).sd = s.sd := rfl
@[simp] theorem State.setSlot_cp (s : State) (n : Nat) (x : ImgSlot) : (s.setSlot n x).cp = s.cp := rfl
@[simp] theorem State.setSlot_aid (s : State) (n : Nat) (x : ImgSlot) : (s.setSlot n x).aid = s.aid := rfl
@[simp] theorem State.setSlot_cal (s : State) (n : Nat) (x : ImgSlot) : (s.setSlot n x).cal = s.cal := rfl
@[simp] theorem State.setSlot_built (s : State) (n : Nat) (x : ImgSlot) : (s.setSlot n x).built = s.built := rfl
@[simp] theorem State.setSlot_mbx (s : State) (n : Nat) (x : ImgSlot) : (s.setSlot n x).mbx = s.mbx := rfl
@[simp] theorem State.setSlot_net (s : State) (n : Nat) (x : ImgSlot) : (s.setSlot n x).net = s.net := rfl
@[simp] theorem State.setSlot_bud (s : State) (n : Nat) (x : ImgSlot) : (s.setSlot n x).bud = s.bud := rfl
@[simp] theorem State.setSlot_sec (s : State) (n : Nat) (x : ImgSlot) : (s.setSlot n x).sec = s.sec := rfl
@[simp] theorem State.setSlot_adm (s : State) (n : Nat) (x : ImgSlot) : (s.setSlot n x).adm = s.adm := rfl
@[simp] theorem State.setSlot_pow (s : State) (n : Nat) (x : ImgSlot) : (s.setSlot n x).pow = s.pow := rfl
@[simp] theorem State.setSlot_aon (s : State) (n : Nat) (x : ImgSlot) : (s.setSlot n x).aon = s.aon := rfl

/-! `State.setPeer` -/

@[simp] theorem State.setPeer_pending (s : State) (k : Nat) (x : CvPeer) : (s.setPeer k x).pending = s.pending := rfl
@[simp] theorem State.setPeer_time (s : State) (k : Nat) (x : CvPeer) : (s.setPeer k x).time = s.time := rfl
@[simp] theorem State.setPeer_frac (s : State) (k : Nat) (x : CvPeer) : (s.setPeer k x).frac = s.frac := rfl
@[simp] theorem State.setPeer_regs (s : State) (k : Nat) (x : CvPeer) : (s.setPeer k x).regs = s.regs := rfl
@[simp] theorem State.setPeer_shadow (s : State) (k : Nat) (x : CvPeer) : (s.setPeer k x).shadow = s.shadow := rfl
@[simp] theorem State.setPeer_groups (s : State) (k : Nat) (x : CvPeer) : (s.setPeer k x).groups = s.groups := rfl
@[simp] theorem State.setPeer_mem (s : State) (k : Nat) (x : CvPeer) : (s.setPeer k x).mem = s.mem := rfl
@[simp] theorem State.setPeer_out (s : State) (k : Nat) (x : CvPeer) : (s.setPeer k x).out = s.out := rfl
@[simp] theorem State.setPeer_fresh (s : State) (k : Nat) (x : CvPeer) : (s.setPeer k x).fresh = s.fresh := rfl
@[simp] theorem State.setPeer_hif (s : State) (k : Nat) (x : CvPeer) : (s.setPeer k x).hif = s.hif := rfl
@[simp] theorem State.setPeer_ras (s : State) (k : Nat) (x : CvPeer) : (s.setPeer k x).ras = s.ras := rfl
@[simp] theorem State.setPeer_mm (s : State) (k : Nat) (x : CvPeer) : (s.setPeer k x).mm = s.mm := rfl
@[simp] theorem State.setPeer_hg (s : State) (k : Nat) (x : CvPeer) : (s.setPeer k x).hg = s.hg := rfl
@[simp] theorem State.setPeer_frf (s : State) (k : Nat) (x : CvPeer) : (s.setPeer k x).frf = s.frf := rfl
@[simp] theorem State.setPeer_fw (s : State) (k : Nat) (x : CvPeer) : (s.setPeer k x).fw = s.fw := rfl
@[simp] theorem State.setPeer_sd (s : State) (k : Nat) (x : CvPeer) : (s.setPeer k x).sd = s.sd := rfl
@[simp] theorem State.setPeer_img (s : State) (k : Nat) (x : CvPeer) : (s.setPeer k x).img = s.img := rfl
@[simp] theorem State.setPeer_cp (s : State) (k : Nat) (x : CvPeer) : (s.setPeer k x).cp = s.cp := rfl
@[simp] theorem State.setPeer_aid (s : State) (k : Nat) (x : CvPeer) : (s.setPeer k x).aid = s.aid := rfl
@[simp] theorem State.setPeer_cal (s : State) (k : Nat) (x : CvPeer) : (s.setPeer k x).cal = s.cal := rfl
@[simp] theorem State.setPeer_built (s : State) (k : Nat) (x : CvPeer) : (s.setPeer k x).built = s.built := rfl
@[simp] theorem State.setPeer_mbx (s : State) (k : Nat) (x : CvPeer) : (s.setPeer k x).mbx = s.mbx := rfl
@[simp] theorem State.setPeer_bud (s : State) (k : Nat) (x : CvPeer) : (s.setPeer k x).bud = s.bud := rfl
@[simp] theorem State.setPeer_sec (s : State) (k : Nat) (x : CvPeer) : (s.setPeer k x).sec = s.sec := rfl
@[simp] theorem State.setPeer_adm (s : State) (k : Nat) (x : CvPeer) : (s.setPeer k x).adm = s.adm := rfl
@[simp] theorem State.setPeer_pow (s : State) (k : Nat) (x : CvPeer) : (s.setPeer k x).pow = s.pow := rfl
@[simp] theorem State.setPeer_aon (s : State) (k : Nat) (x : CvPeer) : (s.setPeer k x).aon = s.aon := rfl

/-! `State.setCtx` -/

@[simp] theorem State.setCtx_pending (s : State) (c : Ctx) : (s.setCtx c).pending = s.pending := rfl
@[simp] theorem State.setCtx_time (s : State) (c : Ctx) : (s.setCtx c).time = s.time := rfl
@[simp] theorem State.setCtx_frac (s : State) (c : Ctx) : (s.setCtx c).frac = s.frac := rfl
@[simp] theorem State.setCtx_regs (s : State) (c : Ctx) : (s.setCtx c).regs = s.regs := rfl
@[simp] theorem State.setCtx_shadow (s : State) (c : Ctx) : (s.setCtx c).shadow = s.shadow := rfl
@[simp] theorem State.setCtx_groups (s : State) (c : Ctx) : (s.setCtx c).groups = s.groups := rfl
@[simp] theorem State.setCtx_mem (s : State) (c : Ctx) : (s.setCtx c).mem = s.mem := rfl
@[simp] theorem State.setCtx_out (s : State) (c : Ctx) : (s.setCtx c).out = s.out := rfl
@[simp] theorem State.setCtx_fresh (s : State) (c : Ctx) : (s.setCtx c).fresh = s.fresh := rfl
@[simp] theorem State.setCtx_hif (s : State) (c : Ctx) : (s.setCtx c).hif = s.hif := rfl
@[simp] theorem State.setCtx_ras (s : State) (c : Ctx) : (s.setCtx c).ras = s.ras := rfl
@[simp] theorem State.setCtx_mm (s : State) (c : Ctx) : (s.setCtx c).mm = s.mm := rfl
@[simp] theorem State.setCtx_hg (s : State) (c : Ctx) : (s.setCtx c).hg = s.hg := rfl
@[simp] theorem State.setCtx_frf (s : State) (c : Ctx) : (s.setCtx c).frf = s.frf := rfl
@[simp] theorem State.setCtx_fw (s : State) (c : Ctx) : (s.setCtx c).fw = s.fw := rfl
@[simp] theorem State.setCtx_sd (s : State) (c : Ctx) : (s.setCtx c).sd = s.sd := rfl
@[simp] theorem State.setCtx_img (s : State) (c : Ctx) : (s.setCtx c).img = s.img := rfl
@[simp] theorem State.setCtx_cp (s : State) (c : Ctx) : (s.setCtx c).cp = s.cp := rfl
@[simp] theorem State.setCtx_cal (s : State) (c : Ctx) : (s.setCtx c).cal = s.cal := rfl
@[simp] theorem State.setCtx_built (s : State) (c : Ctx) : (s.setCtx c).built = s.built := rfl
@[simp] theorem State.setCtx_mbx (s : State) (c : Ctx) : (s.setCtx c).mbx = s.mbx := rfl
@[simp] theorem State.setCtx_net (s : State) (c : Ctx) : (s.setCtx c).net = s.net := rfl
@[simp] theorem State.setCtx_bud (s : State) (c : Ctx) : (s.setCtx c).bud = s.bud := rfl
@[simp] theorem State.setCtx_sec (s : State) (c : Ctx) : (s.setCtx c).sec = s.sec := rfl
@[simp] theorem State.setCtx_adm (s : State) (c : Ctx) : (s.setCtx c).adm = s.adm := rfl
@[simp] theorem State.setCtx_pow (s : State) (c : Ctx) : (s.setCtx c).pow = s.pow := rfl
@[simp] theorem State.setCtx_aon (s : State) (c : Ctx) : (s.setCtx c).aon = s.aon := rfl

/-! `State.setQueue` -/

@[simp] theorem State.setQueue_pending (s : State) (q : Nat) (x : SqQueue) : (s.setQueue q x).pending = s.pending := rfl
@[simp] theorem State.setQueue_time (s : State) (q : Nat) (x : SqQueue) : (s.setQueue q x).time = s.time := rfl
@[simp] theorem State.setQueue_frac (s : State) (q : Nat) (x : SqQueue) : (s.setQueue q x).frac = s.frac := rfl
@[simp] theorem State.setQueue_regs (s : State) (q : Nat) (x : SqQueue) : (s.setQueue q x).regs = s.regs := rfl
@[simp] theorem State.setQueue_shadow (s : State) (q : Nat) (x : SqQueue) : (s.setQueue q x).shadow = s.shadow := rfl
@[simp] theorem State.setQueue_groups (s : State) (q : Nat) (x : SqQueue) : (s.setQueue q x).groups = s.groups := rfl
@[simp] theorem State.setQueue_mem (s : State) (q : Nat) (x : SqQueue) : (s.setQueue q x).mem = s.mem := rfl
@[simp] theorem State.setQueue_out (s : State) (q : Nat) (x : SqQueue) : (s.setQueue q x).out = s.out := rfl
@[simp] theorem State.setQueue_fresh (s : State) (q : Nat) (x : SqQueue) : (s.setQueue q x).fresh = s.fresh := rfl
@[simp] theorem State.setQueue_hif (s : State) (q : Nat) (x : SqQueue) : (s.setQueue q x).hif = s.hif := rfl
@[simp] theorem State.setQueue_ras (s : State) (q : Nat) (x : SqQueue) : (s.setQueue q x).ras = s.ras := rfl
@[simp] theorem State.setQueue_hg (s : State) (q : Nat) (x : SqQueue) : (s.setQueue q x).hg = s.hg := rfl
@[simp] theorem State.setQueue_frf (s : State) (q : Nat) (x : SqQueue) : (s.setQueue q x).frf = s.frf := rfl
@[simp] theorem State.setQueue_fw (s : State) (q : Nat) (x : SqQueue) : (s.setQueue q x).fw = s.fw := rfl
@[simp] theorem State.setQueue_sd (s : State) (q : Nat) (x : SqQueue) : (s.setQueue q x).sd = s.sd := rfl
@[simp] theorem State.setQueue_img (s : State) (q : Nat) (x : SqQueue) : (s.setQueue q x).img = s.img := rfl
@[simp] theorem State.setQueue_cp (s : State) (q : Nat) (x : SqQueue) : (s.setQueue q x).cp = s.cp := rfl
@[simp] theorem State.setQueue_aid (s : State) (q : Nat) (x : SqQueue) : (s.setQueue q x).aid = s.aid := rfl
@[simp] theorem State.setQueue_cal (s : State) (q : Nat) (x : SqQueue) : (s.setQueue q x).cal = s.cal := rfl
@[simp] theorem State.setQueue_built (s : State) (q : Nat) (x : SqQueue) : (s.setQueue q x).built = s.built := rfl
@[simp] theorem State.setQueue_mbx (s : State) (q : Nat) (x : SqQueue) : (s.setQueue q x).mbx = s.mbx := rfl
@[simp] theorem State.setQueue_net (s : State) (q : Nat) (x : SqQueue) : (s.setQueue q x).net = s.net := rfl
@[simp] theorem State.setQueue_bud (s : State) (q : Nat) (x : SqQueue) : (s.setQueue q x).bud = s.bud := rfl
@[simp] theorem State.setQueue_sec (s : State) (q : Nat) (x : SqQueue) : (s.setQueue q x).sec = s.sec := rfl
@[simp] theorem State.setQueue_adm (s : State) (q : Nat) (x : SqQueue) : (s.setQueue q x).adm = s.adm := rfl
@[simp] theorem State.setQueue_pow (s : State) (q : Nat) (x : SqQueue) : (s.setQueue q x).pow = s.pow := rfl
@[simp] theorem State.setQueue_aon (s : State) (q : Nat) (x : SqQueue) : (s.setQueue q x).aon = s.aon := rfl

/-! `State.setStream` -/

@[simp] theorem State.setStream_pending (s : State) (i : Nat) (x : StreamSt) : (s.setStream i x).pending = s.pending := rfl
@[simp] theorem State.setStream_time (s : State) (i : Nat) (x : StreamSt) : (s.setStream i x).time = s.time := rfl
@[simp] theorem State.setStream_frac (s : State) (i : Nat) (x : StreamSt) : (s.setStream i x).frac = s.frac := rfl
@[simp] theorem State.setStream_regs (s : State) (i : Nat) (x : StreamSt) : (s.setStream i x).regs = s.regs := rfl
@[simp] theorem State.setStream_shadow (s : State) (i : Nat) (x : StreamSt) : (s.setStream i x).shadow = s.shadow := rfl
@[simp] theorem State.setStream_groups (s : State) (i : Nat) (x : StreamSt) : (s.setStream i x).groups = s.groups := rfl
@[simp] theorem State.setStream_mem (s : State) (i : Nat) (x : StreamSt) : (s.setStream i x).mem = s.mem := rfl
@[simp] theorem State.setStream_out (s : State) (i : Nat) (x : StreamSt) : (s.setStream i x).out = s.out := rfl
@[simp] theorem State.setStream_fresh (s : State) (i : Nat) (x : StreamSt) : (s.setStream i x).fresh = s.fresh := rfl
@[simp] theorem State.setStream_hif (s : State) (i : Nat) (x : StreamSt) : (s.setStream i x).hif = s.hif := rfl
@[simp] theorem State.setStream_ras (s : State) (i : Nat) (x : StreamSt) : (s.setStream i x).ras = s.ras := rfl
@[simp] theorem State.setStream_mm (s : State) (i : Nat) (x : StreamSt) : (s.setStream i x).mm = s.mm := rfl
@[simp] theorem State.setStream_frf (s : State) (i : Nat) (x : StreamSt) : (s.setStream i x).frf = s.frf := rfl
@[simp] theorem State.setStream_fw (s : State) (i : Nat) (x : StreamSt) : (s.setStream i x).fw = s.fw := rfl
@[simp] theorem State.setStream_sd (s : State) (i : Nat) (x : StreamSt) : (s.setStream i x).sd = s.sd := rfl
@[simp] theorem State.setStream_img (s : State) (i : Nat) (x : StreamSt) : (s.setStream i x).img = s.img := rfl
@[simp] theorem State.setStream_cp (s : State) (i : Nat) (x : StreamSt) : (s.setStream i x).cp = s.cp := rfl
@[simp] theorem State.setStream_aid (s : State) (i : Nat) (x : StreamSt) : (s.setStream i x).aid = s.aid := rfl
@[simp] theorem State.setStream_cal (s : State) (i : Nat) (x : StreamSt) : (s.setStream i x).cal = s.cal := rfl
@[simp] theorem State.setStream_built (s : State) (i : Nat) (x : StreamSt) : (s.setStream i x).built = s.built := rfl
@[simp] theorem State.setStream_mbx (s : State) (i : Nat) (x : StreamSt) : (s.setStream i x).mbx = s.mbx := rfl
@[simp] theorem State.setStream_net (s : State) (i : Nat) (x : StreamSt) : (s.setStream i x).net = s.net := rfl
@[simp] theorem State.setStream_bud (s : State) (i : Nat) (x : StreamSt) : (s.setStream i x).bud = s.bud := rfl
@[simp] theorem State.setStream_sec (s : State) (i : Nat) (x : StreamSt) : (s.setStream i x).sec = s.sec := rfl
@[simp] theorem State.setStream_adm (s : State) (i : Nat) (x : StreamSt) : (s.setStream i x).adm = s.adm := rfl
@[simp] theorem State.setStream_pow (s : State) (i : Nat) (x : StreamSt) : (s.setStream i x).pow = s.pow := rfl
@[simp] theorem State.setStream_aon (s : State) (i : Nat) (x : StreamSt) : (s.setStream i x).aon = s.aon := rfl

/-! `State.setEntry` -/

@[simp] theorem State.setEntry_pending (s : State) (i seq : Nat) (f : JEntry → JEntry) : (s.setEntry i seq f).pending = s.pending := rfl
@[simp] theorem State.setEntry_time (s : State) (i seq : Nat) (f : JEntry → JEntry) : (s.setEntry i seq f).time = s.time := rfl
@[simp] theorem State.setEntry_frac (s : State) (i seq : Nat) (f : JEntry → JEntry) : (s.setEntry i seq f).frac = s.frac := rfl
@[simp] theorem State.setEntry_regs (s : State) (i seq : Nat) (f : JEntry → JEntry) : (s.setEntry i seq f).regs = s.regs := rfl
@[simp] theorem State.setEntry_shadow (s : State) (i seq : Nat) (f : JEntry → JEntry) : (s.setEntry i seq f).shadow = s.shadow := rfl
@[simp] theorem State.setEntry_groups (s : State) (i seq : Nat) (f : JEntry → JEntry) : (s.setEntry i seq f).groups = s.groups := rfl
@[simp] theorem State.setEntry_mem (s : State) (i seq : Nat) (f : JEntry → JEntry) : (s.setEntry i seq f).mem = s.mem := rfl
@[simp] theorem State.setEntry_out (s : State) (i seq : Nat) (f : JEntry → JEntry) : (s.setEntry i seq f).out = s.out := rfl
@[simp] theorem State.setEntry_fresh (s : State) (i seq : Nat) (f : JEntry → JEntry) : (s.setEntry i seq f).fresh = s.fresh := rfl
@[simp] theorem State.setEntry_hif (s : State) (i seq : Nat) (f : JEntry → JEntry) : (s.setEntry i seq f).hif = s.hif := rfl
@[simp] theorem State.setEntry_ras (s : State) (i seq : Nat) (f : JEntry → JEntry) : (s.setEntry i seq f).ras = s.ras := rfl
@[simp] theorem State.setEntry_mm (s : State) (i seq : Nat) (f : JEntry → JEntry) : (s.setEntry i seq f).mm = s.mm := rfl
@[simp] theorem State.setEntry_frf (s : State) (i seq : Nat) (f : JEntry → JEntry) : (s.setEntry i seq f).frf = s.frf := rfl
@[simp] theorem State.setEntry_fw (s : State) (i seq : Nat) (f : JEntry → JEntry) : (s.setEntry i seq f).fw = s.fw := rfl
@[simp] theorem State.setEntry_sd (s : State) (i seq : Nat) (f : JEntry → JEntry) : (s.setEntry i seq f).sd = s.sd := rfl
@[simp] theorem State.setEntry_img (s : State) (i seq : Nat) (f : JEntry → JEntry) : (s.setEntry i seq f).img = s.img := rfl
@[simp] theorem State.setEntry_cp (s : State) (i seq : Nat) (f : JEntry → JEntry) : (s.setEntry i seq f).cp = s.cp := rfl
@[simp] theorem State.setEntry_aid (s : State) (i seq : Nat) (f : JEntry → JEntry) : (s.setEntry i seq f).aid = s.aid := rfl
@[simp] theorem State.setEntry_cal (s : State) (i seq : Nat) (f : JEntry → JEntry) : (s.setEntry i seq f).cal = s.cal := rfl
@[simp] theorem State.setEntry_built (s : State) (i seq : Nat) (f : JEntry → JEntry) : (s.setEntry i seq f).built = s.built := rfl
@[simp] theorem State.setEntry_mbx (s : State) (i seq : Nat) (f : JEntry → JEntry) : (s.setEntry i seq f).mbx = s.mbx := rfl
@[simp] theorem State.setEntry_net (s : State) (i seq : Nat) (f : JEntry → JEntry) : (s.setEntry i seq f).net = s.net := rfl
@[simp] theorem State.setEntry_bud (s : State) (i seq : Nat) (f : JEntry → JEntry) : (s.setEntry i seq f).bud = s.bud := rfl
@[simp] theorem State.setEntry_sec (s : State) (i seq : Nat) (f : JEntry → JEntry) : (s.setEntry i seq f).sec = s.sec := rfl
@[simp] theorem State.setEntry_adm (s : State) (i seq : Nat) (f : JEntry → JEntry) : (s.setEntry i seq f).adm = s.adm := rfl
@[simp] theorem State.setEntry_pow (s : State) (i seq : Nat) (f : JEntry → JEntry) : (s.setEntry i seq f).pow = s.pow := rfl
@[simp] theorem State.setEntry_aon (s : State) (i seq : Nat) (f : JEntry → JEntry) : (s.setEntry i seq f).aon = s.aon := rfl

/-! `State.setExpq` -/

@[simp] theorem State.setExpq_pending (s : State) (q : Nat) (x : ExpQ) : (s.setExpq q x).pending = s.pending := rfl
@[simp] theorem State.setExpq_time (s : State) (q : Nat) (x : ExpQ) : (s.setExpq q x).time = s.time := rfl
@[simp] theorem State.setExpq_frac (s : State) (q : Nat) (x : ExpQ) : (s.setExpq q x).frac = s.frac := rfl
@[simp] theorem State.setExpq_regs (s : State) (q : Nat) (x : ExpQ) : (s.setExpq q x).regs = s.regs := rfl
@[simp] theorem State.setExpq_shadow (s : State) (q : Nat) (x : ExpQ) : (s.setExpq q x).shadow = s.shadow := rfl
@[simp] theorem State.setExpq_groups (s : State) (q : Nat) (x : ExpQ) : (s.setExpq q x).groups = s.groups := rfl
@[simp] theorem State.setExpq_mem (s : State) (q : Nat) (x : ExpQ) : (s.setExpq q x).mem = s.mem := rfl
@[simp] theorem State.setExpq_out (s : State) (q : Nat) (x : ExpQ) : (s.setExpq q x).out = s.out := rfl
@[simp] theorem State.setExpq_fresh (s : State) (q : Nat) (x : ExpQ) : (s.setExpq q x).fresh = s.fresh := rfl
@[simp] theorem State.setExpq_hif (s : State) (q : Nat) (x : ExpQ) : (s.setExpq q x).hif = s.hif := rfl
@[simp] theorem State.setExpq_ras (s : State) (q : Nat) (x : ExpQ) : (s.setExpq q x).ras = s.ras := rfl
@[simp] theorem State.setExpq_mm (s : State) (q : Nat) (x : ExpQ) : (s.setExpq q x).mm = s.mm := rfl
@[simp] theorem State.setExpq_hg (s : State) (q : Nat) (x : ExpQ) : (s.setExpq q x).hg = s.hg := rfl
@[simp] theorem State.setExpq_frf (s : State) (q : Nat) (x : ExpQ) : (s.setExpq q x).frf = s.frf := rfl
@[simp] theorem State.setExpq_fw (s : State) (q : Nat) (x : ExpQ) : (s.setExpq q x).fw = s.fw := rfl
@[simp] theorem State.setExpq_sd (s : State) (q : Nat) (x : ExpQ) : (s.setExpq q x).sd = s.sd := rfl
@[simp] theorem State.setExpq_img (s : State) (q : Nat) (x : ExpQ) : (s.setExpq q x).img = s.img := rfl
@[simp] theorem State.setExpq_cp (s : State) (q : Nat) (x : ExpQ) : (s.setExpq q x).cp = s.cp := rfl
@[simp] theorem State.setExpq_aid (s : State) (q : Nat) (x : ExpQ) : (s.setExpq q x).aid = s.aid := rfl
@[simp] theorem State.setExpq_cal (s : State) (q : Nat) (x : ExpQ) : (s.setExpq q x).cal = s.cal := rfl
@[simp] theorem State.setExpq_built (s : State) (q : Nat) (x : ExpQ) : (s.setExpq q x).built = s.built := rfl
@[simp] theorem State.setExpq_mbx (s : State) (q : Nat) (x : ExpQ) : (s.setExpq q x).mbx = s.mbx := rfl
@[simp] theorem State.setExpq_bud (s : State) (q : Nat) (x : ExpQ) : (s.setExpq q x).bud = s.bud := rfl
@[simp] theorem State.setExpq_sec (s : State) (q : Nat) (x : ExpQ) : (s.setExpq q x).sec = s.sec := rfl
@[simp] theorem State.setExpq_adm (s : State) (q : Nat) (x : ExpQ) : (s.setExpq q x).adm = s.adm := rfl
@[simp] theorem State.setExpq_pow (s : State) (q : Nat) (x : ExpQ) : (s.setExpq q x).pow = s.pow := rfl
@[simp] theorem State.setExpq_aon (s : State) (q : Nat) (x : ExpQ) : (s.setExpq q x).aon = s.aon := rfl

/-! `State.setBox` -/

@[simp] theorem State.setBox_pending (s : State) (m : Nat) (b : Mbx) : (s.setBox m b).pending = s.pending := rfl
@[simp] theorem State.setBox_time (s : State) (m : Nat) (b : Mbx) : (s.setBox m b).time = s.time := rfl
@[simp] theorem State.setBox_frac (s : State) (m : Nat) (b : Mbx) : (s.setBox m b).frac = s.frac := rfl
@[simp] theorem State.setBox_regs (s : State) (m : Nat) (b : Mbx) : (s.setBox m b).regs = s.regs := rfl
@[simp] theorem State.setBox_shadow (s : State) (m : Nat) (b : Mbx) : (s.setBox m b).shadow = s.shadow := rfl
@[simp] theorem State.setBox_groups (s : State) (m : Nat) (b : Mbx) : (s.setBox m b).groups = s.groups := rfl
@[simp] theorem State.setBox_mem (s : State) (m : Nat) (b : Mbx) : (s.setBox m b).mem = s.mem := rfl
@[simp] theorem State.setBox_out (s : State) (m : Nat) (b : Mbx) : (s.setBox m b).out = s.out := rfl
@[simp] theorem State.setBox_fresh (s : State) (m : Nat) (b : Mbx) : (s.setBox m b).fresh = s.fresh := rfl
@[simp] theorem State.setBox_hif (s : State) (m : Nat) (b : Mbx) : (s.setBox m b).hif = s.hif := rfl
@[simp] theorem State.setBox_ras (s : State) (m : Nat) (b : Mbx) : (s.setBox m b).ras = s.ras := rfl
@[simp] theorem State.setBox_mm (s : State) (m : Nat) (b : Mbx) : (s.setBox m b).mm = s.mm := rfl
@[simp] theorem State.setBox_hg (s : State) (m : Nat) (b : Mbx) : (s.setBox m b).hg = s.hg := rfl
@[simp] theorem State.setBox_frf (s : State) (m : Nat) (b : Mbx) : (s.setBox m b).frf = s.frf := rfl
@[simp] theorem State.setBox_fw (s : State) (m : Nat) (b : Mbx) : (s.setBox m b).fw = s.fw := rfl
@[simp] theorem State.setBox_sd (s : State) (m : Nat) (b : Mbx) : (s.setBox m b).sd = s.sd := rfl
@[simp] theorem State.setBox_img (s : State) (m : Nat) (b : Mbx) : (s.setBox m b).img = s.img := rfl
@[simp] theorem State.setBox_cp (s : State) (m : Nat) (b : Mbx) : (s.setBox m b).cp = s.cp := rfl
@[simp] theorem State.setBox_aid (s : State) (m : Nat) (b : Mbx) : (s.setBox m b).aid = s.aid := rfl
@[simp] theorem State.setBox_cal (s : State) (m : Nat) (b : Mbx) : (s.setBox m b).cal = s.cal := rfl
@[simp] theorem State.setBox_built (s : State) (m : Nat) (b : Mbx) : (s.setBox m b).built = s.built := rfl
@[simp] theorem State.setBox_net (s : State) (m : Nat) (b : Mbx) : (s.setBox m b).net = s.net := rfl
@[simp] theorem State.setBox_bud (s : State) (m : Nat) (b : Mbx) : (s.setBox m b).bud = s.bud := rfl
@[simp] theorem State.setBox_sec (s : State) (m : Nat) (b : Mbx) : (s.setBox m b).sec = s.sec := rfl
@[simp] theorem State.setBox_adm (s : State) (m : Nat) (b : Mbx) : (s.setBox m b).adm = s.adm := rfl
@[simp] theorem State.setBox_pow (s : State) (m : Nat) (b : Mbx) : (s.setBox m b).pow = s.pow := rfl
@[simp] theorem State.setBox_aon (s : State) (m : Nat) (b : Mbx) : (s.setBox m b).aon = s.aon := rfl

/-! `State.setChan` -/

@[simp] theorem State.setChan_pending (s : State) (c : Nat) (x : FrfChan) : (s.setChan c x).pending = s.pending := rfl
@[simp] theorem State.setChan_time (s : State) (c : Nat) (x : FrfChan) : (s.setChan c x).time = s.time := rfl
@[simp] theorem State.setChan_frac (s : State) (c : Nat) (x : FrfChan) : (s.setChan c x).frac = s.frac := rfl
@[simp] theorem State.setChan_regs (s : State) (c : Nat) (x : FrfChan) : (s.setChan c x).regs = s.regs := rfl
@[simp] theorem State.setChan_shadow (s : State) (c : Nat) (x : FrfChan) : (s.setChan c x).shadow = s.shadow := rfl
@[simp] theorem State.setChan_groups (s : State) (c : Nat) (x : FrfChan) : (s.setChan c x).groups = s.groups := rfl
@[simp] theorem State.setChan_mem (s : State) (c : Nat) (x : FrfChan) : (s.setChan c x).mem = s.mem := rfl
@[simp] theorem State.setChan_out (s : State) (c : Nat) (x : FrfChan) : (s.setChan c x).out = s.out := rfl
@[simp] theorem State.setChan_fresh (s : State) (c : Nat) (x : FrfChan) : (s.setChan c x).fresh = s.fresh := rfl
@[simp] theorem State.setChan_hif (s : State) (c : Nat) (x : FrfChan) : (s.setChan c x).hif = s.hif := rfl
@[simp] theorem State.setChan_ras (s : State) (c : Nat) (x : FrfChan) : (s.setChan c x).ras = s.ras := rfl
@[simp] theorem State.setChan_mm (s : State) (c : Nat) (x : FrfChan) : (s.setChan c x).mm = s.mm := rfl
@[simp] theorem State.setChan_hg (s : State) (c : Nat) (x : FrfChan) : (s.setChan c x).hg = s.hg := rfl
@[simp] theorem State.setChan_fw (s : State) (c : Nat) (x : FrfChan) : (s.setChan c x).fw = s.fw := rfl
@[simp] theorem State.setChan_sd (s : State) (c : Nat) (x : FrfChan) : (s.setChan c x).sd = s.sd := rfl
@[simp] theorem State.setChan_img (s : State) (c : Nat) (x : FrfChan) : (s.setChan c x).img = s.img := rfl
@[simp] theorem State.setChan_cp (s : State) (c : Nat) (x : FrfChan) : (s.setChan c x).cp = s.cp := rfl
@[simp] theorem State.setChan_aid (s : State) (c : Nat) (x : FrfChan) : (s.setChan c x).aid = s.aid := rfl
@[simp] theorem State.setChan_cal (s : State) (c : Nat) (x : FrfChan) : (s.setChan c x).cal = s.cal := rfl
@[simp] theorem State.setChan_built (s : State) (c : Nat) (x : FrfChan) : (s.setChan c x).built = s.built := rfl
@[simp] theorem State.setChan_mbx (s : State) (c : Nat) (x : FrfChan) : (s.setChan c x).mbx = s.mbx := rfl
@[simp] theorem State.setChan_net (s : State) (c : Nat) (x : FrfChan) : (s.setChan c x).net = s.net := rfl
@[simp] theorem State.setChan_bud (s : State) (c : Nat) (x : FrfChan) : (s.setChan c x).bud = s.bud := rfl
@[simp] theorem State.setChan_sec (s : State) (c : Nat) (x : FrfChan) : (s.setChan c x).sec = s.sec := rfl
@[simp] theorem State.setChan_adm (s : State) (c : Nat) (x : FrfChan) : (s.setChan c x).adm = s.adm := rfl
@[simp] theorem State.setChan_pow (s : State) (c : Nat) (x : FrfChan) : (s.setChan c x).pow = s.pow := rfl
@[simp] theorem State.setChan_aon (s : State) (c : Nat) (x : FrfChan) : (s.setChan c x).aon = s.aon := rfl

/-! `State.setLane` -/

@[simp] theorem State.setLane_pending (s : State) (l : Nat) (x : FrfLane) : (s.setLane l x).pending = s.pending := rfl
@[simp] theorem State.setLane_time (s : State) (l : Nat) (x : FrfLane) : (s.setLane l x).time = s.time := rfl
@[simp] theorem State.setLane_frac (s : State) (l : Nat) (x : FrfLane) : (s.setLane l x).frac = s.frac := rfl
@[simp] theorem State.setLane_regs (s : State) (l : Nat) (x : FrfLane) : (s.setLane l x).regs = s.regs := rfl
@[simp] theorem State.setLane_shadow (s : State) (l : Nat) (x : FrfLane) : (s.setLane l x).shadow = s.shadow := rfl
@[simp] theorem State.setLane_groups (s : State) (l : Nat) (x : FrfLane) : (s.setLane l x).groups = s.groups := rfl
@[simp] theorem State.setLane_mem (s : State) (l : Nat) (x : FrfLane) : (s.setLane l x).mem = s.mem := rfl
@[simp] theorem State.setLane_out (s : State) (l : Nat) (x : FrfLane) : (s.setLane l x).out = s.out := rfl
@[simp] theorem State.setLane_fresh (s : State) (l : Nat) (x : FrfLane) : (s.setLane l x).fresh = s.fresh := rfl
@[simp] theorem State.setLane_hif (s : State) (l : Nat) (x : FrfLane) : (s.setLane l x).hif = s.hif := rfl
@[simp] theorem State.setLane_ras (s : State) (l : Nat) (x : FrfLane) : (s.setLane l x).ras = s.ras := rfl
@[simp] theorem State.setLane_mm (s : State) (l : Nat) (x : FrfLane) : (s.setLane l x).mm = s.mm := rfl
@[simp] theorem State.setLane_hg (s : State) (l : Nat) (x : FrfLane) : (s.setLane l x).hg = s.hg := rfl
@[simp] theorem State.setLane_fw (s : State) (l : Nat) (x : FrfLane) : (s.setLane l x).fw = s.fw := rfl
@[simp] theorem State.setLane_sd (s : State) (l : Nat) (x : FrfLane) : (s.setLane l x).sd = s.sd := rfl
@[simp] theorem State.setLane_img (s : State) (l : Nat) (x : FrfLane) : (s.setLane l x).img = s.img := rfl
@[simp] theorem State.setLane_cp (s : State) (l : Nat) (x : FrfLane) : (s.setLane l x).cp = s.cp := rfl
@[simp] theorem State.setLane_aid (s : State) (l : Nat) (x : FrfLane) : (s.setLane l x).aid = s.aid := rfl
@[simp] theorem State.setLane_cal (s : State) (l : Nat) (x : FrfLane) : (s.setLane l x).cal = s.cal := rfl
@[simp] theorem State.setLane_built (s : State) (l : Nat) (x : FrfLane) : (s.setLane l x).built = s.built := rfl
@[simp] theorem State.setLane_mbx (s : State) (l : Nat) (x : FrfLane) : (s.setLane l x).mbx = s.mbx := rfl
@[simp] theorem State.setLane_net (s : State) (l : Nat) (x : FrfLane) : (s.setLane l x).net = s.net := rfl
@[simp] theorem State.setLane_bud (s : State) (l : Nat) (x : FrfLane) : (s.setLane l x).bud = s.bud := rfl
@[simp] theorem State.setLane_sec (s : State) (l : Nat) (x : FrfLane) : (s.setLane l x).sec = s.sec := rfl
@[simp] theorem State.setLane_adm (s : State) (l : Nat) (x : FrfLane) : (s.setLane l x).adm = s.adm := rfl
@[simp] theorem State.setLane_pow (s : State) (l : Nat) (x : FrfLane) : (s.setLane l x).pow = s.pow := rfl
@[simp] theorem State.setLane_aon (s : State) (l : Nat) (x : FrfLane) : (s.setLane l x).aon = s.aon := rfl

/-! `State.setTrack` -/

@[simp] theorem State.setTrack_pending (s : State) (i : Nat) (x : Slot) : (s.setTrack i x).pending = s.pending := rfl
@[simp] theorem State.setTrack_time (s : State) (i : Nat) (x : Slot) : (s.setTrack i x).time = s.time := rfl
@[simp] theorem State.setTrack_frac (s : State) (i : Nat) (x : Slot) : (s.setTrack i x).frac = s.frac := rfl
@[simp] theorem State.setTrack_regs (s : State) (i : Nat) (x : Slot) : (s.setTrack i x).regs = s.regs := rfl
@[simp] theorem State.setTrack_shadow (s : State) (i : Nat) (x : Slot) : (s.setTrack i x).shadow = s.shadow := rfl
@[simp] theorem State.setTrack_groups (s : State) (i : Nat) (x : Slot) : (s.setTrack i x).groups = s.groups := rfl
@[simp] theorem State.setTrack_mem (s : State) (i : Nat) (x : Slot) : (s.setTrack i x).mem = s.mem := rfl
@[simp] theorem State.setTrack_out (s : State) (i : Nat) (x : Slot) : (s.setTrack i x).out = s.out := rfl
@[simp] theorem State.setTrack_fresh (s : State) (i : Nat) (x : Slot) : (s.setTrack i x).fresh = s.fresh := rfl
@[simp] theorem State.setTrack_hif (s : State) (i : Nat) (x : Slot) : (s.setTrack i x).hif = s.hif := rfl
@[simp] theorem State.setTrack_ras (s : State) (i : Nat) (x : Slot) : (s.setTrack i x).ras = s.ras := rfl
@[simp] theorem State.setTrack_mm (s : State) (i : Nat) (x : Slot) : (s.setTrack i x).mm = s.mm := rfl
@[simp] theorem State.setTrack_hg (s : State) (i : Nat) (x : Slot) : (s.setTrack i x).hg = s.hg := rfl
@[simp] theorem State.setTrack_frf (s : State) (i : Nat) (x : Slot) : (s.setTrack i x).frf = s.frf := rfl
@[simp] theorem State.setTrack_fw (s : State) (i : Nat) (x : Slot) : (s.setTrack i x).fw = s.fw := rfl
@[simp] theorem State.setTrack_sd (s : State) (i : Nat) (x : Slot) : (s.setTrack i x).sd = s.sd := rfl
@[simp] theorem State.setTrack_img (s : State) (i : Nat) (x : Slot) : (s.setTrack i x).img = s.img := rfl
@[simp] theorem State.setTrack_aid (s : State) (i : Nat) (x : Slot) : (s.setTrack i x).aid = s.aid := rfl
@[simp] theorem State.setTrack_cal (s : State) (i : Nat) (x : Slot) : (s.setTrack i x).cal = s.cal := rfl
@[simp] theorem State.setTrack_built (s : State) (i : Nat) (x : Slot) : (s.setTrack i x).built = s.built := rfl
@[simp] theorem State.setTrack_mbx (s : State) (i : Nat) (x : Slot) : (s.setTrack i x).mbx = s.mbx := rfl
@[simp] theorem State.setTrack_net (s : State) (i : Nat) (x : Slot) : (s.setTrack i x).net = s.net := rfl
@[simp] theorem State.setTrack_bud (s : State) (i : Nat) (x : Slot) : (s.setTrack i x).bud = s.bud := rfl
@[simp] theorem State.setTrack_sec (s : State) (i : Nat) (x : Slot) : (s.setTrack i x).sec = s.sec := rfl
@[simp] theorem State.setTrack_adm (s : State) (i : Nat) (x : Slot) : (s.setTrack i x).adm = s.adm := rfl
@[simp] theorem State.setTrack_pow (s : State) (i : Nat) (x : Slot) : (s.setTrack i x).pow = s.pow := rfl
@[simp] theorem State.setTrack_aon (s : State) (i : Nat) (x : Slot) : (s.setTrack i x).aon = s.aon := rfl

/-! `State.setCpg` -/

@[simp] theorem State.setCpg_pending (s : State) (g : Nat) (x : CpGroup) : (s.setCpg g x).pending = s.pending := rfl
@[simp] theorem State.setCpg_time (s : State) (g : Nat) (x : CpGroup) : (s.setCpg g x).time = s.time := rfl
@[simp] theorem State.setCpg_frac (s : State) (g : Nat) (x : CpGroup) : (s.setCpg g x).frac = s.frac := rfl
@[simp] theorem State.setCpg_regs (s : State) (g : Nat) (x : CpGroup) : (s.setCpg g x).regs = s.regs := rfl
@[simp] theorem State.setCpg_shadow (s : State) (g : Nat) (x : CpGroup) : (s.setCpg g x).shadow = s.shadow := rfl
@[simp] theorem State.setCpg_groups (s : State) (g : Nat) (x : CpGroup) : (s.setCpg g x).groups = s.groups := rfl
@[simp] theorem State.setCpg_mem (s : State) (g : Nat) (x : CpGroup) : (s.setCpg g x).mem = s.mem := rfl
@[simp] theorem State.setCpg_out (s : State) (g : Nat) (x : CpGroup) : (s.setCpg g x).out = s.out := rfl
@[simp] theorem State.setCpg_fresh (s : State) (g : Nat) (x : CpGroup) : (s.setCpg g x).fresh = s.fresh := rfl
@[simp] theorem State.setCpg_hif (s : State) (g : Nat) (x : CpGroup) : (s.setCpg g x).hif = s.hif := rfl
@[simp] theorem State.setCpg_ras (s : State) (g : Nat) (x : CpGroup) : (s.setCpg g x).ras = s.ras := rfl
@[simp] theorem State.setCpg_mm (s : State) (g : Nat) (x : CpGroup) : (s.setCpg g x).mm = s.mm := rfl
@[simp] theorem State.setCpg_hg (s : State) (g : Nat) (x : CpGroup) : (s.setCpg g x).hg = s.hg := rfl
@[simp] theorem State.setCpg_frf (s : State) (g : Nat) (x : CpGroup) : (s.setCpg g x).frf = s.frf := rfl
@[simp] theorem State.setCpg_fw (s : State) (g : Nat) (x : CpGroup) : (s.setCpg g x).fw = s.fw := rfl
@[simp] theorem State.setCpg_sd (s : State) (g : Nat) (x : CpGroup) : (s.setCpg g x).sd = s.sd := rfl
@[simp] theorem State.setCpg_img (s : State) (g : Nat) (x : CpGroup) : (s.setCpg g x).img = s.img := rfl
@[simp] theorem State.setCpg_aid (s : State) (g : Nat) (x : CpGroup) : (s.setCpg g x).aid = s.aid := rfl
@[simp] theorem State.setCpg_cal (s : State) (g : Nat) (x : CpGroup) : (s.setCpg g x).cal = s.cal := rfl
@[simp] theorem State.setCpg_built (s : State) (g : Nat) (x : CpGroup) : (s.setCpg g x).built = s.built := rfl
@[simp] theorem State.setCpg_mbx (s : State) (g : Nat) (x : CpGroup) : (s.setCpg g x).mbx = s.mbx := rfl
@[simp] theorem State.setCpg_net (s : State) (g : Nat) (x : CpGroup) : (s.setCpg g x).net = s.net := rfl
@[simp] theorem State.setCpg_bud (s : State) (g : Nat) (x : CpGroup) : (s.setCpg g x).bud = s.bud := rfl
@[simp] theorem State.setCpg_sec (s : State) (g : Nat) (x : CpGroup) : (s.setCpg g x).sec = s.sec := rfl
@[simp] theorem State.setCpg_adm (s : State) (g : Nat) (x : CpGroup) : (s.setCpg g x).adm = s.adm := rfl
@[simp] theorem State.setCpg_pow (s : State) (g : Nat) (x : CpGroup) : (s.setCpg g x).pow = s.pow := rfl
@[simp] theorem State.setCpg_aon (s : State) (g : Nat) (x : CpGroup) : (s.setCpg g x).aon = s.aon := rfl

/-! `State.setErp` -/

@[simp] theorem State.setErp_pending (s : State) (n : Nat) (x : Erp) : (s.setErp n x).pending = s.pending := rfl
@[simp] theorem State.setErp_time (s : State) (n : Nat) (x : Erp) : (s.setErp n x).time = s.time := rfl
@[simp] theorem State.setErp_frac (s : State) (n : Nat) (x : Erp) : (s.setErp n x).frac = s.frac := rfl
@[simp] theorem State.setErp_regs (s : State) (n : Nat) (x : Erp) : (s.setErp n x).regs = s.regs := rfl
@[simp] theorem State.setErp_shadow (s : State) (n : Nat) (x : Erp) : (s.setErp n x).shadow = s.shadow := rfl
@[simp] theorem State.setErp_groups (s : State) (n : Nat) (x : Erp) : (s.setErp n x).groups = s.groups := rfl
@[simp] theorem State.setErp_mem (s : State) (n : Nat) (x : Erp) : (s.setErp n x).mem = s.mem := rfl
@[simp] theorem State.setErp_out (s : State) (n : Nat) (x : Erp) : (s.setErp n x).out = s.out := rfl
@[simp] theorem State.setErp_fresh (s : State) (n : Nat) (x : Erp) : (s.setErp n x).fresh = s.fresh := rfl
@[simp] theorem State.setErp_hif (s : State) (n : Nat) (x : Erp) : (s.setErp n x).hif = s.hif := rfl
@[simp] theorem State.setErp_ras (s : State) (n : Nat) (x : Erp) : (s.setErp n x).ras = s.ras := rfl
@[simp] theorem State.setErp_mm (s : State) (n : Nat) (x : Erp) : (s.setErp n x).mm = s.mm := rfl
@[simp] theorem State.setErp_hg (s : State) (n : Nat) (x : Erp) : (s.setErp n x).hg = s.hg := rfl
@[simp] theorem State.setErp_frf (s : State) (n : Nat) (x : Erp) : (s.setErp n x).frf = s.frf := rfl
@[simp] theorem State.setErp_fw (s : State) (n : Nat) (x : Erp) : (s.setErp n x).fw = s.fw := rfl
@[simp] theorem State.setErp_sd (s : State) (n : Nat) (x : Erp) : (s.setErp n x).sd = s.sd := rfl
@[simp] theorem State.setErp_img (s : State) (n : Nat) (x : Erp) : (s.setErp n x).img = s.img := rfl
@[simp] theorem State.setErp_cp (s : State) (n : Nat) (x : Erp) : (s.setErp n x).cp = s.cp := rfl
@[simp] theorem State.setErp_aid (s : State) (n : Nat) (x : Erp) : (s.setErp n x).aid = s.aid := rfl
@[simp] theorem State.setErp_cal (s : State) (n : Nat) (x : Erp) : (s.setErp n x).cal = s.cal := rfl
@[simp] theorem State.setErp_built (s : State) (n : Nat) (x : Erp) : (s.setErp n x).built = s.built := rfl
@[simp] theorem State.setErp_mbx (s : State) (n : Nat) (x : Erp) : (s.setErp n x).mbx = s.mbx := rfl
@[simp] theorem State.setErp_bud (s : State) (n : Nat) (x : Erp) : (s.setErp n x).bud = s.bud := rfl
@[simp] theorem State.setErp_sec (s : State) (n : Nat) (x : Erp) : (s.setErp n x).sec = s.sec := rfl
@[simp] theorem State.setErp_adm (s : State) (n : Nat) (x : Erp) : (s.setErp n x).adm = s.adm := rfl
@[simp] theorem State.setErp_pow (s : State) (n : Nat) (x : Erp) : (s.setErp n x).pow = s.pow := rfl
@[simp] theorem State.setErp_aon (s : State) (n : Nat) (x : Erp) : (s.setErp n x).aon = s.aon := rfl

/-! `State.askEval` -/

@[simp] theorem State.askEval_pending (s : State) (e : Eval) : (s.askEval e).pending = s.pending := rfl
@[simp] theorem State.askEval_time (s : State) (e : Eval) : (s.askEval e).time = s.time := rfl
@[simp] theorem State.askEval_frac (s : State) (e : Eval) : (s.askEval e).frac = s.frac := rfl
@[simp] theorem State.askEval_regs (s : State) (e : Eval) : (s.askEval e).regs = s.regs := rfl
@[simp] theorem State.askEval_shadow (s : State) (e : Eval) : (s.askEval e).shadow = s.shadow := rfl
@[simp] theorem State.askEval_groups (s : State) (e : Eval) : (s.askEval e).groups = s.groups := rfl
@[simp] theorem State.askEval_mem (s : State) (e : Eval) : (s.askEval e).mem = s.mem := rfl
@[simp] theorem State.askEval_out (s : State) (e : Eval) : (s.askEval e).out = s.out := rfl
@[simp] theorem State.askEval_fresh (s : State) (e : Eval) : (s.askEval e).fresh = s.fresh := rfl
@[simp] theorem State.askEval_hif (s : State) (e : Eval) : (s.askEval e).hif = s.hif := rfl
@[simp] theorem State.askEval_ras (s : State) (e : Eval) : (s.askEval e).ras = s.ras := rfl
@[simp] theorem State.askEval_mm (s : State) (e : Eval) : (s.askEval e).mm = s.mm := rfl
@[simp] theorem State.askEval_hg (s : State) (e : Eval) : (s.askEval e).hg = s.hg := rfl
@[simp] theorem State.askEval_frf (s : State) (e : Eval) : (s.askEval e).frf = s.frf := rfl
@[simp] theorem State.askEval_fw (s : State) (e : Eval) : (s.askEval e).fw = s.fw := rfl
@[simp] theorem State.askEval_sd (s : State) (e : Eval) : (s.askEval e).sd = s.sd := rfl
@[simp] theorem State.askEval_img (s : State) (e : Eval) : (s.askEval e).img = s.img := rfl
@[simp] theorem State.askEval_cp (s : State) (e : Eval) : (s.askEval e).cp = s.cp := rfl
@[simp] theorem State.askEval_cal (s : State) (e : Eval) : (s.askEval e).cal = s.cal := rfl
@[simp] theorem State.askEval_built (s : State) (e : Eval) : (s.askEval e).built = s.built := rfl
@[simp] theorem State.askEval_mbx (s : State) (e : Eval) : (s.askEval e).mbx = s.mbx := rfl
@[simp] theorem State.askEval_net (s : State) (e : Eval) : (s.askEval e).net = s.net := rfl
@[simp] theorem State.askEval_bud (s : State) (e : Eval) : (s.askEval e).bud = s.bud := rfl
@[simp] theorem State.askEval_sec (s : State) (e : Eval) : (s.askEval e).sec = s.sec := rfl
@[simp] theorem State.askEval_adm (s : State) (e : Eval) : (s.askEval e).adm = s.adm := rfl
@[simp] theorem State.askEval_pow (s : State) (e : Eval) : (s.askEval e).pow = s.pow := rfl
@[simp] theorem State.askEval_aon (s : State) (e : Eval) : (s.askEval e).aon = s.aon := rfl

/-! `State.setPow` -/

@[simp] theorem State.setPow_pending (s : State) (p : Pow) : (s.setPow p).pending = s.pending := rfl
@[simp] theorem State.setPow_time (s : State) (p : Pow) : (s.setPow p).time = s.time := rfl
@[simp] theorem State.setPow_frac (s : State) (p : Pow) : (s.setPow p).frac = s.frac := rfl
@[simp] theorem State.setPow_regs (s : State) (p : Pow) : (s.setPow p).regs = s.regs := rfl
@[simp] theorem State.setPow_shadow (s : State) (p : Pow) : (s.setPow p).shadow = s.shadow := rfl
@[simp] theorem State.setPow_groups (s : State) (p : Pow) : (s.setPow p).groups = s.groups := rfl
@[simp] theorem State.setPow_mem (s : State) (p : Pow) : (s.setPow p).mem = s.mem := rfl
@[simp] theorem State.setPow_out (s : State) (p : Pow) : (s.setPow p).out = s.out := rfl
@[simp] theorem State.setPow_fresh (s : State) (p : Pow) : (s.setPow p).fresh = s.fresh := rfl
@[simp] theorem State.setPow_hif (s : State) (p : Pow) : (s.setPow p).hif = s.hif := rfl
@[simp] theorem State.setPow_ras (s : State) (p : Pow) : (s.setPow p).ras = s.ras := rfl
@[simp] theorem State.setPow_mm (s : State) (p : Pow) : (s.setPow p).mm = s.mm := rfl
@[simp] theorem State.setPow_hg (s : State) (p : Pow) : (s.setPow p).hg = s.hg := rfl
@[simp] theorem State.setPow_frf (s : State) (p : Pow) : (s.setPow p).frf = s.frf := rfl
@[simp] theorem State.setPow_fw (s : State) (p : Pow) : (s.setPow p).fw = s.fw := rfl
@[simp] theorem State.setPow_sd (s : State) (p : Pow) : (s.setPow p).sd = s.sd := rfl
@[simp] theorem State.setPow_img (s : State) (p : Pow) : (s.setPow p).img = s.img := rfl
@[simp] theorem State.setPow_cp (s : State) (p : Pow) : (s.setPow p).cp = s.cp := rfl
@[simp] theorem State.setPow_aid (s : State) (p : Pow) : (s.setPow p).aid = s.aid := rfl
@[simp] theorem State.setPow_cal (s : State) (p : Pow) : (s.setPow p).cal = s.cal := rfl
@[simp] theorem State.setPow_built (s : State) (p : Pow) : (s.setPow p).built = s.built := rfl
@[simp] theorem State.setPow_mbx (s : State) (p : Pow) : (s.setPow p).mbx = s.mbx := rfl
@[simp] theorem State.setPow_net (s : State) (p : Pow) : (s.setPow p).net = s.net := rfl
@[simp] theorem State.setPow_bud (s : State) (p : Pow) : (s.setPow p).bud = s.bud := rfl
@[simp] theorem State.setPow_sec (s : State) (p : Pow) : (s.setPow p).sec = s.sec := rfl
@[simp] theorem State.setPow_adm (s : State) (p : Pow) : (s.setPow p).adm = s.adm := rfl
@[simp] theorem State.setPow_aon (s : State) (p : Pow) : (s.setPow p).aon = s.aon := rfl

/-! `State.setCore` -/

@[simp] theorem State.setCore_pending (s : State) (c : Nat) (x : CoreSt) : (s.setCore c x).pending = s.pending := rfl
@[simp] theorem State.setCore_time (s : State) (c : Nat) (x : CoreSt) : (s.setCore c x).time = s.time := rfl
@[simp] theorem State.setCore_frac (s : State) (c : Nat) (x : CoreSt) : (s.setCore c x).frac = s.frac := rfl
@[simp] theorem State.setCore_regs (s : State) (c : Nat) (x : CoreSt) : (s.setCore c x).regs = s.regs := rfl
@[simp] theorem State.setCore_shadow (s : State) (c : Nat) (x : CoreSt) : (s.setCore c x).shadow = s.shadow := rfl
@[simp] theorem State.setCore_groups (s : State) (c : Nat) (x : CoreSt) : (s.setCore c x).groups = s.groups := rfl
@[simp] theorem State.setCore_mem (s : State) (c : Nat) (x : CoreSt) : (s.setCore c x).mem = s.mem := rfl
@[simp] theorem State.setCore_out (s : State) (c : Nat) (x : CoreSt) : (s.setCore c x).out = s.out := rfl
@[simp] theorem State.setCore_fresh (s : State) (c : Nat) (x : CoreSt) : (s.setCore c x).fresh = s.fresh := rfl
@[simp] theorem State.setCore_hif (s : State) (c : Nat) (x : CoreSt) : (s.setCore c x).hif = s.hif := rfl
@[simp] theorem State.setCore_ras (s : State) (c : Nat) (x : CoreSt) : (s.setCore c x).ras = s.ras := rfl
@[simp] theorem State.setCore_mm (s : State) (c : Nat) (x : CoreSt) : (s.setCore c x).mm = s.mm := rfl
@[simp] theorem State.setCore_hg (s : State) (c : Nat) (x : CoreSt) : (s.setCore c x).hg = s.hg := rfl
@[simp] theorem State.setCore_frf (s : State) (c : Nat) (x : CoreSt) : (s.setCore c x).frf = s.frf := rfl
@[simp] theorem State.setCore_fw (s : State) (c : Nat) (x : CoreSt) : (s.setCore c x).fw = s.fw := rfl
@[simp] theorem State.setCore_sd (s : State) (c : Nat) (x : CoreSt) : (s.setCore c x).sd = s.sd := rfl
@[simp] theorem State.setCore_img (s : State) (c : Nat) (x : CoreSt) : (s.setCore c x).img = s.img := rfl
@[simp] theorem State.setCore_cp (s : State) (c : Nat) (x : CoreSt) : (s.setCore c x).cp = s.cp := rfl
@[simp] theorem State.setCore_cal (s : State) (c : Nat) (x : CoreSt) : (s.setCore c x).cal = s.cal := rfl
@[simp] theorem State.setCore_built (s : State) (c : Nat) (x : CoreSt) : (s.setCore c x).built = s.built := rfl
@[simp] theorem State.setCore_mbx (s : State) (c : Nat) (x : CoreSt) : (s.setCore c x).mbx = s.mbx := rfl
@[simp] theorem State.setCore_net (s : State) (c : Nat) (x : CoreSt) : (s.setCore c x).net = s.net := rfl
@[simp] theorem State.setCore_bud (s : State) (c : Nat) (x : CoreSt) : (s.setCore c x).bud = s.bud := rfl
@[simp] theorem State.setCore_sec (s : State) (c : Nat) (x : CoreSt) : (s.setCore c x).sec = s.sec := rfl
@[simp] theorem State.setCore_adm (s : State) (c : Nat) (x : CoreSt) : (s.setCore c x).adm = s.adm := rfl
@[simp] theorem State.setCore_pow (s : State) (c : Nat) (x : CoreSt) : (s.setCore c x).pow = s.pow := rfl
@[simp] theorem State.setCore_aon (s : State) (c : Nat) (x : CoreSt) : (s.setCore c x).aon = s.aon := rfl

/-! `State.setUpd` -/

@[simp] theorem State.setUpd_pending (s : State) (u : Upd) : (s.setUpd u).pending = s.pending := rfl
@[simp] theorem State.setUpd_time (s : State) (u : Upd) : (s.setUpd u).time = s.time := rfl
@[simp] theorem State.setUpd_frac (s : State) (u : Upd) : (s.setUpd u).frac = s.frac := rfl
@[simp] theorem State.setUpd_regs (s : State) (u : Upd) : (s.setUpd u).regs = s.regs := rfl
@[simp] theorem State.setUpd_shadow (s : State) (u : Upd) : (s.setUpd u).shadow = s.shadow := rfl
@[simp] theorem State.setUpd_groups (s : State) (u : Upd) : (s.setUpd u).groups = s.groups := rfl
@[simp] theorem State.setUpd_mem (s : State) (u : Upd) : (s.setUpd u).mem = s.mem := rfl
@[simp] theorem State.setUpd_out (s : State) (u : Upd) : (s.setUpd u).out = s.out := rfl
@[simp] theorem State.setUpd_fresh (s : State) (u : Upd) : (s.setUpd u).fresh = s.fresh := rfl
@[simp] theorem State.setUpd_hif (s : State) (u : Upd) : (s.setUpd u).hif = s.hif := rfl
@[simp] theorem State.setUpd_ras (s : State) (u : Upd) : (s.setUpd u).ras = s.ras := rfl
@[simp] theorem State.setUpd_mm (s : State) (u : Upd) : (s.setUpd u).mm = s.mm := rfl
@[simp] theorem State.setUpd_hg (s : State) (u : Upd) : (s.setUpd u).hg = s.hg := rfl
@[simp] theorem State.setUpd_frf (s : State) (u : Upd) : (s.setUpd u).frf = s.frf := rfl
@[simp] theorem State.setUpd_fw (s : State) (u : Upd) : (s.setUpd u).fw = s.fw := rfl
@[simp] theorem State.setUpd_sd (s : State) (u : Upd) : (s.setUpd u).sd = s.sd := rfl
@[simp] theorem State.setUpd_img (s : State) (u : Upd) : (s.setUpd u).img = s.img := rfl
@[simp] theorem State.setUpd_cp (s : State) (u : Upd) : (s.setUpd u).cp = s.cp := rfl
@[simp] theorem State.setUpd_cal (s : State) (u : Upd) : (s.setUpd u).cal = s.cal := rfl
@[simp] theorem State.setUpd_built (s : State) (u : Upd) : (s.setUpd u).built = s.built := rfl
@[simp] theorem State.setUpd_mbx (s : State) (u : Upd) : (s.setUpd u).mbx = s.mbx := rfl
@[simp] theorem State.setUpd_net (s : State) (u : Upd) : (s.setUpd u).net = s.net := rfl
@[simp] theorem State.setUpd_bud (s : State) (u : Upd) : (s.setUpd u).bud = s.bud := rfl
@[simp] theorem State.setUpd_sec (s : State) (u : Upd) : (s.setUpd u).sec = s.sec := rfl
@[simp] theorem State.setUpd_adm (s : State) (u : Upd) : (s.setUpd u).adm = s.adm := rfl
@[simp] theorem State.setUpd_pow (s : State) (u : Upd) : (s.setUpd u).pow = s.pow := rfl
@[simp] theorem State.setUpd_aon (s : State) (u : Upd) : (s.setUpd u).aon = s.aon := rfl

/-! `State.setBud` -/

@[simp] theorem State.setBud_pending (s : State) (b : Bud) : (s.setBud b).pending = s.pending := rfl
@[simp] theorem State.setBud_time (s : State) (b : Bud) : (s.setBud b).time = s.time := rfl
@[simp] theorem State.setBud_frac (s : State) (b : Bud) : (s.setBud b).frac = s.frac := rfl
@[simp] theorem State.setBud_regs (s : State) (b : Bud) : (s.setBud b).regs = s.regs := rfl
@[simp] theorem State.setBud_shadow (s : State) (b : Bud) : (s.setBud b).shadow = s.shadow := rfl
@[simp] theorem State.setBud_groups (s : State) (b : Bud) : (s.setBud b).groups = s.groups := rfl
@[simp] theorem State.setBud_mem (s : State) (b : Bud) : (s.setBud b).mem = s.mem := rfl
@[simp] theorem State.setBud_out (s : State) (b : Bud) : (s.setBud b).out = s.out := rfl
@[simp] theorem State.setBud_fresh (s : State) (b : Bud) : (s.setBud b).fresh = s.fresh := rfl
@[simp] theorem State.setBud_hif (s : State) (b : Bud) : (s.setBud b).hif = s.hif := rfl
@[simp] theorem State.setBud_ras (s : State) (b : Bud) : (s.setBud b).ras = s.ras := rfl
@[simp] theorem State.setBud_mm (s : State) (b : Bud) : (s.setBud b).mm = s.mm := rfl
@[simp] theorem State.setBud_hg (s : State) (b : Bud) : (s.setBud b).hg = s.hg := rfl
@[simp] theorem State.setBud_frf (s : State) (b : Bud) : (s.setBud b).frf = s.frf := rfl
@[simp] theorem State.setBud_fw (s : State) (b : Bud) : (s.setBud b).fw = s.fw := rfl
@[simp] theorem State.setBud_sd (s : State) (b : Bud) : (s.setBud b).sd = s.sd := rfl
@[simp] theorem State.setBud_img (s : State) (b : Bud) : (s.setBud b).img = s.img := rfl
@[simp] theorem State.setBud_cp (s : State) (b : Bud) : (s.setBud b).cp = s.cp := rfl
@[simp] theorem State.setBud_aid (s : State) (b : Bud) : (s.setBud b).aid = s.aid := rfl
@[simp] theorem State.setBud_cal (s : State) (b : Bud) : (s.setBud b).cal = s.cal := rfl
@[simp] theorem State.setBud_built (s : State) (b : Bud) : (s.setBud b).built = s.built := rfl
@[simp] theorem State.setBud_mbx (s : State) (b : Bud) : (s.setBud b).mbx = s.mbx := rfl
@[simp] theorem State.setBud_net (s : State) (b : Bud) : (s.setBud b).net = s.net := rfl
@[simp] theorem State.setBud_sec (s : State) (b : Bud) : (s.setBud b).sec = s.sec := rfl
@[simp] theorem State.setBud_adm (s : State) (b : Bud) : (s.setBud b).adm = s.adm := rfl
@[simp] theorem State.setBud_pow (s : State) (b : Bud) : (s.setBud b).pow = s.pow := rfl
@[simp] theorem State.setBud_aon (s : State) (b : Bud) : (s.setBud b).aon = s.aon := rfl

/-! What the updates write -/

@[simp] theorem State.at_time (s : State) (t : Nat) : (s.at t).time = max s.time t := rfl
@[simp] theorem State.emit_out (s : State) (o : Out) : (s.emit o).out = s.out ++ [o] := rfl
@[simp] theorem State.emitAll_out (s : State) (os : List Out) : (s.emitAll os).out = s.out ++ os := rfl
@[simp] theorem State.tickFree_fresh (s : State) : s.tickFree.fresh = s.fresh + 1 := rfl
@[simp] theorem State.setReg_regs (s : State) (a : Nat) (w : Word) : (s.setReg a w).regs = tabInsert s.regs a w := rfl
@[simp] theorem State.setPow_pow (s : State) (p : Pow) : (s.setPow p).pow = p := rfl
@[simp] theorem State.setBud_bud (s : State) (b : Bud) : (s.setBud b).bud = b := rfl
@[simp] theorem State.setUpd_upd (s : State) (u : Upd) : (s.setUpd u).aid.upd = u := rfl

end Sys2Proof.Machine
end

