-- ==== Sys2Proof/Tests/Slice0.lean ====
section
/-!
SUPPORT. The model's own tests: which commands are well formed, a concrete state and operands that meet the hypotheses of each
statement, and values worked out by hand from the spec.
-/

namespace Sys2Proof.Tests

open Machine

/-! ### States that the witnesses and tests start from -/

/-- A state with fields written. -/
def wPuts (s : State) (l : List (Fld × Nat)) : State := l.foldl (fun s p => s.put p.1 p.2) s

/-- Check units of the control cores that let every register block pass. -/
def wAid : Aid := { Aid.reset with units := (List.range 8).map (fun c => (c, ⟨0, [], 0xFFFF⟩)) }

/-- Firmware is ready, with the host link up. -/
def wUp : State :=
  { wPuts State.reset [(F.HIF_STAT.FW_READY, 1), (F.SYS_STAT.FW_READY, 1), (F.HIF_STAT.LINK_UP, 1), (F.CLK_STAT.ROOT_LOCK, 1),
      (F.PWR_RAIL.EN, 0xFF), (F.PWR_RAIL.PGOOD, 0xFF), (F.PWR_DOM.READY, 0x7F)] with
    aon := { Aon.reset with phase := .up }, aid := wAid, time := 1000000 }

/-- A start that nothing hinders. -/
def wBoot : Boot := ⟨2, true, false, none, none, none, [], [], 3, 3, 5, 4, true, 0, none, true, [], 0, []⟩

/-- A Runnel datagram with checksums that hold. -/
def wGram (tag seq base : Nat) (ws : List Nat) : List Byte :=
  let pay := ws.flatMap (leBytes 4)
  let h := leBytes 2 0xE7C5 ++ leBytes 1 1 ++ leBytes 1 2 ++ leBytes 2 tag ++ leBytes 2 ws.length ++ leBytes 4 seq ++
    leBytes 8 base ++ leBytes 4 (if ws = [] then 0 else crc32c pay) ++ leBytes 4 0
  h ++ leBytes 4 (crc32c h) ++ pay

/-- The batch that it holds, as it arrives over port 16. -/
def wBatch (tag seq base : Nat) (ws : List Nat) (t : Nat) : Batch :=
  ⟨2, tag, ws.length, seq, base, 0, if ws = [] then 0 else crc32c (ws.flatMap (leBytes 4)), wGram tag seq base ws, 0, 0, 16, t, none⟩

/-- Stream 5 runs in group 0, with tokens and journal space. -/
def wStream : State :=
  { wPuts wUp [(F.HG_CTL.ENABLE, 1), (F.HG_STREAM_STAT.STATE 5, 2), (F.HG_STREAM_GEOM.TAG 5, 7), (F.HG_STREAM_BKT.RATE 5, 1000000),
      (F.HG_STREAM_BKT.BURST 5, 3000), (F.HG_JRN_SIZE.SIZE_MIB, 1), (F.CP_GRP_CTL.SLICE_US 0, 1000),
      (F.HG_STREAM_GEOM.WIDTH 5, 640), (F.HG_STREAM_GEOM.HEIGHT 5, 480), (F.HG_STREAM_TIME.GUARD 5, 100)] with
    hg := { Hg.reset with streams := [(5, { StreamSt.empty with
      opened := true, e := some 10, first := 10, tokens := 100 * 2 ^ 32, filledAt := 1000000, k0 := some 0, kOpen := some 1, sc := some 0, peer := (9, 8, 16) })] } }

/-- A journal entry of stream 5. -/
def wEntry (seq : Nat) (phase : JPhase) (mirrored need : Bool) : JEntry :=
  ⟨5, seq, phase, mirrored, false, false, need, 0, 900000, 950000, none, 0, 0, 0, 0, 0, wBatch 7 seq 900000 [] 900000⟩

/-- Stream 5 with entries in its journal. -/
def wJournal (l : List JEntry) : State := { wStream with hg := { wStream.hg with journal := l } }

/-- Stream 5 with its slot changed. -/
def wSlot5 (f : StreamSt → StreamSt) : State := wStream.setStream 5 (f (wStream.stream 5))

/-- The FRF block runs with lane 3 pinned to channel 70. -/
def wFrf : State :=
  { wPuts wUp [(F.FRF_CTL.ENABLE, 1), (F.FRF_CTL.DWELL, 1), (F.FRF_LANE_CTL.MODE 3, 1), (F.FRF_LANE_CTL.PIN_CH 3, 70),
      (F.FRF_LANE_FOLD.PERIOD_NS 3, 10000000), (F.CP_GRP_CTL.SLICE_US 0, 1000)] with
    frf := { Frf.reset with nextBin := 1024, lanes := [(3, { FrfLane.empty with chan := some 70 })] } }

/-- Lane 3 changed. -/
def wLane3 (f : FrfLane → FrfLane) : State := wFrf.setLane 3 (f (wFrf.lane 3))

/-- A fold decided for channel 70. -/
def wFold : Fold := ⟨3, 70, 1024, .flicker, 10000000, 2000000, 3000000, 5, 9, 1, 2, 3, 4⟩

/-- The fabric runs with core 4 as logical core 4, and stream 5 mapped to it. -/
def wFw : State :=
  { wPuts wStream [(F.FW_CTL.ENABLE, 1), (F.FW_CTL.STEP_US, 50), (F.FW_CORE_CFG.ENABLE 4, 1), (F.FW_CORE_CFG.LOGICAL 4, 4), (F.FW_CORE_STAT.STATE 4, 1),
      (F.FW_MAP_CTL.ENABLE 5, 1), (F.FW_MAP_CTL.GATEWAY 5, 2)] with
    fw := { Fw.reset with cores := [(4, { FwCore.empty with opened := 19 })], remap := [(4, 4)] } }

/-- A layer whose arithmetic is the layer program's own. -/
def wLayer : Layer :=
  ⟨6, 0, 0, 1, 1, 1, 1, 1, 1, 1, 1, 1, 1, 0, 0, 0, 0, 0, 0, 1, [], [], [], [], [], 0, false, 0, 8, 0, 0, 0, 0, 0, 0, 0, 0, 0, 1, 1, 0, 0,
    [⟨0, 0, 1, 0, 1, []⟩], false, false, .slice, .slice, .slice, 0, false, [], 0, 7, [], false⟩

/-- An image of one such layer. -/
def wImage : Image := ⟨[1, 2, 3], true, false, false, 1, [], [], [], [wLayer], 0, 0, 0, [], [], 0, 0, []⟩

/-- A closed slice of stream 5. -/
def wDesc (k : Nat) : SliceDesc := ⟨5, 0, k, false, false, false, SliceAcc.empty k, 0, 900, 0⟩

def wRun (k : Nat) : SliceRun := ⟨wDesc k, 900, 0, 0, true, [], false, true, [], [], [], []⟩

/-- Image slot 0 runs on tiles 0 and 1. -/
def wSd : State :=
  { wPuts wStream [(F.ST_CTL.ENABLE 0, 1), (F.ST_CTL.ENABLE 1, 1), (F.ST_CTL.POSITION 1, 1), (F.ST_STAT.STATE 0, 1), (F.ST_STAT.STATE 1, 1),
      (F.ST_GRP_STAT.TILES 0, 3), (F.ST_GRP_STAT.STATE 0, 1)] with
    img := { Img.reset with slots := [(0, ⟨wImage, 0, zeros 32, true, none, 3, none, 2⟩)], streamSlot := [(5, 0)] } }

/-- Tile 0 runs the only layer of slice 3. -/
def wJob : State := { wSd with sd := { Sd.reset with runs := [wRun 3], jobs := [(0, ⟨5, 3, 0, none⟩)] } }

/-- Group 0 fuses on unit 0 with stream 5 as its only member. -/
def wCp : State :=
  { wPuts wStream [(F.CP_CTL.ENABLE, 1), (F.CP_GRP_CTL.ENABLE 0, 1), (F.CP_UNIT_STAT.STATE 0, 1), (F.CP_MBR_CTL.ENABLE 5, 1), (F.CP_GRP_CTL.OPEN_US 0, 300), (F.CP_GRP_RPT.RING 0, 200), (F.CP_GRP_RPT.MAX_RPT 0, 100),
      (F.CP_GRP_CTL.W_US 0, 400)] with
    cp := Cp.reset, hif := { Hif.reset with rings := [(200, { Ring.blank with kind := .result, logN := 12 })] } }

/-- Group 0 changed. -/
def wGrp (f : CpGroup → CpGroup) : State := wCp.setCpg 0 (f CpGroup.empty)

/-- Queue 9 is enabled, of 64 words, from agent 3 to agent 4. -/
def wQueue : SqQueue :=
  { SqQueue.empty with cfg := setBits (setBits (setBits (setBits 0 63 63 1) 57 49 3) 48 40 4) 4 0 6 }

def wSq (x : SqQueue) : State := { wUp with mm := { Mm.reset with queues := [(9, x)] } }

def wRel (k : Nat) : Released := ⟨k, 0, 0, zeros 8, 0, 0, 0, [], [], [], 0, [], false, false⟩

/-- A field of a double-buffered register is staged. -/
def wStage (s : State) (f : Fld) (v : Nat) : State :=
  { s with shadow := tabInsert s.shadow f.addr (setBits (s.shadowReg f.addr) f.hi f.lo v) }

/-- The journal's retry time is staged in the Headgate's global group. -/
def wPend : State := wStage wUp F.HG_JRN_SIZE.JFULL_RETRY 30

/-- Slot 5 is CLOSED with OPEN staged. -/
def wHgOpen : State :=
  wStage (wStage (wStage { (wPuts wStream [(F.HG_STREAM_STAT.STATE 5, 0), (F.HG_STREAM_CTL.OPEN 5, 0)]) with hg := Hg.reset } (F.HG_STREAM_CTL.OPEN 5) 1)
    (F.HG_STREAM_GEOM.TAG 5) 7) (F.HG_STREAM_SRC_LO.ADDR_LO 5) 9

def wOpened : State := wPuts wStream [(F.HG_STREAM_CTL.OPEN 5, 1)]
def wHgDrain : State := wStage wOpened (F.HG_STREAM_CTL.OPEN 5) 0
def wHgChange : State := wStage wOpened (F.HG_STREAM_DN.K 5) 3

/-- Region 0 is plain, region 1 guarded, of 16 MiB each. -/
def wMem : State :=
  wPuts wUp [(F.MEM_RGN_CFG.ENABLE 0, 1), (F.MEM_RGN_CFG.SIZE 0, 1), (F.MEM_RGN_BASE.BASE 1, 1), (F.MEM_RGN_CFG.ENABLE 1, 1),
    (F.MEM_RGN_CFG.SIZE 1, 1), (F.MEM_RGN_CFG.PROT 1, 1), (F.MEM_CTL.SCRUB_EN, 1)]

def wPlain : Region := regionOf (wMem.reg (R.MEM_RGN_BASE 0)) (wMem.reg (R.MEM_RGN_CFG 0))
def wGuarded : Region := regionOf (wMem.reg (R.MEM_RGN_BASE 1)) (wMem.reg (R.MEM_RGN_CFG 1))

/-- Mailbox 63 between requesters 1 and 9, with a word for each end. -/
def wEnd (q : List Nat) : MbxEnd := ⟨true, false, false, false, false, 0, 0, 0, q⟩
def wMbx (a b : MbxEnd) : State :=
  { wPuts wUp [(F.MBX_CFG.ENABLE 63, 1), (F.MBX_CFG.END0 63, 1), (F.MBX_CFG.END1 63, 9)] with mbx := { Mboxes.reset with boxes := [(63, ⟨a, b⟩)] } }

/-- Function 0 is enabled, and its rings 200 and 201 are as given. -/
def wRings (x y : Ring) : State :=
  { wPuts wUp [(F.HIF_FN_CFG.ENABLE 0, 1), (F.HIF_FN_CFG.BLOCKS 0, 30)] with hif := { Hif.reset with rings := [(200, x), (201, y)], unmasked := [(0, 0)] } }

/-- A submit ring with a descriptor to fetch, and its completion ring. -/
def wSubmit : Ring := { Ring.blank with complete := 201, host := 1 }
def wComplete : Ring := { Ring.blank with kind := .complete, logN := 6 }

/-- A descriptor: opcode, tag, session, sequence, length, the last 48 bytes. -/
def wDescr (op tag session seq len : Nat) (p : List Byte) : List Byte :=
  fieldsBytes [(1, op), (1, 0), (2, tag), (4, session), (4, seq), (4, len)] ++ p ++ zeros (48 - p.length)

/-- A result ring with a run to write. -/
def wResult : Ring := { Ring.blank with kind := .result, logN := 6, wait := [⟨.event, [zeros 64]⟩] }

/-- Injection ring 200 of stream 5 has fetched a descriptor of an empty batch. -/
def wInjBuf : List Byte := wGram 7 10 900000 []
def wInjDesc : InjDesc := ⟨wDescr 1 3 77 10 32 [], 1, 0, 0⟩
def wInject (x : InjDesc) : State :=
  { wStream with
    hif := { Hif.reset with rings := [(200, { Ring.blank with kind := .inject, complete := 201, stream := some 5, session := 77, fetched := [x] }), (201, wComplete)] }
    sec := { Sec.reset with sessions := [⟨77, 0, 0, 2 ^ 16 - 1, [], [], 0, false⟩] } }

/-- A command in the management window: opcode, session, length of its data, parameters. -/
def wCtx (op session n : Nat) (p : List Byte) : Ctx :=
  ⟨0x2000, 5, fieldsBytes [(1, op), (1, bit (n ≠ 0)), (2, 3), (4, session), (4, 5), (4, n)] ++ p ++ zeros (48 - p.length), 0, 0, 0, 0, [], []⟩

/-- The command is in progress, and session 77 of role MANUFACTURING is open. -/
def wWith (s : State) (x : Ctx) : State :=
  { s with aid := { s.aid with ctxs := s.aid.ctxs ++ [x] }, sec := { s.sec with sessions := [⟨77, 0, 3, 2 ^ 16 - 1, zeros 32, [], 0, false⟩] } }

def wCmd (n : Nat) (data : List Byte) : CmdRef := ⟨0x2000, 5, if n = 0 then [] else [(64, n, 1)], data⟩

/-- Its context as it starts. -/
def wGo (x : Ctx) (k : CmdRef) : Ctx := { x with steps := 1, sg := k.sg, data := k.data }

/-- The OWNER key is in the store, and challenge 9 is outstanding on PF0. -/
def wKeyed : State :=
  { wUp with sec := { Sec.reset with keys := [(2, zeros 32)], masks := [(2, 15)], challenges := [⟨0, 9, zeros 16, 900000⟩] } }

/-- Command 4 of the window waits. -/
def wOther : Ctx := { wCtx 0x31 77 0 [3] with seq := 4, steps := 1, waiting := wActivate, arg := 1000000 }

/-- Another command of session 77 has started. -/
def wBusy : State := { wUp with aid := { wAid with ctxs := [{ wCtx 0x31 77 0 [3] with ring := 200, steps := 1, waiting := wActivate }] } }

/-- Group 0 runs, slot 0 is active, class 0 as given. -/
def wOpenable (b : Bool) : State := { wPuts wCp [(F.ST_CTL.ENABLE 0, 1), (F.ST_CTL.ENABLE 1, 1), (F.ST_CTL.POSITION 1, 1), (F.ST_STAT.STATE 0, 1),
    (F.ST_STAT.STATE 1, 1), (F.ST_GRP_STAT.TILES 0, 3), (F.ST_GRP_STAT.STATE 0, 1)] with adm := { Adm.reset with classes := [(0, ⟨2000, 8, b⟩)] }, img := wSd.img }

/-- Slot 3 holds an image that is not active. -/
def wLoaded (a : Option Activation) : State := { wUp with img := { Img.reset with slots := [(3, ⟨wImage, 0, zeros 32, false, none, 3, a, 2⟩)] } }

/-- A configuration waits for its time. -/
def wTimed : Ctx :=
  { wCtx 0x38 77 16 (fieldsBytes [(2, 1), (1, 1), (5, 0), (8, 2000000)]) with
    steps := 1, waiting := wTimedConfig, arg := 2000000, data := fieldsBytes [(4, R.HG_CTL), (2, 1), (1, 1), (1, 0), (8, 3)] }

/-- A STREAM_OPEN waits for its evaluation. -/
def wAsk : Ctx :=
  { wCtx 0x22 77 112 (fieldsBytes [(1, 6), (1, 0), (2, 0xFFFF), (1, 0)]) with
    steps := 1, waiting := wEval, data := fieldsBytes [(8, 1), (8, 0), (8, 0), (8, 0), (4, 1000), (4, 3000)] ++ zeros 72 }

/-- A patch slot, and the firmware with two of them. -/
def wPatch (st : Nat) : PatchSlot := ⟨st, 9 + st, 3, zeros 31 ++ [BitVec.ofNat 8 st], [(2, zeros 32)], []⟩
def wUpd (h : Option Handover) (d : Option Nat) (cs : List Ctx) : State :=
  { wUp with aid := { wAid with upd := ⟨wPatch 2, wPatch 1, h, d⟩, ctxs := cs } }

/-- Command 4 of the window, of an opcode, waits. -/
def wHold (op : Nat) (p : List Byte) (what arg : Nat) : Ctx := { wCtx op 77 0 p with seq := 4, steps := 1, waiting := what, arg := arg }

/-- A command waits, and all control cores are in service. -/
def wHeld (c : Ctx) (tests : List Injected) : State :=
  { wPuts wUp [(F.MBX_CORE_STAT.IN_SERVICE, 255)] with aid := { wAid with ctxs := [c], tests := tests } }

/-- What pairing finds where nothing hinders it. -/
def wReply : PairReply := ⟨true, 4096, 0, 0, [], [], [], [], none, true⟩

/-- Ports 1 and 2 are up; the device has an address; VLAN 10 holds both ports and the device; MAC address 85 is at port 2. -/
def wNet : State :=
  { wPuts wUp [(F.NET_PORT_CTL.ENABLE 1, 1), (F.NET_PORT_CTL.ENABLE 2, 1), (F.NET_PORT_STAT.LINK 1, 1), (F.NET_PORT_STAT.LINK 2, 1),
      (F.NET_PORT_CTL.PVID 1, 10), (F.NET_MAC.ADDR, 0x0200C0FFEE01), (F.NET_IP4.ADDR, 0x0A000001), (F.HG_CTL.UDP_PORT, 5000), (F.NET_CTL.BRIDGE, 1), (F.NET_CTL.LEARN, 0)] with
    net := { Net.reset with vlans := [(10, BitVec.ofNat 64 (2 ^ 63 + 2 ^ 16 + 6))], fdb := [(0, ⟨2, 85, 10, false, 1000⟩), (7, ⟨1, 86, 10, false, 1000⟩)] } }

/-- An Ethernet frame as it arrives. -/
def wFrame (b : List Byte) (ok : Bool) : Frame := ⟨b, ok, false, false, ⟨false, none, none, []⟩, ⟨false, 0, 0, []⟩, [], wReply⟩
def wEth (dst type : Nat) (b : List Byte) : List Byte := beBytes 6 dst ++ beBytes 6 1 ++ beBytes 2 type ++ b

/-- A UDP datagram in IPv4 to the device. -/
def wUdp (b : List Byte) : List Byte :=
  wEth 0x0200C0FFEE01 0x0800 ([0x45, 0] ++ beBytes 2 (28 + b.length) ++ zeros 5 ++ [17, 0, 0] ++ beBytes 4 9 ++ beBytes 4 0x0A000001 ++
    beBytes 2 8 ++ beBytes 2 5000 ++ beBytes 2 (8 + b.length) ++ zeros 2 ++ b)

/-- Port 1 holds a frame in queue 7. -/
def wQ7 (f : TxFrame) : State := { wNet with net := { Net.reset with q7 := [(1, [f])] } }

/-- Peer 3 is up: device 20 on port 1, with channels as given. -/
def wPeer (c : Tab CvChan) : State :=
  { wPuts wUp [(F.NET_PEER_CTL.ENABLE 3, 1), (F.NET_PEER_CTL.DEVNUM 3, 20), (F.NET_PEER_CTL.BUDDY 3, 1), (F.NET_PEER_CTL.LINKS 3, 2),
      (F.NET_PEER_CTL.PORT 3, 1), (F.NET_PEER_ADDR_LO.ADDR 3, 7), (F.NET_PEER_STAT.STATE 3, 2), (F.NET_PORT_STAT.LINK 1, 1), (F.SYS_STAT.DEVNUM, 2)] with
    net := { Net.reset with peers := [(3, { CvPeer.empty with ours := 55, theirs := 66, chans := c })] }, sec := { Sec.reset with keys := [(1, zeros 32)], masks := [(1, 15)] } }

/-- A message of that peer: type, channel, sequence, session, payload. -/
def wCv (type chan seq session : Nat) (b : List Byte) : Culvert :=
  let h := fieldsBytes [(2, 0xC71B), (1, 1), (1, type), (2, 20), (2, 2), (4, seq), (4, 0), (2, b.length), (1, chan), (1, 0), (4, session), (4, crc32c b)]
  ⟨7, h ++ leBytes 4 (crc32c h) ++ b, wReply⟩

/-- Power state changed. -/
def wPow (f : Pow → Pow) (l : List (Fld × Nat)) : State := { wPuts wUp l with pow := f Pow.reset }

/-- The device of position 9 holds a bus address, with what PD_AON holds as given. -/
def wBus (f : Aon → Aon) (l : List (Fld × Nat)) : State :=
  { wPuts wUp ([(F.SYS_STAT.ADDRESSED, 1), (F.SYS_STAT.POSITION, 9), (F.PWR_RET_STAT.VALID, 0xFF)] ++ l) with aon := f wUp.aon }

/-- Any transfer but a read of the status page, and a start that fails. -/
def wXfer : BusXfer := ⟨false, 0xF0, [1, 2]⟩
def wFail : Boot := { wBoot with fail := some ⟨7, 3, 9⟩ }

/-- No bus address, with ENUM_IN high. -/
def wLone (f : Aon → Aon) : State := { wPuts wUp [(F.SEC_SERIAL.SERIAL, 77), (F.SYS_STAT.CHAIN_ID, 3)] with aon := f { wUp.aon with enumIn := true } }

/-- A group is claimed. -/
def wClaim (c req : Nat) : State := { (wStage wUp F.HG_JRN_SIZE.JFULL_RETRY 30) with groups := [(c, ⟨req, 900000, none, 0⟩)] }

/-- An RSA-3072 modulus, its key hash, and signatures of `wPatchImage` and `wToken` under it. -/
def wModulus : Nat := 0x98beb9773f40fbf8fa872313b12f620a4f2aeee570007c715bdd733e0f1d6382c518d6b3a4ae6a92d78203950f2e169c763496081a91ca6cf7035944c8647ae7ce332f49f4339f5fd6b98922e78d3cb4be5a3a099afbd9b6f6943e1399b62836c62f8737191b015f1af0ab62d6d276b38fbc62df2e44538a69b842e3c2a8d6eb74286cb0f1e9996547e143f2099e781b3931247a880a982dac06d84e5229ef14fa75fc2a1ca14780d961d90ba9588d5e28cb25d926903096d675dbaacd47c4e63a97d6c5feaa8e2d61d2d3edfd02d02ec657d1783d4e572b97856ac452d232ebe9c84fcd1c371937956bcded9c8253d3937938d10f191d19d52d8c20365b7d6f1930db4e1e8f817377fc1bf6882017113f49ca899c0b79223f7a590911a6779c40c7a2f884bd55dc88dafe79fa2d1aba3d1b97e62e61ac667234492a52204a443ee5480163be4922e3879bb896f8dc5632c064bb6838ed403735629f017f9b626901119a86db5f68ec43adbb991b137d9ac2a8f5bd0d1f7eb9f6ca4fe085ce5f

def wKeyHash : List Byte := beBytes 32 0x3acecedf274e083bd357a7992f2d31b11e8856d55edc9839fa1132e5b215e114
def wPatchSig : Nat := 0x721cf6bfcb064bccea8cb4c60af503946f2ceb728b130d7d7258f93e40213562e51ec304d3ea5a986cd9ce66f0e232c50d4eb9df5d08e5b1f2e129400b58650ac4e2b170fcd3bb6b0495c0789d7668679f7610b6736ad863b78ae0eb03b9b9bbfe66b73401871c0339ac644862e3b264245da7c372fd13aa95864afaa898c6651b4231504b1aa7aa949461110996a0ba749946791b4fda7cd45b5239142bb6f44fa457ea286ec7d2b42a901a81f533fd4b17eb8e2a778e45c1dcf320151d2b007b490a5608531422a0d1e45759d554bfd2b57498df248bb76109016a3c1bc4cdc2e7dd7088ce9c81d8a3a4250c7c796e09f6837e6b1d03e686c322c3eb4dfd9e8a829a9736fc0e67337885161be34bc9085060c71aa2995fff147b794bc31dd2cb3749bdea29056a2fab2175a6a03ed8088e1c0f391ca66fb7ed9deb2091759294f1d60dc0e9277867a48d94d49bacf222b810b572812783b0a8e6239f2ed6f27820ba0b1aa75850caee9978f4b1b2ed4ccf8e71a652ba49d6e147aaca2c5b4

def wTokenSig : Nat := 0xe08700985559b32f2e12fcfb1036a31f33adc04251d924eb1dc25a2d48c0f53d9bfc9e5588f6ae282740e971172382eb6fd0080bd2d015ae8eafeb4be14a4c11c0d9820ea88f66c6bd5b3f9f896ee35d4720dc0dc539abd96018677f465f1efbce140a5e3164c5bfffac6700c00c937ffaf2d7d41ac5f8aea57d0ee633132dffeb82a1649cfcf74cf9fe032809ca7f0c586db20dffe31030cf787d192dc1dc678e777c59fcf50149262a9900174d9cbf26febd9656cdfb2dd04e2f8d92cd06f2a13204b0e9d71369946a319d9e0c142f9fd3d7fc437afc3da2fb130f52c6f44ee40cb5e26ab712a0c6e19873cd99feeb9ae0bb1f07245531f80d9a013c0cade16b82522b92ef25ef484b697e36b540be5621572faa3dd3735c8dc52204c8814805ec4d10c07a51f80f9f78cafe805310af8ac5bee6b05ac4603e36eb3beba32dc854161217420152f4b22d7ecdd5c35f8434c15450fe655b3eb90c0ff9a2962af1d9c897ba06e6acc318e0d2f7cd9d459236d59e0aaadb17b457a74783aaf22

/-- A patch image of one component without a body, version 7, rollback level 3. -/
def wPatchImage : List Byte :=
  let e := beBytes 32 0xe3b0c44298fc1c149afbf4c8996fb92427ae41e4649b934ca495991b7852b855
  fieldsBytes [(4, 0x5EA1F128), (2, 1), (2, 1), (4, 7), (4, 3), (4, 4096), (4, 0)] ++ e ++ zeros 8 ++
    fieldsBytes [(1, 2), (15, 0)] ++ e ++ zeros 720 ++ beBytes 384 wModulus ++ beBytes 384 wPatchSig ++ zeros 2496

/-- A debug token for serial number 77 with rights CORE and 1. -/
def wToken : List Byte :=
  fieldsBytes [(4, 0xDB610001), (2, 5), (2, 0), (8, 77), (8, 0), (8, 0)] ++ beBytes 384 wModulus ++ beBytes 384 wTokenSig ++ zeros 768

/-- The root hash is that of the modulus. -/
def wRoot : State :=
  { wPuts wUp [(F.SEC_SERIAL.SERIAL, 77)] with sec := { Sec.reset with fuses := { Sec.reset.fuses with rootHash := wKeyHash } } }

/-- A packet is on its way in the fabric. -/
def wFly (src p : Nat) : State := { wFw with fw := { wFw.fw with flight := [⟨src, p⟩] } }

/-- What a layer whose arithmetic is the program's own brings. -/
def wLayerRun : LayerRun := ⟨[], [], [5], [], [], [], [], 0, false⟩

/-- Two layers on two tiles: the second reads the first. -/
def wImage2 : Image := { wImage with layers := [wLayer, { wLayer with parts := [⟨1, 0, 1, 0, 1, [0]⟩], src := .layer 0 }] }
def wSd2 (halos : List HaloSlot) : State :=
  { wSd with
    img := { wSd.img with slots := [(0, ⟨wImage2, 0, zeros 32, true, none, 3, none, 2⟩)] }
    sd := { Sd.reset with runs := [{ wRun 3 with done := [(0, 1)], outs := [(0, [(0, 7)])] }], halos := halos } }

/-- The second word of a feature packet of stream 5, slice k. -/
def wW1 (k : Nat) : List Byte := fieldsBytes [(1, 3), (1, 5), (6, 0), (8, k)] ++ zeros 48

/-- Group 0 changed, with a fusion image. -/
def wFused (f : CpGroup → CpGroup) : State := { wGrp f with img := { wSd.img with fusionSlot := [(0, 0)] } }

/-- Group 31 reports to ring 200. -/
def wSd31 : State := { wPuts wSd [(F.CP_GRP_RPT.RING 31, 200), (F.CP_GRP_RPT.MAX_RPT 31, 100)] with hif := wCp.hif }

/-- All control cores are in service, none with an allowed window but for the registers. -/
def wCores (f : Aid → Aid) : State := { wPuts wUp [(F.MBX_CORE_STAT.IN_SERVICE, 255)] with aid := f wAid }

/-! ### Well-formedness: an ill-formed command for each check is refused, the greatest well-formed value of each is not -/

theorem test_wf_refuses_port : ([
    .runnelBatch 1 16 1 1 [], .ethernetFrame 1 16 (wFrame [] true), .portFail 1 16, .portReturn 1 16, .launch 1 16, .netPortTxtsId 1 1 16,
    .culvertDatagram 1 16 (wCv 3 0 0 0 []), .netPortCommit 1 1 16 1, .portLinkUp 1 16] : List Instr).all (fun i => !i.wf) = true := by decide

theorem test_wf_refuses_stream : ([
    .journalWriteComplete 1 128 1, .mirrorConfirmation 1 128 1, .mirrorTmo 128 1, .gapAckRepeat 128, .heldBatchDrop 128 1, .sliceGuardExpiry 128,
    .trackedFit 128, .hgStreamCommit 1 1 128 1, .gatewayMarker 1 1 128 1, .fwMapCommit 1 1 128 1, .haloPublish 1 1 1 1 128 1 false,
    .cpMbrCommit 1 1 128 1, .capacityRelease 1 128] : List Instr).all (fun i => !i.wf) = true := by decide

theorem test_wf_refuses_requester : ([
    .hgGlbCommit 1 0 1, .hgGlbCommit 1 63 1, .hgStreamCommit 1 0 1 1, .hgStreamCommit 1 63 1 1, .frfLaneSwap 1 0 1 1, .frfLaneSwap 1 63 1 1,
    .frfSync 1 0 1, .frfSync 1 63 1, .frfMaskData1 1 0 1, .frfMaskData1 1 63 1, .frfCoefData 1 0 1, .frfCoefData 1 63 1, .frfGlbCommit 1 0 1,
    .frfGlbCommit 1 63 1, .frfLaneCommit 1 0 1 1, .frfLaneCommit 1 63 1 1, .fwGlbCommit 1 0 1, .fwGlbCommit 1 63 1, .fwCoreCommit 1 0 1 1,
    .fwCoreCommit 1 63 1 1, .fwMapCommit 1 0 1 1, .fwMapCommit 1 63 1 1, .fwPopCommit 1 0 1 1, .fwPopCommit 1 63 1 1, .fwTblData 1 0 1,
    .fwTblData 1 63 1, .stCommit 1 0 1 1, .stCommit 1 63 1 1, .cpGlbCommit 1 0 1, .cpGlbCommit 1 63 1, .cpGrpCommit 1 0 1 1, .cpGrpCommit 1 63 1 1,
    .cpMbrCommit 1 0 1 1, .cpMbrCommit 1 63 1 1, .memRgnCommit 1 0 1 1, .memRgnCommit 1 63 1 1, .sqQCommit 1 0 1, .sqQCommit 1 63 1,
    .hifFnCommit 1 0 1 1, .hifFnCommit 1 63 1 1, .hifFnAdmCommit 1 0 1 1, .hifFnAdmCommit 1 63 1 1, .mbxCfg 1 0 1 1, .mbxCfg 1 63 1 1,
    .mbxSend 1 0 1 1, .mbxSend 1 63 1 1, .mbxRecv 1 0 1, .mbxRecv 1 63 1, .mbxDbRing 1 0 1 1, .mbxDbRing 1 63 1 1, .lckAcquireRead 1 0 1,
    .lckAcquireRead 1 63 1, .lckReleaseWrite 1 0 1 1, .lckReleaseWrite 1 63 1 1, .lckForce 1 0 1, .lckForce 1 63 1, .netFdbData 1 0 1,
    .netFdbData 1 63 1, .netPortTxtsId 1 0 1, .netPortTxtsId 1 63 1, .timNow 1 0, .timNow 1 63, .netGlbCommit 1 0 1, .netGlbCommit 1 63 1,
    .netPortCommit 1 0 1 1, .netPortCommit 1 63 1 1, .netExpCommit 1 0 1 1, .netExpCommit 1 63 1 1, .netPeerCommit 1 0 1 1, .netPeerCommit 1 63 1 1,
    .timCommit 1 0 1, .timCommit 1 63 1, .setupLock 1 0 1, .setupLock 1 63 1, .sysShadowDiscard 1 0 1, .sysShadowDiscard 1 63 1,
    .registerWrite 1 1 0 1 4 1, .registerWrite 1 1 63 1 4 1] : List Instr).all (fun i => !i.wf) = true := by decide

theorem test_wf_refuses_value : ([
    .hgGlbCommit 1 1 (2 ^ 64), .hgStreamCommit 1 1 1 (2 ^ 64), .frfLaneSwap 1 1 1 (2 ^ 64), .frfSync 1 1 (2 ^ 64), .frfMaskData1 1 1 (2 ^ 64),
    .frfCoefData 1 1 (2 ^ 64), .frfGlbCommit 1 1 (2 ^ 64), .frfLaneCommit 1 1 1 (2 ^ 64), .fwGlbCommit 1 1 (2 ^ 64), .fwCoreCommit 1 1 1 (2 ^ 64),
    .fwMapCommit 1 1 1 (2 ^ 64), .fwPopCommit 1 1 1 (2 ^ 64), .fwTblData 1 1 (2 ^ 64), .stCommit 1 1 1 (2 ^ 64), .cpGlbCommit 1 1 (2 ^ 64),
    .cpGrpCommit 1 1 1 (2 ^ 64), .cpMbrCommit 1 1 1 (2 ^ 64), .memRgnCommit 1 1 1 (2 ^ 64), .sqQCommit 1 1 (2 ^ 64), .hifFnCommit 1 1 1 (2 ^ 64),
    .hifFnAdmCommit 1 1 1 (2 ^ 64), .mwWrite 1 1 4 (2 ^ 64), .mbxCfg 1 1 1 (2 ^ 64), .mbxSend 1 1 1 (2 ^ 64), .mbxDbRing 1 1 1 (2 ^ 64),
    .lckReleaseWrite 1 1 1 (2 ^ 64), .lckForce 1 1 (2 ^ 64), .netFdbData 1 1 (2 ^ 64), .netGlbCommit 1 1 (2 ^ 64), .netPortCommit 1 1 1 (2 ^ 64),
    .netExpCommit 1 1 1 (2 ^ 64), .netPeerCommit 1 1 1 (2 ^ 64), .timCommit 1 1 (2 ^ 64), .setupLock 1 1 (2 ^ 64), .sysShadowDiscard 1 1 (2 ^ 64),
    .registerWrite 1 1 1 1 4 (2 ^ 64)] : List Instr).all (fun i => !i.wf) = true := by decide

theorem test_wf_refuses_core : ([
    .stepEnd 1 96, .stepDeadline 96, .stretchExpiry 96, .furrowCoreFault 1 96 1, .fwCoreCommit 1 1 96 1, .commandStep 1 8 1 ⟨200, 1, []⟩,
    .compartmentViolation 1 8 ⟨1, 1, .load⟩, .controlCoreFail 1 8 1, .coreRejoin 1 8 false] : List Instr).all (fun i => !i.wf) = true := by decide

theorem test_wf_refuses_command : ([
    .sessionChallenge 1 ⟨8194, 1, [], []⟩, .sessionChallenge 1 ⟨0x2001, 2 ^ 32, [], []⟩, .sessionOpen 1 ⟨8194, 1, [], []⟩,
    .sessionOpen 1 ⟨0x2001, 2 ^ 32, [], []⟩, .sessionClose 1 ⟨8194, 1, [], []⟩, .sessionClose 1 ⟨0x2001, 2 ^ 32, [], []⟩,
    .ringCreate 1 ⟨8194, 1, [], []⟩, .ringCreate 1 ⟨0x2001, 2 ^ 32, [], []⟩, .ringDestroy 1 ⟨8194, 1, [], []⟩,
    .ringDestroy 1 ⟨0x2001, 2 ^ 32, [], []⟩, .ringAttach 1 ⟨8194, 1, [], []⟩, .ringAttach 1 ⟨0x2001, 2 ^ 32, [], []⟩, .fwVersion 1 ⟨8194, 1, [], []⟩,
    .fwVersion 1 ⟨0x2001, 2 ^ 32, [], []⟩, .classSet 1 ⟨8194, 1, [], []⟩, .classSet 1 ⟨0x2001, 2 ^ 32, [], []⟩, .groupSet 1 ⟨8194, 1, [], []⟩,
    .groupSet 1 ⟨0x2001, 2 ^ 32, [], []⟩, .streamOpen 1 ⟨8194, 1, [], []⟩, .streamOpen 1 ⟨0x2001, 2 ^ 32, [], []⟩, .streamModify 1 ⟨8194, 1, [], []⟩,
    .streamModify 1 ⟨0x2001, 2 ^ 32, [], []⟩, .streamClose 1 ⟨8194, 1, [], []⟩, .streamClose 1 ⟨0x2001, 2 ^ 32, [], []⟩,
    .modelLoad 1 ⟨8194, 1, [], []⟩ wImage, .modelLoad 1 ⟨0x2001, 2 ^ 32, [], []⟩ wImage, .modelActivate 1 ⟨8194, 1, [], []⟩,
    .modelActivate 1 ⟨0x2001, 2 ^ 32, [], []⟩, .modelActivateCancel 1 ⟨8194, 1, [], []⟩, .modelActivateCancel 1 ⟨0x2001, 2 ^ 32, [], []⟩,
    .modelUnload 1 ⟨8194, 1, [], []⟩, .modelUnload 1 ⟨0x2001, 2 ^ 32, [], []⟩, .modelQuery 1 ⟨8194, 1, [], []⟩,
    .modelQuery 1 ⟨0x2001, 2 ^ 32, [], []⟩, .configCommit 1 ⟨8194, 1, [], []⟩, .configCommit 1 ⟨0x2001, 2 ^ 32, [], []⟩,
    .calRead 1 ⟨8194, 1, [], []⟩, .calRead 1 ⟨0x2001, 2 ^ 32, [], []⟩, .calWrite 1 ⟨8194, 1, [], []⟩ false,
    .calWrite 1 ⟨0x2001, 2 ^ 32, [], []⟩ false, .fwStage 1 ⟨8194, 1, [], []⟩, .fwStage 1 ⟨0x2001, 2 ^ 32, [], []⟩, .fwActivate 1 ⟨8194, 1, [], []⟩,
    .fwActivate 1 ⟨0x2001, 2 ^ 32, [], []⟩, .fwActivateCancel 1 ⟨8194, 1, [], []⟩, .fwActivateCancel 1 ⟨0x2001, 2 ^ 32, [], []⟩,
    .timeGet 1 ⟨8194, 1, [], []⟩, .timeGet 1 ⟨0x2001, 2 ^ 32, [], []⟩, .timeSet 1 ⟨8194, 1, [], []⟩, .timeSet 1 ⟨0x2001, 2 ^ 32, [], []⟩,
    .powerSet 1 ⟨8194, 1, [], []⟩, .powerSet 1 ⟨0x2001, 2 ^ 32, [], []⟩, .stopEnter 1 ⟨8194, 1, [], []⟩, .stopEnter 1 ⟨0x2001, 2 ^ 32, [], []⟩,
    .warmReset 1 ⟨8194, 1, [], []⟩ wBoot, .warmReset 1 ⟨0x2001, 2 ^ 32, [], []⟩ wBoot, .statsRead 1 ⟨8194, 1, [], []⟩,
    .statsRead 1 ⟨0x2001, 2 ^ 32, [], []⟩, .logConfig 1 ⟨8194, 1, [], []⟩, .logConfig 1 ⟨0x2001, 2 ^ 32, [], []⟩, .attest 1 ⟨8194, 1, [], []⟩,
    .attest 1 ⟨0x2001, 2 ^ 32, [], []⟩, .keyProvision 1 ⟨8194, 1, [], []⟩, .keyProvision 1 ⟨0x2001, 2 ^ 32, [], []⟩,
    .buddyPair 1 ⟨8194, 1, [], []⟩ wReply, .buddyPair 1 ⟨0x2001, 2 ^ 32, [], []⟩ wReply, .buddyUnpair 1 ⟨8194, 1, [], []⟩,
    .buddyUnpair 1 ⟨0x2001, 2 ^ 32, [], []⟩, .buddyStatus 1 ⟨8194, 1, [], []⟩, .buddyStatus 1 ⟨0x2001, 2 ^ 32, [], []⟩,
    .testFault 1 ⟨8194, 1, [], []⟩, .testFault 1 ⟨0x2001, 2 ^ 32, [], []⟩] : List Instr).all (fun i => !i.wf) = true := by decide

theorem test_wf_refuses_number_1 : ([
    .runnelBatch 1 1 (2 ^ 128) 1 [], .runnelBatch 1 1 1 (2 ^ 16) [], .journalWriteComplete 1 1 (2 ^ 32), .mirrorConfirmation 1 1 (2 ^ 32),
    .mirrorTmo 1 (2 ^ 32), .heldBatchDrop 1 (2 ^ 32), .frfDetectorWindowEnd 256, .frfFoldDecision 256, .frfLaneSwap 1 1 256 1, .fadeEnd 256,
    .frfLaneCommit 1 1 256 1, .frfMaskTakeEffect 8192, .frfMaskExpiry 8192, .spikePacket 1 (2 ^ 32), .stepMarker 1 (2 ^ 32), .gatewayMarker 1 8 1 1,
    .countFrame 1 256, .fwPopCommit 1 1 256 1, .layerBoundary 1 48 wLayerRun, .haloPublish 1 48 1 1 1 1 false, .tileFault 1 48 1, .stCommit 1 1 48 1,
    .haloPublish 1 1 48 1 1 1 false, .haloPublish 1 1 1 256 1 1 false, .groupRemapComplete 1 16, .instantOpenTimeout 32, .instantExpiry 32,
    .fusionComplete 1 32 ⟨[], [], 5⟩, .slotCheckpointComplete 1 32, .cpGrpCommit 1 1 32 1, .coppiceUnitFault 1 8 1,
    .dramAccess 1 1 (2 ^ 48) false [] 1 .clean, .patrolScrub 1 (2 ^ 48) .clean, .addressMatch 1 128 wXfer wBoot false, .arbitrationRead 1 128 [],
    .pseudoChannelFail 1 512 1, .memRgnCommit 1 1 32 1, .canalFlit 1 384 ⟨false, false⟩, .linkFail 1 384, .sqWrite 1 4096 1 .last []] : List Instr).all (fun i => !i.wf) = true := by decide

theorem test_wf_refuses_number_2 : ([
    .sqRead 1 4096 1, .queueReset 1 4096 .pointer, .netExpCommit 1 1 32 1, .doorbellSnoop 1 1024 [] false, .doorbellPoll 1 1024 [] false,
    .watchReread 1 1024 [], .nudge 1 64 1 [], .flr 1 64, .hifFnCommit 1 1 64 1, .hifFnAdmCommit 1 1 64 1, .registerWrite 1 64 1 1 4 1,
    .msixUnmask 1 64 1 false, .nudge 1 1 (2 ^ 24) [], .mwWrite 1 (2 ^ 20) 4 1, .registerWrite 1 1 1 (2 ^ 24) 4 1, .descriptorFetch 1 8192 [] false,
    .runWrite 1 8192 false, .coalescingTime 8192, .injectionDescriptor 1 8192 [], .commandStep 1 1 16 ⟨200, 1, []⟩, .componentHandover 1 16 false,
    .compartmentViolation 1 1 ⟨2 ^ 48, 1, .load⟩, .compartmentViolation 1 1 ⟨1, 0, .load⟩, .mwWrite 1 1 2 1, .registerWrite 1 1 1 1 2 1,
    .mbxCfg 1 1 64 1, .mbxSend 1 1 64 1, .mbxRecv 1 1 64, .mbxDbRing 1 1 64 1, .lckAcquireRead 1 1 64, .lckReleaseWrite 1 1 64 1,
    .activationSwitch 1 16, .fdbAgeing 1 32768, .fatalError 1 1 65536 1, .wakeAbort 1 1 65536, .ceMergeWindow 1 65536, .dissentEnd 1024 1,
    .culvertRetransmit 1 16 1, .peerLost 1 16, .authChallenge 1 16] : List Instr).all (fun i => !i.wf) = true := by decide

theorem test_wf_refuses_number_3 : ([
    .netPeerCommit 1 1 16 1, .culvertRetransmit 1 1 64, .fatalError 1 13 1 1, .ceMergeWindow 13 1, .pgoodLoss 1 8, .pgoodReturn 1 8,
    .domainReady 1 7, .claimLapsed (2 ^ 24), .pendingCommitApply 1 (2 ^ 24), .waitToRestore 8, .guardTimer 8, .msixUnmask 1 1 2048 false] : List Instr).all (fun i => !i.wf) = true := by decide

theorem test_wf_accepts_1 : ([
    .runnelBatch 1 (16 - 1) (2 ^ 128 - 1) (2 ^ 16 - 1) [], .journalWriteComplete 1 (128 - 1) (2 ^ 32 - 1),
    .mirrorConfirmation 1 (128 - 1) (2 ^ 32 - 1), .mirrorTmo (128 - 1) (2 ^ 32 - 1), .gapAckRepeat (128 - 1), .heldBatchDrop (128 - 1) (2 ^ 32 - 1),
    .sliceGuardExpiry (128 - 1), .trackedFit (128 - 1), .hgGlbCommit 1 62 (2 ^ 64 - 1), .hgStreamCommit 1 62 (128 - 1) (2 ^ 64 - 1),
    .frfDetectorWindowEnd (256 - 1), .frfFoldDecision (256 - 1), .frfMaskTakeEffect (8192 - 1), .frfMaskExpiry (8192 - 1),
    .frfLaneSwap 1 62 (256 - 1) (2 ^ 64 - 1), .fadeEnd (256 - 1), .frfSync 1 62 (2 ^ 64 - 1), .frfMaskData1 1 62 (2 ^ 64 - 1),
    .frfCoefData 1 62 (2 ^ 64 - 1), .frfGlbCommit 1 62 (2 ^ 64 - 1), .frfLaneCommit 1 62 (256 - 1) (2 ^ 64 - 1), .spikePacket 1 (2 ^ 32 - 1),
    .stepMarker 1 (2 ^ 32 - 1), .gatewayMarker 1 (8 - 1) (128 - 1) 1, .stepEnd 1 (96 - 1), .stepDeadline (96 - 1), .stretchExpiry (96 - 1),
    .countFrame 1 (256 - 1), .furrowCoreFault 1 (96 - 1) 1, .fwGlbCommit 1 62 (2 ^ 64 - 1), .fwCoreCommit 1 62 (96 - 1) (2 ^ 64 - 1),
    .fwMapCommit 1 62 (128 - 1) (2 ^ 64 - 1), .fwPopCommit 1 62 (256 - 1) (2 ^ 64 - 1), .fwTblData 1 62 (2 ^ 64 - 1),
    .layerBoundary 1 (48 - 1) wLayerRun, .haloPublish 1 (48 - 1) (48 - 1) (256 - 1) (128 - 1) 1 false, .tileFault 1 (48 - 1) 1,
    .groupRemapComplete 1 (16 - 1), .stCommit 1 62 (48 - 1) (2 ^ 64 - 1), .instantOpenTimeout (32 - 1)] : List Instr).all Instr.wf = true := by decide

theorem test_wf_accepts_2 : ([
    .instantExpiry (32 - 1), .fusionComplete 1 (32 - 1) ⟨[], [], 5⟩, .slotCheckpointComplete 1 (32 - 1), .coppiceUnitFault 1 (8 - 1) 1,
    .cpGlbCommit 1 62 (2 ^ 64 - 1), .cpGrpCommit 1 62 (32 - 1) (2 ^ 64 - 1), .cpMbrCommit 1 62 (128 - 1) (2 ^ 64 - 1), .capacityRelease 1 (128 - 1),
    .dramAccess 1 1 (2 ^ 48 - 1) false [] 1 .clean, .patrolScrub 1 (2 ^ 48 - 1) .clean, .pseudoChannelFail 1 (512 - 1) 1,
    .memRgnCommit 1 62 (32 - 1) (2 ^ 64 - 1), .canalFlit 1 (384 - 1) ⟨false, false⟩, .linkFail 1 (384 - 1), .sqWrite 1 (4096 - 1) 1 .last [],
    .sqRead 1 (4096 - 1) 1, .queueReset 1 (4096 - 1) .pointer, .sqQCommit 1 62 (2 ^ 64 - 1), .doorbellSnoop 1 (1024 - 1) [] false,
    .doorbellPoll 1 (1024 - 1) [] false, .watchReread 1 (1024 - 1) [], .nudge 1 (64 - 1) (2 ^ 24 - 1) [], .descriptorFetch 1 (8192 - 1) [] false,
    .runWrite 1 (8192 - 1) false, .coalescingTime (8192 - 1), .flr 1 (64 - 1), .hifFnCommit 1 62 (64 - 1) (2 ^ 64 - 1),
    .hifFnAdmCommit 1 62 (64 - 1) (2 ^ 64 - 1), .commandStep 1 (8 - 1) (16 - 1) ⟨200, 1, []⟩, .compartmentViolation 1 (8 - 1) ⟨2 ^ 48 - 1, 1, .load⟩,
    .controlCoreFail 1 (8 - 1) 1, .coreRejoin 1 (8 - 1) false, .mwWrite 1 (2 ^ 20 - 1) 8 (2 ^ 64 - 1), .mbxCfg 1 62 (64 - 1) (2 ^ 64 - 1),
    .mbxSend 1 62 (64 - 1) (2 ^ 64 - 1), .mbxRecv 1 62 (64 - 1), .mbxDbRing 1 62 (64 - 1) (2 ^ 64 - 1), .lckAcquireRead 1 62 (64 - 1),
    .lckReleaseWrite 1 62 (64 - 1) (2 ^ 64 - 1), .lckForce 1 62 (2 ^ 64 - 1)] : List Instr).all Instr.wf = true := by decide

theorem test_wf_accepts_3 : ([
    .componentHandover 1 (16 - 1) false, .sessionChallenge 1 ⟨0x2001, 2 ^ 32 - 1, [], []⟩, .sessionOpen 1 ⟨0x2001, 2 ^ 32 - 1, [], []⟩,
    .sessionClose 1 ⟨0x2001, 2 ^ 32 - 1, [], []⟩, .ringCreate 1 ⟨0x2001, 2 ^ 32 - 1, [], []⟩, .ringDestroy 1 ⟨0x2001, 2 ^ 32 - 1, [], []⟩,
    .ringAttach 1 ⟨0x2001, 2 ^ 32 - 1, [], []⟩, .fwVersion 1 ⟨0x2001, 2 ^ 32 - 1, [], []⟩, .classSet 1 ⟨0x2001, 2 ^ 32 - 1, [], []⟩,
    .groupSet 1 ⟨0x2001, 2 ^ 32 - 1, [], []⟩, .streamOpen 1 ⟨0x2001, 2 ^ 32 - 1, [], []⟩, .streamModify 1 ⟨0x2001, 2 ^ 32 - 1, [], []⟩,
    .streamClose 1 ⟨0x2001, 2 ^ 32 - 1, [], []⟩, .modelLoad 1 ⟨0x2001, 2 ^ 32 - 1, [], []⟩ wImage, .modelActivate 1 ⟨0x2001, 2 ^ 32 - 1, [], []⟩,
    .modelActivateCancel 1 ⟨0x2001, 2 ^ 32 - 1, [], []⟩, .activationSwitch 1 (16 - 1), .modelUnload 1 ⟨0x2001, 2 ^ 32 - 1, [], []⟩,
    .modelQuery 1 ⟨0x2001, 2 ^ 32 - 1, [], []⟩, .configCommit 1 ⟨0x2001, 2 ^ 32 - 1, [], []⟩, .calRead 1 ⟨0x2001, 2 ^ 32 - 1, [], []⟩,
    .calWrite 1 ⟨0x2001, 2 ^ 32 - 1, [], []⟩ false, .fwStage 1 ⟨0x2001, 2 ^ 32 - 1, [], []⟩, .fwActivate 1 ⟨0x2001, 2 ^ 32 - 1, [], []⟩,
    .fwActivateCancel 1 ⟨0x2001, 2 ^ 32 - 1, [], []⟩, .timeGet 1 ⟨0x2001, 2 ^ 32 - 1, [], []⟩, .timeSet 1 ⟨0x2001, 2 ^ 32 - 1, [], []⟩,
    .powerSet 1 ⟨0x2001, 2 ^ 32 - 1, [], []⟩, .stopEnter 1 ⟨0x2001, 2 ^ 32 - 1, [], []⟩, .warmReset 1 ⟨0x2001, 2 ^ 32 - 1, [], []⟩ wBoot,
    .statsRead 1 ⟨0x2001, 2 ^ 32 - 1, [], []⟩, .logConfig 1 ⟨0x2001, 2 ^ 32 - 1, [], []⟩, .attest 1 ⟨0x2001, 2 ^ 32 - 1, [], []⟩,
    .keyProvision 1 ⟨0x2001, 2 ^ 32 - 1, [], []⟩, .buddyPair 1 ⟨0x2001, 2 ^ 32 - 1, [], []⟩ wReply, .buddyUnpair 1 ⟨0x2001, 2 ^ 32 - 1, [], []⟩,
    .buddyStatus 1 ⟨0x2001, 2 ^ 32 - 1, [], []⟩, .testFault 1 ⟨0x2001, 2 ^ 32 - 1, [], []⟩, .injectionDescriptor 1 (8192 - 1) [],
    .ethernetFrame 1 (16 - 1) (wFrame [] true)] : List Instr).all Instr.wf = true := by decide

theorem test_wf_accepts_4 : ([
    .portFail 1 (16 - 1), .portReturn 1 (16 - 1), .fdbAgeing 1 (32768 - 1), .netFdbData 1 62 (2 ^ 64 - 1), .launch 1 (16 - 1),
    .netPortTxtsId 1 62 (16 - 1), .culvertDatagram 1 (16 - 1) (wCv 3 0 0 0 []), .dissentEnd (1024 - 1) 1, .culvertRetransmit 1 (16 - 1) (64 - 1),
    .peerLost 1 (16 - 1), .authChallenge 1 (16 - 1), .timNow 1 62, .netGlbCommit 1 62 (2 ^ 64 - 1), .netPortCommit 1 62 (16 - 1) (2 ^ 64 - 1),
    .netExpCommit 1 62 (32 - 1) (2 ^ 64 - 1), .netPeerCommit 1 62 (16 - 1) (2 ^ 64 - 1), .timCommit 1 62 (2 ^ 64 - 1),
    .fatalError 1 (13 - 1) (65536 - 1) 1, .pgoodLoss 1 (8 - 1), .addressMatch 1 (128 - 1) wXfer wBoot false, .wakeAbort 1 1 (65536 - 1),
    .domainReady 1 (7 - 1), .arbitrationRead 1 (128 - 1) [], .setupLock 1 62 (2 ^ 64 - 1), .sysShadowDiscard 1 62 (2 ^ 64 - 1),
    .claimLapsed (2 ^ 24 - 1), .pendingCommitApply 1 (2 ^ 24 - 1), .registerWrite 1 (64 - 1) 62 (2 ^ 24 - 1) 8 (2 ^ 64 - 1), .pgoodReturn 1 (8 - 1),
    .waitToRestore (8 - 1), .guardTimer (8 - 1), .ceMergeWindow (13 - 1) (65536 - 1), .msixUnmask 1 (64 - 1) (2048 - 1) false, .portLinkUp 1 (16 - 1)] : List Instr).all Instr.wf = true := by decide

/-! ### Values worked out in the spec's examples -/

/-- The journal region of the example of chapter *Bonded memory* (`spec/09_memory_canal_queues.md`, The journal line). -/
def wJrnRegion : Region := ⟨0x40000000, 0x80000000, true, false, 0, 0x1000000⟩

/-- The two copies of the journal line lie at stop 68, on pseudo-channels 417 and 419, at offset 8,462,951; after the loss of
417 its chunk 0 goes to 416 (spec/09_memory_canal_queues.md, R250, R253, R260). -/
theorem test_journal_line : copiesOf wJrnRegion 0x41234567 = [417, 419] ∧ stopOfPc 417 = 68 ∧
    (placement wJrnRegion 0x41234567).2 = 16926055 ∧ pseudoOff 16926055 = 8462951 ∧ wUp.reserveOf 417 0 = 416 := by decide +kernel

/-- The context layer of chapter *Tensor operators*: 3 × 3, dilation and padding `d`, 20 × 12 maps of 128 channels. -/
def wDilated (d : Nat) : Layer :=
  { wLayer with
    kind := 0, h := 12, w := 20, cin := 128, cout := 128, kh := 3, kw := 3, strH := 1, strW := 1, dilH := d, dilW := d,
    padT := d, padL := d, padB := d, padR := d, padMode := 1, padConst := 128, groups := 1, parts := [⟨0, 0, 12, 0, 128, []⟩] }

/-- With dilation 24 only the centre tap survives and the layer takes 960 of 8,640 array cycles; with dilation 16 three taps
survive, and 2,880 cycles (spec/06_tensor_operators.md, R158, R166). -/
theorem test_wholly_padded :
    (wDilated 24).liveTaps = [(1, 1)] ∧ (wDilated 24).arrayCycles [(wDilated 24).liveTaps] (wDilated 24).parts = 960 ∧
    (wDilated 24).arrayCycles [(List.range 9).map (fun i => (i / 3, i % 3))] (wDilated 24).parts = 8640 ∧
    (wDilated 16).liveTaps = [(1, 0), (1, 1), (1, 2)] ∧
    (wDilated 16).arrayCycles [(wDilated 16).liveTaps] (wDilated 16).parts = 2880 := by decide +kernel

/-- FMC-4 between −37 and 83: 50 takes code 11 and decodes as 51, 0 takes code 5 and decodes as 3
(spec/06_tensor_operators.md, R184, R186). -/
theorem test_fmc4 :
    fmcCode 15 (-37) 83 50 = 11 ∧ fmcCode 15 (-37) 83 0 = 5 ∧
    (let b := fmcIntBlock 1 ([50, 0, 83, 219] ++ List.replicate 60 0); fmcDecode 1 0 b 0 = 51 ∧ fmcDecode 1 0 b 1 = 3) := by
  decide +kernel

/-- Three datagrams of 128, 128 and 1 entries take 16,754 wire bytes, 671 ns at 200 Gb/s; 38 entries take 2,534 bytes
(spec/13_network_time.md, R397, R401). -/
theorem test_export_bytes :
    wUp.expWire 2 128 + wUp.expWire 2 128 + wUp.expWire 2 1 = 16754 ∧ wUp.wireNs 16754 = 671 ∧ wUp.expWire 2 38 = 2534 := by
  decide +kernel

/-- Position 17 answers at 0x19 and position 50 at 0x48 (spec/16_startup_enumeration.md, R471). -/
theorem test_bus_addresses : addrOf 17 = 0x19 ∧ addrOf 50 = 0x48 := by decide +kernel

/-- A stream of 200,000,000 events/s and b = 400,000 with G = 40 µs takes 608,000 events in a slice of 1 ms and costs
the declared 921,600 tile-cycles, and the link at
64 GT/s x16 delivers in 40 µs (spec/08_deadline_admission.md, R223, R226, R227). -/
theorem test_slice_events :
    (⟨5, 2, 0, 2000, 200000000, 400000, 40, 1000, 300, false⟩ : Load).events = 608000 ∧
    (⟨0, 2, 0, 0, 0, 40000, 1152, 921600⟩ : CostEntry).cost 608000 = 921600 ∧ (⟨0, 2, 0, 0, 0, 40000, 1152, 0⟩ : CostEntry).cost 608000 = 2776000 ∧
    linkDeliver 4 3 = 40 := by decide +kernel

/-! ### A concrete state and operands for every statement with hypotheses: one conjunct for each of its clauses -/

section
set_option Elab.async false

/-- What it takes for a command to start, as a test. -/
def startsB (s : State) (cmd : CmdRef) (op : Nat) (c : Ctx) : Bool :=
  match s.ctx cmd.ring cmd.seq with
  | none => false
  | some c0 => decide (c0.opcode = op) && decide (c0.steps = 0) && s.mayStart c0 &&
      decide (c = { c0 with
        steps := 1, sg := cmd.sg
        data := if c0.ring = 0x2001 then s.aid.bus.data.take c0.listLen else cmd.data }) &&
      decide ((Gated s c).checkCommand c = none)

theorem starts_of {s : State} {cmd : CmdRef} {op : Nat} {c : Ctx} (h : startsB s cmd op c = true) : Starts s cmd op c := by
  unfold startsB at h
  split at h
  · cases h
  · next c0 e =>
    simp only [Bool.and_eq_true, decide_eq_true_eq] at h
    exact ⟨c0, e, h.1.1.1.1, h.1.1.1.2, h.1.1.2, h.1.2, h.2⟩

theorem starts_and {s : State} {cmd : CmdRef} {op : Nat} {c : Ctx} {p : Prop} (h : startsB s cmd op c = true ∧ p) :
    Starts s cmd op c ∧ p := ⟨starts_of h.1, h.2⟩

theorem canonical_of {s : State} (h : Memory.wf s.mem = true ∧ tabSorted s.regs = true ∧ tabSorted s.shadow = true) : Canonical s := h

theorem witness_StepRunsFrontCommand :
  (let c : Instr := .fenced 5; let s : State := { wUp with pending := [.fenced 5] }; let rest : List Instr := []; (s.pending = c :: rest)) ∧
  (let s : State := { wUp with pow := { Pow.reset with stopped := true } }; (s.pending = []) ∧ (s.get F.PWR_STOP.STATE ≠ 1) ∧ (s.ticking = false)) ∧
  (let s : State := wPuts wUp [(F.TIM_ADDEND.ADDEND, 2 ^ 32 + 5)]; (s.pending = []) ∧ (s.get F.PWR_STOP.STATE ≠ 1) ∧ (s.ticking = true)) ∧
  (let s : State := wPuts wUp [(F.PWR_STOP.STATE, 1), (F.PWR_STOP.STEP, 3)]; (s.pending = []) ∧ (s.get F.PWR_STOP.STATE = 1)) ∧
  (∀ k < 8, let s : State := wPuts wUp [(F.PWR_STOP.STATE, 1), (F.PWR_STOP.STEP, k)]; s.pending = [] ∧ s.get F.PWR_STOP.STATE = 1
    ∧ s.get F.PWR_STOP.STEP = k) := ⟨by decide +kernel,
    by decide +kernel,
    by decide +kernel,
    by decide +kernel,
    by decide +kernel⟩

theorem witness_StepKeepsCanonical :
  let s : State := { wStream with pending := [.sliceGuardExpiry 5] }; Canonical s := canonical_of (by decide +kernel)

theorem witness_RowsChangeOnlyTheirParts :
  let c : Instr := .enumInChange 1 true; let s : State := wUp; let t : State := { wUp with aon := { wUp.aon with enumIn := true } };
    (exec c s = .next t) ∧ (let p : Part := .regs; (p ∉ rowParts c)) := ⟨rfl, by decide +kernel⟩

theorem witness_BatchBeginsJournalEntry :
  let s : State := wStream; let t : Nat := 1000500; let port : Nat := 16; let src : Nat := 0; let sport : Nat := 0;
    let p : List Byte := wGram 7 10 900000 [0x12345, 0x40000009]; let b : Batch := wBatch 7 10 900000 [0x12345, 0x40000009] 1000500; let i : Nat := 5;
    (s.flag F.HG_CTL.ENABLE = true) ∧ (s.mute = false) ∧ ((16 ≤ port ∨ s.flag (F.NET_PORT_STAT.FAILED port) = false))
    ∧ (parseBatch p src sport port (max s.time t) none = some b) ∧ (s.slotOf b = some i) ∧ (s.streamState i = 2) ∧ (b.payloadOk = true)
    ∧ ((s.stream i).classify b.seq = .next) ∧ ((s.stream i).held = []) ∧ (b.need * 2 ^ 32 ≤ (s.at t).tokensNow i) ∧ (entryLen b.n ≤ s.jrnFree) := by decide +kernel

theorem witness_HeadgateTimersAndJournal :
  (let s : State := wSlot5 (fun x => { x with gapAt := some 1000100, lastAck := some (9, 990000) }); let i : Nat := 5; let g : Nat := 1000100;
    let cum : Nat := 9; let a : Nat := 990000; ((s.stream i).gapAt = some g) ∧ ((s.stream i).lastAck = some (cum, a)) ∧ (s.mute = false)) ∧
  (let s : State := wSlot5 (fun x => { x with held := [⟨wBatch 7 12 900000 [] 990000, 990000⟩] }); let i : Nat := 5; let seq : Nat := 12;
    let h : Held := ⟨wBatch 7 12 900000 [] 990000, 990000⟩; ((s.stream i).held.find? (fun h => h.batch.seq = seq) = some h)) ∧
  (let s : State := wJournal [wEntry 10 .writing false true]; let i : Nat := 5; let seq : Nat := 10; let e : JEntry := wEntry 10 .writing false true;
    ((s.entriesOf i).find? (fun e => e.seq = seq) = some e) ∧ (e.needMirror = true) ∧ (e.mirrored = false)) ∧
  (let s : State := wStream; let i : Nat := 5; let k : Nat := 1; ((s.stream i).kOpen = some k)) ∧
  (let s : State := wJournal [wEntry 10 .writing false false]; let t : Nat := 1000500; let i : Nat := 5; let seq : Nat := 10;
    let e : JEntry := wEntry 10 .journalled false false;
    let s1 := (s.at t).setEntry i seq (fun e => if e.phase = .writing then { e with phase := .journalled } else e); (s1.firstOpen i = some e)
    ∧ (e.phase = .journalled) ∧ (e.needMirror = false) ∧ (e.batch.injected = none) ∧ (s.mute = false)) ∧
  (let s : State := wJournal [wEntry 10 .writing false true]; let t : Nat := 1000500; let i : Nat := 5; let seq : Nat := 10;
    let e : JEntry := wEntry 10 .writing true false;
    let s1 := (s.at t).setEntry i seq (fun e => if e.mirrored then e else { e with mirrored := true, needMirror := false }); (s1.firstOpen i = some e)
    ∧ (e.phase = .writing)) ∧
  (let s : State := (wSlot5 (fun x => { x with trk := { Tracked.empty with count := 64, best := some (5, 6, 7), s0 := some 2, ready := [(6, 5)] } })).put (F.HG_STREAM_CTL.TIME_MODE 5) 1;
    let i : Nat := 5; let e : Int := 6; let d : Int := 5; let rest : List (Int × Int) := []; (s.timeMode i = 1)
    ∧ ((s.stream i).trk.ready = (e, d) :: rest)) := ⟨by decide +kernel,
    by decide +kernel,
    by decide +kernel,
    by decide +kernel,
    by decide +kernel,
    by decide +kernel,
    by decide +kernel⟩

theorem witness_FrfBinsAndWindows :
  (let s : State := wFrf; (s.frfOn = true)) ∧
  (let s : State := { wFrf with frf := { wFrf.frf with nextBin := 8192 } }; let l : Nat := 3; let c : Nat := 70; (s.frfOn = true)
    ∧ (s.frf.nextBin % (2 ^ s.get (F.FRF_LANE_CTL.DET_WIN l) * 32 * s.d4 l) = 0) ∧ ((s.lane l).windowAt ≠ some s.frf.nextBin)
    ∧ ((s.lane l).chan = some c)) := ⟨by decide +kernel,
    by decide +kernel⟩

theorem witness_FrfSwitches :
  (let s : State := wLane3 (fun x => { x with next := some (some 5) }); (s.frfOn = true) ∧ (s.frf.nextBin % 128 = 0)
    ∧ (s.frf.switchedAt ≠ some s.frf.nextBin)) ∧
  (let s : State := (wPuts wFrf [(F.FRF_LANE_CTL.MODE 7, 2), (F.FRF_ROT.LEN, 2)]).setLane 7 FrfLane.empty; (s.frfOn = true)
    ∧ (s.frf.nextBin % s.dwellUs = 0) ∧ (s.frf.dwellAt ≠ some s.frf.nextBin) ∧ ((s.group R.FRF_GLB_COMMIT).pending = none)) := ⟨by decide +kernel,
    by decide +kernel⟩

theorem witness_FrfBanks :
  (let s : State := wFrf; let req : Nat := 0; let l : Nat := 3; let val : Nat := 3; (s.reaches req (R.FRF_LANE_SWAP l) = true)
    ∧ ((F.FRF_LANE_SWAP.REQ l).of (BitVec.ofNat 64 val) = 1) ∧ ((s.lane l).fade = none)
    ∧ (decide ((F.FRF_LANE_SWAP.TARGET l).of (BitVec.ofNat 64 val) ≠ 0) ≠ s.activeBank l)) ∧
  (let s : State := wLane3 (fun x => { x with fade := some (true, 0) }); let req : Nat := 0; let l : Nat := 3; let val : Nat := 3;
    let f : Bool × Nat := (true, 0); (s.reaches req (R.FRF_LANE_SWAP l) = true) ∧ ((F.FRF_LANE_SWAP.REQ l).of (BitVec.ofNat 64 val) = 1)
    ∧ ((s.lane l).fade = some f)) ∧
  (let s : State := wLane3 (fun x => { x with fade := some (true, 64) }); let l : Nat := 3; let i : Nat := 64; let b : Bool := true;
    ((s.lane l).fade = some (b, i)) ∧ (s.fadeLen l ≤ i) ∧ (s.flag (F.FRF_LANE_STAT.PENDING l) = false)) ∧
  (let s : State := wPuts wFrf [(F.FRF_COEF_ADDR.LANE, 3), (F.FRF_COEF_ADDR.BANK, 1), (F.FRF_COEF_ADDR.INDEX, 2)]; let req : Nat := 0;
    let l := s.get F.FRF_COEF_ADDR.LANE; let b := s.flag F.FRF_COEF_ADDR.BANK; (s.reaches req R.FRF_COEF_DATA = true) ∧ (s.bankBusy l b = false)) ∧
  (let s : State := wFrf; let req : Nat := 0; let val : Nat := 1; let v := BitVec.ofNat 64 val; (s.reaches req R.FRF_SYNC = true)
    ∧ (F.FRF_SYNC.REQ.of v = 1) ∧ (F.FRF_SYNC.SCOPE.of v < 3) ∧ (F.FRF_SYNC.TIMED.of v = 0)) := ⟨by decide +kernel,
    by decide +kernel,
    by decide +kernel,
    by decide +kernel,
    by decide +kernel⟩

theorem witness_FrfMasks :
  (let s : State := wFrf; let l : Nat := 3; let c : Nat := 70; let w := s.frf.nextBin; (s.frfOn = true) ∧ (w % s.dwellUs = 0)
    ∧ ((s.lane l).foldAt ≠ some w) ∧ ((s.lane l).chan = some c) ∧ (s.get (F.FRF_LANE_FOLD.PERIOD_NS l) ≠ 0)) ∧
  (let s : State := { wFrf with frf := { wFrf.frf with decisions := [wFold] } }; let f : Fold := wFold; let e := 64 * (f.chan / 68) + f.chan % 68;
    (firstDecision s.frf.decisions = some f) ∧ (f.chan % 68 < 64) ∧ ((s.maskNow e).lock = false)) ∧
  (let s : State := { wFrf with frf := { wFrf.frf with masks := [(66, ⟨[], 2000000, ⟨true, false, 10000000, 5, 6, 7⟩, false⟩)] } }; let e : Nat := 66;
    ((s.mask e).applied = false)) ∧
  (let s : State := { wFrf with frf := { wFrf.frf with masks := [(66, ⟨[], 2000000, ⟨true, false, 10000000, 5, 6, 7⟩, false⟩)] } }; let e : Nat := 66;
    ((s.maskNow e).active = true) ∧ ((s.maskNow e).lock = false)) ∧
  (let s : State := wPuts wFrf [(F.FRF_MASK_SEL.ENTRY, 66), (F.FRF_MASK_DATA0.PERIOD, 10000000), (F.FRF_MASK_DATA0.PHASE, 9)]; let req : Nat := 0;
    let val : Nat := 100; let p := s.get F.FRF_MASK_DATA0.PERIOD; let ph := s.get F.FRF_MASK_DATA0.PHASE;
    let w := F.FRF_MASK_DATA1.WIDTH.of (BitVec.ofNat 64 val); (s.reaches req R.FRF_MASK_DATA1 = true) ∧ (1000000 ≤ p) ∧ (p ≤ 50000000) ∧ (ph < p)
    ∧ (w < p)) ∧
  (let s : State := wPuts wFrf [(F.FRF_MASK_SEL.ENTRY, 66), (F.FRF_MASK_DATA0.PERIOD, 999999), (F.FRF_MASK_DATA0.PHASE, 9)]; let req : Nat := 0;
    let val : Nat := 100; let p := s.get F.FRF_MASK_DATA0.PERIOD; (s.reaches req R.FRF_MASK_DATA1 = true)
    ∧ (p < 1000000 ∨ 50000000 < p ∨ p ≤ s.get F.FRF_MASK_DATA0.PHASE ∨ p ≤ F.FRF_MASK_DATA1.WIDTH.of (BitVec.ofNat 64 val))) := ⟨by decide +kernel,
    by decide +kernel,
    by decide +kernel,
    by decide +kernel,
    by decide +kernel,
    by decide +kernel⟩

theorem witness_FurrowPackets :
  (let s : State := wFly 3 (spikePacket 4 3 0 false 19); let p : Nat := spikePacket 4 3 0 false 19; let f : FwFly := ⟨3, spikePacket 4 3 0 false 19⟩;
    let c := s.routerOf (natBits p 31 25); let x := s.fcore c; let n := fullStep x.opened (natBits p 7 0) + natBits p 14 9; (s.fwOn = true)
    ∧ (s.coreRuns c = true) ∧ (p.testBit 8 = false) ∧ (firstOfPath s.fw.flight [] p = some f)
    ∧ (x.held.any (fun h => inputOf h.src c = inputOf f.src c) = false) ∧ (n = x.opened) ∧ (x.acc.inputs < inputCap)) ∧
  (let s : State := wFly 3 (spikePacket 4 3 1 false 19); let p : Nat := spikePacket 4 3 1 false 19; let f : FwFly := ⟨3, spikePacket 4 3 1 false 19⟩;
    let c := s.routerOf (natBits p 31 25); let x := s.fcore c; let n := fullStep x.opened (natBits p 7 0) + natBits p 14 9; (s.fwOn = true)
    ∧ (s.coreRuns c = true) ∧ (p.testBit 8 = false) ∧ (firstOfPath s.fw.flight [] p = some f)
    ∧ (x.held.any (fun h => inputOf h.src c = inputOf f.src c) = false) ∧ (n = x.opened + 1) ∧ (x.next.inputs < inputCap)) ∧
  (let s : State := wFly 3 (spikePacket 4 3 2 false 19); let p : Nat := spikePacket 4 3 2 false 19; let f : FwFly := ⟨3, spikePacket 4 3 2 false 19⟩;
    let c := s.routerOf (natBits p 31 25); let x := s.fcore c; let n := fullStep x.opened (natBits p 7 0) + natBits p 14 9; (s.fwOn = true)
    ∧ (s.coreRuns c = true) ∧ (p.testBit 8 = false) ∧ (firstOfPath s.fw.flight [] p = some f)
    ∧ (x.held.any (fun h => inputOf h.src c = inputOf f.src c) = false) ∧ (x.opened + 1 < n) ∧ (x.queue.length < 4096)) ∧
  (let s : State := wFly 3 (spikePacket 4 3 0 false 18); let p : Nat := spikePacket 4 3 0 false 18; let f : FwFly := ⟨3, spikePacket 4 3 0 false 18⟩;
    let c := s.routerOf (natBits p 31 25); let x := s.fcore c; let n := fullStep x.opened (natBits p 7 0) + natBits p 14 9; (s.fwOn = true)
    ∧ (s.coreRuns c = true) ∧ (p.testBit 8 = false) ∧ (firstOfPath s.fw.flight [] p = some f)
    ∧ (x.held.any (fun h => inputOf h.src c = inputOf f.src c) = false) ∧ (n < x.opened) ∧ (x.acc.inputs < inputCap)) ∧
  (let s : State := wFly 130 (spikePacket 4 130 0 true 19); let p : Nat := spikePacket 4 130 0 true 19;
    let f : FwFly := ⟨130, spikePacket 4 130 0 true 19⟩; let c := s.routerOf (natBits p 31 25); let x := s.fcore c; (s.fwOn = true)
    ∧ (s.coreRuns c = true) ∧ (p.testBit 8 = true) ∧ (firstOfPath s.fw.flight [] p = some f)
    ∧ (x.held.any (fun h => inputOf h.src c = inputOf f.src c) = false)) ∧
  (let s : State := wPuts wFw [(F.HG_STREAM_GEOM.WIDTH 5, 16), (F.HG_STREAM_GEOM.HEIGHT 5, 16)]; let t : Nat := 2000000; let g : Nat := 2;
    let i : Nat := 5; let step : Nat := 4; (s.fwOn = true) ∧ (s.flag (F.FW_MAP_CTL.ENABLE i) = true) ∧ (s.get (F.FW_MAP_CTL.GATEWAY i) = g)
    ∧ (tabGet 0 s.fw.marked i ≤ step) ∧ ((step + 1) * s.stepNs ≤ (s.at t).horizon i)) := ⟨by decide +kernel,
    by decide +kernel,
    by decide +kernel,
    by decide +kernel,
    by decide +kernel,
    by decide +kernel⟩

theorem witness_FurrowSteps :
  (let s : State := wFw; let t : Nat := 2000000; let c : Nat := 4; (c < 96) ∧ (s.fwOn = true) ∧ (s.coreRuns c = true) ∧ ((s.at t).stepReady c = true)) ∧
  (let s : State := wFw; let c : Nat := 4; (c < 96) ∧ (s.fwOn = true) ∧ (s.coreRuns c = true) ∧ ((s.fcore c).stretching = false)
    ∧ ((s.at (s.stepDeadline c)).stepReady c = true)) ∧
  (let s : State := wPuts wFw [(F.FW_CORE_CFG.GW_MASK 4, 1)]; let c : Nat := 4; (c < 96) ∧ (s.fwOn = true) ∧ (s.coreRuns c = true)
    ∧ ((s.fcore c).stretching = false) ∧ ((s.at (s.stepDeadline c)).stepReady c = false)) ∧
  (let s : State := wFw.setFcore 4 { wFw.fcore 4 with stretching := true }; let c : Nat := 4; (c < 96) ∧ (s.fwOn = true) ∧ (s.coreRuns c = true)
    ∧ ((s.fcore c).stretching = true)) := ⟨by decide +kernel,
    by decide +kernel,
    by decide +kernel,
    by decide +kernel⟩

theorem witness_FurrowFramesAndCores :
  (let s : State := { wPuts wUp [(F.FW_POP_DEST.QUEUE 3, 9)] with fw := { Fw.reset with frames := [⟨3, zeros 64, [1, 2]⟩] }, mm := { Mm.reset with queues := [(9, { wQueue with cfg := setBits wQueue.cfg 57 49 (4 * stopOfGateway 0) })] } };
    let p : Nat := 3; let f : FwFrame := ⟨3, zeros 64, [1, 2]⟩; let q := s.get (F.FW_POP_DEST.QUEUE p); let x := s.queue q; (p < 256)
    ∧ (s.fw.frames.find? (fun f => f.pop = p) = some f) ∧ (x.enabled = true) ∧ (x.kept.length = x.sent) ∧ (f.words.length ≤ x.space)
    ∧ (x.prod / 4 = stopOfGateway (gatewayOf (s.physOf (s.get (F.FW_POP_CTL.CORE p))))) ∧ (s.flag (F.FW_POP_CTL.HOST p) = false)) ∧
  (let s : State := wPuts wUp [(F.FW_TBL_ADDR.CORE, 7), (F.FW_TBL_ADDR.INDEX, 1023)]; let req : Nat := 0; let c := s.get F.FW_TBL_ADDR.CORE;
    let i := s.get F.FW_TBL_ADDR.INDEX; (s.reaches req R.FW_TBL_DATA = true) ∧ (s.get F.FW_TBL_ADDR.TABLE = 0) ∧ (c < 96) ∧ (i < 1024)
    ∧ (s.flag (F.FW_CORE_CFG.ENABLE c) = false)) ∧
  (let s : State := wPuts wUp [(F.FW_TBL_ADDR.CORE, 7), (F.FW_CORE_CFG.ENABLE 7, 1)]; let req : Nat := 0; let c := s.get F.FW_TBL_ADDR.CORE;
    (s.reaches req R.FW_TBL_DATA = true) ∧ (s.get F.FW_TBL_ADDR.TABLE < 2) ∧ (c < 96) ∧ (s.flag (F.FW_CORE_CFG.ENABLE c) = true)) ∧
  (let s : State := wPuts wUp [(F.FW_TBL_ADDR.TABLE, 2), (F.FW_TBL_ADDR.INDEX, 95)]; let req : Nat := 0; let i := s.get F.FW_TBL_ADDR.INDEX;
    (s.reaches req R.FW_TBL_DATA = true) ∧ (s.get F.FW_TBL_ADDR.TABLE = 2) ∧ (i < 96)) ∧
  (let s : State := wUp; let c : Nat := 95; (c < 96) ∧ (s.get (F.FW_CORE_STAT.STATE c) ≠ 3)) ∧
  (let s : State := wPuts wFw [(F.FW_CORE_CFG.ENABLE 9, 1), (F.FW_CORE_CFG.LOGICAL 9, 127), (F.FW_CORE_STAT.STATE 9, 4)]; let c : Nat := 4;
    let d : Nat := 9; (c < 96) ∧ (s.get (F.FW_CORE_STAT.STATE c) ≠ 3) ∧ (s.flag (F.FW_CORE_CFG.ENABLE c) = true)
    ∧ (s.get (F.FW_CORE_CFG.LOGICAL c) ≠ 0x7F) ∧ (d ≠ c) ∧ (s.coresUp.find? (fun d => d ≠ c ∧ s.get (F.FW_CORE_CFG.LOGICAL d) = 0x7F) = some d)) := ⟨by decide +kernel,
    by decide +kernel,
    by decide +kernel,
    by decide +kernel,
    by decide +kernel,
    by decide +kernel⟩

theorem witness_LayerBoundary :
  (let s : State := wJob; let tile : Nat := 0; let g : Nat := 0; let j : TileJob := ⟨5, 3, 0, none⟩; let r : SliceRun := wRun 3;
    let l : Layer := wLayer; (tile < 48) ∧ (s.tileGroup tile = some g) ∧ (s.get (F.ST_GRP_STAT.STATE g) ≠ 2) ∧ (s.holding tile = false)
    ∧ (tabFind s.sd.jobs tile = some j) ∧ (s.sd.runs.find? (fun r => r.desc.stream = j.stream && r.desc.k = j.k) = some r)
    ∧ ((s.groupLayers g)[j.layer]? = some l)
    ∧ ((∀ p ∈ s.producers g tile l, s.haloFind tile p j.layer (tabGet 0 s.sd.gens (256 * tile + j.layer)) j = .ready))) ∧
  (let s : State := { wSd with sd := { Sd.reset with input := [wDesc 3] } }; let tile : Nat := 0; let g : Nat := 0;
    let r : SliceRun := { wRun 3 with key := wSd.deadlineKey (wDesc 3), admitted := false }; (tile < 48) ∧ (s.tileGroup tile = some g)
    ∧ (tabFind s.sd.jobs tile = none) ∧ (s.dead = false) ∧ (s.holding tile = false)
    ∧ (s.get (F.ST_GRP_STAT.STATE g) = 1 ∨ s.get (F.ST_GRP_STAT.STATE g) = 3) ∧ (s.get (F.ST_STAT.STATE tile) ≠ 4)
    ∧ (bestRun ((s.sd.runs.filter (fun r => r.slot = g && !r.held) ++ (s.eligibleOf g).map (s.startRun g)).filter (fun r => (s.nextLayer g tile r).isSome)) = some r)) ∧
  (let s : State := { wSd.put (F.ST_GRP_STAT.STATE 0) 2 with sd := { Sd.reset with runs := [{ wRun 3 with held := true }] } }; let tile : Nat := 0;
    let g : Nat := 0; (tile < 48) ∧ (s.tileGroup tile = some g) ∧ (s.get (F.ST_GRP_STAT.STATE g) = 2) ∧ (tabFind s.sd.jobs tile = none)) := ⟨by decide +kernel,
    by decide +kernel,
    by decide +kernel⟩

theorem witness_StandHalosAndFaults :
  (let s : State := wSd2 []; let p : Nat := 0; let c : Nat := 1; let j : Nat := 1; let i : Nat := 5; let k : Nat := 3; let g : Nat := 0;
    let r : SliceRun := { wRun 3 with done := [(0, 1)], outs := [(0, [(0, 7)])] };
    let l : Layer := { wLayer with parts := [⟨1, 0, 1, 0, 1, [0]⟩], src := .layer 0 }; let key := 65536 * p + 256 * c + j;
    let gen := tabGet 0 s.sd.pubs key; (s.tileGroup p = some g) ∧ (s.tileGroup c = some g)
    ∧ (s.sd.runs.find? (fun r => r.desc.stream = i && r.desc.k = k) = some r) ∧ (r.slot = g) ∧ ((s.groupLayers g)[j]? = some l)
    ∧ (s.feederDone g p l r = true)
    ∧ (s.sd.halos.any (fun h => (h.consumer = c && h.producer = p && h.layer = j && h.gen % 2 = gen % 2) && !h.released) = false)) ∧
  (let s : State := wSd2 [⟨1, 0, 1, 0, 5, 1, 0, [], false⟩]; let p : Nat := 0; let c : Nat := 1; let j : Nat := 1; let i : Nat := 5; let k : Nat := 3;
    let g : Nat := 0; let r : SliceRun := { wRun 3 with done := [(0, 1)], outs := [(0, [(0, 7)])] };
    let l : Layer := { wLayer with parts := [⟨1, 0, 1, 0, 1, [0]⟩], src := .layer 0 }; let key := 65536 * p + 256 * c + j;
    let gen := tabGet 0 s.sd.pubs key; (s.tileGroup p = some g) ∧ (s.tileGroup c = some g)
    ∧ (s.sd.runs.find? (fun r => r.desc.stream = i && r.desc.k = k) = some r) ∧ (r.slot = g) ∧ ((s.groupLayers g)[j]? = some l)
    ∧ (s.feederDone g p l r = true)
    ∧ (s.sd.halos.any (fun h => (h.consumer = c && h.producer = p && h.layer = j && h.gen % 2 = gen % 2) && !h.released) = true)) ∧
  (let p : Nat := 1; (p < 48)) ∧
  (let s : State := wJob; let tile : Nat := 1; (tile < 48) ∧ (s.get (F.ST_STAT.STATE tile) ≠ 4)) ∧
  (let s : State := wJob; let tile : Nat := 1; let g : Nat := 0; (tile < 48) ∧ (s.get (F.ST_STAT.STATE tile) ≠ 4) ∧ (s.tileGroup tile = some g)) ∧
  (let s : State := (wJob.put (F.ST_GRP_STAT.STATE 0) 4); let g : Nat := 0; (g < 16) ∧ (s.get (F.ST_GRP_STAT.STATE g) = 4)) := ⟨by decide +kernel,
    by decide +kernel,
    by decide +kernel,
    by decide +kernel,
    by decide +kernel,
    by decide +kernel⟩

theorem witness_FusionInstants :
  (let s : State := { wCp with sd := { Sd.reset with outq := [(zeros 64, wW1 1)] } }; let t : Nat := 2000000; let w0 : List Byte := zeros 64;
    let w1 : List Byte := wW1 1; let i := fieldAt w1 1 1; let g := s.groupOf i; (s.groupOn g = true) ∧ (s.flag (F.CP_MBR_CTL.ENABLE i) = true)
    ∧ (i < 128) ∧ ((s.at t).packetReady w0 w1 = true)) ∧
  (let s : State := { wCp with sd := { Sd.reset with outq := [(zeros 64, wW1 1)] } }; let t : Nat := 2000000; let w0 : List Byte := zeros 64;
    let w1 : List Byte := wW1 1; let i := fieldAt w1 1 1; let k := fieldAt w1 8 8; let g := s.groupOf i; (s.groupOn g = true)
    ∧ (s.flag (F.CP_MBR_CTL.ENABLE i) = true) ∧ (i < 128) ∧ ((s.at t).packetReady w0 w1 = true) ∧ ((s.group (R.CP_GRP_COMMIT g)).pending = none)
    ∧ ((s.cpg g).opens = []) ∧ (reached (s.cpg g).last (k + 1) = false) ∧ ((fieldAt w0 2 2).testBit 0 = true ∨ (s.reason i 2 = false
    ∧ s.reason i 3 = false ∧ s.flag (F.CP_MBR_CTL.SW_MASK i) = false))) ∧
  (let s : State := wCp.setStream 5 { wCp.stream 5 with kOpen := some 3 }; let g : Nat := 0; let k : Nat := 0; (s.groupOn g = true)
    ∧ (s.nextShut g = some k)) ∧
  (let s : State := (wGrp (fun x => { x with opens := [⟨0, 1000, 5000, 32⟩] })).setStream 5 { wCp.stream 5 with kOpen := some 3 }; let g : Nat := 0;
    let o : Instant := ⟨0, 1000, 5000, 32⟩; let l : List Instant := []; ((s.cpg g).opens = o :: l) ∧ (s.groupOn g = true) ∧ (s.nextDue g = some o.k)) := ⟨by decide +kernel,
    by decide +kernel,
    by decide +kernel,
    by decide +kernel⟩

theorem witness_FusionAndUnits :
  (let s : State := wFused (fun x => { x with fusing := [wRel 0] }); let g : Nat := 0; let r : Released := wRel 0; let l : List Released := [];
    let im : ImgSlot := ⟨wImage, 0, zeros 32, true, none, 3, none, 2⟩; ((s.cpg g).fusing = r :: l) ∧ ((s.fusionFor g r.k).bind s.slot = some im)
    ∧ (s.groupOn g = true) ∧ (s.served g r = true) ∧ ((s.cpg g).ckpt = none)) ∧
  (let s : State := wFused (fun x => { x with fusing := [wRel 0], ckpt := some 4 }); let g : Nat := 0; let r : Released := wRel 0;
    let l : List Released := []; let im : ImgSlot := ⟨wImage, 0, zeros 32, true, none, 3, none, 2⟩; ((s.cpg g).fusing = r :: l)
    ∧ ((s.fusionFor g r.k).bind s.slot = some im) ∧ (s.groupOn g = true) ∧ (s.served g r = true) ∧ ((s.cpg g).ckpt.isSome = true)) ∧
  (let s : State := { wGrp (fun x => { x with ckpt := some 4, retained := [wRel 4] }) with ras := { Ras.reset with rel := [(0, ⟨some 4, none, none⟩)] } };
    let g : Nat := 0; let k : Nat := 4; (g < 32) ∧ ((s.cpg g).ckpt = some k) ∧ (s.runHeld g k = true) ∧ (s.flag F.HG_CTL.MIRROR = false)) ∧
  (let s : State := { wPuts wCp [(F.CP_UNIT_STAT.STATE 7, 1)] with adm := { Adm.reset with fallback := [(0, 7)] } }; let i : Nat := 0; (i < 8)
    ∧ (s.get (F.CP_UNIT_STAT.STATE i) ≠ 2)) := ⟨by decide +kernel,
    by decide +kernel,
    by decide +kernel,
    by decide +kernel⟩

theorem witness_Capacity :
  (let s : State := { (wStream.put (F.HG_STREAM_STAT.STATE 5) 0) with adm := { Adm.reset with admitted := 32, charged := [(5, (1, 2))] } };
    let i : Nat := 5; ((s.adm.admitted ||| s.adm.withdrawn).testBit i = true) ∧ (s.streamState i = 0) ∧ (s.closedOut i = true)) ∧
  (let s : State := { wStream with adm := { Adm.reset with admitted := 32, charged := [(5, (1, 2))], releases := [(5, 1500000)] } };
    let t : Nat := 2000000; let i : Nat := 5; let due : Nat := 1500000; (s.streamState i ≠ 0) ∧ (tabFind s.adm.releases i = some due)
    ∧ (due ≤ max s.time t)) ∧
  (let s : State := { wUp with adm := { Adm.reset with lowering := some ⟨2, []⟩ } }; let x : FloorLower := ⟨2, []⟩; (s.adm.lowering = some x)
    ∧ (s.recordsOut x.waits = true)) ∧
  (let s : State := { (wSd.put F.PWR_DVFS.CAP_POINT 0) with adm := { Adm.reset with admitted := 32, charged := [(5, (1000, 10))] }, img := { wSd.img with slots := [(0, ⟨{ wImage with costs := [⟨3, 3, 0, 0, 0, 10 ^ 9, 0, 0⟩] }, 0, zeros 32, true, none, 3, none, 2⟩)], fusionSlot := [(0, 0)] } };
    let p : Nat := 2; (s.noCap = false) ∧ (s.adm.withdrawn = 0)
    ∧ (s.floorFor ((sortBy s.sooner (streamsOf s.adm.admitted)).map s.loadOf) true s.capPoint = some p) ∧ (p < s.adm.floor)) := ⟨by decide +kernel,
    by decide +kernel,
    by decide +kernel,
    by decide +kernel⟩

theorem witness_TakenGroup :
  (let c : Nat := R.HG_GLB_COMMIT; ((membersAt c).Nodup) ∧ (c + 4 ∉ membersAt c)) ∧
  (let c : Nat := R.HG_GLB_COMMIT; ((membersAt c).Nodup) ∧ (c + 4 ∉ membersAt c) ∧ (let a := R.SYS_ERR; (a ≠ c + 4) ∧ (a ∉ membersAt c))) ∧
  (let c : Nat := R.HG_GLB_COMMIT; ((membersAt c).Nodup) ∧ (c + 4 ∉ membersAt c) ∧ (let d := R.FRF_GLB_COMMIT; (d ≠ c))) := ⟨by decide +kernel,
    by decide +kernel,
    by decide +kernel⟩

theorem witness_CommitNowIngest :
  (let s : State := wPend; let t : Nat := 2000000; let req : Nat := 1; let val : Nat := 1; let s' := s.at t; (s.reaches req R.HG_GLB_COMMIT = true)
    ∧ (s'.commitPasses req R.HG_GLB_COMMIT val s'.hgGlbCode = true)) ∧
  (let s : State := wHgOpen; let t : Nat := 0; let req : Nat := 1; let i : Nat := 5; let val : Nat := 1; let s' := s.at t;
    let c := R.HG_STREAM_COMMIT i; (s.reaches req c = true) ∧ (s'.commitPasses req c val (s'.hgStreamCode i) = true) ∧ (s.streamState i = 0)) ∧
  (let s : State := wHgDrain; let t : Nat := 0; let req : Nat := 1; let i : Nat := 5; let val : Nat := 1; let s' := s.at t;
    let c := R.HG_STREAM_COMMIT i; (s.reaches req c = true) ∧ (s'.commitPasses req c val (s'.hgStreamCode i) = true) ∧ (s.streamState i ≠ 0)
    ∧ (s.st (F.HG_STREAM_CTL.OPEN i) ≠ 1) ∧ ((streamLater i).any s.regChanged = false)) ∧
  (let s : State := wStage wHgDrain (F.HG_STREAM_DN.K 5) 3; let t : Nat := 0; let req : Nat := 1; let i : Nat := 5; let val : Nat := 1;
    let s' := s.at t; let c := R.HG_STREAM_COMMIT i; (s.reaches req c = true) ∧ (s'.commitPasses req c val (s'.hgStreamCode i) = true)
    ∧ (s.streamState i ≠ 0) ∧ (s.st (F.HG_STREAM_CTL.OPEN i) ≠ 1) ∧ ((streamLater i).any s.regChanged = true)) ∧
  (let s : State := wStage wUp (F.FRF_CTL.ENABLE) 1; let t : Nat := 0; let req : Nat := 1; let val : Nat := 1; let s' := s.at t;
    (s.reaches req R.FRF_GLB_COMMIT = true) ∧ (s'.commitPasses req R.FRF_GLB_COMMIT val s'.frfGlbCode = true) ∧ (s.frfOn = false)) ∧
  (let s : State := wStage (wFrf.put (F.FRF_LANE_CTL.MODE 3) 0) (F.FRF_LANE_CTL.FADE 3) 9; let t : Nat := 0; let req : Nat := 1; let l : Nat := 3;
    let val : Nat := 1; let s' := s.at t; let c := R.FRF_LANE_COMMIT l; (s.reaches req c = true)
    ∧ (s'.commitPasses req c val (s'.frfLaneCode l) = true) ∧ (s.get (F.FRF_LANE_CTL.MODE l) = 0) ∧ (s.st (F.FRF_LANE_CTL.MODE l) = 0)) ∧
  (let s : State := wStage wFw F.FW_CTL.LAG_US 170; let t : Nat := 0; let req : Nat := 1; let val : Nat := 1; let s' := s.at t;
    (s.reaches req R.FW_GLB_COMMIT = true) ∧ (s'.commitPasses req R.FW_GLB_COMMIT val s'.fwGlbCode = true) ∧ (s.fwOn = true)) ∧
  (let s : State := wStage (wFw) (F.FW_CORE_CFG.ENABLE 9) 1; let t : Nat := 0; let req : Nat := 1; let core : Nat := 9; let val : Nat := 1;
    let s' := s.at t; (s.reaches req (R.FW_CORE_COMMIT core) = true) ∧ (s'.commitPasses req (R.FW_CORE_COMMIT core) val (s'.fwCoreCode core) = true)) ∧
  (let s : State := wStage wUp (F.ST_CTL.ENABLE 7) 1; let t : Nat := 0; let req : Nat := 1; let tile : Nat := 7; let val : Nat := 1; let s' := s.at t;
    (s.reaches req (R.ST_COMMIT tile) = true) ∧ (s'.commitPasses req (R.ST_COMMIT tile) val (s'.stCode tile) = true)) := ⟨by decide +kernel,
    by decide +kernel,
    by decide +kernel,
    by decide +kernel,
    by decide +kernel,
    by decide +kernel,
    by decide +kernel,
    by decide +kernel,
    by decide +kernel⟩

theorem witness_CommitNowDevice :
  (let s : State := wStage wUp F.CP_CTL.ENABLE 1; let t : Nat := 0; let req : Nat := 1; let val : Nat := 1; let s' := s.at t;
    (s.reaches req R.CP_GLB_COMMIT = true) ∧ (s'.commitPasses req R.CP_GLB_COMMIT val cpGlbCode = true)) ∧
  (let s : State := wPuts (wStage (wStage wCp (F.CP_GRP_CTL.ENABLE 0) 0) (F.CP_GRP_RPT.RING 0) 200) [(F.HG_STREAM_STAT.STATE 5, 0)]; let t : Nat := 0;
    let req : Nat := 1; let g : Nat := 0; let val : Nat := 1; let s' := s.at t; let c := R.CP_GRP_COMMIT g; (s.reaches req c = true)
    ∧ (s'.commitPasses req c val (s'.cpGrpCode g) = true) ∧ (¬ (s.flag (F.CP_GRP_CTL.ENABLE g) = true ∧ s.st (F.CP_GRP_CTL.ENABLE g) = 1))) ∧
  (let s : State := wStage wCp (F.CP_MBR_CTL.SW_MASK 5) 1; let t : Nat := 0; let req : Nat := 1; let i : Nat := 5; let val : Nat := 1;
    let s' := s.at t; (i < 128) ∧ (s.reaches req (R.CP_MBR_COMMIT i) = true) ∧ (s'.commitPasses req (R.CP_MBR_COMMIT i) val (s'.cpMbrCode i) = true)) ∧
  (let s : State := wStage wUp (F.MEM_RGN_CFG.SIZE 3) 1; let t : Nat := 0; let req : Nat := 1; let r : Nat := 3; let val : Nat := 1; let s' := s.at t;
    (s.reaches req (R.MEM_RGN_COMMIT r) = true) ∧ (s'.commitPasses req (R.MEM_RGN_COMMIT r) val (s'.memRgnCode r) = true)) ∧
  (let s : State := wUp; let t : Nat := 0; let req : Nat := 1; let val : Nat := 1; let s' := s.at t; (s.reaches req R.SQ_Q_COMMIT = true)
    ∧ (s'.commitPasses req R.SQ_Q_COMMIT val s'.sqCode = true)) ∧
  (let s : State := wUp; let t : Nat := 0; let req : Nat := 1; let f : Nat := 1; let val : Nat := 1; let s' := s.at t; let c := R.HIF_FN_COMMIT f;
    (s.reaches req c = true) ∧ (s'.commitPasses req c val (s'.hifFnCode f) = true)) ∧
  (let s : State := wPuts wUp [(F.HIF_FN_CFG.BLOCKS 0, 1), (F.HIF_FN_CFG.ENABLE 0, 1)]; let t : Nat := 0; let req : Nat := 60; let f : Nat := 0;
    let val : Nat := 1; let s' := s.at t; (f < 64) ∧ (s.reaches req (R.HIF_FN_ADM_COMMIT f) = true)
    ∧ (s'.commitPasses req (R.HIF_FN_ADM_COMMIT f) val (s'.hifAdmCode f) = true)) ∧
  (let s : State := wUp; let t : Nat := 0; let req : Nat := 1; let val : Nat := 1; let s' := s.at t; (s.reaches req R.NET_GLB_COMMIT = true)
    ∧ (s'.commitPasses req R.NET_GLB_COMMIT val s'.netGlbCode = true)) ∧
  (let s : State := wStage wUp (F.NET_PORT_CTL.ENABLE 3) 1; let t : Nat := 0; let req : Nat := 1; let p : Nat := 3; let val : Nat := 1;
    let s' := s.at t; (s.reaches req (R.NET_PORT_COMMIT p) = true) ∧ (s'.commitPasses req (R.NET_PORT_COMMIT p) val (s'.netPortCode p) = true)
    ∧ (s.portExists p = true)) ∧
  (let s : State := wStage wUp (F.NET_EXP_CTL.ENABLE 3) 0; let t : Nat := 0; let req : Nat := 1; let q : Nat := 3; let val : Nat := 1;
    let s' := s.at t; (s.reaches req (R.NET_EXP_COMMIT q) = true) ∧ (s'.commitPasses req (R.NET_EXP_COMMIT q) val (s'.netExpCode q) = true)) ∧
  (let s : State := wUp; let t : Nat := 0; let req : Nat := 1; let k : Nat := 3; let val : Nat := 1; let s' := s.at t; (k < 16)
    ∧ (s.reaches req (R.NET_PEER_COMMIT k) = true) ∧ (s'.commitPasses req (R.NET_PEER_COMMIT k) val (s'.netPeerCode k) = true)) ∧
  (let s : State := wStage wUp F.TIM_BC.PRIORITY1 9; let t : Nat := 0; let req : Nat := 1; let val : Nat := 1; let s' := s.at t;
    (s.reaches req R.TIM_COMMIT = true) ∧ (s'.commitPasses req R.TIM_COMMIT val s'.timCode = true)) := ⟨by decide +kernel,
    by decide +kernel,
    by decide +kernel,
    by decide +kernel,
    by decide +kernel,
    by decide +kernel,
    by decide +kernel,
    by decide +kernel,
    by decide +kernel,
    by decide +kernel,
    by decide +kernel,
    by decide +kernel⟩

theorem witness_CommitWaits :
  (let s : State := wUp; let t : Nat := 0; let req : Nat := 1; let i : Nat := 5; let val : Nat := 1; let s' := s.at t; let c := R.FW_MAP_COMMIT i;
    (i < 128) ∧ (s.reaches req c = true) ∧ (s'.commitPasses req c val (s'.fwMapCode i) = true)) ∧
  (let s : State := wStage wUp (F.FW_POP_CTL.WINDOW 255) 5; let t : Nat := 0; let req : Nat := 1; let p : Nat := 255; let val : Nat := 1;
    let s' := s.at t; let c := R.FW_POP_COMMIT p; (s.staging c ≠ []) ∧ (s.reaches req c = true) ∧ (s'.commitPasses req c val (s'.fwPopCode p) = true)) ∧
  (let s : State := wHgChange; let t : Nat := 0; let req : Nat := 1; let i : Nat := 5; let val : Nat := 1; let s' := s.at t;
    let c := R.HG_STREAM_COMMIT i; (i < 128) ∧ (s.reaches req c = true) ∧ (s'.commitPasses req c val (s'.hgStreamCode i) = true)
    ∧ (s.streamState i ≠ 0) ∧ (s.st (F.HG_STREAM_CTL.OPEN i) = 1)) ∧
  (let s : State := wStage (wFrf.put (F.FRF_LANE_CTL.MODE 255) 1) (F.FRF_LANE_CTL.FADE 255) 9; let t : Nat := 0; let req : Nat := 1;
    let l : Nat := 255; let val : Nat := 1; let s' := s.at t; let c := R.FRF_LANE_COMMIT l; (l < 256) ∧ (s.reaches req c = true)
    ∧ (s'.commitPasses req c val (s'.frfLaneCode l) = true) ∧ (¬ (s.get (F.FRF_LANE_CTL.MODE l) = 0 ∧ s.st (F.FRF_LANE_CTL.MODE l) = 0))) ∧
  (let s : State := wStage (wStage wFrf F.FRF_CTL.DWELL 3) F.FRF_CTL.ENABLE 1; let t : Nat := 0; let req : Nat := 1; let val : Nat := 1;
    let s' := s.at t; let c := R.FRF_GLB_COMMIT; (s.reaches req c = true) ∧ (s'.commitPasses req c val s'.frfGlbCode = true) ∧ (s.frfOn = true)
    ∧ (s.st F.FRF_CTL.ENABLE = 1) ∧ ((s.changed F.FRF_CTL.DWELL = true ∨ s.regChanged R.FRF_ROT = true))) ∧
  (let s : State := wStage wCp (F.CP_GRP_CTL.W_US 0) 500; let t : Nat := 0; let req : Nat := 1; let g : Nat := 0; let val : Nat := 1;
    let s' := s.at t; let c := R.CP_GRP_COMMIT g; (g < 32) ∧ (s.reaches req c = true) ∧ (s'.commitPasses req c val (s'.cpGrpCode g) = true)
    ∧ (s.flag (F.CP_GRP_CTL.ENABLE g) = true) ∧ (s.st (F.CP_GRP_CTL.ENABLE g) = 1)) ∧
  (let s : State := { wUp with groups := [(R.HG_STREAM_COMMIT 5, ⟨0, 0, some [(R.HG_STREAM_DN 5, 1#64)], 2000000⟩)] }; let t : Nat := 0;
    let c : Nat := R.HG_STREAM_COMMIT 5; ((∀ d, s.pendingDue c = some d → (s.at t).time < d))) ∧
  (let s : State := { wUp with groups := [(R.HG_STREAM_COMMIT 5, ⟨0, 0, some [(R.HG_STREAM_DN 5, 1#64)], 900000⟩)] }; let t : Nat := 3000000000;
    let c : Nat := R.HG_STREAM_COMMIT 5;
    let d : Nat := (State.pendingDue { wUp with groups := [(R.HG_STREAM_COMMIT 5, ⟨0, 0, some [(R.HG_STREAM_DN 5, 1#64)], 900000⟩)] } (R.HG_STREAM_COMMIT 5)).getD 0;
    let l : List (Nat × Word) := [(R.HG_STREAM_DN 5, 1#64)]; let r : RegSpec := ((regAt (R.HG_STREAM_COMMIT 5)).getD (⟨0, [], 0, none, []⟩, [])).1;
    let is : List Nat := [5]; ((s.group c).pending = some l) ∧ (regAt c = some (r, is)) ∧ (s.pendingDue c = some d) ∧ (d ≤ (s.at t).time)) := ⟨by decide +kernel,
    by decide +kernel,
    by decide +kernel,
    by decide +kernel,
    by decide +kernel,
    by decide +kernel,
    by decide +kernel,
    by decide +kernel⟩

theorem witness_CommitTurnedAway :
  (let s : State := { wUp with groups := [(R.HG_GLB_COMMIT, ⟨2, 0, none, 0⟩)] }; let req : Nat := 1; let c : Nat := R.HG_GLB_COMMIT;
    ((s.group c).holder ≠ 0) ∧ ((s.group c).holder ≠ req)) ∧
  (let s : State := { wUp with groups := [(R.HG_GLB_COMMIT, ⟨2, 0, none, 0⟩)] }; let req : Nat := 1; let c : Nat := R.HG_GLB_COMMIT;
    ((s.group c).holder ≠ 0) ∧ ((s.group c).holder ≠ req) ∧ (let a := R.HG_CTL; (a ≠ R.SYS_ERR) ∧ (a ≠ R.SYS_ERR_INFO))) ∧
  (let s : State := wPend; let req : Nat := 1; let c : Nat := R.HG_GLB_COMMIT; let val : Nat := 2;
    (((s.group c).holder = 0 ∨ (s.group c).holder = req)) ∧ (val % 2 = 0)) ∧
  (let s : State := wPend; let req : Nat := 1; let c : Nat := R.HG_GLB_COMMIT; let val : Nat := 1; let code : Nat := 255;
    (((s.group c).holder = 0 ∨ (s.group c).holder = req)) ∧ (val % 2 = 1) ∧ (code < 256) ∧ ((s.group c).pending ≠ none ∨ code ≠ 0)) ∧
  (let s : State := wPend; let req : Nat := 1; let c : Nat := R.HG_GLB_COMMIT; let val : Nat := 1; let code : Nat := 1;
    (((s.group c).holder = 0 ∨ (s.group c).holder = req)) ∧ (val % 2 = 1) ∧ (code < 256) ∧ ((s.group c).pending ≠ none ∨ code ≠ 0)
    ∧ (let a := R.HG_CTL; (a ≠ c + 4))) := ⟨by decide +kernel,
    by decide +kernel,
    by decide +kernel,
    by decide +kernel,
    by decide +kernel⟩

theorem witness_DramAccesses :
  (let s : State := wMem; let agent : Nat := 0; let a : Nat := 0xFFFFFF; let n : Nat := 0; let r : Region := wPlain; (a < 0x1000000000)
    ∧ (Passes s agent a n .store) ∧ (s.regionAt a = some r)) ∧
  (let s : State := wMem; let agent : Nat := 0; let a : Nat := 0; let n : Nat := 3; let r : Region := wPlain; (a < 0x1000000000)
    ∧ (Passes s agent a n .load) ∧ (s.regionAt a = some r) ∧ (s.lineBad r a = false)) ∧
  (let s : State := wMem; let agent : Nat := 0; let a : Nat := 64; let n : Nat := 3; let r : Region := wPlain; (a < 0x1000000000)
    ∧ (Passes s agent a n .load) ∧ (s.regionAt a = some r) ∧ (s.lineBad r a = false) ∧ (r.guarded = false)) ∧
  (let s : State := wMem; let agent : Nat := 0; let a : Nat := 0x1000000; let n : Nat := 3; let r : Region := wGuarded; (a < 0x1000000000)
    ∧ (Passes s agent a n .load) ∧ (s.regionAt a = some r) ∧ (s.lineBad r a = false) ∧ (r.guarded = true)
    ∧ ((copiesOf r a).any (fun p => s.lostPcs.contains p) = false)) ∧
  (let s : State := { wMem with aid := { wMem.aid with units := [] } }; let agent : Nat := 328; let a : Nat := 64; let write : Bool := false;
    let n : Nat := 4; let c := requesterOf agent - 1; (isControlCore (requesterOf agent) = true)
    ∧ ((s.unit c).allows a n (if write then .store else .load) = false)) := ⟨by unfold Passes; decide +kernel,
    by unfold Passes; decide +kernel,
    by unfold Passes; decide +kernel,
    by unfold Passes; decide +kernel,
    by decide +kernel⟩

theorem witness_UnmappedAccess :
  let s : State := wMem; let agent : Nat := 0; let a : Nat := 0x2000000; let write : Bool := true; let n : Nat := 0; (a < 0x1000000000)
    ∧ (Passes s agent a n (if write then .store else .load)) ∧ (s.regionAt a = none) := by unfold Passes; decide +kernel

theorem witness_MemoryAndCanalFaults :
  (let s : State := wMem; let a : Nat := 65; let r : Region := wPlain; (s.domainOff dMem = false) ∧ (s.flag F.MEM_CTL.SCRUB_EN = true)
    ∧ (s.regionAt a = some r) ∧ (s.lineBad r (a / 64 * 64) = false)) ∧
  (let s : State := wMem; let pc : Nat := 511; let k : Nat := 0; (pc < 512) ∧ (pc ∉ s.lostPcs) ∧ (s.mm.healed = [])
    ∧ ((∀ p ∈ s.lostPcs, p / 8 ≠ pc / 8)) ∧ ((List.range 8).find? (fun k => !s.flag (F.MEM_PC_FAILk.VALID k)) = some k)) ∧
  (let s : State := wUp; let l : Nat := 383; (l < 384) ∧ (s.domainOff dSoc = false) ∧ (s.linkFailed l = false)) ∧
  (let s : State := wUp; let l : Nat := 1; (l < 384) ∧ (s.domainOff dSoc = false) ∧ (s.linkFailed l = false)
    ∧ (tabGet 0 s.mm.links l + 1 < s.get F.CN_CTL.RETRY_LIMIT)) ∧
  (let s : State := wUp; let l : Nat := 1; (l < 384) ∧ ((otherEnd l).isSome = true) ∧ (s.linkOut l = false) ∧ ((detourLinks l).any s.linkOut = false)) := ⟨by decide +kernel,
    by decide +kernel,
    by decide +kernel,
    by decide +kernel,
    by decide +kernel⟩

theorem witness_SluiceQueues :
  (let s : State := wSq { wQueue with words := List.replicate 63 ([], true) }; let q : Nat := 9; let agent : Nat := 3; let x := s.queue q;
    (s.domainOff dSoc = false) ∧ (x.enabled = true) ∧ (agent = x.prod) ∧ (x.discarding = false) ∧ (0 < x.space)) ∧
  (let s : State := wSq { wQueue with opened := [[2]] }; let q : Nat := 9; let agent : Nat := 3; let x := s.queue q; (s.domainOff dSoc = false)
    ∧ (x.enabled = true) ∧ (agent = x.prod) ∧ (x.discarding = false) ∧ (0 < x.space)) ∧
  (let s : State := wSq { wQueue with words := List.replicate 64 ([], true) }; let q : Nat := 9; let agent : Nat := 3; let x := s.queue q;
    (s.domainOff dSoc = false) ∧ (x.enabled = true) ∧ (agent = x.prod) ∧ (x.discarding = false) ∧ (x.space = 0)) ∧
  (let s : State := wSq wQueue; let q : Nat := 9; let agent : Nat := 4; (s.domainOff dSoc = false) ∧ ((s.queue q).enabled = true)
    ∧ (agent ≠ (s.queue q).prod)) ∧
  (let s : State := wSq { wQueue with words := [([1], true), ([2], false)] }; let q : Nat := 9; let agent : Nat := 4; let w : List Byte := [1];
    let last : Bool := true; let r : List (List Byte × Bool) := [([2], false)]; let x := s.queue q; (s.domainOff dSoc = false) ∧ (x.enabled = true)
    ∧ (agent = x.cons) ∧ (x.words = (w, last) :: r)) ∧
  (let s : State := wSq wQueue; let q : Nat := 9; let agent : Nat := 4; (s.domainOff dSoc = false)
    ∧ (agent ≠ (s.queue q).cons ∨ (s.queue q).enabled = false ∨ (s.queue q).words = [])) := ⟨by decide +kernel,
    by decide +kernel,
    by decide +kernel,
    by decide +kernel,
    by decide +kernel,
    by decide +kernel⟩

theorem witness_Mailboxes :
  (let s : State := wMbx (wEnd []) (wEnd [1, 2, 3, 4, 5, 6, 7]); let req : Nat := 1; let m : Nat := 63; let e : Bool := false; let b := s.box m;
    (s.endOf m req = some e) ∧ (s.flag (F.MBX_CFG.ENABLE m) = true) ∧ ((b.side (!e)).ready = true) ∧ ((b.side (!e)).queue.length < 8)
    ∧ (s.reaches req (R.MBX_SEND m) = true)) ∧
  (let s : State := wMbx (wEnd [1, 2, 3, 4, 5, 6, 7, 8]) (wEnd []); let req : Nat := 9; let m : Nat := 63; let e : Bool := true; let b := s.box m;
    (s.endOf m req = some e) ∧ (s.flag (F.MBX_CFG.ENABLE m) = true) ∧ ((b.side (!e)).ready = false ∨ 8 ≤ (b.side (!e)).queue.length)
    ∧ (s.reaches req (R.MBX_SEND m) = true)) ∧
  (let s : State := wMbx (wEnd []) (wEnd [5, 6]); let req : Nat := 9; let m : Nat := 63; let w : Nat := 5; let ws : List Nat := [6];
    let e : Bool := true; (s.endOf m req = some e) ∧ (s.flag (F.MBX_CFG.ENABLE m) = true) ∧ (((s.box m).side e).queue = w :: ws)
    ∧ (s.reaches req (R.MBX_RECV m) = true)) ∧
  (let s : State := wMbx (wEnd []) (wEnd [5, 6]); let req : Nat := 1; let m : Nat := 63; let e : Bool := false; (s.endOf m req = some e)
    ∧ (s.flag (F.MBX_CFG.ENABLE m) = true) ∧ (((s.box m).side e).queue = []) ∧ (s.reaches req (R.MBX_RECV m) = true)) ∧
  (let s : State := wMbx (wEnd []) (wEnd []); let req : Nat := 1; let m : Nat := 63; let val : Nat := 1; let e : Bool := false;
    let x := (s.box m).side (!e); (s.endOf m req = some e) ∧ (s.flag (F.MBX_CFG.ENABLE m) = true) ∧ (x.ready = true) ∧ (val % 2 ^ 31 ≠ 0)
    ∧ (unmaskedBits (x.pend ||| val % 2 ^ 31) x.mask ≠ 0) ∧ (s.endReq m (!e) ≠ hostReq) ∧ (s.domainOff (domainOf (s.endReq m (!e))) = false)
    ∧ (s.reaches req (R.MBX_DB_RING m) = true)) ∧
  (let s : State := (wMbx (wEnd [1]) (wEnd [])).put (F.MBX_CFG.ENABLE 63) 0; let req : Nat := 1; let m : Nat := 63; let e : Bool := false;
    (s.endOf m req = some e) ∧ (s.flag (F.MBX_CFG.ENABLE m) = false) ∧ (s.reaches req (R.MBX_RECV m) = true)) ∧
  (let s : State := wMbx (wEnd []) (wEnd []); let req : Nat := 2; let m : Nat := 63; (s.endOf m req = none) ∧ (s.reaches req (R.MBX_SEND m) = true)) := ⟨by decide +kernel,
    by decide +kernel,
    by decide +kernel,
    by decide +kernel,
    by decide +kernel,
    by decide +kernel,
    by decide +kernel⟩

theorem witness_LocksAndBinding :
  (let s : State := wUp; let req : Nat := 8; let m : Nat := 63; let val : Nat := 2 ^ 63 + 62 * 256 + 9; (m < 64) ∧ (isControlCore req = true)
    ∧ (s.flag (F.MBX_CFG.ENABLE m) = false) ∧ (val % 256 ≤ 62) ∧ (val / 256 % 256 ≤ 62) ∧ (s.reaches req (R.MBX_CFG m) = true)) ∧
  (let s : State := wMbx (wEnd []) (wEnd []); let req : Nat := 1; let m : Nat := 63; let val : Nat := 2 ^ 63; (m < 64) ∧ (isControlCore req = true)
    ∧ (s.flag (F.MBX_CFG.ENABLE m) = true) ∧ (val / 2 ^ 63 % 2 = 1) ∧ (s.reaches req (R.MBX_CFG m) = true)) ∧
  (let s : State := wUp; let req : Nat := 60; let m : Nat := 3; (isControlCore req = false) ∧ (s.reaches req (R.MBX_CFG m) = true)) ∧
  (let s : State := wUp; let req : Nat := 255; let l : Nat := 63; (l < 64) ∧ (req < 256) ∧ (s.reaches req (R.LCK_l l) = true)) ∧
  (let s : State := wUp.put (F.LCK_l.OWNER 63) 5; let req : Nat := 5; let l : Nat := 63; let val : Nat := 261; (l < 64) ∧ (req ≠ 0)
    ∧ (val % 256 = req) ∧ (s.get (F.LCK_l.OWNER l) = req) ∧ (s.reaches req (R.LCK_l l) = true)) ∧
  (let s : State := wUp.put (F.LCK_l.OWNER 63) 5; let req : Nat := 6; let l : Nat := 63; let val : Nat := 6; (l < 64)
    ∧ (val % 256 ≠ req ∨ s.get (F.LCK_l.OWNER l) ≠ req) ∧ (s.reaches req (R.LCK_l l) = true)) ∧
  (let s : State := wUp.put (F.LCK_l.OWNER 63) 5; let req : Nat := 1; (isControlCore req = true) ∧ (s.reaches req R.LCK_FORCE = true)) ∧
  (let s : State := wUp.put (F.LCK_l.OWNER 63) 5; let req : Nat := 60; (isControlCore req = false) ∧ (s.reaches req R.LCK_FORCE = true)) := ⟨by decide +kernel,
    by decide +kernel,
    by decide +kernel,
    by decide +kernel,
    by decide +kernel,
    by decide +kernel,
    by decide +kernel,
    by decide +kernel⟩

theorem witness_DoorbellRecords :
  (let s : State := wRings wSubmit wComplete; let r : Nat := 200; let w : Nat := 2 * 2 ^ 32 + 5; let x : Ring := wSubmit; (s.ring r = some x)
    ∧ (s.flag (F.HIF_FN_CFG.ENABLE x.fn) = true) ∧ (let e := natBits w 47 32; (x.epochOk e = false))) ∧
  (let s : State := wRings wSubmit wComplete; let r : Nat := 200; let w : Nat := 2 ^ 32 + 500; let x : Ring := wSubmit; (s.ring r = some x)
    ∧ (s.flag (F.HIF_FN_CFG.ENABLE x.fn) = true) ∧ (let e := natBits w 47 32; let i := w % 2 ^ 32; (x.epochOk e = true)
    ∧ (x.indexOk x.dev i = false))) ∧
  (let s : State := wRings wSubmit wComplete; let r : Nat := 200; let w : Nat := 2 ^ 32 + 64; let x : Ring := wSubmit; (s.ring r = some x)
    ∧ (s.flag (F.HIF_FN_CFG.ENABLE x.fn) = true) ∧ (let e := natBits w 47 32; let i := w % 2 ^ 32; (x.epochOk e = true) ∧ (x.indexOk x.dev i = true)
    ∧ (x.kind.deviceProduced = false))) ∧
  (let s : State := wRings wSubmit { wComplete with dev := 5, state := .full, visible := [⟨.event, 3⟩, ⟨.event, 5⟩] }; let r : Nat := 201;
    let w : Nat := 2 ^ 32 + 4; let x : Ring := { wComplete with dev := 5, state := .full, visible := [⟨.event, 3⟩, ⟨.event, 5⟩] }; (s.ring r = some x)
    ∧ (s.flag (F.HIF_FN_CFG.ENABLE x.fn) = true) ∧ (let e := natBits w 47 32; let i := w % 2 ^ 32; (x.epochOk e = true) ∧ (x.indexOk x.dev i = true)
    ∧ (x.kind.deviceProduced = true))) := ⟨by decide +kernel,
    by decide +kernel,
    by decide +kernel,
    by decide +kernel⟩

theorem witness_DoorbellReads :
  (let s : State := (wRings wSubmit wComplete).put F.HIF_STAT.WATCH_MODE 1; let block : Nat := 25; (s.flag F.HIF_STAT.WATCH_MODE = true)
    ∧ (s.lineHeld block = true)) ∧
  (let s : State := { wRings wSubmit wComplete with hif := { (wRings wSubmit wComplete).hif with watch := [(25, [])] } }; let block : Nat := 25;
    (s.flag F.HIF_STAT.WATCH_MODE = false) ∧ (s.lineHeld block = true)) ∧
  (let s : State := wRings wSubmit wComplete; let fn : Nat := 0; let off : Nat := 1600; (s.flag (F.HIF_FN_CFG.ENABLE fn) = true) ∧ (off % 64 = 0)
    ∧ (off / 64 < s.get (F.HIF_FN_CFG.BLOCKS fn)) ∧ (fn < 64)) ∧
  (let s : State := wRings wSubmit wComplete; let fn : Nat := 0; let off : Nat := 1919; (off % 64 ≠ 0 ∨ s.get (F.HIF_FN_CFG.BLOCKS fn) ≤ off / 64)
    ∧ (fn < 64)) := ⟨by decide +kernel,
    by decide +kernel,
    by decide +kernel,
    by decide +kernel⟩

theorem witness_RunsBecomeVisible :
  (let s : State := wRings wSubmit wResult; let r : Nat := 201; let x : Ring := wResult; let run : Run := ⟨.event, [zeros 64]⟩;
    let rest : List Run := []; (s.ring r = some x) ∧ (x.kind.deviceProduced = true) ∧ (x.wait = run :: rest) ∧ (s.dead = false)
    ∧ (s.mayWrite x run = true) ∧ (run.entries.length ≤ x.room)) ∧
  (let s : State := wRings wSubmit wResult; let r : Nat := 201; let x : Ring := wResult; let run : Run := ⟨.event, [zeros 64]⟩;
    let rest : List Run := []; (s.ring r = some x) ∧ (x.kind.deviceProduced = true) ∧ (x.wait = run :: rest) ∧ (s.dead = false)
    ∧ (s.mayWrite x run = true) ∧ (run.entries.length ≤ x.room) ∧ (run.kind = .event) ∧ (run.entries ≠ []) ∧ (x.nt = 0)
    ∧ ((x.fn, x.vec) ∈ s.hif.unmasked)) ∧
  (let s : State := wRings wSubmit { wResult with dev := 64 }; let r : Nat := 201; let x : Ring := { wResult with dev := 64 };
    let run : Run := ⟨.event, [zeros 64]⟩; let rest : List Run := []; (s.ring r = some x) ∧ (x.kind.deviceProduced = true) ∧ (x.wait = run :: rest)
    ∧ (s.dead = false) ∧ (s.mayWrite x run = true) ∧ (x.room < run.entries.length) ∧ (x.state = .active)) := ⟨by decide +kernel,
    by decide +kernel,
    by decide +kernel⟩

theorem witness_InterruptsLinkAndReset :
  (let s : State := wRings wSubmit { wResult with firstAt := some 900000, nt := 200 }; let r : Nat := 201; let t0 : Nat := 900000;
    let x : Ring := { wResult with firstAt := some 900000, nt := 200 }; (s.ring r = some x) ∧ (x.firstAt = some t0)
    ∧ ((x.fn, x.vec) ∈ s.hif.unmasked)) ∧
  (let s : State := { wUp with hif := { Hif.reset with msiPending := [(0, 5)] } }; let fn : Nat := 0; let vec : Nat := 5;
    ((fn, vec) ∈ s.hif.msiPending)) ∧
  (let speed : Nat := 6; let width : Nat := 5; (speed < 8) ∧ (width < 8)) ∧
  (let s : State := wRings wSubmit wComplete; let speed : Nat := 6; let width : Nat := 5; (speed < 8) ∧ (width < 8)
    ∧ (s.flag F.HIF_STAT.LINK_UP = true)) ∧
  (let s : State := wRings wSubmit { wComplete with fn := 63 }; let f : Nat := 63; (0 < f) ∧ (f < 64) ∧ (tabSorted s.hif.rings = true)) := ⟨by decide +kernel,
    by decide +kernel,
    by decide +kernel,
    by decide +kernel,
    by decide +kernel⟩

theorem witness_Fetching :
  (let s : State := wRings wSubmit wComplete; let t : Nat := 0; let r : Nat := 200; let x : Ring := wSubmit; let y : Ring := wComplete;
    let d : List Byte := wDescr 0xF1 3 77 1 0 []; (s.ring r = some x) ∧ ((s.at t).mayFetch r x = true) ∧ ((s.at t).ringInTurn x.core = some r)
    ∧ (x.kind = .submit) ∧ (0 < idxSub x.host x.dev) ∧ (s.inProgress r < 64) ∧ (s.contexts < 4096) ∧ (s.ring x.complete = some y) ∧ (x.complete ≠ r)
    ∧ (r < 0x2000) ∧ (let seq := fieldAt d 8 4; let far := idxSub seq (tabGet 0 s.aid.smax r) = 0 ∨ 2 ^ 31 ≤ idxSub seq (tabGet 0 s.aid.smax r);
    (¬ far))) ∧
  (let s : State := { wRings wSubmit wComplete with aid := { wAid with smax := [(200, 1)], done := [⟨200, 1, descCrc (wDescr 0xF1 3 77 1 0 []), 1, completionEntry 0 3 1 200 0 []⟩] } };
    let t : Nat := 0; let r : Nat := 200; let x : Ring := wSubmit; let y : Ring := wComplete; let d : List Byte := wDescr 0xF1 3 77 1 0 [];
    (s.ring r = some x) ∧ ((s.at t).mayFetch r x = true) ∧ ((s.at t).ringInTurn x.core = some r) ∧ (x.kind = .submit) ∧ (0 < idxSub x.host x.dev)
    ∧ (s.inProgress r < 64) ∧ (s.contexts < 4096) ∧ (s.ring x.complete = some y) ∧ (x.complete ≠ r) ∧ (r < 0x2000) ∧ (let seq := fieldAt d 8 4;
    let far := idxSub seq (tabGet 0 s.aid.smax r) = 0 ∨ 2 ^ 31 ≤ idxSub seq (tabGet 0 s.aid.smax r);
    let e := (⟨200, 1, descCrc (wDescr 0xF1 3 77 1 0 []), 1, completionEntry 0 3 1 200 0 []⟩ : Done); far
    ∧ (s.aid.done.find? (fun e => e.ring = r && e.seq = seq) = some e))) ∧
  (let s : State := { wRings wSubmit wComplete with aid := { Aid.reset with smax := [(200, 1)] } }; let t : Nat := 0; let r : Nat := 200;
    let x : Ring := wSubmit; let y : Ring := wComplete; let d : List Byte := wDescr 0xF1 3 77 1 0 []; (s.ring r = some x)
    ∧ ((s.at t).mayFetch r x = true) ∧ ((s.at t).ringInTurn x.core = some r) ∧ (x.kind = .submit) ∧ (0 < idxSub x.host x.dev) ∧ (s.inProgress r < 64)
    ∧ (s.contexts < 4096) ∧ (s.ring x.complete = some y) ∧ (x.complete ≠ r) ∧ (r < 0x2000) ∧ (let seq := fieldAt d 8 4;
    let far := idxSub seq (tabGet 0 s.aid.smax r) = 0 ∨ 2 ^ 31 ≤ idxSub seq (tabGet 0 s.aid.smax r); far
    ∧ (s.aid.done.find? (fun e => e.ring = r && e.seq = seq) = none) ∧ (s.ctx r seq = none) ∧ (x.fetched = []))) := ⟨by decide +kernel,
    by decide +kernel,
    by decide +kernel⟩

theorem witness_InjectedBatches :
  (let s : State := wInject wInjDesc; let t : Nat := 0; let r : Nat := 200; let buffer : List Byte := wInjBuf;
    let x : Ring := { Ring.blank with kind := .inject, complete := 201, stream := some 5, session := 77, fetched := [wInjDesc] };
    let d : InjDesc := wInjDesc; (s.ring r = some x) ∧ (x.fetched.find? (fun d => d.stage = 0) = some d) ∧ (s.mute = false)
    ∧ (s.checkInjection x d = none) ∧ (let i : Nat := 5;
    let b : Batch := (parseBatch wInjBuf 0 0 0 1000000 (some (200, 10))).getD (wBatch 7 10 900000 [] 0); (injectionField d buffer = none)
    ∧ (x.stream = some i)
    ∧ (parseBatch ((buffer ++ zeros (fieldAt d.desc 12 4)).take (fieldAt d.desc 12 4)) 0 0 0 (max s.time t) (some (r, fieldAt d.desc 8 4)) = some b)
    ∧ (s.streamState i = 2) ∧ (b.payloadOk = true) ∧ ((s.stream i).classify b.seq = .next) ∧ (b.need * 2 ^ 32 ≤ (s.at t).tokensNow i)
    ∧ (entryLen b.n ≤ s.jrnFree))) ∧
  (let s : State := wInject { wInjDesc with desc := wDescr 1 3 77 10 36 [] }; let r : Nat := 200; let buffer : List Byte := wInjBuf;
    let x : Ring := { Ring.blank with kind := .inject, complete := 201, stream := some 5, session := 77, fetched := [{ wInjDesc with desc := wDescr 1 3 77 10 36 [] }] };
    let d : InjDesc := { wInjDesc with desc := wDescr 1 3 77 10 36 [] }; (s.ring r = some x) ∧ (x.fetched.find? (fun d => d.stage = 0) = some d)
    ∧ (s.mute = false) ∧ (s.checkInjection x d = none) ∧ (let o : Nat := 12; let y : Ring := wComplete; (injectionField d buffer = some o)
    ∧ (s.ring x.complete = some y) ∧ (x.complete ≠ r) ∧ (r < 0x2000) ∧ ((∀ q ∈ s.aid.repeats, q.ring ≠ r)))) := ⟨by decide +kernel,
    by decide +kernel⟩

theorem witness_CommandChecks :
  (let s : State := wUp; let cmd : CmdRef := ⟨0x2000, 5, [], []⟩; let op : Nat := 1; let form : Ctx → Bool := fun _ => true;
    ((∀ c0, s.ctx cmd.ring cmd.seq = some c0 → c0.opcode ≠ op ∨ c0.steps ≠ 0 ∨ form c0 = false ∨ s.mayStart c0 = false))) ∧
  (let s : State := wWith wUp (wCtx 0x60 78 0 []); let cmd : CmdRef := wCmd 0 []; let form : Ctx → Bool := fun _ => true;
    let c0 : Ctx := wCtx 0x60 78 0 []; let st : Nat := 0x400; let data : List Byte := []; (s.ctx cmd.ring cmd.seq = some c0) ∧ (c0.steps = 0)
    ∧ (form c0 = true) ∧ (s.mayStart c0 = true)
    ∧ (let c := { c0 with steps := 1, sg := cmd.sg, data := if c0.ring = 0x2001 then s.aid.bus.data.take c0.listLen else cmd.data };
    ((Gated s c).checkCommand c = some (st, data)))) ∧
  (let c : Ctx := wCtx 0xFF 0 0 []; (opInfo c.opcode = none)) ∧
  (let s : State := wWith wUp (wCtx 0x60 78 0 []); let c : Ctx := wCtx 0x60 78 0 []; let i : OpInfo := (opInfo 0x60).getD ⟨none, 0, .none, 0, 0⟩;
    let role : Nat := 0; (opInfo c.opcode = some i) ∧ (c.ring ≠ 0x2001) ∧ (s.needRole i c.opcode c = some role)
    ∧ (s.session (s.fnOf c.ring) c.session = none)) ∧
  (let s : State := { wUp with sec := { Sec.reset with sessions := [⟨77, 0, 1, 2 ^ 16 - 1, zeros 32, [], 0, false⟩] } };
    let c : Ctx := wCtx 0x61 77 0 []; let i : OpInfo := (opInfo 0x61).getD ⟨none, 0, .none, 0, 0⟩; let role : Nat := 2;
    let x : Session := ⟨77, 0, 1, 2 ^ 16 - 1, zeros 32, [], 0, false⟩; (opInfo c.opcode = some i) ∧ (c.ring ≠ 0x2001)
    ∧ (s.needRole i c.opcode c = some role) ∧ (s.session (s.fnOf c.ring) c.session = some x) ∧ ((s.isAdmin c.ring = true ∨ ∃ y, s.ring c.ring = some y
    ∧ y.session = c.session)) ∧ (x.role < role)) ∧
  (let s : State := { wUp with sec := { Sec.reset with sessions := [⟨77, 0, 2, 1, zeros 32, [], 0, false⟩] } }; let c : Ctx := wCtx 0x61 77 0 [];
    let i : OpInfo := (opInfo 0x61).getD ⟨none, 0, .none, 0, 0⟩; let role : Nat := 2; let x : Session := ⟨77, 0, 2, 1, zeros 32, [], 0, false⟩;
    (opInfo c.opcode = some i) ∧ (c.ring ≠ 0x2001) ∧ (s.needRole i c.opcode c = some role) ∧ (s.session (s.fnOf c.ring) c.session = some x)
    ∧ ((s.isAdmin c.ring = true ∨ ∃ y, s.ring c.ring = some y ∧ y.session = c.session)) ∧ (role ≤ x.role)
    ∧ ((∃ f ∈ needFeatures i c.opcode c, x.feats.testBit f = false))) := ⟨by decide +kernel,
    by decide +kernel,
    by decide +kernel,
    by decide +kernel,
    by decide +kernel,
    by decide +kernel⟩

theorem witness_CommandsCompleteOnce :
  (let c : Ctx := wCtx 0x60 78 0 []; let r := 0x2000; let q := 6; ((r, q) ≠ (c.ring, c.seq))) ∧
  (let s : State := wWith (wRings wSubmit wComplete) { (wCtx 0x60 78 0 []) with ring := 200 };
    let c : Ctx := { (wCtx 0x60 78 0 []) with ring := 200 }; let x := wSubmit; let y := wComplete; (s.ring c.ring = some x) ∧ (c.ring < 0x2000)
    ∧ (s.ring x.complete = some y) ∧ (x.complete ≠ c.ring) ∧ ((∀ q ∈ s.aid.repeats, (q.ring, q.seq) ≠ (c.ring, c.seq)))) ∧
  (let s : State := { wRings wSubmit wComplete with aid := { wAid with ctxs := [{ (wCtx 0x60 78 0 []) with ring := 200 }], repeats := [⟨200, 5, 4, false, 9⟩] } };
    let c : Ctx := { (wCtx 0x60 78 0 []) with ring := 200 }; let x := wSubmit; let y := wComplete; (s.ring c.ring = some x) ∧ (c.ring < 0x2000)
    ∧ (s.ring x.complete = some y) ∧ (x.complete ≠ c.ring) ∧ (let q := (⟨200, 5, 4, false, 9⟩ : Repeat); (s.aid.repeats = [q])
    ∧ ((q.ring, q.seq) = (c.ring, c.seq)))) ∧
  (let s : State := wWith wUp (wCtx 0x60 78 0 []); let c : Ctx := wCtx 0x60 78 0 []; (c.ring = 0x2000) ∧ (s.aid.repeats = [])) ∧
  (let s : State := wWith wUp { (wCtx 0x60 78 0 []) with ring := 0x2001 }; let c : Ctx := { (wCtx 0x60 78 0 []) with ring := 0x2001 };
    (c.ring = 0x2001) ∧ (s.aid.repeats = [])) := ⟨by decide +kernel,
    by decide +kernel,
    by decide +kernel,
    by decide +kernel,
    by decide +kernel⟩

theorem witness_SessionCommands :
  (let s : State := wWith (wUp) (wCtx 0x01 0 (16) ([])); let cmd : CmdRef := wCmd (16) ([]);
    let c : Ctx := wGo (wCtx 0x01 0 (16) ([])) (wCmd (16) ([])); (Starts s cmd 0x01 c)) ∧
  (let s : State := wWith (wKeyed) (wCtx 0x02 0 ((zeros 16 ++ sessionProof (zeros 32) (zeros 16) (zeros 16) 2 0 ++ zeros 16).length) (fieldsBytes [(4, 9), (1, 2), (3, 0), (8, 3), (8, 0)]));
    let t : Nat := 0;
    let cmd : CmdRef := wCmd ((zeros 16 ++ sessionProof (zeros 32) (zeros 16) (zeros 16) 2 0 ++ zeros 16).length) (zeros 16 ++ sessionProof (zeros 32) (zeros 16) (zeros 16) 2 0 ++ zeros 16);
    let c : Ctx := wGo (wCtx 0x02 0 ((zeros 16 ++ sessionProof (zeros 32) (zeros 16) (zeros 16) 2 0 ++ zeros 16).length) (fieldsBytes [(4, 9), (1, 2), (3, 0), (8, 3), (8, 0)])) (wCmd ((zeros 16 ++ sessionProof (zeros 32) (zeros 16) (zeros 16) 2 0 ++ zeros 16).length) (zeros 16 ++ sessionProof (zeros 32) (zeros 16) (zeros 16) 2 0 ++ zeros 16));
    let x : Challenge := ⟨0, 9, zeros 16, 900000⟩; let key : List Byte := zeros 32; (Starts s cmd 0x02 c) ∧ (let fn := s.fnOf c.ring;
    let role := c.p 20 1; let nh := c.data.take 16; ((s.at t).challenge fn (c.p 16 4) = some x) ∧ (s.roleKey role = some key)
    ∧ (s.sec.zeroised = false) ∧ ((s.roleMask role).testBit (channelBit (channelCode fn)) = true) ∧ (tabGet 0 s.sec.lockout fn ≤ max s.time t)
    ∧ (sliceAt c.data 16 32 = sessionProof key x.nonce nh role (channelCode fn)) ∧ (64 ≤ fn ∨ s.openSessions < 256))) ∧
  (let s : State := wWith (wUp) (wCtx 0x02 0 ((zeros 64).length) (fieldsBytes [(4, 9), (1, 2), (3, 0), (8, 3), (8, 0)])); let t : Nat := 0;
    let cmd : CmdRef := wCmd ((zeros 64).length) (zeros 64);
    let c : Ctx := wGo (wCtx 0x02 0 ((zeros 64).length) (fieldsBytes [(4, 9), (1, 2), (3, 0), (8, 3), (8, 0)])) (wCmd ((zeros 64).length) (zeros 64));
    (Starts s cmd 0x02 c) ∧ ((s.at t).challenge (s.fnOf c.ring) (c.p 16 4) = none) ∧ (tabGet 0 s.sec.lockout (s.fnOf c.ring) ≤ max s.time t)) ∧
  (let s : State := wWith (wUp) (wCtx 0x03 77 (0) (fieldsBytes [(4, 77)])); let t : Nat := 0; let cmd : CmdRef := wCmd (0) ([]);
    let c : Ctx := wGo (wCtx 0x03 77 (0) (fieldsBytes [(4, 77)])) (wCmd (0) ([])); let x : Session := ⟨77, 0, 3, 2 ^ 16 - 1, zeros 32, [], 0, false⟩;
    (Starts s cmd 0x03 c) ∧ (let fn := s.fnOf c.ring; let b := Begun s t c; (c.p 16 4 = c.session) ∧ (s.session fn c.session = some x)
    ∧ ((∀ p ∈ s.hif.rings, ¬ (p.2.session = c.session ∧ p.2.fn = fn))) ∧ (b.sessionQuiet c c.session = true))) ∧
  (let s : State := wWith (wBusy) (wCtx 0x03 77 (0) (fieldsBytes [(4, 77)])); let t : Nat := 0; let cmd : CmdRef := wCmd (0) ([]);
    let c : Ctx := wGo (wCtx 0x03 77 (0) (fieldsBytes [(4, 77)])) (wCmd (0) ([])); let x : Session := ⟨77, 0, 3, 2 ^ 16 - 1, zeros 32, [], 0, false⟩;
    (Starts s cmd 0x03 c) ∧ (let fn := s.fnOf c.ring; let b := Begun s t c; (c.p 16 4 = c.session) ∧ (s.session fn c.session = some x)
    ∧ ((∀ p ∈ s.hif.rings, ¬ (p.2.session = c.session ∧ p.2.fn = fn))) ∧ (b.sessionQuiet c c.session = false))) ∧
  (let s : State := wWith (wKeyed) (wCtx 0x91 77 (((let d := fieldsBytes [(4, 0x4B500001), (1, 1), (1, 15), (1, 32), (1, 0), (8, 1)] ++ zeros 64;
    d ++ hmac256 (zeros 32) d)).length) (fieldsBytes [(1, 1)]));
    let cmd : CmdRef := wCmd (((let d := fieldsBytes [(4, 0x4B500001), (1, 1), (1, 15), (1, 32), (1, 0), (8, 1)] ++ zeros 64;
    d ++ hmac256 (zeros 32) d)).length) ((let d := fieldsBytes [(4, 0x4B500001), (1, 1), (1, 15), (1, 32), (1, 0), (8, 1)] ++ zeros 64;
    d ++ hmac256 (zeros 32) d));
    let c : Ctx := wGo (wCtx 0x91 77 (((let d := fieldsBytes [(4, 0x4B500001), (1, 1), (1, 15), (1, 32), (1, 0), (8, 1)] ++ zeros 64;
    d ++ hmac256 (zeros 32) d)).length) (fieldsBytes [(1, 1)])) (wCmd (((let d := fieldsBytes [(4, 0x4B500001), (1, 1), (1, 15), (1, 32), (1, 0), (8, 1)] ++ zeros 64;
    d ++ hmac256 (zeros 32) d)).length) ((let d := fieldsBytes [(4, 0x4B500001), (1, 1), (1, 15), (1, 32), (1, 0), (8, 1)] ++ zeros 64;
    d ++ hmac256 (zeros 32) d))); let x : Session := ⟨77, 0, 3, 2 ^ 16 - 1, zeros 32, [], 0, false⟩; (Starts s cmd 0x91 c) ∧ (let d := c.data;
    let kind := c.p 16 1; (s.issuer c = some x) ∧ (sliceAt d 8 8 ∉ x.nonces) ∧ (sliceAt d 80 32 = hmac256 x.key (d.take 80)) ∧ (kind ≠ 4))) ∧
  (let s : State := wWith (wKeyed) (wCtx 0x91 77 ((fieldsBytes [(4, 0x4B500001), (1, 1), (1, 15), (1, 32), (1, 0), (8, 1)] ++ zeros 96).length) (fieldsBytes [(1, 1)]));
    let cmd : CmdRef := wCmd ((fieldsBytes [(4, 0x4B500001), (1, 1), (1, 15), (1, 32), (1, 0), (8, 1)] ++ zeros 96).length) (fieldsBytes [(4, 0x4B500001), (1, 1), (1, 15), (1, 32), (1, 0), (8, 1)] ++ zeros 96);
    let c : Ctx := wGo (wCtx 0x91 77 ((fieldsBytes [(4, 0x4B500001), (1, 1), (1, 15), (1, 32), (1, 0), (8, 1)] ++ zeros 96).length) (fieldsBytes [(1, 1)])) (wCmd ((fieldsBytes [(4, 0x4B500001), (1, 1), (1, 15), (1, 32), (1, 0), (8, 1)] ++ zeros 96).length) (fieldsBytes [(4, 0x4B500001), (1, 1), (1, 15), (1, 32), (1, 0), (8, 1)] ++ zeros 96));
    let x : Session := ⟨77, 0, 3, 2 ^ 16 - 1, zeros 32, [], 0, false⟩; (Starts s cmd 0x91 c) ∧ (s.issuer c = some x)
    ∧ (sliceAt c.data 80 32 ≠ hmac256 x.key (c.data.take 80))) := ⟨starts_of (by decide +kernel),
    starts_and (by decide +kernel),
    starts_and (by decide +kernel),
    starts_and (by decide +kernel),
    starts_and (by decide +kernel),
    starts_and (by decide +kernel),
    starts_and (by decide +kernel)⟩

theorem witness_RingCommands :
  (let s : State := wWith ((wPuts wUp [(F.HIF_FN_CFG.ENABLE 0, 1), (F.HIF_FN_CFG.BLOCKS 0, 30)])) (wCtx 0x10 77 (0) (fieldsBytes [(2, 239), (1, 4), (1, 3), (1, 16), (1, 0), (2, 0), (8, 2 ^ 22), (4, 0), (2, 2047), (2, 1)]));
    let cmd : CmdRef := wCmd (0) ([]);
    let c : Ctx := wGo (wCtx 0x10 77 (0) (fieldsBytes [(2, 239), (1, 4), (1, 3), (1, 16), (1, 0), (2, 0), (8, 2 ^ 22), (4, 0), (2, 2047), (2, 1)])) (wCmd (0) ([]));
    let k : RingKind := .result; (Starts s cmd 0x10 c) ∧ (let fn := s.fnOf c.ring; let r := c.p 16 2; (r ≠ 0xFFFF)
    ∧ ((s.ringNumbers fn).contains r = true) ∧ (s.ring r = none) ∧ (s.isAdminNumber fn r = false) ∧ (kindOf (c.p 18 1) = some k)
    ∧ (baseOk k (c.p 20 1) (c.p 24 8) = true) ∧ (k.deviceProduced = true ∨ s.boundOk c = true) ∧ (k ≠ .log ∨ s.logRings < 8))) ∧
  (let s : State := wWith ((wRings wSubmit wComplete)) (wCtx 0x11 77 (0) (fieldsBytes [(2, 200)])); let t : Nat := 0;
    let cmd : CmdRef := wCmd (0) ([]); let c : Ctx := wGo (wCtx 0x11 77 (0) (fieldsBytes [(2, 200)])) (wCmd (0) ([])); let x : Ring := wSubmit;
    (Starts s cmd 0x11 c) ∧ (let r := c.p 16 2; let b := Begun s t c; (s.ring r = some x) ∧ (x.fn = s.fnOf c.ring) ∧ (s.isAdminNumber x.fn r = false)
    ∧ (s.ringNamed r x = false) ∧ (b.dying r = false) ∧ (b.ringIdle c r = true))) ∧
  (let s : State := wWith ((wRings wSubmit wResult)) (wCtx 0x11 77 (0) (fieldsBytes [(2, 201)])); let t : Nat := 0; let cmd : CmdRef := wCmd (0) ([]);
    let c : Ctx := wGo (wCtx 0x11 77 (0) (fieldsBytes [(2, 201)])) (wCmd (0) ([])); let x : Ring := wResult; (Starts s cmd 0x11 c)
    ∧ (let r := c.p 16 2; let b := Begun s t c; (s.ring r = some x) ∧ (x.fn = s.fnOf c.ring) ∧ (s.isAdminNumber x.fn r = false)
    ∧ (s.ringNamed r x = false) ∧ (b.dying r = false) ∧ (b.ringIdle c r = false))) ∧
  (let s : State := wWith ((wRings { wSubmit with state := .detached } wComplete)) (wCtx 0x12 77 (0) (fieldsBytes [(2, 200), (6, 0), (8, 4096)]));
    let cmd : CmdRef := wCmd (0) ([]); let c : Ctx := wGo (wCtx 0x12 77 (0) (fieldsBytes [(2, 200), (6, 0), (8, 4096)])) (wCmd (0) ([]));
    let x : Ring := { wSubmit with state := .detached }; (Starts s cmd 0x12 c) ∧ (let r := c.p 16 2; (s.ring r = some x)
    ∧ (baseOk x.kind x.logN (c.p 24 8) = true) ∧ (x.fn = s.fnOf c.ring) ∧ (x.state = .detached))) := ⟨starts_and (by decide +kernel),
    starts_and (by decide +kernel),
    starts_and (by decide +kernel),
    starts_and (by decide +kernel)⟩

theorem witness_AdmissionCommands :
  (let s : State := wWith (wUp) (wCtx 0x20 77 (0) (fieldsBytes [(1, 15), (1, 15), (1, 0), (1, 0), (4, 100000)])); let cmd : CmdRef := wCmd (0) ([]);
    let c : Ctx := wGo (wCtx 0x20 77 (0) (fieldsBytes [(1, 15), (1, 15), (1, 0), (1, 0), (4, 100000)])) (wCmd (0) ([])); (Starts s cmd 0x20 c)
    ∧ (let n := c.p 16 1; let old := s.classRow n; (old.d ≤ c.classRow.d) ∧ ((c.classRow.bestEffort = true → old.bestEffort = true)))) ∧
  (let s : State := wWith (wUp) (wCtx 0x20 77 (0) (fieldsBytes [(1, 15), (1, 15), (1, 0), (1, 0), (4, 1000)])); let cmd : CmdRef := wCmd (0) ([]);
    let c : Ctx := wGo (wCtx 0x20 77 (0) (fieldsBytes [(1, 15), (1, 15), (1, 0), (1, 0), (4, 1000)])) (wCmd (0) ([])); (Starts s cmd 0x20 c)
    ∧ (let n := c.p 16 1; let old := s.classRow n; (c.classRow.d < old.d))) ∧
  (let s : State := wWith (wSd31) (wCtx 0x21 77 (((List.range 10).flatMap (fun j => leBytes 8 (wSd31.reg (R.CP_GRP_CTL 31 + 8 * j)).toNat)).length) (fieldsBytes [(1, 31), (1, 0)]));
    let t : Nat := 0;
    let cmd : CmdRef := wCmd (((List.range 10).flatMap (fun j => leBytes 8 (wSd31.reg (R.CP_GRP_CTL 31 + 8 * j)).toNat)).length) ((List.range 10).flatMap (fun j => leBytes 8 (wSd31.reg (R.CP_GRP_CTL 31 + 8 * j)).toNat));
    let c : Ctx := wGo (wCtx 0x21 77 (((List.range 10).flatMap (fun j => leBytes 8 (wSd31.reg (R.CP_GRP_CTL 31 + 8 * j)).toNat)).length) (fieldsBytes [(1, 31), (1, 0)])) (wCmd (((List.range 10).flatMap (fun j => leBytes 8 (wSd31.reg (R.CP_GRP_CTL 31 + 8 * j)).toNat)).length) ((List.range 10).flatMap (fun j => leBytes 8 (wSd31.reg (R.CP_GRP_CTL 31 + 8 * j)).toNat)));
    (Starts s cmd 0x21 c) ∧ (let g := c.p 16 1; let n := c.p 17 1; let b := Begun s t c;
    let r := b.tryCommit (b.aidReq 5) (R.CP_GRP_COMMIT g) c.groupVals (fun s => s.cpGrpCommit (b.aidReq 5) g 1); ((s.slot n).isSome = true)
    ∧ (s.flag (F.CP_GRP_CTL.ENABLE g) = false ∨ tabFind s.img.fusionSlot g = some n)
    ∧ (((s.groupStreams g).any s.isAdmitted && s.groupAlters c) = false) ∧ (r.2 = none))) ∧
  (let s : State := wWith (wSd) (wCtx 0x21 77 ((zeros 80).length) (fieldsBytes [(1, 31), (1, 0)])); let t : Nat := 0;
    let cmd : CmdRef := wCmd ((zeros 80).length) (zeros 80);
    let c : Ctx := wGo (wCtx 0x21 77 ((zeros 80).length) (fieldsBytes [(1, 31), (1, 0)])) (wCmd ((zeros 80).length) (zeros 80)); (Starts s cmd 0x21 c)
    ∧ (let g := c.p 16 1; let n := c.p 17 1; let b := Begun s t c;
    let r := b.tryCommit (b.aidReq 5) (R.CP_GRP_COMMIT g) c.groupVals (fun s => s.cpGrpCommit (b.aidReq 5) g 1); ((s.slot n).isSome = true)
    ∧ (s.flag (F.CP_GRP_CTL.ENABLE g) = false ∨ tabFind s.img.fusionSlot g = some n)
    ∧ (((s.groupStreams g).any s.isAdmitted && s.groupAlters c) = false) ∧ (let code := 1; (r.2 = some code)))) ∧
  (let s : State := wWith (({ wSd with adm := { Adm.reset with admitted := 32 } })) (wCtx 0x21 77 ((zeros 80).length) (fieldsBytes [(1, 0), (1, 0)]));
    let cmd : CmdRef := wCmd ((zeros 80).length) (zeros 80);
    let c : Ctx := wGo (wCtx 0x21 77 ((zeros 80).length) (fieldsBytes [(1, 0), (1, 0)])) (wCmd ((zeros 80).length) (zeros 80)); (Starts s cmd 0x21 c)
    ∧ (let g := c.p 16 1; let n := c.p 17 1; ((s.slot n).isSome = true)
    ∧ (s.flag (F.CP_GRP_CTL.ENABLE g) = false ∨ tabFind s.img.fusionSlot g = some n)
    ∧ (((s.groupStreams g).any s.isAdmitted && s.groupAlters c) = true))) ∧
  (let s : State := wWith (wOpenable true) (wCtx 0x22 77 ((fieldsBytes [(8, 1)] ++ zeros 104).length) (fieldsBytes [(1, 6), (1, 0), (2, 0xFFFF), (1, 0), (1, 0)]));
    let cmd : CmdRef := wCmd ((fieldsBytes [(8, 1)] ++ zeros 104).length) (fieldsBytes [(8, 1)] ++ zeros 104);
    let c : Ctx := wGo (wCtx 0x22 77 ((fieldsBytes [(8, 1)] ++ zeros 104).length) (fieldsBytes [(1, 6), (1, 0), (2, 0xFFFF), (1, 0), (1, 0)])) (wCmd ((fieldsBytes [(8, 1)] ++ zeros 104).length) (fieldsBytes [(8, 1)] ++ zeros 104));
    (Starts s cmd 0x22 c) ∧ (let i := c.p 16 1; (s.streamState i = 0) ∧ (s.flag F.HG_CTL.ENABLE = true)
    ∧ (s.flag (F.CP_GRP_CTL.ENABLE (s.openLoad c).group) = true) ∧ ((∃ x, s.slot (c.p 20 1) = some x ∧ x.active = true)) ∧ (c.p 18 2 = 0xFFFF)
    ∧ ((s.openClass c).bestEffort = true))) ∧
  (let s : State := wWith (wOpenable false) (wCtx 0x22 77 ((fieldsBytes [(8, 1)] ++ zeros 104).length) (fieldsBytes [(1, 6), (1, 0), (2, 0xFFFF), (1, 0), (1, 0)]));
    let cmd : CmdRef := wCmd ((fieldsBytes [(8, 1)] ++ zeros 104).length) (fieldsBytes [(8, 1)] ++ zeros 104);
    let c : Ctx := wGo (wCtx 0x22 77 ((fieldsBytes [(8, 1)] ++ zeros 104).length) (fieldsBytes [(1, 6), (1, 0), (2, 0xFFFF), (1, 0), (1, 0)])) (wCmd ((fieldsBytes [(8, 1)] ++ zeros 104).length) (fieldsBytes [(8, 1)] ++ zeros 104));
    (Starts s cmd 0x22 c) ∧ (let i := c.p 16 1; (s.streamState i = 0) ∧ (s.flag F.HG_CTL.ENABLE = true)
    ∧ (s.flag (F.CP_GRP_CTL.ENABLE (s.openLoad c).group) = true) ∧ ((∃ x, s.slot (c.p 20 1) = some x ∧ x.active = true)) ∧ (c.p 18 2 = 0xFFFF)
    ∧ ((s.openClass c).bestEffort = false))) ∧
  (let s : State := wWith (wOpened) (wCtx 0x23 77 ((zeros 48).length) (fieldsBytes [(1, 5)])); let t : Nat := 0;
    let cmd : CmdRef := wCmd ((zeros 48).length) (zeros 48);
    let c : Ctx := wGo (wCtx 0x23 77 ((zeros 48).length) (fieldsBytes [(1, 5)])) (wCmd ((zeros 48).length) (zeros 48)); (Starts s cmd 0x23 c)
    ∧ (let i := c.p 16 1; let b := Begun s t c; let old := s.chargedAt i; let new := s.modifyBkt c;
    let b' := if (fieldAt c.data 41 1).testBit 2 then b.unbuild i 0 else b;
    let r := b'.tryCommit (b.aidReq 5) (R.HG_STREAM_COMMIT i) c.modifyVals (fun s => s.hgStreamCommit (b.aidReq 5) i 1); (s.streamState i = 2)
    ∧ (new.1 ≤ old.1) ∧ (new.2 ≤ old.2) ∧ (s.modifyClass c = s.get (F.HG_STREAM_CTL.CLASS i)) ∧ (r.2 = none))) ∧
  (let s : State := wWith (wOpened) (wCtx 0x23 77 ((fieldsBytes [(4, 2000000), (4, 3000), (8, 0), (8, 0), (8, 0), (8, 0), (1, 0), (1, 1)] ++ zeros 6).length) (fieldsBytes [(1, 5)]));
    let t : Nat := 0;
    let cmd : CmdRef := wCmd ((fieldsBytes [(4, 2000000), (4, 3000), (8, 0), (8, 0), (8, 0), (8, 0), (1, 0), (1, 1)] ++ zeros 6).length) (fieldsBytes [(4, 2000000), (4, 3000), (8, 0), (8, 0), (8, 0), (8, 0), (1, 0), (1, 1)] ++ zeros 6);
    let c : Ctx := wGo (wCtx 0x23 77 ((fieldsBytes [(4, 2000000), (4, 3000), (8, 0), (8, 0), (8, 0), (8, 0), (1, 0), (1, 1)] ++ zeros 6).length) (fieldsBytes [(1, 5)])) (wCmd ((fieldsBytes [(4, 2000000), (4, 3000), (8, 0), (8, 0), (8, 0), (8, 0), (1, 0), (1, 1)] ++ zeros 6).length) (fieldsBytes [(4, 2000000), (4, 3000), (8, 0), (8, 0), (8, 0), (8, 0), (1, 0), (1, 1)] ++ zeros 6));
    (Starts s cmd 0x23 c) ∧ (let i := c.p 16 1; let b := Begun s t c; let old := s.chargedAt i; let new := s.modifyBkt c;
    let b' := if (fieldAt c.data 41 1).testBit 2 then b.unbuild i 0 else b; (s.streamState i = 2) ∧ (old.1 < new.1)
    ∧ ((s.classRow (s.modifyClass c)).bestEffort = false))) ∧
  (let s : State := wWith (wOpened.put (F.HG_STREAM_STAT.STATE 5) 3) (wCtx 0x24 77 (0) (fieldsBytes [(1, 5)])); let cmd : CmdRef := wCmd (0) ([]);
    let c : Ctx := wGo (wCtx 0x24 77 (0) (fieldsBytes [(1, 5)])) (wCmd (0) ([])); (Starts s cmd 0x24 c) ∧ (let i := c.p 16 1; (s.streamState i = 3))) ∧
  (let s : State := wWith (wOpened) (wCtx 0x24 77 (0) (fieldsBytes [(1, 5)])); let t : Nat := 0; let cmd : CmdRef := wCmd (0) ([]);
    let c : Ctx := wGo (wCtx 0x24 77 (0) (fieldsBytes [(1, 5)])) (wCmd (0) ([])); (Starts s cmd 0x24 c) ∧ (let i := c.p 16 1; let b := Begun s t c;
    let r := b.tryCommit (b.aidReq 5) (R.HG_STREAM_COMMIT i) [(R.HG_STREAM_CTL i, (setBits (s.reg (R.HG_STREAM_CTL i)) 0 0 0).toNat)] (fun s => s.hgStreamCommit (b.aidReq 5) i 1);
    (s.streamState i = 1 ∨ s.streamState i = 2) ∧ (r.2 = none) ∧ (r.1.streamState i ≠ 0))) ∧
  (let s : State := { wWith (wPuts wUp [(F.PWR_DVFS.CAP_NONE, 1)]) { (wCtx 0x22 77 0 [6]) with steps := 1, waiting := wEval } with aid := { Aid.reset with ctxs := [{ (wCtx 0x22 77 0 [6]) with steps := 1, waiting := wEval }], evals := [.openStream 6 0x2000 5] } };
    let t : Nat := 0; let i : Nat := 6; let r : Nat := 0x2000; let q : Nat := 5; let es : List Eval := [];
    let c : Ctx := { (wCtx 0x22 77 0 [6]) with steps := 1, waiting := wEval }; (s.adm.raising = none) ∧ (s.aid.evals = .openStream i r q :: es)
    ∧ (s.ctx r q = some c) ∧ (s.aid.mw.arrived = []) ∧ (let v := { s.at t with aid := { s.aid with evals := es } };
    let a := v.tryAdmit (v.loads (setMinus s.adm.admitted (streamBit i)) ++ [v.openLoad c]); let x := (6, 0xFFFF); (a = .inr x))) ∧
  (let s : State := { wOpenable false with aid := { Aid.reset with ctxs := [wAsk], evals := [.openStream 6 0x2000 5] } }; let t : Nat := 0;
    let i : Nat := 6; let r : Nat := 0x2000; let q : Nat := 5; let es : List Eval := []; let c : Ctx := wAsk; (s.adm.raising = none)
    ∧ (s.aid.evals = .openStream i r q :: es) ∧ (s.ctx r q = some c) ∧ (s.aid.mw.arrived = [])
    ∧ (let v := { s.at t with aid := { s.aid with evals := es } };
    let a := v.tryAdmit (v.loads (setMinus s.adm.admitted (streamBit i)) ++ [v.openLoad c]); let p := 3; (a = .inl p) ∧ (s.adm.floor ≤ p))) := ⟨starts_and (by decide +kernel),
    starts_and (by decide +kernel),
    starts_and (by decide +kernel),
    starts_and (by decide +kernel),
    starts_and (by decide +kernel),
    starts_and (by decide +kernel),
    starts_and (by decide +kernel),
    starts_and (by decide +kernel),
    starts_and (by decide +kernel),
    starts_and (by decide +kernel),
    starts_and (by decide +kernel),
    by decide +kernel,
    by decide +kernel⟩

theorem witness_StreamOpenWhole :
  (let s : State := wWith wUp (wCtx 0x22 77 0 [6]); let c : Ctx := { (wCtx 0x22 77 0 [6]) with data := zeros 112 }; let i := c.p 16 1;
    (noAddr (fieldAt c.data 96 8) = true) ∧ (s.calItem (0x8000 + i) = none)) ∧
  (let s : State := wWith wUp (wCtx 0x22 77 0 [6]); let c : Ctx := { (wCtx 0x22 77 0 [6]) with data := zeros 97 ++ [1] ++ zeros 14 };
    let i := c.p 16 1; (noAddr (fieldAt c.data 96 8) = false ∨ (s.calItem (0x8000 + i)).isSome = true)) := ⟨by decide +kernel,
    by decide +kernel⟩

theorem witness_ModelCommands :
  (let s : State := wWith (wUp) (wCtx 0x30 77 (([1, 2, 3]).length) (fieldsBytes [(1, 15), (1, 255), (2, 0), (4, 3), (4, 0), (4, 0), (8, 9), (6, 0)]));
    let cmd : CmdRef := wCmd (([1, 2, 3]).length) ([1, 2, 3]);
    let c : Ctx := wGo (wCtx 0x30 77 (([1, 2, 3]).length) (fieldsBytes [(1, 15), (1, 255), (2, 0), (4, 3), (4, 0), (4, 0), (8, 9), (6, 0)])) (wCmd (([1, 2, 3]).length) ([1, 2, 3]));
    let image : Image := wImage; (Starts s cmd 0x30 c) ∧ (let n := c.p 16 1; let m := { image with bytes := c.data };
    let ts := s.tilesFor m (c.p 40 6); let epoch := c.p 32 8; (n < 16) ∧ (s.slot n = none) ∧ (epoch ≠ 0) ∧ ((∀ p ∈ s.img.slots, p.2.epoch ≠ epoch))
    ∧ (m.formatOk = true) ∧ (m.classesOk ts.length = true) ∧ (s.tilesHold m ts = true) ∧ (s.coresHold m = true)
    ∧ (16 ≤ c.p 17 1 ∨ s.slot (c.p 17 1) = none))) ∧
  (let s : State := wWith (wSd) (wCtx 0x30 77 (([1, 2, 3]).length) (fieldsBytes [(1, 15), (1, 0), (2, 0), (4, 3), (4, 0), (4, 0), (8, 9), (6, 0)]));
    let cmd : CmdRef := wCmd (([1, 2, 3]).length) ([1, 2, 3]);
    let c : Ctx := wGo (wCtx 0x30 77 (([1, 2, 3]).length) (fieldsBytes [(1, 15), (1, 0), (2, 0), (4, 3), (4, 0), (4, 0), (8, 9), (6, 0)])) (wCmd (([1, 2, 3]).length) ([1, 2, 3]));
    let image : Image := wImage; (Starts s cmd 0x30 c) ∧ (let n := c.p 16 1; let m := { image with bytes := c.data };
    let ts := s.tilesFor m (c.p 40 6); let epoch := c.p 32 8; (n < 16) ∧ (s.slot n = none) ∧ (epoch ≠ 0) ∧ ((∀ p ∈ s.img.slots, p.2.epoch ≠ epoch))
    ∧ (m.formatOk = true) ∧ (m.classesOk ts.length = true) ∧ (s.tilesHold m ts = true) ∧ (s.coresHold m = true) ∧ (c.p 17 1 < 16)
    ∧ ((s.slot (c.p 17 1)).isSome = true))) ∧
  (let s : State := wWith ((wLoaded none)) (wCtx 0x31 77 (0) (fieldsBytes [(1, 3), (1, 0)])); let t : Nat := 0; let cmd : CmdRef := wCmd (0) ([]);
    let c : Ctx := wGo (wCtx 0x31 77 (0) (fieldsBytes [(1, 3), (1, 0)])) (wCmd (0) ([]));
    let x : ImgSlot := ⟨wImage, 0, zeros 32, false, none, 3, none, 2⟩; (Starts s cmd 0x31 c) ∧ (let n := c.p 16 1; let f := c.p 17 1;
    let b := Begun s t c; (s.slot n = some x) ∧ (x.active = false) ∧ (x.pending = none) ∧ (f.testBit 1 = false)
    ∧ ((b.waiters wEval).any (fun w => w.opcode = 0x30 && w.p 16 1 = n) = false) ∧ (f.testBit 0 = false))) ∧
  (let s : State := wWith (((wLoaded none).put F.TIM_SERVO.STATE 2)) (wCtx 0x31 77 (0) (fieldsBytes [(1, 3), (1, 1), (6, 0), (8, 2000000)]));
    let t : Nat := 0; let cmd : CmdRef := wCmd (0) ([]);
    let c : Ctx := wGo (wCtx 0x31 77 (0) (fieldsBytes [(1, 3), (1, 1), (6, 0), (8, 2000000)])) (wCmd (0) ([]));
    let x : ImgSlot := ⟨wImage, 0, zeros 32, false, none, 3, none, 2⟩; (Starts s cmd 0x31 c) ∧ (let n := c.p 16 1; let f := c.p 17 1;
    let b := Begun s t c; (s.slot n = some x) ∧ (x.active = false) ∧ (x.pending = none) ∧ (f.testBit 1 = false)
    ∧ ((b.waiters wEval).any (fun w => w.opcode = 0x30 && w.p 16 1 = n) = false) ∧ (f.testBit 0 = true) ∧ (windowOk (max s.time t) (c.p 24 8) = true)
    ∧ (s.get F.TIM_SERVO.STATE = 2))) ∧
  (let s : State := wWith ((wLoaded none)) (wCtx 0x31 77 (0) (fieldsBytes [(1, 3), (1, 1), (6, 0), (8, 1999999)])); let t : Nat := 0;
    let cmd : CmdRef := wCmd (0) ([]); let c : Ctx := wGo (wCtx 0x31 77 (0) (fieldsBytes [(1, 3), (1, 1), (6, 0), (8, 1999999)])) (wCmd (0) ([]));
    let x : ImgSlot := ⟨wImage, 0, zeros 32, false, none, 3, none, 2⟩; (Starts s cmd 0x31 c) ∧ (let n := c.p 16 1; let f := c.p 17 1;
    let b := Begun s t c; (s.slot n = some x) ∧ (x.active = false) ∧ (x.pending = none) ∧ (f.testBit 1 = false)
    ∧ ((b.waiters wEval).any (fun w => w.opcode = 0x30 && w.p 16 1 = n) = false) ∧ (f.testBit 0 = true)
    ∧ (windowOk (max s.time t) (c.p 24 8) = false))) ∧
  (let s : State := { wLoaded (some ⟨1000000, 0x2000, 4⟩) with aid := { Aid.reset with ctxs := [wOther] } }; let t : Nat := 0; let n : Nat := 3;
    let x : ImgSlot := ⟨wImage, 0, zeros 32, false, none, 3, some ⟨1000000, 0x2000, 4⟩, 2⟩; let a : Activation := ⟨1000000, 0x2000, 4⟩;
    let c : Ctx := wOther; (s.slot n = some x) ∧ (x.pending = some a) ∧ (a.at' ≤ max s.time t) ∧ (x.replaces = none) ∧ (s.ctx a.ring a.seq = some c)) ∧
  (let s : State := wWith ((wLoaded none)) (wCtx 0x32 77 (0) (fieldsBytes [(1, 3)])); let cmd : CmdRef := wCmd (0) ([]);
    let c : Ctx := wGo (wCtx 0x32 77 (0) (fieldsBytes [(1, 3)])) (wCmd (0) ([])); let x : ImgSlot := ⟨wImage, 0, zeros 32, false, none, 3, none, 2⟩;
    (Starts s cmd 0x32 c) ∧ (let n := c.p 16 1; (n < 16) ∧ (s.slot n = some x) ∧ (s.slotBusy n = false))) ∧
  (let s : State := wWith ((wLoaded none)) (wCtx 0x33 77 (64) (fieldsBytes [(1, 3)])); let cmd : CmdRef := wCmd (64) ([]);
    let c : Ctx := wGo (wCtx 0x33 77 (64) (fieldsBytes [(1, 3)])) (wCmd (64) ([])); (Starts s cmd 0x33 c) ∧ (c.ring ≠ 0x2001)) := ⟨starts_and (by decide +kernel),
    starts_and (by decide +kernel),
    starts_and (by decide +kernel),
    starts_and (by decide +kernel),
    starts_and (by decide +kernel),
    by decide +kernel,
    starts_and (by decide +kernel),
    starts_and (by decide +kernel)⟩

theorem witness_OnePendingActivation :
  (let s : State := wWith ((wLoaded (some ⟨1000000, 0x2000, 4⟩))) (wCtx 0x31 77 (0) (fieldsBytes [(1, 3), (1, 0)]));
    let cmd : CmdRef := wCmd (0) ([]); let c : Ctx := wGo (wCtx 0x31 77 (0) (fieldsBytes [(1, 3), (1, 0)])) (wCmd (0) ([]));
    let x : ImgSlot := ⟨wImage, 0, zeros 32, false, none, 3, some ⟨1000000, 0x2000, 4⟩, 2⟩; let a : Activation := ⟨1000000, 0x2000, 4⟩;
    (Starts s cmd 0x31 c) ∧ ((c.p 17 1).testBit 1 = false) ∧ (s.slot (c.p 16 1) = some x) ∧ (x.pending = some a)) ∧
  (let s : State := wWith (({ wLoaded (some ⟨1000000, 0x2000, 4⟩) with aid := { Aid.reset with ctxs := [wOther] } })) (wCtx 0x31 77 (0) (fieldsBytes [(1, 3), (1, 2)]));
    let cmd : CmdRef := wCmd (0) ([]); let c : Ctx := wGo (wCtx 0x31 77 (0) (fieldsBytes [(1, 3), (1, 2)])) (wCmd (0) ([])); let w : Ctx := wOther;
    let x : ImgSlot := ⟨wImage, 0, zeros 32, false, none, 3, some ⟨1000000, 0x2000, 4⟩, 2⟩; let a : Activation := ⟨1000000, 0x2000, 4⟩;
    (Starts s cmd 0x31 c) ∧ ((c.p 17 1).testBit 1 = true) ∧ (s.slot (c.p 16 1) = some x) ∧ (x.pending = some a) ∧ (s.ctx a.ring a.seq = some w)
    ∧ ((a.ring, a.seq) ≠ (c.ring, c.seq))) ∧
  (let s : State := wWith (wUp) (wCtx 0x31 77 (0) (fieldsBytes [(1, 3), (1, 2)])); let cmd : CmdRef := wCmd (0) ([]);
    let c : Ctx := wGo (wCtx 0x31 77 (0) (fieldsBytes [(1, 3), (1, 2)])) (wCmd (0) ([])); (Starts s cmd 0x31 c) ∧ ((c.p 17 1).testBit 1 = true)
    ∧ ((∀ x, s.slot (c.p 16 1) = some x → x.pending = none))) := ⟨starts_and (by decide +kernel),
    starts_and (by decide +kernel),
    starts_and (by decide +kernel)⟩

theorem witness_ServiceCommands :
  (let s : State := wWith (wUp) (wCtx 0x38 77 ((fieldsBytes [(4, R.SYS_ID), (2, 1), (1, 1), (1, 0), (8, 0)]).length) (fieldsBytes [(2, 1), (1, 0)]));
    let t : Nat := 0;
    let cmd : CmdRef := wCmd ((fieldsBytes [(4, R.SYS_ID), (2, 1), (1, 1), (1, 0), (8, 0)]).length) (fieldsBytes [(4, R.SYS_ID), (2, 1), (1, 1), (1, 0), (8, 0)]);
    let c : Ctx := wGo (wCtx 0x38 77 ((fieldsBytes [(4, R.SYS_ID), (2, 1), (1, 1), (1, 0), (8, 0)]).length) (fieldsBytes [(2, 1), (1, 0)])) (wCmd ((fieldsBytes [(4, R.SYS_ID), (2, 1), (1, 1), (1, 0), (8, 0)]).length) (fieldsBytes [(4, R.SYS_ID), (2, 1), (1, 1), (1, 0), (8, 0)]));
    (Starts s cmd 0x38 c) ∧ (let b := Begun s t c; let r := b.cfgEntries c; let o := 0; (r.2 = some o))) ∧
  (let s : State := wWith (wUp) (wCtx 0x38 77 ((fieldsBytes [(4, R.HG_CTL), (2, 1), (1, 1), (1, 0), (8, 3)]).length) (fieldsBytes [(2, 1), (1, 1), (5, 0), (8, 2000000)]));
    let t : Nat := 0;
    let cmd : CmdRef := wCmd ((fieldsBytes [(4, R.HG_CTL), (2, 1), (1, 1), (1, 0), (8, 3)]).length) (fieldsBytes [(4, R.HG_CTL), (2, 1), (1, 1), (1, 0), (8, 3)]);
    let c : Ctx := wGo (wCtx 0x38 77 ((fieldsBytes [(4, R.HG_CTL), (2, 1), (1, 1), (1, 0), (8, 3)]).length) (fieldsBytes [(2, 1), (1, 1), (5, 0), (8, 2000000)])) (wCmd ((fieldsBytes [(4, R.HG_CTL), (2, 1), (1, 1), (1, 0), (8, 3)]).length) (fieldsBytes [(4, R.HG_CTL), (2, 1), (1, 1), (1, 0), (8, 3)]));
    (Starts s cmd 0x38 c) ∧ (let b := Begun s t c; let r := b.cfgEntries c; (r.2 = none) ∧ ((c.p 18 1).testBit 0 = true)
    ∧ (b.time + 1000000 ≤ c.p 24 8) ∧ (c.p 24 8 ≤ b.time + 86400000000000))) ∧
  (let s : State := wWith (wUp) (wCtx 0x38 77 ((fieldsBytes [(4, R.HG_CTL), (2, 1), (1, 1), (1, 0), (8, 3)]).length) (fieldsBytes [(2, 1), (1, 0)]));
    let t : Nat := 0;
    let cmd : CmdRef := wCmd ((fieldsBytes [(4, R.HG_CTL), (2, 1), (1, 1), (1, 0), (8, 3)]).length) (fieldsBytes [(4, R.HG_CTL), (2, 1), (1, 1), (1, 0), (8, 3)]);
    let c : Ctx := wGo (wCtx 0x38 77 ((fieldsBytes [(4, R.HG_CTL), (2, 1), (1, 1), (1, 0), (8, 3)]).length) (fieldsBytes [(2, 1), (1, 0)])) (wCmd ((fieldsBytes [(4, R.HG_CTL), (2, 1), (1, 1), (1, 0), (8, 3)]).length) (fieldsBytes [(4, R.HG_CTL), (2, 1), (1, 1), (1, 0), (8, 3)]));
    (Starts s cmd 0x38 c) ∧ (let b := Begun s t c; let r := b.cfgEntries c; let e := (⟨0, R.HG_CTL, 1, 0, [3]⟩ : CfgEntry); (r = ([e], none))
    ∧ ((c.p 18 1).testBit 0 = false) ∧ (e.kind = 1) ∧ (b.cfgLocked e = false))) ∧
  (let s : State := wWith (wUp.put F.SYS_CTL.SETUP_LOCK 1) (wCtx 0x38 77 ((fieldsBytes [(4, R.HG_CTL), (2, 1), (1, 1), (1, 0), (8, 3)]).length) (fieldsBytes [(2, 1), (1, 0)]));
    let t : Nat := 0;
    let cmd : CmdRef := wCmd ((fieldsBytes [(4, R.HG_CTL), (2, 1), (1, 1), (1, 0), (8, 3)]).length) (fieldsBytes [(4, R.HG_CTL), (2, 1), (1, 1), (1, 0), (8, 3)]);
    let c : Ctx := wGo (wCtx 0x38 77 ((fieldsBytes [(4, R.HG_CTL), (2, 1), (1, 1), (1, 0), (8, 3)]).length) (fieldsBytes [(2, 1), (1, 0)])) (wCmd ((fieldsBytes [(4, R.HG_CTL), (2, 1), (1, 1), (1, 0), (8, 3)]).length) (fieldsBytes [(4, R.HG_CTL), (2, 1), (1, 1), (1, 0), (8, 3)]));
    (Starts s cmd 0x38 c) ∧ (let b := Begun s t c; let r := b.cfgEntries c; let e := (⟨0, R.HG_CTL, 1, 0, [3]⟩ : CfgEntry);
    let es := ([] : List CfgEntry); (r = (e :: es, none)) ∧ ((c.p 18 1).testBit 0 = false) ∧ (b.cfgLocked e = true))) ∧
  (let s : State := { wUp with aid := { Aid.reset with ctxs := [wTimed] } }; let c : Ctx := wTimed;
    let e : CfgEntry := (⟨0, R.HG_CTL, 1, 0, [3]⟩ : CfgEntry); (earliest (s.waiters wTimedConfig) = some c) ∧ (s.cfgEntries c = ([e], none))
    ∧ (e.kind = 1) ∧ ((s.at c.arg).cfgLocked e = false)) ∧
  (let s : State := wWith (({ wUp with cal := { Cal.reset with items := [(0x8000, ⟨false, 0, [1, 2, 3], 0⟩)] } })) (wCtx 0x40 77 (16) (fieldsBytes [(2, 0x8000), (2, 0), (4, 1), (4, 5)]));
    let cmd : CmdRef := wCmd (16) ([]); let c : Ctx := wGo (wCtx 0x40 77 (16) (fieldsBytes [(2, 0x8000), (2, 0), (4, 1), (4, 5)])) (wCmd (16) ([]));
    let d : List Byte := [1, 2, 3]; (Starts s cmd 0x40 c) ∧ (c.ring ≠ 0x2001) ∧ (s.calSource (c.p 16 2) = some d)
    ∧ (let out := (d.drop (c.p 20 4)).take (c.p 24 4); (out.length ≤ sgBytes c.sg))) ∧
  (let s : State := wWith (({ wUp with cal := { Cal.reset with items := [(0x8000, ⟨false, 0, [1, 2, 3], 0⟩)] } })) (wCtx 0x41 77 (([7, 8]).length) (fieldsBytes [(2, 0x83FF - 128), (2, 0), (4, 2)]));
    let cmd : CmdRef := wCmd (([7, 8]).length) ([7, 8]);
    let c : Ctx := wGo (wCtx 0x41 77 (([7, 8]).length) (fieldsBytes [(2, 0x83FF - 128), (2, 0), (4, 2)])) (wCmd (([7, 8]).length) ([7, 8]));
    (Starts s cmd 0x41 c) ∧ (let n := c.p 16 2; (listedItem n = true) ∧ ((c.p 18 1).testBit 0 = false) ∧ (s.cal.total + c.data.length ≤ 67108864)
    ∧ (tabSorted s.cal.items = true))) ∧
  (let s : State := wWith (wUp) (wCtx 0x60 77 (0) ([])); let cmd : CmdRef := wCmd (0) ([]);
    let c : Ctx := wGo (wCtx 0x60 77 (0) ([])) (wCmd (0) ([])); (Starts s cmd 0x60 c)) ∧
  (let s : State := wWith (wUp) (wCtx 0x61 77 (0) (fieldsBytes [(1, 1), (7, 0), (8, 2 ^ 64 - 5)])); let t : Nat := 0;
    let cmd : CmdRef := wCmd (0) ([]); let c : Ctx := wGo (wCtx 0x61 77 (0) (fieldsBytes [(1, 1), (7, 0), (8, 2 ^ 64 - 5)])) (wCmd (0) ([]));
    (Starts s cmd 0x61 c) ∧ (s.get F.TIM_SERVO.STATE = 0) ∧ (s.streamsOpen = false) ∧ ((Begun s t c).timedPending = false)) ∧
  (let s : State := wWith (wUp) (wCtx 0x80 77 (16) (fieldsBytes [(1, 0), (3, 0), (4, R.RAS_CNT_CORR), (2, 2)])); let cmd : CmdRef := wCmd (16) ([]);
    let c : Ctx := wGo (wCtx 0x80 77 (16) (fieldsBytes [(1, 0), (3, 0), (4, R.RAS_CNT_CORR), (2, 2)])) (wCmd (16) ([])); (Starts s cmd 0x80 c)
    ∧ (c.ring ≠ 0x2001) ∧ (c.p 16 1 = 0) ∧ (let a := c.p 20 4; let n := c.p 24 2; ((∀ j < n, isCounter (a + 8 * j) = true)) ∧ (8 * n ≤ sgBytes c.sg))) ∧
  (let s : State := wWith (wUp) (wCtx 0x81 77 (0) (fieldsBytes [(2, 7), (2, 0), (4, 9), (1, 3)])); let cmd : CmdRef := wCmd (0) ([]);
    let c : Ctx := wGo (wCtx 0x81 77 (0) (fieldsBytes [(2, 7), (2, 0), (4, 9), (1, 3)])) (wCmd (0) ([])); (Starts s cmd 0x81 c)) ∧
  (let s : State := wWith (wUp) (wCtx 0x90 77 (4096) ([])); let t : Nat := 0; let cmd : CmdRef := wCmd (4096) ([]);
    let c : Ctx := wGo (wCtx 0x90 77 (4096) ([])) (wCmd (4096) ([])); (Starts s cmd 0x90 c) ∧ (c.ring ≠ 0x2001) ∧ (let b := Begun s t c;
    let body := b.report (sliceAt c.desc 16 16); (body.length + 384 ≤ sgBytes c.sg))) := ⟨starts_and (by decide +kernel),
    starts_and (by decide +kernel),
    starts_and (by decide +kernel),
    starts_and (by decide +kernel),
    by decide +kernel,
    starts_and (by decide +kernel),
    starts_and (by decide +kernel),
    starts_of (by decide +kernel),
    starts_and (by decide +kernel),
    starts_and (by decide +kernel),
    starts_of (by decide +kernel),
    starts_and (by decide +kernel)⟩

theorem witness_FirmwareUpdate :
  (let s : State := wWith ((wUpd none none [])) (wCtx 0x18 77 (32) ([])); let cmd : CmdRef := wCmd (32) ([]);
    let c : Ctx := wGo (wCtx 0x18 77 (32) ([])) (wCmd (32) ([])); let n : Nat := 0; (Starts s cmd 0x18 c) ∧ (s.aid.upd.active = some n)) ∧
  (let s : State := wWith ({ wRoot with sec := { wRoot.sec with fuses := { wRoot.sec.fuses with rootHash := wKeyHash } } }) (wCtx 0x50 77 ((wPatchImage).length) (fieldsBytes [(4, 0), (4, 4096)]));
    let cmd : CmdRef := wCmd ((wPatchImage).length) (wPatchImage);
    let c : Ctx := wGo (wCtx 0x50 77 ((wPatchImage).length) (fieldsBytes [(4, 0), (4, 4096)])) (wCmd ((wPatchImage).length) (wPatchImage));
    (Starts s cmd 0x50 c) ∧ (s.aid.upd.busy = false) ∧ (c.p 20 4 ≤ 1048576) ∧ (fieldAt c.data 16 4 = c.p 20 4) ∧ (s.patchCheck c.data = 0)) ∧
  (let s : State := wWith (wUp) (wCtx 0x50 77 ((fieldsBytes [(8, 0), (8, 0), (4, 20)]).length) (fieldsBytes [(4, 0), (4, 20)]));
    let cmd : CmdRef := wCmd ((fieldsBytes [(8, 0), (8, 0), (4, 20)]).length) (fieldsBytes [(8, 0), (8, 0), (4, 20)]);
    let c : Ctx := wGo (wCtx 0x50 77 ((fieldsBytes [(8, 0), (8, 0), (4, 20)]).length) (fieldsBytes [(4, 0), (4, 20)])) (wCmd ((fieldsBytes [(8, 0), (8, 0), (4, 20)]).length) (fieldsBytes [(8, 0), (8, 0), (4, 20)]));
    (Starts s cmd 0x50 c) ∧ (s.aid.upd.busy = false) ∧ (c.p 20 4 ≤ 1048576) ∧ (fieldAt c.data 16 4 = c.p 20 4) ∧ (s.patchCheck c.data = 0x0403)) ∧
  (let s : State := wWith ((wUpd none none [])) (wCtx 0x51 77 (0) (fieldsBytes [(1, 0), (1, 1), (6, 0), (8, 5000000)]));
    let cmd : CmdRef := wCmd (0) ([]); let c : Ctx := wGo (wCtx 0x51 77 (0) (fieldsBytes [(1, 0), (1, 1), (6, 0), (8, 5000000)])) (wCmd (0) ([]));
    let n : Nat := 1; (Starts s cmd 0x51 c) ∧ ((c.p 17 1).testBit 1 = false) ∧ (s.aid.upd.busy = false) ∧ (s.aid.upd.staged = some n)
    ∧ ((c.p 17 1).testBit 0 = true)) ∧
  (let s : State := wWith ((wUpd none none [])) (wCtx 0x51 77 (0) (fieldsBytes [(1, 0)])); let cmd : CmdRef := wCmd (0) ([]);
    let c : Ctx := wGo (wCtx 0x51 77 (0) (fieldsBytes [(1, 0)])) (wCmd (0) ([])); let n : Nat := 1; (Starts s cmd 0x51 c)
    ∧ ((c.p 17 1).testBit 1 = false) ∧ (s.aid.upd.busy = false) ∧ (s.aid.upd.staged = some n) ∧ ((c.p 17 1).testBit 0 = false)
    ∧ (s.emergency = false)) ∧
  (let s : State := wWith (((wUpd none none []).put F.PWR_EMERG.POWER 1)) (wCtx 0x51 77 (0) (fieldsBytes [(1, 0)]));
    let cmd : CmdRef := wCmd (0) ([]); let c : Ctx := wGo (wCtx 0x51 77 (0) (fieldsBytes [(1, 0)])) (wCmd (0) ([])); let n : Nat := 1;
    (Starts s cmd 0x51 c) ∧ ((c.p 17 1).testBit 1 = false) ∧ (s.aid.upd.busy = false) ∧ (s.aid.upd.staged = some n) ∧ ((c.p 17 1).testBit 0 = false)
    ∧ (s.emergency = true)) ∧
  (let s : State := wWith ((wUpd none none [wHold 0x51 (fieldsBytes [(1, 0), (1, 1), (6, 0), (8, 5000000)]) wTimedFw 5000000])) (wCtx 0x51 77 (0) (fieldsBytes [(1, 0), (1, 2)]));
    let t : Nat := 0; let cmd : CmdRef := wCmd (0) ([]); let c : Ctx := wGo (wCtx 0x51 77 (0) (fieldsBytes [(1, 0), (1, 2)])) (wCmd (0) ([]));
    let w : Ctx := wHold 0x51 (fieldsBytes [(1, 0), (1, 1), (6, 0), (8, 5000000)]) wTimedFw 5000000; let ws : List Ctx := []; (Starts s cmd 0x51 c)
    ∧ ((c.p 17 1).testBit 1 = true) ∧ ((Begun s t c).waiters wTimedFw = w :: ws)) ∧
  (let s : State := wUpd none none [wHold 0x51 (fieldsBytes [(1, 0), (1, 1), (6, 0), (8, 5000000)]) wTimedFw 5000000];
    let c : Ctx := wHold 0x51 (fieldsBytes [(1, 0), (1, 1), (6, 0), (8, 5000000)]) wTimedFw 5000000; let n : Nat := 1;
    (earliest (s.waiters wTimedFw) = some c) ∧ (s.aid.upd.busy = false) ∧ (s.aid.upd.staged = some n) ∧ (s.emergency = false)) ∧
  (let s : State := wUpd none (some 1) []; let n : Nat := 1; (s.aid.upd.deferred = some n) ∧ (s.emergency = false)) ∧
  (let s : State := wUpd (some ⟨1, 3, false, none⟩) none []; let comp : Nat := 11; let h : Handover := ⟨1, 3, false, none⟩;
    (s.aid.upd.handover = some h) ∧ (h.back = false) ∧ (handoverOrder.getD h.done 16 = comp) ∧ (comp < 16) ∧ (h.done < 15)) ∧
  (let s : State := wUpd (some ⟨1, 15, false, some (0x2000, 4)⟩) none [wHold 0x51 [] wHandover 1]; let comp : Nat := 0;
    let h : Handover := ⟨1, 15, false, some (0x2000, 4)⟩; (s.aid.upd.handover = some h) ∧ (h.back = false) ∧ (handoverOrder.getD h.done 16 = comp)
    ∧ (comp < 16) ∧ (h.done = 15) ∧ (h.slot < 2) ∧ ((s.aid.upd.slot (1 - h.slot)).state = 2)) ∧
  (let s : State := wUpd (some ⟨1, 3, false, some (0x2000, 4)⟩) none [wHold 0x51 [] wHandover 1]; let comp : Nat := 11;
    let h : Handover := ⟨1, 3, false, some (0x2000, 4)⟩; (s.aid.upd.handover = some h) ∧ (h.back = false) ∧ (handoverOrder.getD h.done 16 = comp)
    ∧ (comp < 16) ∧ (let r := 0x2000; let q := 4; let c := wHold 0x51 [] wHandover 1; (0 < h.done) ∧ (h.cmd = some (r, q)) ∧ (s.ctx r q = some c))) := ⟨starts_and (by decide +kernel),
    starts_and (by decide +kernel),
    starts_and (by decide +kernel),
    starts_and (by decide +kernel),
    starts_and (by decide +kernel),
    starts_and (by decide +kernel),
    starts_and (by decide +kernel),
    by decide +kernel,
    by decide +kernel,
    by decide +kernel,
    by decide +kernel,
    by decide +kernel⟩

theorem witness_TestsStepsAndCores :
  (let s : State := wWith ((wHeld (wHold 0x31 [3] wActivate 5) [])) (wCtx 0xF0 77 (0) (fieldsBytes [(1, 1), (1, 0), (2, 5)]));
    let cmd : CmdRef := wCmd (0) ([]); let c : Ctx := wGo (wCtx 0xF0 77 (0) (fieldsBytes [(1, 1), (1, 0), (2, 5)])) (wCmd (0) ([]));
    (Starts s cmd 0xF0 c) ∧ (let part := c.p 16 1; let i := c.p 18 2; ((c.p 20 1) = 0) ∧ (s.wouldBeFatal part i = false)
    ∧ (s.partFailed part i = false) ∧ (s.isInjected part (partIndex part i) = false))) ∧
  (let s : State := wWith (wUp) (wCtx 0xF0 77 (0) (fieldsBytes [(1, 1), (1, 0), (2, 5), (1, 1), (3, 0), (8, 3000000)]));
    let cmd : CmdRef := wCmd (0) ([]);
    let c : Ctx := wGo (wCtx 0xF0 77 (0) (fieldsBytes [(1, 1), (1, 0), (2, 5), (1, 1), (3, 0), (8, 3000000)])) (wCmd (0) ([])); (Starts s cmd 0xF0 c)
    ∧ ((c.p 20 1) = 1)) ∧
  (let s : State := wHeld (wHold 0xF0 (fieldsBytes [(1, 1), (1, 0), (2, 5), (1, 1)]) wTestInject 2000000) []; let t : Nat := 2000000;
    let c : Ctx := wHold 0xF0 (fieldsBytes [(1, 1), (1, 0), (2, 5), (1, 1)]) wTestInject 2000000; ((s.at t).testDue (fun c => !isRestore c) = some c)
    ∧ (let part := c.p 16 1; let i := c.p 18 2; (s.wouldBeFatal part i = false) ∧ (s.partFailed part i = false)
    ∧ (s.isInjected part (partIndex part i) = false))) ∧
  (let s : State := (wHeld (wHold 0xF0 (fieldsBytes [(1, 1), (1, 0), (2, 5), (1, 2)]) wTestInject 1000000) [⟨1, 5, 900000, some (900001, 900002), false⟩]).put (F.ST_STAT.STATE 5) 4;
    let t : Nat := 1000000; let i : Nat := 5; let c : Ctx := wHold 0xF0 (fieldsBytes [(1, 1), (1, 0), (2, 5), (1, 2)]) wTestInject 1000000;
    ((s.at t).testDue isRestore = some c) ∧ (c.p 16 1 = pTile) ∧ (c.p 18 2 = i) ∧ (i < 48) ∧ (s.isInjected pTile i = true)
    ∧ (s.get (F.ST_STAT.STATE i) = 4)) ∧
  (let s : State := wHeld (wHold 0x24 [5] wStreamClosed 5) []; let core : Nat := 2; let comp : Nat := 2; let ring : Nat := 0x2000; let seq : Nat := 4;
    let c : Ctx := wHold 0x24 [5] wStreamClosed 5; (s.stepAllowed core comp = true) ∧ (s.ctx ring seq = some c) ∧ (c.steps ≠ 0)
    ∧ (c.waiting = wStreamClosed) ∧ (s.streamState c.arg = 0)) ∧
  (let s : State := wHeld { wHold 0xFF [] 0 0 with steps := 0 } []; let core : Nat := 2; let comp : Nat := 2; let ring : Nat := 0x2000;
    let seq : Nat := 4; let c : Ctx := { wHold 0xFF [] 0 0 with steps := 0 }; (s.stepAllowed core comp = true) ∧ (s.ctx ring seq = some c)
    ∧ (c.steps = 0) ∧ (opInfo c.opcode = none) ∧ (s.mayStart c = true)) ∧
  (let s : State := wCores id; let core : Nat := 7; let addr : Nat := 0x7F0000000000; let len : Nat := 4; let kind : AccessKind := .load;
    (core ∈ s.liveCores) ∧ ((s.unit core).allows addr len kind = true) ∧ (s.aid.traps.testBit core = false)) ∧
  (let s : State := wCores (fun a => { a with units := [(7, ⟨5, [], 0⟩)] }); let core : Nat := 7; let addr : Nat := 64; let len : Nat := 4;
    let kind : AccessKind := .store; (core ∈ s.liveCores) ∧ (let comp := (s.unit core).comp;
    ((s.unit core).allows addr len kind = false ∨ s.aid.traps.testBit core = true) ∧ (0 < comp) ∧ (s.aid.disabled.testBit comp = false)
    ∧ (tabFind s.aid.violated comp = none))) ∧
  (let s : State := wCores (fun a => { a with units := [(7, ⟨5, [], 0⟩)], violated := [(5, 900000)], traps := 128 }); let t : Nat := 1000899999;
    let core : Nat := 7; let addr : Nat := 64; let len : Nat := 4; let kind : AccessKind := .fetch; (core ∈ s.liveCores)
    ∧ (let comp := (s.unit core).comp; ((s.unit core).allows addr len kind = false ∨ s.aid.traps.testBit core = true) ∧ (0 < comp)
    ∧ (s.aid.disabled.testBit comp = false) ∧ (let t0 := 900000; (tabFind s.aid.violated comp = some t0) ∧ (max s.time t < t0 + 1000000000)))) ∧
  (let s : State := { wPuts (wRings { wSubmit with core := 7 } { wComplete with core := 1 }) [(F.MBX_CORE_STAT.IN_SERVICE, 131)] with aid := { wAid with homes := [(1, 7)] } };
    let core : Nat := 7; (core ∈ s.liveCores) ∧ (2 ≤ (s.liveCores.filter (fun k => k ≠ core)).length) ∧ ((s.coreSt core).rejoined = none)) ∧
  (let s : State := wPuts wUp [(F.MBX_CORE_STAT.IN_SERVICE, 127), (F.MBX_CORE_STAT.FAILED, 128)]; let core : Nat := 7; (core < 8)
    ∧ ((s.get F.MBX_CORE_STAT.FAILED).testBit core = true) ∧ ((s.coreSt core).out = false) ∧ (s.isInjected pCore core = false)) ∧
  (let s : State := wUp; let off : Nat := 0x138; (s.fwReady = true) ∧ (s.aid.mw.busy = false) ∧ (0x100 ≤ off) ∧ (off < 0x140) ∧ (off % 8 = 0)
    ∧ (MwFree s)) ∧
  (let s : State := { wUp with aid := { wAid with homes := [(13, 0)] }, regs := (wMbx (wEnd []) (wEnd [])).regs, mbx := { Mboxes.reset with boxes := [(63, ⟨⟨true, false, false, false, false, 2 ^ 31, 0, 0, []⟩, wEnd []⟩)] } };
    let off : Nat := 0x100; (s.fwReady = true) ∧ (s.aid.mw.busy = false) ∧ (0x100 ≤ off) ∧ (off < 0x140) ∧ (off % 8 = 0)
    ∧ (s.aborts (s.home 13) ≠ [])) ∧
  (let s : State := { wUp with aid := { wAid with mw := { Mw.reset with desc := fieldsBytes [(1, 0x60), (3, 0), (4, 0), (4, 2 ^ 31 + 3)] ++ zeros 52 }, smax := [(0x2000, 2 ^ 31 + 2)] } };
    let d := s.aid.mw.desc; let seq := fieldAt d 8 4; (MwFree s) ∧ (s.fwReady = true) ∧ (s.get F.PWR_STOP.STATE = 0) ∧ (s.aid.mw.busy = false)
    ∧ ((∀ c ∈ s.aid.ctxs, c.ring ≠ 0x2000)) ∧ ((∀ q ∈ s.aid.repeats, q.ring ≠ 0x2000)) ∧ (s.aid.ctxs.length < 4096)
    ∧ (1 ≤ idxSub seq (tabGet 0 s.aid.smax 0x2000)) ∧ (idxSub seq (tabGet 0 s.aid.smax 0x2000) < 2 ^ 31)) ∧
  (let s : State := { wUp with aid := { wAid with mw := { Mw.reset with busy := true } } }; (MwFree s) ∧ (s.fwReady = true)
    ∧ (s.get F.PWR_STOP.STATE = 0) ∧ (s.aid.mw.busy = true)) := ⟨starts_and (by decide +kernel),
    starts_and (by decide +kernel),
    by decide +kernel,
    by decide +kernel,
    by decide +kernel,
    by decide +kernel,
    by decide +kernel,
    by decide +kernel,
    by decide +kernel,
    by decide +kernel,
    by decide +kernel,
    by unfold MwFree; decide +kernel,
    by decide +kernel,
    by unfold MwFree; decide +kernel,
    by unfold MwFree; decide +kernel⟩

theorem witness_PowerAndBuddyCommands :
  (let s : State := wWith (wUp) (wCtx 0x70 77 (0) (fieldsBytes [(2, 100), (1, 1)])); let cmd : CmdRef := wCmd (0) ([]);
    let c : Ctx := wGo (wCtx 0x70 77 (0) (fieldsBytes [(2, 100), (1, 1)])) (wCmd (0) ([])); (Starts s cmd 0x70 c)
    ∧ (((c.p 18 1).testBit 0 = true ∨ ∃ p, capPointOf (c.p 16 2) = some p ∧ p ≤ s.adm.floor))) ∧
  (let s : State := wWith (({ wUp with adm := { Adm.reset with floor := 0 } })) (wCtx 0x70 77 (0) (fieldsBytes [(2, 100), (1, 0)]));
    let cmd : CmdRef := wCmd (0) ([]); let c : Ctx := wGo (wCtx 0x70 77 (0) (fieldsBytes [(2, 100), (1, 0)])) (wCmd (0) ([])); (Starts s cmd 0x70 c)
    ∧ ((c.p 18 1).testBit 0 = false) ∧ ((∀ p, capPointOf (c.p 16 2) = some p → s.adm.floor < p))) ∧
  (let s : State := wWith (wUp) (wCtx 0x71 77 (0) ([])); let cmd : CmdRef := wCmd (0) ([]);
    let c : Ctx := wGo (wCtx 0x71 77 (0) ([])) (wCmd (0) ([])); (Starts s cmd 0x71 c) ∧ (s.anyOpen = false) ∧ (s.aid.ctxs.length = 1)
    ∧ ((∀ p ∈ s.hif.rings, p.2.fetched = []))) ∧
  (let s : State := wWith (wUp) (wCtx 0x72 77 (0) ([])); let cmd : CmdRef := wCmd (0) ([]);
    let c : Ctx := wGo (wCtx 0x72 77 (0) ([])) (wCmd (0) ([])); let boot : Boot := wBoot; (Starts s cmd 0x72 c) ∧ (s.get F.PWR_STOP.STATE < 2)
    ∧ (s.aon.enables = []) ∧ (s.warmFailure boot = none)) ∧
  (let s : State := wWith ((wPuts wUp [(F.RAS_LEASE.ADDR, 4096)])) (wCtx 0xA0 77 (0) (fieldsBytes [(2, 1023)])); let t : Nat := 0;
    let cmd : CmdRef := wCmd (0) ([]); let c : Ctx := wGo (wCtx 0xA0 77 (0) (fieldsBytes [(2, 1023)])) (wCmd (0) ([]));
    let peer : PairReply := wReply; (Starts s cmd 0xA0 c) ∧ (s.budState = 0) ∧ (c.p 16 2 < 1024) ∧ ((Begun s t c).pairCode (c.p 16 2) peer = none)) ∧
  (let s : State := wWith ((wPuts wUp [(F.RAS_BUDDY.STATE, 3)])) (wCtx 0xA0 77 (0) (fieldsBytes [(2, 1023)])); let cmd : CmdRef := wCmd (0) ([]);
    let c : Ctx := wGo (wCtx 0xA0 77 (0) (fieldsBytes [(2, 1023)])) (wCmd (0) ([])); (Starts s cmd 0xA0 c) ∧ (s.budState ≠ 0)) ∧
  (let s : State := wWith ((wPuts wUp [(F.RAS_BUDDY.STATE, 2), (F.RAS_BUDDY.FENCED, 1), (F.HG_CTL.MIRROR, 1)])) (wCtx 0xA1 77 (0) ([]));
    let cmd : CmdRef := wCmd (0) ([]); let c : Ctx := wGo (wCtx 0xA1 77 (0) ([])) (wCmd (0) ([])); (Starts s cmd 0xA1 c)) ∧
  (let s : State := wWith ((wPuts wUp [(F.RAS_BUDDY.STATE, 2)])) (wCtx 0xA2 77 (0) ([])); let cmd : CmdRef := wCmd (0) ([]);
    let c : Ctx := wGo (wCtx 0xA2 77 (0) ([])) (wCmd (0) ([])); (Starts s cmd 0xA2 c)) ∧
  (let s : State := { wPuts wUp [(F.RAS_BUDDY.STATE, 1)] with bud := { Bud.reset with pairing := some (0x2000, 4, 1000000) }, aid := { Aid.reset with ctxs := [wHold 0xA0 [9] wPair 0] } };
    let r : Nat := 0x2000; let q : Nat := 4; let t0 : Nat := 1000000; let c : Ctx := wHold 0xA0 [9] wPair 0; (s.bud.pairing = some (r, q, t0))
    ∧ (s.budState = 1) ∧ (s.ctx r q = some c)) := ⟨starts_and (by decide +kernel),
    starts_and (by decide +kernel),
    starts_and (by decide +kernel),
    starts_and (by decide +kernel),
    starts_and (by decide +kernel),
    starts_and (by decide +kernel),
    starts_of (by decide +kernel),
    starts_of (by decide +kernel),
    by decide +kernel⟩

theorem witness_EthernetFrames :
  (let s : State := wNet; let p : Nat := 1; let f : Frame := wFrame (wUdp [1, 2]) false; (s.portExists p = true)
    ∧ (s.flag (F.NET_PORT_CTL.ENABLE p) = true) ∧ (s.portUp p = true) ∧ (f.fcsOk = false)) ∧
  (let s : State := wNet; let p : Nat := 1; let f : Frame := wFrame (wUdp [1, 2]) true; (s.portExists p = true)
    ∧ (s.flag (F.NET_PORT_CTL.ENABLE p) = true) ∧ (s.portUp p = true) ∧ (let e := readEth (s.get (F.NET_PORT_CTL.PVID p)) f.bytes; (f.fcsOk = true)
    ∧ (f.bytes.length + 4 ≤ 9216) ∧ (s.flag (F.NET_PORT_CTL.MACSEC p) = false) ∧ (s.get (F.NET_PORT_CTL.PTP_ROLE p) = 0) ∧ (s.rapsRing p e = none)
    ∧ (e.type ≠ 0x888E) ∧ (s.ringBlocked p = false) ∧ (s.flag F.NET_CTL.LEARN = false) ∧ (let src := 281470681743369; let sport := 8; let b := [1, 2];
    (s.udpOf e = some (src, sport, s.get F.HG_CTL.UDP_PORT, b)) ∧ (s.toDevice e = true) ∧ (s.hears e.vid p = true)))) ∧
  (let s : State := wNet; let p : Nat := 1; let f : Frame := wFrame (wEth 85 0x0800 (zeros 46)) true; (s.portExists p = true)
    ∧ (s.flag (F.NET_PORT_CTL.ENABLE p) = true) ∧ (s.portUp p = true) ∧ (let e := readEth (s.get (F.NET_PORT_CTL.PVID p)) f.bytes; (f.fcsOk = true)
    ∧ (f.bytes.length + 4 ≤ 9216) ∧ (s.flag (F.NET_PORT_CTL.MACSEC p) = false) ∧ (s.get (F.NET_PORT_CTL.PTP_ROLE p) = 0) ∧ (s.rapsRing p e = none)
    ∧ (e.type ≠ 0x888E) ∧ (s.ringBlocked p = false) ∧ (s.flag F.NET_CTL.LEARN = false) ∧ (let i := 0; let x := (⟨2, 85, 10, false, 1000⟩ : FdbEntry);
    (s.udpOf e = none) ∧ (s.toDevice e = false) ∧ (isGroup e.dst = false) ∧ (s.flag F.NET_CTL.BRIDGE = true) ∧ (s.isMember e.vid p = true)
    ∧ (s.fdbFind e.dst e.vid = some (i, x)) ∧ (x.port < 16) ∧ (s.mayLeave e p x.port = true)))) := ⟨by decide +kernel,
    by decide +kernel,
    by decide +kernel⟩

theorem witness_PortsAndTables :
  (let s : State := wNet; let p : Nat := 7; (s.portExists p = true) ∧ (s.flag (F.NET_PORT_STAT.FAILED p) = false)) ∧
  (let s : State := wNet.put (F.NET_PORT_STAT.FAILED 15) 1; let t : Nat := 1000000000; let p : Nat := 15; (p < 16)
    ∧ (s.flag (F.NET_PORT_STAT.FAILED p) = true) ∧ (s.net.testDown.testBit p = false) ∧ (tabGet 0 s.net.downSince p + 1000000000 ≤ max s.time t)) ∧
  (let s : State := wNet; let p : Nat := 2; (s.portExists p = true) ∧ (s.flag (F.NET_PORT_CTL.ENABLE p) = true)
    ∧ (s.flag (F.NET_PORT_STAT.FAILED p) = false)) ∧
  (let s : State := { wPuts wNet [(F.NET_ERP_k.ENABLE 7, 1), (F.NET_ERP_k.PORT0 7, 1), (F.NET_ERP_k.PORT1 7, 2), (F.NET_ERP_k.RPL_PORT 7, 1), (F.NET_ERP_k.STATE 7, 2)] with net := { Net.reset with erps := [(7, ⟨1, 0, some 2000000, none⟩)] } };
    let n : Nat := 7; let t : Nat := 2000000; (n < 8) ∧ ((s.erp n).wtrAt = some t)) ∧
  (let s : State := { wNet with net := { Net.reset with erps := [(7, ⟨1, 0, none, some 2000000⟩)] } }; let n : Nat := 7; let t : Nat := 2000000;
    ((s.erp n).guardAt = some t)) ∧
  (let s : State := wPuts wNet [(F.NET_FDB_ADDR.INDEX, 7), (F.NET_FDB_VID.VID, 10)]; let req : Nat := 1; (s.reaches req R.NET_FDB_DATA = true)) ∧
  (let s : State := wPuts wNet [(F.NET_CTL.AGE_S, 300)]; let t : Nat := 300000001000; let i : Nat := 7; let e : FdbEntry := ⟨1, 86, 10, false, 1000⟩;
    (tabFind s.net.fdb i = some e) ∧ (e.static = false) ∧ (e.seen + 1000000000 * s.get F.NET_CTL.AGE_S ≤ max s.time t)) ∧
  (let s : State := wPuts wNet [(F.NET_CTL.AGE_S, 300)]; let t : Nat := 300000000999; let i : Nat := 7; let e : FdbEntry := ⟨1, 86, 10, false, 1000⟩;
    (tabFind s.net.fdb i = some e) ∧ (e.static = false) ∧ (max s.time t < e.seen + 1000000000 * s.get F.NET_CTL.AGE_S)) := ⟨by decide +kernel,
    by decide +kernel,
    by decide +kernel,
    by decide +kernel,
    by decide +kernel,
    by decide +kernel,
    by decide +kernel,
    by decide +kernel⟩

theorem witness_LaunchAndTime :
  (let s : State := (wQ7 ⟨1000000, 64, .other none, [1, 2]⟩).put (F.NET_PORT_CTL.LATE_TOL 1) 9; let t : Nat := 1000009; let p : Nat := 1;
    let f : TxFrame := ⟨1000000, 64, .other none, [1, 2]⟩; let r : List TxFrame := []; (p < 16) ∧ (tabGet [] s.net.q7 p = f :: r)
    ∧ (s.portUp p = true) ∧ (f.what = .other none) ∧ (max s.time t ≤ f.launch + s.get (F.NET_PORT_CTL.LATE_TOL p))) ∧
  (let s : State := wPuts (wQ7 ⟨1000000, 64, .other none, [1, 2]⟩) [(F.NET_PORT_CTL.LATE_TOL 1, 9), (F.NET_PORT_CTL.LATE_DROP 1, 1)];
    let t : Nat := 1000010; let p : Nat := 1; let f : TxFrame := ⟨1000000, 64, .other none, [1, 2]⟩; let r : List TxFrame := []; (p < 16)
    ∧ (tabGet [] s.net.q7 p = f :: r) ∧ (s.portUp p = true) ∧ (f.what = .other none) ∧ (f.launch + s.get (F.NET_PORT_CTL.LATE_TOL p) < max s.time t)
    ∧ (s.flag (F.NET_PORT_CTL.LATE_DROP p) = true)) ∧
  (let s : State := { wNet with net := { Net.reset with txts := [(15, [(7, 8, 9)])] } }; let req : Nat := 8; let p : Nat := 15; let id : Nat := 7;
    let ns : Nat := 8; let fr : Nat := 9; let r : List (Nat × Nat × Nat) := []; (p < 16) ∧ (tabGet [] s.net.txts p = (id, ns, fr) :: r)
    ∧ (s.reaches req (R.NET_PORT_TXTS_ID p) = true) ∧ (isControlCore req = true)) ∧
  (let s : State := { wNet with net := { Net.reset with txts := [(15, [(7, 8, 9)])] } }; let req : Nat := 9; let p : Nat := 15; let id : Nat := 7;
    let ns : Nat := 8; let fr : Nat := 9; let r : List (Nat × Nat × Nat) := []; (p < 16) ∧ (tabGet [] s.net.txts p = (id, ns, fr) :: r)
    ∧ (s.reaches req (R.NET_PORT_TXTS_ID p) = true) ∧ (isControlCore req = false)) ∧
  (let s : State := { wUp with frac := 2 ^ 32 - 1 }; let req : Nat := 0; (s.reaches req R.TIM_NOW = true) ∧ (s.frac < 2 ^ 32)) ∧
  (let s : State := wPuts wUp [(F.TIM_PPS.IN_EN, 1)]; (s.flag F.TIM_PPS.IN_EN = true) ∧ (s.get F.TIM_SERVO.SOURCE ≠ 1)) ∧
  (let s : State := wPuts wUp [(F.TIM_PPS.IN_EN, 1), (F.TIM_SERVO.SOURCE, 1)]; let t : Nat := 5000010001; let r := max s.time t % 1000000000;
    (s.flag F.TIM_PPS.IN_EN = true) ∧ (s.get F.TIM_SERVO.SOURCE = 1) ∧ (s.get F.TIM_SERVO.STATE = 0) ∧ (s.mayStep = true) ∧ (10000 < r)
    ∧ (r < 500000000)) ∧
  (let s : State := wPuts wUp [(F.TIM_PPS.OUT_EN, 1), (F.TIM_PPS.WIDTH_MS, 5)]; (s.flag F.TIM_PPS.OUT_EN = true)) ∧
  (let s : State := { wUp with net := { Net.reset with ppsDue := some 1000001 } }; let t : Nat := 1000001; (s.net.ppsDue = some t)) ∧
  (let s : State := { wPuts wUp [(F.TIM_SERVO.STATE, 2)] with net := { Net.reset with servo := { Net.reset.servo with means := [(900000, 2 ^ 32 + 4), (800000, 2 ^ 32 + 9)] } } };
    let t : Nat := 1000002; (s.get F.TIM_SERVO.STATE = 2) ∧ ((s.at t).sourceSilent = true)) ∧
  (let s : State := { wPuts wUp [(F.TIM_SERVO.STATE, 3), (F.TIM_SERVO.HOLD_S, 2)] with net := { Net.reset with servo := { Net.reset.servo with holdSince := some 1000000 } } };
    let t : Nat := 1000000; (s.get F.TIM_SERVO.HOLD_S ≠ 0) ∧ (s.get F.TIM_SERVO.STATE = 3) ∧ (s.net.servo.holdSince = some t)) := ⟨by decide +kernel,
    by decide +kernel,
    by decide +kernel,
    by decide +kernel,
    by decide +kernel,
    by decide +kernel,
    by decide +kernel,
    by decide +kernel,
    by decide +kernel,
    by decide +kernel,
    by decide +kernel⟩

theorem witness_CulvertMessages :
  (let s : State := wPeer []; let port : Nat := 1; let k : Nat := 3; let m : Culvert := wCv 3 1 1 54 (zeros 16); let d := m.bytes;
    (s.portUp port = true) ∧ (s.sender m.src d = some k) ∧ (s.cvForm d = true) ∧ (s.peerUp k = true) ∧ (fieldAt d 3 1 = 0x03)
    ∧ (s.flag (F.NET_PEER_CTL.BUDDY k) = true) ∧ (fieldAt d 20 4 ≠ (s.peer k).ours)) ∧
  (let s : State := wPeer []; let port : Nat := 1; let k : Nat := 3; let m : Culvert := wCv 3 1 1 55 (zeros 16); let d := m.bytes;
    let chan := fieldAt d 18 1; let c := (s.peer k).chan (chanKey chan port); (s.portUp port = true) ∧ (s.sender m.src d = some k)
    ∧ (s.cvForm d = true) ∧ (s.peerUp k = true) ∧ (fieldAt d 3 1 = 0x03) ∧ (s.flag (F.NET_PEER_CTL.BUDDY k) = true)
    ∧ (fieldAt d 20 4 = (s.peer k).ours) ∧ (chan ≠ 0) ∧ ((fieldAt d 19 1).testBit 1 = false) ∧ (c.unacked = [])
    ∧ (fieldAt d 8 4 = (c.taken + 1) % 2 ^ 32)) ∧
  (let s : State := wPeer []; let port : Nat := 1; let k : Nat := 3; let m : Culvert := wCv 3 1 2 55 (zeros 16); let d := m.bytes;
    let chan := fieldAt d 18 1; let c := (s.peer k).chan (chanKey chan port); (s.portUp port = true) ∧ (s.sender m.src d = some k)
    ∧ (s.cvForm d = true) ∧ (s.peerUp k = true) ∧ (fieldAt d 3 1 = 0x03) ∧ (s.flag (F.NET_PEER_CTL.BUDDY k) = true)
    ∧ (fieldAt d 20 4 = (s.peer k).ours) ∧ (chan ≠ 0) ∧ ((fieldAt d 19 1).testBit 1 = false) ∧ (c.unacked = [])
    ∧ (fieldAt d 8 4 ≠ (c.taken + 1) % 2 ^ 32)) ∧
  (let s : State := wPeer [(17, { CvChan.empty with unacked := [⟨1, 2, [5], 1000000, 0⟩] })]; let t : Nat := 1008000; let k : Nat := 3;
    let key : Nat := 17; let m : CvMsg := ⟨1, 2, [5], 1000000, 0⟩; let c := (s.peer k).chan key; (s.peerUp k = true) ∧ (key / 16 ≠ 0)
    ∧ (c.unacked = [m]) ∧ (m.tries = 0) ∧ (m.sentAt + 8000 ≤ max s.time t)) ∧
  (let s : State := wPeer []; let t : Nat := 1002000; let k : Nat := 3; ((s.at t).beatDue = true) ∧ (s.ras.silent = false) ∧ (k < 16)
    ∧ ((∀ j < 16, s.peerUp j = decide (j = k))) ∧ (s.flag (F.NET_PEER_CTL.ALT_EN k) = false)) ∧
  (let s : State := (wPeer []).put F.RAS_BUDDY.STATE 2; let t : Nat := 1000000; let k : Nat := 3; (k < 16) ∧ (s.peerUp k = true)
    ∧ ((s.peer k).lastRx + 1000000 ≤ max s.time t)) ∧
  (let s : State := (wPeer []).put (F.NET_PEER_STAT.STATE 3) 1; let t : Nat := 1000000; let k : Nat := 3; (k < 16)
    ∧ (s.flag (F.NET_PEER_CTL.ENABLE k) = true) ∧ (s.peerUp k = false) ∧ (s.devNum < s.get (F.NET_PEER_CTL.DEVNUM k)) ∧ (s.peerKey.isSome = true)
    ∧ ((s.peer k).retryAt ≤ max s.time t) ∧ ((s.peer k).nonce = [])) ∧
  (let s : State := { wUp with net := { Net.reset with dissent := [⟨20, 4, 900000, 1, 2⟩] } }; let dev : Nat := 20; let epoch : Nat := 4;
    let d : Dissent := ⟨20, 4, 900000, 1, 2⟩; (s.net.dissent.find? (fun d => d.peer = dev && d.epoch = epoch) = some d)) := ⟨by decide +kernel,
    by decide +kernel,
    by decide +kernel,
    by decide +kernel,
    by decide +kernel,
    by decide +kernel,
    by decide +kernel,
    by decide +kernel⟩

theorem witness_FaultsAndLease :
  (let s : State := wWith wUp (wHold 0x31 [3] wActivate 5); let part : Nat := 255; (s.running = true) ∧ (part < 256)) ∧
  (let s : State := { wUp with ras := { Ras.reset with susp := [⟨cSpacing, 32, 900000, none⟩] } }; let m : Nat := 32; let t0 : Nat := 900000;
    (s.ras.susp = [⟨cSpacing, m, t0, none⟩]) ∧ (m ≠ 0)) ∧
  (let s : State := { wUp with ras := { Ras.reset with merging := [⟨3, 9, 900000, 2 ^ 32 - 1, 5, 2, 0⟩] } }; let part : Nat := 3;
    let index : Nat := 9; let m : CeMerge := ⟨3, 9, 900000, 2 ^ 32 - 1, 5, 2, 0⟩;
    (s.ras.merging.find? (fun x => x.part = part && x.index = index) = some m) ∧ (m.count < 2 ^ 32)) ∧
  (let s : State := wPuts wUp [(F.RAS_LEASE.ADDR, 4096), (F.RAS_BUDDY.STATE, 4), (F.RAS_BUDDY.PEER, 20), (F.SYS_STAT.DEVNUM, 30)];
    (s.get F.RAS_LEASE.ADDR ≠ 0) ∧ (s.budState ≠ 0) ∧ (s.flag F.HIF_STAT.LINK_UP = true) ∧ (s.flag F.RAS_BUDDY.FENCED = false)) ∧
  (let s : State := { wPuts (wPeer []) [(F.RAS_BUDDY.STATE, 2), (F.RAS_BUDDY.PEER, 20)] with time := 900000 }; let t : Nat := 0; let k : Nat := 3;
    (s.buddy = some k) ∧ (s.budState = 2) ∧ (s.flag F.RAS_BUDDY.FENCED = false) ∧ ((s.peer k).lastRx + 900000 ≤ max s.time t)
    ∧ (s.bud.confirmed + 900000 ≤ max s.time t)) ∧
  (let s : State := { wPuts (wPeer []) [(F.RAS_BUDDY.STATE, 3), (F.RAS_BUDDY.PEER, 20), (F.RAS_LEASE.ADDR, 4096)] with bud := { Bud.reset with lost := true, journal := [wEntry 9 .journalled true true], streams := 32 } };
    let t : Nat := 0; (s.bud.asked = true ∨ (s.bud.lost = true ∧ s.bud.peerSince + 1000000 ≤ max s.time t)) ∧ (s.budState = 3)
    ∧ (s.flag F.RAS_BUDDY.FENCED = false)) := ⟨by decide +kernel,
    by decide +kernel,
    by decide +kernel,
    by decide +kernel,
    by decide +kernel,
    by decide +kernel⟩

theorem witness_OperatingPoints :
  (let s : State := { wPow (fun p => { p with changedAt := some 750000 }) [(F.PWR_DVFS.CURRENT, 3)] with adm := { Adm.reset with floor := 1 } };
    let t : Nat := 0; (s.heldDown = false) ∧ ((s.at t).spaced = true) ∧ (s.floorGoal < s.point) ∧ (s.pow.raiseAt = none)) ∧
  (let s : State := wPow id [(F.PWR_DVFS.CURRENT, 1), (F.PWR_DVFS.TARGET, 3)]; let t : Nat := 0; (s.heldDown = false) ∧ ((s.at t).spaced = true)
    ∧ (s.point ≤ s.floorGoal) ∧ (s.point < s.get F.PWR_DVFS.TARGET) ∧ (s.adm.raising = none) ∧ (s.adm.abandoned = none)) ∧
  (let s : State := wPow (fun p => { p with mv := 740, raiseAt := some 900000 }) [(F.PWR_DVFS.STATE, 1)]; let mv : Nat := 745; (mv ≤ s.pow.mv + 5)
    ∧ (s.pow.mv ≤ mv + 5) ∧ (s.get F.PWR_DVFS.STATE = 1)) ∧
  (let s : State := wPow (fun p => { p with mv := 740 }) [(F.PWR_DVFS.STATE, 4)]; let mv : Nat := 735; (mv ≤ s.pow.mv + 5) ∧ (s.pow.mv ≤ mv + 5)
    ∧ (s.get F.PWR_DVFS.STATE = 4)) ∧
  (let s : State := wPow (fun p => { p with mv := 740 }) [(F.PWR_DVFS.STATE, 4)]; let mv : Nat := 746; (s.pow.mv + 5 < mv ∨ mv + 5 < s.pow.mv)) ∧
  (let s : State := wPow (fun p => { p with mv := 740, goal := 1, holdAt := some 980000, raiseAt := some 900000 }) [(F.PWR_DVFS.CURRENT, 2), (F.PWR_DVFS.STATE, 2)];
    let t : Nat := 0; let h : Nat := 980000; (s.pow.holdAt = some h) ∧ (s.pow.goal < 4) ∧ (s.adm.raising = none) ∧ (s.adm.abandoned = none)
    ∧ (h + 20000 ≤ max s.time t)) ∧
  (let s : State := wPow (fun p => { p with mv := 740, goal := 1, holdAt := some 980001, raiseAt := some 900000 }) [(F.PWR_DVFS.CURRENT, 2), (F.PWR_DVFS.STATE, 2)];
    let t : Nat := 0; let h : Nat := 980001; (s.pow.holdAt = some h) ∧ (s.pow.goal < 4) ∧ (s.adm.raising = none) ∧ (s.adm.abandoned = none)
    ∧ (max s.time t < h + 20000)) ∧
  (let s : State := wPow (fun p => { p with mv := 740, goal := 1, raiseAt := some 900000 }) [(F.PWR_DVFS.CURRENT, 2), (F.PWR_DVFS.STATE, 1)];
    let r : Nat := 900000; (s.pow.raiseAt = some r)) ∧
  (let s : State := { wPow (fun p => { p with switched := true }) [(F.PWR_DVFS.CURRENT, 2)] with aid := { Aid.reset with ctxs := [wHold 0x70 (fieldsBytes [(2, 168), (1, 1)]) wCap 168] } };
    let c : Ctx := wHold 0x70 (fieldsBytes [(2, 168), (1, 1)]) wCap 168; (s.pow.switched = true) ∧ (s.waiters wCap = [c]) ∧ (c.arg < 1024)
    ∧ (s.aid.repeats = [])) ∧
  (let s : State := wPow id [(F.PWR_DVFS.CURRENT, 2), (F.PWR_CAP.CAP_W, 200)]; let t : Nat := 0; let mw : Nat := 200001; (s.pow.switched = false)
    ∧ (s.waiters wCap = []) ∧ (1000 * s.get F.PWR_CAP.CAP_W < mw) ∧ (s.point < s.adm.floor) ∧ (s.adm.floor ≤ 3) ∧ ((s.at t).spaced = true)
    ∧ (s.adm.raising = none) ∧ (s.adm.abandoned = none)) ∧
  (let s : State := wPow id [(F.PWR_DVFS.CURRENT, 3), (F.PWR_CAP.CAP_W, 200)]; let mw : Nat := 200001; (s.pow.switched = false)
    ∧ (s.waiters wCap = []) ∧ (1000 * s.get F.PWR_CAP.CAP_W < mw) ∧ (s.adm.floor ≤ s.point) ∧ (s.pow.atFloor = false)) ∧
  (let s : State := wPow id [(F.PWR_DVFS.CURRENT, 3), (F.PWR_DVFS.TARGET, 0), (F.PWR_CAP.CAP_W, 400)]; let t : Nat := 0; let mw : Nat := 200001;
    (s.pow.switched = false) ∧ (s.waiters wCap = []) ∧ (mw ≤ 1000 * s.get F.PWR_CAP.CAP_W) ∧ (s.get F.PWR_DVFS.TARGET < s.point)
    ∧ (s.pow.raiseAt = none) ∧ (s.heldDown = false) ∧ ((s.at t).spaced = true)
    ∧ (100 * mw * opWatts (s.point - 1) < 95 * (1000 * s.get F.PWR_CAP.CAP_W) * opWatts s.point)) := ⟨by decide +kernel,
    by decide +kernel,
    by decide +kernel,
    by decide +kernel,
    by decide +kernel,
    by decide +kernel,
    by decide +kernel,
    by decide +kernel,
    by decide +kernel,
    by decide +kernel,
    by decide +kernel,
    by decide +kernel⟩

theorem witness_ThermalAndLosses :
  (let s : State := wUp; let temps : List Int := [80, 82, 82]; (temps.length ≤ 64) ∧ (let r := hottest temps 0;
    let hot : Int := if (s.calItem 0x0020).isNone then r.1 + 7 else r.1; (hot < s.limits.1) ∧ (s.flag F.PWR_EMERG.THERMAL = false))) ∧
  (let s : State := wUp; let temps : List Int := [80, 83, 82]; (temps.length ≤ 64) ∧ (let r := hottest temps 0;
    let hot : Int := if (s.calItem 0x0020).isNone then r.1 + 7 else r.1; (s.limits.1 ≤ hot) ∧ (hot < s.limits.2.2))) ∧
  (let s : State := wUp; let temps : List Int := [88, 83, 82]; (temps.length ≤ 64) ∧ (let r := hottest temps 0;
    let hot : Int := if (s.calItem 0x0020).isNone then r.1 + 7 else r.1; (s.limits.2.1 ≤ hot) ∧ (hot < s.limits.2.2)
    ∧ (s.flag F.PWR_EMERG.THERMAL = false))) ∧
  (let s : State := wUp; let temps : List Int := [80, 98, 82]; (temps.length ≤ 64) ∧ (let r := hottest temps 0;
    let hot : Int := if (s.calItem 0x0020).isNone then r.1 + 7 else r.1; (s.limits.2.2 ≤ hot) ∧ (s.dead = false))) ∧
  (let s : State := wPow (fun p => { p with hot := 87, stepAt := some 1000001 }) [(F.PWR_DVFS.CURRENT, 2), (F.PWR_EMERG.THROTTLING, 1)];
    let d : Nat := 1000001; (s.pow.stepAt = some d) ∧ (s.get F.PWR_EMERG.POWER = 0) ∧ (s.get F.PWR_EMERG.THERMAL = 0) ∧ (s.limits.1 - 3 ≤ s.pow.hot)
    ∧ (s.point < 3)) ∧
  (let s : State := wPow (fun p => { p with hot := 86, stepAt := some 1000001 }) [(F.PWR_DVFS.CURRENT, 2), (F.PWR_DVFS.TARGET, 1), (F.PWR_EMERG.THROTTLING, 1)];
    let d : Nat := 1000001; (s.pow.stepAt = some d) ∧ (s.get F.PWR_EMERG.POWER = 0) ∧ (s.get F.PWR_EMERG.THERMAL = 0) ∧ (s.pow.hot < s.limits.1 - 3)
    ∧ (s.get F.PWR_DVFS.TARGET < s.point) ∧ (s.pow.raiseAt = none)) ∧
  (let s : State := wPow (fun p => { p with hot := 86, stepAt := some 1000001 }) [(F.PWR_DVFS.CURRENT, 1), (F.PWR_DVFS.TARGET, 1), (F.PWR_EMERG.THROTTLING, 1)];
    let d : Nat := 1000001; (s.pow.stepAt = some d) ∧ (s.get F.PWR_EMERG.POWER = 0) ∧ (s.get F.PWR_EMERG.THERMAL = 0) ∧ (s.pow.hot < s.limits.1 - 3)
    ∧ (s.point ≤ s.get F.PWR_DVFS.TARGET)) ∧
  (let s : State := wPow (fun p => { p with coolAt := some 1000000, therm := true }) [(F.PWR_EMERG.THERMAL, 1)]; let t : Nat := 11000000;
    let c : Nat := 1000000; (s.pow.coolAt = some c) ∧ (s.flag F.PWR_EMERG.THERMAL = true) ∧ (c + 10000000 ≤ max s.time t)) ∧
  (let s : State := wPow (fun p => { p with coolAt := some 1000000, therm := true }) [(F.PWR_EMERG.THERMAL, 1)]; let t : Nat := 10999999;
    let c : Nat := 1000000; (s.pow.coolAt = some c) ∧ (s.flag F.PWR_EMERG.THERMAL = true) ∧ (max s.time t < c + 10000000)) ∧
  (let s : State := wPow (fun p => { p with warnEnd := some 1000000 }) [(F.PWR_EMERG.POWER, 1)]; let t : Nat := 0; let e : Nat := 1000000;
    (s.pow.warnEnd = some e) ∧ (e ≤ max s.time t)) ∧
  (let s : State := wPow (fun p => { p with warnEnd := some 1000001 }) [(F.PWR_EMERG.POWER, 1)]; let t : Nat := 0; let e : Nat := 1000001;
    (s.pow.warnEnd = some e) ∧ (max s.time t < e)) ∧
  (let s : State := wUp; (s.running = true)) ∧
  (let s : State := wUp; let rail : Nat := 7; (rail < 8) ∧ (s.running = true) ∧ ((s.get F.PWR_RAIL.EN).testBit rail = true)) ∧
  (let s : State := wPuts wUp [(F.PWR_STOP.STATE, 2), (F.PWR_RET_STAT.VALID, 255)]; let rail : Nat := 2; (rail < 8) ∧ (s.get F.PWR_STOP.STATE = 2)
    ∧ (rail = 1 ∨ rail = 2)) ∧
  (let rail : Nat := 7; (rail < 8)) := ⟨by decide +kernel,
    by decide +kernel,
    by decide +kernel,
    by decide +kernel,
    by decide +kernel,
    by decide +kernel,
    by decide +kernel,
    by decide +kernel,
    by decide +kernel,
    by decide +kernel,
    by decide +kernel,
    by decide +kernel,
    by decide +kernel,
    by decide +kernel,
    by decide +kernel⟩

theorem witness_StopAndWake :
  (let s : State := wBus (fun a => a) [(F.PWR_STOP.STATE, 2)]; let addr : Nat := 0x11; let x : BusXfer := ⟨true, 0xF0, []⟩; (s.busAddr = some addr)
    ∧ (x.read = true) ∧ (x.pointer = 0xF0)) ∧
  (let s : State := wBus (fun a => { a with enables := [(R.HG_CTL, 1)] }) [(F.PWR_STOP.STATE, 1), (F.PWR_STOP.STEP, 2)]; let addr : Nat := 0x11;
    let x : BusXfer := wXfer; (s.busAddr = some addr) ∧ (¬ (x.read = true ∧ x.pointer = 0xF0)) ∧ (s.get F.PWR_STOP.STATE = 1)
    ∧ (s.get F.PWR_STOP.STEP ≤ 2)) ∧
  (let s : State := wBus (fun a => { a with enables := [(R.HG_CTL, 1)] }) [(F.PWR_STOP.STATE, 1), (F.PWR_STOP.STEP, 4)]; let addr : Nat := 0x11;
    let x : BusXfer := wXfer; let b : Boot := wBoot; (s.busAddr = some addr) ∧ (¬ (x.read = true ∧ x.pointer = 0xF0)) ∧ (s.get F.PWR_STOP.STATE = 1)
    ∧ (3 ≤ s.get F.PWR_STOP.STEP) ∧ (s.get F.PWR_STOP.STEP ≤ 4) ∧ (b.fail = none)) ∧
  (let s : State := wBus (fun a => { a with enables := [(R.HG_CTL, 1)] }) [(F.PWR_STOP.STATE, 1), (F.PWR_STOP.STEP, 5)]; let addr : Nat := 0x11;
    let x : BusXfer := wXfer; let b : Boot := wBoot; (s.busAddr = some addr) ∧ (¬ (x.read = true ∧ x.pointer = 0xF0)) ∧ (s.get F.PWR_STOP.STATE = 1)
    ∧ (5 ≤ s.get F.PWR_STOP.STEP) ∧ (s.get F.PWR_STOP.STEP ≤ 6) ∧ (b.fail = none)) ∧
  (let s : State := wBus (fun a => a) [(F.PWR_STOP.STATE, 2)]; let addr : Nat := 0x11; let x : BusXfer := wXfer; let b : Boot := wBoot;
    (s.busAddr = some addr) ∧ (¬ (x.read = true ∧ x.pointer = 0xF0)) ∧ (s.get F.PWR_STOP.STATE = 2) ∧ (s.flag F.PWR_WAKE_STAT.LOCKOUT = false)
    ∧ (s.aon.waking = false) ∧ (s.aon.retryAt = none) ∧ (b.fail = none) ∧ (s.get F.PWR_RET_STAT.VALID = 0xFF) ∧ (b.badBanks = 0)) ∧
  (let s : State := wBus (fun a => a) [(F.PWR_STOP.STATE, 2)]; let addr : Nat := 0x11; let x : BusXfer := wXfer; let b : Boot := wFail;
    (s.busAddr = some addr) ∧ (¬ (x.read = true ∧ x.pointer = 0xF0)) ∧ (s.get F.PWR_STOP.STATE = 2) ∧ (s.flag F.PWR_WAKE_STAT.LOCKOUT = false)
    ∧ (s.aon.waking = false) ∧ (s.aon.retryAt = none) ∧ (b.fail ≠ none)) ∧
  (let s : State := wBus (fun a => { a with waking := true, attempts := 3 }) [(F.PWR_STOP.STATE, 3), (F.PWR_WAKE_CFG.WAKE_RETRY, 3)];
    let cause : Nat := 3; let index : Nat := 255; (s.aon.waking = true) ∧ (cause < 4) ∧ (index < 256)) ∧
  (let s : State := wBus (fun a => { a with retryAt := some 1000001 }) [(F.PWR_STOP.STATE, 2)]; let t : Nat := 0; let r : Nat := 1000001;
    (s.aon.retryAt = some r) ∧ (max s.time t < r)) ∧
  (let s : State := wBus (fun a => { a with retryAt := some 1000000, attempts := 1 }) [(F.PWR_STOP.STATE, 2)]; let t : Nat := 0;
    let r : Nat := 1000000; let b : Boot := wBoot; (s.aon.retryAt = some r) ∧ (r ≤ max s.time t) ∧ (b.fail = none)
    ∧ (s.get F.PWR_RET_STAT.VALID = 0xFF) ∧ (b.badBanks = 0)) ∧
  (let s : State := wBus (fun a => { a with waking := true }) [(F.PWR_STOP.STATE, 3), (F.PWR_DOM.READY, 0x41), (F.PWR_DOM.ISO, 0x3E)];
    let dom : Nat := 5; (1 ≤ dom) ∧ (dom ≤ 5) ∧ (s.get F.PWR_STOP.STATE = 3) ∧ ((s.get F.PWR_DOM.READY).testBit dom = false)
    ∧ ((∀ x ∈ s.mbx.stalled, x.domain ≠ dom)) ∧ (let ready := s.get F.PWR_DOM.READY ||| 2 ^ dom; (ready ≠ 0x7F))) ∧
  (let s : State := wBus (fun a => { a with waking := true }) [(F.PWR_STOP.STATE, 3), (F.PWR_DOM.READY, 0x5F), (F.PWR_DOM.ISO, 0x20)];
    let dom : Nat := 5; (1 ≤ dom) ∧ (dom ≤ 5) ∧ (s.get F.PWR_STOP.STATE = 3) ∧ ((s.get F.PWR_DOM.READY).testBit dom = false)
    ∧ ((∀ x ∈ s.mbx.stalled, x.domain ≠ dom)) ∧ (let ready := s.get F.PWR_DOM.READY ||| 2 ^ dom; (ready = 0x7F))) := ⟨by decide +kernel,
    by decide +kernel,
    by decide +kernel,
    by decide +kernel,
    by decide +kernel,
    by decide +kernel,
    by decide +kernel,
    by decide +kernel,
    by decide +kernel,
    by decide +kernel,
    by decide +kernel⟩

theorem witness_ColdAndWarmStarts :
  (let b : Boot := wBoot; (b.lostPcs = []) ∧ (b.fail = none)) ∧
  (let b : Boot := wFail; (b.lostPcs = []) ∧ (let f := ⟨7, 3, 9⟩; (b.fail = some f))) ∧
  (let s : State := wUp; let b : Boot := wBoot; (b.lostPcs = []) ∧ (s.aon.phase ≠ .off) ∧ (b.fail = none)) ∧
  (let s : State := wUp; let b : Boot := wFail; (b.lostPcs = []) ∧ (s.aon.phase ≠ .off) ∧ (let f := ⟨7, 3, 9⟩; (b.fail = some f))) ∧
  (let s : State := wPuts wUp [(F.SYS_STAT.PERST_MODE, 1)]; let b : Boot := wBoot; (b.lostPcs = []) ∧ (s.aon.phase = .up)
    ∧ (s.flag F.SYS_STAT.PERST_MODE = true) ∧ (b.fail = none)) ∧
  (let s : State := { wUp with aon := { wUp.aon with phase := .retry, fails := 1 } }; let t : Nat := 100000000; let b : Boot := wBoot;
    (b.lostPcs = []) ∧ (s.aon.phase = .retry) ∧ (s.aon.startAt + 100000000 ≤ max s.time t) ∧ (b.fail = none)) ∧
  (let s : State := { wUp with aon := { wUp.aon with phase := .retry, fails := 2 } }; let t : Nat := 100000000; let b : Boot := wFail;
    (b.lostPcs = []) ∧ (s.aon.phase = .retry) ∧ (s.aon.startAt + 100000000 ≤ max s.time t) ∧ (let f := ⟨7, 3, 9⟩; (b.fail = some f))) ∧
  (let s : State := { wUp with aon := { wUp.aon with phase := .retry, fails := 2 } }; let t : Nat := 99999999; let b : Boot := wFail; (b.lostPcs = [])
    ∧ (s.aon.phase = .retry) ∧ (max s.time t < s.aon.startAt + 100000000)) ∧
  (let s : State := { wUp with aon := { wUp.aon with phase := .starting, fails := 2 } }; let t : Nat := 3000000000; (s.aon.phase = .starting)
    ∧ (s.aon.startAt + 3000000000 ≤ max s.time t)) ∧
  (let s : State := { wUp with aon := { wUp.aon with phase := .starting, fails := 2 } }; let t : Nat := 2999999999; (s.aon.phase = .starting)
    ∧ (max s.time t < s.aon.startAt + 3000000000)) ∧
  (let s : State := wPuts wUp [(F.HIF_STAT.WARM_COUNT, 65535)]; let b : Boot := wBoot; (s.aon.phase = .up) ∧ (s.flag F.SYS_STAT.PERST_MODE = false)
    ∧ (s.get F.PWR_STOP.STATE = 0) ∧ (s.aon.enables = []) ∧ (s.warmFailure b = none) ∧ (b.host = [])) := ⟨by decide +kernel,
    by decide +kernel,
    by decide +kernel,
    by decide +kernel,
    by decide +kernel,
    by decide +kernel,
    by decide +kernel,
    by decide +kernel,
    by decide +kernel,
    by decide +kernel,
    by decide +kernel⟩

theorem witness_BusAndDebug :
  (let s : State := wBus id []; let addr : Nat := 0x11; (s.busAddr = some addr) ∧ (s.addressed = true)) ∧
  (let s : State := wLone id; let addr : Nat := 0x3A; let others : List Nat := [78, 76]; (s.busAddr = some addr) ∧ (s.addressed = false)
    ∧ ((∃ x ∈ others, x < s.get F.SEC_SERIAL.SERIAL))) ∧
  (let s : State := wLone id; let addr : Nat := 0x3A; let others : List Nat := [78, 77]; (s.busAddr = some addr) ∧ (s.addressed = false)
    ∧ ((∀ x ∈ others, s.get F.SEC_SERIAL.SERIAL ≤ x))) ∧
  (let s : State := wLone (fun a => { a with lostArb := true }); (s.busAddr = some 0x3A) ∧ (s.addressed = false) ∧ (s.aon.lostArb = true)) ∧
  (let s : State := wLone (fun a => { a with phase := .starting }); let bs : List Byte := [63, 192] ++ beBytes 8 77; (s.busAddr = some 0x3A)
    ∧ (s.addressed = false) ∧ (let p := fieldAt bs 0 1; (s.aon.lostArb = false) ∧ (bs.length = 10) ∧ (p ≤ 63) ∧ (fieldAt bs 1 1 = 255 - p)
    ∧ (beNat (sliceAt bs 2 8) = s.get F.SEC_SERIAL.SERIAL))) ∧
  (let s : State := { wUp with aid := { Aid.reset with smax := [(0x2001, 2 ^ 32 - 1)] } };
    let desc : List Byte := fieldsBytes [(1, 0x18), (3, 0), (4, 0), (4, 0)]; (s.fwReady = true) ∧ (s.get F.PWR_STOP.STATE = 0)
    ∧ (s.aid.bus.busy = false) ∧ (let d := (desc ++ zeros 64).take 64; let dist := idxSub (fieldAt d 8 4) (tabGet 0 s.aid.smax 0x2001); (1 ≤ dist)
    ∧ (dist < 2 ^ 31))) ∧
  (let s : State := { wUp with sec := { Sec.reset with sessions := [⟨1, 64, 0, 0, [], [], 900001, false⟩, ⟨2, 64, 0, 0, [], [], 900000, false⟩, ⟨3, 0, 0, 0, [], [], 5, false⟩] } };
    let x : Session := ⟨2, 64, 0, 0, [], [], 900000, false⟩; (x ∈ s.sec.sessions) ∧ (x.fn = 64)
    ∧ ((∀ y ∈ s.sec.sessions, y.fn = 64 → x.lastUse ≤ y.lastUse))) ∧
  (let s : State := wPuts wUp [(F.SEC_FUSE.DEBUG_STATE, 1)]; (s.aon.phase ≠ .off) ∧ (s.get F.SEC_FUSE.DEBUG_STATE ≤ 1)) ∧
  (let s : State := wPuts wUp [(F.SEC_DBG.FAILS, 2)]; let d : List Byte := zeros 1568; (s.tokensWork = true) ∧ (let rights := fieldAt d 4 2;
    let good := fieldAt d 0 4 = 0xDB610001 ∧ fieldAt d 6 2 = 0 ∧ rights < 16 ∧ fieldAt d 8 8 = s.get F.SEC_SERIAL.SERIAL ∧ sliceAt d 16 16 = s.sec.nonce ∧ s.signedBy (d.take 32) (sliceAt d 32 384) (sliceAt d 416 384) (sliceAt d 800 384) (sliceAt d 1184 384) true = true;
    (¬ good))) ∧
  (let s : State := wRoot; let d : List Byte := wToken; (s.tokensWork = true) ∧ (let rights := fieldAt d 4 2;
    let good := fieldAt d 0 4 = 0xDB610001 ∧ fieldAt d 6 2 = 0 ∧ rights < 16 ∧ fieldAt d 8 8 = s.get F.SEC_SERIAL.SERIAL ∧ sliceAt d 16 16 = s.sec.nonce ∧ s.signedBy (d.take 32) (sliceAt d 32 384) (sliceAt d 416 384) (sliceAt d 800 384) (sliceAt d 1184 384) true = true;
    good)) := ⟨by decide +kernel,
    by decide +kernel,
    by decide +kernel,
    by decide +kernel,
    by decide +kernel,
    by decide +kernel,
    by decide +kernel,
    by decide +kernel,
    by decide +kernel,
    by decide +kernel⟩

theorem witness_RegisterWrites :
  (let s : State := wUp; let fn : Nat := 0; let req : Nat := 9; let off : Nat := 4; let size : Nat := 8; (accessOk off size = false)
    ∧ ((fn = 0 → s.reaches req off = true))) ∧
  (let s : State := wUp; let req : Nat := 9; let off : Nat := 0x44; let size : Nat := 4; (accessOk off size = true) ∧ (s.reaches req off = true)
    ∧ (s.regHere (off / 8 * 8) = none) ∧ (s.regHere (off / 8 * 8 + 4) = none)) ∧
  (let fn : Nat := 1; let off : Nat := 0x110; let size : Nat := 8; (accessOk off size = true) ∧ (fn ≠ 0) ∧ (0x110 ≤ off)
    ∧ (off < 0x140 ∨ 0x158 ≤ off)) ∧
  (let s : State := wClaim 262168 5; let req : Nat := 9; let off : Nat := R.HG_JRN_SIZE;
    let r : RegSpec := ((regAt R.HG_JRN_SIZE).getD (⟨0, [], 0, none, []⟩, [])).1; let is : List Nat := []; let g : Nat × List Nat := (262168, []);
    (off % 8 = 0) ∧ (s.reaches req off = true) ∧ (s.regHere off = some (r, is)) ∧ (s.regHere (off + 4) = none) ∧ (membersAt off = [])
    ∧ (r.group = some g) ∧ (let c := g.1 + dotStride g.2 is; let m := maskOf (8 * r.size - 1) 0; (s.landing req off r.fields &&& m ≠ 0)
    ∧ ((s.group c).holder ≠ 0) ∧ ((s.group c).holder ≠ req))) ∧
  (let s : State := wClaim 262168 5; let req : Nat := 5; let off : Nat := R.HG_JRN_SIZE;
    let r : RegSpec := ((regAt R.HG_JRN_SIZE).getD (⟨0, [], 0, none, []⟩, [])).1; let is : List Nat := []; let g : Nat × List Nat := (262168, []);
    (off % 8 = 0) ∧ (s.reaches req off = true) ∧ (s.regHere off = some (r, is)) ∧ (s.regHere (off + 4) = none) ∧ (membersAt off = [])
    ∧ (r.group = some g) ∧ (let c := g.1 + dotStride g.2 is; let m := maskOf (8 * r.size - 1) 0; (s.landing req off r.fields &&& m ≠ 0)
    ∧ ((s.group c).holder = 0 ∨ (s.group c).holder = req))) ∧
  (let s : State := (wClaim 262168 5).put F.SYS_CTL.SETUP_LOCK 1; let req : Nat := 9; let off : Nat := 262152;
    let r : RegSpec := ((regAt 262152).getD (⟨0, [], 0, none, []⟩, [])).1; let is : List Nat := []; let g : Nat × List Nat := (262168, []);
    (off % 8 = 0) ∧ (s.reaches req off = true) ∧ (s.regHere off = some (r, is)) ∧ (s.regHere (off + 4) = none) ∧ (membersAt off = [])
    ∧ (r.group = some g) ∧ (let m := maskOf (8 * r.size - 1) 0; (s.landing req off r.fields &&& m = 0))) ∧
  (let s : State := wUp; let req : Nat := 0; let k : Nat := 7; (k < 8) ∧ (s.reaches req (R.SYS_SCRATCHk k) = true)) ∧
  (let s : State := wPuts wUp [(F.SYS_ERR.BAD_ACCESS, 1), (F.SYS_ERR.UNMAPPED, 1)]; let req : Nat := 0; (s.reaches req R.SYS_ERR = true)) ∧
  (let s : State := wUp; let req : Nat := 0; (s.reaches req R.SYS_CTL = true)) ∧
  (let s : State := wClaim 262168 5; let req : Nat := 5; let val : Nat := 262168; let c := val % 2 ^ 24; (s.reaches req R.SYS_SHADOW_DISCARD = true)
    ∧ ((s.group c).holder ≠ 0) ∧ ((s.group c).holder = req ∨ isControlCore req = true)) ∧
  (let s : State := wClaim 262168 5; let req : Nat := 9; let val : Nat := 262168; let c := val % 2 ^ 24; (s.reaches req R.SYS_SHADOW_DISCARD = true)
    ∧ ((s.group c).holder ≠ req) ∧ (isControlCore req = false)) ∧
  (let s : State := wClaim 262168 5; let c : Nat := 262168; ((s.group c).holder ≠ 0)) := ⟨by decide +kernel,
    by decide +kernel,
    by decide +kernel,
    by decide +kernel,
    by decide +kernel,
    by decide +kernel,
    by decide +kernel,
    by decide +kernel,
    by decide +kernel,
    by decide +kernel,
    by decide +kernel,
    by decide +kernel⟩

end

end Sys2Proof.Tests
end

/-!
The block's scope (spec/00_scope.md): which parts of the state a command may change, and the state after reset.
-/

namespace Sys2Proof

open Machine

/-! ### Sets of parts, read bit by bit -/

/-- The bit of a part in a set stands at the part's place in the list of fields. -/
theorem Part.bit_eq_two_pow (p : Part) : p.bit = 2 ^ p.ctorIdx := by cases p <;> rfl

theorem Part.ctorIdx_inj {p q : Part} : p.ctorIdx = q.ctorIdx ↔ p = q :=
  ⟨fun h => by rw [← Part.ofNat_ctorIdx p, h, Part.ofNat_ctorIdx], fun h => h ▸ rfl⟩

theorem Part.testBit_bit (p q : Part) : q.bit.testBit p.ctorIdx = decide (q = p) := by
  rw [Part.bit_eq_two_pow, Nat.testBit_two_pow, decide_eq_decide, Part.ctorIdx_inj]

/-- Parts added one by one to a set: its bits are those it had and those of the parts added. -/
theorem testBit_foldl_bit (p : Part) (l : List Part) (m : Nat) :
    (l.foldl (fun m q => m ||| q.bit) m).testBit p.ctorIdx = (m.testBit p.ctorIdx || decide (p ∈ l)) := by
  induction l generalizing m with
  | nil => simp
  | cons q r ih =>
    rw [List.foldl_cons, ih, Nat.testBit_or, Part.testBit_bit, Bool.or_assoc]
    simp [eq_comm (a := p)]

theorem testBit_parts (p : Part) (l : List Part) : (parts l).testBit p.ctorIdx = decide (p ∈ l) := by
  rw [parts, testBit_foldl_bit, Nat.zero_testBit, Bool.false_or]

/-- A part whose bit lies in the set of the listed parts is one of them. -/
theorem mem_of_bit_or_parts {p : Part} {l : List Part} (h : p.bit ||| parts l = parts l) : p ∈ l := by
  have hp : (p.bit ||| parts l).testBit p.ctorIdx = true := by simp [Part.testBit_bit]
  rwa [h, testBit_parts, decide_eq_true_eq] at hp

theorem Keeps.same_of_not_mem {l : List Part} {s t : State} (h : Keeps (parts l) s t) {p : Part} (hp : p ∉ l) : Same s t p := by
  obtain ⟨_, _, _, _, hsame⟩ := h
  exact hsame p (mt mem_of_bit_or_parts hp)

/-! ### Commands -/

/-- Every command answers a next state that keeps what no command changes and changes the command's listed parts alone. -/
theorem exec_moves (c : Instr) (s : State) : Moves (parts (rowParts c)) s (exec c s) := by
  cases c with
  | runnelBatch => exact moves_execRunnelBatch ..
  | journalWriteComplete => exact moves_execJournalWriteComplete ..
  | mirrorConfirmation => exact moves_execMirrorConfirmation ..
  | mirrorTmo => exact moves_execMirrorTmo ..
  | gapAckRepeat => exact moves_execGapAckRepeat ..
  | heldBatchDrop => exact moves_execHeldBatchDrop ..
  | sliceGuardExpiry => exact moves_execSliceGuardExpiry ..
  | trackedFit => exact moves_execTrackedFit ..
  | hgGlbCommit => exact moves_execHgGlbCommit ..
  | hgStreamCommit => exact moves_execHgStreamCommit ..
  | frfBinPass => exact moves_execFrfBinPass ..
  | frfDetectorWindowEnd => exact moves_execFrfDetectorWindowEnd ..
  | frfSwitchInstant => exact moves_execFrfSwitchInstant ..
  | frfDwellBoundary => exact moves_execFrfDwellBoundary ..
  | frfFoldDecision => exact moves_execFrfFoldDecision ..
  | frfMaskUpdate => exact moves_execFrfMaskUpdate ..
  | frfMaskTakeEffect => exact moves_execFrfMaskTakeEffect ..
  | frfMaskExpiry => exact moves_execFrfMaskExpiry ..
  | frfLaneSwap => exact moves_execFrfLaneSwap ..
  | fadeEnd => exact moves_execFadeEnd ..
  | frfSync => exact moves_execFrfSync ..
  | frfMaskData1 => exact moves_execFrfMaskData1 ..
  | frfCoefData => exact moves_execFrfCoefData ..
  | frfGlbCommit => exact moves_execFrfGlbCommit ..
  | frfLaneCommit => exact moves_execFrfLaneCommit ..
  | spikePacket => exact moves_execSpikePacket ..
  | stepMarker => exact moves_execStepMarker ..
  | gatewayMarker => exact moves_execGatewayMarker ..
  | stepEnd => exact moves_execStepEnd ..
  | stepDeadline => exact moves_execStepDeadline ..
  | stretchExpiry => exact moves_execStretchExpiry ..
  | countFrame => exact moves_execCountFrame ..
  | furrowCoreFault => exact moves_execFurrowCoreFault ..
  | fwGlbCommit => exact moves_execFwGlbCommit ..
  | fwCoreCommit => exact moves_execFwCoreCommit ..
  | fwMapCommit => exact moves_execFwMapCommit ..
  | fwPopCommit => exact moves_execFwPopCommit ..
  | fwTblData => exact moves_execFwTblData ..
  | layerBoundary => exact moves_execLayerBoundary ..
  | haloPublish t tile consumer layer stream k corrected =>
    cases corrected with
    | false => exact moves_execHaloPublish_clean t tile consumer layer stream k s
    | true => exact moves_execHaloPublish t tile consumer layer stream k true s
  | tileFault => exact moves_execTileFault ..
  | groupRemapComplete => exact moves_execGroupRemapComplete ..
  | stCommit => exact moves_execStCommit ..
  | featureArrival => exact moves_execFeatureArrival ..
  | instantOpenTimeout => exact moves_execInstantOpenTimeout ..
  | instantExpiry => exact moves_execInstantExpiry ..
  | fusionComplete => exact moves_execFusionComplete ..
  | slotCheckpointComplete => exact moves_execSlotCheckpointComplete ..
  | coppiceUnitFault => exact moves_execCoppiceUnitFault ..
  | cpGlbCommit => exact moves_execCpGlbCommit ..
  | cpGrpCommit => exact moves_execCpGrpCommit ..
  | cpMbrCommit => exact moves_execCpMbrCommit ..
  | admissionEvaluation => exact moves_execAdmissionEvaluation ..
  | readmission => exact moves_execReadmission ..
  | capacityRelease => exact moves_execCapacityRelease ..
  | floorLower => exact moves_execFloorLower ..
  | dramAccess => exact moves_execDramAccess ..
  | patrolScrub => exact moves_execPatrolScrub ..
  | dramRefresh => exact moves_execDramRefresh ..
  | pseudoChannelFail => exact moves_execPseudoChannelFail ..
  | memRgnCommit => exact moves_execMemRgnCommit ..
  | canalFlit => exact moves_execCanalFlit ..
  | linkFail => exact moves_execLinkFail ..
  | sqWrite => exact moves_execSqWrite ..
  | sqRead => exact moves_execSqRead ..
  | queueReset => exact moves_execQueueReset ..
  | sqQCommit => exact moves_execSqQCommit ..
  | doorbellSnoop => exact moves_execDoorbellSnoop ..
  | doorbellPoll => exact moves_execDoorbellPoll ..
  | watchReread => exact moves_execWatchReread ..
  | nudge => exact moves_execNudge ..
  | descriptorFetch => exact moves_execDescriptorFetch ..
  | runWrite => exact moves_execRunWrite ..
  | coalescingTime => exact moves_execCoalescingTime ..
  | flr => exact moves_execFlr ..
  | linkDown => exact moves_execLinkDown ..
  | linkUp => exact moves_execLinkUp ..
  | hifFnCommit => exact moves_execHifFnCommit ..
  | hifFnAdmCommit => exact moves_execHifFnAdmCommit ..
  | commandStep => exact moves_execCommandStep ..
  | compartmentViolation => exact moves_execCompartmentViolation ..
  | controlCoreFail => exact moves_execControlCoreFail ..
  | coreRejoin => exact moves_execCoreRejoin ..
  | mwWrite => exact moves_execMwWrite ..
  | mwCmdGo => exact moves_execMwCmdGo ..
  | mbxCfg => exact moves_execMbxCfg ..
  | mbxSend => exact moves_execMbxSend ..
  | mbxRecv => exact moves_execMbxRecv ..
  | mbxDbRing => exact moves_execMbxDbRing ..
  | lckAcquireRead => exact moves_execLckAcquireRead ..
  | lckReleaseWrite => exact moves_execLckReleaseWrite ..
  | lckForce => exact moves_execLckForce ..
  | componentHandover => exact moves_execComponentHandover ..
  | deferredActivationBegin => exact moves_execDeferredActivationBegin ..
  | sessionChallenge => exact moves_execSessionChallenge ..
  | sessionOpen => exact moves_execSessionOpen ..
  | sessionClose => exact moves_execSessionClose ..
  | ringCreate => exact moves_execRingCreate ..
  | ringDestroy => exact moves_execRingDestroy ..
  | ringAttach => exact moves_execRingAttach ..
  | fwVersion => exact moves_execFwVersion ..
  | classSet => exact moves_execClassSet ..
  | groupSet => exact moves_execGroupSet ..
  | streamOpen => exact moves_execStreamOpen ..
  | streamModify => exact moves_execStreamModify ..
  | streamClose => exact moves_execStreamClose ..
  | modelLoad => exact moves_execModelLoad ..
  | modelActivate => exact moves_execModelActivate ..
  | modelActivateCancel => exact moves_execModelActivateCancel ..
  | activationSwitch => exact moves_execActivationSwitch ..
  | modelUnload => exact moves_execModelUnload ..
  | modelQuery => exact moves_execModelQuery ..
  | configCommit => exact moves_execConfigCommit ..
  | timedConfigCommit => exact moves_execTimedConfigCommit ..
  | calRead => exact moves_execCalRead ..
  | calWrite => exact moves_execCalWrite ..
  | fwStage => exact moves_execFwStage ..
  | fwActivate => exact moves_execFwActivate ..
  | fwActivateCancel => exact moves_execFwActivateCancel ..
  | fwActivateTime => exact moves_execFwActivateTime ..
  | timeGet => exact moves_execTimeGet ..
  | timeSet => exact moves_execTimeSet ..
  | powerSet => exact moves_execPowerSet ..
  | stopEnter => exact moves_execStopEnter ..
  | warmReset => exact moves_execWarmReset ..
  | statsRead => exact moves_execStatsRead ..
  | logConfig => exact moves_execLogConfig ..
  | attest => exact moves_execAttest ..
  | keyProvision => exact moves_execKeyProvision ..
  | buddyPair => exact moves_execBuddyPair ..
  | buddyUnpair => exact moves_execBuddyUnpair ..
  | buddyStatus => exact moves_execBuddyStatus ..
  | testFault => exact moves_execTestFault ..
  | testFaultInjection => exact moves_execTestFaultInjection ..
  | testFaultRestore => exact moves_execTestFaultRestore ..
  | injectionDescriptor => exact moves_execInjectionDescriptor ..
  | ethernetFrame => exact moves_execEthernetFrame ..
  | portFail => exact moves_execPortFail ..
  | portReturn => exact moves_execPortReturn ..
  | fdbAgeing => exact moves_execFdbAgeing ..
  | netFdbData => exact moves_execNetFdbData ..
  | sourceTimeout => exact moves_execSourceTimeout ..
  | holdoverLimit => exact moves_execHoldoverLimit ..
  | launch => exact moves_execLaunch ..
  | netPortTxtsId => exact moves_execNetPortTxtsId ..
  | culvertDatagram => exact moves_execCulvertDatagram ..
  | dissentEnd => exact moves_execDissentEnd ..
  | culvertRetransmit => exact moves_execCulvertRetransmit ..
  | heartbeat => exact moves_execHeartbeat ..
  | peerLost => exact moves_execPeerLost ..
  | authChallenge => exact moves_execAuthChallenge ..
  | timNow => exact moves_execTimNow ..
  | ppsIn => exact moves_execPpsIn ..
  | ppsOut => exact moves_execPpsOut ..
  | netGlbCommit => exact moves_execNetGlbCommit ..
  | netPortCommit => exact moves_execNetPortCommit ..
  | netExpCommit => exact moves_execNetExpCommit ..
  | netPeerCommit => exact moves_execNetPeerCommit ..
  | timCommit => exact moves_execTimCommit ..
  | fatalError => exact moves_execFatalError ..
  | faultSpacingEnd => exact moves_execFaultSpacingEnd ..
  | leaseWrite => exact moves_execLeaseWrite ..
  | fenced => exact moves_execFenced ..
  | takeover => exact moves_execTakeover ..
  | dvfsRequest => exact moves_execDvfsRequest ..
  | avsVoltageRead => exact moves_execAvsVoltageRead ..
  | pgoodHold => exact moves_execPgoodHold ..
  | raiseTimeout => exact moves_execRaiseTimeout ..
  | powerCapDecision => exact moves_execPowerCapDecision ..
  | thermalSample => exact moves_execThermalSample ..
  | throttleStep => exact moves_execThrottleStep ..
  | thermalEmergencyEnd => exact moves_execThermalEmergencyEnd ..
  | powerEmergency => exact moves_execPowerEmergency ..
  | powerEmergencyEnd => exact moves_execPowerEmergencyEnd ..
  | pllLockLoss => exact moves_execPllLockLoss ..
  | pgoodLoss => exact moves_execPgoodLoss ..
  | addressMatch => exact moves_execAddressMatch ..
  | wakeAbort => exact moves_execWakeAbort ..
  | wakeRetry => exact moves_execWakeRetry ..
  | domainReady => exact moves_execDomainReady ..
  | powerOn => exact moves_execPowerOn ..
  | rstN => exact moves_execRstN ..
  | perstN => exact moves_execPerstN ..
  | coldStartRetry => exact moves_execColdStartRetry ..
  | readyTimeout => exact moves_execReadyTimeout ..
  | arbitrationRead => exact moves_execArbitrationRead ..
  | setpos => exact moves_execSetpos ..
  | mbCommand => exact moves_execMbCommand ..
  | busSessionTimeout => exact moves_execBusSessionTimeout ..
  | dbgNonce => exact moves_execDbgNonce ..
  | dbgToken => exact moves_execDbgToken ..
  | setupLock => exact moves_execSetupLock ..
  | sysShadowDiscard => exact moves_execSysShadowDiscard ..
  | claimLapsed => exact moves_execClaimLapsed ..
  | pendingCommitApply => exact moves_execPendingCommitApply ..
  | registerWrite => exact moves_execRegisterWrite ..
  | vddAonLoss => exact moves_execVddAonLoss ..
  | pgoodReturn => exact moves_execPgoodReturn ..
  | enumInChange => exact moves_execEnumInChange ..
  | waitToRestore => exact moves_execWaitToRestore ..
  | guardTimer => exact moves_execGuardTimer ..
  | ppsOutFall => exact moves_execPpsOutFall ..
  | ceMergeWindow => exact moves_execCeMergeWindow ..
  | msixUnmask => exact moves_execMsixUnmask ..
  | linkRetrain => exact moves_execLinkRetrain ..
  | portLinkUp => exact moves_execPortLinkUp ..
  | pairingTimeout => exact moves_execPairingTimeout ..

/-- The state that a command answers keeps what no command changes and changes the command's listed parts alone. -/
theorem keeps_of_exec {c : Instr} {s t : State} (h : exec c s = .next t) : Keeps (parts (rowParts c)) s t := by
  obtain ⟨u, hu, hk⟩ := exec_moves c s
  cases hu.symm.trans h
  exact hk

/-- Settles O5: each meaning's frame (`exec_moves`) is over the set of the command's listed parts, and a part that is not
listed has its bit outside that set. -/
theorem rowsChangeOnlyTheirParts : Obligations.RowsChangeOnlyTheirParts := by
  intro c s t h p hp
  exact (keeps_of_exec h).same_of_not_mem hp

/-! ### Reset -/

theorem canonical_reset : Canonical State.reset := ⟨Memory.wf_reset, rfl, rfl⟩

/-- No register is listed after reset, so every register reads its cold value. -/
@[simp] theorem Machine.State.reg_reset (a : Nat) : State.reset.reg a = coldOf a := rfl

/-- No byte of memory is listed after reset, so every byte reads 0. -/
theorem Machine.memByte_reset (a : Nat) : memByte State.reset.mem a = 0 := rfl

theorem Machine.State.get_reset (f : Fld) : State.reset.get f = getBits (coldOf f.addr) f.hi f.lo := by
  rw [State.get, State.reg_reset]

/-- Settles O2: nothing is listed in the state after reset, so registers and memory read their defaults, and the cold values
written out are those of the register table. -/
theorem resetState : Obligations.ResetState := by
  refine ⟨canonical_reset, rfl, State.reg_reset, rfl, rfl, rfl, rfl, rfl, rfl, rfl, rfl, memByte_reset, ?_⟩
  simp only [State.reg_reset, State.get_reset]
  decide

end Sys2Proof

/-!
The headgate (spec/02_headgate_ingest.md): how a batch begins its journal entry, arriving as a datagram or injected, and what
the headgate's timers and journal confirmations do.
-/

namespace Sys2Proof

namespace Machine

/-! ### Reads after the clock or a register moved -/

@[simp] theorem State.get_at (s : State) (t : Nat) (f : Fld) : (s.at t).get f = s.get f := rfl

@[simp] theorem State.streamState_at (s : State) (t i : Nat) : (s.at t).streamState i = s.streamState i := rfl

@[simp] theorem State.stream_put (s : State) (f : Fld) (v i : Nat) : (s.put f v).stream i = s.stream i := rfl

@[simp] theorem State.stream_bump (s : State) (a i : Nat) : (s.bump a).stream i = s.stream i := rfl

/-- Of the registers, only HG_JRN_SIZE bears on the journal's free space. -/
theorem State.jrnFree_put (s : State) (f : Fld) (v : Nat) (h : f.addr ≠ R.HG_JRN_SIZE) : (s.put f v).jrnFree = s.jrnFree := by
  simp only [State.jrnFree, State.jrnSize, State.jrnUsed, State.put_hg, State.get_put_ne s f F.HG_JRN_SIZE.SIZE_MIB v h]

/-! ### What the operations that a batch calls leave alone -/

@[simp] theorem State.toBuddy_hg (s : State) (chan type stream : Nat) (p : List Byte) : (s.toBuddy chan type stream p).hg = s.hg :=
  (keeps_toBuddy chan type stream p sub_refl keeps_refl).same_of_not_mem (p := .hg) (by decide)

@[simp] theorem State.beginJournal_hif (s : State) (i : Nat) (b : Batch) : (s.beginJournal i b).hif = s.hif :=
  (keeps_beginJournal i b sub_refl keeps_refl).same_of_not_mem (p := .hif) (by decide)

@[simp] theorem State.pushRun_aid (s : State) (r : Nat) (run : Run) : (s.pushRun r run).aid = s.aid :=
  (keeps_pushRun r run sub_refl keeps_refl).same_of_not_mem (p := .aid) (by decide)

theorem State.endInjection_hg (s : State) (r : Nat) (d : InjDesc) (status : Nat) (data : List Byte) :
    (s.endInjection r d status data).hg = s.hg :=
  (keeps_endInjection r d status data sub_refl keeps_refl).same_of_not_mem (p := .hg) (by decide)

theorem State.setStage_hg (s : State) (r : Nat) (d : InjDesc) (stage dup : Nat) : (s.setStage r d stage dup).hg = s.hg :=
  (keeps_setStage r d stage dup sub_refl keeps_refl).same_of_not_mem (p := .hg) (by decide)

@[simp] theorem State.give_sd (s : State) (t : Tab Nat) (i : Nat) (p : List (List Byte)) : (s.give t i p).sd = s.sd :=
  (keeps_give t i p sub_refl keeps_refl).same_of_not_mem (p := .sd) (by decide)

@[simp] theorem State.closeSusp_sd (s : State) (i : Nat) : (s.closeSusp i).sd = s.sd :=
  (keeps_closeSusp i sub_refl keeps_refl).same_of_not_mem (p := .sd) (by decide)

@[simp] theorem State.recoverCount_sd (s : State) (i k : Nat) : (s.recoverCount i k).sd = s.sd :=
  (keeps_recoverCount i k sub_refl keeps_refl).same_of_not_mem (p := .sd) (by decide)

/-! ### The bucket -/

theorem State.tokensNow_setStream (s : State) (i : Nat) {x : StreamSt} (ht : x.tokens = (s.stream i).tokens)
    (hf : x.filledAt = (s.stream i).filledAt) : (s.setStream i x).tokensNow i = s.tokensNow i := by
  simp only [State.tokensNow, State.stream_setStream, ht, hf]; rfl

theorem State.stream_refill (s : State) (i : Nat) :
    (s.refill i).stream i = { s.stream i with tokens := s.tokensNow i, filledAt := s.time } := by
  simp [State.refill, State.setTokens]

theorem State.jrnFree_refill (s : State) (i : Nat) : (s.refill i).jrnFree = s.jrnFree := by
  refine State.jrnFree_put _ _ _ ?_
  simp only [F.HG_STREAM_RESID.TOKENS, R.HG_STREAM_RESID, R.HG_JRN_SIZE]; omega

/-! ### The journal write of a batch begins (R46) -/

/-- The journal of `u` is that of `s` with one more entry, last: batch `b` of stream `i`, in the phase of writing. -/
def BeginsEntry (i : Nat) (b : Batch) (s u : State) : Prop :=
  ∃ e, u.hg.journal = s.hg.journal ++ [e] ∧ e.stream = i ∧ e.seq = b.seq ∧ e.phase = .writing ∧ e.batch = b

theorem BeginsEntry.congr {i : Nat} {b : Batch} {s s' u u' : State} (h : BeginsEntry i b s u)
    (hs : s.hg.journal = s'.hg.journal) (hu : u'.hg.journal = u.hg.journal) : BeginsEntry i b s' u' := by
  unfold BeginsEntry at h ⊢
  rwa [hu, ← hs]

/-- A stream once the journal write of a batch has begun: tokens taken, the expected number one further (R46). -/
def StreamSt.begun (x : StreamSt) (b : Batch) : StreamSt :=
  { x with
    tokens := x.tokens - b.need * 2 ^ 32, e := some ((b.seq + 1) % 2 ^ 32), processed := x.processed + 1
    first := if x.e.isNone then b.seq else x.first }

theorem State.hg_beginJournal (s : State) (i : Nat) (b : Batch) :
    ∃ e : JEntry, (s.beginJournal i b).hg = { s.hg with
        streams := tabInsert s.hg.streams i ((s.stream i).begun b), journal := s.hg.journal ++ [e] } ∧
      e.stream = i ∧ e.seq = b.seq ∧ e.phase = .writing ∧ e.batch = b := by
  unfold State.beginJournal
  extract_lets x mirror y s1 e
  refine ⟨e, ?_, rfl, rfl, rfl, rfl⟩
  split
  · exact State.toBuddy_hg ..
  · rfl

theorem beginsEntry_beginJournal (s : State) (i : Nat) (b : Batch) : BeginsEntry i b s (s.beginJournal i b) := by
  obtain ⟨e, hhg, he⟩ := s.hg_beginJournal i b
  exact ⟨e, by rw [hhg], he⟩

theorem State.stream_beginJournal (s : State) (i : Nat) (b : Batch) : (s.beginJournal i b).stream i = (s.stream i).begun b := by
  obtain ⟨e, hhg, -⟩ := s.hg_beginJournal i b
  simp [State.stream, hhg, tabGet]

/-! ### Checks 6 to 10 for the next batch (R44, R46) -/

section
variable {s : State} {i : Nat} {b : Batch}

/-- A batch of a RUNNING stream that finds its tokens and its journal space begins its journal write. -/
theorem State.admitNext_of_room (hrun : s.streamState i = 2) (htok : b.need * 2 ^ 32 ≤ s.tokensNow i)
    (hjrn : entryLen b.n ≤ s.jrnFree) : s.admitNext i b = ((s.refill i).beginJournal i b, none) := by
  have htok' : b.need * 2 ^ 32 ≤ ((s.refill i).stream i).tokens := by rwa [State.stream_refill]
  have hjrn' : entryLen b.n ≤ (s.refill i).jrnFree := by rwa [State.jrnFree_refill]
  simp [State.admitNext, hrun, Nat.not_lt.2 htok', Nat.not_lt.2 hjrn', -Nat.reducePow]

/-- No held batch follows when none is held. -/
theorem State.takeHeld_of_none (h : (s.stream i).held = []) (n : Nat) : s.takeHeld i n = s := by
  cases n with
  | zero => rfl
  | succ n =>
    cases he : (s.stream i).e with
    | none => simp [State.takeHeld, he]
    | some e => simp [State.takeHeld, he, h]

theorem State.stream_showHeld (s : State) (i : Nat) : (s.showHeld i).stream i = { s.stream i with
    gapAt := if (s.stream i).held.isEmpty then none else some ((s.stream i).gapAt.getD (s.time + 50000)) } := by
  simp [State.showHeld]

/-- With nothing held, the next batch that passes checks 3 to 9 begins its journal write, and that is all (R44). -/
theorem State.takeBatch_of_next (hrun : s.streamState i = 2) (hpay : b.payloadOk = true)
    (hnext : (s.stream i).classify b.seq = .next) (hheld : (s.stream i).held = []) (htok : b.need * 2 ^ 32 ≤ s.tokensNow i)
    (hjrn : entryLen b.n ≤ s.jrnFree) : s.takeBatch i b = ((s.refill i).beginJournal i b).showHeld i := by
  have hheld' : (((s.refill i).beginJournal i b).stream i).held = [] := by
    rw [State.stream_beginJournal, State.stream_refill]; exact hheld
  simp [State.takeBatch, hrun, hpay, hnext, State.admitNext_of_room hrun htok hjrn, State.takeHeld_of_none hheld']

end

/-- A datagram that the headgate takes, and that parses as a batch of a slot, goes to checks 3 to 10 of that slot (R44). -/
theorem State.runnel_of_slot {s : State} {port src sport i : Nat} {p : List Byte} {b : Batch} (hen : s.flag F.HG_CTL.ENABLE = true)
    (hmute : s.mute = false) (hport : 16 ≤ port ∨ s.flag (F.NET_PORT_STAT.FAILED port) = false)
    (hparse : parseBatch p src sport port s.time none = some b) (hslot : s.slotOf b = some i) :
    s.runnel port src sport p = (s.setStream i { s.stream i with lastPort := port }).takeBatch i b := by
  have hport' : (decide (port < 16) && s.flag (F.NET_PORT_STAT.FAILED port)) = false := by
    rcases hport with h | h
    · simp [Nat.not_lt.2 h]
    · simp [h]
  simp [State.runnel, hen, hmute, hport', hparse, hslot]

/-! ### Injected batches (R52) -/

/-- The next batch of an injection ring that passes checks 3 to 9 begins its journal write, and its descriptor waits. -/
theorem State.takeInjected_of_next {s : State} {r i : Nat} {d : InjDesc} {b : Batch} (hrun : s.streamState i = 2)
    (hpay : b.payloadOk = true) (hnext : (s.stream i).classify b.seq = .next) (htok : b.need * 2 ^ 32 ≤ s.tokensNow i)
    (hjrn : entryLen b.n ≤ s.jrnFree) : s.takeInjected r i d b = ((s.refill i).beginJournal i b).setStage r d 1 0 := by
  simp [State.takeInjected, hrun, hpay, hnext, State.admitNext_of_room hrun htok hjrn]

theorem State.ring_of_hif {s u : State} (h : u.hif = s.hif) (r : Nat) : u.ring r = s.ring r := by
  unfold State.ring; rw [h]

theorem State.ring_setStage {s : State} {r : Nat} {x : Ring} (h : s.ring r = some x) (d : InjDesc) (stage dup : Nat) :
    (s.setStage r d stage dup).ring r = some { x with fetched := x.fetched.map (fun e =>
      if fieldAt e.desc 8 4 = fieldAt d.desc 8 4 then { e with stage := stage, dup := dup } else e) } := by
  simp [State.setStage, h]

/-- Arming a ring takes nothing off its wait list. -/
theorem State.ring_arm {s : State} {r : Nat} {x : Ring} (h : s.ring r = some x) :
    ∃ z, (s.arm r).ring r = some z ∧ z.wait = x.wait := by
  simp only [State.arm, h]
  split
  · split
    · exact ⟨_, State.ring_setRing .., rfl⟩
    · exact ⟨x, h, rfl⟩
  · exact ⟨x, h, rfl⟩

/-- A run pushed on a ring is the last that waits there. -/
theorem State.ring_pushRun {s : State} {r : Nat} {x : Ring} (h : s.ring r = some x) (run : Run) :
    ∃ z, (s.pushRun r run).ring r = some z ∧ z.wait = x.wait ++ [run] := by
  simp only [State.pushRun, h]
  exact State.ring_arm (State.ring_setRing ..)

/-- The completion of a ring that is neither window nor bus goes to its COMPLETE ring (R293). -/
theorem State.postCompletion_of_ring {s : State} {r : Nat} {x : Ring} (h : s.ring r = some x) (hr : r < 0x2000) (noIrq : Bool)
    (entry : List Byte) : s.postCompletion r noIrq entry = s.pushRun x.complete ⟨.completion noIrq, [entry]⟩ := by
  have hwin : r ≠ 0x2000 := by omega
  have hbus : r ≠ 0x2001 := by omega
  simp [State.postCompletion, hwin, hbus, h]

/-- With no repeat waiting on its ring, a descriptor that is done touches no other ring. -/
theorem State.ring_injectionDone_ne {s : State} {r c : Nat} (hrep : ∀ q ∈ s.aid.repeats, q.ring ≠ r) (hc : c ≠ r) (d : InjDesc)
    (entry : List Byte) : (s.injectionDone r d entry).ring c = s.ring c := by
  have hmine : s.aid.repeats.filter (fun q => q.ring = r && q.seq = fieldAt d.desc 8 4) = [] := by
    simp +contextual [List.filter_eq_nil_iff, hrep]
  simp only [State.injectionDone, hmine, State.each, List.foldl_nil]
  cases s.ring r with
  | none => rfl
  | some x => exact State.ring_setRing_ne s _ hc.symm

/-- The completion of an injection descriptor is the last that waits on its COMPLETE ring (R383). -/
theorem State.ring_endInjection {s : State} {r : Nat} {x y : Ring} (hx : s.ring r = some x) (hy : s.ring x.complete = some y)
    (hc : x.complete ≠ r) (hr : r < 0x2000) (hrep : ∀ q ∈ s.aid.repeats, q.ring ≠ r) (d : InjDesc) (status : Nat)
    (data : List Byte) : ∃ z, (s.endInjection r d status data).ring x.complete = some z ∧
      z.wait = y.wait ++ [⟨.completion false,
        [completionEntry status (fieldAt d.desc 2 2) (fieldAt d.desc 8 4) r d.hAfter data]⟩] := by
  simp only [State.endInjection, State.postCompletion_of_ring hx hr]
  rw [State.ring_injectionDone_ne (by simpa using hrep) hc]
  exact State.ring_pushRun hy _

section
variable {s : State} {r : Nat} {x : Ring} {d : InjDesc} {buffer : List Byte} (hring : s.ring r = some x)
  (hfind : x.fetched.find? (fun d => d.stage = 0) = some d) (hmute : s.mute = false) (hcheck : s.checkInjection x d = none)
include hring hfind hmute hcheck

/-- A bad field of the descriptor or of its batch's header completes it with 0x0101 and the field's offset (R383). -/
theorem State.readInjection_of_bad_field {o : Nat} (hfield : injectionField d buffer = some o) :
    s.readInjection r buffer = s.endInjection r d 0x0101 (leBytes 2 o) := by
  simp [State.readInjection, hring, hfind, hmute, hcheck, hfield]

/-- A buffer without a bad field that parses as a batch of a running stream goes to checks 3 to 9 of that stream (R52). -/
theorem State.readInjection_of_batch {i : Nat} {b : Batch} (hfield : injectionField d buffer = none) (hstream : x.stream = some i)
    (hparse : parseBatch ((buffer ++ zeros (fieldAt d.desc 12 4)).take (fieldAt d.desc 12 4)) 0 0 0 s.time
      (some (r, fieldAt d.desc 8 4)) = some b) (hopen : s.streamState i ≠ 0) :
    s.readInjection r buffer = s.takeInjected r i d b := by
  simp [State.readInjection, hring, hfind, hmute, hcheck, hfield, hstream, hparse, hopen]

end

/-! ### Repeated acknowledgements and held batches (R46) -/

@[simp] theorem State.stream_sendRunnel (s : State) (src sport port i : Nat) (p : List Byte) :
    (s.sendRunnel src sport port p).stream i = s.stream i := rfl

/-- An acknowledgement of a device that is not mute: one datagram more, and the stream remembers what it said and to whom. -/
theorem State.sendAck_of_unmuted {s : State} (h : s.mute = false) (i cum a : Nat) (gap : Bool) (dest : Nat × Nat × Nat) :
    s.sendAck i cum a gap dest = (s.setStream i { s.stream i with lastAck := some (cum, a), peer := dest }).sendRunnel dest.1
      dest.2.1 dest.2.2 (ackPacket gap (s.get (F.HG_STREAM_GEOM.TAG i)) cum a
        ((s.setStream i { s.stream i with lastAck := some (cum, a), peer := dest }).credit i)) := by
  simp only [State.sendAck, h]; rfl

theorem State.gapRepeat_of_ack {s : State} {i g cum a : Nat} (hg : (s.stream i).gapAt = some g)
    (ha : (s.stream i).lastAck = some (cum, a)) : s.gapRepeat i =
      ((s.at g).setStream i { s.stream i with gapAt := some (g + 50000) }).sendAck i cum a true (s.stream i).peer := by
  simp [State.gapRepeat, hg, ha]

theorem State.dropHeld_of_held {s : State} {i seq : Nat} {h : Held}
    (hf : (s.stream i).held.find? (fun h => h.batch.seq = seq) = some h) : s.dropHeld i seq =
      (((s.at (h.since + 1000000)).setStream i { s.stream i with
        held := (s.stream i).held.filter (fun g => g.batch.seq ≠ seq) }).bump (R.HG_STREAM_CNT_DISC i)).showHeld i := by
  simp [State.dropHeld, hf]

/-- Showing the window writes one register, which is not the stream's counter of discarded batches. -/
theorem State.reg_showHeld_disc (s : State) (i : Nat) :
    (s.showHeld i).reg (R.HG_STREAM_CNT_DISC i) = s.reg (R.HG_STREAM_CNT_DISC i) := by
  rw [State.showHeld, State.reg_put, if_neg]
  · rfl
  · simp only [F.HG_STREAM_STAT.HELD, R.HG_STREAM_STAT, R.HG_STREAM_CNT_DISC]; omega

/-! ### Slices (R63–R65) -/

/-- A slice that closes joins the input of the slice dispatch, last. -/
theorem State.sd_closeIn (s : State) (i g k : Nat) (guard replayed : Bool) :
    ∃ d : SliceDesc, (s.closeIn i g k guard replayed).sd.input = s.sd.input ++ [d] ∧ d.stream = i ∧ d.k = k ∧
      d.guardClosed = guard := by
  unfold State.closeIn
  extract_lets x acc period uns early d s1 s2 _ _ s3 s4 s5 _ s6 s7 y drained
  have hsd : s7.sd.input = s.sd.input ++ [d] := by
    simp only [s7, s6, s5, s4, s3, s2, s1, State.recoverCount_sd, State.closeSusp_sd, State.give_sd, State.setStream_sd,
      State.tickFree_sd]
  refine ⟨d, ?_, rfl, rfl, rfl⟩
  split
  · exact hsd
  · exact hsd

theorem State.guardExpiry_of_open {s : State} {i k : Nat} (h : (s.stream i).kOpen = some k) : s.guardExpiry i =
    (s.at ((k + 1) * s.sliceNs i + 1000 * s.get (F.HG_STREAM_TIME.GUARD i))).closeIn i (s.get (F.HG_STREAM_CTL.GROUP i)) k
      true false := by
  simp [State.guardExpiry, h, State.closeSlice]

/-! ### The journal's confirmations (R44, R46–R49) -/

theorem State.mirrorLate_of_awaited {s : State} {i seq : Nat} {e : JEntry}
    (hf : (s.entriesOf i).find? (fun e => e.seq = seq) = some e) (hneed : e.needMirror = true) (hm : e.mirrored = false) :
    s.mirrorLate i seq = (s.at (e.begun + 20000)).put F.HG_ERR.MIRROR_TMO 1 := by
  simp [State.mirrorLate, hf, hneed, hm]

/-- A stream with an open entry has an entry: the walk over its entries takes at least one step. -/
theorem State.length_entriesOf_of_firstOpen {s : State} {i : Nat} {e : JEntry} (h : s.firstOpen i = some e) :
    (s.entriesOf i).length = (s.entriesOf i).length - 1 + 1 := by
  have := List.length_pos_of_mem (List.mem_of_find?_eq_some h)
  omega

/-- An entry still being written stops the walk of acknowledgements. -/
theorem State.ackReady_of_writing {s : State} {i : Nat} {e : JEntry} (hopen : s.firstOpen i = some e) (hphase : e.phase = .writing)
    (recovery : Bool) (n : Nat) : s.ackReady i recovery n = s := by
  cases n with
  | zero => rfl
  | succ n => simp [State.ackReady, hopen, hphase]

/-- A journalled entry that awaits no confirmation is accepted and acknowledged, and the walk goes on behind it. -/
theorem State.ackReady_of_journalled {s : State} {i : Nat} {e : JEntry} (hopen : s.firstOpen i = some e)
    (hphase : e.phase = .journalled) (hneed : e.needMirror = false) (hinj : e.batch.injected = none) (hmute : s.mute = false)
    (recovery : Bool) (n : Nat) : s.ackReady i recovery (n + 1) =
      let u := (s.setEntry i e.seq (fun e => { e with onRecovery := recovery })).accept i e
      (u.sendAck i e.seq u.time (!(u.stream i).held.isEmpty) e.batch.source).ackReady i recovery n := by
  simp [State.ackReady, hopen, hphase, hneed, hinj, hmute]

/-! ### The clock fit (R54) -/

/-- The last 16 fitted points once the best point (e, d) of a window joins them, its time counted from s₀ (R54). -/
def Tracked.joined (k : Tracked) (e d : Int) : List (Int × Int) :=
  (k.points ++ [(e - (k.s0.getD 0 : Nat), d)]).drop ((k.points ++ [(e - (k.s0.getD 0 : Nat), d)]).length - 16)

theorem State.trackedFit_of_ready {s : State} {i : Nat} {e d : Int} {rest : List (Int × Int)} (hmode : s.timeMode i = 1)
    (hready : (s.stream i).trk.ready = (e, d) :: rest) : s.trackedFit i =
      s.setStream i { s.stream i with trk := { (s.stream i).trk with
        alpha := (lsqFit (s.stream i).trk.alpha ((s.stream i).trk.joined e d)).1
        beta := (lsqFit (s.stream i).trk.alpha ((s.stream i).trk.joined e d)).2
        ready := rest, points := (s.stream i).trk.joined e d, estimated := true } } := by
  simp only [State.trackedFit, hready, hmode]; rfl

end Machine

open Machine

/-- Settles O6: the batch passes every check, so its journal write begins (`takeBatch_of_next`); with nothing held, only the
display of the window follows. -/
theorem batchBeginsJournalEntry : Obligations.BatchBeginsJournalEntry := by
  intro s t port src sport p b i hen hmute hport hparse hslot hrun hpay hnext hheld htok hjrn
  let s1 := (s.at t).setStream i { s.stream i with lastPort := port }
  have hx : s1.stream i = { s.stream i with lastPort := port } := State.stream_setStream ..
  have htok1 : s1.tokensNow i = (s.at t).tokensNow i := State.tokensNow_setStream _ _ rfl rfl
  have hnext1 : (s1.stream i).classify b.seq = .next := by rw [hx]; exact hnext
  have hheld1 : (s1.stream i).held = [] := by rw [hx]; exact hheld
  have hend : (s.at t).runnel port src sport p = ((s1.refill i).beginJournal i b).showHeld i := by
    rw [State.runnel_of_slot (s := s.at t) hen hmute hport hparse hslot]
    exact State.takeBatch_of_next hrun hpay hnext1 hheld1 (htok1 ▸ htok) hjrn
  refine ⟨_, congrArg Host.Outcome.next hend, (beginsEntry_beginJournal (s1.refill i) i b).congr rfl rfl, ?_, ?_⟩
  · rw [State.stream_showHeld, State.stream_beginJournal]; rfl
  · rw [State.stream_showHeld, State.stream_beginJournal, State.stream_refill, htok1]; rfl

/-- Settles O37: a batch that passes its checks begins its journal write (`takeInjected_of_next`) and moves its descriptor to
the waiting stage; a bad field ends the descriptor (`ring_endInjection`). -/
theorem injectedBatches : Obligations.InjectedBatches := by
  intro s t r buffer x d hring hfind hmute hcheck
  constructor
  · intro i b hfield hstream hparse hrun hpay hnext htok hjrn
    have hend : (s.at t).readInjection r buffer = (((s.at t).refill i).beginJournal i b).setStage r d 1 0 := by
      rw [State.readInjection_of_batch (s := s.at t) hring hfind hmute hcheck hfield hstream hparse (by simp [hrun])]
      exact State.takeInjected_of_next hrun hpay hnext htok hjrn
    have hring' : (((s.at t).refill i).beginJournal i b).ring r = some x := by
      rw [State.ring_of_hif (State.beginJournal_hif ..)]; exact hring
    refine ⟨_, congrArg Host.Outcome.next hend, ?_, _, State.ring_setStage hring' .., ?_⟩
    · exact (beginsEntry_beginJournal ((s.at t).refill i) i b).congr rfl (by rw [State.setStage_hg])
    · exact List.mem_map.2 ⟨d, List.mem_of_find?_eq_some hfind, by simp⟩
  · intro o y hfield hy hc hr hrep
    have hend := State.readInjection_of_bad_field (s := s.at t) hring hfind hmute hcheck hfield
    refine ⟨_, congrArg Host.Outcome.next hend, ?_, ?_⟩
    · exact State.ring_endInjection (s := s.at t) hring hy hc hr hrep ..
    · rw [State.endInjection_hg]; rfl

/-- Settles O7, each timer, confirmation and fit by the lemma that says what it does in the case the statement names. -/
theorem headgateTimersAndJournal : Obligations.HeadgateTimersAndJournal := by
  refine ⟨?_, ?_, ?_, ?_, ?_, ?_, ?_⟩
  · intro s i g cum a hg ha hmute
    let s1 := (s.at g).setStream i { s.stream i with gapAt := some (g + 50000) }
    have hend := (State.gapRepeat_of_ack hg ha).trans (State.sendAck_of_unmuted (s := s1) hmute ..)
    refine ⟨_, congrArg Host.Outcome.next hend, rfl, ?_, _, rfl⟩
    rw [State.stream_sendRunnel, State.stream_setStream, State.stream_setStream]
  · intro s i seq h hf
    refine ⟨_, congrArg Host.Outcome.next (State.dropHeld_of_held hf), rfl, ?_, ?_⟩
    · rw [State.stream_showHeld, State.stream_bump, State.stream_setStream]
    · rw [State.reg_showHeld_disc, State.reg_bump, if_pos rfl]; rfl
  · intro s i seq e hf hneed hm
    exact ⟨_, congrArg Host.Outcome.next (State.mirrorLate_of_awaited hf hneed hm), rfl, State.get_put _ _ _ (by decide) (by decide)⟩
  · intro s i k hk
    obtain ⟨d, hinput, hd⟩ := State.sd_closeIn (s.at ((k + 1) * s.sliceNs i + 1000 * s.get (F.HG_STREAM_TIME.GUARD i))) i
      (s.get (F.HG_STREAM_CTL.GROUP i)) k true false
    exact ⟨_, congrArg Host.Outcome.next (State.guardExpiry_of_open hk), d, hinput, hd⟩
  · intro s t i seq e s1 hopen hphase hneed hinj hmute
    have hack := State.ackReady_of_journalled hopen hphase hneed hinj hmute false ((s1.entriesOf i).length - 1)
    rw [← State.length_entriesOf_of_firstOpen hopen] at hack
    exact ⟨_, congrArg Host.Outcome.next hack, rfl⟩
  · intro s t i seq e s1 hopen hphase
    exact ⟨_, congrArg Host.Outcome.next (State.ackReady_of_writing hopen hphase ..), rfl⟩
  · intro s i e d rest hmode hready
    refine ⟨_, congrArg Host.Outcome.next (State.trackedFit_of_ready hmode hready), ?_⟩
    simp [Tracked.joined]

end Sys2Proof

/-!
The flicker and rate filter engine (spec/03_flicker_rate_filters.md): bins and detector windows, switch instants and dwell
boundaries, banks and synchronising resets, folds and the mask table.
-/

namespace Sys2Proof

namespace Machine

/-! ### Steps folded over a list -/

/-- What every step of a fold keeps holds after the fold. -/
theorem State.each_keeps {α : Type} {P : State → Prop} {f : State → α → State} (hf : ∀ u y, P u → P (f u y)) {s : State}
    (hs : P s) (l : List α) : P (s.each l f) := by
  unfold State.each
  induction l generalizing s with
  | nil => exact hs
  | cons x r ih => exact ih (hf s x hs)

/-- What the step at a listed element brings about, and every step keeps, holds after the fold. -/
theorem State.each_of_mem {α : Type} {P Q : State → Prop} {f : State → α → State} {x : α} {l : List α} (hx : x ∈ l)
    (hP : ∀ u y, P u → P (f u y)) (hQ : ∀ u y, Q u → Q (f u y)) (hPQ : ∀ u, P u → Q (f u x)) {s : State} (hs : P s) :
    Q (s.each l f) := by
  obtain ⟨a, b, rfl⟩ := List.append_of_mem hx
  have hend : Q ((f (s.each a f) x).each b f) := State.each_keeps hQ (hPQ _ (State.each_keeps hP hs a)) b
  simpa [State.each] using hend

/-! ### The engine's state and its lanes, after each update -/

@[simp] theorem State.frf_setLane (s : State) (l : Nat) (x : FrfLane) :
    (s.setLane l x).frf = { s.frf with lanes := tabInsert s.frf.lanes l x } := rfl

theorem State.lane_of_frf {s u : State} (h : u.frf = s.frf) (l : Nat) : u.lane l = s.lane l := by
  unfold State.lane; rw [h]

@[simp] theorem State.lane_put (s : State) (f : Fld) (v l : Nat) : (s.put f v).lane l = s.lane l :=
  State.lane_of_frf (State.put_frf ..) l

@[simp] theorem State.lane_at (s : State) (t l : Nat) : (s.at t).lane l = s.lane l := State.lane_of_frf (State.at_frf ..) l

@[simp] theorem State.atBin_time (s : State) (w : Nat) :
    (s.atBin w).time = max s.time (1000 * (w + s.get F.FRF_CTL.BIN_HOLD)) := rfl

@[simp] theorem State.applyPending_frf (s : State) (c : Nat) : (s.applyPending c).frf = s.frf :=
  (keeps_applyPending c sub_refl keeps_refl).same_of_not_mem (p := .frf) (by decide)

@[simp] theorem State.applyStaged_frf (s : State) (l : List (Nat × Word)) : (s.applyStaged l).frf = s.frf :=
  (keeps_applyStaged l sub_refl keeps_refl).same_of_not_mem (p := .frf) (by decide)

/-- What a key reads as is listed with it. -/
theorem mem_keys_of_tabFind {α : Type} {t : Tab α} {i : Nat} {v : α} (h : tabFind t i = some v) : i ∈ t.map (fun p => p.1) := by
  induction t with
  | nil => cases h
  | cons p r ih =>
    obtain ⟨k, w⟩ := p
    by_cases hk : k = i
    · exact hk ▸ List.mem_cons_self
    · exact List.mem_cons_of_mem _ (ih (by simpa [tabFind, hk] using h))

/-- A lane to which a channel is due is listed. -/
theorem State.mem_lanesListed_of_next {s : State} {l : Nat} {c : Option Nat} (h : (s.lane l).next = some c) :
    l ∈ s.lanesListed := by
  cases hl : tabFind s.frf.lanes l with
  | none => simp [State.lane, tabGet, hl, FrfLane.empty] at h
  | some x => exact mem_keys_of_tabFind hl

/-! ### Bins (R72, R74, R78) -/

theorem State.chans_foldSample (s : State) (l u : Nat) (y : Int) : (s.foldSample l u y).frf.chans = s.frf.chans := by
  unfold State.foldSample
  extract_lets x p b
  split <;> rfl

theorem State.chans_laneApplied (s : State) (l : Nat) (before : State) : (s.laneApplied l before).frf.chans = s.frf.chans := rfl

theorem State.chans_laneFieldsApply (s : State) (l : Nat) : (s.laneFieldsApply l).frf.chans = s.frf.chans := by
  unfold State.laneFieldsApply
  extract_lets c
  split
  · rfl
  · extract_lets
    split
    · rw [State.chans_laneApplied, State.applyPending_frf]
    · rw [State.chans_laneApplied, State.applyStaged_frf]

theorem State.chans_stage4 (s : State) (l u : Nat) (coarse : Int) : (s.stage4 l u coarse).frf.chans = s.frf.chans := rfl

/-- The stage outputs of a lane leave the channels alone. -/
theorem State.chans_lanePass (s : State) (l u : Nat) : (s.lanePass l u).frf.chans = s.frf.chans := by
  unfold State.lanePass
  split
  · rfl
  · extract_lets ch s1 x h2 h3 h4 s2
    have hs2 : s2.frf.chans = s.frf.chans := State.chans_foldSample ..
    split
    · rw [State.chans_stage4, State.chans_laneFieldsApply, hs2]
    · exact hs2

theorem State.chans_each_lanePass (s : State) (ls : List Nat) (u : Nat) :
    (s.each ls fun s l => s.lanePass l u).frf.chans = s.frf.chans :=
  State.each_keeps (P := fun v => v.frf.chans = s.frf.chans) (fun v l h => (v.chans_lanePass l u).trans h) rfl ls

theorem State.time_each_lanePass (s : State) (ls : List Nat) (u : Nat) : (s.each ls fun s l => s.lanePass l u).time = s.time :=
  (keeps_each keeps_refl fun _ l h => keeps_lanePass l u sub_refl h).same_of_not_mem (p := .time) (by decide)

/-- The channels give their outputs at instant u (R74, R78). -/
def State.outputChans (s : State) (u : Nat) : State :=
  let out := fun (_ : Nat) (ch : FrfChan) => ch.output u (s.get F.FRF_CTL.CENV_ATK) (s.get F.FRF_CTL.CENV_REL)
  { s with frf := { s.frf with chans := tabMap out s.frf.chans } }

/-- Bin u is integrated on every channel and is passed (R72, R75). -/
def State.integrateChans (s : State) (u : Nat) : State :=
  { s with frf := { s.frf with chans := tabMap (fun _ ch => ch.integrate u) s.frf.chans, nextBin := u + 1 } }

theorem State.chans_outputChans (s : State) (u : Nat) : (s.outputChans u).frf.chans =
    tabMap (fun _ ch => ch.output u (s.get F.FRF_CTL.CENV_ATK) (s.get F.FRF_CTL.CENV_REL)) s.frf.chans := rfl

theorem State.chans_integrateChans (s : State) (u : Nat) :
    (s.integrateChans u).frf.chans = tabMap (fun _ ch => ch.integrate u) s.frf.chans := rfl

theorem tabMap_tabMap {α : Type} (f g : Nat → α → α) (t : Tab α) : tabMap g (tabMap f t) = tabMap (fun k x => g k (f k x)) t := by
  simp [tabMap]

/-- The pass of bin n: the stage outputs of instant n when it is a multiple of 8, then the bin. -/
theorem State.frfBinPass_eq (s : State) : s.frfBinPass =
    let n := s.frf.nextBin
    if !s.frfOn then s
    else State.integrateChans (if n % 8 = 0 then ((s.atBin n).outputChans n).each s.lanesListed (fun s l => s.lanePass l n)
      else s.atBin n) n := rfl

/-- The pass of a bin moves to the next bin at the bin's end plus BIN_HOLD, and passes the bin on every channel. -/
theorem State.frfBinPass_of_on {s : State} (hon : s.frfOn = true) :
    let n := s.frf.nextBin
    s.frfBinPass.frf.nextBin = n + 1 ∧ s.frfBinPass.time = max s.time (1000 * (n + s.get F.FRF_CTL.BIN_HOLD)) ∧
      s.frfBinPass.frf.chans = tabMap (fun _ ch => (if n % 8 = 0 then
        ch.output n (s.get F.FRF_CTL.CENV_ATK) (s.get F.FRF_CTL.CENV_REL) else ch).integrate n) s.frf.chans := by
  rw [State.frfBinPass_eq, if_neg (by simp [hon])]
  dsimp only
  by_cases h8 : s.frf.nextBin % 8 = 0
  · simp only [if_pos h8]
    refine ⟨rfl, State.time_each_lanePass .., ?_⟩
    rw [State.chans_integrateChans, State.chans_each_lanePass, State.chans_outputChans, tabMap_tabMap]; rfl
  · simp only [if_neg h8]
    exact ⟨rfl, rfl, rfl⟩

/-! ### Detector windows (R82) -/

/-- The five fields of sub-filter k of a lane that a window end latches (R82). -/
def State.latchSub (s : State) (l k : Nat) (v : Nat × Nat × Nat × Bool × Bool) : State :=
  ((((s.put (F.FRF_LANE_DETk_A.PEAK l k) v.1).put (F.FRF_LANE_DETk_A.RMS l k) v.2.1).put (F.FRF_LANE_DETk_B.ENV l k) v.2.2.1).put
    (F.FRF_LANE_DETk_B.EMPTY l k) (bit v.2.2.2.1)).put (F.FRF_LANE_DETk_B.PARTIAL l k) (bit v.2.2.2.2)

theorem frfLaneDetB_ne_A (l j k : Nat) : R.FRF_LANE_DETk_B l j ≠ R.FRF_LANE_DETk_A l k := by
  unfold R.FRF_LANE_DETk_B R.FRF_LANE_DETk_A; omega

/-- Only the PEAK and RMS of a sub-filter lie in the register of its PEAK. -/
theorem State.get_latchSub (s : State) (l j k : Nat) (v : Nat × Nat × Nat × Bool × Bool) :
    (s.latchSub l j v).get (F.FRF_LANE_DETk_A.PEAK l k) =
      ((s.put (F.FRF_LANE_DETk_A.PEAK l j) v.1).put (F.FRF_LANE_DETk_A.RMS l j) v.2.1).get (F.FRF_LANE_DETk_A.PEAK l k) := by
  unfold State.latchSub
  iterate 3 rw [State.get_put_ne _ _ _ _ (frfLaneDetB_ne_A l j k)]

theorem State.get_latchSub_same (s : State) (l k : Nat) (v : Nat × Nat × Nat × Bool × Bool) :
    (s.latchSub l k v).get (F.FRF_LANE_DETk_A.PEAK l k) = v.1 % 2 ^ 32 := by
  rw [State.get_latchSub, State.get_put_apart, State.get_put]
  all_goals simp [F.FRF_LANE_DETk_A.PEAK, F.FRF_LANE_DETk_A.RMS]

theorem State.get_latchSub_ne (s : State) {l j k : Nat} (h : j ≠ k) (v : Nat × Nat × Nat × Bool × Bool) :
    (s.latchSub l j v).get (F.FRF_LANE_DETk_A.PEAK l k) = s.get (F.FRF_LANE_DETk_A.PEAK l k) := by
  have ha : R.FRF_LANE_DETk_A l j ≠ R.FRF_LANE_DETk_A l k := by unfold R.FRF_LANE_DETk_A; omega
  rw [State.get_latchSub, State.get_put_ne _ _ _ _ ha, State.get_put_ne _ _ _ _ ha]

/-- The sub-filters below n of a lane latch their windows at bin time w (R82). -/
def State.latchSubs (s : State) (l n w : Nat) (subs : List FrfSub) (coarse : Int) : State :=
  (s.atBin w).each (List.range n) fun s k => s.latchSub l k ((subs.getD k FrfSub.empty).latch coarse)

/-- After the latches PEAK k shows the latched peak of sub-filter k: no other latch writes it. -/
theorem State.get_latchSubs (s : State) (l : Nat) {n k : Nat} (hk : k < n) (w : Nat) (subs : List FrfSub) (coarse : Int) :
    (s.latchSubs l n w subs coarse).get (F.FRF_LANE_DETk_A.PEAK l k) =
      ((subs.getD k FrfSub.empty).latch coarse).1 % 2 ^ 32 := by
  have hsame := fun u : State => u.get_latchSub_same l k ((subs.getD k FrfSub.empty).latch coarse)
  generalize ((subs.getD k FrfSub.empty).latch coarse).1 % 2 ^ 32 = v at hsame ⊢
  refine State.each_of_mem (P := fun _ => True) (Q := fun u => u.get (F.FRF_LANE_DETk_A.PEAK l k) = v)
    (f := fun u j => u.latchSub l j ((subs.getD j FrfSub.empty).latch coarse)) (List.mem_range.2 hk) (fun _ _ _ => trivial)
    (fun u j hu => ?_) (fun u _ => hsame u) trivial
  by_cases hj : j = k
  · rw [hj]; exact hsame u
  · rw [u.get_latchSub_ne hj]; exact hu

/-- A sub-filter whose window starts anew, `ref` the input-referred end of the one before and `rms` its RMS (R82). -/
def FrfSub.newWindow (d : FrfSub) (ref : Int) (rms : Nat) : FrfSub :=
  { d with windowRef := ref, peak := 0, sumSq := 0, clean := 0, dirty := false, rms := rms }

/-- The windows of a lane start anew at bin time w, the lane's sub-filters having been `subs` (R82). -/
def State.newWindows (s : State) (l w : Nat) (subs : List FrfSub) (coarse : Int) : State :=
  s.setLane l { s.lane l with
    windowAt := some w
    subs := (List.range subs.length).zip subs |>.map fun p => p.2.newWindow ((w : Int) - delta4 (s.delay l (s.activeBank l) p.1))
      (if p.2.clean = 0 then p.2.rms else (p.2.latch coarse).2.1) }

theorem State.windowEnd_of_due {s : State} {l c : Nat} (hon : s.frfOn = true)
    (hw : s.frf.nextBin % (2 ^ s.get (F.FRF_LANE_CTL.DET_WIN l) * 32 * s.d4 l) = 0)
    (hat : (s.lane l).windowAt ≠ some s.frf.nextBin) (hc : (s.lane l).chan = some c) :
    let w := s.frf.nextBin
    let coarse := (s.chan c).coarse w
    s.windowEnd l = (s.latchSubs l (s.split l) w (s.lane l).subs coarse).newWindows l w (s.lane l).subs coarse := by
  refine (if_neg ?_).trans ?_
  · simp [hon, hw, hat]
  · rw [hc]; rfl

/-! ### Switch instants (R79, R86–R89) -/

theorem State.lane_setLane_eq (s : State) (l j : Nat) (x : FrfLane) :
    (s.setLane l x).lane j = if l = j then x else s.lane j := by
  split
  · next h => rw [← h]; exact State.lane_setLane ..
  · next h => exact State.lane_setLane_ne _ _ h

theorem State.group_of_groups {s u : State} (h : u.groups = s.groups) (c : Nat) : u.group c = s.group c := by
  unfold State.group; rw [h]

@[simp] theorem State.applyStaged_groups (s : State) (l : List (Nat × Word)) : (s.applyStaged l).groups = s.groups :=
  (keeps_applyStaged l sub_refl keeps_refl).same_of_not_mem (p := .groups) (by decide)

/-- A pending commit that takes effect touches its own group alone. -/
theorem State.group_applyPending_ne (s : State) {c d : Nat} (h : c ≠ d) : (s.applyPending c).group d = s.group d := by
  unfold State.applyPending
  split
  · rfl
  · next l hl =>
    extract_lets _ s1
    have hs1 : s1.group d = s.group d := by
      rw [State.group_setGroup, if_neg h]
      exact State.group_of_groups (State.applyStaged_groups ..) d
    split
    · exact hs1
    · exact hs1

theorem State.lane_laneApplied_ne (s : State) {j l : Nat} (h : j ≠ l) (before : State) :
    (s.laneApplied j before).lane l = s.lane l := State.lane_setLane_ne _ _ h

theorem State.group_laneApplied (s : State) (j c : Nat) (before : State) : (s.laneApplied j before).group c = s.group c := rfl

/-- A lane commit that waits, taking effect on its lane, leaves the other lanes and their commits alone. -/
theorem State.laneSwitchApply_ne (s : State) {j l : Nat} (h : j ≠ l) :
    (s.laneSwitchApply j).lane l = s.lane l ∧
      (s.laneSwitchApply j).group (R.FRF_LANE_COMMIT l) = s.group (R.FRF_LANE_COMMIT l) := by
  have hc : R.FRF_LANE_COMMIT j ≠ R.FRF_LANE_COMMIT l := by unfold R.FRF_LANE_COMMIT; omega
  unfold State.laneSwitchApply
  split
  · exact ⟨rfl, rfl⟩
  · rw [State.lane_laneApplied_ne _ h, State.group_laneApplied, State.group_applyPending_ne _ hc]
    exact ⟨State.lane_of_frf (State.applyPending_frf ..) l, rfl⟩

/-- At a switch instant the commits that wait on lanes leave a lane alone that has none (R96). -/
theorem State.lane_each_laneSwitchApply {s : State} {l : Nat} (h : (s.group (R.FRF_LANE_COMMIT l)).pending = none) (ls : List Nat) :
    (s.each ls State.laneSwitchApply).lane l = s.lane l := by
  refine (State.each_keeps (P := fun u => u.lane l = s.lane l ∧ (u.group (R.FRF_LANE_COMMIT l)).pending = none)
    (fun u j hu => ?_) ⟨rfl, h⟩ ls).1
  obtain ⟨hlane, hnone⟩ := hu
  by_cases hj : j = l
  · have hid : u.laneSwitchApply j = u := if_pos (by rw [hj, hnone]; rfl)
    rw [hid]; exact ⟨hlane, hnone⟩
  · obtain ⟨hl, hg⟩ := u.laneSwitchApply_ne hj
    rw [hl, hg]; exact ⟨hlane, hnone⟩

/-- Lane l holds channel c, and none is due to it. -/
def State.Settled (s : State) (l : Nat) (c : Option Nat) : Prop := (s.lane l).chan = c ∧ (s.lane l).next = none

/-- Lane l takes channel c at the switch instant, or holds it. -/
def State.Takes (s : State) (l : Nat) (c : Option Nat) : Prop := (s.lane l).next = some c ∨ s.Settled l c

theorem State.Settled.of_lane {s u : State} {l : Nat} {c : Option Nat} (h : s.Settled l c) (hl : u.lane l = s.lane l) :
    u.Settled l c := by
  unfold State.Settled; rw [hl]; exact h

theorem State.Takes.of_lane {s u : State} {l : Nat} {c : Option Nat} (h : s.Takes l c) (hl : u.lane l = s.lane l) :
    u.Takes l c := by
  unfold State.Takes State.Settled; rw [hl]; exact h

/-- Of the lanes, the end of a fade and of a pending swap touches the fade of its own alone (R86). -/
theorem State.lane_settleBanks (s : State) (l j : Nat) :
    (s.settleBanks l).lane j = if l = j then { s.lane l with fade := none } else s.lane j := by
  unfold State.settleBanks
  simp only [State.lane_put]
  exact State.lane_setLane_eq ..

/-- A lane that starts new histories holds the channel given, and none is due to it (R86). -/
theorem State.settled_restartLane (s : State) (l w base : Nat) (c : Option Nat) : (s.restartLane l w base c).Settled l c := by
  unfold State.restartLane State.Settled
  simp

theorem State.lane_restartLane_ne (s : State) {l j : Nat} (h : l ≠ j) (w base : Nat) (c : Option Nat) :
    (s.restartLane l w base c).lane j = s.lane j := by
  unfold State.restartLane
  simp [State.lane_setLane_ne _ _ h, State.lane_settleBanks, h]

theorem State.lane_switchLane_ne (s : State) {j l : Nat} (h : j ≠ l) (w : Nat) : (s.switchLane j w).lane l = s.lane l := by
  unfold State.switchLane
  split
  · rfl
  · split
    · exact State.lane_setLane_ne _ _ h
    · exact State.lane_restartLane_ne _ h ..

/-- The switch of a lane gives it the channel it takes (R79). -/
theorem State.Takes.switchLane {s : State} {l : Nat} {c : Option Nat} (h : s.Takes l c) (w : Nat) :
    (s.switchLane l w).Settled l c := by
  unfold State.switchLane
  rcases h with hnext | hset
  · rw [hnext]
    dsimp only
    split
    · next hc => simp [State.Settled, hc]
    · exact s.settled_restartLane ..
  · rw [hset.2]; exact hset

/-- After the switches of the listed lanes, a listed lane holds the channel it takes. -/
theorem State.Takes.each_switchLane {s : State} {l : Nat} {c : Option Nat} (h : s.Takes l c) {ls : List Nat} (hl : l ∈ ls) (w : Nat) :
    (s.each ls fun s l => s.switchLane l w).Settled l c := by
  refine State.each_of_mem (P := fun u => u.Takes l c) (Q := fun u => u.Settled l c) hl (fun u j hu => ?_) (fun u j hu => ?_)
    (fun u hu => hu.switchLane w) h
  · by_cases hj : j = l
    · exact hj ▸ .inr ((hj ▸ hu : u.Takes j c).switchLane w)
    · exact hu.of_lane (u.lane_switchLane_ne hj w)
  · by_cases hj : j = l
    · exact hj ▸ State.Takes.switchLane (.inr (hj ▸ hu)) w
    · exact hu.of_lane (u.lane_switchLane_ne hj w)

/-- A lane restarted on the channel it holds leaves every lane on its channel. -/
theorem State.Settled.restartLane {s : State} {l : Nat} {c : Option Nat} (h : s.Settled l c) {j : Nat} {d : Option Nat}
    (hd : (s.lane j).chan = d) (w base : Nat) : (s.restartLane j w base d).Settled l c := by
  by_cases hj : j = l
  · have hdc : d = c := hd.symm.trans (hj ▸ h.1)
    rw [hj, hdc]; exact s.settled_restartLane ..
  · exact h.of_lane (s.lane_restartLane_ne hj ..)

/-- A synchronising reset restarts lanes on the channels they hold (R88). -/
theorem State.Settled.syncReset {s : State} {l : Nat} {c : Option Nat} (h : s.Settled l c) (scope target w : Nat) :
    (s.syncReset scope target w).Settled l c := by
  refine State.each_keeps (P := fun u => u.Settled l c) (fun u j hu => ?_) ?_ _
  · dsimp only
    split
    · split
      · exact hu.restartLane rfl ..
      · exact hu
    · split
      · next hn =>
        split
        · exact hu.restartLane hn ..
        · exact hu
      · next d hd =>
        split
        · exact hu.restartLane hd ..
        · exact hu
  · split
    · exact h
    · exact h

/-- The reset that FRF_SYNC requested, once its instant has come (R87). -/
def State.requestedReset (s : State) (w : Nat) : State :=
  match s.frf.sync with
  | some (scope, target, at') =>
    if at' ≤ w then
      let u := (s.syncReset scope target w).put F.FRF_SYNC.PENDING 0
      { u with frf := { u.frf with sync := none } }
    else s
  | none => s

theorem State.Settled.requestedReset {s : State} {l : Nat} {c : Option Nat} (h : s.Settled l c) (w : Nat) :
    (s.requestedReset w).Settled l c := by
  unfold State.requestedReset
  split
  · split
    · exact (h.syncReset ..).of_lane (State.lane_put ..)
    · exact h
  · exact h

/-- The commits that wait for the switch instant w take effect, and the lanes take their channels (R79, R96). -/
def State.switchLanes (s : State) (w : Nat) : State :=
  let s := s.each (List.range 256) State.laneSwitchApply
  s.each s.lanesListed fun s l => s.switchLane l w

/-- The resets due at the switch instant w: the first, those of newly opened streams, the requested one (R87, R89). -/
def State.switchResets (s : State) (w : Nat) : State :=
  let s := if s.frf.firstReset then s.syncReset 0 0 w else s
  (s.each s.frf.openResets fun s i => s.syncReset 1 i w).requestedReset w

/-- The switch instant w is marked as done. -/
def State.markSwitch (s : State) (w : Nat) : State :=
  { s with frf := { s.frf with switchedAt := some w, firstReset := false, openResets := [] } }

theorem State.frfSwitchInstant_of_due {s : State} (hon : s.frfOn = true) (h128 : s.frf.nextBin % 128 = 0)
    (hat : s.frf.switchedAt ≠ some s.frf.nextBin) :
    let w := s.frf.nextBin
    s.frfSwitchInstant = (((s.atBin w).switchLanes w).switchResets w).markSwitch w := by
  unfold State.frfSwitchInstant State.switchLanes
  refine (if_neg (by simp [hon, h128, hat])).trans ?_
  generalize List.range 256 = ls
  rfl

theorem State.time_markSwitch (s : State) (w : Nat) : (s.markSwitch w).time = s.time := rfl

theorem State.lane_markSwitch (s : State) (w l : Nat) : (s.markSwitch w).lane l = s.lane l := rfl

theorem State.Settled.switchResets {s : State} {l : Nat} {c : Option Nat} (h : s.Settled l c) (w : Nat) :
    (s.switchResets w).Settled l c := by
  refine State.Settled.requestedReset (State.each_keeps (P := fun u => u.Settled l c) (fun u i hu => hu.syncReset ..) ?_ _) w
  split
  · exact h.syncReset ..
  · exact h

/-- A lane to which a channel is due holds it after the switches, when no commit of its own waits (R79). -/
theorem State.settled_switchLanes {s : State} {l : Nat} {c : Option Nat} (hcommit : (s.group (R.FRF_LANE_COMMIT l)).pending = none)
    (hnext : (s.lane l).next = some c) (w : Nat) : (s.switchLanes w).Settled l c := by
  have hdue : ((s.each (List.range 256) State.laneSwitchApply).lane l).next = some c := by
    rw [State.lane_each_laneSwitchApply hcommit]; exact hnext
  exact State.Takes.each_switchLane (.inl hdue) (State.mem_lanesListed_of_next hdue) w

theorem State.time_requestedReset (s : State) (w : Nat) : (s.requestedReset w).time = s.time := by
  unfold State.requestedReset
  split
  · split
    · exact (keeps_syncReset _ _ w sub_refl keeps_refl).same_of_not_mem (p := .time) (by decide)
    · rfl
  · rfl

theorem State.time_switchLanes (s : State) (w : Nat) : (s.switchLanes w).time = s.time := by
  have happly : Keeps (parts [.regs, .shadow, .groups, .frf]) s (s.each (List.range 256) State.laneSwitchApply) :=
    keeps_each keeps_refl fun _ l h => keeps_laneSwitchApply l sub_refl h
  exact (keeps_each happly fun _ l h => keeps_switchLane l w rfl h).same_of_not_mem (p := .time) (by decide)

theorem State.time_switchResets (s : State) (w : Nat) : (s.switchResets w).time = s.time := by
  have hfirst : Keeps (parts [.regs, .frf]) s (if s.frf.firstReset then s.syncReset 0 0 w else s) :=
    keeps_ite (keeps_syncReset 0 0 w sub_refl keeps_refl) keeps_refl
  refine (State.time_requestedReset ..).trans ?_
  exact (keeps_each hfirst fun _ i h => keeps_syncReset 1 i w sub_refl h).same_of_not_mem (p := .time) (by decide)

/-! ### Dwell boundaries (R80, R96) -/

theorem State.frfGlbApply_of_none {s : State} (h : (s.group R.FRF_GLB_COMMIT).pending = none) : s.frfGlbApply = s := by
  have hid : s.applyPending R.FRF_GLB_COMMIT = s := by unfold State.applyPending; rw [h]
  unfold State.frfGlbApply
  rw [hid]
  exact if_neg (by simp)

/-- A write to FRF_STAT moves no region of memory. -/
theorem State.regions_put_stat (s : State) {f : Fld} (hf : f.addr = R.FRF_STAT) (v : Nat) : (s.put f v).regions = s.regions := by
  have hbase : ∀ r, (s.put f v).reg (R.MEM_RGN_BASE r) = s.reg (R.MEM_RGN_BASE r) := fun r => by
    rw [State.reg_put, if_neg]
    rw [hf]; unfold R.FRF_STAT R.MEM_RGN_BASE; omega
  have hcfg : ∀ r, (s.put f v).reg (R.MEM_RGN_CFG r) = s.reg (R.MEM_RGN_CFG r) := fun r => by
    rw [State.reg_put, if_neg]
    rw [hf]; unfold R.FRF_STAT R.MEM_RGN_CFG; omega
  have hen : ∀ r, (s.put f v).flag (F.MEM_RGN_CFG.ENABLE r) = s.flag (F.MEM_RGN_CFG.ENABLE r) := fun r => by
    unfold State.flag State.get
    rw [show (F.MEM_RGN_CFG.ENABLE r).addr = R.MEM_RGN_CFG r from rfl, hcfg]
  simp only [State.regions, hbase, hcfg, hen]

theorem State.regionAt_put_stat (s : State) {f : Fld} (hf : f.addr = R.FRF_STAT) (v a : Nat) :
    (s.put f v).regionAt a = s.regionAt a := by
  unfold State.regionAt; rw [State.regions_put_stat _ hf]

/-- The rotation table reads the same after a write to FRF_STAT. -/
theorem State.rotEntry_put_stat (s : State) {f : Fld} (hf : f.addr = R.FRF_STAT) (v i : Nat) :
    (s.put f v).rotEntry i = s.rotEntry i := by
  have haddr : (s.put f v).get F.FRF_ROT.ADDR = s.get F.FRF_ROT.ADDR :=
    State.get_put_ne _ _ _ _ (by rw [hf]; decide)
  simp only [State.rotEntry, State.dramNat, State.dramRead, State.regionAt_put_stat _ hf, State.put_mem, haddr]

/-- What a rotating lane of rank j takes from the table (R80). -/
def State.rotTakes (s : State) (len cursor j : Nat) : Option Nat :=
  if j < len ∧ s.rotEntry ((cursor + j) % len) < 8704 then some (s.rotEntry ((cursor + j) % len)) else none

/-- Two states agree on the engine's own state and on what the rotation table reads as. -/
def SameRotation (s u : State) : Prop := u.frf = s.frf ∧ ∀ i, u.rotEntry i = s.rotEntry i

/-- The first of the rotating lanes takes what its rank gives it, with at most ROT_BAD set beside it (R80). -/
theorem State.rotate_cons (s : State) (len cursor l : Nat) (ls : List Nat) (j : Nat) : ∃ v, SameRotation s v ∧
    s.rotate len cursor (l :: ls) j =
      (v.setLane l { s.lane l with next := some (s.rotTakes len cursor j) }).rotate len cursor ls (j + 1) := by
  unfold State.rotTakes
  rw [State.rotate]
  by_cases hj : j < len
  · by_cases hc : s.rotEntry ((cursor + j) % len) < 8704
    · exact ⟨s, ⟨rfl, fun _ => rfl⟩, by simp only [hj, hc, and_self, if_true]⟩
    · exact ⟨s.put F.FRF_STAT.ROT_BAD 1, ⟨rfl, fun i => s.rotEntry_put_stat rfl 1 i⟩,
        by simp only [hj, hc, and_false, if_true, if_false]⟩
  · exact ⟨s, ⟨rfl, fun _ => rfl⟩, by simp only [hj, false_and, if_false]⟩

theorem State.cursor_rotate (s : State) (len cursor : Nat) (ls : List Nat) (j : Nat) :
    (s.rotate len cursor ls j).frf.cursor = s.frf.cursor := by
  induction ls generalizing s j with
  | nil => rfl
  | cons l ls ih =>
    obtain ⟨v, ⟨hfrf, -⟩, hrot⟩ := s.rotate_cons len cursor l ls j
    rw [hrot, ih, State.frf_setLane, hfrf]

theorem State.lane_rotate_of_not_mem (s : State) {ls : List Nat} {l : Nat} (hl : l ∉ ls) (len cursor j : Nat) :
    (s.rotate len cursor ls j).lane l = s.lane l := by
  induction ls generalizing s j with
  | nil => rfl
  | cons k ls ih =>
    obtain ⟨v, ⟨hfrf, -⟩, hrot⟩ := s.rotate_cons len cursor k ls j
    obtain ⟨hk, hls⟩ := not_or.1 (mt List.mem_cons.2 hl)
    rw [hrot, ih _ hls, State.lane_setLane_ne _ _ (Ne.symm hk), State.lane_of_frf hfrf]

/-- The rotating lane of rank i takes the entry of its rank (R80). -/
theorem State.next_rotate (s : State) {ls : List Nat} (hnd : ls.Nodup) {i l : Nat} (hl : ls[i]? = some l) (len cursor j : Nat) :
    ((s.rotate len cursor ls j).lane l).next = some (s.rotTakes len cursor (j + i)) := by
  induction ls generalizing s i j with
  | nil => simp at hl
  | cons k ls ih =>
    obtain ⟨v, ⟨hfrf, hentry⟩, hrot⟩ := s.rotate_cons len cursor k ls j
    obtain ⟨hk, hls⟩ := List.nodup_cons.1 hnd
    rw [hrot]
    cases i with
    | zero =>
      obtain rfl : k = l := by simpa using hl
      rw [State.lane_rotate_of_not_mem _ hk, State.lane_setLane]; rfl
    | succ i =>
      have hsame : ∀ x, (v.setLane k x).rotTakes len cursor (j + (i + 1)) = s.rotTakes len cursor (j + (i + 1)) := fun x => by
        have hx : ∀ n, (v.setLane k x).rotEntry n = s.rotEntry n := hentry
        simp only [State.rotTakes, hx]
      rw [ih _ hls (by simpa using hl), Nat.add_right_comm, Nat.add_assoc, hsame]

/-- The dwell boundary at bin time w, at which m lanes rotate over a table of length len, is done (R80). -/
def State.markDwell (s : State) (w len m : Nat) : State :=
  { s with frf := { s.frf with cursor := if len = 0 then 0 else (s.frf.cursor + min m len) % len, dwellAt := some w } }

theorem State.frfDwellBoundary_of_due {s : State} (hon : s.frfOn = true) (hw : s.frf.nextBin % s.dwellUs = 0)
    (hat : s.frf.dwellAt ≠ some s.frf.nextBin) (hnone : (s.group R.FRF_GLB_COMMIT).pending = none) :
    let w := s.frf.nextBin
    let len := s.get F.FRF_ROT.LEN
    s.frfDwellBoundary = ((s.atBin w).rotate len s.frf.cursor s.rotating 0).markDwell w len s.rotating.length := by
  unfold State.frfDwellBoundary
  refine (if_neg (by simp [hon, hw, hat])).trans ?_
  rw [State.frfGlbApply_of_none (s := s.atBin s.frf.nextBin) hnone]
  rfl

theorem State.nodup_rotating (s : State) : s.rotating.Nodup := List.nodup_range.filter _

/-! ### Banks (R83–R85) -/

theorem bit_mod_two (b : Bool) : bit b % 2 = bit b := by cases b <;> rfl

/-- A one-bit field just written reads as the written value's low bit. -/
theorem State.get_put_bit (s : State) (a v : Nat) {i : Nat} (h : i < 64) : (s.put ⟨a, i, i⟩ v).get ⟨a, i, i⟩ = v % 2 := by
  rw [State.get_put _ _ _ (Nat.le_refl i) h, Nat.sub_self, Nat.zero_add, Nat.pow_one]

/-- A write of a one-bit field leaves the other one-bit fields of its register. -/
theorem State.get_put_bit_apart (s : State) (a v : Nat) {i j : Nat} (h : i < 64) (h' : j < 64) (hij : i ≠ j) :
    (s.put ⟨a, i, i⟩ v).get ⟨a, j, j⟩ = s.get ⟨a, j, j⟩ :=
  State.get_put_apart _ _ _ _ (Nat.le_refl i) h (Nat.le_refl j) h' (Nat.lt_or_gt_of_ne hij)

section
variable {s : State} {l : Nat} {val : Word} (hreq : (F.FRF_LANE_SWAP.REQ l).of val = 1)
include hreq

/-- A swap request to the bank that is not active starts a fade (R84). -/
theorem State.frfLaneSwap_of_idle (hfade : (s.lane l).fade = none)
    (htarget : decide ((F.FRF_LANE_SWAP.TARGET l).of val ≠ 0) ≠ s.activeBank l) : s.frfLaneSwap l val =
      (s.setLane l { s.lane l with fade := some (decide ((F.FRF_LANE_SWAP.TARGET l).of val ≠ 0), 0) }).put
        (F.FRF_LANE_STAT.FADING l) 1 := by
  have hne : ¬((F.FRF_LANE_SWAP.TARGET l).of val ≠ 0) = (s.activeBank l = true) := fun h =>
    htarget (Bool.eq_iff_iff.2 (decide_eq_true_iff.trans (iff_of_eq h)))
  unfold State.frfLaneSwap
  dsimp only
  rw [if_neg (by rw [hreq]; decide), hfade]
  exact if_neg hne

/-- A swap request while a fade runs becomes pending (R84). -/
theorem State.frfLaneSwap_of_fading {f : Bool × Nat} (hfade : (s.lane l).fade = some f) : s.frfLaneSwap l val =
    (s.put (F.FRF_LANE_STAT.PENDING l) 1).put (F.FRF_LANE_STAT.PEND_TARGET l) (bit ((F.FRF_LANE_SWAP.TARGET l).of val ≠ 0)) := by
  unfold State.frfLaneSwap
  dsimp only
  rw [if_neg (by rw [hreq]; decide), hfade]

end

/-- A fade that has given its outputs, with no swap pending, makes its bank the active one (R84, R85). -/
theorem State.fadeEnd_of_given {s : State} {l i : Nat} {b : Bool} (hfade : (s.lane l).fade = some (b, i)) (hi : s.fadeLen l ≤ i)
    (hpend : s.flag (F.FRF_LANE_STAT.PENDING l) = false) : s.fadeEnd l =
      ((((s.setLane l { s.lane l with fade := none }).put (F.FRF_LANE_STAT.ACTIVE l) (bit b)).put (F.FRF_LANE_STAT.FADING l) 0).put
        (F.FRF_LANE_STAT.PENDING l) 0).put (F.FRF_LANE_STAT.PEND_TARGET l) 0 := by
  unfold State.fadeEnd
  dsimp only
  rw [hfade]
  refine (if_neg (Nat.not_lt.2 hi)).trans ?_
  rw [hpend]
  rfl

/-- A lane with slot i of one of its banks holding a coefficient (R83). -/
def FrfLane.withCoef (x : FrfLane) (b : Bool) (i : Nat) (c : Int) : FrfLane :=
  if b then { x with coefB := tabSet 0 x.coefB i c } else { x with coefA := tabSet 0 x.coefA i c }

theorem FrfLane.coef_withCoef (x : FrfLane) (b : Bool) (i : Nat) (c : Int) :
    tabGet 0 (if b then (x.withCoef b i c).coefB else (x.withCoef b i c).coefA) i = c := by
  cases b <;> exact (tabGet_set ..).trans (if_pos rfl)

theorem State.get_setReg_ne (s : State) {a : Nat} {f : Fld} (h : a ≠ f.addr) (w : Word) : (s.setReg a w).get f = s.get f := by
  unfold State.get; rw [State.reg_setReg_ne _ _ h]

/-- Which banks are busy does not turn on the coefficient port. -/
theorem State.bankBusy_setReg_data (s : State) (w : Word) (l : Nat) (b : Bool) :
    (s.setReg R.FRF_COEF_DATA w).bankBusy l b = s.bankBusy l b := by
  have hact : (s.setReg R.FRF_COEF_DATA w).activeBank l = s.activeBank l := by
    have haddr : R.FRF_COEF_DATA ≠ (F.FRF_LANE_STAT.ACTIVE l).addr := by
      simp only [R.FRF_COEF_DATA, F.FRF_LANE_STAT.ACTIVE, R.FRF_LANE_STAT]; omega
    unfold State.activeBank State.flag
    rw [State.get_setReg_ne _ haddr]
  unfold State.bankBusy
  rw [hact]; rfl

/-- A coefficient lands in slot i of a bank (R83). -/
def State.putCoef (s : State) (l : Nat) (b : Bool) (i : Nat) (c : Int) : State := s.setLane l ((s.lane l).withCoef b i c)

/-- The index of the coefficient port moves on from i with AUTOINC. -/
def State.advanceCoef (s : State) (i : Nat) : State :=
  if s.flag F.FRF_COEF_ADDR.AUTOINC then s.put F.FRF_COEF_ADDR.INDEX ((i + 1) % 128) else s

theorem State.frfCoefData_eq (s : State) (val : Word) : s.frfCoefData val =
    let l := s.get F.FRF_COEF_ADDR.LANE
    let b := s.flag F.FRF_COEF_ADDR.BANK
    let i := s.get F.FRF_COEF_ADDR.INDEX
    let u := s.setReg R.FRF_COEF_DATA (val &&& maskOf 17 0)
    State.advanceCoef (if u.bankBusy l b then u.put (F.FRF_LANE_STAT.BANK_BUSY l) 1
      else u.putCoef l b i (toSigned 18 (F.FRF_COEF_DATA.COEF.of val))) i := rfl

section
variable {s : State} {l i : Nat} {b : Bool} (hl : s.get F.FRF_COEF_ADDR.LANE = l) (hb : s.flag F.FRF_COEF_ADDR.BANK = b)
  (hi : s.get F.FRF_COEF_ADDR.INDEX = i) (hidle : s.bankBusy l b = false)
include hl hb hi hidle

theorem State.frfCoefData_of_idle (val : Word) : s.frfCoefData val =
    ((s.setReg R.FRF_COEF_DATA (val &&& maskOf 17 0)).putCoef l b i (toSigned 18 (F.FRF_COEF_DATA.COEF.of val))).advanceCoef i := by
  rw [State.frfCoefData_eq, hl, hb, hi]
  dsimp only
  rw [State.bankBusy_setReg_data, hidle]
  rfl

/-- A coefficient for an idle bank lands in it (R83). -/
theorem State.coef_frfCoefData (val : Word) :
    tabGet 0 (if b then ((s.frfCoefData val).lane l).coefB else ((s.frfCoefData val).lane l).coefA) i =
      toSigned 18 (F.FRF_COEF_DATA.COEF.of val) := by
  have hlane (u : State) : (u.advanceCoef i).lane l = u.lane l := by
    unfold State.advanceCoef
    split
    · exact State.lane_put ..
    · rfl
  rw [State.frfCoefData_of_idle hl hb hi hidle, hlane, State.putCoef, State.lane_setLane]
  exact FrfLane.coef_withCoef ..

/-- The index of the coefficient port advances with AUTOINC (R83). -/
theorem State.index_frfCoefData (val : Word) : (s.frfCoefData val).get F.FRF_COEF_ADDR.INDEX =
    if s.flag F.FRF_COEF_ADDR.AUTOINC then (i + 1) % 128 else i := by
  rw [State.frfCoefData_of_idle hl hb hi hidle]
  generalize hu : (s.setReg R.FRF_COEF_DATA (val &&& maskOf 17 0)).putCoef l b i (toSigned 18 (F.FRF_COEF_DATA.COEF.of val)) = u
  have hget (f : Fld) (hf : R.FRF_COEF_DATA ≠ f.addr) : u.get f = s.get f := by
    rw [← hu]; exact State.get_setReg_ne s hf _
  have hauto : u.flag F.FRF_COEF_ADDR.AUTOINC = s.flag F.FRF_COEF_ADDR.AUTOINC := by
    unfold State.flag; rw [hget _ (by decide)]
  unfold State.advanceCoef
  rw [hauto]
  split
  · rw [State.get_put _ _ _ (by decide) (by decide)]
    exact Nat.mod_mod ..
  · rw [hget _ (by decide), hi]

end

/-- A field that starts at bit 0, read from a number. -/
theorem getBits_ofNat_low (n : Nat) {hi : Nat} (h : hi < 64) : getBits (BitVec.ofNat 64 n) hi 0 = n % 2 ^ (hi + 1) := by
  refine Nat.eq_of_testBit_eq fun i => ?_
  rw [testBit_getBits _ h, Nat.testBit_mod_two_pow, BitVec.getLsbD_ofNat, Nat.zero_add, Nat.sub_zero]
  by_cases hi' : i < hi + 1
  · have : i < 64 := by omega
    simp [hi', this]
  · simp [hi']

/-! ### Synchronising resets (R87) -/

/-- The fields of FRF_SYNC that a write to it moves (R87). -/
def State.syncFields (s : State) (v : Word) : State :=
  let s := ((s.put F.FRF_SYNC.SCOPE (F.FRF_SYNC.SCOPE.of v)).put F.FRF_SYNC.TARGET (F.FRF_SYNC.TARGET.of v)).put F.FRF_SYNC.TIMED
    (F.FRF_SYNC.TIMED.of v)
  if F.FRF_SYNC.LATE.of v = 1 then s.put F.FRF_SYNC.LATE 0 else s

theorem State.syncFields_frf (s : State) (v : Word) : (s.syncFields v).frf = s.frf := by
  unfold State.syncFields
  dsimp only
  split
  · rfl
  · rfl

/-- A reset waits for its instant, and PENDING shows it (R87). -/
def State.awaitReset (s : State) (scope target at' : Nat) : State :=
  let s := s.put F.FRF_SYNC.PENDING 1
  { s with frf := { s.frf with sync := some (scope, target, at') } }

theorem State.get_pending_awaitReset (s : State) (scope target at' : Nat) :
    (s.awaitReset scope target at').get F.FRF_SYNC.PENDING = 1 := State.get_put_bit _ _ 1 (by decide)

theorem State.frfSync_eq (s : State) (v : Word) : s.frfSync v =
    let u := s.syncFields v
    if F.FRF_SYNC.REQ.of v = 0 || F.FRF_SYNC.SCOPE.of v = 3 then u
    else
      let want := if F.FRF_SYNC.TIMED.of v = 1 then ceilDiv (u.get F.FRF_SYNC_TIME.TIME) 128000 * 128 else u.nextSwitch
      State.awaitReset (if F.FRF_SYNC.TIMED.of v = 1 && want < u.nextSwitch then u.put F.FRF_SYNC.LATE 1 else u)
        (F.FRF_SYNC.SCOPE.of v) (F.FRF_SYNC.TARGET.of v) (max want u.nextSwitch) := rfl

/-- An untimed request for a reset waits for the next switch instant (R87). -/
theorem State.frfSync_of_untimed {s : State} {v : Word} (hreq : F.FRF_SYNC.REQ.of v = 1) (hscope : F.FRF_SYNC.SCOPE.of v < 3)
    (htimed : F.FRF_SYNC.TIMED.of v = 0) :
    s.frfSync v = (s.syncFields v).awaitReset (F.FRF_SYNC.SCOPE.of v) (F.FRF_SYNC.TARGET.of v) s.nextSwitch := by
  have hnext : (s.syncFields v).nextSwitch = s.nextSwitch := by unfold State.nextSwitch; rw [State.syncFields_frf]
  rw [State.frfSync_eq]
  simp [hreq, Nat.ne_of_lt hscope, htimed, hnext]

/-! ### Flicker reports (R95) -/

@[simp] theorem State.pushRun_frf (s : State) (r : Nat) (run : Run) : (s.pushRun r run).frf = s.frf :=
  (keeps_pushRun r run sub_refl keeps_refl).same_of_not_mem (p := .frf) (by decide)

/-- A report changes the engine's report sequence alone. -/
theorem State.frf_flickerReport (s : State) (reason chan lane : Nat) (f : Option Fold) (active lock : Bool) :
    ∃ n, (s.flickerReport reason chan lane f active lock).frf = { s.frf with reports := n } := by
  unfold State.flickerReport
  split
  · exact ⟨s.frf.reports, rfl⟩
  · extract_lets r body ent
    split
    · exact ⟨s.frf.reports + 1, by dsimp only; rw [State.pushRun_frf]⟩
    · exact ⟨s.frf.reports, rfl⟩

section
variable (s : State) (reason e lane : Nat) (f : Option Fold) (before after : Mask)

theorem State.frf_maskReport : ∃ n, (s.maskReport reason e lane f before after).frf = { s.frf with reports := n } := by
  unfold State.maskReport
  split
  · exact s.frf_flickerReport ..
  · exact ⟨s.frf.reports, rfl⟩

@[simp] theorem State.time_maskReport : (s.maskReport reason e lane f before after).time = s.time :=
  (keeps_maskReport reason e lane f before after sub_refl keeps_refl).same_of_not_mem (p := .time) (by decide)

@[simp] theorem State.mask_maskReport (d : Nat) : (s.maskReport reason e lane f before after).mask d = s.mask d := by
  obtain ⟨n, hn⟩ := s.frf_maskReport reason e lane f before after
  unfold State.mask; rw [hn]

@[simp] theorem State.decisions_maskReport : (s.maskReport reason e lane f before after).frf.decisions = s.frf.decisions := by
  obtain ⟨n, hn⟩ := s.frf_maskReport reason e lane f before after
  rw [hn]

end

/-! ### Folds (R90, R91) -/

/-- The fold of a lane starts anew after its decision at bin time w (R90). -/
def State.restartFold (s : State) (l w : Nat) : State :=
  s.setLane l { s.lane l with sums := [], counts := [], foldAt := some w }

/-- A decision waits for the mask table (R92). -/
def State.addDecision (s : State) (f : Fold) : State := { s with frf := { s.frf with decisions := s.frf.decisions ++ [f] } }

/-- The report of a decision on lane l, when the lane reports (R95). -/
def State.reportDecision (s : State) (l : Nat) (f : Fold) : State :=
  let j := f.chan % 68
  let m := s.maskNow (64 * (f.chan / 68) + j)
  let act := if j < 64 then (if m.lock then m.active else f.outcome = .flicker) else false
  if s.flag (F.FRF_LANE_CTL.REPORT l) then s.flickerReport 1 f.chan l (some f) act (decide (j < 64) && m.lock) else s

theorem State.frf_reportDecision (s : State) (l : Nat) (f : Fold) : ∃ n, (s.reportDecision l f).frf = { s.frf with reports := n } := by
  unfold State.reportDecision
  dsimp only
  split
  · exact s.frf_flickerReport ..
  · exact ⟨s.frf.reports, rfl⟩

theorem State.foldDecision_of_due {s : State} {l c : Nat} (hon : s.frfOn = true) (hw : s.frf.nextBin % s.dwellUs = 0)
    (hat : (s.lane l).foldAt ≠ some s.frf.nextBin) (hc : (s.lane l).chan = some c)
    (hp : s.get (F.FRF_LANE_FOLD.PERIOD_NS l) ≠ 0) :
    let w := s.frf.nextBin
    let u := (s.atBin w).restartFold l w
    let f := s.decideFold l w
    s.foldDecision l = if f.outcome = .noDecision then u else (u.addDecision f).reportDecision l f :=
  (if_neg (by simp [hon, hw, hat, hc, hp])).trans rfl

/-- Of the engine's state, the decision of a fold restarts the lane's fold and joins the waiting decisions unless it is
NO_DECISION; a report may follow. -/
theorem State.frf_foldDecision {s : State} {l c : Nat} (hon : s.frfOn = true) (hw : s.frf.nextBin % s.dwellUs = 0)
    (hat : (s.lane l).foldAt ≠ some s.frf.nextBin) (hc : (s.lane l).chan = some c)
    (hp : s.get (F.FRF_LANE_FOLD.PERIOD_NS l) ≠ 0) :
    let f := s.decideFold l s.frf.nextBin
    ∃ n, (s.foldDecision l).frf = { (s.restartFold l s.frf.nextBin).frf with
      decisions := if f.outcome = .noDecision then s.frf.decisions else s.frf.decisions ++ [f], reports := n } := by
  rw [State.foldDecision_of_due hon hw hat hc hp]
  dsimp only
  split
  · exact ⟨s.frf.reports, rfl⟩
  · obtain ⟨n, hn⟩ := (((s.atBin s.frf.nextBin).restartFold l s.frf.nextBin).addDecision
      (s.decideFold l s.frf.nextBin)).frf_reportDecision l (s.decideFold l s.frf.nextBin)
    exact ⟨n, hn⟩

/-! ### The mask table (R92–R94) -/

/-- An entry written now applies from the next slice boundary of its stream (R93). -/
theorem State.mask_writeMask (s : State) (e : Nat) (m : Mask) : ∃ olds, (s.writeMask e m).mask e =
    ⟨olds, (s.time / s.sliceNs (e / 64) + 1) * s.sliceNs (e / 64), m, false⟩ := by
  unfold State.writeMask State.mask tabGet
  dsimp only
  rw [tabFind_insert_self]
  exact ⟨_, rfl⟩

/-- The entry written is the one that stands, whatever is reported of it. -/
theorem State.cur_maskReport_writeMask (s : State) (reason e lane : Nat) (f : Option Fold) (before after m : Mask) :
    (((s.writeMask e m).maskReport reason e lane f before after).mask e).cur = m := by
  obtain ⟨olds, hmask⟩ := s.mask_writeMask e m
  rw [State.mask_maskReport, hmask]

@[simp] theorem State.time_writeMask (s : State) (e : Nat) (m : Mask) : (s.writeMask e m).time = s.time := rfl

@[simp] theorem State.decisions_writeMask (s : State) (e : Nat) (m : Mask) :
    (s.writeMask e m).frf.decisions = s.frf.decisions := rfl

/-- A decision leaves the list of those that wait. -/
def State.dropDecision (s : State) (f : Fold) : State := { s with frf := { s.frf with decisions := s.frf.decisions.erase f } }

/-- The first waiting decision, on a tile channel, rewrites its entry unless that is locked (R92). -/
theorem State.frfMaskUpdate_of_first {s : State} {f : Fold} (hf : firstDecision s.frf.decisions = some f)
    (htile : f.chan % 68 < 64) {e : Nat} (he : 64 * (f.chan / 68) + f.chan % 68 = e) (hlock : (s.maskNow e).lock = false) :
    let u := (s.atBin f.at').dropDecision f
    let m := (s.maskNow e).decide f u.time
    s.frfMaskUpdate = (u.writeMask e m).maskReport (if m.active then 2 else 3) e f.lane (some f) (s.maskNow e) m := by
  subst he
  unfold State.frfMaskUpdate
  rw [hf]
  exact (if_neg (Nat.not_le.2 htile)).trans ((if_neg (Bool.eq_false_iff.1 hlock)).trans rfl)

/-- An entry not yet in effect comes into effect at its boundary (R93). -/
theorem State.frfMaskTakeEffect_of_waiting {s : State} {e : Nat} (h : (s.mask e).applied = false) :
    (s.frfMaskTakeEffect e).mask e = { s.mask e with applied := true } ∧
      (s.frfMaskTakeEffect e).time = max s.time (s.mask e).from' := by
  have hend : s.frfMaskTakeEffect e = _ := if_neg (Bool.eq_false_iff.1 h)
  rw [hend]
  refine ⟨?_, rfl⟩
  simp [State.mask, tabGet]

/-- An unlocked active entry goes inactive when its TTL has passed (R92). -/
theorem State.frfMaskExpiry_of_active {s : State} {e : Nat} (hact : (s.maskNow e).active = true)
    (hlock : (s.maskNow e).lock = false) :
    let m := s.maskNow e
    let m' := { m with active := false }
    s.frfMaskExpiry e = ((s.at (m.age + 1000000000 * s.get F.FRF_MASK_CTL.TTL)).writeMask e m').maskReport 4 e 0xFFFF none m m' :=
  (if_neg (by simp [hact, hlock])).trans rfl

section
variable {s : State} {val : Word} {p ph w : Nat} (hp : s.get F.FRF_MASK_DATA0.PERIOD = p)
  (hph : s.get F.FRF_MASK_DATA0.PHASE = ph) (hw : F.FRF_MASK_DATA1.WIDTH.of val = w)
include hp hph hw

/-- A period, phase or width out of range is refused (R94). -/
theorem State.frfMaskData1_of_bad (h : p < 1000000 ∨ 50000000 < p ∨ p ≤ ph ∨ p ≤ w) : s.frfMaskData1 val =
    (s.setReg R.FRF_MASK_DATA1 (val &&& (maskOf 63 62 ||| maskOf 31 0))).put F.FRF_STAT.MASK_BAD 1 := by
  subst hp hph hw
  exact if_pos (by simpa [or_assoc] using h)

/-- A period, phase and width in range are written to the selected entry (R94). -/
theorem State.frfMaskData1_of_good {e : Nat} (he : s.get F.FRF_MASK_SEL.ENTRY = e) (hlo : 1000000 ≤ p) (hhi : p ≤ 50000000)
    (hphase : ph < p) (hwidth : w < p) :
    let m : Mask := ⟨F.FRF_MASK_DATA1.ACTIVE.of val ≠ 0, F.FRF_MASK_DATA1.LOCK.of val ≠ 0, p, ph, w, s.time⟩
    s.frfMaskData1 val = ((s.setReg R.FRF_MASK_DATA1 (val &&& (maskOf 63 62 ||| maskOf 31 0))).writeMask e m).maskReport
      (if m.active then 2 else 3) e 0xFFFF none (s.maskNow e) m := by
  subst hp hph hw he
  exact if_neg (by simp; omega)

end

end Machine

open Machine

/-- Settles O8: a bin pass goes through the channels as `frfBinPass_of_on` says; a window end latches each sub-filter
(`get_latchSubs`) and starts the windows of the lane anew. -/
theorem frfBinsAndWindows : Obligations.FrfBinsAndWindows := by
  refine ⟨fun s hon => ⟨_, rfl, State.frfBinPass_of_on hon⟩, ?_⟩
  intro s l c hon hw hat hc
  refine ⟨_, congrArg Host.Outcome.next (State.windowEnd_of_due hon hw hat hc), ?_, ?_, fun k hk _ => ?_⟩
  · simp [State.newWindows]
  · intro d hd
    simp only [State.newWindows, State.lane_setLane] at hd
    obtain ⟨p, -, rfl⟩ := List.mem_map.1 hd
    exact ⟨rfl, rfl, rfl, rfl⟩
  · exact State.get_latchSubs _ _ hk ..

/-- Settles O9: the switches settle each lane to which a channel is due (`settled_switchLanes`) and the resets leave it settled;
the rotation gives each lane the entry of its rank (`next_rotate`). -/
theorem frfSwitches : Obligations.FrfSwitches := by
  refine ⟨?_, ?_⟩
  · intro s hon h128 hat
    refine ⟨_, congrArg Host.Outcome.next (State.frfSwitchInstant_of_due hon h128 hat), rfl, rfl, rfl, ?_, ?_⟩
    · rw [State.time_markSwitch, State.time_switchResets, State.time_switchLanes, State.atBin_time]
    · intro l _ c hcommit hnext
      have hset := (State.settled_switchLanes (s := s.atBin s.frf.nextBin) hcommit hnext s.frf.nextBin).switchResets s.frf.nextBin
      exact hset.of_lane (State.lane_markSwitch ..)
  · intro s hon hw hat hnone
    refine ⟨_, congrArg Host.Outcome.next (State.frfDwellBoundary_of_due hon hw hat hnone), rfl, ?_, fun j l hl => ?_⟩
    · simp only [State.markDwell, State.cursor_rotate]; rfl
    · have hnext := (s.atBin s.frf.nextBin).next_rotate s.nodup_rotating hl (s.get F.FRF_ROT.LEN) s.frf.cursor 0
      rw [Nat.zero_add] at hnext
      exact hnext

/-- Settles O10, each write and the end of a fade by the lemma that says what it does in the case the statement names.  That
FADING shows from the request on, and a second request is pending already then, is the model's choice (log entry 79). -/
theorem frfBanks : Obligations.FrfBanks := by
  refine ⟨?_, ?_, ?_, ?_, ?_⟩
  · intro s t req l val hreach hreq hfade htarget
    refine ⟨_, congrArg Host.Outcome.next ((State.asReq_of_reaches (s := s.at t) hreach ..).trans
      (State.frfLaneSwap_of_idle (s := s.at t) hreq hfade htarget)), by simp, State.get_put_bit _ _ 1 (by decide)⟩
  · intro s t req l val f hreach hreq hfade
    refine ⟨_, congrArg Host.Outcome.next ((State.asReq_of_reaches (s := s.at t) hreach ..).trans
      (State.frfLaneSwap_of_fading (s := s.at t) hreq hfade)), ?_, by simpa using hfade⟩
    exact (State.get_put_bit_apart _ _ _ (by decide) (by decide) (by decide)).trans (State.get_put_bit _ _ 1 (by decide))
  · intro s l i b hfade hi hpend
    refine ⟨_, congrArg Host.Outcome.next (State.fadeEnd_of_given hfade hi hpend), by simp, ?_, ?_⟩
    · simp [F.FRF_LANE_STAT.ACTIVE, F.FRF_LANE_STAT.FADING, F.FRF_LANE_STAT.PENDING, F.FRF_LANE_STAT.PEND_TARGET,
        State.get_put_bit, State.get_put_bit_apart, bit_mod_two]
    · simp [F.FRF_LANE_STAT.FADING, F.FRF_LANE_STAT.PENDING, F.FRF_LANE_STAT.PEND_TARGET, State.get_put_bit,
        State.get_put_bit_apart]
  · intro s t req val
    dsimp only
    intro hreach hidle
    refine ⟨_, congrArg Host.Outcome.next (State.asReq_of_reaches (s := s.at t) hreach ..), ?_, ?_⟩
    · exact (State.coef_frfCoefData (s := s.at t) rfl rfl rfl hidle _).trans
        (congrArg (toSigned 18) (getBits_ofNat_low (hi := 17) val (by decide)))
    · exact State.index_frfCoefData (s := s.at t) rfl rfl rfl hidle _
  · intro s t req val v hreach hreq hscope htimed
    exact ⟨_, congrArg Host.Outcome.next ((State.asReq_of_reaches (s := s.at t) hreach ..).trans
      (State.frfSync_of_untimed (s := s.at t) hreq hscope htimed)), rfl, State.get_pending_awaitReset ..⟩

/-- Settles O11, each step on a fold or an entry by the lemma that says what it does in the case the statement names; a report
that follows changes no lane and no entry (`frf_flickerReport`). -/
theorem frfMasks : Obligations.FrfMasks := by
  refine ⟨?_, ?_, ?_, ?_, ?_, ?_⟩
  · intro s l c w hon hw hat hc hp
    obtain ⟨n, hn⟩ := State.frf_foldDecision hon hw hat hc hp
    have hlane : (s.foldDecision l).lane l = (s.restartFold l w).lane l := by
      unfold State.lane; rw [hn]
    refine ⟨_, rfl, ?_, ?_, ?_, congrArg Frf.decisions hn⟩
    all_goals rw [hlane, State.restartFold, State.lane_setLane]
  · intro s f e hf htile hlock
    refine ⟨_, congrArg Host.Outcome.next (State.frfMaskUpdate_of_first hf htile rfl hlock), ?_⟩
    dsimp only
    obtain ⟨olds, hmask⟩ := ((s.atBin f.at').dropDecision f).mask_writeMask e
      ((s.maskNow e).decide f ((s.atBin f.at').dropDecision f).time)
    rw [State.mask_maskReport, State.time_maskReport, State.decisions_maskReport, State.time_writeMask,
      State.decisions_writeMask, hmask]
    exact ⟨rfl, rfl, rfl, rfl⟩
  · intro s e h
    obtain ⟨hmask, htime⟩ := State.frfMaskTakeEffect_of_waiting h
    exact ⟨_, rfl, by rw [hmask], by rw [hmask], htime⟩
  · intro s e hact hlock
    refine ⟨_, congrArg Host.Outcome.next (State.frfMaskExpiry_of_active hact hlock), ?_, ?_⟩
    · exact State.cur_maskReport_writeMask ..
    · rw [State.time_maskReport]; rfl
  · intro s t req val e p ph w hreach hlo hhi hphase hwidth
    refine ⟨_, congrArg Host.Outcome.next ((State.asReq_of_reaches (s := s.at t) hreach ..).trans
      (State.frfMaskData1_of_good (s := s.at t) rfl rfl rfl rfl hlo hhi hphase hwidth)), ?_⟩
    exact State.cur_maskReport_writeMask ..
  · intro s t req val p hreach hbad
    exact ⟨_, congrArg Host.Outcome.next ((State.asReq_of_reaches (s := s.at t) hreach ..).trans
      (State.frfMaskData1_of_bad (s := s.at t) rfl rfl rfl hbad)), State.get_put_bit _ _ 1 (by decide), rfl⟩

end Sys2Proof

/-!
Admission and capacity (spec/08_deadline_admission.md): the release of a closed stream, the power floor on its way down, and a
recomputation that every admitted stream passes.
-/

namespace Sys2Proof

namespace Machine

/-! ### Registers and fields that an update leaves alone -/

theorem State.reg_put_ne (s : State) {f : Fld} {a : Nat} (h : f.addr ≠ a) (v : Nat) : (s.put f v).reg a = s.reg a :=
  State.reg_setReg_ne _ _ h

/-- A register reads the same when the registers are. -/
theorem State.reg_of_regs {s u : State} (h : u.regs = s.regs) (a : Nat) : u.reg a = s.reg a := by
  unfold State.reg; rw [h]

/-- A field reads the same when its register does. -/
theorem State.get_of_reg {s u : State} {f : Fld} (h : u.reg f.addr = s.reg f.addr) : u.get f = s.get f :=
  congrArg (fun w => getBits w f.hi f.lo) h

/-- Two fields stand in different registers or in different bits of one. -/
def Fld.Apart (f g : Fld) : Prop :=
  f.addr ≠ g.addr ∨ f.lo ≤ f.hi ∧ f.hi < 64 ∧ g.lo ≤ g.hi ∧ g.hi < 64 ∧ (f.hi < g.lo ∨ g.hi < f.lo)

theorem State.get_put_of_apart (s : State) {f g : Fld} (h : Fld.Apart f g) (v : Nat) : (s.put f v).get g = s.get g := by
  rcases h with hne | ⟨hf, hf64, hg, hg64, hbits⟩
  · exact State.get_put_ne _ _ _ _ hne
  · exact State.get_put_apart _ _ _ _ hf hf64 hg hg64 hbits

/-! ### Registers that records and suspensions write (R245, R418) -/

/-- The registers that the writing of a record moves: its sequence number, the counter of log wraps and that of events dropped
for want of room. -/
def recordRegs : List Nat := [R.RAS_SEQ, R.RAS_CNT_LOG_WRAP, R.HIF_CNT_EVT_DROP]

section
variable {a : Nat} (ha : a ∉ recordRegs)
include ha

theorem State.reg_emitRecord (s : State) (rec : List Byte) : (s.emitRecord rec).reg a = s.reg a := by
  obtain ⟨hseq, hwrap, hdrop⟩ : R.RAS_SEQ ≠ a ∧ R.RAS_CNT_LOG_WRAP ≠ a ∧ R.HIF_CNT_EVT_DROP ≠ a := by
    simpa [recordRegs, eq_comm] using ha
  have hrun (u : State) (r : Nat) (run : Run) : (u.pushRun r run).reg a = u.reg a :=
    State.reg_of_regs ((keeps_pushRun r run sub_refl keeps_refl).same_of_not_mem (p := .regs) (by decide)) a
  unfold State.emitRecord
  extract_lets full s1 _ s2 s3 r pf0
  have h1 : s1.reg a = s.reg a := by
    simp only [s1]
    split
    · rw [State.reg_bump, if_neg hwrap]
    · rfl
  have h3 : s3.reg a = s.reg a := (State.reg_put_ne s2 hseq _).trans h1
  split
  · rw [hrun, h3]
  · rw [State.reg_bump, if_neg hdrop, h3]

theorem State.reg_health (s : State) (kind cause streams a0 a1 a2 index : Nat) :
    (s.health kind cause streams a0 a1 a2 index).reg a = s.reg a := State.reg_emitRecord ha ..

theorem State.reg_beginSusp (s : State) (cause streams arg0 : Nat) : (s.beginSusp cause streams arg0).reg a = s.reg a := by
  unfold State.beginSusp
  dsimp only
  split
  · rfl
  · exact State.reg_health ha ..

theorem State.reg_belowFloor (s : State) : s.belowFloor.reg a = s.reg a := by
  unfold State.belowFloor
  split
  · exact State.reg_beginSusp ha ..
  · exact State.reg_of_regs ((keeps_overSusp _ _ sub_refl keeps_refl).same_of_not_mem (p := .regs) (by decide)) a

end

/-- A field of PWR_DVFS keeps through a check of the suspension BELOW_FLOOR. -/
theorem State.get_belowFloor (s : State) {f : Fld} (h : f.addr = R.PWR_DVFS) : s.belowFloor.get f = s.get f :=
  State.get_of_reg (State.reg_belowFloor (h ▸ by decide) s)

@[simp] theorem State.belowFloor_adm (s : State) : s.belowFloor.adm = s.adm :=
  (keeps_belowFloor sub_refl keeps_refl).same_of_not_mem (p := .adm) (by decide)

@[simp] theorem State.belowFloor_pow (s : State) : s.belowFloor.pow = s.pow :=
  (keeps_belowFloor sub_refl keeps_refl).same_of_not_mem (p := .pow) (by decide)

/-! ### The floor shows in PWR_DVFS (R229, R443) -/

@[simp] theorem State.showFloor_adm (s : State) : s.showFloor.adm = s.adm := State.belowFloor_adm _

theorem State.reg_showFloor (s : State) {a : Nat} (ha : a ∉ R.PWR_DVFS :: recordRegs) : s.showFloor.reg a = s.reg a := by
  obtain ⟨hdvfs, hrec⟩ := not_or.1 (mt List.mem_cons.2 ha)
  unfold State.showFloor
  rw [State.reg_belowFloor hrec, State.reg_put_ne _ (Ne.symm hdvfs), State.reg_put_ne _ (Ne.symm hdvfs)]

/-- The display of the floor does not move the divider. -/
theorem State.current_showFloor (s : State) : s.showFloor.get F.PWR_DVFS.CURRENT = s.get F.PWR_DVFS.CURRENT := by
  unfold State.showFloor
  rw [State.get_belowFloor _ rfl, State.get_put_of_apart _ (.inr (by decide)), State.get_put_of_apart _ (.inr (by decide))]

theorem State.floor_showFloor (s : State) : s.showFloor.get F.PWR_DVFS.FLOOR = s.adm.floor % 4 := by
  unfold State.showFloor
  rw [State.get_belowFloor _ rfl, State.get_put_of_apart _ (.inr (by decide))]
  exact State.get_put _ _ _ (by decide) (by decide)

/-! ### What the set-up of reserves moves (R232, R234, R246) -/

theorem State.adm_settleAdm (s : State) (reserve : Bool) : ∃ fb, (s.settleAdm reserve).adm = { s.adm with fallback := fb } := by
  unfold State.settleAdm
  extract_lets ls _ u
  have hres : (u.reserve ls).adm = u.adm :=
    (keeps_reserve ls sub_refl keeps_refl).same_of_not_mem (p := .adm) (by decide)
  have hshow : ((u.reserve ls).showAdm ls).adm = (u.reserve ls).adm :=
    (keeps_showAdm ls sub_refl keeps_refl).same_of_not_mem (p := .adm) (by decide)
  exact ⟨_, by rw [hshow, hres]⟩

/-- The weights of the canal's stops lie above every register of lower offset. -/
theorem State.reg_reserve (s : State) (ls : List Load) {a : Nat} (ha : a < R.CN_STOP_WT_EW 0) : (s.reserve ls).reg a = s.reg a := by
  unfold State.reserve
  extract_lets fs sets _ u
  refine State.each_keeps (P := fun v => v.reg a = s.reg a) (fun v st hv => ?_) (rfl : u.reg a = s.reg a) _
  have hew : R.CN_STOP_WT_EW st ≠ a := by unfold R.CN_STOP_WT_EW at ha ⊢; omega
  have hns : R.CN_STOP_WT_NS st ≠ a := by unfold R.CN_STOP_WT_EW at ha; unfold R.CN_STOP_WT_NS; omega
  exact (State.reg_setReg_ne _ _ hns).trans ((State.reg_setReg_ne _ _ hew).trans hv)

/-- The display of admission at the stand groups lies above every register of lower offset. -/
theorem State.reg_showAdm (s : State) (ls : List Load) {a : Nat} (ha : a < R.ST_GRP_ADM 0) : (s.showAdm ls).reg a = s.reg a := by
  unfold State.showAdm
  refine State.each_keeps (P := fun v => v.reg a = s.reg a) (fun v n hv => ?_) rfl _
  have hn : R.ST_GRP_ADM n ≠ a := by unfold R.ST_GRP_ADM at ha ⊢; omega
  simp [State.reg_put, F.ST_GRP_ADM.UTIL, F.ST_GRP_ADM.FLOOR, F.ST_GRP_ADM.USABLE, F.ST_GRP_ADM.WITHDRAWN,
    F.ST_GRP_ADM.ADMITTED, hn, hv]

theorem State.reg_settleAdm (s : State) (reserve : Bool) {a : Nat} (ha : a < R.ST_GRP_ADM 0) :
    (s.settleAdm reserve).reg a = s.reg a := by
  unfold State.settleAdm
  dsimp only
  rw [State.reg_showAdm _ _ ha, State.reg_reserve _ _ (Nat.lt_trans ha (by decide))]
  rfl

/-- What a floor that is set at once leaves: the floor `p` in force and shown, nothing being lowered, the sets of streams as
they were. -/
def SetsFloor (p : Nat) (s u : State) : Prop :=
  u.adm.admitted = s.adm.admitted ∧ u.adm.withdrawn = s.adm.withdrawn ∧ u.adm.floor = p ∧ u.adm.lowering = none ∧
    u.get F.PWR_DVFS.FLOOR = p % 4

theorem setsFloor_settleAdm (s : State) (p : Nat) (reserve : Bool) :
    SetsFloor p s (({ s with adm := { s.adm with floor := p, lowering := .none } }).showFloor.settleAdm reserve) := by
  generalize hv : ({ s with adm := { s.adm with floor := p, lowering := .none } } : State) = v
  obtain ⟨fb, hfb⟩ := v.showFloor.adm_settleAdm reserve
  have hget : (v.showFloor.settleAdm reserve).get F.PWR_DVFS.FLOOR = v.adm.floor % 4 :=
    (State.get_of_reg (State.reg_settleAdm _ _ (by decide))).trans v.floor_showFloor
  unfold SetsFloor
  rw [hget, hfb, State.showFloor_adm, ← hv]
  exact ⟨rfl, rfl, rfl, rfl, rfl⟩

/-! ### The floor is lowered once its records are out (R229) -/

theorem State.floorLower_of_out {s : State} {x : FloorLower} (hlow : s.adm.lowering = some x) (hout : s.recordsOut x.waits = true) :
    s.floorLower = ({ s with adm := { s.adm with floor := x.floor, lowering := .none } }).showFloor.settleAdm
      (!s.adm.fallback.isEmpty) := by
  simp only [State.floorLower, hlow, hout, if_true]

/-! ### Release of capacity (R236) -/

theorem State.capacityRelease_of_closed {s : State} {i : Nat} (hin : (s.adm.admitted ||| s.adm.withdrawn).testBit i = true)
    (hclosed : s.streamState i = 0) (hout : s.closedOut i = true) :
    s.capacityRelease i = ({ s.endStream i with adm := { s.adm with
      admitted := setMinus s.adm.admitted (streamBit i), withdrawn := setMinus s.adm.withdrawn (streamBit i)
      charged := tabErase s.adm.charged i, releases := tabErase s.adm.releases i } }).askEval (.release i) := by
  unfold State.capacityRelease
  rw [if_pos (by simp only [hin, hclosed, hout, decide_true, Bool.and_self])]
  rfl

theorem State.capacityRelease_of_due {s : State} {i due : Nat} (hopen : s.streamState i ≠ 0)
    (hrel : tabFind s.adm.releases i = some due) (hdue : due ≤ s.time) :
    s.capacityRelease i = ({ s with adm := { s.adm with
      charged := tabErase s.adm.charged i, releases := tabErase s.adm.releases i } }).askEval (.release i) := by
  unfold State.capacityRelease
  rw [if_neg (by simp [hopen]), hrel]
  exact if_pos hdue

theorem State.endStream_aid (s : State) (i : Nat) : (s.endStream i).aid = s.aid :=
  (keeps_endStream i sub_refl keeps_refl).same_of_not_mem (p := .aid) (by decide)

theorem tabFind_erase_self {α : Type} (t : Tab α) (i : Nat) : tabFind (tabErase t i) i = none := by
  rw [tabFind_erase, if_pos rfl]

/-! ### A recomputation that every admitted stream passes (R241, R242) -/

/-- Streams that pass together are all kept. -/
theorem State.keepPassing_of_passing {s : State} {reserve : Bool} {cap : Nat} {order : List Nat}
    (h : (s.floorFor (order.map s.loadOf) reserve cap).isSome = true) : s.keepPassing reserve cap order = order := by
  cases order with
  | nil => rfl
  | cons i r => exact if_pos h

theorem State.withdraw_zero (s : State) : s.withdraw 0 = s := by
  unfold State.withdraw
  rw [Nat.zero_and]
  exact if_pos rfl

/-- A floor above the one that is needed rises at once (R229). -/
theorem State.moveFloor_of_lt {s : State} {p : Nat} (h : p < s.adm.floor) :
    s.moveFloor p = ({ s with adm := { s.adm with floor := p, lowering := .none } }).showFloor := if_pos h

/-- When every admitted stream passes with the reserve, and none is withdrawn, recomputation moves the floor and sets up the
reserves. -/
theorem State.recompute_of_passing {s : State} {p : Nat} (hcap : s.noCap = false) (hnone : s.adm.withdrawn = 0)
    (hpass : s.floorFor ((sortBy s.sooner (streamsOf s.adm.admitted)).map s.loadOf) true s.capPoint = some p)
    (hp : p < s.adm.floor) :
    s.recompute = ({ s with adm := { s.adm with floor := p, lowering := .none } }).showFloor.settleAdm true := by
  have hkeep := State.keepPassing_of_passing (s := s) (reserve := true) (cap := s.capPoint) (by rw [hpass]; rfl)
  have hgone (l : List Nat) : unionAll ((l.filter (fun i => !l.contains i)).map streamBit) = 0 := by
    rw [List.filter_eq_nil_iff.2 (by simp)]
    rfl
  unfold State.recompute
  simp only [hcap, Bool.false_eq_true, if_false, hpass, Option.isSome_some, Bool.true_or, hkeep, hgone, State.withdraw_zero,
    State.moveFloor_of_lt hp, State.showFloor_adm, hnone]
  rfl

end Machine

open Machine

/-- Settles O19: releases by the lemmas that say what they do in the two cases, and a floor that is set, lowered or raised, by
what the set-up of reserves leaves of it (`setsFloor_settleAdm`). -/
theorem capacity : Obligations.Capacity := by
  refine ⟨?_, ?_, ?_, ?_⟩
  · intro s t i hin hclosed hout
    refine ⟨_, congrArg Host.Outcome.next (State.capacityRelease_of_closed (s := s.at t) hin hclosed hout), rfl, rfl,
      tabFind_erase_self .., ?_⟩
    exact congrArg (fun a => a.evals ++ [Eval.release i]) (State.endStream_aid (s.at t) i)
  · intro s t i due hopen hrel hdue
    exact ⟨_, congrArg Host.Outcome.next (State.capacityRelease_of_due (s := s.at t) hopen hrel hdue), tabFind_erase_self ..,
      tabFind_erase_self .., rfl, rfl⟩
  · intro s t x hlow hout
    obtain ⟨-, -, hfloor, hnone, hshown⟩ := setsFloor_settleAdm (s.at t) x.floor (!s.adm.fallback.isEmpty)
    exact ⟨_, congrArg Host.Outcome.next (State.floorLower_of_out (s := s.at t) hlow hout), hfloor, hnone, hshown⟩
  · intro s t p hcap hnone hpass hp
    obtain ⟨hadm, hwd, hfloor, -, hshown⟩ := setsFloor_settleAdm (s.at t) p true
    exact ⟨_, congrArg Host.Outcome.next (State.recompute_of_passing (s := s.at t) hcap hnone hpass hp), hadm, hwd.trans hnone,
      hfloor, hshown⟩

end Sys2Proof

/-!
Operating points (spec/15_power_clocks.md, R440–R445): requests of the power manager, voltage reads, the PGOOD hold, a late raise
and the power cap.
-/

namespace Sys2Proof

namespace Machine

/-! ### The divider switches (R441) -/

theorem getBits_lt (w : Word) (hi lo : Nat) : getBits w hi lo < 2 ^ (hi - lo + 1) := by
  have hmask : (onesMask (hi - lo + 1)).toNat ≤ 2 ^ (hi - lo + 1) - 1 := by
    rw [onesMask, BitVec.toNat_ofNat]; exact Nat.mod_le ..
  have hand : getBits w hi lo ≤ (onesMask (hi - lo + 1)).toNat := by
    rw [getBits, BitVec.toNat_and]; exact Nat.and_le_right
  exact Nat.lt_of_le_pred (Nat.two_pow_pos _) (Nat.le_trans hand hmask)

/-- The divider selects one of the four points. -/
theorem State.point_lt (s : State) : s.point < 4 := getBits_lt ..

theorem State.target_lt (s : State) : s.get F.PWR_DVFS.TARGET < 4 := getBits_lt ..

theorem State.raiseReached_of_none {s : State} (h : s.adm.raising = none) : s.raiseReached = s := by
  unfold State.raiseReached; rw [h]

theorem State.resumeRaise_regs (s : State) : s.resumeRaise.regs = s.regs :=
  (keeps_resumeRaise sub_refl keeps_refl).same_of_not_mem (p := .regs) (by decide)

@[simp] theorem State.resumeRaise_pow (s : State) : s.resumeRaise.pow = s.pow :=
  (keeps_resumeRaise sub_refl keeps_refl).same_of_not_mem (p := .pow) (by decide)

@[simp] theorem State.divide_out (s : State) (p : Nat) : (s.divide p).out = s.out :=
  (keeps_divide p sub_refl keeps_refl).same_of_not_mem (p := .out) (by decide)

/-- The divider selects a point: the counter of switches and the mark of the 1 ms block move with it. -/
def State.select (s : State) (p : Nat) : State :=
  ((s.put F.PWR_DVFS.CURRENT p).bump R.PWR_CNT_DVFS).setPow { s.pow with switched := true }

theorem State.point_select (s : State) {p : Nat} (hp : p < 4) : (s.select p).point = p :=
  (State.get_bump_ne _ _ _ (by decide)).trans ((State.get_put _ _ _ (by decide) (by decide)).trans (Nat.mod_eq_of_lt hp))

section
variable {s : State} (hr : s.adm.raising = none)
include hr

/-- With no raise of the floor in progress, a switch of the divider is followed by the check of the suspension BELOW_FLOOR and,
where a request was abandoned, by a new evaluation. -/
theorem State.divide_of_none (p : Nat) : s.divide p = (s.select p).belowFloor.resumeRaise := by
  have h : (s.select p).belowFloor.adm.raising = none := by rw [State.belowFloor_adm]; exact hr
  show (s.select p).belowFloor.raiseReached.resumeRaise = _
  rw [State.raiseReached_of_none h]

theorem State.reg_divide {a : Nat} (ha : a ∉ recordRegs) (p : Nat) : (s.divide p).reg a = (s.select p).reg a := by
  rw [State.divide_of_none hr, State.reg_of_regs (State.resumeRaise_regs _)]
  exact State.reg_belowFloor ha _

theorem State.pow_divide (p : Nat) : (s.divide p).pow = { s.pow with switched := true } := by
  rw [State.divide_of_none hr, State.resumeRaise_pow, State.belowFloor_pow]; rfl

theorem State.point_divide {p : Nat} (hp : p < 4) : (s.divide p).point = p :=
  (State.get_of_reg (State.reg_divide hr (by decide) p)).trans (s.point_select hp)

theorem State.count_divide (p : Nat) : (s.divide p).reg R.PWR_CNT_DVFS = s.reg R.PWR_CNT_DVFS + 1 := by
  rw [State.reg_divide hr (by decide)]
  refine (State.reg_bump _ _ _).trans ((if_pos rfl).trans ?_)
  rw [State.reg_put_ne _ (by decide)]

theorem State.state_divide (p : Nat) : (s.divide p).get F.PWR_DVFS.STATE = s.get F.PWR_DVFS.STATE :=
  (State.get_of_reg (State.reg_divide hr (by decide) p)).trans
    ((State.get_bump_ne _ _ _ (by decide)).trans (State.get_put_of_apart _ (.inr (by decide)) _))

theorem State.reg_divide_ne {a : Nat} (ha : a ∉ R.PWR_DVFS :: R.PWR_CNT_DVFS :: recordRegs) (p : Nat) :
    (s.divide p).reg a = s.reg a := by
  obtain ⟨hdvfs, hcnt, hrec⟩ : R.PWR_DVFS ≠ a ∧ R.PWR_CNT_DVFS ≠ a ∧ a ∉ recordRegs := by simpa [eq_comm] using ha
  rw [State.reg_divide hr hrec]
  exact (State.reg_bump _ _ _).trans ((if_neg hcnt).trans (State.reg_put_ne _ hdvfs _))

/-! ### Lowers and drops (R441, R444, R445) -/

theorem State.point_lowerTo {p : Nat} (hp : p < 4) : (s.lowerTo p).point = p :=
  (State.get_put_of_apart ((s.divide p).askVoltage (opMv p)) (.inr (by decide)) _).trans (State.point_divide hr hp)

theorem State.pow_lowerTo (p : Nat) : (s.lowerTo p).pow = { s.pow with
    switched := true, mv := opMv p, raiseAt := none, holdAt := none, goal := p
    confirmed := min s.pow.confirmed (opMv p) } := by
  simp [State.lowerTo, State.askVoltage, State.pow_divide hr]

end

theorem State.reg_lowerTo (s : State) {a : Nat} (ha : R.PWR_DVFS ≠ a) (p : Nat) : (s.lowerTo p).reg a = (s.divide p).reg a :=
  State.reg_put_ne ((s.divide p).askVoltage (opMv p)) ha _

theorem State.state_lowerTo (s : State) (p : Nat) : (s.lowerTo p).get F.PWR_DVFS.STATE = 4 :=
  State.get_put ((s.divide p).askVoltage (opMv p)) _ _ (by decide) (by decide)

/-- A lower requests the voltage of its point. -/
theorem State.out_lowerTo (s : State) (p : Nat) : (s.lowerTo p).out = s.out ++ [.avs 0 (opMv p)] := by
  simp [State.lowerTo, State.askVoltage]

@[simp] theorem State.abandonRaise_pow (s : State) : s.abandonRaise.pow = s.pow :=
  (keeps_abandonRaise sub_refl keeps_refl).same_of_not_mem (p := .pow) (by decide)

/-- After throttling has started no raise of the floor is in progress. -/
theorem State.raising_abandonRaise (s : State) : s.abandonRaise.adm.raising = none := by
  unfold State.abandonRaise
  split
  · assumption
  · rw [State.showFloor_adm]

theorem State.point_abandonRaise (s : State) : s.abandonRaise.point = s.point := by
  unfold State.abandonRaise
  split
  · rfl
  · exact State.current_showFloor _

theorem State.reg_abandonRaise (s : State) {a : Nat} (ha : a ∉ R.PWR_DVFS :: recordRegs) : s.abandonRaise.reg a = s.reg a := by
  unfold State.abandonRaise
  split
  · rfl
  · exact State.reg_showFloor _ ha

section
variable {s : State} (h : s.pow.raiseAt = none)
include h

/-- A drop with no raise of the voltage in progress is a lower to the point, or nothing where CCLK is at it already. -/
theorem State.dropTo_of_no_raise (p : Nat) :
    s.dropTo p = if s.point < p then s.abandonRaise.lowerTo p else s.abandonRaise := by
  unfold State.dropTo
  simp only [State.point_abandonRaise, State.abandonRaise_pow, h, Option.isSome_none, Bool.false_eq_true, if_false]

theorem State.point_dropTo {p : Nat} (hp : p < 4) : (s.dropTo p).point = max s.point p := by
  rw [State.dropTo_of_no_raise h]
  split
  next hlt => rw [State.point_lowerTo s.raising_abandonRaise hp, Nat.max_eq_right (Nat.le_of_lt hlt)]
  next hge => rw [State.point_abandonRaise, Nat.max_eq_left (Nat.le_of_not_lt hge)]

theorem State.raiseAt_dropTo (p : Nat) : (s.dropTo p).pow.raiseAt = none := by
  rw [State.dropTo_of_no_raise h]
  split
  · rw [State.pow_lowerTo s.raising_abandonRaise]
  · rw [State.abandonRaise_pow, h]

theorem State.warnEnd_dropTo (p : Nat) : (s.dropTo p).pow.warnEnd = s.pow.warnEnd := by
  rw [State.dropTo_of_no_raise h]
  split
  · rw [State.pow_lowerTo s.raising_abandonRaise, State.abandonRaise_pow]
  · rw [State.abandonRaise_pow]

theorem State.reg_dropTo {a : Nat} (ha : a ∉ R.PWR_DVFS :: R.PWR_CNT_DVFS :: recordRegs) (p : Nat) :
    (s.dropTo p).reg a = s.reg a := by
  obtain ⟨hdvfs, -, hrec⟩ : R.PWR_DVFS ≠ a ∧ R.PWR_CNT_DVFS ≠ a ∧ a ∉ recordRegs := by simpa [eq_comm] using ha
  have hab : s.abandonRaise.reg a = s.reg a := State.reg_abandonRaise s (by simp [Ne.symm hdvfs, hrec])
  rw [State.dropTo_of_no_raise h]
  split
  · rw [State.reg_lowerTo _ hdvfs, State.reg_divide_ne s.raising_abandonRaise ha, hab]
  · exact hab

end

@[simp] theorem State.dropTo_time (s : State) (p : Nat) : (s.dropTo p).time = s.time :=
  (keeps_dropTo p sub_refl keeps_refl).same_of_not_mem (p := .time) (by decide)

/-! ### Raises (R441) -/

theorem State.state_raiseTo (s : State) (p : Nat) : (s.raiseTo p).get F.PWR_DVFS.STATE = 1 :=
  State.get_put (s.askVoltage (opMv p)) _ _ (by decide) (by decide)

theorem State.point_raiseTo (s : State) (p : Nat) : (s.raiseTo p).point = s.point :=
  State.get_put_of_apart (s.askVoltage (opMv p)) (.inr (by decide)) _

section
variable {s : State} (hheld : s.heldDown = false) (hspaced : s.spaced = true)
include hheld hspaced

theorem State.dvfsRequest_of_below (hlow : s.floorGoal < s.point) (hraise : s.pow.raiseAt = none) :
    s.dvfsRequest = s.powChange.raiseTo s.floorGoal := by
  simp [State.dvfsRequest, hheld, hspaced, hlow, hraise]

theorem State.dvfsRequest_of_above (hfloor : s.point ≤ s.floorGoal) (htarget : s.point < s.get F.PWR_DVFS.TARGET) :
    s.dvfsRequest = s.powChange.lowerTo (s.get F.PWR_DVFS.TARGET) := by
  simp [State.dvfsRequest, hheld, hspaced, Nat.not_lt.2 hfloor, htarget]

end

/-! ### Voltage reads, the hold, a late raise (R440, R441) -/

section
variable {s : State} {mv : Nat}

theorem State.voltageRead_of_far (h : s.pow.mv + 5 < mv ∨ mv + 5 < s.pow.mv) : s.voltageRead mv = s := by
  have hfar : ¬(mv ≤ s.pow.mv + 5 ∧ s.pow.mv ≤ mv + 5) := by omega
  simp [State.voltageRead, hfar]

variable (hlo : mv ≤ s.pow.mv + 5) (hhi : s.pow.mv ≤ mv + 5)
include hlo hhi

theorem State.voltageRead_of_raise (hstate : s.get F.PWR_DVFS.STATE = 1) :
    s.voltageRead mv = (s.put F.PWR_DVFS.STATE dvHold).setPow { s.pow with holdAt := some s.time } := by
  simp [State.voltageRead, hlo, hhi, hstate, dvRaise]

theorem State.voltageRead_of_lower (hstate : s.get F.PWR_DVFS.STATE = 4) :
    s.voltageRead mv = s.put F.PWR_DVFS.STATE dvIdle := by
  simp [State.voltageRead, hlo, hhi, hstate, dvRaise, dvLower]

end

theorem State.holdEnd_of_early {s : State} {h : Nat} (hhold : s.pow.holdAt = some h) (ht : s.time < h + 20000) : s.holdEnd = s := by
  simp [State.holdEnd, hhold, ht]

/-- The hold's end confirms the voltage: no raise of it is in progress. -/
def State.confirm (s : State) : State :=
  (s.setPow { s.pow with confirmed := s.pow.mv, raiseAt := none, holdAt := none }).put F.PWR_DVFS.STATE dvIdle

theorem State.holdEnd_of_due {s : State} {h : Nat} (hhold : s.pow.holdAt = some h) (ht : h + 20000 ≤ s.time) :
    s.holdEnd = s.confirm.divide s.pow.goal := by
  simp [State.holdEnd, State.confirm, hhold, Nat.not_lt.2 ht]

/-- A late raise is given up: the voltage of the present point is requested again. -/
def State.giveUpRaise (s : State) : State :=
  let u := (s.askVoltage (opMv s.point)).put F.PWR_DVFS.STATE dvIdle
  u.setPow { u.pow with raiseAt := none, holdAt := none, goal := u.point }

theorem State.raiseTimeout_of_raise {s : State} {r : Nat} (h : s.pow.raiseAt = some r) :
    s.raiseTimeout = (s.at (r + 200000)).giveUpRaise.powerEmergency := by
  unfold State.raiseTimeout; rw [h]; rfl

/-- A power emergency is in force from `t` on for 10 ms: CCLK is at point 3, no raise in progress (R445). -/
def InPowerEmergency (t : Nat) (u : State) : Prop :=
  u.time = t ∧ u.get F.PWR_EMERG.POWER = 1 ∧ u.point = 3 ∧ u.pow.raiseAt = none ∧ u.pow.warnEnd = some (t + 10000000)

theorem inPowerEmergency_powerEmergency {s : State} (h : s.pow.raiseAt = none) : InPowerEmergency s.time s.powerEmergency := by
  let v := (s.put F.PWR_EMERG.POWER 1).setPow { s.pow with warnEnd := some (s.time + 10000000) }
  have hv : v.pow.raiseAt = none := h
  refine ⟨State.dropTo_time v 3, ?_, ?_, State.raiseAt_dropTo hv 3, State.warnEnd_dropTo hv 3⟩
  · exact (State.get_of_reg (State.reg_dropTo hv (by decide) 3)).trans (State.get_put s _ _ (by decide) (by decide))
  · exact (State.point_dropTo hv (by decide)).trans (Nat.max_eq_right (Nat.le_of_lt_succ v.point_lt))

/-! ### A command completes (R326, R327) -/

/-- The handing over of a completion entry moves neither the commands in progress nor the completion journal. -/
theorem State.postCompletion_journal (s : State) (r : Nat) (noIrq : Bool) (entry : List Byte) :
    (s.postCompletion r noIrq entry).aid.ctxs = s.aid.ctxs ∧ (s.postCompletion r noIrq entry).aid.done = s.aid.done := by
  unfold State.postCompletion
  split
  · exact ⟨rfl, rfl⟩
  · split
    · exact ⟨rfl, rfl⟩
    · split
      · rw [State.pushRun_aid]; exact ⟨rfl, rfl⟩
      · exact ⟨rfl, rfl⟩

theorem completed_complete (s : State) (c : Ctx) (status : Nat) (data : List Byte) :
    Completed (s.complete c status data) c status data := by
  have hpost (u : State) (r : Nat) (noIrq : Bool) (entry : List Byte) (h : Completed u c status data) :
      Completed (u.postCompletion r noIrq entry) c status data := by
    obtain ⟨hctxs, hdone⟩ := u.postCompletion_journal r noIrq entry
    unfold Completed State.ctx at h ⊢
    rwa [hctxs, hdone]
  unfold State.complete
  extract_lets entry mine _ s1
  refine State.each_keeps (P := fun u => Completed u c status data) (fun u _ h => hpost u _ _ _ h)
    (hpost s1 _ _ _ ⟨List.getLast?_concat, ?_⟩) _
  exact List.find?_eq_none.2 fun x hx => ne_true_of_eq_false ((Bool.not_eq_true' _).mp (List.mem_filter.1 hx).2)

theorem State.complete_regs (s : State) (c : Ctx) (status : Nat) (data : List Byte) : (s.complete c status data).regs = s.regs :=
  (keeps_complete c status data sub_refl keeps_refl).same_of_not_mem (p := .regs) (by decide)

theorem State.complete_pow (s : State) (c : Ctx) (status : Nat) (data : List Byte) : (s.complete c status data).pow = s.pow :=
  (keeps_complete c status data sub_refl keeps_refl).same_of_not_mem (p := .pow) (by decide)

/-! ### The power cap (R442, R443) -/

/-- Whether CCLK is held down shows in PWR_EMERG alone. -/
theorem State.heldDown_of_get {s u : State} (h : ∀ f : Fld, f.addr = R.PWR_EMERG → u.get f = s.get f) :
    u.heldDown = s.heldDown := by
  unfold State.heldDown State.flag
  rw [h F.PWR_EMERG.POWER rfl, h F.PWR_EMERG.THERMAL rfl, h F.PWR_EMERG.THROTTLING rfl]

/-- A cap in W shows with its cap point, and the target follows it. -/
def State.showCap (s : State) (w : Nat) : State :=
  let u := ((s.put F.PWR_CAP.CAP_W w).put F.PWR_DVFS.CAP_NONE (bit (capPointOf w).isNone)).put F.PWR_DVFS.CAP_POINT
    ((capPointOf w).getD 3)
  u.put F.PWR_DVFS.TARGET u.target

theorem State.applyCap_eq (s : State) (c : Ctx) : s.applyCap c =
    (s.showCap c.arg).complete c 0 (leBytes 1 ((capPointOf c.arg).getD 4) ++ leBytes 1 s.adm.floor) := rfl

theorem State.capW_showCap (s : State) {w : Nat} (hw : w < 1024) : (s.showCap w).get F.PWR_CAP.CAP_W = w := by
  unfold State.showCap
  rw [State.get_put_of_apart _ (.inl (by decide)), State.get_put_of_apart _ (.inl (by decide)),
    State.get_put_of_apart _ (.inl (by decide)), State.get_put _ _ _ (by decide) (by decide)]
  exact Nat.mod_eq_of_lt hw

theorem State.capNone_showCap (s : State) (w : Nat) :
    (s.showCap w).get F.PWR_DVFS.CAP_NONE = if capPointOf w = none then 1 else 0 := by
  unfold State.showCap
  rw [State.get_put_of_apart _ (.inr (by decide)), State.get_put_of_apart _ (.inr (by decide)),
    State.get_put _ _ _ (by decide) (by decide)]
  cases capPointOf w <;> rfl

theorem State.point_showCap (s : State) (w : Nat) : (s.showCap w).point = s.point := by
  unfold State.showCap State.point
  rw [State.get_put_of_apart _ (.inr (by decide)), State.get_put_of_apart _ (.inr (by decide)),
    State.get_put_of_apart _ (.inr (by decide)), State.get_put_of_apart _ (.inl (by decide))]

/-- The block average of a millisecond shows. -/
def State.showPower (s : State) (mw : Nat) : State := s.put F.PWR_CAP.PKG_MW (min mw (2 ^ 24 - 1))

theorem State.get_showPower (s : State) (mw : Nat) {f : Fld} (h : Fld.Apart F.PWR_CAP.PKG_MW f) :
    (s.showPower mw).get f = s.get f := State.get_put_of_apart _ h _

/-- A millisecond with a divider switch: the cap that waits applies, and a new block begins. -/
theorem State.capDecision_of_waiting {s : State} {c : Ctx} (hsw : s.pow.switched = true) (hwait : s.waiters wCap = [c]) (mw : Nat) :
    s.capDecision mw = ((s.showPower mw).applyCap c).setPow { s.pow with switched := false } := by
  have hpow : ((s.showPower mw).applyCap c).pow = s.pow := by rw [State.applyCap_eq, State.complete_pow]; rfl
  have heach : (s.showPower mw).each ((s.showPower mw).waiters wCap) State.applyCap = (s.showPower mw).applyCap c := by
    rw [show (s.showPower mw).waiters wCap = [c] from hwait]; rfl
  unfold State.capDecision
  dsimp only
  rw [← State.showPower, heach, hpow, if_pos hsw]

/-- A millisecond without a divider switch, with no cap waiting, is decided on its block average. -/
theorem State.capDecision_of_block {s : State} (hsw : s.pow.switched = false) (hwait : s.waiters wCap = []) (mw : Nat) :
    s.capDecision mw = (s.showPower mw).capStep mw := by
  have heach : (s.showPower mw).each ((s.showPower mw).waiters wCap) State.applyCap = s.showPower mw := by
    rw [show (s.showPower mw).waiters wCap = [] from hwait]; rfl
  have hsw' : ¬(s.showPower mw).pow.switched = true := by rw [show (s.showPower mw).pow = s.pow from rfl, hsw]; decide
  unfold State.capDecision
  dsimp only
  rw [← State.showPower, heach, if_neg hsw']

theorem State.capAtFloor_pow (s : State) (on : Bool) (mw : Nat) : (s.capAtFloor on mw).pow = { s.pow with atFloor := on } := by
  unfold State.capAtFloor
  split
  next h => rw [← h]
  next => exact (keeps_health _ _ _ _ _ _ _ sub_refl keeps_refl).same_of_not_mem (p := .pow) (by decide)

@[simp] theorem State.capAtFloor_time (s : State) (on : Bool) (mw : Nat) : (s.capAtFloor on mw).time = s.time :=
  (keeps_capAtFloor on mw sub_refl keeps_refl).same_of_not_mem (p := .time) (by decide)

theorem State.get_capAtFloor (s : State) (on : Bool) (mw : Nat) {f : Fld} (h : f.addr ∉ recordRegs) :
    (s.capAtFloor on mw).get f = s.get f := by
  unfold State.capAtFloor
  split
  · rfl
  · exact State.get_of_reg (State.reg_health h ..)

section
variable {s : State} {mw : Nat}

theorem State.capStep_of_above (hcap : 1000 * s.get F.PWR_CAP.CAP_W < mw) (hfloor : s.point < s.adm.floor)
    (hspaced : s.spaced = true) : s.capStep mw = (s.powChange.bump R.PWR_CNT_CAP).lowerTo (s.point + 1) := by
  simp [State.capStep, hcap, hfloor, hspaced]

theorem State.capStep_of_above_at_floor (hcap : 1000 * s.get F.PWR_CAP.CAP_W < mw) (hfloor : s.adm.floor ≤ s.point) :
    s.capStep mw = s.capAtFloor true mw := by
  simp [State.capStep, hcap, Nat.not_lt.2 hfloor]

theorem State.capStep_of_room (hcap : mw ≤ 1000 * s.get F.PWR_CAP.CAP_W) (htarget : s.get F.PWR_DVFS.TARGET < s.point)
    (hraise : s.pow.raiseAt = none) (hheld : s.heldDown = false) (hspaced : s.spaced = true)
    (hroom : 100 * mw * opWatts (s.point - 1) < 95 * (1000 * s.get F.PWR_CAP.CAP_W) * opWatts s.point) :
    s.capStep mw = (s.capAtFloor false mw).powChange.raiseTo (s.point - 1) := by
  have htarget' : (s.capAtFloor false mw).get F.PWR_DVFS.TARGET < s.point := by rwa [State.get_capAtFloor _ _ _ (by decide)]
  have hheld' : (s.capAtFloor false mw).heldDown = false :=
    (State.heldDown_of_get fun f hf => State.get_capAtFloor s false mw (hf ▸ by decide)).trans hheld
  have hspaced' : (s.capAtFloor false mw).spaced = true := by
    unfold State.spaced at hspaced ⊢
    rwa [State.capAtFloor_pow, State.capAtFloor_time]
  simp [State.capStep, Nat.not_lt.2 hcap, htarget', hheld', hspaced', State.capAtFloor_pow, hraise, hroom]

end

end Machine

open Machine

/-- Settles O55, each request, read, hold, late raise and decision by the lemma that says what it does in the case the
statement names. -/
theorem operatingPoints : Obligations.OperatingPoints := by
  refine ⟨?_, ?_, ?_, ?_, ?_, ?_, ?_, ?_, ?_⟩
  · intro s t hheld hspaced hlow hraise
    refine ⟨_, congrArg Host.Outcome.next (State.dvfsRequest_of_below (s := s.at t) hheld hspaced hlow hraise), rfl,
      State.state_raiseTo .., ?_, rfl, rfl, rfl, rfl⟩
    exact State.point_raiseTo (s.at t).powChange s.floorGoal
  · intro s t hheld hspaced hfloor htarget hraising _
    have hr : (s.at t).powChange.adm.raising = none := hraising
    refine ⟨_, congrArg Host.Outcome.next (State.dvfsRequest_of_above (s := s.at t) hheld hspaced hfloor htarget),
      State.point_lowerTo hr s.target_lt, State.state_lowerTo .., ?_, ?_, ?_, ?_, ?_⟩
    · rw [State.pow_lowerTo hr]; rfl
    · rw [State.pow_lowerTo hr]
    · rw [State.pow_lowerTo hr]
    · rw [State.out_lowerTo]; exact List.mem_concat_self
    · exact (State.reg_lowerTo _ (by decide) _).trans (State.count_divide hr _)
  · intro s t mv hlo hhi
    refine ⟨fun hstate => ⟨_, congrArg Host.Outcome.next (State.voltageRead_of_raise (s := s.at t) hlo hhi hstate), ?_, rfl, ?_⟩,
      fun hstate => ⟨_, congrArg Host.Outcome.next (State.voltageRead_of_lower (s := s.at t) hlo hhi hstate), ?_, ?_⟩⟩
    · exact State.get_put (s.at t) _ _ (by decide) (by decide)
    · exact State.get_put_of_apart (s.at t) (.inr (by decide)) _
    · exact State.get_put (s.at t) _ _ (by decide) (by decide)
    · exact State.get_put_of_apart (s.at t) (.inr (by decide)) _
  · intro s t mv hfar
    exact ⟨_, congrArg Host.Outcome.next (State.voltageRead_of_far (s := s.at t) hfar), rfl⟩
  · intro s t h hhold hgoal hraising _
    refine ⟨fun hdue => ?_, fun hearly => ⟨_, congrArg Host.Outcome.next (State.holdEnd_of_early (s := s.at t) hhold hearly), rfl⟩⟩
    have hr : (s.at t).confirm.adm.raising = none := hraising
    refine ⟨_, congrArg Host.Outcome.next (State.holdEnd_of_due (s := s.at t) hhold hdue), State.point_divide hr hgoal, ?_, ?_, ?_,
      ?_, (State.count_divide hr _).trans (congrArg (· + 1) (State.reg_put_ne _ (by decide) _))⟩
    · exact (State.state_divide hr _).trans (State.get_put _ _ _ (by decide) (by decide))
    all_goals rw [State.pow_divide hr]; rfl
  · intro s r hr
    exact ⟨_, congrArg Host.Outcome.next (State.raiseTimeout_of_raise hr),
      inPowerEmergency_powerEmergency (s := (s.at (r + 200000)).giveUpRaise) rfl⟩
  · intro s t mw c hsw hwait harg _
    have hend := State.capDecision_of_waiting (s := s.at t) hsw hwait mw
    have hget (f : Fld) : (((s.at t).showPower mw).applyCap c).get f = (((s.at t).showPower mw).showCap c.arg).get f := by
      rw [State.applyCap_eq]; exact State.get_of_regs (State.complete_regs ..) f
    refine ⟨_, congrArg Host.Outcome.next hend, ?_, rfl, ?_, ?_, ?_⟩
    · exact (hget _).trans (State.capW_showCap _ harg)
    · exact (hget _).trans ((State.point_showCap _ _).trans (State.get_showPower (s.at t) mw (.inl (by decide))))
    · exact (hget _).trans (State.capNone_showCap ..)
    · exact completed_complete (((s.at t).showPower mw).showCap c.arg) ..
  · intro s t mw hsw hwait hcap
    have hend := State.capDecision_of_block (s := s.at t) hsw hwait mw
    let v := (s.at t).showPower mw
    have hcap' : 1000 * v.get F.PWR_CAP.CAP_W < mw := by rwa [State.get_showPower _ _ (.inr (by decide))]
    have hpoint : v.point = s.point := State.get_showPower (s.at t) mw (.inl (by decide))
    constructor
    · intro hfloor hmax hspaced hraising _
      have hr : (v.powChange.bump R.PWR_CNT_CAP).adm.raising = none := hraising
      refine ⟨_, congrArg Host.Outcome.next (hend.trans (State.capStep_of_above hcap' (hpoint ▸ hfloor) hspaced)), ?_, ?_, ?_⟩
      · rw [State.point_lowerTo hr (by rw [hpoint]; omega), hpoint]
      · rw [State.reg_lowerTo _ (by decide), State.reg_divide_ne hr (by decide), State.reg_bump, if_pos rfl]
        exact congrArg (· + 1) (State.reg_put_ne (s.at t) (by decide) _)
      · rw [State.pow_lowerTo hr, hpoint]
    · intro hfloor hat
      refine ⟨_, congrArg Host.Outcome.next (hend.trans (State.capStep_of_above_at_floor hcap' (hpoint ▸ hfloor))), ?_, ?_, ?_⟩
      · rw [State.capAtFloor_pow]
      · exact (State.get_capAtFloor _ _ _ (by decide)).trans hpoint
      · rw [State.capAtFloor_pow]; rfl
  · intro s t mw hsw hwait hcap htarget hraise hheld hspaced hroom
    let v := (s.at t).showPower mw
    have hget {f : Fld} (h : Fld.Apart F.PWR_CAP.PKG_MW f) : v.get f = s.get f := State.get_showPower (s.at t) mw h
    have hcapw : v.get F.PWR_CAP.CAP_W = s.get F.PWR_CAP.CAP_W := hget (.inr (by decide))
    have hpoint : v.point = s.point := hget (.inl (by decide))
    have hheld' : v.heldDown = false := (State.heldDown_of_get fun f hf => hget (.inl (hf ▸ by decide))).trans hheld
    have hstep := State.capStep_of_room (s := v) (mw := mw) (hcapw ▸ hcap)
      (by rwa [hpoint, hget (.inl (by decide))]) hraise hheld' hspaced (by rwa [hpoint, hcapw])
    have hend := (State.capDecision_of_block (s := s.at t) hsw hwait mw).trans (hpoint ▸ hstep)
    refine ⟨_, congrArg Host.Outcome.next hend, State.state_raiseTo .., rfl, rfl, ?_, ?_⟩
    · exact (State.point_raiseTo ..).trans ((State.get_capAtFloor _ _ _ (by decide)).trans hpoint)
    · exact congrArg Pow.atFloor (State.capAtFloor_pow v false mw)

end Sys2Proof

/-!
Steps, memory, canal mesh and sluice queues (spec/09_memory_canal_queues.md): the canonical form along every step, what an
access to DRAM does, the faults of memory and mesh, and the words of the queues.
-/

namespace Sys2Proof

namespace Machine

/-! ### Steps -/

theorem step_of_nil {s : State} (h : s.pending = []) : step s = .next s.idle := by
  unfold step; rw [h]

theorem step_of_cons {s : State} {c : Instr} {rest : List Instr} (h : s.pending = c :: rest) :
    step s = exec c { s with pending := rest } := by
  unfold step; rw [h]

/-! ### Errors that show in a bit and are counted -/

/-- An error shows in its bit, and its counter moves on. -/
def State.countError (s : State) (f : Fld) (c : Nat) : State := (s.put f 1).bump c

theorem State.get_countError (s : State) {a i c : Nat} (hi : i < 64) (hc : c ≠ a) :
    (s.countError ⟨a, i, i⟩ c).get ⟨a, i, i⟩ = 1 :=
  (State.get_bump_ne _ _ _ hc).trans (State.get_put_bit _ _ _ hi)

theorem State.count_countError (s : State) {f : Fld} {c : Nat} (h : f.addr ≠ c) : (s.countError f c).reg c = s.reg c + 1 :=
  (State.reg_bump ..).trans ((if_pos rfl).trans (congrArg (· + 1) (State.reg_put_ne _ h _)))

theorem State.reg_countError_ne (s : State) {f : Fld} {c a : Nat} (hf : f.addr ≠ a) (hc : c ≠ a) :
    (s.countError f c).reg a = s.reg a :=
  (State.reg_bump ..).trans ((if_neg hc).trans (State.reg_put_ne _ hf _))

/-! ### Accesses to DRAM (R255, R256) -/

theorem windowOf_of_dram {a : Nat} (ha : a < 0x1000000000) : windowOf a = .dram := if_pos ha

/-- An access to DRAM that goes through is served by the memory. -/
theorem exec_dramAccess_of_passes {s : State} {agent a n : Nat} {write : Bool} (ha : a < 0x1000000000)
    (hp : Passes s agent a n (if write then .store else .load)) (t : Nat) (data : List Byte) (e : Ecc) :
    exec (.dramAccess t agent a write data n e) s = .next ((s.at t).access agent a write data n e) := by
  obtain ⟨hunit, hon⟩ := hp
  have hgate : ¬(isControlCore (requesterOf agent) &&
      !((s.at t).unit (requesterOf agent - 1)).allows a n (if write then .store else .load)) = true := by
    intro h
    obtain ⟨hcore, hno⟩ := (Bool.and_eq_true_iff).1 h
    rw [show (s.at t).unit (requesterOf agent - 1) = s.unit (requesterOf agent - 1) from rfl, hunit hcore] at hno
    exact absurd hno (by decide)
  have hon' : ¬(s.at t).domainOff (memDomain a) = true := by
    rw [show (s.at t).domainOff (memDomain a) = s.domainOff (memDomain a) from rfl, hon]; decide
  have hserve (u : State) : u.memServe agent a write data n e = u.access agent a write data n e := by
    simp [State.memServe, State.sramFault, windowOf_of_dram ha]
  show Host.Outcome.next ((s.at t).memAccess agent a write data n e) = _
  rw [State.memAccess, if_neg hgate, if_neg hon', hserve]

/-- An access that the check unit of a control core does not allow is blocked, and traps (R319). -/
theorem exec_dramAccess_of_blocked {s : State} {agent a n : Nat} {write : Bool} (hcore : isControlCore (requesterOf agent) = true)
    (hno : (s.unit (requesterOf agent - 1)).allows a n (if write then .store else .load) = false) (t : Nat) (data : List Byte)
    (e : Ecc) : exec (.dramAccess t agent a write data n e) s =
      .next { s.at t with aid := { s.aid with traps := s.aid.traps ||| 2 ^ (requesterOf agent - 1) } } :=
  congrArg Host.Outcome.next (if_pos (Bool.and_eq_true_iff.2 ⟨hcore, (Bool.not_eq_true' _).mpr hno⟩))

section
variable {s : State} {a : Nat} (ha : a < 0x1000000000)
include ha

theorem State.access_of_store {r : Region} (hr : s.regionAt a = some r) (agent : Nat) (data : List Byte) (n : Nat) (e : Ecc) :
    s.access agent a true data n e = s.dramStore r a data := by
  simp [State.access, windowOf_of_dram ha, hr]

theorem State.access_of_load {r : Region} (hr : s.regionAt a = some r) (agent : Nat) (data : List Byte) (n : Nat) (e : Ecc) :
    s.access agent a false data n e = s.dramServe (some agent) r a n e := by
  simp [State.access, windowOf_of_dram ha, hr]

theorem State.access_of_unmapped (hr : s.regionAt a = none) (agent : Nat) (write : Bool) (data : List Byte) (n : Nat) (e : Ecc) :
    s.access agent a write data n e = s.unmapped agent a n write := by
  simp [State.access, windowOf_of_dram ha, hr]

end

/-! ### Bytes that a filter over addresses leaves -/

theorem tabFind_filter {α : Type} (t : Tab α) (f : Nat → Bool) (i : Nat) :
    tabFind (t.filter fun p => f p.1) i = if f i then tabFind t i else none := by
  induction t with
  | nil => simp [tabFind]
  | cons p r ih =>
    obtain ⟨k, v⟩ := p
    by_cases hk : k = i
    · subst hk
      cases hf : f k <;> simp [tabFind, hf, ih]
    · cases hf : f k <;> simp [tabFind, hf, ih, hk]

/-- Memory without the cells at some addresses reads 0 there and as before elsewhere. -/
theorem memByte_filter (m : List Host.Cell) (f : Nat → Bool) (b : Nat) :
    memByte (m.filter fun c => f c.1) b = if f b then memByte m b else 0 := by
  simp only [memByte_eq, tabGet]
  rw [tabFind_filter m f b]
  split <;> rfl

/-- A line is the 64 bytes from its first one on. -/
theorem within_line (a b : Nat) : within b (a / 64 * 64) 64 = decide (a / 64 = b / 64) := by
  unfold within
  rw [← Bool.decide_and, decide_eq_decide]
  omega

theorem State.memByte_zeroLine (s : State) (a b : Nat) :
    memByte (s.zeroLine a).mem b = if a / 64 = b / 64 then 0 else memByte s.mem b := by
  refine (memByte_filter s.mem (fun x => !within x (a / 64 * 64) 64) b).trans ?_
  simp [within_line]

/-! ### Stores (R256, R259) -/

theorem State.dramStore_of_region {s : State} {a : Nat} {q : Region} (h : s.regionAt a = some q) (r : Region) (data : List Byte) :
    s.dramStore r a data = State.lineGood { s with mem := memPutAll s.mem a data } r a := by
  simp [State.dramStore, State.dramWrite, h]

/-! ### Answers and replacements -/

@[simp] theorem State.memAnswer_regs (s : State) (q : Option Nat) (a : Nat) (d : List Byte) (e : Bool) :
    (s.memAnswer q a d e).regs = s.regs := by cases q <;> rfl

@[simp] theorem State.memAnswer_mem (s : State) (q : Option Nat) (a : Nat) (d : List Byte) (e : Bool) :
    (s.memAnswer q a d e).mem = s.mem := by cases q <;> rfl

@[simp] theorem State.memAnswer_sd (s : State) (q : Option Nat) (a : Nat) (d : List Byte) (e : Bool) :
    (s.memAnswer q a d e).sd = s.sd := by cases q <;> rfl

@[simp] theorem State.replaceData_regs (s : State) (k : PlainData) (a : Nat) : (s.replaceData k a).regs = s.regs := by
  cases k <;> rfl

@[simp] theorem State.replaceData_out (s : State) (k : PlainData) (a : Nat) : (s.replaceData k a).out = s.out := by
  cases k <;> rfl

/-- Streams that are to refresh do so with their next slice. -/
theorem State.mem_fresh_refreshNext (s : State) {l : List Nat} {i : Nat} (hi : i ∈ l) : i ∈ (s.refreshNext l).sd.fresh := by
  have hfresh : (s.refreshNext l).sd.fresh = s.sd.fresh ++ l.filter fun i => !s.sd.fresh.contains i := rfl
  by_cases hs : i ∈ s.sd.fresh <;> simp [hfresh, hi, hs]

/-! ### Uncorrectable plain data (R257, R259) -/

/-- An uncorrectable word of plain data shows in MEM_ERR and is counted. -/
def State.noteUe (s : State) : State := s.countError F.MEM_ERR.UE R.MEM_CNT_UE

section
variable (s : State) (q : Option Nat) (r : Region) (a n : Nat)

theorem State.plainUe_of_map (h : s.plainData a = .map) :
    s.plainUe q a n = s.noteUe.memAnswer q a (s.dramRead a n) false := if_pos h

theorem State.plainUe_of_not_map (h : s.plainData a ≠ .map) :
    s.plainUe q a n = (s.noteUe.replaceData (s.plainData a) a).memAnswer q a (zeros n) true := if_neg h

theorem State.plainUe_regs : (s.plainUe q a n).regs = s.noteUe.regs := by
  by_cases h : s.plainData a = .map
  · rw [State.plainUe_of_map _ _ _ _ h, State.memAnswer_regs]
  · rw [State.plainUe_of_not_map _ _ _ _ h, State.memAnswer_regs, State.replaceData_regs]

/-- Data that the device replaces are good afterwards. -/
theorem State.plainBad_of_own (h : s.plainData a ≠ .other) : s.plainBad q r a n = (s.plainUe q a n).lineGood r a := if_pos h

/-- A bad line is listed once. -/
def State.markBad (s : State) (a : Nat) : State :=
  { s with mm := { s.mm with ueLines := if s.mm.ueLines.contains (a / 64) then s.mm.ueLines else a / 64 :: s.mm.ueLines } }

theorem State.plainBad_of_other (h : s.plainData a = .other) : s.plainBad q r a n = (s.plainUe q a n).markBad a :=
  if_neg fun hne => hne h

theorem State.contains_markBad : (s.markBad a).mm.ueLines.contains (a / 64) = true := by
  unfold State.markBad
  dsimp only
  split
  · assumption
  · simp

theorem State.contains_lineGood : (s.lineGood r a).mm.ueLines.contains (a / 64) = false := by
  simp [State.lineGood]

/-- Whether the line ends good or bad shows in the lists of lines alone. -/
theorem State.plainBad_eq : ∃ m, s.plainBad q r a n = { s.plainUe q a n with mm := m } := by
  by_cases h : s.plainData a = .other
  · exact ⟨_, State.plainBad_of_other _ _ _ _ _ h⟩
  · exact ⟨_, State.plainBad_of_own _ _ _ _ _ h⟩

theorem State.plainBad_regs : (s.plainBad q r a n).regs = s.noteUe.regs := by
  obtain ⟨m, h⟩ := s.plainBad_eq q r a n
  rw [h]; exact State.plainUe_regs ..

theorem State.plainBad_out : (s.plainBad q r a n).out = (s.plainUe q a n).out := by
  obtain ⟨m, h⟩ := s.plainBad_eq q r a n
  rw [h]

theorem State.plainBad_mem : (s.plainBad q r a n).mem = (s.plainUe q a n).mem := by
  obtain ⟨m, h⟩ := s.plainBad_eq q r a n
  rw [h]

theorem State.plainBad_sd : (s.plainBad q r a n).sd = (s.plainUe q a n).sd := by
  obtain ⟨m, h⟩ := s.plainBad_eq q r a n
  rw [h]

end

/-! ### What the ECC finds in a mapped line (R256, R257) -/

/-- A guarded line is read from its good copy: a corrected error and a read of the mirror, each counted. -/
def State.readMirror (s : State) (a : Nat) : State := (s.memCorrected a 3).bump R.MEM_CNT_MIRROR_READ

section
variable {s : State} {r : Region} {a : Nat} (hgood : s.lineBad r a = false)
include hgood

theorem State.dramServe_clean (q : Option Nat) (n : Nat) :
    s.dramServe q r a n .clean = s.memAnswer q a (s.dramSeen a n) false := by
  simp [State.dramServe, hgood]

theorem State.dramServe_both_of_plain (hplain : r.guarded = false) (q : Option Nat) (n : Nat) :
    s.dramServe q r a n .both = s.plainBad q r a n := by
  simp [State.dramServe, hgood, hplain]

theorem State.dramServe_oneCopy_of_guarded (hguard : r.guarded = true)
    (hcopies : (copiesOf r a).any (fun p => s.lostPcs.contains p) = false) (q : Option Nat) (n : Nat) :
    s.dramServe q r a n .oneCopy = (s.readMirror a).memAnswer q a (s.dramSeen a n) false := by
  simp only [State.dramServe, hgood, hguard, hcopies]; rfl

end

/-! ### Registers that error records write (R415, R416, R420) -/

/-- The registers that the records of errors move, apart from the counter of errors of class RECOVERED. -/
def errorRegs : List Nat :=
  R.RAS_PEND :: R.RAS_LAST_FAULT :: R.RAS_CNT_CORR :: R.RAS_CNT_DEGR :: R.RAS_CNT_SPACED :: recordRegs

section
variable {a : Nat} (ha : a ∉ errorRegs)
include ha

/-- Of the other registers the record of an error moves the counter of class RECOVERED alone, where that is its class. -/
theorem State.reg_errRecordAt (s : State) (e : ErrInfo) (at' : Nat) :
    (s.errRecordAt e at').reg a = if e.cls = .recovered ∧ R.RAS_CNT_RECOV = a then s.reg a + 1 else s.reg a := by
  obtain ⟨hpend, -, -, hdegr, -, hrec⟩ : R.RAS_PEND ≠ a ∧ R.RAS_LAST_FAULT ≠ a ∧ R.RAS_CNT_CORR ≠ a ∧ R.RAS_CNT_DEGR ≠ a ∧
      R.RAS_CNT_SPACED ≠ a ∧ a ∉ recordRegs := by
    simpa [errorRegs, eq_comm] using ha
  unfold State.errRecordAt
  extract_lets seq s1 s2
  have h2 : s2.reg a = s.reg a := (State.reg_put_ne s1 hpend _).trans (State.reg_emitRecord hrec ..)
  have haer (u : State) (c : Prop) [Decidable c] : (if c then u.emit (.aer 0 false) else u).reg a = u.reg a := by
    split <;> rfl
  cases hc : e.cls with
  | corrected => simpa using h2
  | recovered =>
    simp only [true_and]
    rw [haer, State.reg_bump]
    split
    · next h => rw [h, h2]
    · exact h2
  | degraded =>
    simp only [reduceCtorEq, false_and, if_false]
    rw [haer, State.reg_bump, if_neg hdegr, h2]
  | fatal =>
    simp only [reduceCtorEq, false_and, if_false]
    exact State.each_keeps (P := fun u => u.reg a = s.reg a) (f := fun u f => u.emit (.aer f true)) (fun u f h => h) h2 _

theorem State.reg_corrected (s : State) (part index cond streams addr : Nat) :
    (s.corrected part index cond streams addr).reg a = s.reg a := by
  have hcorr : R.RAS_CNT_CORR ≠ a := fun h => ha (by rw [← h]; decide)
  unfold State.corrected
  extract_lets s1
  have h1 : s1.reg a = s.reg a := (State.reg_bump ..).trans (if_neg hcorr)
  split
  · split
    · exact h1
    · exact h1
  · exact (State.reg_errRecordAt ha ..).trans ((if_neg (by simp)).trans h1)

theorem State.reg_degraded (s : State) (part index cond streams usable flags floor : Nat) :
    (s.degraded part index cond streams usable flags floor).reg a = s.reg a := by
  have hrec : a ∉ recordRegs := fun h => ha (by simp [errorRegs, h])
  unfold State.degraded
  extract_lets s1 s2
  have h1 : s1.reg a = s.reg a := (State.reg_errRecordAt ha ..).trans (if_neg (by simp))
  exact (State.reg_health hrec ..).trans h1

/-- Of the other registers a single-part fault moves the counter of errors of class RECOVERED alone. -/
theorem State.reg_singlePartFault (s : State) (part index cond streams addr usable flags : Nat) :
    (s.singlePartFault part index cond streams addr usable flags).reg a =
      if R.RAS_CNT_RECOV = a then s.reg a + 1 else s.reg a := by
  have hrec : a ∉ recordRegs := fun h => ha (by simp [errorRegs, h])
  have hlast : R.RAS_LAST_FAULT ≠ a := fun h => ha (by rw [← h]; decide)
  have hspaced : R.RAS_CNT_SPACED ≠ a := fun h => ha (by rw [← h]; decide)
  unfold State.singlePartFault
  extract_lets spaced seq s1 s2 _ s3 s4 s5
  have h4 : s4.reg a = if R.RAS_CNT_RECOV = a then s.reg a + 1 else s.reg a :=
    (State.reg_put_ne s1 hlast _).trans ((State.reg_errRecordAt ha ..).trans (by simp))
  have h5 : s5.reg a = s4.reg a := (State.reg_bump ..).trans (if_neg hspaced)
  split
  · split
    · exact h5.trans h4
    · exact (State.reg_beginSusp hrec s5 ..).trans (h5.trans h4)
  · exact h4

end

/-! ### Corrected errors of a line (R257) -/

theorem State.memCorrected_mem (s : State) (a cond : Nat) : (s.memCorrected a cond).mem = s.mem :=
  (keeps_memCorrected a cond sub_refl keeps_refl).same_of_not_mem (p := .mem) (by decide)

theorem State.ce_memCorrected (s : State) (a cond : Nat) : (s.memCorrected a cond).get F.MEM_ERR.CE = 1 :=
  (State.get_of_reg (State.reg_corrected (by decide) ..)).trans (s.get_countError (c := R.MEM_CNT_CE) (by decide) (by decide))

theorem State.mirrorCount_memCorrected (s : State) (a cond : Nat) :
    (s.memCorrected a cond).reg R.MEM_CNT_MIRROR_READ = s.reg R.MEM_CNT_MIRROR_READ :=
  (State.reg_corrected (by decide) ..).trans (s.reg_countError_ne (f := F.MEM_ERR.CE) (c := R.MEM_CNT_CE) (by decide) (by decide))

theorem State.ce_readMirror (s : State) (a : Nat) : (s.readMirror a).get F.MEM_ERR.CE = 1 :=
  (State.get_bump_ne _ _ _ (by decide)).trans (State.ce_memCorrected ..)

theorem State.mirrorCount_readMirror (s : State) (a : Nat) :
    (s.readMirror a).reg R.MEM_CNT_MIRROR_READ = s.reg R.MEM_CNT_MIRROR_READ + 1 :=
  (State.reg_bump ..).trans ((if_pos rfl).trans (congrArg (· + 1) (State.mirrorCount_memCorrected ..)))

/-! ### An uncorrectable plain line, by what it holds (R259) -/

section
variable {s : State} {r : Region} {agent a n : Nat}

theorem State.plainBad_of_map (h : s.plainData a = .map) :
    (s.plainBad (some agent) r a n).out = s.out ++ [.memData agent a (s.dramRead a n) false] ∧
      (s.plainBad (some agent) r a n).mem = s.mem := by
  rw [State.plainBad_out, State.plainBad_mem, State.plainUe_of_map _ _ _ _ h]
  exact ⟨rfl, rfl⟩

theorem State.out_plainBad_of_not_map (h : s.plainData a ≠ .map) :
    (s.plainBad (some agent) r a n).out = s.out ++ [.memData agent a (zeros n) true] := by
  rw [State.plainBad_out, State.plainUe_of_not_map _ _ _ _ h]
  exact congrArg (· ++ [Out.memData agent a (zeros n) true]) (State.replaceData_out ..)

theorem State.bad_plainBad_of_other (h : s.plainData a = .other) :
    (s.plainBad (some agent) r a n).mm.ueLines.contains (a / 64) = true ∧ (s.plainBad (some agent) r a n).mem = s.mem := by
  constructor
  · rw [State.plainBad_of_other _ _ _ _ _ h]; exact State.contains_markBad ..
  · rw [State.plainBad_mem, State.plainUe_of_not_map _ _ _ _ (by rw [h]; decide), h, State.memAnswer_mem]; rfl

theorem State.contains_plainBad_of_own (h : s.plainData a ≠ .other) :
    (s.plainBad (some agent) r a n).mm.ueLines.contains (a / 64) = false := by
  rw [State.plainBad_of_own _ _ _ _ _ h]; exact State.contains_lineGood ..

/-- The streams whose delta state was lost refresh. -/
theorem State.fresh_plainBad_of_delta {tile i : Nat} (h : s.plainData a = .delta tile) (hi : i ∈ s.tileStreams tile) :
    (s.plainBad (some agent) r a n).sd.fresh.contains i = true := by
  rw [State.plainBad_sd, State.plainUe_of_not_map _ _ _ _ (by rw [h]; simp), h, State.memAnswer_sd, List.contains_iff_mem]
  have hstate (j : Nat) : s.noteUe.streamState j = s.streamState j := by
    refine State.get_of_reg (s.reg_countError_ne ?_ ?_)
    all_goals simp only [F.HG_STREAM_STAT.STATE, R.HG_STREAM_STAT, R.MEM_CNT_UE, F.MEM_ERR.UE, R.MEM_ERR]; omega
  have hsame : s.noteUe.tileStreams tile = s.tileStreams tile := by
    unfold State.tileStreams
    simp only [hstate]
    rfl
  exact State.mem_fresh_refreshNext _ (hsame ▸ hi)

/-- The cells of a lost line of grid memory read zero. -/
theorem State.memByte_plainBad_of_grid {g : Nat} (h : s.plainData a = .grid g) (b : Nat) :
    memByte (s.plainBad (some agent) r a n).mem b = if a / 64 = b / 64 then 0 else memByte s.mem b := by
  rw [State.plainBad_mem, State.plainUe_of_not_map _ _ _ _ (by rw [h]; simp), h, State.memAnswer_mem]
  exact s.noteUe.memByte_zeroLine a b

end

/-! ### Scrubbing and refresh (R258, R262) -/

theorem State.flag_of_reg {s u : State} {f : Fld} (h : u.reg f.addr = s.reg f.addr) : u.flag f = s.flag f :=
  congrArg (fun n => decide (n ≠ 0)) (State.get_of_reg h)

/-- Which pseudo-channels are lost shows in MEM_PC_FAILk and in the list of restored ones alone. -/
theorem State.lostPcs_of_reg {s u : State} (hreg : ∀ k < 8, u.reg (R.MEM_PC_FAILk k) = s.reg (R.MEM_PC_FAILk k))
    (hhealed : u.mm.healed = s.mm.healed) : u.lostPcs = s.lostPcs := by
  have hshown : ((List.range 8).filter fun k => u.flag (F.MEM_PC_FAILk.VALID k)).map (fun k => u.get (F.MEM_PC_FAILk.PC k)) =
      ((List.range 8).filter fun k => s.flag (F.MEM_PC_FAILk.VALID k)).map (fun k => s.get (F.MEM_PC_FAILk.PC k)) := by
    have hvalid : (List.range 8).filter (fun k => u.flag (F.MEM_PC_FAILk.VALID k)) =
        (List.range 8).filter fun k => s.flag (F.MEM_PC_FAILk.VALID k) := List.filter_congr fun k hk =>
      State.flag_of_reg (f := F.MEM_PC_FAILk.VALID k) (hreg k (List.mem_range.1 hk))
    rw [hvalid]
    exact List.map_congr_left fun k hk => State.get_of_reg (hreg k (List.mem_range.1 (List.mem_filter.1 hk).1))
  simp only [State.lostPcs, hshown, hhealed]

/-- The patrol scrubber is at a line: it counts it, and the next one is due. -/
def State.scrubbing (s : State) (a : Nat) : State :=
  let u := s.bump R.MEM_CNT_SCRUB
  { u with mm := { u.mm with scrubNext := a / 64 * 64 + 64 } }

theorem State.lineBad_scrubbing (s : State) (r : Region) (a b : Nat) : (s.scrubbing a).lineBad r b = s.lineBad r b := by
  have hlost : (s.scrubbing a).lostPcs = s.lostPcs := State.lostPcs_of_reg (fun k hk => by
    refine (State.reg_bump ..).trans (if_neg ?_)
    unfold R.MEM_CNT_SCRUB R.MEM_PC_FAILk; omega) rfl
  unfold State.lineBad
  rw [hlost]; rfl

/-- A good line of a region is counted and left alone. -/
theorem State.scrub_of_good {s : State} {a : Nat} {r : Region} (hen : s.flag F.MEM_CTL.SCRUB_EN = true)
    (hr : s.regionAt a = some r) (hgood : s.lineBad r (a / 64 * 64) = false) : s.scrub a .clean = s.scrubbing a := by
  have hgood' : (s.scrubbing a).lineBad r (a / 64 * 64) = false := (State.lineBad_scrubbing ..).trans hgood
  have hserve : (s.scrubbing a).dramServe none r (a / 64 * 64) 64 .clean = s.scrubbing a := State.dramServe_clean hgood' none 64
  unfold State.scrub
  rw [if_neg (by rw [hen]; decide), hr]
  exact hserve

theorem fromSigned_lt (w : Nat) (x : Int) : fromSigned w x < 2 ^ w := by
  have hpos : (0 : Int) < ((2 ^ w : Nat) : Int) := Int.natCast_pos.2 (Nat.two_pow_pos w)
  have hlt := Int.emod_lt_of_pos x hpos
  have hnn := Int.emod_nonneg x (Int.ne_of_gt hpos)
  unfold fromSigned
  omega

/-! ### A lost pseudo-channel (R260, R420) -/

theorem memPcFail_not_mem_errorRegs : ∀ k < 8, R.MEM_PC_FAILk k ∉ errorRegs := by decide

theorem State.replaceLost_regs (s : State) (pc : Nat) : (s.replaceLost pc).regs = s.regs := rfl

theorem State.askCapacity_regs (s : State) : s.askCapacity.regs = s.regs :=
  (keeps_askCapacity sub_refl keeps_refl).same_of_not_mem (p := .regs) (by decide)

/-- A recomputation that is asked for goes ahead of what waits (R228). -/
theorem State.head_askCapacity (s : State) : s.askCapacity.aid.evals.head? = some .capacity := by
  unfold State.askCapacity
  split
  · assumption
  · rfl

/-- A pseudo-channel takes entry k of MEM_PC_FAILk. -/
def State.showLost (s : State) (k pc : Nat) : State :=
  (((s.put F.MEM_ERR.PC_FAILED 1).put (F.MEM_PC_FAILk.VALID k) 1).put (F.MEM_PC_FAILk.PC k) pc)

section
variable (s : State) (k pc : Nat)

theorem memErr_ne_memPcFail : R.MEM_ERR ≠ R.MEM_PC_FAILk k := by
  unfold R.MEM_ERR R.MEM_PC_FAILk; omega

theorem State.valid_showLost : (s.showLost k pc).get (F.MEM_PC_FAILk.VALID k) = 1 := by
  unfold State.showLost
  rw [State.get_put_apart]
  · exact State.get_put_bit _ _ _ (by decide)
  all_goals simp [F.MEM_PC_FAILk.PC, F.MEM_PC_FAILk.VALID]

theorem State.pc_showLost (hpc : pc < 512) : (s.showLost k pc).get (F.MEM_PC_FAILk.PC k) = pc := by
  unfold State.showLost
  rw [State.get_put]
  · exact Nat.mod_eq_of_lt hpc
  all_goals simp [F.MEM_PC_FAILk.PC]

theorem State.pcFailed_showLost : (s.showLost k pc).get F.MEM_ERR.PC_FAILED = 1 := by
  have hne : R.MEM_PC_FAILk k ≠ R.MEM_ERR := (memErr_ne_memPcFail k).symm
  unfold State.showLost
  rw [State.get_put_ne _ _ _ _ hne, State.get_put_ne _ _ _ _ hne]
  exact State.get_put_bit _ _ _ (by decide)

theorem State.recov_showLost (hk : k < 8) : (s.showLost k pc).reg R.RAS_CNT_RECOV = s.reg R.RAS_CNT_RECOV := by
  have hne : R.MEM_PC_FAILk k ≠ R.RAS_CNT_RECOV := by unfold R.MEM_PC_FAILk R.RAS_CNT_RECOV; omega
  unfold State.showLost
  rw [State.reg_put_ne _ hne, State.reg_put_ne _ hne, State.reg_put_ne _ (by decide)]

end

/-- With nothing restored, the lost pseudo-channels are those that the valid entries name. -/
theorem State.mem_lostPcs_of_none_healed {s : State} (h : s.mm.healed = []) (p : Nat) : p ∈ s.lostPcs ↔
    ∃ k < 8, s.flag (F.MEM_PC_FAILk.VALID k) = true ∧ s.get (F.MEM_PC_FAILk.PC k) = p := by
  simp [State.lostPcs, h, and_assoc]

/-- The first pseudo-channel of its stop to fail takes the free entry: one fault, the data that it held, its DEGRADED record, and
a recomputation. -/
theorem State.pcFail_of_first {s : State} {pc k : Nat} (hnew : pc ∉ s.lostPcs) (hhealed : s.mm.healed = [])
    (hstop : ∀ p ∈ s.lostPcs, p / 8 ≠ pc / 8)
    (hfree : (List.range 8).find? (fun k => !s.flag (F.MEM_PC_FAILk.VALID k)) = some k) (cond flags : Nat) :
    ∃ streams usable floor, s.pcFail pc cond flags =
      ((((s.showLost k pc).singlePartFault pPseudo pc cond streams 0 usable flags).replaceLost pc).degraded
        pPseudo pc cond streams usable flags floor).askCapacity := by
  have hne (j : Nat) : F.MEM_ERR.PC_FAILED.addr ≠ R.MEM_PC_FAILk j := memErr_ne_memPcFail j
  unfold State.pcFail
  extract_lets v streams mm w lost idx usable
  have hw : w = v := by
    have hnone : v.mm.healed.filter (fun p => p ≠ pc) = v.mm.healed := by
      rw [show v.mm.healed = [] from hhealed]; rfl
    simp only [w, mm, hnone]
  have hlost : v.lostPcs = s.lostPcs := State.lostPcs_of_reg (fun j _ => State.reg_put_ne _ (hne j) _) rfl
  have hvalid (j : Nat) : v.flag (F.MEM_PC_FAILk.VALID j) = s.flag (F.MEM_PC_FAILk.VALID j) :=
    State.flag_of_reg (State.reg_put_ne _ (hne j) _)
  have hpc (j : Nat) : v.get (F.MEM_PC_FAILk.PC j) = s.get (F.MEM_PC_FAILk.PC j) := State.get_put_ne _ _ _ _ (hne j)
  have hidx : idx = some k := by
    have hshown : (List.range 8).find? (fun k => s.flag (F.MEM_PC_FAILk.VALID k) && s.get (F.MEM_PC_FAILk.PC k) = pc) = none := by
      refine List.find?_eq_none.2 fun j hj hboth => hnew ?_
      rw [State.mem_lostPcs_of_none_healed hhealed]
      exact ⟨j, List.mem_range.1 hj, by simpa using hboth⟩
    simp only [idx, hw, hvalid, hpc, hshown, hfree]
  have hcalm : ¬(lost.any fun p => decide (p / 8 = pc / 8)) = true := by
    simp only [lost, hw, hlost]
    simpa using fun p hp _ _ => hstop p hp
  rw [if_neg (by simp [hnew]), if_neg hcalm, hidx, hw]
  exact ⟨_, _, _, rfl⟩

/-- A failed pseudo-channel of a stop that lost none shows in its entry, in MEM_ERR and as one error of class RECOVERED. -/
theorem State.pcFail_shows {s : State} {pc k : Nat} (hpc : pc < 512) (hnew : pc ∉ s.lostPcs) (hhealed : s.mm.healed = [])
    (hstop : ∀ p ∈ s.lostPcs, p / 8 ≠ pc / 8)
    (hfree : (List.range 8).find? (fun k => !s.flag (F.MEM_PC_FAILk.VALID k)) = some k) (cond flags : Nat) :
    let u := s.pcFail pc cond flags
    u.get (F.MEM_PC_FAILk.VALID k) = 1 ∧ u.get (F.MEM_PC_FAILk.PC k) = pc ∧ u.get F.MEM_ERR.PC_FAILED = 1 ∧
      u.reg R.RAS_CNT_RECOV = s.reg R.RAS_CNT_RECOV + 1 ∧ u.aid.evals.head? = some .capacity := by
  have hk : k < 8 := List.mem_range.1 (List.mem_of_find?_eq_some hfree)
  have hent := memPcFail_not_mem_errorRegs k hk
  have hnrec : R.RAS_CNT_RECOV ≠ R.MEM_PC_FAILk k := by unfold R.RAS_CNT_RECOV R.MEM_PC_FAILk; omega
  obtain ⟨streams, usable, floor, heq⟩ := State.pcFail_of_first hnew hhealed hstop hfree cond flags
  have hreg {a : Nat} (ha : a ∉ errorRegs) : (s.pcFail pc cond flags).reg a =
      if R.RAS_CNT_RECOV = a then (s.showLost k pc).reg a + 1 else (s.showLost k pc).reg a := by
    rw [heq, State.reg_of_regs (State.askCapacity_regs _), State.reg_degraded ha, State.reg_of_regs (State.replaceLost_regs _ _),
      State.reg_singlePartFault ha]
  refine ⟨?_, ?_, ?_, ?_, ?_⟩
  · exact (State.get_of_reg ((hreg hent).trans (if_neg hnrec))).trans (s.valid_showLost k pc)
  · exact (State.get_of_reg ((hreg hent).trans (if_neg hnrec))).trans (s.pc_showLost k pc hpc)
  · exact (State.get_of_reg ((hreg (by decide)).trans (if_neg (by decide)))).trans (s.pcFailed_showLost k pc)
  · rw [hreg (by decide), if_pos rfl, s.recov_showLost k pc hk]
  · rw [heq]; exact State.head_askCapacity _

/-! ### Flits (R268, R278) -/

/-- Bits of a word, read off the whole of it. -/
theorem natBits_getBits (w : Word) {hi lo : Nat} (hl : lo ≤ hi) (h : hi < 64) :
    natBits (getBits w 63 0) hi lo = getBits w hi lo := by
  refine Nat.eq_of_testBit_eq fun i => ?_
  unfold natBits
  rw [Nat.testBit_mod_two_pow, Nat.testBit_shiftRight, testBit_getBits _ (by decide), testBit_getBits _ h]
  by_cases hi' : i < hi - lo + 1
  · have h1 : lo + i < 64 := by omega
    simp [hi', h1]
  · simp [hi']

theorem State.stopSeq_eq (s : State) (l : Nat) :
    s.stopSeq l = getBits (s.reg (R.CN_STOP_SEQ (l / 4))) (16 * (l % 4) + 15) (16 * (l % 4)) :=
  natBits_getBits _ (by omega) (by omega)

/-- The packet sequence of a port moves on. -/
def State.nextSeq (s : State) (l : Nat) : State :=
  s.setReg (R.CN_STOP_SEQ (l / 4))
    (setBits (s.reg (R.CN_STOP_SEQ (l / 4))) (16 * (l % 4) + 15) (16 * (l % 4)) ((s.stopSeq l + 1) % 65536))

theorem State.stopSeq_nextSeq (s : State) (l : Nat) : (s.nextSeq l).stopSeq l = (s.stopSeq l + 1) % 65536 := by
  have hwidth : 16 * (l % 4) + 15 - 16 * (l % 4) + 1 = 16 := by omega
  rw [State.stopSeq_eq (s.nextSeq l), State.nextSeq, State.reg_setReg_self,
    getBits_setBits_same _ _ (by omega) (by omega), hwidth]
  exact Nat.mod_mod _ 65536

/-- Port l has n replays in a row. -/
def State.setReplays (s : State) (l n : Nat) : State := { s with mm := { s.mm with links := tabSet 0 s.mm.links l n } }

theorem State.replays_setReplays (s : State) (l n : Nat) : tabGet 0 (s.setReplays l n).mm.links l = n :=
  (tabGet_set ..).trans (if_pos rfl)

/-- A bad flit shows in CN_ERR, is counted as a replay and is a corrected error of its link. -/
def State.noteReplay (s : State) (l : Nat) : State :=
  (s.countError F.CN_ERR.CRC R.CN_CNT_RETRY).corrected pLink (linkIndex l) 1 0 0

theorem State.reg_noteReplay (s : State) (l : Nat) {a : Nat} (ha : a ∉ R.CN_ERR :: R.CN_CNT_RETRY :: errorRegs) :
    (s.noteReplay l).reg a = s.reg a := by
  obtain ⟨herr, hcnt, hrec⟩ : R.CN_ERR ≠ a ∧ R.CN_CNT_RETRY ≠ a ∧ a ∉ errorRegs := by simpa [eq_comm] using ha
  exact (State.reg_corrected hrec ..).trans (s.reg_countError_ne herr hcnt)

theorem State.crc_noteReplay (s : State) (l : Nat) : (s.noteReplay l).get F.CN_ERR.CRC = 1 :=
  (State.get_of_reg (State.reg_corrected (by decide) ..)).trans (s.get_countError (by decide) (by decide))

theorem State.retries_noteReplay (s : State) (l : Nat) : (s.noteReplay l).reg R.CN_CNT_RETRY = s.reg R.CN_CNT_RETRY + 1 :=
  (State.reg_corrected (by decide) ..).trans (s.count_countError (by decide))

section
variable {s : State} {l : Nat} (hup : s.linkFailed l = false)
include hup

theorem State.canalFlit_of_good (last : Bool) :
    s.canalFlit l true last = (if last then s.nextSeq l else s).setReplays l 0 := by
  unfold State.canalFlit
  rw [if_neg (by rw [hup]; decide)]
  rfl

/-- Below the limit of replays a bad flit fails no link. -/
theorem State.canalFlit_of_bad (hlimit : tabGet 0 s.mm.links l + 1 < s.get F.CN_CTL.RETRY_LIMIT) (last : Bool) :
    s.canalFlit l false last = (s.noteReplay l).setReplays l (tabGet 0 s.mm.links l + 1) := by
  have hctl : (s.noteReplay l).get F.CN_CTL.RETRY_LIMIT = s.get F.CN_CTL.RETRY_LIMIT :=
    State.get_of_reg (State.reg_noteReplay _ _ (by decide))
  have hbelow : ¬(tabGet 0 s.mm.links l + 1 ≥ (s.noteReplay l).get F.CN_CTL.RETRY_LIMIT) := by rw [hctl]; omega
  unfold State.canalFlit
  rw [if_neg (by rw [hup]; decide)]
  exact if_neg hbelow

end

theorem cnStopSeq_not_mem_replayRegs : ∀ j < 96, R.CN_STOP_SEQ j ∉ R.CN_ERR :: R.CN_CNT_RETRY :: errorRegs := by decide

/-! ### Failed links (R268, R420) -/

/-- The links of a list are marked in one field of their stops. -/
def State.markLinks (s : State) (f : Nat → Fld) (ls : List Nat) : State :=
  s.each ls fun s l => s.put (f (l / 4)) (s.get (f (l / 4)) ||| 2 ^ (l % 4))

/-- A mark as failed is that of one link. -/
theorem State.linkFailed_mark (s : State) (l x : Nat) :
    (s.put (F.CN_STOP_LINK.FAILED (l / 4)) (s.get (F.CN_STOP_LINK.FAILED (l / 4)) ||| 2 ^ (l % 4))).linkFailed x =
      (s.linkFailed x || decide (x = l)) := by
  unfold State.linkFailed
  by_cases hstop : l / 4 = x / 4
  · have hx : x % 4 < 4 := Nat.mod_lt _ (by decide)
    have hsame : (x = l) = (l % 4 = x % 4) := propext ⟨fun h => by rw [h], fun h => by omega⟩
    have hput : (s.put (F.CN_STOP_LINK.FAILED (x / 4)) (s.get (F.CN_STOP_LINK.FAILED (x / 4)) ||| 2 ^ (l % 4))).get
        (F.CN_STOP_LINK.FAILED (x / 4)) = (s.get (F.CN_STOP_LINK.FAILED (x / 4)) ||| 2 ^ (l % 4)) % 2 ^ 4 :=
      State.get_put _ _ _ (by simp [F.CN_STOP_LINK.FAILED]) (by simp [F.CN_STOP_LINK.FAILED])
    rw [hstop, hput, Nat.testBit_mod_two_pow, Nat.testBit_or, Nat.testBit_two_pow, decide_eq_true hx, Bool.true_and]
    simp only [hsame]
  · have hne : (F.CN_STOP_LINK.FAILED (l / 4)).addr ≠ (F.CN_STOP_LINK.FAILED (x / 4)).addr := by
      simp only [F.CN_STOP_LINK.FAILED, R.CN_STOP_LINK]; omega
    rw [State.get_put_ne _ _ _ _ hne, decide_eq_false (fun h => hstop (by rw [h])), Bool.or_false]

theorem State.linkFailed_markLinks (s : State) (ls : List Nat) (x : Nat) :
    (s.markLinks F.CN_STOP_LINK.FAILED ls).linkFailed x = (s.linkFailed x || decide (x ∈ ls)) := by
  unfold State.markLinks State.each
  induction ls generalizing s with
  | nil => simp
  | cons l ls ih => rw [List.foldl_cons, ih, State.linkFailed_mark]; simp [Bool.or_assoc]

theorem State.reg_markLinks (s : State) {f : Nat → Fld} {a : Nat} {ls : List Nat} (h : ∀ l ∈ ls, (f (l / 4)).addr ≠ a) :
    (s.markLinks f ls).reg a = s.reg a := by
  unfold State.markLinks State.each
  induction ls generalizing s with
  | nil => rfl
  | cons l ls ih =>
    rw [List.foldl_cons, ih _ fun x hx => h x (List.mem_cons_of_mem _ hx)]
    exact State.reg_put_ne _ (h l List.mem_cons_self) _

/-- Marks of a detour leave the marks of failed links. -/
theorem State.linkFailed_markDetours (s : State) (ls : List Nat) (x : Nat) :
    (s.markLinks F.CN_STOP_LINK.DETOUR ls).linkFailed x = s.linkFailed x := by
  refine State.each_keeps (P := fun u => u.linkFailed x = s.linkFailed x) (fun u l hu => ?_) rfl ls
  have hget : (u.put (F.CN_STOP_LINK.DETOUR (l / 4)) (u.get (F.CN_STOP_LINK.DETOUR (l / 4)) ||| 2 ^ (l % 4))).get
      (F.CN_STOP_LINK.FAILED (x / 4)) = u.get (F.CN_STOP_LINK.FAILED (x / 4)) :=
    State.get_put_apart _ _ _ _ (by simp [F.CN_STOP_LINK.DETOUR]) (by simp [F.CN_STOP_LINK.DETOUR])
      (by simp [F.CN_STOP_LINK.FAILED]) (by simp [F.CN_STOP_LINK.FAILED])
      (.inr (by simp [F.CN_STOP_LINK.DETOUR, F.CN_STOP_LINK.FAILED]))
  exact (congrArg (Nat.testBit · (x % 4)) hget).trans hu

/-- Both ends of a link are ports of the mesh, and name the link by the same index. -/
theorem linkEnds_lt : ∀ l < 384, ∀ x ∈ linkEnds l, x < 384 ∧ linkIndex x = linkIndex l := by decide +kernel

/-- The three links of a detour are other links than the one that it goes around. -/
theorem linkIndex_detour_ne : ∀ l < 384, (otherEnd l).isSome = true → ∀ d ∈ detourLinks l, linkIndex d ≠ linkIndex l := by
  decide +kernel

/-- A link is taken out of use: it is no longer a restored one, and both ends mark it as failed. -/
def State.cutLink (s : State) (l : Nat) : State :=
  (State.put { s with mm := { s.mm with relinked := s.mm.relinked.filter fun x => x ≠ linkIndex l } }
    F.CN_ERR.LINK_FAIL 1).markLinks F.CN_STOP_LINK.FAILED (linkEnds l)

theorem State.linkFailed_cutLink (s : State) (l x : Nat) :
    (s.cutLink l).linkFailed x = (s.linkFailed x || decide (x ∈ linkEnds l)) := by
  have hne : F.CN_ERR.LINK_FAIL.addr ≠ (F.CN_STOP_LINK.FAILED (x / 4)).addr := by
    simp only [F.CN_ERR.LINK_FAIL, R.CN_ERR, F.CN_STOP_LINK.FAILED, R.CN_STOP_LINK]; omega
  refine (State.linkFailed_markLinks ..).trans (congrArg (· || decide (x ∈ linkEnds l)) ?_)
  exact congrArg (Nat.testBit · (x % 4)) (State.get_put_ne _ _ _ _ hne)

@[simp] theorem State.markLinks_mm (s : State) (f : Nat → Fld) (ls : List Nat) : (s.markLinks f ls).mm = s.mm := by
  refine State.each_keeps (P := fun u => u.mm = s.mm) (fun u l hu => ?_) rfl ls
  exact hu

theorem State.linkFailed_of_reg {s u : State} {x : Nat} (h : u.reg (R.CN_STOP_LINK (x / 4)) = s.reg (R.CN_STOP_LINK (x / 4))) :
    u.linkFailed x = s.linkFailed x :=
  congrArg (Nat.testBit · (x % 4)) (State.get_of_reg (f := F.CN_STOP_LINK.FAILED (x / 4)) h)

/-- Outside the registers of its stops a cut link shows in CN_ERR alone. -/
theorem State.reg_cutLink_of_outside (s : State) {l a : Nat} (hl : l < 384)
    (ha : a < R.CN_STOP_LINK 0 ∨ R.CN_STOP_LINK 96 ≤ a) :
    (s.cutLink l).reg a = (s.put F.CN_ERR.LINK_FAIL 1).reg a := by
  refine State.reg_markLinks _ fun x hx => ?_
  have hlt := (linkEnds_lt l hl x hx).1
  simp only [F.CN_STOP_LINK.FAILED, R.CN_STOP_LINK] at ha ⊢
  omega

theorem State.reg_markDetours_of_outside (s : State) {l a : Nat} (hl : l < 384)
    (ha : a < R.CN_STOP_LINK 0 ∨ R.CN_STOP_LINK 96 ≤ a) :
    (s.markLinks F.CN_STOP_LINK.DETOUR (linkEnds l)).reg a = s.reg a := by
  refine State.reg_markLinks _ fun x hx => ?_
  have hlt := (linkEnds_lt l hl x hx).1
  simp only [F.CN_STOP_LINK.DETOUR, R.CN_STOP_LINK] at ha ⊢
  omega

theorem cnStopLink_not_mem_errorRegs : ∀ j < 96, R.CN_STOP_LINK j ∉ errorRegs := by decide

section
variable {s : State} {l : Nat} (hl : l < 384) (hends : (otherEnd l).isSome = true)
include hl hends

/-- Taking a link out of use leaves the links of its detour. -/
theorem State.linkOut_cutLink_of_detour {d : Nat} (hd : d ∈ detourLinks l) : (s.cutLink l).linkOut d = s.linkOut d := by
  have hindex : linkIndex d ≠ linkIndex l := linkIndex_detour_ne l hl hends d hd
  have hmem : d ∉ linkEnds l := fun h => hindex (linkEnds_lt l hl d h).2
  have hre : (s.cutLink l).mm.relinked = s.mm.relinked.filter fun x => x ≠ linkIndex l :=
    congrArg Mm.relinked (State.markLinks_mm ..)
  unfold State.linkOut
  rw [State.linkFailed_cutLink, decide_eq_false hmem, Bool.or_false, hre]
  congr 2
  simp [hindex]

/-- A link whose detour is whole fails as a single part: its ends and the detour are marked, and it stays out of service. -/
theorem State.linkDown_of_detour (hup : s.linkOut l = false) (hdetour : (detourLinks l).any s.linkOut = false)
    (cond flags : Nat) :
    ∃ streams usable floor, s.linkDown l cond flags =
      ((((s.cutLink l).singlePartFault pLink (linkIndex l) cond streams 0 usable flags).markLinks F.CN_STOP_LINK.DETOUR
        (linkEnds l)).degraded pLink (linkIndex l) cond streams usable flags floor).askCapacity := by
  have hwhole : ¬(detourLinks l).any (s.cutLink l).linkOut = true := by
    rw [List.any_eq_false.2 fun d hd => by
      rw [State.linkOut_cutLink_of_detour hl hends hd]; exact List.any_eq_false.1 hdetour d hd]
    decide
  have hnone : (otherEnd l).isNone = false := by rw [← Option.not_isSome, hends]; rfl
  unfold State.linkDown
  rw [if_neg (by rw [hup, hnone]; decide)]
  exact ⟨_, _, _, if_neg hwhole⟩

/-- A failed link shows at both ends, in CN_ERR and as one error of class RECOVERED. -/
theorem State.linkDown_shows (hup : s.linkOut l = false) (hdetour : (detourLinks l).any s.linkOut = false) (cond flags : Nat) :
    let u := s.linkDown l cond flags
    (∀ x ∈ linkEnds l, u.linkFailed x = true) ∧ u.get F.CN_ERR.LINK_FAIL = 1 ∧
      u.reg R.RAS_CNT_RECOV = s.reg R.RAS_CNT_RECOV + 1 ∧ u.aid.evals.head? = some .capacity := by
  obtain ⟨streams, usable, floor, heq⟩ := State.linkDown_of_detour hl hends hup hdetour cond flags
  let v := (s.cutLink l).singlePartFault pLink (linkIndex l) cond streams 0 usable flags
  have hlast {a : Nat} (ha : a ∉ errorRegs) :
      (s.linkDown l cond flags).reg a = (v.markLinks F.CN_STOP_LINK.DETOUR (linkEnds l)).reg a := by
    rw [heq, State.reg_of_regs (State.askCapacity_regs _), State.reg_degraded ha]
  have hlow {a : Nat} (ha : a ∉ errorRegs) (hlow : a < R.CN_STOP_LINK 0 ∨ R.CN_STOP_LINK 96 ≤ a) :
      (s.linkDown l cond flags).reg a = if R.RAS_CNT_RECOV = a then (s.put F.CN_ERR.LINK_FAIL 1).reg a + 1
        else (s.put F.CN_ERR.LINK_FAIL 1).reg a := by
    rw [hlast ha, State.reg_markDetours_of_outside _ hl hlow, State.reg_singlePartFault ha,
      State.reg_cutLink_of_outside _ hl hlow]
  refine ⟨fun x hx => ?_, ?_, ?_, ?_⟩
  · have hx96 : x / 4 < 96 := by have := (linkEnds_lt l hl x hx).1; omega
    have hreg := cnStopLink_not_mem_errorRegs (x / 4) hx96
    have hnrec : R.RAS_CNT_RECOV ≠ R.CN_STOP_LINK (x / 4) := by unfold R.RAS_CNT_RECOV R.CN_STOP_LINK; omega
    rw [State.linkFailed_of_reg (hlast hreg), State.linkFailed_markDetours,
      State.linkFailed_of_reg ((State.reg_singlePartFault hreg ..).trans (if_neg hnrec)), State.linkFailed_cutLink]
    simp [hx]
  · exact (State.get_of_reg ((hlow (by decide) (.inl (by decide))).trans (if_neg (by decide)))).trans
      (State.get_put_bit _ _ _ (by decide))
  · rw [hlow (by decide) (.inr (by decide)), if_pos rfl, State.reg_put_ne _ (by decide)]
  · rw [heq]; exact State.head_askCapacity _

end

/-! ### Sluice queues: what a queue does (R270, R271, R274, R275) -/

theorem map_fst_markLast (ws : List (List Byte)) : (markLast ws).map (fun p => p.1) = ws := by
  induction ws with
  | nil => rfl
  | cons w r ih =>
    cases r with
    | nil => rfl
    | cons v r => simpa [markLast] using ih

theorem getLast?_markLast_concat (ws : List (List Byte)) (w : List Byte) : (markLast (ws ++ [w])).getLast? = some (w, true) := by
  induction ws with
  | nil => rfl
  | cons v r ih =>
    cases r with
    | nil => rfl
    | cons u r => simpa [markLast, List.getLast?_cons] using ih

section
variable {x : SqQueue} (hdisc : x.discarding = false)
include hdisc

theorem SqQueue.write_of_room (hroom : 0 < x.space) (mark : Mark) (w : List Byte) : x.write mark w = match mark with
    | .more => { x with opened := x.opened ++ [w] }
    | .last => { x with words := x.words ++ markLast (x.opened ++ [w]), opened := [], pktIn := (x.pktIn + 1) % 2 ^ 32 }
    | .bad => { x with opened := [] } :=
  (if_neg (by rw [hdisc]; decide)).trans (if_neg (Nat.pos_iff_ne_zero.1 hroom))

theorem SqQueue.write_of_full (hfull : x.space = 0) (mark : Mark) (w : List Byte) :
    x.write mark w = { x with overrun := true, opened := [], discarding := mark = .more } :=
  (if_neg (by rw [hdisc]; decide)).trans (if_pos hfull)

end

/-- Packets fed to a queue follow its words; they move its count of packets in, and how many of those kept are committed. -/
theorem SqQueue.feed_eq (x : SqQueue) (ps : List (List (List Byte))) :
    ∃ ws n m, x.feed ps = { x with words := x.words ++ ws, pktIn := n, sent := m } := by
  induction ps generalizing x with
  | nil => exact ⟨[], x.pktIn, x.sent, by simp [SqQueue.feed]⟩
  | cons p ps ih =>
    rw [SqQueue.feed]
    split
    · obtain ⟨ws, n, m, h⟩ := ih (x.commit p)
      exact ⟨markLast p ++ ws, n, m, by rw [h, ← List.append_assoc]; rfl⟩
    · exact ⟨[], x.pktIn, x.sent, by simp⟩

/-! ### Sluice queues: what the state does with a queue (R270–R275) -/

/-- A producer's write is that of its queue, with the ready notice of a commit to an empty queue. -/
theorem State.sqWrite_of_producer {s : State} {q agent : Nat} (hen : (s.queue q).enabled = true)
    (hprod : agent = (s.queue q).prod) (mark : Mark) (w : List Byte) : s.sqWrite q agent mark w =
      let y := (s.queue q).write mark w
      if (s.queue q).words.isEmpty && !y.words.isEmpty then (s.setQueue q y).emit (.notice (s.queue q).cons q 0 0)
      else s.setQueue q y := by
  simp [State.sqWrite, hen, hprod]

theorem markLast_concat_ne_nil (ws : List (List Byte)) (w : List Byte) : markLast (ws ++ [w]) ≠ [] := fun h => by
  simpa [h] using getLast?_markLast_concat ws w

/-- A write that commits words shows in the queue, with the ready notice where the queue was empty (R272). -/
theorem State.sqWrite_of_commit {s : State} {q agent : Nat} (hen : (s.queue q).enabled = true) (hprod : agent = (s.queue q).prod)
    {mark : Mark} {w : List Byte} {y : SqQueue} (hy : (s.queue q).write mark w = y) (hwords : y.words ≠ []) :
    (s.sqWrite q agent mark w).queue q = y ∧ (s.sqWrite q agent mark w).out =
      if (s.queue q).words = [] then s.out ++ [.notice (s.queue q).cons q 0 0] else s.out := by
  rw [State.sqWrite_of_producer hen hprod, hy]
  have hnew : y.words.isEmpty = false := by simpa using hwords
  dsimp only
  by_cases hempty : (s.queue q).words = []
  · have hold : (s.queue q).words.isEmpty = true := List.isEmpty_iff.2 hempty
    rw [if_pos (by rw [hold, hnew]; rfl), if_pos hempty]
    exact ⟨State.queue_setQueue .., rfl⟩
  · have hold : (s.queue q).words.isEmpty = false := by simpa using hempty
    rw [if_neg (by rw [hold, hnew]; decide), if_neg hempty]
    exact ⟨State.queue_setQueue .., rfl⟩

/-- A write that leaves the committed words shows in the queue alone. -/
theorem State.sqWrite_of_same_words {s : State} {q agent : Nat} (hen : (s.queue q).enabled = true)
    (hprod : agent = (s.queue q).prod) {mark : Mark} {w : List Byte} {y : SqQueue} (hy : (s.queue q).write mark w = y)
    (hwords : y.words = (s.queue q).words) : s.sqWrite q agent mark w = s.setQueue q y := by
  rw [State.sqWrite_of_producer hen hprod, hy]
  simp [hwords]

theorem State.sqWrite_of_foreign {s : State} {q agent : Nat} (hen : (s.queue q).enabled = true) (hprod : agent ≠ (s.queue q).prod)
    (mark : Mark) (w : List Byte) : s.sqWrite q agent mark w = s.put F.SQ_ERR.ILLEGAL_AGENT 1 := by
  simp [State.sqWrite, hen, hprod]

/-- A queue once its consumer has read a word, behind which `r` is left (R272, R275). -/
def SqQueue.afterRead (x : SqQueue) (last : Bool) (r : List (List Byte × Bool)) : SqQueue :=
  { x with
    words := r, midRead := !last, pktOut := if last then (x.pktOut + 1) % 2 ^ 32 else x.pktOut
    kept := if last then x.kept.drop 1 else x.kept, sent := if last then x.sent - 1 else x.sent }

theorem SqQueue.kept_afterRead_of_nil {x : SqQueue} (h : x.kept = []) (last : Bool) (r : List (List Byte × Bool)) :
    (x.afterRead last r).kept = [] := by
  simp [SqQueue.afterRead, h]

theorem State.sqRead_of_word {s : State} {q agent : Nat} {w : List Byte} {last : Bool} {r : List (List Byte × Bool)}
    (hen : (s.queue q).enabled = true) (hcons : agent = (s.queue q).cons) (hwords : (s.queue q).words = (w, last) :: r) :
    s.sqRead q agent =
      ((s.setQueue q ((s.queue q).afterRead last r)).emit (.sqWord agent q w last true)).sqFeed q := by
  simp [State.sqRead, SqQueue.afterRead, hen, hcons, hwords]

theorem State.sqRead_of_no_word {s : State} {q agent : Nat}
    (h : agent ≠ (s.queue q).cons ∨ (s.queue q).enabled = false ∨ (s.queue q).words = []) :
    s.sqRead q agent = s.emit (.sqWord agent q (zeros 64) false false) := by
  unfold State.sqRead
  dsimp only
  split
  · rfl
  · next hgo =>
    have hgo' : agent = (s.queue q).cons ∧ (s.queue q).enabled = true := by simpa using hgo
    obtain ⟨hcons, hen⟩ := hgo'
    rcases h with h | h | h
    · exact absurd hcons h
    · rw [hen] at h; cases h
    · rw [h]

/-- What feeding a queue does to it: waiting packets may follow its words. -/
theorem State.queue_sqFeed (s : State) (q : Nat) :
    ∃ ws n m, (s.sqFeed q).queue q = { s.queue q with words := (s.queue q).words ++ ws, pktIn := n, sent := m } := by
  unfold State.sqFeed
  dsimp only
  split
  · exact ⟨[], (s.queue q).pktIn, (s.queue q).sent, by simp⟩
  · obtain ⟨ws, n, m, h⟩ := (s.queue q).feed_eq ((s.queue q).kept.drop (s.queue q).sent)
    refine ⟨ws, n, m, ?_⟩
    rw [h]
    split
    · exact State.queue_setQueue ..
    · exact State.queue_setQueue ..

/-- A queue for which no packet waits is left as it is. -/
theorem State.queue_sqFeed_of_none_kept {s : State} {q : Nat} (h : (s.queue q).kept = []) : (s.sqFeed q).queue q = s.queue q := by
  have hfeed : (s.queue q).feed ((s.queue q).kept.drop (s.queue q).sent) = s.queue q := by rw [h, List.drop_nil]; rfl
  unfold State.sqFeed
  dsimp only
  rw [hfeed]
  split
  · rfl
  · split
    · exact State.queue_setQueue ..
    · exact State.queue_setQueue ..

theorem State.out_sqFeed (s : State) (q : Nat) : s.out <+: (s.sqFeed q).out := by
  obtain ⟨_, hout, _⟩ := keeps_sqFeed (s0 := s) (s := s) q sub_refl keeps_refl
  exact hout

@[simp] theorem State.sqFeed_regs (s : State) (q : Nat) : (s.sqFeed q).regs = s.regs :=
  (keeps_sqFeed q sub_refl keeps_refl).same_of_not_mem (p := .regs) (by decide)

/-! ### Sluice queues: resets (R274) -/

/-- What a reset of each cause leaves in the queue: beside the emptied queue, which error it shows. -/
def SqQueue.emptied (x : SqQueue) (cause : ResetCause) : SqQueue :=
  let y := { x with words := [], opened := [], discarding := false, midRead := false, epoch := (x.epoch + 1) % 256, sent := 0 }
  match cause with
  | .pointer => { y with ptrErr := true }
  | .uncorrectable => { y with ue := true }
  | .software _ => y

theorem SqQueue.emptied_fields (x : SqQueue) (cause : ResetCause) :
    (x.emptied cause).words = [] ∧ (x.emptied cause).opened = [] ∧ (x.emptied cause).epoch = (x.epoch + 1) % 256 ∧
      (x.emptied cause).kept = x.kept ∧ (x.emptied cause).pktIn = x.pktIn := by
  cases cause <;> exact ⟨rfl, rfl, rfl, rfl, rfl⟩

/-- A reset that an error caused shows in SQ_ERR and is counted. -/
def State.countReset (s : State) (cause : ResetCause) : State :=
  match cause with
  | .software _ => s
  | _ => s.countError F.SQ_ERR.RESET R.SQ_CNT_RESET

@[simp] theorem State.countReset_out (s : State) (cause : ResetCause) : (s.countReset cause).out = s.out := by
  cases cause <;> rfl

/-- The queue is emptied, both agents get their notice with the packets read, and what is kept is given again. -/
def State.resetQueue (s : State) (q : Nat) (cause : ResetCause) : State :=
  (((((s.setQueue q ((s.queue q).emptied cause)).countReset cause).emit (.notice (s.queue q).prod q 1 (s.queue q).pktOut)).emit
    (.notice (s.queue q).cons q 1 (s.queue q).pktOut)).sqFeed q)

/-- A reset that an error caused is a single-part fault of the queue. -/
theorem State.sqReset_of_error (s : State) (q : Nat) {cause : ResetCause} (h : cause = .pointer ∨ cause = .uncorrectable)
    (flags : Nat) : ∃ cond,
      s.sqReset q cause flags = (s.resetQueue q cause).singlePartFault pQueue q cond (s.queue q).streams 0 4096 flags := by
  rcases h with rfl | rfl
  · exact ⟨1, rfl⟩
  · exact ⟨2, rfl⟩

/-- The queue after a reset is the emptied one, behind which the packets still kept are committed again. -/
theorem State.queue_resetQueue (s : State) (q : Nat) (cause : ResetCause) : ∃ ws n m,
    (s.resetQueue q cause).queue q = { (s.queue q).emptied cause with words := ws, pktIn := n, sent := m } ∧
      ((s.queue q).kept = [] → ws = [] ∧ n = (s.queue q).pktIn) := by
  obtain ⟨hwords, -, -, hkept, hin⟩ := (s.queue q).emptied_fields cause
  let v := (((s.setQueue q ((s.queue q).emptied cause)).countReset cause).emit
    (.notice (s.queue q).prod q 1 (s.queue q).pktOut)).emit (.notice (s.queue q).cons q 1 (s.queue q).pktOut)
  have hv : v.queue q = (s.queue q).emptied cause := by
    have hset : v.queue q = (s.setQueue q ((s.queue q).emptied cause)).queue q := by cases cause <;> rfl
    exact hset.trans (State.queue_setQueue ..)
  by_cases hk : (s.queue q).kept = []
  · have hsame : (s.resetQueue q cause).queue q = v.queue q :=
      State.queue_sqFeed_of_none_kept (s := v) (by rw [hv, hkept, hk])
    refine ⟨[], (s.queue q).pktIn, ((s.queue q).emptied cause).sent, ?_, fun _ => ⟨rfl, rfl⟩⟩
    rw [hsame, hv, ← hwords, ← hin]
  · obtain ⟨ws, n, m, h⟩ := v.queue_sqFeed q
    refine ⟨((s.queue q).emptied cause).words ++ ws, n, m, ?_, fun h => absurd h hk⟩
    rw [← hv]; exact h

theorem State.out_resetQueue (s : State) (q : Nat) (cause : ResetCause) :
    s.out ++ [.notice (s.queue q).prod q 1 (s.queue q).pktOut, .notice (s.queue q).cons q 1 (s.queue q).pktOut] <+:
      (s.resetQueue q cause).out := by
  refine List.IsPrefix.trans ?_ (State.out_sqFeed _ q)
  simp

theorem State.regs_resetQueue (s : State) (q : Nat) (cause : ResetCause) :
    (s.resetQueue q cause).regs = (s.countReset cause).regs :=
  (State.sqFeed_regs ..).trans (by cases cause <;> rfl)

@[simp] theorem State.singlePartFault_mm (s : State) (part index cond streams addr usable flags : Nat) :
    (s.singlePartFault part index cond streams addr usable flags).mm = s.mm :=
  (keeps_singlePartFault part index cond streams addr usable flags sub_refl keeps_refl).same_of_not_mem (p := .mm) (by decide)

theorem State.queue_of_mm {s u : State} (h : u.mm = s.mm) (q : Nat) : u.queue q = s.queue q := by
  unfold State.queue; rw [h]

/-- Whatever its cause, a reset leaves the queue as `resetQueue` does, and takes no output back. -/
theorem State.queue_and_out_sqReset (s : State) (q : Nat) (cause : ResetCause) (flags : Nat) :
    (s.sqReset q cause flags).queue q = (s.resetQueue q cause).queue q ∧
      (s.resetQueue q cause).out <+: (s.sqReset q cause flags).out := by
  have herror (h : cause = .pointer ∨ cause = .uncorrectable) :
      (s.sqReset q cause flags).queue q = (s.resetQueue q cause).queue q ∧
      (s.resetQueue q cause).out <+: (s.sqReset q cause flags).out := by
    obtain ⟨cond, heq⟩ := s.sqReset_of_error q h flags
    obtain ⟨_, hout, _⟩ := keeps_singlePartFault (s0 := s.resetQueue q cause) (s := s.resetQueue q cause) pQueue q cond
      (s.queue q).streams 0 4096 flags sub_refl keeps_refl
    rw [heq]
    exact ⟨State.queue_of_mm (State.singlePartFault_mm ..) q, hout⟩
  cases cause with
  | pointer => exact herror (.inl rfl)
  | uncorrectable => exact herror (.inr rfl)
  | software req => exact ⟨rfl, List.prefix_rfl⟩

/-- A reset that an error caused is counted once as a reset and once as RECOVERED. -/
theorem State.counts_sqReset (s : State) (q : Nat) {cause : ResetCause} (h : cause = .pointer ∨ cause = .uncorrectable)
    (flags : Nat) :
    (s.sqReset q cause flags).reg R.SQ_CNT_RESET = s.reg R.SQ_CNT_RESET + 1 ∧
      (s.sqReset q cause flags).reg R.RAS_CNT_RECOV = s.reg R.RAS_CNT_RECOV + 1 := by
  have hregs : (s.resetQueue q cause).regs = (s.countError F.SQ_ERR.RESET R.SQ_CNT_RESET).regs := by
    rw [State.regs_resetQueue]
    rcases h with rfl | rfl <;> rfl
  obtain ⟨cond, heq⟩ := s.sqReset_of_error q h flags
  rw [heq]
  constructor
  · rw [State.reg_singlePartFault (by decide), if_neg (by decide), State.reg_of_regs hregs, s.count_countError (by decide)]
  · rw [State.reg_singlePartFault (by decide), if_pos rfl, State.reg_of_regs hregs, s.reg_countError_ne (by decide) (by decide)]

/-! ### Rows of memory, mesh and queues while their domain is on (R453) -/

theorem exec_patrolScrub_of_on {s : State} (hon : s.domainOff dMem = false) (t a : Nat) (e : Ecc) :
    exec (.patrolScrub t a e) s = .next ((s.at t).scrub a e) :=
  congrArg Host.Outcome.next (if_neg (by rw [hon]; decide))

section
variable {s : State} (hon : s.domainOff dSoc = false)
include hon

theorem exec_canalFlit_of_on (t l : Nat) (flit : Flit) :
    exec (.canalFlit t l flit) s = .next ((s.at t).canalFlit l flit.crcOk flit.last) :=
  congrArg Host.Outcome.next (if_neg (by rw [hon]; decide))

theorem exec_sqWrite_of_on (t q agent : Nat) (mark : Mark) (w : List Byte) :
    exec (.sqWrite t q agent mark w) s = .next ((s.at t).sqWrite q agent mark w) :=
  congrArg Host.Outcome.next (if_neg (by rw [hon]; decide))

theorem exec_sqRead_of_on (t q agent : Nat) : exec (.sqRead t q agent) s = .next ((s.at t).sqRead q agent) :=
  congrArg Host.Outcome.next (if_neg (by rw [hon]; decide))

end

end Machine

open Machine

/-- A command's answer, through what the meaning of its row comes to. -/
theorem answers_of_next {c : Instr} {s u v : State} {P : State → Prop} (hc : exec c s = .next v) (hv : v = u) (h : P u) :
    Answers c s P :=
  ⟨v, hc, hv ▸ h⟩

theorem Keeps.canonical {W : Nat} {s t : State} (h : Keeps W s t) (hs : Canonical s) : Canonical t := by
  obtain ⟨_, _, _, hc, _⟩ := h
  exact hc hs

/-- Settles O4: an empty queue idles, which keeps the canonical form, and so does every command (`exec_moves`), on whose
answer the queue's rest has no bearing. -/
theorem stepKeepsCanonical : Obligations.StepKeepsCanonical := by
  intro s hs
  cases hq : s.pending with
  | nil => exact ⟨s.idle, step_of_nil hq, (keeps_idle sub_refl keeps_refl).canonical hs⟩
  | cons c rest =>
    obtain ⟨t, ht, hk⟩ := exec_moves c { s with pending := rest }
    exact ⟨t, (step_of_cons hq).trans ht, hk.canonical hs⟩

/-- Settles O26: an access that goes through is a store or a read of its region, of which each clause reads off what the
lemma for its case says; a blocked one never reaches the memory. -/
theorem dramAccesses : Obligations.DramAccesses := by
  have hload {s : State} {agent a n : Nat} {r : Region} (ha : a < 0x1000000000) (hp : Passes s agent a n .load)
      (hr : s.regionAt a = some r) (t : Nat) (data : List Byte) (e : Ecc) :
      exec (.dramAccess t agent a false data n e) s = .next ((s.at t).dramServe (some agent) r a n e) :=
    (exec_dramAccess_of_passes (write := false) ha hp t data e).trans
      (congrArg Host.Outcome.next (State.access_of_load (s := s.at t) ha hr ..))
  refine ⟨?_, ?_, ?_, ?_, ?_⟩
  · intro s t agent a data n e r ha hp hr
    have hstore : (s.at t).access agent a true data n e = State.lineGood { s.at t with mem := memPutAll s.mem a data } r a :=
      (State.access_of_store (s := s.at t) ha hr ..).trans (State.dramStore_of_region (s := s.at t) hr ..)
    exact answers_of_next (exec_dramAccess_of_passes (write := true) ha hp t data e) hstore
      ⟨fun b => memByte_putAll s.mem a b data, rfl, rfl⟩
  · intro s t agent a data n r ha hp hr hgood
    exact answers_of_next (hload ha hp hr t data _) (State.dramServe_clean (s := s.at t) hgood ..) ⟨rfl, rfl, rfl⟩
  · intro s t agent a data n r ha hp hr hgood hplain
    let v := s.at t
    refine answers_of_next (hload ha hp hr t data _) (State.dramServe_both_of_plain (s := v) hgood hplain ..)
      ⟨?_, ?_, State.plainBad_of_map (s := v), State.out_plainBad_of_not_map (s := v), State.bad_plainBad_of_other (s := v),
        State.contains_plainBad_of_own (s := v), fun tile h i hi => State.fresh_plainBad_of_delta (s := v) h hi,
        fun g h b => State.memByte_plainBad_of_grid (s := v) h b⟩
    · exact (State.get_of_regs (State.plainBad_regs ..) _).trans (State.get_countError _ (by decide) (by decide))
    · exact (State.reg_of_regs (State.plainBad_regs ..) _).trans (State.count_countError _ (by decide))
  · intro s t agent a data n r ha hp hr hgood hguard hcopies
    exact answers_of_next (hload ha hp hr t data _) (State.dramServe_oneCopy_of_guarded (s := s.at t) hgood hguard hcopies ..)
      ⟨List.mem_concat_self, (s.at t).mirrorCount_readMirror a, (s.at t).ce_readMirror a, (s.at t).memCorrected_mem a 3⟩
  · intro s t agent a write data n e c hcore hno
    exact answers_of_next (exec_dramAccess_of_blocked hcore hno t data e) rfl rfl

/-- Settles O27: an access that no enabled region holds is `State.unmapped`, for which the four parts are read off. -/
theorem unmappedAccess : Obligations.UnmappedAccess := by
  intro s t agent a write data n e ha hp hr
  have hget : ((s.at t).countError F.MEM_ERR.UNMAPPED R.MEM_CNT_UNMAPPED).get F.MEM_ERR.UNMAPPED = 1 :=
    State.get_countError _ (by decide) (by decide)
  have hreg := (s.at t).count_countError (f := F.MEM_ERR.UNMAPPED) (c := R.MEM_CNT_UNMAPPED) (by decide)
  refine answers_of_next (exec_dramAccess_of_passes ha hp t data e) (State.access_of_unmapped (s := s.at t) ha hr ..) ?_
  cases write with
  | true => exact ⟨hget, hreg, rfl, rfl⟩
  | false => exact ⟨hget, hreg, rfl, rfl⟩

/-- Settles O28: scrubbing and refresh by computation, flits by what a good and a bad one do to their port, and the two
failures by what a single-part fault shows. -/
theorem memoryAndCanalFaults : Obligations.MemoryAndCanalFaults := by
  refine ⟨?_, ?_, ?_, ?_, ?_, ?_⟩
  · intro s t a r hon hen hr hgood
    exact answers_of_next (exec_patrolScrub_of_on hon ..) (State.scrub_of_good (s := s.at t) hen hr hgood)
      ⟨(State.reg_bump ..).trans (if_pos rfl), rfl, rfl, rfl⟩
  · intro s t temp
    refine ⟨_, rfl, (State.get_put _ _ _ (by decide) (by decide)).trans (Nat.mod_eq_of_lt (fromSigned_lt 8 temp)), ?_⟩
    exact ite_congr decide_eq_true_eq (fun _ => rfl) (fun _ => rfl)
  · intro s t pc cond k hpc hnew hhealed hstop hfree
    exact ⟨_, rfl, State.pcFail_shows (s := s.at t) hpc hnew hhealed hstop hfree cond _⟩
  · intro s t l last hl hon hup
    refine answers_of_next (exec_canalFlit_of_on hon ..) (State.canalFlit_of_good (s := s.at t) hup last)
      ⟨?_, State.replays_setReplays ..⟩
    cases last with
    | true => exact (s.at t).stopSeq_nextSeq l
    | false => rfl
  · intro s t l last hl hon hup hlimit
    have hseq := cnStopSeq_not_mem_replayRegs (l / 4) (by omega)
    refine answers_of_next (exec_canalFlit_of_on hon ..) (State.canalFlit_of_bad (s := s.at t) hup hlimit last)
      ⟨State.replays_setReplays .., State.crc_noteReplay .., State.retries_noteReplay .., ?_⟩
    rw [State.stopSeq_eq s]
    refine (State.stopSeq_eq ..).trans ?_
    exact congrArg (getBits · (16 * (l % 4) + 15) (16 * (l % 4))) ((s.at t).reg_noteReplay l hseq)
  · intro s t l hl hends hup hdetour
    exact ⟨_, rfl, State.linkDown_shows (s := s.at t) hl hends hup hdetour _ _⟩

/-- Settles O29, each write by what it does to its queue (`SqQueue.write_of_room`, `SqQueue.write_of_full`), a read and a reset
by what feeding the queue may add behind its words (`State.queue_sqFeed`). -/
theorem sluiceQueues : Obligations.SluiceQueues := by
  refine ⟨?_, ?_, ?_, ?_, ?_, ?_, ?_, ?_⟩
  · intro s t q agent w x hon hen hprod hdisc hroom
    have hwrite := State.sqWrite_of_same_words (s := s.at t) hen hprod (SqQueue.write_of_room hdisc hroom .more w) rfl
    exact answers_of_next (exec_sqWrite_of_on hon ..) hwrite ⟨State.queue_setQueue .., rfl⟩
  · intro s t q agent w x hon hen hprod hdisc hroom
    let y : SqQueue :=
      { x with words := x.words ++ markLast (x.opened ++ [w]), opened := [], pktIn := (x.pktIn + 1) % 2 ^ 32 }
    have hwords : y.words ≠ [] := by simp [y, markLast_concat_ne_nil x.opened w]
    obtain ⟨hqueue, hout⟩ :=
      State.sqWrite_of_commit (s := s.at t) hen hprod (SqQueue.write_of_room hdisc hroom .last w) hwords
    refine answers_of_next (exec_sqWrite_of_on hon ..) rfl ?_
    rw [hqueue]
    exact ⟨by simp [map_fst_markLast], by simp [List.getLast?_append, getLast?_markLast_concat], rfl, rfl, hout⟩
  · intro s t q agent mark w x hon hen hprod hdisc hfull
    have hwrite := State.sqWrite_of_same_words (s := s.at t) hen hprod (SqQueue.write_of_full hdisc hfull mark w) rfl
    refine answers_of_next (exec_sqWrite_of_on hon ..) hwrite ?_
    rw [State.queue_setQueue]
    exact ⟨rfl, rfl, rfl, rfl⟩
  · intro s t q agent w x hon hen hprod hdisc hroom
    have hwrite := State.sqWrite_of_same_words (s := s.at t) hen hprod (SqQueue.write_of_room hdisc hroom .bad w) rfl
    exact answers_of_next (exec_sqWrite_of_on hon ..) hwrite (State.queue_setQueue ..)
  · intro s t q agent mark w hon hen hprod
    exact answers_of_next (exec_sqWrite_of_on hon ..) (State.sqWrite_of_foreign (s := s.at t) hen hprod mark w)
      ⟨State.get_put_bit _ _ _ (by decide), rfl⟩
  · intro s t q agent w last r x hon hen hcons hwords
    let v := ((s.at t).setQueue q (x.afterRead last r)).emit (.sqWord agent q w last true)
    have hv : v.queue q = x.afterRead last r := State.queue_setQueue ..
    obtain ⟨ws, n, m, hfed⟩ := v.queue_sqFeed q
    have halone (hkept : x.kept = []) : (v.sqFeed q).queue q = x.afterRead last r :=
      (State.queue_sqFeed_of_none_kept (hv ▸ SqQueue.kept_afterRead_of_nil hkept last r)).trans hv
    refine answers_of_next (u := v.sqFeed q) (exec_sqRead_of_on hon ..)
      (State.sqRead_of_word (s := s.at t) hen hcons hwords) ?_
    refine ⟨?_, fun hkept => congrArg SqQueue.words (halone hkept), ?_, ?_, ?_, State.out_sqFeed v q⟩
    all_goals rw [hfed, hv]
    · exact List.prefix_append r ws
    all_goals rfl
  · intro s t q agent hon h
    exact answers_of_next (exec_sqRead_of_on hon ..) (State.sqRead_of_no_word (s := s.at t) h) ⟨rfl, rfl⟩
  · intro s t q cause x
    let flags := s.testFlag pQueue q
    obtain ⟨hqueue, hout⟩ := (s.at t).queue_and_out_sqReset q cause flags
    obtain ⟨ws, n, m, heq, hnone⟩ := (s.at t).queue_resetQueue q cause
    obtain ⟨-, hopened, hepoch, hkept, -⟩ := x.emptied_fields cause
    refine ⟨(s.at t).sqReset q cause flags, rfl, ?_⟩
    dsimp only
    rw [hqueue, heq]
    refine ⟨hopened, hepoch, hkept, hnone, ((s.at t).out_resetQueue q cause).trans hout, ?_, ?_⟩
    · rintro req rfl
      exact (s.at t).regs_resetQueue q (.software req)
    · intro h
      exact (s.at t).counts_sqReset q h flags

end Sys2Proof

/-!
The host's rings (spec/10_host_rings.md): doorbell records and the lines that hold them, runs that become visible, completions and
fetching, and what an interrupt, the link and a function level reset do to the rings.
-/

namespace Sys2Proof

/-! ### Entries of a table with rising keys -/

theorem mem_of_tabFind {α : Type} {t : Tab α} {i : Nat} {v : α} (h : tabFind t i = some v) : (i, v) ∈ t := by
  induction t with
  | nil => simp [tabFind] at h
  | cons p r ih =>
    obtain ⟨k, w⟩ := p
    simp only [tabFind] at h
    split at h
    · next hk => simp_all
    · exact List.mem_cons_of_mem _ (ih h)

/-- Two entries of one key are one where keys rise. -/
theorem eq_of_mem_tabSorted {α : Type} {t : Tab α} (hs : tabSorted t = true) {p q : Nat × α} (hp : p ∈ t) (hq : q ∈ t)
    (h : p.1 = q.1) : p = q := by
  obtain ⟨a, b, rfl⟩ := List.append_of_mem hp
  obtain ⟨-, hb, hab⟩ := List.pairwise_append.1 ((tabSorted_iff _).1 hs)
  rcases List.mem_append.1 hq with hq | hq
  · exact absurd h (Nat.ne_of_gt (hab q hq p List.mem_cons_self))
  · rcases List.mem_cons.1 hq with hq | hq
    · exact hq.symm
    · exact absurd h (Nat.ne_of_lt ((List.pairwise_cons.1 hb).1 q hq))

namespace Machine

/-! ### Rings once a run is handed over or recorded as pending (R244, R303) -/

/-- Recording the pending run of a ring touches no other ring. -/
theorem State.ring_arm_ne (s : State) {q r : Nat} (h : q ≠ r) : (s.arm q).ring r = s.ring r := by
  unfold State.arm
  split
  · rfl
  · split
    · split
      · exact State.ring_setRing_ne s _ h
      · rfl
    · rfl

/-- Recording the pending run of a ring changes nothing else of it. -/
theorem State.ring_arm_same {s : State} {r : Nat} {x : Ring} (h : s.ring r = some x) :
    ∃ p, (s.arm r).ring r = some { x with pending := p } := by
  simp only [State.arm, h]
  split
  · split
    · exact ⟨_, State.ring_setRing ..⟩
    · exact ⟨x.pending, h⟩
  · exact ⟨x.pending, h⟩

theorem State.ring_pushRun_ne (s : State) {q r : Nat} (h : q ≠ r) (run : Run) : (s.pushRun q run).ring r = s.ring r := by
  unfold State.pushRun
  split
  · exact (State.ring_arm_ne _ h).trans (State.ring_setRing_ne s _ h)
  · rfl

/-- A run handed to a ring waits last on it, and may be recorded as its pending run. -/
theorem State.ring_pushRun_same {s : State} {r : Nat} {x : Ring} (h : s.ring r = some x) (run : Run) :
    ∃ p, (s.pushRun r run).ring r = some { x with wait := x.wait ++ [run], pending := p } := by
  simp only [State.pushRun, h]
  exact State.ring_arm_same (State.ring_setRing ..)

/-- Ring `r` of the state is `x`, but for runs that came to wait behind those of `x`, the record of its pending run and the
injection descriptors fetched from it. -/
def State.HasGrown (r : Nat) (x : Ring) (s : State) : Prop :=
  ∃ w p f, s.ring r = some { x with wait := x.wait ++ w, pending := p, fetched := f }

section
variable {r : Nat} {x : Ring} {s u : State}

theorem State.hasGrown_of_pending {p : Option PendingRun} (h : s.ring r = some { x with pending := p }) : s.HasGrown r x :=
  ⟨[], p, x.fetched, by simpa using h⟩

theorem State.hasGrown_of_ring (h : s.ring r = some x) : s.HasGrown r x := State.hasGrown_of_pending (p := x.pending) h

theorem State.HasGrown.of_hif (h : s.HasGrown r x) (hu : u.hif = s.hif) : u.HasGrown r x := by
  unfold State.HasGrown
  rwa [State.ring_of_hif hu]

theorem State.HasGrown.of_keeps {l : List Part} (h : s.HasGrown r x) (hk : Keeps (parts l) s u) (hl : Part.hif ∉ l) :
    u.HasGrown r x :=
  h.of_hif (hk.same_of_not_mem hl)

theorem State.HasGrown.pushRun (h : s.HasGrown r x) (q : Nat) (run : Run) : (s.pushRun q run).HasGrown r x := by
  obtain ⟨w, p, f, hw⟩ := h
  by_cases hq : q = r
  · subst hq
    obtain ⟨p', hp'⟩ := State.ring_pushRun_same hw run
    exact ⟨w ++ [run], p', f, by simpa using hp'⟩
  · exact ⟨w, p, f, (State.ring_pushRun_ne s hq run).trans hw⟩

theorem State.HasGrown.setFetched (h : s.HasGrown r x) {q : Nat} {y : Ring} (hy : s.ring q = some y) (f : List InjDesc) :
    (s.setRing q { y with fetched := f }).HasGrown r x := by
  obtain ⟨w, p, f', hw⟩ := h
  by_cases hq : q = r
  · subst hq
    obtain rfl := Option.some.inj (hy.symm.trans hw)
    exact ⟨w, p, f, State.ring_setRing ..⟩
  · exact ⟨w, p, f', (State.ring_setRing_ne s _ hq).trans hw⟩

/-! Records and suspensions -/

theorem State.HasGrown.emitRecord (h : s.HasGrown r x) (rec : List Byte) : (s.emitRecord rec).HasGrown r x := by
  unfold State.emitRecord
  extract_lets full s1 _ s2 s3 q pf0
  have h1 : s1.HasGrown r x := by
    simp only [s1]
    split
    · exact h.of_hif rfl
    · exact h
  have h3 : s3.HasGrown r x := h1.of_hif rfl
  split
  · exact h3.pushRun ..
  · exact h3.of_hif rfl

theorem State.HasGrown.health (h : s.HasGrown r x) (kind cause streams a0 a1 a2 index : Nat) :
    (s.health kind cause streams a0 a1 a2 index).HasGrown r x := h.emitRecord _

theorem State.HasGrown.beginSusp (h : s.HasGrown r x) (cause streams arg0 : Nat) :
    (s.beginSusp cause streams arg0).HasGrown r x := by
  unfold State.beginSusp
  extract_lets new s1 marks s2
  split
  · exact h
  · exact State.HasGrown.health (h.of_hif (u := s2) rfl) ..

theorem State.HasGrown.closeSusp (h : s.HasGrown r x) (i : Nat) : (s.closeSusp i).HasGrown r x := by
  unfold State.closeSusp
  refine State.each_keeps (P := State.HasGrown r x) (fun u y hu => hu.health ..) ?_ _
  exact h.of_hif rfl

/-! Deliveries, completions and injection descriptors -/

theorem State.HasGrown.delivered (h : s.HasGrown r x) (g k : Nat) : (s.delivered g k).HasGrown r x := by
  have hretained (u : State) : (u.dropRetained g).hif = u.hif :=
    (keeps_dropRetained g sub_refl keeps_refl).same_of_not_mem (p := .hif) (by decide)
  unfold State.delivered State.pushViews
  refine State.each_keeps (P := State.HasGrown r x) (fun u v hu => hu.pushRun ..) ?_ _
  exact h.of_hif (hretained _)

theorem State.HasGrown.postCompletion (h : s.HasGrown r x) (q : Nat) (noIrq : Bool) (entry : List Byte) :
    (s.postCompletion q noIrq entry).HasGrown r x := by
  unfold State.postCompletion
  split
  · exact h.of_hif rfl
  · split
    · exact h.of_hif rfl
    · split
      · exact h.pushRun ..
      · exact h

theorem State.HasGrown.injectionDone (h : s.HasGrown r x) (q : Nat) (d : InjDesc) (entry : List Byte) :
    (s.injectionDone q d entry).HasGrown r x := by
  unfold State.injectionDone
  extract_lets cs mine s1 _ s2
  have h1 : s1.HasGrown r x := by
    simp only [s1]
    split
    · next y hy => exact h.setFetched hy _
    · exact h
  refine State.each_keeps (P := State.HasGrown r x) (fun u q hu => hu.postCompletion ..) ?_ _
  exact h1.of_hif (u := s2) rfl

theorem State.HasGrown.endInjection (h : s.HasGrown r x) (q : Nat) (d : InjDesc) (status : Nat) (data : List Byte) :
    (s.endInjection q d status data).HasGrown r x := (h.postCompletion ..).injectionDone ..

theorem State.HasGrown.pushInjection (h : s.HasGrown r x) (i seq q cs : Nat) : (s.pushInjection i seq q cs).HasGrown r x := by
  unfold State.pushInjection
  split
  · exact h
  · split
    · exact h
    · exact h.pushRun ..

/-! The acceptance of a batch -/

theorem State.HasGrown.closeIn (h : s.HasGrown r x) (i g k : Nat) (guard replayed : Bool) :
    (s.closeIn i g k guard replayed).HasGrown r x := by
  unfold State.closeIn
  extract_lets _ _ _ _ _ d s1 s2 _ _ s3 s4 s5 _ s6 s7 y drained
  have h3 : s3.HasGrown r x := h.of_hif rfl
  have h4 : s4.HasGrown r x := h3.of_keeps (keeps_give _ _ _ sub_refl keeps_refl) (by decide)
  have h6 : s6.HasGrown r x := (h4.closeSusp i).of_hif (u := s6) rfl
  have h7 : s7.HasGrown r x := h6.of_keeps (keeps_recoverCount _ _ sub_refl keeps_refl) (by decide)
  split
  · exact h7.of_hif rfl
  · exact h7

theorem State.HasGrown.closeUpto (h : s.HasGrown r x) (i upto n : Nat) : (s.closeUpto i upto n).HasGrown r x := by
  induction n generalizing s with
  | zero => exact h
  | succ n ih =>
    unfold State.closeUpto
    split
    · exact h
    · split
      · exact ih (h.closeIn ..)
      · exact h

theorem State.HasGrown.process (h : s.HasGrown r x) (i : Nat) (e : JEntry) (a : Nat) : (s.process i e a).HasGrown r x := by
  unfold State.process
  extract_lets b period conv s1 s2 tEnd clamped rr s3 x1 k0 s4 w s5 kEnd ks s6 x2 x3 s7
  have h3 : s3.HasGrown r x :=
    State.HasGrown.of_keeps (s := s2) (h.of_hif rfl) (keeps_residual _ _ _ _ sub_refl keeps_refl) (by decide)
  have h5 : s5.HasGrown r x :=
    State.HasGrown.of_keeps (s := s4) (h3.of_hif rfl) (keeps_takeWords _ _ _ _ _ _ _ sub_refl keeps_refl) (by decide)
  exact State.HasGrown.closeUpto (h5.of_hif (u := s7) rfl) ..

theorem State.HasGrown.accept (h : s.HasGrown r x) (i : Nat) (e : JEntry) : (s.accept i e).HasGrown r x := by
  unfold State.accept
  extract_lets x1 y _ trk s1 c c' s2 s3
  exact (h.of_hif (u := s3) rfl).process ..

theorem State.HasGrown.ackReady (h : s.HasGrown r x) (i : Nat) (recovery : Bool) (n : Nat) :
    (s.ackReady i recovery n).HasGrown r x := by
  induction n generalizing s with
  | zero => exact h
  | succ n ih =>
    unfold State.ackReady
    split
    · exact h
    · split
      · exact h
      · split
        · extract_lets s1
          exact (h.of_hif (u := s1) rfl).pushInjection ..
        · extract_lets s1 s2 s3
          have h2 : s2.HasGrown r x := (h.of_hif (u := s1) rfl).accept ..
          exact ih (h2.of_keeps (keeps_sendAck _ _ _ _ _ sub_refl keeps_refl) (by decide))

/-- What the transmission of an injected batch's completion brings about (R52) hands over further runs at most. -/
theorem State.HasGrown.afterShown (h : s.HasGrown r x) (run : Run) : (s.afterShown run).HasGrown r x := by
  unfold State.afterShown
  split
  · unfold State.injectionWritten
    extract_lets q s1 s2 twins
    have h1 : s1.HasGrown r x := by
      simp only [s1]
      split
      · split
        · exact h.injectionDone ..
        · exact h
      · exact h
    have h2 : s2.HasGrown r x := by
      simp only [s2]
      split
      · exact h1.accept ..
      · exact h1
    refine State.HasGrown.ackReady ?_ ..
    exact State.each_keeps (P := State.HasGrown r x) (fun u d hu => hu.endInjection ..) h2 _
  · exact h

end

/-! ### Doorbell records (R296, R297, R302) -/

/-- A field that may be set bears on no ring. -/
theorem State.hif_put_if (s : State) (c : Prop) [Decidable c] (f : Fld) (v : Nat) : (if c then s.put f v else s).hif = s.hif := by
  split <;> rfl

@[simp] theorem State.consumed_hif (s : State) (k : RunKind) : (s.consumed k).hif = s.hif :=
  (keeps_consumed k sub_refl keeps_refl).same_of_not_mem (p := .hif) (by decide)

/-- A ring once a consumer index is taken. -/
def Ring.consumedTo (x : Ring) (c : Nat) : Ring :=
  { x with
    host := c, visible := x.visible.filter (fun v => !v.passed c)
    state := if x.state = .full ∧ c ≠ x.host then .active else x.state }

/-- Taking a consumer index: the ring is replaced, what it consumed is bookkept elsewhere, and its next run may be recorded. -/
theorem State.takeConsumer_eq {s : State} {r : Nat} {x : Ring} (h : s.ring r = some x) (c : Nat) :
    ∃ u : State, s.takeConsumer r c = u.arm r ∧ u.hif = (s.setRing r (x.consumedTo c)).hif := by
  simp only [State.takeConsumer, h]
  refine ⟨_, rfl, ?_⟩
  refine State.each_keeps (P := fun u => u.hif = (s.setRing r (x.consumedTo c)).hif)
    (fun u v hu => (u.consumed_hif v.kind).trans hu) ?_ _
  simp [Ring.consumedTo]

theorem State.ring_takeConsumer {s : State} {r : Nat} {x : Ring} (h : s.ring r = some x) (c : Nat) :
    ∃ p, (s.takeConsumer r c).ring r = some { x.consumedTo c with pending := p } := by
  obtain ⟨u, heq, hu⟩ := State.takeConsumer_eq h c
  rw [heq]
  exact State.ring_arm_same ((State.ring_of_hif hu r).trans (State.ring_setRing ..))

theorem State.ring_takeConsumer_ne (s : State) {q r : Nat} (hq : q ≠ r) (c : Nat) : (s.takeConsumer q c).ring r = s.ring r := by
  cases h : s.ring q with
  | none => simp [State.takeConsumer, h]
  | some x =>
    obtain ⟨u, heq, hu⟩ := State.takeConsumer_eq h c
    rw [heq, State.ring_arm_ne u hq, State.ring_of_hif hu r, State.ring_setRing_ne s _ hq]

/-- The counter of doorbell events moves when a record's index moves (R296). -/
def State.countDoorbell (s : State) (x : Ring) (i : Nat) : State := if i ≠ x.host then s.bump R.HIF_CNT_DB_EVT else s

/-- A producer ring once a good record is taken. -/
def Ring.producedTo (x : Ring) (e i : Nat) : Ring :=
  { x with
    host := i, restart := x.restart && decide (e ≠ x.epoch)
    state := if (x.state = .halted ∧ i ≠ x.host) ∨ x.state = .waitEpoch then .active else x.state }

section
variable {s : State} {r w : Nat} {x : Ring} (hx : s.ring r = some x) (hen : s.flag (F.HIF_FN_CFG.ENABLE x.fn) = true)
include hx hen

theorem State.doorbell_of_stale (he : x.epochOk (natBits w 47 32) = false) : s.doorbell r w = s.bump R.HIF_CNT_DB_STALE := by
  simp [State.doorbell, State.recordAt, hx, hen, he]

variable (he : x.epochOk (natBits w 47 32) = true)
include he

theorem State.doorbell_of_bad_index (hi : x.indexOk x.dev (w % 2 ^ 32) = false) :
    s.doorbell r w = (s.put F.HIF_ERR.DB_BAD 1).health hEvent 0x18 0 0 0 0 r := by
  simp only [State.doorbell, State.recordAt, hx, hen, he, hi]; rfl

variable (hi : x.indexOk x.dev (w % 2 ^ 32) = true)
include hi

theorem State.doorbell_of_producer (hk : x.kind.deviceProduced = false) :
    s.doorbell r w = (s.countDoorbell x (w % 2 ^ 32)).setRing r (x.producedTo (natBits w 47 32) (w % 2 ^ 32)) := by
  simp only [State.doorbell, State.recordAt, hx, hen, he, hi, hk]
  simp [Ring.producedTo, State.countDoorbell]

theorem State.doorbell_of_consumer (hk : x.kind.deviceProduced = true) :
    ∃ u : State, s.doorbell r w = u.takeConsumer r (w % 2 ^ 32) ∧
      ∃ b, u.ring r = some { x with restart := b } := by
  simp only [State.doorbell, State.recordAt, hx, hen, he, hi, hk]
  exact ⟨_, rfl, _, (State.ring_of_hif (State.hif_put_if ..) r).trans (State.ring_setRing ..)⟩

end

/-! ### Interrupts of a ring (R304) -/

theorem State.ring_of_rings {s u : State} (h : u.hif.rings = s.hif.rings) (r : Nat) : u.ring r = s.ring r := by
  unfold State.ring; rw [h]

/-- Raising a vector touches no ring. -/
theorem State.raiseVector_rings (s : State) (fn vec : Nat) : (s.raiseVector fn vec).hif.rings = s.hif.rings := by
  unfold State.raiseVector
  split
  · rfl
  · split <;> rfl

theorem State.ring_ringInterrupt {s : State} {r : Nat} {x : Ring} (h : s.ring r = some x) :
    (s.ringInterrupt r).ring r = some { x with fresh := 0, firstAt := none } := by
  simp only [State.ringInterrupt, h]
  rw [State.ring_of_rings (State.raiseVector_rings ..), State.ring_setRing]

/-- A ring whose vector is unmasked sends its interrupt at once. -/
theorem State.ringInterrupt_of_unmasked {s : State} {r : Nat} {x : Ring} (h : s.ring r = some x)
    (hvec : (x.fn, x.vec) ∈ s.hif.unmasked) :
    s.ringInterrupt r = (s.setRing r { x with fresh := 0, firstAt := none }).emit (.msix x.fn x.vec) := by
  simp only [State.ringInterrupt, h, State.raiseVector]
  exact if_pos (List.contains_iff_mem.2 hvec)

/-- Recording a pending run masks no vector. -/
@[simp] theorem State.unmasked_arm (s : State) (r : Nat) : (s.arm r).hif.unmasked = s.hif.unmasked := by
  unfold State.arm
  split
  · rfl
  · split
    · split <;> rfl
    · rfl

/-! ### Runs become visible (R244, R302–R304) -/

/-- A ring once the run in front of its wait list is visible, before an interrupt counts it (R302–R304). -/
def Ring.shown (x : Ring) (run : Run) (rest : List Run) (now : Nat) : Ring :=
  { x with
    dev := (x.dev + run.entries.length) % 2 ^ 32, wait := rest
    visible := x.visible ++ [⟨run.kind, (x.dev + run.entries.length) % 2 ^ 32⟩], state := .active
    fresh := x.fresh + run.counted, pending := none
    firstAt := if run.counted = 0 then x.firstAt else (match x.firstAt with
      | some t => some t
      | none => some now) }

/-- The bookkeeping of a visible run for its group (R424). -/
def State.noteShown (s : State) (k : RunKind) : State :=
  match k with
  | .slice g n => s.delivered g n
  | _ => s

theorem State.runShown_eq (s : State) (r : Nat) (x : Ring) (run : Run) (rest : List Run) :
    s.runShown r x run rest =
      let u := ((s.setRing r (x.shown run rest s.time)).arm r).noteShown run.kind
      if x.fresh + run.counted ≥ x.nc && run.counted ≠ 0 || (x.nt = 0 && run.counted ≠ 0) then u.ringInterrupt r else u :=
  rfl

/-- Once a run is visible its ring is as `Ring.shown` says, and only the view records of a slice may have come to wait on it. -/
theorem State.ring_noteShown (s : State) (r : Nat) (x : Ring) (k : RunKind) :
    ∃ w p d, (((s.setRing r x).arm r).noteShown k).ring r = some { x with wait := x.wait ++ w, pending := p, fetched := d } ∧
      (k = .event → w = []) := by
  obtain ⟨p, hp⟩ := State.ring_arm_same (s.ring_setRing r x)
  cases k with
  | slice g n =>
    obtain ⟨w, p', d, hw⟩ := (State.hasGrown_of_pending hp).delivered g n
    exact ⟨w, p', d, hw, by simp⟩
  | completion | injection | view | countFrame | flicker | event | log =>
    exact ⟨[], p, x.fetched, by simpa [State.noteShown] using hp, fun _ => rfl⟩

theorem State.ring_runShown (s : State) (r : Nat) (x : Ring) (run : Run) (rest : List Run) :
    ∃ w p d f a, (s.runShown r x run rest).ring r =
        some { x.shown run rest s.time with wait := rest ++ w, pending := p, fetched := d, fresh := f, firstAt := a } ∧
      (run.kind = .event → w = []) := by
  obtain ⟨w, p, d, hring, hw⟩ := s.ring_noteShown r (x.shown run rest s.time) run.kind
  rw [State.runShown_eq]
  dsimp only
  split
  · exact ⟨w, p, d, 0, none, State.ring_ringInterrupt hring, hw⟩
  · exact ⟨w, p, d, _, _, hring, hw⟩

/-- A visible event on a ring that coalesces no interrupt, and whose vector is unmasked, sends the vector. -/
theorem State.runShown_of_event {s : State} {x : Ring} {run : Run} (hkind : run.kind = .event) (hentries : run.entries ≠ [])
    (hnt : x.nt = 0) (hvec : (x.fn, x.vec) ∈ s.hif.unmasked) (r : Nat) (rest : List Run) :
    ∃ (u : State) (p : Option PendingRun), s.runShown r x run rest =
      (u.setRing r { x.shown run rest s.time with pending := p, fresh := 0, firstAt := none }).emit (.msix x.fn x.vec) := by
  have hcount : run.counted ≠ 0 := by simpa [Run.counted, hkind] using hentries
  obtain ⟨p, hp⟩ := State.ring_arm_same (s.ring_setRing r (x.shown run rest s.time))
  refine ⟨(s.setRing r (x.shown run rest s.time)).arm r, p, ?_⟩
  rw [State.runShown_eq, hkind]
  refine (if_pos (by simp [hnt, hcount])).trans (State.ringInterrupt_of_unmasked hp ?_)
  exact (State.unmasked_arm ..).symm ▸ hvec

@[simp] theorem State.afterShown_of_event {run : Run} (h : run.kind = .event) (s : State) : s.afterShown run = s := by
  simp [State.afterShown, h]

/-- A run that is written goes to host memory first, and is visible then. -/
theorem State.out_writeRun (s : State) (r : Nat) (x : Ring) (run : Run) (rest : List Run) :
    s.out ++ s.runOuts x run <+: (s.writeRun r x run rest).out := by
  obtain ⟨-, hout, -⟩ := keeps_runShown (s := s.emitAll (s.runOuts x run)) r x run rest sub_refl keeps_refl
  exact hout

theorem State.out_afterShown (s : State) (run : Run) : s.out <+: (s.afterShown run).out := by
  obtain ⟨-, hout, -⟩ := keeps_afterShown (s := s) run sub_refl keeps_refl
  exact hout

section
variable {s : State} {r : Nat} {x : Ring} {run : Run} {rest : List Run} (hx : s.ring r = some x)
  (hkind : x.kind.deviceProduced = true) (hwait : x.wait = run :: rest) (hdead : s.dead = false) (hmay : s.mayWrite x run = true)
include hx hkind hwait hdead hmay

theorem State.runWrite_of_room (hroom : run.entries.length ≤ x.room) : s.runWrite r false = s.writeRun r x run rest := by
  simp [State.runWrite, State.nextRun, hx, hkind, hwait, hdead, hmay, hroom]

/-- A run for which a ring that may be written has no room leaves the ring FULL (R302). -/
theorem State.runWrite_of_no_room (hroom : x.room < run.entries.length) (hact : x.state = .active) :
    s.runWrite r false = (s.setRing r { x with state := .full }).beginSusp cRingFull (s.runStreams run.kind) 0 := by
  have hfenced : s.flag F.RAS_BUDDY.FENCED = false := by
    simp only [State.mayWrite, Bool.and_eq_true, Bool.not_eq_true'] at hmay
    obtain ⟨⟨_, hfenced⟩, _⟩ := hmay
    exact hfenced
  simp only [State.runWrite, State.nextRun, hx, hkind, hwait, hdead, hfenced, hact]
  simp [Nat.not_le.2 hroom]

omit hkind hmay in
/-- The row of a run that is written: what the run's visibility brings about follows when V has moved (R52). -/
theorem State.runWritten_of_ring {y : Ring} (hy : (s.runWrite r false).ring r = some y) :
    s.runWritten r false = if y.dev ≠ x.dev then (s.runWrite r false).afterShown run else s.runWrite r false := by
  simp [State.runWritten, State.nextRun, hx, hwait, hdead, hy]

/-- A run with room is written, and for some kinds of run something follows its visibility. -/
theorem State.runWritten_of_room (hroom : run.entries.length ≤ x.room) : s.runWritten r false = s.writeRun r x run rest ∨
    run.kind ≠ .event ∧ s.runWritten r false = (s.writeRun r x run rest).afterShown run := by
  obtain ⟨w, p, d, f, a, hring, -⟩ := (s.emitAll (s.runOuts x run)).ring_runShown r x run rest
  have hwrite := State.runWrite_of_room hx hkind hwait hdead hmay hroom
  have hy := (congrArg (fun u => State.ring u r) hwrite).trans hring
  rw [State.runWritten_of_ring hx hwait hdead hy, hwrite]
  by_cases hevent : run.kind = .event
  · simp [hevent]
  · split
    · exact .inr ⟨hevent, rfl⟩
    · exact .inl rfl

theorem State.runWritten_of_no_room (hroom : x.room < run.entries.length) (hact : x.state = .active) :
    s.runWritten r false = (s.setRing r { x with state := .full }).beginSusp cRingFull (s.runStreams run.kind) 0 := by
  have hfull : (s.setRing r { x with state := .full }).HasGrown r { x with state := .full } :=
    State.hasGrown_of_ring (State.ring_setRing ..)
  obtain ⟨w, p, f, hring⟩ := hfull.beginSusp cRingFull (s.runStreams run.kind) 0
  have hwrite := State.runWrite_of_no_room hx hkind hwait hdead hmay hroom hact
  have hy := (congrArg (fun u => State.ring u r) hwrite).trans hring
  rw [State.runWritten_of_ring hx hwait hdead hy, hwrite]
  exact if_neg (fun h => h rfl)

end

/-! ### Reads of doorbell lines (R284, R298, R299, R312) -/

/-- A translation fault sets XLATE and records an error of class RECOVERED (R284, R420). -/
theorem State.xlate_xlateFault (s : State) (r : Nat) : (s.xlateFault r).get F.HIF_ERR.XLATE = 1 :=
  (State.get_of_reg ((State.reg_errRecordAt (by decide) ..).trans (if_neg fun h => absurd h.2 (by decide)))).trans
    (State.get_put _ _ _ (by decide) (by decide))

theorem State.recov_xlateFault (s : State) (r : Nat) :
    (s.xlateFault r).reg R.RAS_CNT_RECOV = s.reg R.RAS_CNT_RECOV + 1 :=
  (State.reg_errRecordAt (by decide) ..).trans
    ((if_pos ⟨rfl, rfl⟩).trans (congrArg (· + 1) (State.reg_put_ne s (by decide) _)))

section
variable {s : State} {fn off : Nat}

/-- The counter of nudges is no register of a function group. -/
theorem State.get_bump_nudge (f : Fld) (hf : f.addr = R.HIF_FN_CFG fn) : (s.bump R.HIF_CNT_NUDGE).get f = s.get f := by
  refine State.get_bump_ne _ _ _ ?_
  rw [hf]
  simp only [R.HIF_CNT_NUDGE, R.HIF_FN_CFG]
  omega

theorem State.nudgeWrite_of_line (hen : s.flag (F.HIF_FN_CFG.ENABLE fn) = true) (hoff : off % 64 = 0)
    (hline : off / 64 < s.get (F.HIF_FN_CFG.BLOCKS fn)) (recs : List Nat) : s.nudgeWrite fn off recs =
      (s.bump R.HIF_CNT_NUDGE).readLine (s.get (F.HIF_FN_CFG.FIRST_BLOCK fn) + off / 64) recs false := by
  have hen' : (s.bump R.HIF_CNT_NUDGE).flag (F.HIF_FN_CFG.ENABLE fn) = true := by
    simpa only [State.flag, State.get_bump_nudge (F.HIF_FN_CFG.ENABLE fn) rfl] using hen
  simp only [State.nudgeWrite, hen', hoff, State.get_bump_nudge (F.HIF_FN_CFG.BLOCKS fn) rfl, hline,
    State.get_bump_nudge (F.HIF_FN_CFG.FIRST_BLOCK fn) rfl]
  rfl

theorem State.nudgeWrite_of_no_line (h : off % 64 ≠ 0 ∨ s.get (F.HIF_FN_CFG.BLOCKS fn) ≤ off / 64) (recs : List Nat) :
    s.nudgeWrite fn off recs = s.bump R.HIF_CNT_NUDGE := by
  refine if_neg ?_
  rcases h with h | h
  · simp [h]
  · simp [State.get_bump_nudge (F.HIF_FN_CFG.BLOCKS fn) rfl, Nat.not_lt.2 h]

end

/-! ### Completions (R293, R326, R327) -/

@[simp] theorem State.postCompletion_repeats (s : State) (r : Nat) (noIrq : Bool) (entry : List Byte) :
    (s.postCompletion r noIrq entry).aid.repeats = s.aid.repeats := by
  unfold State.postCompletion
  split
  · rfl
  · split
    · rfl
    · split
      · rw [State.pushRun_aid]
      · rfl

@[simp] theorem State.postCompletion_ctxs (s : State) (r : Nat) (noIrq : Bool) (entry : List Byte) :
    (s.postCompletion r noIrq entry).aid.ctxs = s.aid.ctxs := (s.postCompletion_journal r noIrq entry).1

/-- A completion goes to the COMPLETE ring of its ring, and leaves that ring alone (R293). -/
theorem State.rings_postCompletion {s : State} {r : Nat} {x y : Ring} (hx : s.ring r = some x) (hr : r < 0x2000)
    (hy : s.ring x.complete = some y) (hc : x.complete ≠ r) (noIrq : Bool) (entry : List Byte) :
    (∃ p, (s.postCompletion r noIrq entry).ring x.complete =
      some { y with wait := y.wait ++ [⟨.completion noIrq, [entry]⟩], pending := p }) ∧
    (s.postCompletion r noIrq entry).ring r = some x := by
  rw [State.postCompletion_of_ring hx hr]
  exact ⟨State.ring_pushRun_same hy _, (State.ring_pushRun_ne s hc _).trans hx⟩

/-- What is kept beside a command of a ring has another ring or another sequence number. -/
theorem not_same_command {a b : Nat} {c : Ctx} (h : ¬(a = c.ring ∧ b = c.seq)) :
    (!(decide (a = c.ring) && decide (b = c.seq))) = true := by
  rw [Bool.not_eq_true', ← Bool.not_eq_true, Bool.and_eq_true, decide_eq_true_eq, decide_eq_true_eq]
  exact h

/-- The repeats that wait for a command (R327). -/
def State.repeatsOf (s : State) (c : Ctx) : List Repeat := s.aid.repeats.filter (fun q => q.ring = c.ring && q.seq = c.seq)

/-- A command and the repeats that wait for it are done: the completion journal takes its entry (R326). -/
def State.journalDone (s : State) (c : Ctx) (entry : List Byte) : State :=
  { s with aid := { s.aid with
    ctxs := s.aid.ctxs.filter (fun x => !(x.ring = c.ring && x.seq = c.seq))
    repeats := s.aid.repeats.filter (fun q => !(q.ring = c.ring && q.seq = c.seq))
    done := s.aid.done ++ [(⟨c.ring, c.seq, descCrc c.desc, c.steps, entry⟩ : Done)] } }

section
variable (s : State) (c : Ctx) (st : Nat) (data : List Byte)

theorem State.complete_eq :
    let entry := completionEntry st c.tag c.seq c.ring c.hAfter data
    s.complete c st data = ((s.journalDone c entry).postCompletion c.ring (c.flags.testBit 2) entry).each (s.repeatsOf c)
      (fun s q => s.postCompletion q.ring q.noIrq (repeatEntry q entry)) := rfl

theorem State.done_complete : (s.complete c st data).aid.done = s.aid.done ++
    [⟨c.ring, c.seq, descCrc c.desc, c.steps, completionEntry st c.tag c.seq c.ring c.hAfter data⟩] := by
  rw [State.complete_eq]
  refine State.each_keeps (P := fun u => u.aid.done = _) (fun u q h => ?_) ?_ _
  · exact (u.postCompletion_journal ..).2.trans h
  · exact (State.postCompletion_journal ..).2

theorem State.ctxs_complete :
    (s.complete c st data).aid.ctxs = s.aid.ctxs.filter (fun x => !(x.ring = c.ring && x.seq = c.seq)) := by
  rw [State.complete_eq]
  exact State.each_keeps (P := fun u => u.aid.ctxs = s.aid.ctxs.filter fun x => !(x.ring = c.ring && x.seq = c.seq))
    (fun u q h => (u.postCompletion_ctxs ..).trans h) (State.postCompletion_ctxs ..) _

theorem State.repeats_complete :
    (s.complete c st data).aid.repeats = s.aid.repeats.filter (fun q => !(q.ring = c.ring && q.seq = c.seq)) := by
  rw [State.complete_eq]
  exact State.each_keeps (P := fun u => u.aid.repeats = s.aid.repeats.filter fun q => !(q.ring = c.ring && q.seq = c.seq))
    (fun u q h => (u.postCompletion_repeats ..).trans h) (State.postCompletion_repeats ..) _

/-- A completion ends no other command in progress. -/
theorem State.ctx_complete_ne {r q : Nat} (h : (r, q) ≠ (c.ring, c.seq)) : (s.complete c st data).ctx r q = s.ctx r q := by
  unfold State.ctx
  rw [State.ctxs_complete, List.find?_filter]
  refine congrArg (List.find? · _) (funext fun x => ?_)
  cases hkey : decide (x.ring = r) && decide (x.seq = q) with
  | false => exact decide_eq_false fun ⟨_, hfalse⟩ => Bool.noConfusion hfalse
  | true =>
    rw [Bool.and_eq_true, decide_eq_true_eq, decide_eq_true_eq] at hkey
    obtain ⟨rfl, rfl⟩ := hkey
    exact decide_eq_true ⟨not_same_command fun hsame => h (Prod.ext_iff.2 hsame), rfl⟩

variable {s c}

/-- Without a repeat that waits for it, a command is answered once (R326). -/
theorem State.complete_of_no_repeat (h : s.repeatsOf c = []) :
    let entry := completionEntry st c.tag c.seq c.ring c.hAfter data
    s.complete c st data = (s.journalDone c entry).postCompletion c.ring (c.flags.testBit 2) entry := by
  intro entry
  rw [State.complete_eq, h]
  rfl

/-- A repeat that waits for a command is answered behind it (R327). -/
theorem State.complete_of_repeat {q : Repeat} (h : s.repeatsOf c = [q]) :
    let entry := completionEntry st c.tag c.seq c.ring c.hAfter data
    s.complete c st data = ((s.journalDone c entry).postCompletion c.ring (c.flags.testBit 2) entry).postCompletion q.ring q.noIrq
      (repeatEntry q entry) := by
  intro entry
  rw [State.complete_eq, h]
  rfl

end

/-! ### Fetching (R300, R323–R327) -/

/-- A ring once one descriptor of it is read in its turn (R300, R323). -/
def State.readOne (s : State) (r : Nat) (x : Ring) : Ring :=
  { x with
    dev := (x.dev + 1) % 2 ^ 32
    deficit := if (x.dev + 1) % 2 ^ 32 = x.host then 0 else s.quantum r x - 1 }

/-- The turn of a core's round passes to a ring, and one descriptor of it is read (R323). -/
def State.turnTo (s : State) (r : Nat) (x : Ring) : State :=
  ({ s with aid := { s.aid with turns := tabInsert s.aid.turns x.core r } }).setRing r (s.readOne r x)

theorem State.quantum_pos (s : State) (r : Nat) (x : Ring) : 0 < s.quantum r x := by
  unfold State.quantum
  split
  · next h =>
    simp only [Bool.and_eq_true, decide_eq_true_eq] at h
    omega
  · omega

/-- A command ring that has something to fetch, and whose turn it is, has one descriptor taken. -/
theorem State.fetch_one {s : State} {r : Nat} {x : Ring} (hx : s.ring r = some x) (hmay : s.mayFetch r x = true)
    (hturn : s.ringInTurn x.core = some r) (hkind : x.kind = .submit) (hnew : 0 < idxSub x.host x.dev)
    (hring : s.inProgress r < 64) (hctx : s.contexts < 4096) (d : List Byte) :
    s.fetch r [d] false = ((s.turnTo r x).takeDescriptor r ((x.dev + 1) % 2 ^ 32) false d).releaseDone r x := by
  have hcount : s.fetchCount r x 1 = 1 := by
    have := s.quantum_pos r x
    unfold State.fetchCount
    omega
  have hinject : decide (x.kind = .inject) = false := by rw [hkind]; rfl
  have hone (u : State) (f : State → Nat × List Byte → State) : u.each ((List.range 1).zip [d]) f = f u (0, d) := rfl
  simp only [State.fetch, hx, hmay, hturn, hinject, List.length_singleton, hcount, hone, Nat.add_zero]
  exact (if_neg (by simp)).trans (if_neg (by simp))

/-- The release of journal entries moves nothing else (R328). -/
theorem State.releaseDone_eq (s : State) (r : Nat) (x : Ring) :
    ∃ l, s.releaseDone r x = { s with aid := { s.aid with done := l } } := by
  unfold State.releaseDone
  extract_lets keep top out
  split
  · exact ⟨_, rfl⟩
  · exact ⟨s.aid.done, rfl⟩

/-- The passing of a context records a reference at most; within one core it does nothing (R324). -/
theorem State.pass_aid (s : State) (r seq source dest : Nat) :
    ∃ l, (s.pass r seq source dest).aid = { s.aid with notes := l } := by
  have hsend (u : State) (n : Note) : (u.sendNote n source).aid = u.aid :=
    (keeps_sendNote n source sub_refl keeps_refl).same_of_not_mem (p := .aid) (by decide)
  unfold State.pass
  split
  · exact ⟨s.aid.notes, rfl⟩
  · split
    · exact ⟨s.aid.notes, rfl⟩
    · exact ⟨_, hsend ..⟩

theorem State.pass_hif (s : State) (r seq source dest : Nat) : (s.pass r seq source dest).hif = s.hif :=
  (keeps_pass r seq source dest sub_refl keeps_refl).same_of_not_mem (p := .hif) (by decide)

theorem State.pass_self (s : State) (r seq core : Nat) : s.pass r seq core core = s := if_pos rfl

/-- A sequence number that is not ahead of every earlier one of its ring (R325). -/
def State.NotAhead (s : State) (r seq : Nat) : Prop :=
  idxSub seq (tabGet 0 s.aid.smax r) = 0 ∨ 2 ^ 31 ≤ idxSub seq (tabGet 0 s.aid.smax r)

/-- A new descriptor's command is in progress, its sequence number the highest of its ring (R325). -/
def State.startCommand (s : State) (r h : Nat) (d : List Byte) : State :=
  { s with aid := { s.aid with
    smax := tabInsert s.aid.smax r (fieldAt d 8 4)
    ctxs := s.aid.ctxs ++ [⟨r, fieldAt d 8 4, d, h, 0, 0, 0, [], []⟩] } }

section
variable {s : State} {r : Nat} {d : List Byte} (h : Nat)

theorem State.smax_startCommand : tabGet 0 (s.startCommand r h d).aid.smax r = fieldAt d 8 4 := by
  simp [State.startCommand, tabGet]

theorem State.takeDescriptor_of_ahead (hfar : ¬ s.NotAhead r (fieldAt d 8 4)) : s.takeDescriptor r h false d =
    (s.startCommand r h d).pass r (fieldAt d 8 4) (s.ringCore r) (s.workCore (fieldAt d 0 1) r) := by
  have hahead : (1 ≤ idxSub (fieldAt d 8 4) (tabGet 0 s.aid.smax r) &&
      idxSub (fieldAt d 8 4) (tabGet 0 s.aid.smax r) < 2 ^ 31) = true := by
    simp only [State.NotAhead, not_or, Nat.not_le] at hfar
    simp only [Bool.and_eq_true, decide_eq_true_eq]
    omega
  exact if_pos hahead

theorem State.NotAhead.test {seq : Nat} (hfar : s.NotAhead r seq) :
    ¬ (1 ≤ idxSub seq (tabGet 0 s.aid.smax r) && idxSub seq (tabGet 0 s.aid.smax r) < 2 ^ 31) = true := by
  simp only [Bool.and_eq_true, decide_eq_true_eq]
  unfold State.NotAhead at hfar
  omega

theorem State.takeDescriptor_of_done (hfar : s.NotAhead r (fieldAt d 8 4)) {e : Done}
    (he : s.aid.done.find? (fun e => e.ring = r && e.seq = fieldAt d 8 4) = some e) : s.takeDescriptor r h false d =
    s.postCompletion r ((fieldAt d 1 1).testBit 2) (if e.crc = descCrc d
      then completionEntry 0x0002 (fieldAt d 2 2) (fieldAt d 8 4) r h (sliceAt e.entry 0 2 ++ sliceAt e.entry 16 12)
      else completionEntry 0x0302 (fieldAt d 2 2) (fieldAt d 8 4) r h []) := by
  refine (if_neg hfar.test).trans ?_
  simp only [he]
  rfl

theorem State.takeDescriptor_of_unknown (hfar : s.NotAhead r (fieldAt d 8 4))
    (he : s.aid.done.find? (fun e => e.ring = r && e.seq = fieldAt d 8 4) = none) (hctx : s.ctx r (fieldAt d 8 4) = none)
    {x : Ring} (hx : s.ring r = some x) (hfetched : x.fetched = []) : s.takeDescriptor r h false d =
    s.postCompletion r ((fieldAt d 1 1).testBit 2) (completionEntry 0x0301 (fieldAt d 2 2) (fieldAt d 8 4) r h []) := by
  have hstarted : s.startedCrc r (fieldAt d 8 4) = none := by
    simp [State.startedCrc, hctx, hx, Ring.injection, hfetched]
  refine (if_neg hfar.test).trans ?_
  simp only [he, hstarted]
  rfl

end

/-- The core of a command's work depends on the core of its ring and on the home cores alone (R318, R324). -/
theorem State.workCore_congr {s u : State} {r : Nat} (hcore : u.ringCore r = s.ringCore r) (hhomes : u.aid.homes = s.aid.homes)
    (op : Nat) : u.workCore op r = s.workCore op r := by
  simp only [State.workCore, State.home, hcore, hhomes]

theorem State.ringCore_of_ring {s : State} {r : Nat} {x : Ring} (h : s.ring r = some x) : s.ringCore r = x.core := by
  simp only [State.ringCore, h]

section
variable {s : State} {r : Nat} {x : Ring}

theorem State.ring_turnTo : (s.turnTo r x).ring r = some (s.readOne r x) := State.ring_setRing ..

theorem State.ring_turnTo_ne {q : Nat} (h : q ≠ r) : (s.turnTo r x).ring q = s.ring q := State.ring_setRing_ne _ _ h.symm

/-- A descriptor that is answered at once: the answer waits last on the COMPLETE ring, and nothing starts. -/
theorem State.answered_in_turn {y : Ring} (hr : r < 0x2000) (hy : s.ring x.complete = some y) (hc : x.complete ≠ r)
    (noIrq : Bool) (entry : List Byte) :
    let u := ((s.turnTo r x).postCompletion r noIrq entry).releaseDone r x
    u.ring r = some (s.readOne r x) ∧
      (∃ z, u.ring x.complete = some z ∧ z.wait = y.wait ++ [⟨.completion noIrq, [entry]⟩] ∧
        (z.dev, z.host, z.visible) = (y.dev, y.host, y.visible)) ∧
      u.aid.ctxs = s.aid.ctxs := by
  intro u
  obtain ⟨⟨p, hp⟩, hring⟩ := State.rings_postCompletion (x := s.readOne r x) State.ring_turnTo hr
    ((State.ring_turnTo_ne hc).trans hy) hc noIrq entry
  obtain ⟨l, hl⟩ := ((s.turnTo r x).postCompletion r noIrq entry).releaseDone_eq r x
  have hu : u = _ := hl
  rw [hu]
  exact ⟨hring, ⟨_, hp, rfl, rfl⟩, State.postCompletion_ctxs ..⟩

/-- A new command starts in progress in its ring's turn. -/
theorem State.started_in_turn (hx : s.ring r = some x) (h : Nat) (d : List Byte) :
    let v := (s.turnTo r x).startCommand r h d
    let u := (v.pass r (fieldAt d 8 4) (v.ringCore r) (v.workCore (fieldAt d 0 1) r)).releaseDone r x
    u.ring r = some (s.readOne r x) ∧ u.aid.ctxs = v.aid.ctxs ∧ u.aid.smax = v.aid.smax ∧
      (s.workCore (fieldAt d 0 1) r = x.core → u.regs = s.regs ∧ u.aid.notes = s.aid.notes ∧ u.mbx = s.mbx) := by
  intro v u
  have hring : v.ring r = some (s.readOne r x) := State.ring_turnTo
  have hcore : v.ringCore r = x.core := (State.ringCore_of_ring hring).trans rfl
  have hwork : v.workCore (fieldAt d 0 1) r = s.workCore (fieldAt d 0 1) r :=
    State.workCore_congr (hcore.trans (State.ringCore_of_ring hx).symm) rfl _
  obtain ⟨l, hl⟩ := (v.pass r (fieldAt d 8 4) (v.ringCore r) (v.workCore (fieldAt d 0 1) r)).releaseDone_eq r x
  obtain ⟨n, hn⟩ := v.pass_aid r (fieldAt d 8 4) (v.ringCore r) (v.workCore (fieldAt d 0 1) r)
  have hu : u = _ := hl
  rw [hu]
  refine ⟨(State.ring_of_hif (v.pass_hif ..) r).trans hring, congrArg (·.ctxs) hn, congrArg (·.smax) hn, fun hhere => ?_⟩
  rw [hwork, hcore, hhere, State.pass_self]
  exact ⟨rfl, rfl, rfl⟩

end

/-! ### Masks of vectors (R304) -/

theorem State.msixMask_of_pending {s : State} {fn vec : Nat} (h : (fn, vec) ∈ s.hif.msiPending) :
    s.msixMask fn vec false = State.emit { s with hif := { s.hif with
      unmasked := if s.hif.unmasked.contains (fn, vec) then s.hif.unmasked else s.hif.unmasked ++ [(fn, vec)]
      msiPending := s.hif.msiPending.filter (fun x => x ≠ (fn, vec)) } } (.msix fn vec) :=
  if_pos (List.contains_iff_mem.2 h)

/-! ### The link (R223, R283, R308) -/

/-- The fields of HIF_STAT that show the link. -/
def linkFields : List Fld :=
  [F.HIF_STAT.LINK_UP, F.HIF_STAT.LINK_SPEED, F.HIF_STAT.LINK_WIDTH, F.HIF_STAT.WATCH_MODE]

theorem linkFields_apart : ∀ f ∈ linkFields, ∀ g ∈ linkFields, f ≠ g → Fld.Apart f g := by
  unfold Fld.Apart
  decide

/-- A field of the link just written leaves the others. -/
theorem State.get_put_link (s : State) {f g : Fld} (hf : f ∈ linkFields) (hg : g ∈ linkFields) (h : f ≠ g) (v : Nat) :
    (s.put f v).get g = s.get g :=
  State.get_put_of_apart s (linkFields_apart f hf g hg h) v

section
variable (s : State) {speed width : Nat} (before : Nat)

/-- A trained speed and width as HIF_STAT shows them. -/
def State.showTrained (s : State) (speed width : Nat) : State :=
  (s.put F.HIF_STAT.LINK_SPEED speed).put F.HIF_STAT.LINK_WIDTH width

theorem State.get_showTrained {g : Fld} (hg : g ∈ linkFields) (hs : F.HIF_STAT.LINK_SPEED ≠ g)
    (hw : F.HIF_STAT.LINK_WIDTH ≠ g) : (s.showTrained speed width).get g = s.get g := by
  unfold State.showTrained
  rw [State.get_put_link _ (by decide) hg hw, State.get_put_link _ (by decide) hg hs]

variable (hspeed : speed < 8) (hwidth : width < 8)

include hspeed in
theorem State.speed_showTrained : (s.showTrained speed width).get F.HIF_STAT.LINK_SPEED = speed := by
  unfold State.showTrained
  rw [State.get_put_link _ (by decide) (by decide) (by decide), State.get_put _ _ _ (by decide) (by decide)]
  exact Nat.mod_eq_of_lt hspeed

include hwidth in
theorem State.width_showTrained : (s.showTrained speed width).get F.HIF_STAT.LINK_WIDTH = width :=
  (State.get_put _ _ _ (by decide) (by decide)).trans (Nat.mod_eq_of_lt hwidth)

theorem State.linkTrained_regs : (s.linkTrained speed width before).regs = (s.showTrained speed width).regs := by
  unfold State.linkTrained
  dsimp only
  split <;> rfl

theorem State.linkTrained_hif : (s.linkTrained speed width before).hif = s.hif := by
  unfold State.linkTrained
  dsimp only
  split <;> rfl

include hspeed hwidth

/-- A change of the delivery row asks for an admission recomputation (R223). -/
theorem State.evals_linkTrained : (s.linkTrained speed width before).aid.evals =
    if linkDeliver speed width = before then s.aid.evals else s.aid.evals ++ [.delivery] := by
  have hrow : (s.showTrained speed width).hostDeliver = linkDeliver speed width := by
    rw [State.hostDeliver, State.speed_showTrained s hspeed, State.width_showTrained s hwidth]
  rw [← hrow]
  exact apply_ite (fun u : State => u.aid.evals) _ _ _

end

/-- The link's status once it is down (R308). -/
def State.clearLink (s : State) : State :=
  (((s.put F.HIF_STAT.LINK_UP 0).put F.HIF_STAT.LINK_SPEED 0).put F.HIF_STAT.LINK_WIDTH 0).put F.HIF_STAT.WATCH_MODE 0

theorem State.get_clearLink (s : State) {g : Fld} (hg : g ∈ linkFields) : s.clearLink.get g = 0 := by
  have hplace : ∀ f ∈ linkFields, f.lo ≤ f.hi ∧ f.hi < 64 := by decide
  have hput (u : State) {f : Fld} (hf : f ∈ linkFields) (h : f = g ∨ u.get g = 0) : (u.put f 0).get g = 0 := by
    by_cases hfg : f = g
    · subst hfg
      obtain ⟨hlo, hhi⟩ := hplace f hf
      exact (State.get_put u f 0 hlo hhi).trans (Nat.zero_mod _)
    · exact (State.get_put_link u hf hg hfg 0).trans (h.resolve_left hfg)
  have hsome : F.HIF_STAT.LINK_UP = g ∨ F.HIF_STAT.LINK_SPEED = g ∨ F.HIF_STAT.LINK_WIDTH = g ∨
      F.HIF_STAT.WATCH_MODE = g := by
    simpa [linkFields, eq_comm] using hg
  unfold State.clearLink
  refine hput _ (by decide) ?_
  rcases hsome with h | h | h | h
  · exact .inr (hput _ (by decide) (.inr (hput _ (by decide) (.inr (hput _ (by decide) (.inl h))))))
  · exact .inr (hput _ (by decide) (.inr (hput _ (by decide) (.inl h))))
  · exact .inr (hput _ (by decide) (.inl h))
  · exact .inl h

theorem State.reg_clearLink (s : State) {a : Nat} (ha : a ≠ R.HIF_STAT) : s.clearLink.reg a = s.reg a := by
  unfold State.clearLink
  rw [State.reg_put_ne _ ha.symm, State.reg_put_ne _ ha.symm, State.reg_put_ne _ ha.symm, State.reg_put_ne _ ha.symm]

/-- The link comes up: it watches doorbell lines where CXL.cache is enabled and not forced off (R283, R298). -/
def State.comesUp (s : State) (cxl : Bool) : State :=
  let u := s.put F.HIF_STAT.LINK_UP 1
  let v := { u with hif := { u.hif with cxl := cxl } }
  v.put F.HIF_STAT.WATCH_MODE (bit (cxl && !v.flag F.HIF_CTL.FORCE_POLL))

theorem State.linkUp_comesUp (s : State) (cxl : Bool) : (s.comesUp cxl).get F.HIF_STAT.LINK_UP = 1 :=
  (State.get_put_link _ (by decide) (by decide) (by decide) _).trans
    (State.get_put s F.HIF_STAT.LINK_UP 1 (by decide) (by decide))

theorem State.watchMode_comesUp (s : State) (cxl : Bool) :
    (s.comesUp cxl).get F.HIF_STAT.WATCH_MODE = bit (cxl && !s.flag F.HIF_CTL.FORCE_POLL) := by
  have hforce : (s.put F.HIF_STAT.LINK_UP 1).flag F.HIF_CTL.FORCE_POLL = s.flag F.HIF_CTL.FORCE_POLL := by
    unfold State.flag
    rw [State.get_put_ne _ _ _ _ (by decide)]
  rw [← hforce]
  exact (State.get_put _ _ _ (by decide) (by decide)).trans (bit_mod_two _)

/-- A link that comes up without anything read back from the host (R308). -/
theorem exec_linkUp_of_no_read (s : State) (t speed width : Nat) (cxl : Bool) :
    exec (.linkUp t speed width cxl []) s = .next (((s.at t).comesUp cxl).linkTrained speed width (s.at t).hostDeliver) := rfl

/-! ### Function level resets (R309, R358) -/

/-- A ring of a function stops in its reset (R309). -/
def State.stopRing (s : State) (p : Nat × Ring) : State :=
  let s := if p.2.pending.isSome || !p.2.wait.isEmpty then s.put F.HIF_ERR.FLR_ABORT 1 else s
  let s := if p.2.kind.deviceProduced then s.takeConsumer p.1 p.2.dev else s
  match s.ring p.1 with
  | some x => s.setRing p.1 { x with state := .detached, pending := none, restart := false }
  | none => s

theorem State.stopRings_eq (s : State) (f : Nat) :
    s.stopRings f = s.each (s.hif.rings.filter (fun p => p.2.fn = f)) State.stopRing := rfl

/-- What a function level reset makes of a ring of its function: DETACHED, with all that was visible consumed. -/
def Ring.StoppedAs (x y : Ring) : Prop :=
  y.state = .detached ∧ y.pending = none ∧ y.restart = false ∧ y.dev = x.dev ∧
    y.host = if x.kind.deviceProduced then x.dev else x.host

section
variable {s : State} {r : Nat} {x : Ring}

/-- A ring counts what is visible as consumed before it is DETACHED. -/
theorem State.stopRing_same (h : s.ring r = some x) : ∃ y, (s.stopRing (r, x)).ring r = some y ∧ x.StoppedAs y := by
  unfold State.stopRing
  extract_lets s1 s2
  have h1 : s1.ring r = some x := (State.ring_of_hif (State.hif_put_if ..) r).trans h
  cases hk : x.kind.deviceProduced with
  | true =>
    obtain ⟨p, hp⟩ := State.ring_takeConsumer h1 x.dev
    have h2 : s2.ring r = some { x.consumedTo x.dev with pending := p } :=
      (congrArg (fun u => State.ring u r) (if_pos hk)).trans hp
    rw [h2]
    exact ⟨_, State.ring_setRing .., rfl, rfl, rfl, rfl, (if_pos hk).symm⟩
  | false =>
    have h2 : s2.ring r = some x := (congrArg (fun u => State.ring u r) (if_neg (ne_true_of_eq_false hk))).trans h1
    rw [h2]
    exact ⟨_, State.ring_setRing .., rfl, rfl, rfl, rfl, (if_neg (ne_true_of_eq_false hk)).symm⟩

theorem State.stopRing_ne (s : State) {p : Nat × Ring} (h : p.1 ≠ r) : (s.stopRing p).ring r = s.ring r := by
  unfold State.stopRing
  extract_lets s1 s2
  have h1 : s1.ring r = s.ring r := State.ring_of_hif (State.hif_put_if ..) r
  have h2 : s2.ring r = s.ring r := by
    simp only [s2]
    split
    · exact (State.ring_takeConsumer_ne s1 h _).trans h1
    · exact h1
  split
  · exact (State.ring_setRing_ne s2 _ h).trans h2
  · exact h2

theorem State.takeConsumer_unmasked (s : State) (q c : Nat) : (s.takeConsumer q c).hif.unmasked = s.hif.unmasked := by
  cases h : s.ring q with
  | none => simp [State.takeConsumer, h]
  | some x =>
    obtain ⟨u, heq, hu⟩ := State.takeConsumer_eq h c
    rw [heq, State.unmasked_arm, hu]
    rfl

theorem State.stopRing_unmasked (s : State) (p : Nat × Ring) : (s.stopRing p).hif.unmasked = s.hif.unmasked := by
  unfold State.stopRing
  extract_lets s1 s2
  have h1 : s1.hif.unmasked = s.hif.unmasked := congrArg Hif.unmasked (State.hif_put_if ..)
  have h2 : s2.hif.unmasked = s.hif.unmasked := by
    simp only [s2]
    split
    · exact (State.takeConsumer_unmasked ..).trans h1
    · exact h1
  split
  · exact h2
  · exact h2

theorem State.each_stopRing_ne {l : List (Nat × Ring)} (h : ∀ p ∈ l, p.1 ≠ r) :
    (s.each l State.stopRing).ring r = s.ring r := by
  induction l generalizing s with
  | nil => rfl
  | cons p l ih =>
    rw [List.forall_mem_cons] at h
    exact (ih h.2).trans (State.stopRing_ne s h.1)

/-- A ring that is listed once among those that stop is stopped once. -/
theorem State.each_stopRing_of_mem {l : List (Nat × Ring)} (hl : l.Pairwise (fun p q => p.1 < q.1)) (hmem : (r, x) ∈ l)
    (h : s.ring r = some x) : ∃ y, (s.each l State.stopRing).ring r = some y ∧ x.StoppedAs y := by
  obtain ⟨a, b, rfl⟩ := List.append_of_mem hmem
  obtain ⟨-, hb, hab⟩ := List.pairwise_append.1 hl
  have hbefore : (s.each a State.stopRing).ring r = some x :=
    (State.each_stopRing_ne fun p hp => Nat.ne_of_lt (hab p hp (r, x) List.mem_cons_self)).trans h
  obtain ⟨y, hy, hstop⟩ := State.stopRing_same hbefore
  refine ⟨y, ?_, hstop⟩
  have hafter := State.each_stopRing_ne (s := (s.each a State.stopRing).stopRing (r, x)) (r := r) (l := b)
    fun p hp => Nat.ne_of_gt ((List.pairwise_cons.1 hb).1 p hp)
  simpa [State.each] using hafter.trans hy

end

section
variable {s : State} {f : Nat} (hf : 0 < f)
include hf

/-- What a reset of a virtual function changes beside its rings: its sessions and its vectors (R309, R358). -/
theorem State.flr_of_vf : s.flr f =
    let u := (s.stopRings f).closeSessions (fun x => [f].contains x.fn)
    { u with hif := { u.hif with
      unmasked := u.hif.unmasked.filter (fun x => !([f].contains x.1))
      msiPending := u.hif.msiPending.filter (fun x => !([f].contains x.1)) } } := by
  have hne : f ≠ 0 := Nat.ne_of_gt hf
  simp only [State.flr, if_neg hne]
  rfl

theorem State.ring_flr (r : Nat) : (s.flr f).ring r = (s.stopRings f).ring r := by
  rw [State.flr_of_vf hf]; rfl

theorem State.unmasked_flr : (s.flr f).hif.unmasked = s.hif.unmasked.filter (fun x => x.1 ≠ f) := by
  have hstop : (s.stopRings f).hif.unmasked = s.hif.unmasked := by
    rw [State.stopRings_eq]
    exact State.each_keeps (P := fun u => u.hif.unmasked = s.hif.unmasked) (fun u p h => (u.stopRing_unmasked p).trans h) rfl _
  have hpred : (fun x : Nat × Nat => !([f].contains x.1)) = fun x => decide (x.1 ≠ f) := by
    funext x
    simp
  rw [State.flr_of_vf hf, hpred, ← hstop]
  rfl

theorem State.sessions_flr : (s.flr f).sec.sessions = s.sec.sessions.filter (fun x => x.fn ≠ f) := by
  have hstop : (s.stopRings f).sec = s.sec :=
    (keeps_stopRings f sub_refl keeps_refl).same_of_not_mem (p := .sec) (by decide)
  have hpred : (fun x : Session => !([f].contains x.fn)) = fun x => decide (x.fn ≠ f) := by
    funext x
    simp
  rw [← hpred, ← hstop, State.flr_of_vf hf]
  rfl

end

end Machine

open Machine

/-- Settles O32, case by case of what a record's epoch and index are and of who produces the ring (`State.doorbell_of_stale` and
its neighbours); a record that is written to the event ring, and what consumption bookkeeps, only add to what waits. -/
theorem doorbellRecords : Obligations.DoorbellRecords := by
  intro s r w x hx hen e i
  refine ⟨fun he => ?_, fun he hi => ?_, fun he hi hk => ?_, fun he hi hk => ?_⟩
  · rw [State.doorbell_of_stale hx hen he]
    exact ⟨(State.reg_bump ..).trans (if_pos rfl), rfl, rfl⟩
  · rw [State.doorbell_of_bad_index hx hen he hi]
    refine ⟨?_, ?_⟩
    · exact (State.get_of_reg (State.reg_health (by decide) ..)).trans (State.get_put _ _ _ (by decide) (by decide))
    · have hput : (s.put F.HIF_ERR.DB_BAD 1).HasGrown r x := State.hasGrown_of_ring hx
      obtain ⟨v, p, f, hy⟩ := hput.health hEvent 0x18 0 0 0 0 r
      exact ⟨_, hy, rfl⟩
  · rw [State.doorbell_of_producer hx hen he hi hk]
    exact State.ring_setRing ..
  · obtain ⟨u, hu, b, hb⟩ := State.doorbell_of_consumer hx hen he hi hk
    obtain ⟨p, hp⟩ := State.ring_takeConsumer hb i
    rw [hu]
    exact ⟨_, hp, rfl, rfl, rfl, rfl⟩

/-- Settles O34: the writes are the outputs before the run shows, and whatever its visibility brings about (R52 included) only adds
to what waits on the ring (`State.HasGrown`). -/
theorem runsBecomeVisible : Obligations.RunsBecomeVisible := by
  refine ⟨?_, ?_, ?_⟩
  · intro s t r x run rest hx hkind hwait hdead hmay hroom
    let v := (s.at t).writeRun r x run rest
    have hout : s.out ++ (s.at t).runOuts x run <+: v.out := (s.at t).out_writeRun r x run rest
    obtain ⟨w, p, d, f, a, hring, hw⟩ := ((s.at t).emitAll ((s.at t).runOuts x run)).ring_runShown r x run rest
    rw [List.append_assoc]
    refine ⟨_, rfl, ?_⟩
    rcases State.runWritten_of_room (s := s.at t) hx hkind hwait hdead hmay hroom with h | ⟨hne, h⟩
    · rw [h]
      exact ⟨hout, _, hring, rfl, rfl, rfl, List.prefix_append .., fun he => by simp [hw he]⟩
    · rw [h]
      obtain ⟨w', p', f', hring'⟩ := (State.hasGrown_of_ring hring).afterShown run
      refine ⟨hout.trans (v.out_afterShown run), _, hring', rfl, rfl, rfl, ?_, fun he => absurd he hne⟩
      exact ⟨w ++ w', (List.append_assoc ..).symm⟩
  · intro s t r x run rest hx hkind hwait hdead hmay hroom hevent hentries hnt hvec
    obtain ⟨u, p, hu⟩ :=
      State.runShown_of_event (s := (s.at t).emitAll ((s.at t).runOuts x run)) hevent hentries hnt hvec r rest
    have hwritten : (s.at t).runWritten r false = (s.at t).writeRun r x run rest := by
      simpa [hevent] using State.runWritten_of_room (s := s.at t) hx hkind hwait hdead hmay hroom
    refine answers_of_next rfl (hwritten.trans hu) ⟨List.getLast?_concat, ?_⟩
    exact ⟨_, State.ring_setRing .., rfl, rfl⟩
  · intro s t r x run rest hx hkind hwait hdead hmay hroom hact
    have hfull : ((s.at t).setRing r { x with state := .full }).HasGrown r { x with state := .full } :=
      State.hasGrown_of_ring (State.ring_setRing ..)
    obtain ⟨w, p, f, hy⟩ := hfull.beginSusp cRingFull ((s.at t).runStreams run.kind) 0
    refine answers_of_next rfl (State.runWritten_of_no_room (s := s.at t) hx hkind hwait hdead hmay hroom hact)
      ⟨?_, _, hy, rfl, rfl, rfl, rfl⟩
    exact (keeps_beginSusp _ _ _ sub_refl keeps_refl).same_of_not_mem (p := .out) (by decide)

/-- Settles O33: each row reads its line or not by the guard that the clause decides, and a fault shows in what its record moves. -/
theorem doorbellReads : Obligations.DoorbellReads := by
  refine ⟨?_, fun s block recs => rfl, ?_, ?_, ?_, ?_⟩
  · intro s t block recs hwatch hheld v
    have hread : (s.flag F.HIF_STAT.WATCH_MODE && s.lineHeld block) = true := by rw [hwatch, hheld]; rfl
    exact ⟨⟨_, rfl, if_pos hread⟩, _, rfl, if_pos hread⟩
  · intro s t block recs hwatch hheld
    refine ⟨_, rfl, (if_pos (by rw [hwatch, hheld]; rfl)).trans ?_⟩
    have hhold : (s.at t).holdLine block recs = s.at t := if_neg (ne_true_of_eq_false hwatch)
    simp [State.readLine, hhold]
  · intro s t block recs hwatch hheld
    have hfault : (if s.flag F.HIF_STAT.WATCH_MODE && s.lineHeld block then (s.at t).readLine block recs true else s.at t) =
        (s.at t).xlateFault (8 * block) := if_pos (by rw [hwatch, hheld]; rfl)
    exact answers_of_next rfl hfault ⟨State.xlate_xlateFault .., State.recov_xlateFault ..⟩
  · intro s t fn off recs hen hoff hline _
    exact ⟨_, rfl, State.nudgeWrite_of_line (s := s.at t) hen hoff hline recs⟩
  · intro s t fn off recs h _
    exact ⟨_, rfl, State.nudgeWrite_of_no_line (s := s.at t) h recs⟩

/-- Settles O39: a completion is journalled, handed over once (`State.rings_postCompletion`) and then repeated for the repeats that
wait for it, of which the clauses have none or one. -/
theorem commandsCompleteOnce : Obligations.CommandsCompleteOnce := by
  intro s c st data u entry
  have hwindow (h : s.aid.repeats = []) :
      u = (s.journalDone c entry).postCompletion c.ring (c.flags.testBit 2) entry :=
    State.complete_of_no_repeat st data (by simp [State.repeatsOf, h])
  obtain ⟨-, hended⟩ := completed_complete s c st data
  refine ⟨s.done_complete c st data, fun r q h => s.ctx_complete_ne c st data h, hended, ?_, ?_, ?_⟩
  · intro x y hx hr hy hc own
    obtain ⟨⟨p, hp⟩, hring⟩ :=
      State.rings_postCompletion (s := s.journalDone c entry) hx hr hy hc (c.flags.testBit 2) entry
    refine ⟨fun hnone => ⟨?_, ?_⟩, fun q hq hkey => ⟨?_, ?_⟩⟩
    · have hu : u = _ := State.complete_of_no_repeat st data (by simpa [State.repeatsOf] using hnone)
      rw [hu]
      exact ⟨_, hp, rfl⟩
    · refine (s.repeats_complete c st data).trans (List.filter_eq_self.2 fun q hq => ?_)
      exact not_same_command fun hsame => hnone q hq (Prod.ext_iff.2 hsame)
    · obtain ⟨hqring, hqseq⟩ := Prod.mk.inj hkey
      have hu : u = _ := State.complete_of_repeat st data (q := q) (by simp [State.repeatsOf, hq, hqring, hqseq])
      obtain ⟨⟨p', hp'⟩, -⟩ := State.rings_postCompletion hring hr hp hc q.noIrq (repeatEntry q entry)
      rw [hu, hqring]
      exact ⟨_, hp', rfl⟩
    · obtain ⟨hqring, hqseq⟩ := Prod.mk.inj hkey
      exact (s.repeats_complete c st data).trans (by simp [hq, hqring, hqseq])
  · intro hwin hrep
    rw [hwindow hrep, hwin]
    exact ⟨rfl, rfl, rfl⟩
  · intro hbus hrep
    rw [hwindow hrep, hbus]
    exact ⟨rfl, rfl, rfl⟩

/-- Settles O36: the round takes exactly one descriptor (`State.fetch_one`), and the sequence number and the completion journal decide
what it becomes. -/
theorem fetching : Obligations.Fetching := by
  intro s t r x y d hx hmay hturn hkind hnew hring hctx hy hc hr seq tag h far answered moved
  have hfetch := State.fetch_one (s := s.at t) hx hmay hturn hkind hnew hring hctx d
  refine ⟨fun hfar => ?_, fun e hfar he => ?_, fun hfar he hnone hfetched => ?_⟩
  · rw [State.takeDescriptor_of_ahead (s := (s.at t).turnTo r x) _ hfar] at hfetch
    obtain ⟨hmoved, hctxs, hsmax, hhere⟩ := State.started_in_turn (s := s.at t) hx h d
    exact answers_of_next rfl hfetch ⟨hctxs, (congrArg (tabGet 0 · r) hsmax).trans (State.smax_startCommand h), hmoved, hhere⟩
  · rw [State.takeDescriptor_of_done (s := (s.at t).turnTo r x) _ hfar he] at hfetch
    exact answers_of_next rfl hfetch (State.answered_in_turn (s := s.at t) hr hy hc _ _)
  · rw [State.takeDescriptor_of_unknown (s := (s.at t).turnTo r x) _ hfar he hnone State.ring_turnTo hfetched] at hfetch
    exact answers_of_next rfl hfetch (State.answered_in_turn (s := s.at t) hr hy hc _ _)

/-- Settles O35; for the function level reset, a ring of the function is stopped once, since the keys of the ring table rise, and no
other ring is (`State.each_stopRing_of_mem`, `State.each_stopRing_ne`). -/
theorem interruptsLinkAndReset : Obligations.InterruptsLinkAndReset := by
  refine ⟨?_, ?_, ?_, ?_, ?_, ?_, ?_⟩
  · intro s r t0 x hx hfirst hvec
    have hraise : s.coalesced r =
        ((s.at (t0 + 1000 * x.nt)).setRing r { x with fresh := 0, firstAt := none }).emit (.msix x.fn x.vec) := by
      simp only [State.coalesced, hx, hfirst]
      exact State.ringInterrupt_of_unmasked (s := s.at (t0 + 1000 * x.nt)) hx hvec
    exact answers_of_next rfl hraise ⟨rfl, rfl, State.ring_setRing .., rfl⟩
  · intro s t fn vec hpending
    refine answers_of_next rfl (State.msixMask_of_pending (s := s.at t) hpending) ⟨rfl, ?_, by simp, rfl⟩
    show (fn, vec) ∈ if s.hif.unmasked.contains (fn, vec) then s.hif.unmasked else s.hif.unmasked ++ [(fn, vec)]
    split
    · next h => exact List.contains_iff_mem.1 h
    · exact List.mem_concat_self
  · intro s t fn vec
    exact ⟨_, rfl, by simp [State.msixMask], rfl, rfl, rfl⟩
  · intro s t
    have hget {g : Fld} (hg : g ∈ linkFields) : (s.at t).clearLink.get g = 0 := State.get_clearLink _ hg
    exact ⟨_, rfl, hget (by decide), hget (by decide), hget (by decide), hget (by decide), rfl,
      fun a ha => (s.at t).reg_clearLink ha, rfl⟩
  · intro s t speed width cxl hspeed hwidth
    let v := (s.at t).comesUp cxl
    have hget (g : Fld) : (v.linkTrained speed width (s.at t).hostDeliver).get g = (v.showTrained speed width).get g :=
      State.get_of_regs (v.linkTrained_regs _) g
    refine answers_of_next (exec_linkUp_of_no_read s t speed width cxl) rfl ⟨?_, ?_, ?_, ?_, v.linkTrained_hif _⟩
    · rw [hget, State.get_showTrained v (by decide) (by decide) (by decide)]
      exact (s.at t).linkUp_comesUp cxl
    · rw [hget, State.speed_showTrained v hspeed]
    · rw [hget, State.width_showTrained v hwidth]
    · rw [hget, State.get_showTrained v (by decide) (by decide) (by decide)]
      exact (s.at t).watchMode_comesUp cxl
  · intro s t speed width hspeed hwidth hup
    let v := s.at t
    have hget (g : Fld) : (v.linkTrained speed width v.hostDeliver).get g = (v.showTrained speed width).get g :=
      State.get_of_regs (v.linkTrained_regs _) g
    have htrain : (if s.flag F.HIF_STAT.LINK_UP then v.linkTrained speed width v.hostDeliver else v) =
        v.linkTrained speed width v.hostDeliver := if_pos hup
    exact answers_of_next rfl htrain ⟨(hget _).trans (v.speed_showTrained hspeed), (hget _).trans (v.width_showTrained hwidth),
      v.evals_linkTrained _ hspeed hwidth⟩
  · intro s t f hpos hlt hsorted
    have hflr : (if f < 64 then (s.at t).flr f else s.at t) = (s.at t).flr f := if_pos hlt
    refine answers_of_next rfl hflr
      ⟨fun r x hx hfn => ?_, fun r x hx hfn => ?_, State.sessions_flr hpos, State.unmasked_flr hpos⟩
    · rw [State.ring_flr hpos, State.stopRings_eq]
      refine State.each_stopRing_of_mem (((tabSorted_iff _).1 hsorted).filter _) ?_ hx
      exact List.mem_filter.2 ⟨mem_of_tabFind hx, decide_eq_true hfn⟩
    · rw [State.ring_flr hpos, State.stopRings_eq]
      refine (State.each_stopRing_ne (s := s.at t) fun p hp hkey => ?_).trans hx
      obtain ⟨hp, hpf⟩ := List.mem_filter.1 hp
      obtain rfl := eq_of_mem_tabSorted hsorted hp (mem_of_tabFind hx) hkey
      exact hfn (of_decide_eq_true hpf)

end Sys2Proof

/-!
Mailboxes and lock registers (spec/11_aidor_firmware.md, R316, R333–R339): what an access by each requester does to a mailbox, its
binding and a lock.
-/

namespace Sys2Proof

namespace Machine

/-! ### The two ends of a mailbox -/

theorem other_end_ne (e : Bool) : (!e) ≠ e := by cases e <;> decide

/-- The state with one end of a mailbox replaced. -/
def State.setEnd (s : State) (m : Nat) (e : Bool) (x : MbxEnd) : State := s.setBox m ((s.box m).setSide e x)

theorem State.side_setEnd (s : State) (m : Nat) (e : Bool) (x : MbxEnd) : ((s.setEnd m e x).box m).side e = x := by
  rw [State.setEnd, State.box_setBox]
  cases e <;> rfl

theorem State.side_setEnd_ne (s : State) (m : Nat) {e d : Bool} (h : e ≠ d) (x : MbxEnd) :
    ((s.setEnd m e x).box m).side d = (s.box m).side d := by
  obtain rfl : d = !e := Bool.eq_not_of_ne h.symm
  rw [State.setEnd, State.box_setBox]
  cases e <;> rfl

theorem State.box_emit (s : State) (o : Out) (j : Nat) : (s.emit o).box j = s.box j := rfl

/-- A context reference that a core receives changes nothing but Aidor's notes (R337). -/
theorem State.box_received (s : State) (m core w j : Nat) : (s.received m core w).box j = s.box j := by
  have hmbx : (s.received m core w).mbx = s.mbx :=
    (keeps_received m core w sub_refl keeps_refl).same_of_not_mem (p := .mbx) (by decide)
  exact congrArg (fun x : Mboxes => tabGet Mbx.empty x.boxes j) hmbx

theorem State.out_received (s : State) (m core w : Nat) : (s.received m core w).out = s.out := by
  unfold State.received
  split <;> rfl

/-- An end whose pending bits pass its mask interrupts its requester, unless that is the host or without power (R335). -/
theorem State.mbxInterrupt_of_unmasked {s : State} {m : Nat} {e : Bool}
    (hbits : unmaskedBits ((s.box m).side e).pend ((s.box m).side e).mask ≠ 0)
    (hon : s.domainOff (domainOf (s.endReq m e)) = false) (hhost : s.endReq m e ≠ hostReq) :
    s.mbxInterrupt m e = s.emit (.irq (s.endReq m e) m) := by
  simp [State.mbxInterrupt, hbits, hon, hhost]

/-! ### Accesses to a mailbox (R333–R335) -/

/-- An access by a requester that is bound to neither end records the error and does nothing more. -/
theorem State.withEnd_of_foreign {s : State} {m req : Nat} (he : s.endOf m req = none) (f : Bool → State) :
    s.withEnd req m f = s.foreign := by
  simp only [State.withEnd, he]

section
variable {s : State} {m req : Nat} {e : Bool} (he : s.endOf m req = some e)
include he

/-- A read by a bound requester of a mailbox that is not in use answers 0 (DESIGN CHOICE, log entry 90). -/
theorem State.mbxRecv_of_disabled (hen : s.flag (F.MBX_CFG.ENABLE m) = false) :
    s.mbxRecv req m = s.emit (.readData req (R.MBX_RECV m) 0) := by
  simp [State.mbxRecv, he, hen]

variable (hen : s.flag (F.MBX_CFG.ENABLE m) = true)
include hen

theorem State.withEnd_of_bound (f : Bool → State) : s.withEnd req m f = f e := by
  simp only [State.withEnd, he, hen, if_true]

theorem State.mbxSend_of_room (hready : ((s.box m).side (!e)).ready = true) (hroom : ((s.box m).side (!e)).queue.length < 8)
    (val : Nat) : s.mbxSend req m val = s.setEnd m (!e)
      { (s.box m).side (!e) with queue := ((s.box m).side (!e)).queue ++ [val % 2 ^ 64] } := by
  refine (State.withEnd_of_bound he hen _).trans ?_
  simp only [hready, Bool.not_true, Bool.false_eq_true, if_false, State.setEnd, if_neg (Nat.not_le.2 hroom)]

theorem State.mbxSend_of_full (hready : ((s.box m).side (!e)).ready = true) (hfull : 8 ≤ ((s.box m).side (!e)).queue.length)
    (val : Nat) : s.mbxSend req m val = s.setEnd m e { (s.box m).side e with overflow := true } := by
  refine (State.withEnd_of_bound he hen _).trans ?_
  simp only [hready, Bool.not_true, Bool.false_eq_true, if_false, State.setEnd, if_pos (show _ ≥ 8 from hfull)]

theorem State.mbxSend_of_not_ready (hready : ((s.box m).side (!e)).ready = false) (val : Nat) :
    s.mbxSend req m val = s.setEnd m e { (s.box m).side e with dropped := true } := by
  refine (State.withEnd_of_bound he hen _).trans ?_
  simp only [hready, Bool.not_false, if_true, State.setEnd]

theorem State.mbxRecv_of_word {w : Nat} {ws : List Nat} (hq : ((s.box m).side e).queue = w :: ws) :
    s.mbxRecv req m = ((s.setEnd m e { (s.box m).side e with queue := ws }).received m (req - 1) w).emit
      (.readData req (R.MBX_RECV m) w) := by
  simp [State.mbxRecv, he, hen, hq, State.setEnd]

theorem State.mbxRecv_of_empty (hq : ((s.box m).side e).queue = []) :
    s.mbxRecv req m = (s.setEnd m e { (s.box m).side e with underflow := true }).emit
      (.readData req (R.MBX_RECV m) 0) := by
  simp [State.mbxRecv, he, hen, hq, State.setEnd]

/-- A doorbell toward a ready end with power sets its pending bits but bit 31; an interrupt follows where they pass its mask. -/
theorem State.mbxRing_of_ready (hready : ((s.box m).side (!e)).ready = true) {val : Nat} (hbits : val % 2 ^ 31 ≠ 0)
    (hon : s.domainOff (domainOf (s.endReq m (!e))) = false) :
    s.mbxRing req m val = (s.setEnd m (!e)
      { (s.box m).side (!e) with pend := ((s.box m).side (!e)).pend ||| val % 2 ^ 31 }).mbxInterrupt m (!e) := by
  have hpower (b : Mbx) : (s.setBox m b).domainOff (domainOf ((s.setBox m b).endReq m (!e))) = false := hon
  refine (State.withEnd_of_bound he hen _).trans ?_
  simp only [hready, hbits, hpower, Bool.not_true, Bool.and_false, Bool.false_eq_true, if_false, State.setEnd]

end

/-! ### Register errors (R504, R512) -/

/-- The error bit that an access sets is not moved by the record of the access. -/
theorem State.get_sysErr_bit (s : State) {i : Nat} (hi : i < 64) (req size off : Nat) :
    (s.sysErr ⟨R.SYS_ERR, i, i⟩ req size off).get ⟨R.SYS_ERR, i, i⟩ = 1 := by
  have hne {f : Fld} (hf : f.addr = R.SYS_ERR_INFO) : f.addr ≠ R.SYS_ERR := by rw [hf]; decide
  unfold State.sysErr
  rw [State.get_put_ne _ _ _ _ (hne rfl), State.get_put_ne _ _ _ _ (hne rfl), State.get_put_ne _ _ _ _ (hne rfl),
    State.get_put_ne _ _ _ _ (hne rfl), State.get_put_bit _ _ _ hi]

theorem State.get_sysErr_ne (s : State) {f g : Fld} (hf : f.addr ≠ g.addr) (hinfo : R.SYS_ERR_INFO ≠ g.addr)
    (req size off : Nat) : (s.sysErr f req size off).get g = s.get g := by
  unfold State.sysErr
  rw [State.get_put_ne _ _ _ _ hinfo, State.get_put_ne _ _ _ _ hinfo, State.get_put_ne _ _ _ _ hinfo,
    State.get_put_ne _ _ _ _ hinfo, State.get_put_ne _ _ _ _ hf]

/-! ### The binding of a mailbox (R316, R333) -/

/-- A bit range of a number written to a register. -/
theorem getBits_ofNat (n : Nat) {hi lo : Nat} (hl : lo ≤ hi) (h : hi < 64) :
    getBits (BitVec.ofNat 64 n) hi lo = n / 2 ^ lo % 2 ^ (hi - lo + 1) := by
  rw [← natBits_getBits _ hl h, getBits_ofNat_low n (by decide), natBits, Nat.shiftRight_eq_div_pow]
  refine Nat.eq_of_testBit_eq fun i => ?_
  simp only [Nat.testBit_mod_two_pow, Nat.testBit_div_two_pow]
  by_cases hi' : i < hi - lo + 1
  · have : i + lo < 64 := by omega
    simp [hi', this]
  · simp [hi']

/-- The value of MBX_CFG that a write of a disabled mailbox leaves. -/
def mbxCfgWord (on : Bool) (end0 end1 : Nat) : Word :=
  setBits (setBits (setBits 0 63 63 (bit on)) 15 8 end1) 7 0 end0

section
variable (on : Bool) (end0 end1 : Nat)

theorem end0_mbxCfgWord : getBits (mbxCfgWord on end0 end1) 7 0 = end0 % 256 :=
  getBits_setBits_same _ _ (by decide) (by decide)

theorem end1_mbxCfgWord : getBits (mbxCfgWord on end0 end1) 15 8 = end1 % 256 :=
  (getBits_setBits_apart _ _ (by decide) (by decide) (by decide) (by decide) (by decide)).trans
    (getBits_setBits_same _ _ (by decide) (by decide))

theorem enable_mbxCfgWord : getBits (mbxCfgWord on end0 end1) 63 63 = bit on :=
  calc getBits (mbxCfgWord on end0 end1) 63 63
    _ = getBits (setBits (setBits 0 63 63 (bit on)) 15 8 end1) 63 63 :=
        getBits_setBits_apart _ _ (by decide) (by decide) (by decide) (by decide) (by decide)
    _ = getBits (setBits 0 63 63 (bit on)) 63 63 :=
        getBits_setBits_apart _ _ (by decide) (by decide) (by decide) (by decide) (by decide)
    _ = bit on % 2 := getBits_setBits_same _ _ (by decide) (by decide)
    _ = bit on := bit_mod_two on

end

/-! The three fields of a number written to MBX_CFG (R348). -/

theorem enable_of_ofNat (m val : Nat) : (F.MBX_CFG.ENABLE m).of (BitVec.ofNat 64 val) = val / 2 ^ 63 % 2 :=
  getBits_ofNat val (hi := 63) (lo := 63) (by decide) (by decide)

theorem end0_of_ofNat (m val : Nat) : (F.MBX_CFG.END0 m).of (BitVec.ofNat 64 val) = val % 256 :=
  getBits_ofNat_low val (hi := 7) (by decide)

theorem end1_of_ofNat (m val : Nat) : (F.MBX_CFG.END1 m).of (BitVec.ofNat 64 val) = val / 256 % 256 :=
  getBits_ofNat val (hi := 15) (lo := 8) (by decide) (by decide)

section
variable {s : State} {req m val : Nat}

theorem State.mbxCfg_of_not_core (hcore : isControlCore req = false) :
    s.mbxCfg req m val = s.sysErr F.SYS_ERR.HOST_DENIED req 8 (R.MBX_CFG m) := by
  simp only [State.mbxCfg, hcore, Bool.not_false, if_true]

variable (hcore : isControlCore req = true)
include hcore

theorem State.mbxCfg_of_enabled (hen : s.flag (F.MBX_CFG.ENABLE m) = true) (hon : val / 2 ^ 63 % 2 = 1) :
    s.mbxCfg req m val = s.put F.MBX_ERR.CFG 1 := by
  simp only [State.mbxCfg, hcore, hen, enable_of_ofNat, hon, Bool.not_true, Bool.false_eq_true, if_false, if_true]

theorem State.mbxCfg_of_disabled (hen : s.flag (F.MBX_CFG.ENABLE m) = false) (h0 : val % 256 ≤ 62) (h1 : val / 256 % 256 ≤ 62) :
    s.mbxCfg req m val = s.setReg (R.MBX_CFG m) (mbxCfgWord (val / 2 ^ 63 % 2 = 1) (val % 256) (val / 256 % 256)) := by
  have hends : ¬(decide (val % 256 > 62) || decide (val / 256 % 256 > 62)) = true := by simp [h0, h1]
  simp only [State.mbxCfg, hcore, hen, enable_of_ofNat, end0_of_ofNat, end1_of_ofNat, Bool.not_true, Bool.false_eq_true, if_false,
    if_neg hends, mbxCfgWord]

end

theorem bit_decide_mod_two (n : Nat) : bit (decide (n % 2 = 1)) = n % 2 := by
  rcases Nat.mod_two_eq_zero_or_one n with h | h <;> rw [h] <;> rfl

/-! ### Locks (R338, R339) -/

theorem State.get_put_owner (s : State) (l v : Nat) : (s.put (F.LCK_l.OWNER l) v).get (F.LCK_l.OWNER l) = v % 256 :=
  State.get_put _ _ _ (by decide : 0 ≤ 7) (by decide : 7 < 64)

theorem lck_ne_of_outside {l a : Nat} (hl : l < 64) (ha : a < R.LCK_l 0 ∨ R.LCK_l 64 ≤ a) : a ≠ R.LCK_l l := by
  simp only [R.LCK_l] at ha ⊢
  omega

theorem State.lockWrite_of_owner {s : State} {req l val : Nat} (hreq : req ≠ 0) (hval : val % 256 = req)
    (howner : s.get (F.LCK_l.OWNER l) = req) : s.lockWrite req l val = s.put (F.LCK_l.OWNER l) 0 :=
  if_pos (by simp [hval, howner, hreq])

theorem State.lockWrite_of_other {s : State} {req l val : Nat} (h : val % 256 ≠ req ∨ s.get (F.LCK_l.OWNER l) ≠ req) :
    s.lockWrite req l val = s.put F.LCK_ERR.BAD_RELEASE 1 :=
  if_neg (by rcases h with h | h <;> simp [h])

theorem State.lockRead_of_free {s : State} {l : Nat} (h : s.get (F.LCK_l.OWNER l) = 0) (req : Nat) :
    s.lockRead req l = (s.put (F.LCK_l.OWNER l) req).emit (.readData req (R.LCK_l l) 0) := by
  simp only [State.lockRead, h, if_true]

theorem State.lockRead_of_held {s : State} {l : Nat} (h : s.get (F.LCK_l.OWNER l) ≠ 0) (req : Nat) :
    s.lockRead req l = s.emit (.readData req (R.LCK_l l) (s.get (F.LCK_l.OWNER l))) := by
  simp only [State.lockRead, h, if_false]

end Machine

open Machine

/-- A write row of a requester that reaches the register answers what the write does. -/
theorem answers_of_asReq {c : Instr} {s u : State} {req off size val t : Nat} {f : State → State} {P : State → Prop}
    (hc : exec c s = .next ((s.at t).asReq req off size val f)) (hr : s.reaches req off = true) (hf : f (s.at t) = u) (h : P u) :
    Answers c s P :=
  answers_of_next hc ((State.asReq_of_reaches (s := s.at t) hr ..).trans hf) h

/-- A read row of a requester that reaches the register answers what the read does. -/
theorem answers_of_asReader {c : Instr} {s u : State} {req off size t : Nat} {f : State → State} {P : State → Prop}
    (hc : exec c s = .next ((s.at t).asReader req off size f)) (hr : s.reaches req off = true) (hf : f (s.at t) = u) (h : P u) :
    Answers c s P :=
  answers_of_next hc ((State.asReader_of_reaches (s := s.at t) hr ..).trans hf) h

/-- Settles O30: each access of a bound requester replaces one end of its mailbox, by the lemma for its case; the other end and
the outputs are read off.  A mailbox not in use answers 0 by log entry 90. -/
theorem mailboxes : Obligations.Mailboxes := by
  refine ⟨?_, ?_, ?_, ?_, ?_, ?_, ?_⟩
  · intro s t req m val e b he hen hready hroom hr
    exact answers_of_asReq rfl hr (State.mbxSend_of_room (s := s.at t) he hen hready hroom val)
      ⟨congrArg MbxEnd.queue (State.side_setEnd ..), State.side_setEnd_ne _ _ (other_end_ne e) _⟩
  · intro s t req m val e b he hen hfail hr
    cases hready : (b.side (!e)).ready with
    | true =>
      have hfull : 8 ≤ (b.side (!e)).queue.length := hfail.resolve_left (by simp [hready])
      refine answers_of_asReq rfl hr (State.mbxSend_of_full (s := s.at t) he hen hready hfull val) ?_
      rw [State.side_setEnd, State.side_setEnd_ne _ _ (other_end_ne e).symm]
      exact ⟨rfl, rfl, rfl⟩
    | false =>
      refine answers_of_asReq rfl hr (State.mbxSend_of_not_ready (s := s.at t) he hen hready val) ?_
      rw [State.side_setEnd, State.side_setEnd_ne _ _ (other_end_ne e).symm]
      exact ⟨rfl, rfl, rfl⟩
  · intro s t req m w ws e he hen hq hr
    refine answers_of_asReader rfl hr (State.mbxRecv_of_word (s := s.at t) he hen hq) ?_
    rw [State.box_emit, State.box_received, State.side_setEnd, State.side_setEnd_ne _ _ (other_end_ne e).symm]
    exact ⟨rfl, rfl, congrArg (· ++ [_]) (State.out_received ..)⟩
  · intro s t req m e he hen hq hr
    refine answers_of_asReader rfl hr (State.mbxRecv_of_empty (s := s.at t) he hen hq) ?_
    rw [State.box_emit, State.side_setEnd]
    exact ⟨rfl, rfl⟩
  · intro s t req m val e x he hen hready hval hbits hhost hon hr
    let v := (s.at t).setEnd m (!e) { x with pend := x.pend ||| val % 2 ^ 31 }
    have hside : (v.box m).side (!e) = { x with pend := x.pend ||| val % 2 ^ 31 } := State.side_setEnd ..
    have hring : (s.at t).mbxRing req m val = v.emit (.irq (v.endReq m (!e)) m) :=
      (State.mbxRing_of_ready (s := s.at t) he hen hready hval hon).trans
        (State.mbxInterrupt_of_unmasked (s := v) (by rwa [hside]) hon hhost)
    exact answers_of_asReq rfl hr hring ⟨congrArg MbxEnd.pend hside, rfl⟩
  · intro s t req m e he hen hr
    exact answers_of_asReader rfl hr (State.mbxRecv_of_disabled (s := s.at t) he hen) ⟨rfl, rfl⟩
  · intro s t req m val he hr
    exact answers_of_asReq rfl hr (State.withEnd_of_foreign (s := s.at t) he _) ⟨State.get_put_bit _ _ _ (by decide), rfl⟩

/-- Settles O31: who writes decides what a write of the binding, of a lock or of LCK_FORCE is; the error registers stand outside
the bindings and the locks, so that a refused write leaves them. -/
theorem locksAndBinding : Obligations.LocksAndBinding := by
  refine ⟨?_, ?_, ?_, ?_, ?_, ?_, ?_, ?_⟩
  · intro s t req m val _ hcore hen h0 h1 hr
    let w := mbxCfgWord (val / 2 ^ 63 % 2 = 1) (val % 256) (val / 256 % 256)
    have hreg : ((s.at t).setReg (R.MBX_CFG m) w).reg (R.MBX_CFG m) = w := State.reg_setReg_self ..
    have hget {f : Fld} (hf : f.addr = R.MBX_CFG m) : ((s.at t).setReg (R.MBX_CFG m) w).get f = f.of w := by
      rw [State.get, hf, hreg, Fld.of]
    refine answers_of_asReq rfl hr (State.mbxCfg_of_disabled (s := s.at t) hcore hen h0 h1) ⟨?_, ?_, ?_, rfl⟩
    · exact (hget rfl).trans ((end0_mbxCfgWord ..).trans (Nat.mod_mod ..))
    · exact (hget rfl).trans ((end1_mbxCfgWord ..).trans (Nat.mod_mod ..))
    · exact (hget rfl).trans ((enable_mbxCfgWord ..).trans (bit_decide_mod_two _))
  · intro s t req m val hm hcore hen hon hr
    have hne : R.MBX_ERR ≠ R.MBX_CFG m := by simp only [R.MBX_ERR, R.MBX_CFG]; omega
    exact answers_of_asReq rfl hr (State.mbxCfg_of_enabled (s := s.at t) hcore hen hon)
      ⟨State.get_put_bit _ _ _ (by decide), State.reg_setReg_ne _ _ hne, rfl⟩
  · intro s t req m val hcore hr
    exact answers_of_asReq rfl hr (State.mbxCfg_of_not_core (s := s.at t) hcore)
      ⟨State.get_sysErr_bit _ (by decide) _ _ _, rfl⟩
  · intro s t req l _ hreq hr
    by_cases howner : s.get (F.LCK_l.OWNER l) = 0
    · refine answers_of_asReader rfl hr (State.lockRead_of_free (s := s.at t) howner req) ?_
      dsimp only
      rw [howner, if_pos rfl]
      exact ⟨(State.get_put_owner ..).trans (Nat.mod_eq_of_lt hreq), rfl⟩
    · refine answers_of_asReader rfl hr (State.lockRead_of_held (s := s.at t) howner req) ?_
      exact ⟨(if_neg howner).symm, rfl⟩
  · intro s t req l val _ hreq hval howner hr
    exact answers_of_asReq rfl hr (State.lockWrite_of_owner (s := s.at t) hreq hval howner) (State.get_put_owner ..)
  · intro s t req l val hl h hr
    exact answers_of_asReq rfl hr (State.lockWrite_of_other (s := s.at t) h)
      ⟨State.get_put_bit _ _ _ (by decide), State.get_put_ne _ _ _ _ (lck_ne_of_outside hl (by decide))⟩
  · intro s t req val hcore hr
    exact answers_of_asReq rfl hr (if_pos hcore) (State.get_put_owner ..)
  · intro s t req val hcore hr
    refine answers_of_asReq rfl hr (if_neg (by simp [hcore])) ⟨State.get_sysErr_bit _ (by decide) _ _ _, fun l hl => ?_⟩
    exact State.get_sysErr_ne _ (lck_ne_of_outside hl (by decide)) (lck_ne_of_outside hl (by decide)) _ _ _

end Sys2Proof
